-- ==== Sys2Proof/Word.lean ====
section
/-! DEFINITION. The word sizes of the Aubuotte (R2) and the types the spec reads as bits. -/

namespace Sys2Proof

/-- A 36-bit word (R2): a register, a core's general register, the timebase count. -/
abbrev Word := BitVec 36

/-- A 9-bit nib, the addressable unit (R2, R4). -/
abbrev Nib := BitVec 9

/-- An 18-bit half (R2). -/
abbrev Half := BitVec 18

/-- An octet of a stream (R6). -/
abbrev Octet := BitVec 8

end Sys2Proof
end

