-- ==== Sys2Proof/Syntax.lean ====
section
/-! DEFINITION. The commands and events of the Aubuotte (spec/opcode_table.json): one constructor of `Instr` per row,
with the operands the row takes.  A write row carries its writer and the word written; an event row carries what the
event senses outside the block (a current, a frame, a level).  A block that runs instructions (R450) takes each
instruction as a command that names its core. -/

namespace Sys2Proof

/-- The worlds of R402 and R450: TRUST, OPEN and SEAL. -/
inductive World where
  | trust | opn | seal
  deriving DecidableEq, Repr

/-- A writer: its requester number as LASTERR.REQ codes it (0–3 Quill core, 4 Signet, 5 Ethernet DMA, 6 ROM, 7 DBG,
8 Blotter, 9 hardware) and the world it writes from. -/
structure Src where
  req   : Nat
  world : World
  deriving DecidableEq, Repr

/-- The peripheral blocks of R28. -/
inductive Blk where
  | sys | pwr | aon | folio | safe | icu | rule | tmr | psg | psc0 | psc1 | stk | mot | lgt | lch | inp
  | can (n : Fin 8) | nmg | lin (n : Fin 12) | ts (n : Fin 4) | tx (n : Fin 2) | ring | spic (n : Fin 2) | dbg
  | vault | acc | crypt
  deriving DecidableEq, Repr

/-- The clock islands of R15, in the bit order of SYS_ISLRDY from bit 0. -/
inductive Island where
  | qa | qb | signet | fabric | tbase | power | light | net | ring | store | aon
  deriving DecidableEq, Repr

/-- What caused a power-on reset (R44, R610). -/
inductive PorCause where
  | unpowered | undervoltage | aonBrownout
  deriving DecidableEq, Repr

/-- What a boot meets outside the logic (R528, R530): unrepairable arrays (0–3 tightly coupled memory, 4 Inkwell,
5 Signet private memory, 6 message memory), the store, the root, pairs whose decode table fails, islands that do not
power up, the monitor test, the RECOVERY terminal, and the step (if any) at which the boot hangs: 0–10, with 16 and 17 for
S6 and S7 run again after a fall-back. -/
structure BootIn where
  sramBad  : List Nat
  storeOk  : Bool
  rootOk   : Bool
  decoBad  : List Nat
  islBad   : List Nat
  monOk    : Bool
  recPin   : Bool
  hang     : Option Nat
  deriving DecidableEq, Repr

/-- A boot that meets no failure. -/
def BootIn.good : BootIn := ⟨[], true, true, [], [], true, false, none⟩

/-- The four copies of a fabric, vault or stroke target are plain numbers; a core is Quill 0–3 or Signet (4). -/
abbrev CoreId := Fin 5

/-- A general register number. -/
abbrev Reg := Fin 32

/-- The trips of the decision order (R167), in its order of precedence. -/
inductive TripCause where
  | therm | sc | ilimt | wire
  deriving DecidableEq, Repr

/-- What a channel's sense gives for one evaluation (R135, R155): the function (a pair's members each), the mean square
of its own current and of the current its wire model uses in mA², the latest on-state current and the 100 µs average in
0.1 mA, the output voltage in mV, the junction temperature in °C. -/
structure ChanSense where
  f    : Nat
  i2   : Nat
  i2w  : Nat
  cur  : Nat
  iavg : Nat
  vout : Nat
  tj   : Int
  deriving DecidableEq, Repr


/-- A frame of a CAN bus (identifier and attributes as R323's word 0, DLC, octets) or of Ethernet (octets from the
destination address to the last before the FCS). -/
inductive NetFrame where
  | can (w0 : BitVec 36) (dlc : Nat) (data : List Nat)
  | eth (octets : List Nat)
  deriving DecidableEq, Repr

/-- What a transceiver's wake detector sees (R392, R394): a dominant, a recessive and a dominant phase, in ns; a carrier on
the line for so many ns; a correctly decoded classical frame; a stuff, form or CRC error. -/
inductive XcvrEvent where
  | pattern (dom1 recess dom2 : Nat) | energy (ns : Nat) | frame (w0 : BitVec 36) (dlc : Nat) (data : List Nat) | frameError
  deriving DecidableEq, Repr

/-- The step of an error counter that ISO 11898-1 gives for an error (R337). -/
inductive CanStep where
  | none | one | eight
  deriving DecidableEq, Repr

/-- The end symbols of a ring frame (R357). -/
inductive RingEnd where
  | eof | eofA | eofN | abort
  deriving DecidableEq, Repr

/-- The commands of the block, one constructor per row of the table: the instructions, the events that may wait for the end of
their tick, then the rest in the table's order. -/
inductive Instr where
  /-- ADD (R489): wd := wa + wb with add-class flags. -/
  | add (c : CoreId) (wd : Reg) (wa : Reg) (wb : Reg)
  /-- ADC (R489): wd := wa + wb + C with add-class flags. -/
  | adc (c : CoreId) (wd : Reg) (wa : Reg) (wb : Reg)
  /-- SUB (R489): wd := wa − wb with subtract-class flags. -/
  | sub (c : CoreId) (wd : Reg) (wa : Reg) (wb : Reg)
  /-- SBC (R489): wd := wa − wb − (1 − C) with subtract-class flags. -/
  | sbc (c : CoreId) (wd : Reg) (wa : Reg) (wb : Reg)
  /-- AND (R489): wd := wa and wb with logical flags. -/
  | and_ (c : CoreId) (wd : Reg) (wa : Reg) (wb : Reg)
  /-- OR (R489): wd := wa or wb with logical flags. -/
  | or_ (c : CoreId) (wd : Reg) (wa : Reg) (wb : Reg)
  /-- XOR (R489): wd := wa xor wb with logical flags. -/
  | xor (c : CoreId) (wd : Reg) (wa : Reg) (wb : Reg)
  /-- ANDN (R489): wd := wa and not wb with logical flags. -/
  | andn (c : CoreId) (wd : Reg) (wa : Reg) (wb : Reg)
  /-- SHL (R490): wd := wa shifted left by wb[7:0]. -/
  | shl (c : CoreId) (wd : Reg) (wa : Reg) (wb : Reg)
  /-- SHR (R490): wd := wa shifted right by wb[7:0] with zeros in. -/
  | shr (c : CoreId) (wd : Reg) (wa : Reg) (wb : Reg)
  /-- SAR (R490): wd := wa shifted right arithmetically by wb[7:0]. -/
  | sar (c : CoreId) (wd : Reg) (wa : Reg) (wb : Reg)
  /-- ROL (R490): wd := wa rotated left by wb[7:0] mod 36. -/
  | rol (c : CoreId) (wd : Reg) (wa : Reg) (wb : Reg)
  /-- ROR (R490): wd := wa rotated right by wb[7:0] mod 36. -/
  | ror (c : CoreId) (wd : Reg) (wa : Reg) (wb : Reg)
  /-- MUL (R492): wd := low 36 bits of wa × wb. -/
  | mul (c : CoreId) (wd : Reg) (wa : Reg) (wb : Reg)
  /-- MULH (R492): wd := high 36 bits of the signed product. -/
  | mulh (c : CoreId) (wd : Reg) (wa : Reg) (wb : Reg)
  /-- MULHU (R492): wd := high 36 bits of the unsigned product. -/
  | mulhu (c : CoreId) (wd : Reg) (wa : Reg) (wb : Reg)
  /-- DIV (R492): wd := signed quotient rounded toward zero. -/
  | div (c : CoreId) (wd : Reg) (wa : Reg) (wb : Reg)
  /-- DIVU (R492): wd := unsigned quotient. -/
  | divu (c : CoreId) (wd : Reg) (wa : Reg) (wb : Reg)
  /-- REM (R492): wd := signed remainder with the sign of wa. -/
  | rem (c : CoreId) (wd : Reg) (wa : Reg) (wb : Reg)
  /-- REMU (R492): wd := unsigned remainder. -/
  | remu (c : CoreId) (wd : Reg) (wa : Reg) (wb : Reg)
  /-- CLZ (R489): wd := leading zero bits of wa. -/
  | clz (c : CoreId) (wd : Reg) (wa : Reg)
  /-- CTZ (R489): wd := trailing zero bits of wa. -/
  | ctz (c : CoreId) (wd : Reg) (wa : Reg)
  /-- POPC (R489): wd := number of 1 bits of wa. -/
  | popc (c : CoreId) (wd : Reg) (wa : Reg)
  /-- NPRM (R494): wd := nib permute of wa under selector wb[7:0]. -/
  | nprm (c : CoreId) (wd : Reg) (wa : Reg) (wb : Reg)
  /-- OPK (R495): wd := dense pack of four octet nibs, first nib most significant. -/
  | opk (c : CoreId) (wd : Reg) (wa : Reg)
  /-- OPKL (R495): wd := little-endian dense pack of four octet nibs. -/
  | opkl (c : CoreId) (wd : Reg) (wa : Reg)
  /-- OUPK (R495): wd := unpack of a dense value into four octet nibs. -/
  | oupk (c : CoreId) (wd : Reg) (wa : Reg)
  /-- OUPKL (R495): wd := little-endian unpack into four octet nibs. -/
  | oupkl (c : CoreId) (wd : Reg) (wa : Reg)
  /-- ADDI (R491): wd := wa + signed imm18. -/
  | addi (c : CoreId) (wd : Reg) (wa : Reg) (imm : BitVec 18)
  /-- SUBI (R491): wd := wa − signed imm18. -/
  | subi (c : CoreId) (wd : Reg) (wa : Reg) (imm : BitVec 18)
  /-- ANDI (R491): wd := wa and unsigned imm18. -/
  | andi (c : CoreId) (wd : Reg) (wa : Reg) (imm : BitVec 18)
  /-- ORI (R491): wd := wa or unsigned imm18. -/
  | ori (c : CoreId) (wd : Reg) (wa : Reg) (imm : BitVec 18)
  /-- XORI (R491): wd := wa xor unsigned imm18. -/
  | xori (c : CoreId) (wd : Reg) (wa : Reg) (imm : BitVec 18)
  /-- LUI (R491): wd := imm18 × 2^18. -/
  | lui (c : CoreId) (wd : Reg) (imm : BitVec 18)
  /-- SHI (R491): Shift or rotate wa by an immediate amount of the selected kind. -/
  | shi (c : CoreId) (wd : Reg) (wa : Reg) (imm : BitVec 18)
  /-- NPRMI (R494): wd := nib permute of wa under an immediate selector. -/
  | nprmi (c : CoreId) (wd : Reg) (wa : Reg) (imm : BitVec 18)
  /-- BFX (R493): wd := zero-extended bit field of wa. -/
  | bfx (c : CoreId) (wd : Reg) (wa : Reg) (pos : BitVec 6) (len : BitVec 6)
  /-- BFXS (R493): wd := sign-extended bit field of wa. -/
  | bfxs (c : CoreId) (wd : Reg) (wa : Reg) (pos : BitVec 6) (len : BitVec 6)
  /-- BFI (R493): Insert the low bits of wa into a field of wd. -/
  | bfi (c : CoreId) (wd : Reg) (wa : Reg) (pos : BitVec 6) (len : BitVec 6)
  /-- LDW (R496): Load a word from the effective address. -/
  | ldw (c : CoreId) (wd : Reg) (wa : Reg) (imm : BitVec 18)
  /-- LDH (R496): Load a half zero-extended. -/
  | ldh (c : CoreId) (wd : Reg) (wa : Reg) (imm : BitVec 18)
  /-- LDHS (R496): Load a half sign-extended. -/
  | ldhs (c : CoreId) (wd : Reg) (wa : Reg) (imm : BitVec 18)
  /-- LDN (R496): Load a nib zero-extended. -/
  | ldn (c : CoreId) (wd : Reg) (wa : Reg) (imm : BitVec 18)
  /-- LDNS (R496): Load a nib sign-extended. -/
  | ldns (c : CoreId) (wd : Reg) (wa : Reg) (imm : BitVec 18)
  /-- STW (R496): Store a word, posted if to a device. -/
  | stw (c : CoreId) (ws : Reg) (wa : Reg) (imm : BitVec 18)
  /-- STH (R496): Store a half. -/
  | sth (c : CoreId) (ws : Reg) (wa : Reg) (imm : BitVec 18)
  /-- STN (R496): Store a nib. -/
  | stn (c : CoreId) (ws : Reg) (wa : Reg) (imm : BitVec 18)
  /-- LRES (R462): Load a word and reserve its granule. -/
  | lres (c : CoreId) (wd : Reg) (wa : Reg) (imm : BitVec 18)
  /-- SCOND (R462): Store only while the granule is reserved, writing success to wd. -/
  | scond (c : CoreId) (wd : Reg) (wa : Reg) (wb : Reg)
  /-- BR (R500): Branch by offset24 when the condition holds. -/
  | br (c : CoreId) (cond : BitVec 4) (off : BitVec 24)
  /-- JAL (R500): Jump by offset23 saving the return address in wl. -/
  | jal (c : CoreId) (wl : Reg) (off : BitVec 23)
  /-- JALR (R500): Jump to wa + imm18 saving the return address in wd. -/
  | jalr (c : CoreId) (wd : Reg) (wa : Reg) (imm : BitVec 18)
  /-- NOP (R501): Do nothing. -/
  | nop (c : CoreId)
  /-- FENCE_MEM (R37): Wait until every earlier normal-memory access is performed and visible. -/
  | fenceMem (c : CoreId)
  /-- FENCE_DEV (R37): Wait until earlier device writes take effect or are rejected, and report the reject flag in Z. -/
  | fenceDev (c : CoreId)
  /-- FENCE_ALL (R37): Act as both FENCE MEM and FENCE DEV. -/
  | fenceAll (c : CoreId)
  /-- WAIT (R478): Stop the core's clock and offer PWR_LTR.TOL to the power manager. -/
  | wait (c : CoreId)
  /-- SYS (R476): Take exception SYS with imm18 in ECAUSE.INFO. -/
  | sys (c : CoreId) (imm : BitVec 18)
  /-- SEAL (R413): Post a Signet service call with w1–w4 and wait for the reply. -/
  | seal_ (c : CoreId) (imm : BitVec 18)
  /-- RFE (R467): Restore flags, IE and world from ESAVE and continue at EPC. -/
  | rfe (c : CoreId)
  /-- MFS (R452): Copy a system register into a general register. -/
  | mfs (c : CoreId) (wd : Reg) (num : BitVec 18)
  /-- MTS (R502): Copy a general register into a system register from the next instruction. -/
  | mts (c : CoreId) (wa : Reg) (num : BitVec 18)
  /-- CACHE_INVALIDATE_I_RANGE (R503): CACHE function 0 invalidates instruction-cache lines over a range. -/
  | cacheInvalidateIRange (c : CoreId) (wa : Reg) (wb : Reg)
  /-- CACHE_INVALIDATE_D_RANGE (R503): CACHE function 1 invalidates data-cache lines over a range. -/
  | cacheInvalidateDRange (c : CoreId) (wa : Reg) (wb : Reg)
  /-- CACHE_INVALIDATE_I_ALL (R503): CACHE function 2 invalidates the whole instruction cache. -/
  | cacheInvalidateIAll (c : CoreId)
  /-- CACHE_INVALIDATE_D_ALL (R503): CACHE function 3 invalidates the whole data cache. -/
  | cacheInvalidateDAll (c : CoreId)
  /-- UX (R510): Run the core's decode-table entry as up to eight micro-operations. -/
  | ux (c : CoreId) (n : Fin 16) (wd : Reg) (wa : Reg) (wb : Reg) (fn : BitVec 13)
  /-- CRC32 (R518): Continue CRC-32 over the five octets of wb. -/
  | crc32 (c : CoreId) (wd : Reg) (wa : Reg) (wb : Reg) (idx : BitVec 8)
  /-- CRC32O (R518): Continue CRC-32 over one octet. -/
  | crc32o (c : CoreId) (wd : Reg) (wa : Reg) (wb : Reg) (idx : BitVec 8)
  /-- CRC16 (R518): Continue CRC-16 over the five octets of wb. -/
  | crc16 (c : CoreId) (wd : Reg) (wa : Reg) (wb : Reg) (idx : BitVec 8)
  /-- SHAINIT (R518): Set the SHA-256 state to its initial value. -/
  | shainit (c : CoreId) (idx : BitVec 8)
  /-- SHAW (R518): Append a message word, starting a compression at the 16th. -/
  | shaw (c : CoreId) (wa : Reg) (idx : BitVec 8)
  /-- SHARD (R518): Read one SHA-256 state word. -/
  | shard (c : CoreId) (wd : Reg) (idx : BitVec 8)
  /-- AESKEY (R518): Write one AES key word. -/
  | aeskey (c : CoreId) (wa : Reg) (idx : BitVec 8)
  /-- AESIN (R518): Write one AES state word. -/
  | aesin (c : CoreId) (wa : Reg) (idx : BitVec 8)
  /-- AESENC (R518): Encrypt the AES state with a 128- or 256-bit key. -/
  | aesenc (c : CoreId) (idx : BitVec 8)
  /-- AESDEC (R518): Decrypt the AES state with a 128- or 256-bit key. -/
  | aesdec (c : CoreId) (idx : BitVec 8)
  /-- AESOUT (R518): Read one AES state word. -/
  | aesout (c : CoreId) (wd : Reg) (idx : BitVec 8)
  /-- KSET (R519): Set a CP1 coefficient. -/
  | kset (c : CoreId) (wa : Reg) (idx : BitVec 8)
  /-- LAG (R519): First-order lag step with coefficient K[k]. -/
  | lag (c : CoreId) (wd : Reg) (wa : Reg) (wb : Reg) (idx : BitVec 8)
  /-- SQMAC (R519): Add the scaled square of wb to wa. -/
  | sqmac (c : CoreId) (wd : Reg) (wa : Reg) (wb : Reg) (idx : BitVec 8)
  /-- KRD (R519): Read a CP1 coefficient. -/
  | krd (c : CoreId) (wd : Reg) (idx : BitVec 8)
  /-- PSET (R520): Set a CP2 pattern entry's value and mask. -/
  | pset (c : CoreId) (wa : Reg) (wb : Reg) (idx : BitVec 8)
  /-- PCLR (R520): Invalidate every CP2 pattern entry. -/
  | pclr (c : CoreId) (idx : BitVec 8)
  /-- MATCH (R520): Match a header against every valid entry and latch the map. -/
  | match_ (c : CoreId) (wd : Reg) (wa : Reg) (idx : BitVec 8)
  /-- MAPLO (R520): Read the latched match map for entries 0–31. -/
  | maplo (c : CoreId) (wd : Reg) (idx : BitVec 8)
  /-- MAPHI (R520): Read the latched match map for entries 32–63. -/
  | maphi (c : CoreId) (wd : Reg) (idx : BitVec 8)
  /-- INRUSH_WINDOW_END (R159): The inrush window of WIN ms after a commanded turn-on closes. -/
  | inrushWindowEnd (f : Nat)
  /-- RETRY_DELAY_EXPIRY (R167): The retry delay elapses and the channel restarts into its return state if the release conditions hold. -/
  | retryDelayExpiry (f : Nat)
  /-- HEARTBEAT_EXPIRY (R143): The supervision timer expires, HBEXP sets and driven channels and lighting targets enter SAFE. -/
  | heartbeatExpiry
  /-- HOLD_EXPIRY (R145): The hold time ends, unclaimed targets enter SAFE and supervision resumes. -/
  | holdExpiry
  /-- MOVE_TIMEOUT (R215): A move lasting MAXT × 10 ms ends with stop cause 6. -/
  | moveTimeout (k : Nat)
  /-- WIPER_PARK_EDGE (R211): PARK_IN becomes active, ending a wiper cycle, pulsing PARKED and clearing POS. -/
  | wiperParkEdge (k : Nat)
  /-- WIPER_CYCLE_TIMEOUT (R213): A wiper cycle not parked within MAXT × 10 ms stops with cause 10. -/
  | wiperCycleTimeout (k : Nat)
  /-- BOOST_TIMEOUT (R227): TBOOST elapses without arrival and the engine enters PEAK with TTP 65,535. -/
  | boostTimeout (k : Nat)
  /-- STK_PEAK_TIME_END (R227): TPEAK elapses and the engine enters HOLD. -/
  | stkPeakTimeEnd (k : Nat) (current : Nat)
  /-- STK_HOLD_TIME_END (R227): THOLD elapses and the engine enters QUENCH. -/
  | stkHoldTimeEnd (k : Nat)
  /-- QUENCH_END (R227): TQ elapses, the engine goes IDLE, DONE sets and the DONE source pulses. -/
  | quenchEnd (k : Nat)
  /-- STRING_PWM_BOUNDARY (R253): A string driver's dimming period boundary applies the buffered period and granted duty. -/
  | stringPwmBoundary (n : Nat)
  /-- DIAG_AGE_EXPIRY (R264): No measuring period or test completes for AGE ms and UNDIAG sets. -/
  | diagAgeExpiry (isSink : Bool) (n : Nat)
  /-- LIN_RESPONSE_TIMEOUT (R343): The response timeout expires or the response is faulty, setting ERR. -/
  | linResponseTimeout (n : Fin 12) (err : Fin 6)
  /-- LIN_IDLE_TIMEOUT (R345): A responder with no bus activity for 4 s enters SLEEP. -/
  | linIdleTimeout (n : Fin 12)
  /-- RING_ACK_TIMEOUT (R366): No return within ACKTO × 10 µs resends the slot or ends it as no acceptance. -/
  | ringAckTimeout (slot : Fin 4)
  /-- RING_TIME_TIMEOUT (R368): No TIME frame for 3 ms in RUN makes the node enter CLAIM. -/
  | ringTimeTimeout
  /-- RING_TIME_RETURN_TIMEOUT (R373): A TIME frame not returned within 1 ms makes the keeper enter BROKEN. -/
  | ringTimeReturnTimeout
  /-- NMG_IDLE_TIMEOUT (R388): The idle timer reaches SLPTO × 10 ms and the channel enters PREPARE. -/
  | nmgIdleTimeout (c : Fin 12)
  /-- NMG_REPEAT_END (R390): The repeat time ends and the channel may return to READY. -/
  | nmgRepeatEnd (c : Fin 12)
  /-- NMG_SLEEP_COMMIT (R391): At the commit point the transceiver enters LOWPWR and the channel SLEEP. -/
  | nmgSleepCommit (c : Fin 12)
  /-- NMG_KEEPALIVE_DUE (R388): KAPER ms after the last keep-alive a new keep-alive is made pending. -/
  | nmgKeepaliveDue (c : Fin 12)
  /-- DBG_LINK_TIMEOUT (R605): 1 s passes without a DBG transfer and the DBG link stops counting as open, lifting the network island's LIFT limit. -/
  | dbgLinkTimeout
  /-- PARK_ENTRY_COMMIT (R561): After the saves, pads latch, the timebase count is recorded and power-down begins. -/
  | parkEntryCommit
  /-- TRIAL_EXPIRY (R541): The trial run time reaches 600 s and a WARM reset leads to fall-back. -/
  | trialExpiry
  /-- NMG_CONFIRM_TIMEOUT (R395): The confirmation window ends without a keep-alive and the wake counts as false. -/
  | nmgConfirmTimeout (c : Fin 12)
  /-- TRANSCEIVER_SERVICE_TIMEOUT (R393): A transceiver unserved for 2 s enters LOWPWR by itself. -/
  | transceiverServiceTimeout (c : Fin 12)
  /-- CHALLENGE_EXPIRY (R404): A challenge not used within 60 s becomes invalid. -/
  | challengeExpiry
  /-- KEY_LOAD_DONE (R410): A key load completes and DONE is set. -/
  | keyLoadDone
  /-- SEAL_CALL_TIMEOUT (R413): No reply within VAULT_CALLTO releases the caller with w1 := 0x10 and TOUT set. -/
  | sealCallTimeout (c : Fin 4)
  /-- EVAL_FRAME_END (R435): At the end of each 20 ms evaluation frame every code of the frame is checked in order. -/
  | evalFrameEnd
  /-- ACC_BACKOFF_END (R438): A back-off expires and the kept code joins that frame. -/
  | accBackoffEnd (ch : Fin 2)
  /-- SESSION_TIMEOUT (R444): The session timer expires in OPEN, the doors lock and the session ends EXPIRED. -/
  | sessionTimeout
  /-- GRACE_TIMEOUT (R444): The grace timer expires in ENTERED and the grant is withdrawn. -/
  | graceTimeout
  /-- RECOVERY_WINDOW_END (R548): The recovery request window closes and the start continues. -/
  | recoveryWindowEnd
  /-- RECOVERY_SEGMENT_TIMEOUT (R549): 100 ms between segments discards a partial recovery message. -/
  | recoverySegmentTimeout
  /-- POWER_ON_RESET (R44): KL30_LOGIC rising through its threshold, a logic undervoltage or an AON brown-out resets the whole device and runs the full boot. -/
  | powerOnReset (cause : PorCause) (b : BootIn)
  /-- RESET_N_ASSERT (R597): An active pulse of at least 1 µs on RESET_N causes a WARM reset. -/
  | resetNAssert (ns : Nat) (tbp : Int) (b : BootIn)
  /-- WARM_RESET (R45): A WARM reset resets every domain except AON, XCVR, PSA, PSB, LIGHT and NVM contents, starts a hold and reruns the boot. -/
  | warmReset (tbp : Int) (b : BootIn)
  /-- CORE_RESET (R533): A CORE reset of one Quill pair reruns S8 and S10 for that pair alone. -/
  | coreReset (pairB : Bool) (s8ok : Bool)
  /-- SYS_RESET_WARM (R47): A keyed SYS_RESET write with KIND 0 from TRUST requests a WARM reset. -/
  | sysResetWarm (src : Src) (b : BootIn)
  /-- SYS_RESET_CORE_A (R47): A keyed SYS_RESET write with KIND 1 requests a CORE reset of pair A. -/
  | sysResetCoreA (src : Src) (s8ok : Bool)
  /-- SYS_RESET_CORE_B (R47): A keyed SYS_RESET write with KIND 2 requests a CORE reset of pair B. -/
  | sysResetCoreB (src : Src) (s8ok : Bool)
  /-- BOOT_WATCHDOG_EXPIRY (R529): A boot step lasting 1 s fires the boot watchdog, which causes a WARM reset. -/
  | bootWatchdogExpiry (b : BootIn)
  /-- PLL1_LOSS (R14): When PLL1 is found lost, the timebase and power islands switch to the backup oscillator within 2 µs and the other PLL1 islands stop. -/
  | pll1Loss (crystal : Bool)
  /-- REGISTER_WRITE (R94): A device write that reaches a block with no row of its own is checked in order and accepted or rejected into LASTERR. -/
  | registerWrite (src : Src) (blk : Blk) (off : Nat) (w : Word)
  /-- ALIAS_SET_WRITE (R101): A write through the set alias sets each named bit of RW, RUN and CFG fields in one clock edge, checked as a plain write. -/
  | aliasSetWrite (src : Src) (blk : Blk) (off : Nat) (w : Word)
  /-- ALIAS_CLEAR_WRITE (R101): A write through the clear alias clears each named bit of RW, RUN and CFG fields, checked as a plain write. -/
  | aliasClearWrite (src : Src) (blk : Blk) (off : Nat) (w : Word)
  /-- ALIAS_TOGGLE_WRITE (R101): A write through the toggle alias inverts each named bit of RW, RUN and CFG fields, checked as a plain write. -/
  | aliasToggleWrite (src : Src) (blk : Blk) (off : Nat) (w : Word)
  /-- AON_WRITE_EFFECT (R39): A write that reached the always-on island takes effect on the next 32.768 kHz edge. -/
  | aonWriteEffect
  /-- FABRIC_TIMEOUT (R31): A fabric transfer not completed within 50 µs ends with an error recorded in SYS_FABERR. -/
  | fabricTimeout (ecc : Bool) (req : Nat) (addr : Nat) (isWrite : Bool)
  /-- VOTE_CORRECTION (R106): A disagreeing copy of a voted field is rewritten with the majority, counted in SAFE_VOTE and recorded as information. -/
  | voteCorrection (blk : Blk) (off : Nat)
  /-- FOLIO_REFOLD_OWN (R83): A keyed FOLIO_CMD with OP 1 starts a refold from the active edition's own folio. -/
  | folioRefoldOwn (src : Src)
  /-- FOLIO_REFOLD_OTHER (R83): A keyed FOLIO_CMD with OP 2 starts a refold from the other slot's folio. -/
  | folioRefoldOther (src : Src)
  /-- FOLIO_VERIFY_OTHER (R89): A keyed FOLIO_CMD with OP 3 verifies the other slot's folio only. -/
  | folioVerifyOther (src : Src)
  /-- FOLIO_VERIFY_END (R77): Folio verification ends, failing with a code or marking changed sections and taking affected targets to their safe states. -/
  | folioVerifyEnd
  /-- REFOLD_DONE (R83): Affected islands return with reset values, BUSY clears, DONE sets and the FOLIO interrupt is raised. -/
  | refoldDone
  /-- PSC_MODE_OFF (R121): A PSC_CMD write of MODE OFF turns the channel's switch off at the next island clock edge. -/
  | pscModeOff (src : Src) (f : Fin 72) (w : Word)
  /-- PSC_MODE_ON (R121): A PSC_CMD write of MODE ON turns the high-side switch on and opens an inrush window. -/
  | pscModeOn (src : Src) (f : Fin 72) (w : Word)
  /-- PSC_MODE_PWM (R128): A PSC_CMD write of MODE PWM begins a PWM period in the tick of effect. -/
  | pscModePwm (src : Src) (f : Fin 72) (w : Word)
  /-- PSC_MODE_LOWON (R121): A PSC_CMD write of LOWON on class B turns the low-side switch on after the dead time. -/
  | pscModeLowon (src : Src) (f : Fin 72) (w : Word)
  /-- PSC_MODE_PWMSYNC (R183): A PSC_CMD write of PWMSYNC on class B switches high and low sides alternately with dead times. -/
  | pscModePwmsync (src : Src) (f : Fin 72) (w : Word)
  /-- PSC_PWM_WRITE (R127): A PSC_PWM write changes the buffered period and duty, or is stored while unclaimed or in SAFE. -/
  | pscPwmWrite (src : Src) (f : Fin 72) (w : Word)
  /-- PWM_PERIOD_BOUNDARY (R127): At a period boundary the buffered values take effect and the staggered turn-on edge is placed. -/
  | pwmPeriodBoundary
  /-- PWM_ON_TIME_END (R125): The on-time of a PWM period ends and the switch turns off for the rest of the period. -/
  | pwmOnTimeEnd (f : Nat)
  /-- CURRENT_LIMIT_REACHED (R152): A switch's current reaches ILIM and its gate drive starts regulating. -/
  | currentLimitReached (f : Nat) (at_ : Bool)
  /-- ILIM_TIME_TRIP (R152): Regulation at ILIM reaches TLIM × 10 µs in total and the switch trips with ILIMT. -/
  | ilimTimeTrip (f : Nat) (also : List TripCause)
  /-- REGULATION_TIME_CLEAR (R152): After 100 µs below ILIM without a break, the regulation time is reset to 0. -/
  | regulationTimeClear (f : Nat)
  /-- SHORT_CIRCUIT_TRIP (R153): The current reaches 1.5 × ILIM, or a hard short persists 20 µs, and the switch turns off within 2 µs. -/
  | shortCircuitTrip (f : Nat) (also : List TripCause)
  /-- WIRE_MODEL_EVALUATION (R155): Every 100 µs each wire model is updated from the mean square current. -/
  | wireModelEvaluation (sense : List ChanSense) (feeds : List Int) (light : Nat)
  /-- CLAMP_ENERGY_EXCEEDED (R162): The clamp bucket exceeds CAP and the channel enters LOCKED with LCAUSE 5. -/
  | clampEnergyExceeded (f : Nat) (current : Nat) (low : Bool)
  /-- CLAMP_LEAK_TICK (R161): Every 100 µs the clamp bucket loses LEAK × 0.1 µJ, never below 0. -/
  | clampLeakTick
  /-- THERMAL_LATCH (R163): A switch junction reaches 175 °C and latches off, consuming a retry. -/
  | thermalLatch (f : Nat) (second : Bool) (also : List TripCause)
  /-- THERMAL_RELEASE (R163): A latched switch junction falls to 150 °C and releases. -/
  | thermalRelease (f : Nat) (second : Bool)
  /-- RETRY_RESTORE_TIMEOUT (R165): After 10 s without a trip outside RETRY and LOCKED, RLEFT is restored to RMAX. -/
  | retryRestoreTimeout (f : Nat)
  /-- CHANNEL_UNLOCK (R169): A write of 1 to PSC_FAULT.LOCK unlocks a LOCKED channel when MODE is OFF and the release conditions hold. -/
  | channelUnlock (src : Src) (f : Fin 72) (w : Word)
  /-- MISMATCH_DETECT (R139): The expected switch state and the data path disagree outside the mask and MISMATCH is set. -/
  | mismatchDetect (f : Nat) (hs : Bool) (ls : Bool)
  /-- MISMATCH_PERSIST_SAFE (R140): A disagreement that has persisted 100 µs takes the channel to SAFE. -/
  | mismatchPersistSafe (f : Nat)
  /-- SECOND_PATH_SHUTDOWN (R140): 10 µs after SAFE entry a switch still on removes its gate supply and the channel locks with LCAUSE 6. -/
  | secondPathShutdown (f : Nat)
  /-- OPEN_LOAD_ON_DETECT (R136): The current stays below OLON for OLT ms of counted on-time and OLON is set. -/
  | openLoadOnDetect (f : Nat)
  /-- OFF_STATE_TEST_START (R137): Every OFFPER ms an eligible channel begins its two-phase off-state test. -/
  | offStateTestStart (f : Nat)
  /-- OFF_STATE_TEST_PHASE_END (R137): At the end of each 500 µs phase VOUT is compared with VFEED and OLOFF, SCB or SCG may be set. -/
  | offStateTestPhaseEnd (f : Nat) (vout : Nat) (vfeed : Nat)
  /-- PAIR_IMBALANCE (R134): One member carries more than 75 % of the pair's sum over 10 ms of counted on-time and IMBAL is set. -/
  | pairImbalance (f : Nat)
  /-- HEARTBEAT_ENABLE (R141): A write setting PSG_CTRL.HBEN starts heartbeat supervision and fixes the owner pair. -/
  | heartbeatEnable (src : Src) (w : Word)
  /-- HEARTBEAT_REFRESH (R142): A PSG_HB write with the key and next SEQ restarts the supervision timer. -/
  | heartbeatRefresh (src : Src) (w : Word)
  /-- CHANNEL_RECLAIM (R146): A PSG_RECLAIM write reclaims the marked functions of a group against the generation tag. -/
  | channelReclaim (src : Src) (w : Word)
  /-- PARKON_LIMIT_FAULT (R121): A PARKON channel held at PKLIM for 1 ms, or thermally shut down, turns off and sets PARKFLT. -/
  | parkonLimitFault (f : Nat)
  /-- ARBITER_CYCLE (R172): Every 100 µs the arbiter recomputes the budget and grants duty by priority above floors. -/
  | arbiterCycle (tbp : Int) (sinks : List (Nat × Nat × Nat)) (rowLoss : Nat) (strNow : List Nat)
  /-- FEED_OVERCURRENT (R175): A feed's current averaged over 1 s exceeds 60 A, OC sets and the fault manager is told. -/
  | feedOvercurrent (feed : Nat) (avg : Nat)
  /-- FEED_UNDERVOLTAGE (R176): A feed falls below 6.0 V and channels without CRANK are held off. -/
  | feedUndervoltage (feed : Nat) (volt : Int)
  /-- FEED_OVERVOLTAGE_HOLD (R176): A feed above 36 V for 10 µs holds every switch on the feed off. -/
  | feedOvervoltageHold (feed : Nat) (volt : Int)
  /-- FEED_VOLTAGE_RECOVERY (R176): A held feed rises above 6.3 V or falls below 34 V and its channels resume. -/
  | feedVoltageRecovery (feed : Nat) (volt : Int)
  /-- REVERSE_BATTERY (R176): A feed below −2 V turns class H and M switches on through a self-powered gate circuit. -/
  | reverseBattery (feed : Nat) (volt : Int)
  /-- CURRENT_SENSE_CROSS_CHECK (R577): Every CS_XCHK period the two current-sense paths of each switch are compared and a failure sends the channel to SAFE. -/
  | currentSenseCrossCheck (pairs : List (Nat × Nat × Nat))
  /-- MOT_CMD_STOP (R195): A MOT_CMD of STOP stops the engine by braking or coasting. -/
  | motCmdStop (src : Src) (k : Fin 6) (w : Word)
  /-- MOT_CMD_CLOSE (R191): A MOT_CMD of CLOSE drives the bridge toward closure, automatically when AUTO is 1. -/
  | motCmdClose (src : Src) (k : Fin 6) (w : Word)
  /-- MOT_CMD_OPEN (R191): A MOT_CMD of OPEN drives the bridge toward the open end. -/
  | motCmdOpen (src : Src) (k : Fin 6) (w : Word)
  /-- MOT_CMD_GOTO (R214): A MOT_CMD of GOTO drives toward TARGET and stops there. -/
  | motCmdGoto (src : Src) (k : Fin 6) (w : Word)
  /-- MOT_CMD_LEARN (R201): A MOT_CMD of LEARN drives to the closed end stop and sets LEARNED. -/
  | motCmdLearn (src : Src) (k : Fin 6) (w : Word)
  /-- MOT_CMD_WRUN (R210): A MOT_CMD of WRUN runs a wiper continuously. -/
  | motCmdWrun (src : Src) (k : Fin 6) (w : Word)
  /-- MOT_CMD_WINT (R210): A MOT_CMD of WINT runs one wiper cycle per START pulse. -/
  | motCmdWint (src : Src) (k : Fin 6) (w : Word)
  /-- MOT_CMD_WSINGLE (R210): A MOT_CMD of WSINGLE runs one wiper cycle now. -/
  | motCmdWsingle (src : Src) (k : Fin 6) (w : Word)
  /-- MOT_CMD_WPARK (R210): A MOT_CMD of WPARK finishes the cycle to the park edge and stops. -/
  | motCmdWpark (src : Src) (k : Fin 6) (w : Word)
  /-- MOT_CMD_DRIVE (R214): A MOT_CMD of DRIVE runs a generic engine open-loop at DMAX in direction DIR. -/
  | motCmdDrive (src : Src) (k : Fin 6) (w : Word)
  /-- MOT_ENABLE_CLEAR (R219): A write of MOT_CTRL.EN = 0 stops a moving engine with stop cause 1. -/
  | motEnableClear (src : Src) (k : Fin 6) (w : Word)
  /-- SOFT_START_END (R205): The soft start ends, the speed loop takes over and IFREE and WFREE are seeded. -/
  | softStartEnd (k : Nat) (current : Nat) (rate : Nat)
  /-- RIPPLE_DETECT (R196): A commutation dip is detected and counted into POS unless rejected as too early. -/
  | rippleDetect (k : Nat)
  /-- RIPPLE_GAP_CORRECTION (R197): 1.75 expected intervals pass without a dip and one ripple is counted as a correction. -/
  | rippleGapCorrection (k : Nat)
  /-- RIPPLE_COUNT_END (R198): After a stop the ripple rate falls below 20 per second, the count ends and DONE sets. -/
  | rippleCountEnd (k : Nat)
  /-- FORCE_ESTIMATE (R204): Every 250 µs in a CLOSE move a force estimate is computed and checked against the zone threshold. -/
  | forceEstimate (k : Nat) (current : Nat)
  /-- PINCH_BRAKE_END (R206): The pinch brake ends on a low ripple rate or after 7.5 ms and OPEN drive begins. -/
  | pinchBrakeEnd (k : Nat)
  /-- PINCH_REVERSAL_END (R206): The reversal distance or open end stop is reached and the engine stops with cause 4. -/
  | pinchReversalEnd (k : Nat) (endStop : Bool)
  /-- STALL_DETECT (R201): A stall lasting STALLT ends the move as end stop, obstacle or pinch by command and position. -/
  | stallDetect (k : Nat) (current : Nat)
  /-- BRAKE_TIME_END (R195): The brake time BRKT ends, completing a stop or starting a reversed drive. -/
  | brakeTimeEnd (k : Nat)
  /-- GOTO_TARGET_REACHED (R214): POS reaches the GOTO target and the engine stops. -/
  | gotoTargetReached (k : Nat)
  /-- WIPER_START_PULSE (R212): A START ruling pulse begins a wiper cycle or sets PEND during one. -/
  | wiperStartPulse (k : Nat)
  /-- STK_FIRE (R227): A STK_CMD write of FIRE starts or restarts the profile in BOOST or WAIT. -/
  | stkFire (src : Src) (k : Fin 16) (w : Word)
  /-- STK_RELEASE (R227): A STK_CMD write of RELEASE ends the profile through QUENCH. -/
  | stkRelease (src : Src) (k : Fin 16) (w : Word)
  /-- STK_RULE_FIRE (R313): A pulse on the engine's FIRE ruling destination acts as FIRE or is discarded and counted. -/
  | stkRuleFire (k : Nat)
  /-- STK_RULE_RELEASE (R313): A pulse on the engine's RELEASE ruling destination acts as RELEASE. -/
  | stkRuleRelease (k : Nat)
  /-- STK_ENABLE (R244): A write of STK_CTRL.EN = 1 is checked against the bound channels' limits. -/
  | stkEnable (src : Src) (k : Fin 16) (w : Word)
  /-- STK_ENABLE_CLEAR (R227): A write of STK_CTRL.EN = 0 sends the engine to IDLE with both switches off. -/
  | stkEnableClear (src : Src) (k : Fin 16) (w : Word)
  /-- PEAK_ARRIVAL (R227): The select-side current reaches IPEAK in BOOST, recording TTP and entering PEAK. -/
  | peakArrival (k : Nat)
  /-- LATE_WINDOW_FAULT (R232): TPMAX ends without arrival and LATE is raised in the following tick. -/
  | lateWindowFault (k : Nat)
  /-- CHOP_CURRENT_REACHED (R224): The coil current reaches the set point and the regulating switch turns off within 1 µs. -/
  | chopCurrentReached (k : Nat)
  /-- CHOP_OFF_TIME_END (R224): TOFF elapses and the regulating switch turns on again. -/
  | chopOffTimeEnd (k : Nat)
  /-- DUTY_LIMIT_REACHED (R234): The active time in the duty window reaches the limit and the engine enters QUENCH. -/
  | dutyLimitReached (k : Nat)
  /-- DUTY_SEGMENT_ROLL (R234): A duty-window segment ends and the oldest segment leaves the sliding window. -/
  | dutySegmentRoll (k : Nat)
  /-- ST_MODE_OFF (R273): A string driver MODE write of OFF turns the string off. -/
  | stModeOff (src : Src) (n : Fin 8) (w : Word)
  /-- ST_MODE_ON (R273): A string driver MODE write of ON drives the string at ISET. -/
  | stModeOn (src : Src) (n : Fin 8) (w : Word)
  /-- ST_MODE_PWM (R253): A string driver MODE write of PWM begins a dimming period. -/
  | stModePwm (src : Src) (n : Fin 8) (w : Word)
  /-- SK_MODE_OFF (R273): A sink MODE write of OFF turns the sink off. -/
  | skModeOff (src : Src) (n : Fin 48) (w : Word)
  /-- SK_MODE_ON (R256): A sink MODE write of ON sinks its set current. -/
  | skModeOn (src : Src) (n : Fin 48) (w : Word)
  /-- SK_MODE_PWM (R257): A sink MODE write of PWM runs the sink in the shared sink period. -/
  | skModePwm (src : Src) (n : Fin 48) (w : Word)
  /-- STRING_FREQ_UPDATE (R251): Every 100 µs a string driver computes f_nat and clamps its switching frequency into its bounds. -/
  | stringFreqUpdate (n : Nat) (istr : Nat) (vstr : Nat) (vfeed : Nat) (loss : Nat) (tj : Int) (maxDuty : Bool)
  /-- SINK_PWM_BOUNDARY (R257): The shared sink period boundary applies buffered duties and a changed SKPER. -/
  | sinkPwmBoundary
  /-- STRING_OPEN (R255): An open string is detected in measurable on-time, switching stops and OPEN sets. -/
  | stringOpen (n : Nat)
  /-- STRING_OPEN_RETEST (R255): An open string is retested and switching resumes if it has closed. -/
  | stringOpenRetest (n : Nat) (closed : Bool)
  /-- STRING_SHORT (R255): VSTR below SHV × 100 mV for 50 µs of measurable on-time sets SHORT. -/
  | stringShort (n : Nat)
  /-- STRING_OUTPUT_SHORT (R255): VSTR below 1.0 V for 20 µs stops switching and locks the string driver. -/
  | stringOutputShort (n : Nat)
  /-- STRING_THERMAL (R255): A string driver junction at 175 °C stops switching until 150 °C. -/
  | stringThermal (n : Nat) (hot : Bool)
  /-- STRING_UNLOCK (R273): A write of 1 to LGT_STFAULT.LOCK unlocks a string driver with MODE OFF and no latch. -/
  | stringUnlock (src : Src) (n : Fin 8) (w : Word)
  /-- SINK_OPEN (R258): Low headroom and low current for 2 µs of measurable on-time sets the sink's OPEN. -/
  | sinkOpen (n : Nat)
  /-- SINK_SHORT (R258): Headroom above SHTH for 2 µs sets the sink's SHORT. -/
  | sinkShort (n : Nat)
  /-- SINK_BANK_THERMAL (R258): A sink bank's sensor at 175 °C turns the bank off until 150 °C. -/
  | sinkBankThermal (n : Nat) (hot : Bool)
  /-- OFFTEST_START (R265): A 200 µs continuity test starts in a long enough off-time or every AGE ms in OFF. -/
  | offtestStart (isSink : Bool) (n : Nat)
  /-- OFFTEST_END (R265): A continuity test completes and OFFOPEN may be set. -/
  | offtestEnd (isSink : Bool) (n : Nat) (volt : Nat) (vfeed : Nat)
  /-- MATRIX_ENABLE (R260): A write of LGT_MXCTRL.EN = 1 starts the row scan. -/
  | matrixEnable (src : Src) (w : Word)
  /-- MATRIX_ROW_SLOT (R260): A row slot begins, turning the row on and its columns for their cell duties. -/
  | matrixRowSlot
  /-- MATRIX_SWAP (R261): A write setting LGT_MXCTRL.SWAP requests a shadow swap at the next frame start. -/
  | matrixSwap (src : Src) (w : Word)
  /-- MATRIX_ROW_TRIP (R262): A row switch reaching 500 mA turns off for its slot and locks after three frames. -/
  | matrixRowTrip
  /-- MATRIX_ROW_UNLOCK (R262): A write of 1 to ROWLOCK while EN is 0 unlocks a row. -/
  | matrixRowUnlock (src : Src) (w : Word)
  /-- LIGHT_RECLAIM (R274): An LGT_RECLAIM write reclaims the marked lighting targets against the generation tag. -/
  | lightReclaim (src : Src) (w : Word)
  /-- LCH_ENABLE (R269): A write of LCH_CTRL.EN = 1 starts a chain frame. -/
  | lchEnable (src : Src) (w : Word)
  /-- LCH_GO (R269): A write of LCH_CTRL.GO starts or queues a chain frame. -/
  | lchGo (src : Src) (w : Word)
  /-- LCH_SWAP (R269): A write of LCH_CTRL.SWAP exchanges the buffers at the next frame start and starts a frame. -/
  | lchSwap (src : Src) (w : Word)
  /-- LCH_REFRESH (R269): REFR ms after the last frame start a refresh frame starts. -/
  | lchRefresh
  /-- LCH_FRAME_END (R270): LATCH falls, the frame ends, FRAMES advances and a queued start begins. -/
  | lchFrameEnd
  /-- INPUT_ENABLE (R282): A write setting ICFG.ON makes the input's debounced value take its first sample directly. -/
  | inputEnable (src : Src) (n : Fin 64) (w : Word)
  /-- INPUT_SCAN (R279): Every SCANPER × 100 µs each enabled switch input is sampled and debounced. -/
  | inputScan (kl30 : Int) (pins : List (Nat × Int))
  /-- PARK_INPUT_SAMPLE (R283): In REST, PARK and CAPPED the Blotter pulses wetting and samples pulsed inputs and comparators. -/
  | parkInputSample (kl30 : Int) (pins : List (Nat × Int)) (ans : List (Nat × Int))
  /-- COMPARATOR_CROSSING (R291): An analogue comparator crosses its threshold, changing CSTAT and possibly raising the input interrupt. -/
  | comparatorCrossing (n : Nat) (volt : Int)
  /-- ADC_ENABLE (R289): A write of INP_ADCTRL.EN = 1 starts periodic or triggered scans. -/
  | adcEnable (src : Src) (w : Word)
  /-- ADC_SCAN_PERIOD (R290): A periodic scan falls due and starts, or is delayed with OVERRUN. -/
  | adcScanPeriod
  /-- ADC_RULE_START (R290): A START ruling pulse begins a scan or is discarded with MISSED. -/
  | adcRuleStart
  /-- ADC_CONVERSION_DONE (R289): A 1 µs conversion writes VAL and STAMP into INP_ADRESn and sets NEW. -/
  | adcConversionDone (volt : Int)
  /-- ADC_SCAN_DONE (R289): A scan finishes, SCANS advances and the DONE source pulses. -/
  | adcScanDone
  /-- ADC_RESULT_READ (R289): A read of INP_ADRESn returns the result and clears NEW. -/
  | adcResultRead (src : Src) (n : Fin 16)
  /-- TIMER_ENABLE (R296): A write changing TMR_CTRL.EN from 0 to 1 starts the channel when AUTO is 1. -/
  | timerEnable (src : Src) (n : Fin 32) (w : Word)
  /-- TIMER_DISABLE (R296): A write of TMR_CTRL.EN = 0 stops the channel. -/
  | timerDisable (src : Src) (n : Fin 32) (w : Word)
  /-- TIMER_CMD_START (R296): TMR_CMD with OP START starts or restarts the channel from 0. -/
  | timerCmdStart (src : Src) (n : Fin 32) (w : Word)
  /-- TIMER_CMD_STOP (R296): TMR_CMD with OP STOP stops the channel. -/
  | timerCmdStop (src : Src) (n : Fin 32) (w : Word)
  /-- TIMER_GLOBAL_START (R304): A TMR_GO write starts every marked channel and restarts their group prescalers in one tick. -/
  | timerGlobalStart (src : Src) (w : Word)
  /-- TIMER_RULE_START (R296): A START ruling pulse starts or restarts an enabled channel. -/
  | timerRuleStart (n : Nat)
  /-- TIMER_RULE_STOP (R296): A STOP ruling pulse stops an enabled channel. -/
  | timerRuleStop (n : Nat)
  /-- TIMER_PERIOD_END (R297): COUNT + 1 reaches PERIOD, COUNT clears, PER sets and a one-shot stops. -/
  | timerPeriodEnd (n : Nat)
  /-- TIMER_COMPARE_MATCH (R297): COUNT equals CMP, CMPF sets, the COMPARE source pulses and OUT may change. -/
  | timerCompareMatch (n : Nat)
  /-- TIMER_CAPTURE_RULE (R300): A CAPTURE ruling pulse queues COUNT and may clear it. -/
  | timerCaptureRule (n : Nat)
  /-- TIMER_CAPTURE_EDGE (R300): A synchronised edge on the timer terminal queues COUNT and may clear it. -/
  | timerCaptureEdge (n : Nat) (rising : Bool)
  /-- CAPTURE_TIMEOUT (R302): COUNT reaches CMP with no capture, TO sets and the TIMEOUT source pulses. -/
  | captureTimeout (n : Nat)
  /-- TIMER_CAP_READ (R301): A read of TMR_CAP returns and removes the oldest capture entry. -/
  | timerCapRead (src : Src) (n : Fin 32)
  /-- TIMER_COUNT_SNAPSHOT (R307): A read of a linked low member's TMR_COUNT copies both counts into the snapshot registers. -/
  | timerCountSnapshot (src : Src) (n : Fin 32)
  /-- RULE_EVENT (R314): A source event advances its line's CNT and is dispatched unless the line is muted. -/
  | ruleEvent (code : Nat) (rising : Bool)
  /-- RULE_DELIVERY (R311): Two ticks after its source, an event acts at each destination and sets PEND. -/
  | ruleDelivery (line : Nat)
  /-- RULE_SOFTWARE_PULSE (R315): A write of LINE to RULE_SWP acts as an event of that line. -/
  | ruleSoftwarePulse (src : Src) (w : Word)
  /-- CAN_ENABLE (R325): A write of CAN_CTRL.EN = 1 checks bit timing and resets the receive ring. -/
  | canEnable (src : Src) (n : Fin 8) (w : Word)
  /-- CAN_DISABLE (R339): A write of CAN_CTRL.EN = 0 requests the controller to leave the bus after the frame in progress. -/
  | canDisable (src : Src) (n : Fin 8) (w : Word)
  /-- CAN_DISABLE_EFFECT (R339): At the end of the frame in progress the controller leaves the bus and withdraws every request. -/
  | canDisableEffect (n : Fin 8)
  /-- CAN_FRAME_RECEIVED (R327): A valid frame is stored at WPOS, SEQ and NEWDAT set, the ring advances and RX is raised. -/
  | canFrameReceived (n : Fin 8) (w0 : Word) (dlc : BitVec 4) (data : List Nat) (stamp : Word) (own : Bool)
  /-- CAN_RX_RELEASE (R329): A CAN_RXREL write releases the oldest COUNT stored objects. -/
  | canRxRelease (src : Src) (n : Fin 8) (w : Word)
  /-- CAN_TX_REQUEST (R332): A CAN_TXRQ write makes the named transmit objects pending. -/
  | canTxRequest (src : Src) (n : Fin 8) (k : Fin 8) (w : Word)
  /-- CAN_TX_SELECTION (R333): At bus idle or after intermission the winning pending object is copied and its header rechecked. -/
  | canTxSelection (n : Fin 8)
  /-- CAN_ARBITRATION_START (R334): The selected frame's start-of-frame bit begins arbitration and TXST becomes 2. -/
  | canArbitrationStart (n : Fin 8)
  /-- CAN_TX_SUCCESS (R334): A frame is sent without error, stamped, TXST becomes 3 and TXDONE sets. -/
  | canTxSuccess (n : Fin 8) (stamp : Word) (delay : Nat)
  /-- CAN_TX_LOST (R334): A frame loses arbitration or meets an error and becomes pending again or is cancelled under DAR. -/
  | canTxLost (n : Fin 8)
  /-- CAN_TX_CANCEL (R335): A CAN_TXCAN write cancels a pending request whose arbitration has not begun. -/
  | canTxCancel (src : Src) (n : Fin 8) (w : Word)
  /-- CAN_SEAL_WRITE (R336): A Signet write of CAN_SEAL seals one transmit object against other requesters. -/
  | canSealWrite (src : Src) (n : Fin 8) (w : Word)
  /-- CAN_ERROR_DETECTED (R337): A protocol error updates the error counters, LEC or DLEC and the error state. -/
  | canErrorDetected (n : Fin 8) (kind : Fin 7) (dataPhase : Bool) (tx : Bool) (step : CanStep) (delay : Option Nat)
  /-- CAN_PROTOCOL_EXCEPTION (R321): A recessive res bit in an FD frame makes the controller integrate again and sets PXE. -/
  | canProtocolException (n : Fin 8)
  /-- CAN_RECOVER (R338): A write of 1 to CAN_CTRL.RECOVER in bus-off starts recovery. -/
  | canRecover (src : Src) (n : Fin 8) (w : Word)
  /-- CAN_RECOVERY_DONE (R338): After 128 occurrences of 11 recessive bits recovery ends and the counters return to 0. -/
  | canRecoveryDone (n : Fin 8)
  /-- LIN_SLOT_START (R342): A commander's schedule slot begins and its header is sent. -/
  | linSlotStart (n : Fin 12)
  /-- LIN_HEADER_RECEIVED (R341): A LIN header ends and the channel publishes, subscribes or ignores the frame. -/
  | linHeaderReceived (n : Fin 12) (id : Fin 64) (brk : Word) (rate : Nat)
  /-- LIN_RESPONSE_RECEIVED (R343): A subscribed response ends in time with a correct checksum and is stored. -/
  | linResponseReceived (n : Fin 12) (data : List Nat) (sum : Nat)
  /-- LIN_GOSLEEP (R345): A write of GOSLEEP on a commander replaces the next header with the go-to-sleep command. -/
  | linGosleep (src : Src) (n : Fin 12) (w : Word)
  /-- LIN_SLEEP_ENTRY (R345): A channel enters SLEEP after sending or receiving go-to-sleep. -/
  | linSleepEntry (n : Fin 12)
  /-- LIN_WAKEUP_DETECT (R346): A dominant level of at least 150 µs in SLEEP sets WAKEUP and the channel becomes ACTIVE. -/
  | linWakeupDetect (n : Fin 12) (fin : Word)
  /-- LIN_WAKE_SEND (R346): A write of LIN_CTRL.WAKE in SLEEP sends a 1 ms dominant pulse. -/
  | linWakeSend (src : Src) (n : Fin 12) (w : Word)
  /-- LIN_SCHEDULE_RESUME (R346): 100 ms after a wake-up signal a commander resumes its schedule from entry 0. -/
  | linScheduleResume (n : Fin 12)
  /-- ETH_FRAME_RECEIVED (R351): An accepted Ethernet frame fills the descriptor at RXPOS or is dropped. -/
  | ethFrameReceived (p : Fin 6) (octets : List Nat) (fcsOk : Bool) (stamp : Word)
  /-- ETH_TX_KICK (R351): A write of TXKICK makes the MAC send from TXPOS while descriptors are owned. -/
  | ethTxKick (src : Src) (p : Fin 6) (w : Word)
  /-- ETH_FRAME_SENT (R351): A transmit frame completes and its descriptor is returned with status and stamp. -/
  | ethFrameSent (p : Fin 6) (stamp : Word) (excess : Bool) (ka : Bool)
  /-- ETH_LINK_CHANGE (R348): A TX port's link comes up or goes down. -/
  | ethLinkChange (n : Fin 2) (up : Bool) (sqi : BitVec 3)
  /-- ETH_DISABLE (R353): A write of EN = 0 takes effect at the end of the frame in progress. -/
  | ethDisable (p : Fin 6)
  /-- RING_ENABLE (R376): A write of RING_CTRL.EN = 1 starts link training with the bypass closed. -/
  | ringEnable (src : Src) (w : Word)
  /-- RING_LINK_TRAINED (R376): The link has trained, the bypass opens at the next IDLE run and the node enters CLAIM. -/
  | ringLinkTrained (eq : Nat)
  /-- RING_LOCK_LOSS (R358): The receiver loses symbol lock after four code errors or loss of signal. -/
  | ringLockLoss (errs : Nat)
  /-- RING_BREAK_DETECT (R373): No lock for 10 µs makes the node enter BROKEN. -/
  | ringBreakDetect
  /-- RING_BREAK_SEND (R373): Every 100 µs a BROKEN node sends a BREAK frame downstream. -/
  | ringBreakSend
  /-- RING_RELOCK (R373): Lock held for 100 µs moves a BROKEN node to CLAIM. -/
  | ringRelock
  /-- RING_FRAME_RECEIVED (R362): A frame arrives and is forwarded, stripped, accepted or acted on by type. -/
  | ringFrameReceived (h0 : Word) (h1 : Word) (pay : List Word) (check : Word) (fin : RingEnd) (stamp : Word) (codeErr : Bool)
  /-- RING_TXGO (R364): A RING_TXGO write makes the named transmit slots pending. -/
  | ringTxgo (src : Src) (w : Word)
  /-- RING_FRAME_RETURN (R366): A source strips its own frame and sets the slot outcome from the end symbol. -/
  | ringFrameReturn (h0 : Word) (h1 : Word) (pay : List Word) (check : Word) (fin : RingEnd) (stamp : Word)
  /-- RING_RX_RELEASE (R367): A RING_RXREL write frees the oldest COUNT queue entries. -/
  | ringRxRelease (src : Src) (w : Word)
  /-- RING_CLAIM_SEND (R368): Every 20 µs a node in CLAIM sends a CLAIM frame. -/
  | ringClaimSend
  /-- RING_TIME_SEND (R370): Every 1 ms the keeper sends a TIME frame. -/
  | ringTimeSend
  /-- RING_CENSUS_SEND (R372): Every 10 ms the keeper sends a CENSUS frame. -/
  | ringCensusSend
  /-- RING_WAKE_TONE (R381): A write of RING_CTRL.WAKE sends the 1 MHz wake tone for 100 µs. -/
  | ringWakeTone (src : Src) (w : Word)
  /-- RING_CRYPT_CONFIG (R378): A Signet write of RING_CRYPT permits encryption with a key slot that allows E4. -/
  | ringCryptConfig (src : Src) (w : Word)
  /-- NMG_ENABLE (R388): A write of NMG_CTRL.EN = 1 moves the channel to NETWORK or READY. -/
  | nmgEnable (src : Src) (c : Fin 12) (w : Word)
  /-- NMG_DISABLE (R388): A write of NMG_CTRL.EN = 0 moves the channel to OFF. -/
  | nmgDisable (src : Src) (c : Fin 12) (w : Word)
  /-- NMG_REQUEST (R388): A write of REQ = 1 moves the channel to NETWORK with a keep-alive pending. -/
  | nmgRequest (src : Src) (c : Fin 12) (w : Word)
  /-- NMG_RELEASE (R388): A write of REQ = 0 lets the channel leave NETWORK for READY. -/
  | nmgRelease (src : Src) (c : Fin 12) (w : Word)
  /-- NMG_KEEPALIVE_RECEIVED (R386): A keep-alive from another node restarts the idle timer and enters the log. -/
  | nmgKeepaliveReceived (c : Fin 12) (fr : NetFrame) (stamp : Word)
  /-- NMG_SLEEP_ABORT (R390): Activity in PREPARE aborts the sleep and starts a repeat time. -/
  | nmgSleepAbort (c : Fin 12)
  /-- NMG_DETECTOR_ARM (R391): 100 µs before the commit point the transceiver's wake detector is armed. -/
  | nmgDetectorArm (c : Fin 12)
  /-- TRANSCEIVER_WAKE (R392): A wake pattern, wake-up frame, error count or energy detection moves the transceiver to WOKEN. -/
  | transceiverWake (c : Fin 12) (ev : XcvrEvent)
  /-- TRANSCEIVER_SERVICE (R393): Every 100 ms the network island resends each served transceiver its mode. -/
  | transceiverService
  /-- NMG_LOG_CLEAR (R400): A write of NMG_LOGCTL.CLR invalidates every log entry and clears LOST. -/
  | nmgLogClear (src : Src) (w : Word)
  /-- LC_ENROLL (R402): VAULT_LCCMD ENROLL in BLANK enrols the PUF and advances to FACTORY. -/
  | lcEnroll (src : Src) (w : Word)
  /-- LC_OWNER (R402): VAULT_LCCMD OWNER in FACTORY fuses the staged owner key hash. -/
  | lcOwner (src : Src) (w : Word)
  /-- LC_FIELD (R402): VAULT_LCCMD FIELD advances FACTORY to FIELD. -/
  | lcField (src : Src) (w : Word)
  /-- LC_NEWCHAL (R404): VAULT_LCCMD NEWCHAL fills a fresh 128-bit challenge valid for 60 s. -/
  | lcNewchal (src : Src) (w : Word)
  /-- LC_SERVICE (R405): VAULT_LCCMD SERVICE verifies an owner-signed response and enters SERVICE. -/
  | lcService (src : Src) (w : Word)
  /-- LC_ENDSVC (R402): VAULT_LCCMD ENDSVC returns SERVICE to FIELD. -/
  | lcEndsvc (src : Src) (w : Word)
  /-- LC_RETURN (R405): VAULT_LCCMD RETURN verifies an owner-signed response and enters RETURN. -/
  | lcReturn (src : Src) (w : Word)
  /-- LC_VOID (R402): VAULT_LCCMD VOID asserts the tamper line with cause SOFT. -/
  | lcVoid (src : Src) (w : Word)
  /-- LC_SIGNATURE_VERIFIED (R405): The owner signature check of a SERVICE or RETURN command completes within 20 ms. -/
  | lcSignatureVerified
  /-- SERVICE_TIME_END (R402): SVCLEFT reaches 0 and SERVICE returns to FIELD. -/
  | serviceTimeEnd
  /-- KEY_LOAD (R410): VAULT_KCMD LOAD derives the path from the root to a KPOL node into a slot. -/
  | keyLoad (src : Src) (w : Word)
  /-- KEY_CLEAR (R411): VAULT_KCMD CLEAR zeroes a slot and its attributes. -/
  | keyClear (src : Src) (w : Word)
  /-- KEY_RESTRICT (R411): VAULT_KCMD RESTRICT narrows a slot's attribute masks. -/
  | keyRestrict (src : Src) (w : Word)
  /-- SEAL_REPLY (R413): Signet's RSTAT write releases the waiting caller with REPLY and Z. -/
  | sealReply (src : Src) (c : Fin 4) (w : Word)
  /-- CRYPT_JOB_START (R416): A Signet write of CRYPT_JOB.GO starts an E0 or E1 job after world and key checks. -/
  | cryptJobStart (src : Src) (w : Word)
  /-- CRYPT_JOB_DONE (R417): A CRYPT job completes, writing output and tag, or AUTHF on mismatch. -/
  | cryptJobDone
  /-- TAMPER_DETECT (R421): An armed tamper source asserts the tamper line, zeroing keys and voiding the device. -/
  | tamperDetect (t : Fin 6)
  /-- TAMPER_ERASE_DONE (R421): Signet private memory has been cleared and a WARM reset follows 100 µs later. -/
  | tamperEraseDone
  /-- RESERVOIR_CHARGED (R420): The erase reservoir reaches full charge and RSVOK reads 1. -/
  | reservoirCharged
  /-- RESERVOIR_LOW (R420): RSVOK falls to 0 and every key slot is cleared. -/
  | reservoirLow
  /-- ACC_ENABLE (R426): A write of ACC_CTRL.EN = 1 checks slots, fleet record and heartbeat and enters LOADING. -/
  | accEnable (src : Src) (w : Word)
  /-- ACC_LOADING_DONE (R426): The fleet key and token set are unsealed and the unit reaches READY. -/
  | accLoadingDone
  /-- ACC_DISABLE (R444): A write of ACC_CTRL.EN = 0 ends any session as DISABLED. -/
  | accDisable (src : Src) (w : Word)
  /-- ATTENTION_ASSERT (R428): An ATTN land held low for 10 µs asserts the attention line and starts a token read. -/
  | attentionAssert (ch : Fin 2)
  /-- TOKEN_READ_END (R428): A 15-octet SPI token read ends and its frame joins the evaluation frame. -/
  | tokenReadEnd (ch : Fin 2) (octets : List Nat) (asserted : Bool)
  /-- TOKEN_READ_REPEAT (R428): While attention stays asserted a further read starts 1 ms after the last. -/
  | tokenReadRepeat (ch : Fin 2)
  /-- ACC_COMMAND_ACT (R441): After the counter write completes the executed command acts on the session. -/
  | accCommandAct
  /-- ACC_IMPORT (R431): ACC_LEARN IMPORT seals the fleet transport key into the vault records in FACTORY. -/
  | accImport (src : Src)
  /-- ACC_LEARN (R433): ACC_LEARN LEARN checks a token set message and commits it to the other bank. -/
  | accLearn (src : Src)
  /-- ACC_LEARN_DONE (R434): The commit word is written and the new token set replaces the old. -/
  | accLearnDone
  /-- GRANT_FRAME_SEND (R446): Every PER ms the unit sends an authenticated grant frame from the sealed object. -/
  | grantFrameSend
  /-- SHA_COMPRESSION_DONE (R518): A 64-cycle SHA-256 compression completes and the unit is free. -/
  | shaCompressionDone (c : CoreId)
  /-- AES_DONE (R518): An AES encryption or decryption completes and the unit is free. -/
  | aesDone (c : CoreId)
  /-- INTERRUPT_PRESENT (R471): A deliverable source is presented to its target within 10 ns, waking a waiting core. -/
  | interruptPresent (t : Fin 5)
  /-- INTERRUPT_TAKEN (R472): A core with IE 1 and EXL 0 takes a presented interrupt at an instruction boundary. -/
  | interruptTaken (c : CoreId)
  /-- INTERRUPT_CLAIM (R473): A read of ICU_CLAIM returns and activates the highest deliverable source. -/
  | interruptClaim (t : Fin 5) (src : Src)
  /-- INTERRUPT_EOI (R474): A write to ICU_EOI clears the top source's ACT and pops the stack. -/
  | interruptEoi (src : Src) (t : Fin 5) (w : Word)
  /-- ICU_SOURCE_CONFIG (R474): A write to ICU_SRCn sets a source's enable, priority and target. -/
  | icuSourceConfig (src : Src) (n : Fin 384) (w : Word)
  /-- LOCKSTEP_MISMATCH (R456): The two cores of a locked pair disagree and the fault manager handles it. -/
  | lockstepMismatch (who : Fin 3)
  /-- UPD_BEGIN (R534): SYS_UPDCMD BEGIN checks a manifest and opens an install into the other slot. -/
  | updBegin (src : Src) (w : Word)
  /-- UPD_DATA (R535): SYS_UPDCMD DATA decrypts ciphertext words into the next image words. -/
  | updData (src : Src) (w : Word)
  /-- UPD_END (R536): SYS_UPDCMD END checks the tag and digest and marks the slot INSTALLED or EMPTY. -/
  | updEnd (src : Src) (w : Word)
  /-- UPD_ABORT (R537): SYS_UPDCMD ABORT empties the target slot and closes the install. -/
  | updAbort (src : Src) (w : Word)
  /-- UPD_DKIMPORT (R539): SYS_UPDCMD DKIMPORT seals the distribution key into the vault records in FACTORY. -/
  | updDkimport (src : Src) (w : Word)
  /-- ED_ARM (R540): SYS_EDCMD ARM arms the other installed slot for a trial at the next start. -/
  | edArm (src : Src)
  /-- ED_ARMNOW (R540): SYS_EDCMD ARMNOW arms the other slot and makes a WARM reset. -/
  | edArmnow (src : Src)
  /-- ED_DISARM (R540): SYS_EDCMD DISARM clears an armed switch. -/
  | edDisarm (src : Src)
  /-- ED_CONFIRM (R542): SYS_EDCMD CONFIRM ends the trial, confirms the slot and raises the floor. -/
  | edConfirm (src : Src)
  /-- ED_REVERT (R540): SYS_EDCMD REVERT arms the other confirmed slot without trial. -/
  | edRevert (src : Src)
  /-- ED_RETRYISL (R540): SYS_EDCMD RETRYISL clears ISLOFF for the next start. -/
  | edRetryisl (src : Src)
  /-- ED_RECOVER (R540): SYS_EDCMD RECOVER sets RECREQ and makes a WARM reset. -/
  | edRecover (src : Src)
  /-- TRIAL_TIME_RECORD (R541): Every 10 s of trial run time the count is written into TRUN. -/
  | trialTimeRecord
  /-- NV_ROW_WRITE (R545): A keyed SYS_NVCMD WRITE writes a 64-word row into a permitted region. -/
  | nvRowWrite (src : Src)
  /-- NV_ROW_WRITE_DONE (R545): An atomic row write completes within 1.5 ms and DONE sets. -/
  | nvRowWriteDone
  /-- RECOVERY_HELLO (R550): In recovery mode HELLO is sent every 1 s until the first MANIFEST. -/
  | recoveryHello
  /-- RECOVERY_ATTN (R548): An ATTN message naming this UID extends the request window to 2 s. -/
  | recoveryAttn (dbg : Bool) (body : List Nat)
  /-- RECOVERY_RECOVER (R548): An owner-signed RECOVER message requests recovery mode. -/
  | recoveryRecover (dbg : Bool) (body : List Nat)
  /-- RECOVERY_MANIFEST (R550): A MANIFEST message acts as BEGIN or resumes a stored install. -/
  | recoveryManifest (dbg : Bool) (body : List Nat)
  /-- RECOVERY_DATA (R550): A DATA message for the next row acts as DATA and stores resume state. -/
  | recoveryData (dbg : Bool) (body : List Nat)
  /-- RECOVERY_END (R551): An END message completes the install, arms it on trial and makes a WARM reset. -/
  | recoveryEnd (dbg : Bool) (body : List Nat)
  /-- RECOVERY_OWNER (R550): An OWNER message over DBG in FACTORY fuses the owner key hash. -/
  | recoveryOwner (dbg : Bool) (body : List Nat)
  /-- RECOVERY_DKIMPORT (R550): A DKIMPORT message over DBG in FACTORY imports the distribution key. -/
  | recoveryDkimport (dbg : Bool) (body : List Nat)
  /-- DBG_TRANSFER (R605): A 64-octet DBG transfer carries one recovery frame in each direction. -/
  | dbgTransfer (octets : List Nat)
  /-- POWER_STATE_CHOICE (R557): When every requester waits, the power manager enters the deepest permitted state within tolerance. -/
  | powerStateChoice (save : Nat)
  /-- WAKE_DETECT (R565): An enabled wake source completes detection, is recorded and wakes the device. -/
  | wakeDetect (src : Fin 9)
  /-- WAKE_STAGE_READY (R566): A wake stage's ready signal is seen and the next stage begins. -/
  | wakeStageReady (us : Nat) (tbp : Int) (b : BootIn)
  /-- WAKE_STAGE_FAILURE (R567): A stage not ready within four times its limit switches the domains off and repeats or enters CAPPED. -/
  | wakeStageFailure
  /-- WAKE_RETRY (R567): 100 ms after a failed wake the Blotter starts a fresh CAPPED exit. -/
  | wakeRetry
  /-- PAD_RELEASE (R569): A write of 1 to an AON_PADHOLD bit releases a held pad group to its owning block. -/
  | padRelease (src : Src) (w : Word)
  /-- RTC_SECOND (R570): The RTC sub-second count wraps, SEC advances and the alarm may be reached. -/
  | rtcSecond
  /-- RTC_SET (R570): A write of AON_RTCSEC sets the seconds and clears SUB. -/
  | rtcSet (src : Src) (w : Word)
  /-- RTC_ALARM_SET (R570): A write of AON_ALARM arms the alarm once. -/
  | rtcAlarmSet (src : Src) (w : Word)
  /-- SAFE_FAULT_DETECT (R574): A fault of a class is detected, recorded and its reactions made. -/
  | safeFaultDetect (cls : Fin 16) (idx : BitVec 7) (a : Nat)
  /-- SAFE_RESET_ASSERT (R578): 5 µs after detection a CORE or WARM reaction reset is asserted. -/
  | safeResetAssert (s8ok : Bool) (b : BootIn)
  /-- VOTER_SELF_TEST (R576): A voter self-test pass forces copy disagreements and checks their correction. -/
  | voterSelfTest (failed : Option (Fin 128))
  /-- SRAM_SCRUB (R576): The SRAM scrub reads every word, correcting single-bit errors. -/
  | sramScrub (fixed : Nat) (bad : List (Nat × Nat))
  /-- NVM_SCRUB (R576): The store scrub reads every row and rewrites corrected rows. -/
  | nvmScrub (fixed : Nat) (bad : List (Nat × Nat))
  /-- SELFTEST_OVERDUE (R576): A self-test not completed within its period sets its SAFE_TEST bit and records class 14. -/
  | selftestOverdue (t : Fin 4)
  /-- SAFE_CLEAR (R580): A keyed SAFE_CLR write clears the fault record and releases FAULT_N once causes have ended. -/
  | safeClear (src : Src) (w : Word) (ended : List (Nat × Nat))
  /-- SAFE_REACTION_CONFIG (R584): A write to SAFE_REACTc changes a class's reactions above its mandatory floor. -/
  | safeReactionConfig (src : Src) (cls : Fin 15) (w : Word)
  /-- RING_SYMBOL_LOCK (R358): A ring receiver finds IDLE at the same 10-bit alignment in 16 consecutive symbol slots and gains symbol lock. -/
  | ringSymbolLock
  /-- WAKE_TONE_RECEIVED (R381): A ring node in RUN receives the 1 MHz wake tone, forwards it and sets WAKESEEN without counting a break. -/
  | wakeToneReceived
  /-- WAKE_FRAME_DECODE (R394): A transceiver in LOWPWR with WUFEN decodes a classical frame that does not wake, raising FEC on an error or lowering it on a correct frame. -/
  | wakeFrameDecode (c : Fin 12) (ev : XcvrEvent)
  /-- UPD_COMMAND_DONE (R536): An update-engine BEGIN, DATA or END ends some milliseconds after its write, BUSY clears and END sets the slot INSTALLED or EMPTY with DONE or ERR. -/
  | updCommandDone
  /-- OPERATING_RANGE_CHANGE (R572): KL30_LOGIC, a feed or the baseplate leaves or re-enters its operating range, changing SAFE_STAT.RANGE and GACT. -/
  | operatingRangeChange (kl30 : Int) (feeds : List Int) (tbp : Int)
  deriving DecidableEq, Repr

end Sys2Proof
end

