-- ==== Sys2Proof/Decode.lean ====
section
/-! DEFINITION. The command that a word of the opcode table spells.  No row of spec/opcode_table.json gives its command
any bits, so no word spells a command. -/

namespace Sys2Proof

/-- The command of a word of `nbits` bits: none, for want of a row with bits. -/
def decodeTableWord (_nbits _w : Nat) : Option Instr := none

end Sys2Proof
end

