-- ==== Sys2Proof/Config.lean ====
section
/-! DEFINITION. What an implementation fixes and the spec leaves open: free values without a body. -/

namespace Sys2Proof.Config

/-- A value the spec leaves open, one for each count of the model's own counter (log entry 3). -/
opaque freeWord : Nat → Word

/-- An open choice between two behaviours the spec allows, one for each count. -/
opaque freeBool : Nat → Bool

/-- 128 bits from the vault's random source (R404, R548), one draw for each count. -/
opaque random128 : Nat → BitVec 128

/-- The 256-bit root that the PUF reproduces (R406). -/
opaque pufRoot : BitVec 256

/-- RING_UID, the device serial fused at manufacture (R378's register table). -/
opaque uid : Word

/-- The contents of the boot ROM, nib by nib (R23). -/
opaque romNib : Nat → Nib

/-- The stored form of the vault records (R26), nib by nib: the spec gives their contents and no layout.  The first number
counts the writes of the records. -/
opaque vaultNib : Nat → Nat → Nib

/-- Where in its band of 1 V the two thresholds of a switch input lie, in mV (R277): draws for the falling and the rising
one. -/
opaque inpLow : Nat → Nat
opaque inpGap : Nat → Nat

/-- CID as Signet reads it (R452 gives no number for it). -/
opaque signetCid : Word

end Sys2Proof.Config
end

