-- ==== Sys2Proof/Machine/Bits.lean ====
section
/-! DEFINITION. Bit fields of a word, register fields and the shape of a register table (R90, R91). -/

namespace Sys2Proof.Machine

/-- Bits `hi:lo` of a word, as a number. -/
def bitsOf (w : Word) (hi lo : Nat) : Nat := (w.extractLsb' lo (hi + 1 - lo)).toNat

/-- A word whose bits `hi:lo` are all 1. -/
def maskOf (hi lo : Nat) : Word := (BitVec.ofNat 36 (2 ^ (hi + 1 - lo) - 1)) <<< lo

/-- `w` with bits `hi:lo` replaced by the low bits of `x`. -/
def setBits (w : Word) (hi lo x : Nat) : Word :=
  (w &&& ~~~ maskOf hi lo) ||| ((BitVec.ofNat 36 x <<< lo) &&& maskOf hi lo)

/-- Bit `i` of a word. -/
def bitAt (w : Word) (i : Nat) : Bool := w.getLsbD i

/-- `w` with bit `i` set to `b`. -/
def putBit (w : Word) (i : Nat) (b : Bool) : Word := setBits w i i b.toNat

/-- The number `n` read as a signed number of `k` bits. -/
def signed (k n : Nat) : Int := if n % 2 ^ k < 2 ^ (k - 1) then (n % 2 ^ k : Nat) else ((n % 2 ^ k : Nat) : Int) - 2 ^ k

/-- The number of 1 bits of `w` at positions below `n`. -/
def countOnes (w : Word) : Nat → Nat
  | 0 => 0
  | n + 1 => countOnes w n + (w.getLsbD n).toNat

/-- The positions below `n` at which `w` holds a 1, rising. -/
def onesBelow (w : Word) (n : Nat) : List Nat := (List.range n).filter (fun i => w.getLsbD i)

/-- `n + 1`, saturating at `top`. -/
def satInc (top n : Nat) : Nat := if n < top then n + 1 else top

/-- A register field: the nib offset of its register from the page or block base, and its bits `hi:lo`. -/
structure Fld where
  off : Nat
  hi  : Nat
  lo  : Nat
  w1c : Bool
  deriving DecidableEq, Repr

/-- The field of element `i` of an array of registers `stride` nibs apart. -/
def Fld.at (f : Fld) (i : Nat) (stride : Nat := 4) : Fld := ⟨f.off + i * stride, f.hi, f.lo, f.w1c⟩

/-- The primary access codes of R90. -/
inductive Acc where
  | rw | ro | w1s | w1c | cfg | run | fol
  deriving DecidableEq, Repr

/-- One field of a register table: bits, access code, whether it is voted (TMV or FOL), its reset value, its legal
values as closed ranges (none: every value), and whether it always reads 0. -/
structure FieldDesc where
  hi    : Nat
  lo    : Nat
  acc   : Acc
  voted : Bool
  reset : Nat
  legal : List (Nat × Nat)
  readsZero : Bool
  deriving DecidableEq, Repr

/-- One register of a table, or an array of `pages × items` of them. -/
structure RegDesc where
  name  : String
  off   : Nat
  pages : Nat
  pageStride : Nat
  items : Nat
  itemStride : Nat
  fields : List FieldDesc
  deriving DecidableEq, Repr

/-- Does the descriptor cover the register at nib offset `o`? -/
def RegDesc.covers (d : RegDesc) (o : Nat) : Bool :=
  d.off ≤ o &&
  (let r := o - d.off
   let p := if d.pageStride = 0 then 0 else r / d.pageStride
   let q := if d.pageStride = 0 then r else r % d.pageStride
   let i := if d.itemStride = 0 then 0 else q / d.itemStride
   p < d.pages && i < d.items && q == i * d.itemStride)

/-- The reset value of a register: every field at its Reset column, reserved bits 0. -/
def RegDesc.resetWord (d : RegDesc) : Word :=
  d.fields.foldl (fun w f => setBits w f.hi f.lo f.reset) 0

end Sys2Proof.Machine
end

