-- ==== Sys2Proof/Machine/Regs.lean ====
section
/-! DEFINITION. The named fields of every register table of the spec: nib offset of the register from its page
(or block) base, the bit range of the field, and whether its access code is W1C (R90, R91 and the register tables of the chapters).  A field of an
arrayed register is reached with `Fld.at`. -/

namespace Sys2Proof.Machine

-- SYS_ID
def SYS_ID_PART : Fld := ⟨0x0, 35, 20, false⟩
def SYS_ID_STEP : Fld := ⟨0x0, 19, 12, false⟩
-- SYS_TIMEBASE
def SYS_TIMEBASE_COUNT : Fld := ⟨0x4, 35, 0, false⟩
-- SYS_TBSTAT
def SYS_TBSTAT_BACKUP : Fld := ⟨0x8, 2, 2, false⟩
def SYS_TBSTAT_DUALERR : Fld := ⟨0x8, 1, 1, true⟩
def SYS_TBSTAT_RESTORED : Fld := ⟨0x8, 0, 0, true⟩
-- SYS_RSTCAUSE
def SYS_RSTCAUSE_CAPWAKE : Fld := ⟨0xC, 8, 8, true⟩
def SYS_RSTCAUSE_REFOLD : Fld := ⟨0xC, 7, 7, true⟩
def SYS_RSTCAUSE_COREB : Fld := ⟨0xC, 6, 6, true⟩
def SYS_RSTCAUSE_COREA : Fld := ⟨0xC, 5, 5, true⟩
def SYS_RSTCAUSE_SAFE : Fld := ⟨0xC, 4, 4, true⟩
def SYS_RSTCAUSE_SWWARM : Fld := ⟨0xC, 3, 3, true⟩
def SYS_RSTCAUSE_EXT : Fld := ⟨0xC, 2, 2, true⟩
def SYS_RSTCAUSE_BROWNOUT : Fld := ⟨0xC, 1, 1, true⟩
def SYS_RSTCAUSE_POR : Fld := ⟨0xC, 0, 0, true⟩
-- SYS_RESET
def SYS_RESET_KEY : Fld := ⟨0x10, 35, 28, false⟩
def SYS_RESET_KIND : Fld := ⟨0x10, 1, 0, false⟩
-- SYS_FABERR
def SYS_FABERR_CODE : Fld := ⟨0x14, 23, 16, false⟩
def SYS_FABERR_REQ : Fld := ⟨0x14, 15, 12, false⟩
def SYS_FABERR_VALID : Fld := ⟨0x14, 0, 0, true⟩
-- SYS_FABADDR
def SYS_FABADDR_ADDR : Fld := ⟨0x18, 31, 0, false⟩
-- SYS_ISLRDY
def SYS_ISLRDY_AON : Fld := ⟨0x1C, 10, 10, false⟩
def SYS_ISLRDY_STORE : Fld := ⟨0x1C, 9, 9, false⟩
def SYS_ISLRDY_RING : Fld := ⟨0x1C, 8, 8, false⟩
def SYS_ISLRDY_NET : Fld := ⟨0x1C, 7, 7, false⟩
def SYS_ISLRDY_LIGHT : Fld := ⟨0x1C, 6, 6, false⟩
def SYS_ISLRDY_POWER : Fld := ⟨0x1C, 5, 5, false⟩
def SYS_ISLRDY_TBASE : Fld := ⟨0x1C, 4, 4, false⟩
def SYS_ISLRDY_FABRIC : Fld := ⟨0x1C, 3, 3, false⟩
def SYS_ISLRDY_SIGNET : Fld := ⟨0x1C, 2, 2, false⟩
def SYS_ISLRDY_QB : Fld := ⟨0x1C, 1, 1, false⟩
def SYS_ISLRDY_QA : Fld := ⟨0x1C, 0, 0, false⟩
-- FOLIO_STAT
def FOLIO_STAT_FSEL : Fld := ⟨0x0, 7, 7, false⟩
def FOLIO_STAT_SLOT : Fld := ⟨0x0, 6, 6, false⟩
def FOLIO_STAT_ERR : Fld := ⟨0x0, 2, 2, true⟩
def FOLIO_STAT_DONE : Fld := ⟨0x0, 1, 1, true⟩
def FOLIO_STAT_BUSY : Fld := ⟨0x0, 0, 0, false⟩
-- FOLIO_CMD
def FOLIO_CMD_KEY : Fld := ⟨0x4, 35, 28, false⟩
def FOLIO_CMD_OP : Fld := ⟨0x4, 2, 0, false⟩
-- FOLIO_ERR
def FOLIO_ERR_CODE : Fld := ⟨0x8, 35, 28, false⟩
def FOLIO_ERR_WORD : Fld := ⟨0x8, 23, 0, false⟩
-- FOLIO_VER
def FOLIO_VER_VERSION : Fld := ⟨0xC, 35, 0, false⟩
-- FOLIO_FLOOR
def FOLIO_FLOOR_FLOOR : Fld := ⟨0x10, 19, 0, false⟩
-- FOLIO_STAMP
def FOLIO_STAMP_STAMP : Fld := ⟨0x14, 35, 0, false⟩
-- FOLIO_SECTCHG
def FOLIO_SECTCHG_CHG : Fld := ⟨0x18, 15, 1, false⟩
-- FOLIO_SCRC
def FOLIO_SCRC_SCRC : Fld := ⟨0x40, 35, 0, false⟩
-- PSG_CTRL
def PSG_CTRL_OWNER : Fld := ⟨0x0, 2, 1, false⟩
def PSG_CTRL_HBEN : Fld := ⟨0x0, 0, 0, false⟩
-- PSG_HB
def PSG_HB_KEY : Fld := ⟨0x4, 35, 28, false⟩
def PSG_HB_SEQ : Fld := ⟨0x4, 3, 0, false⟩
-- PSG_STAT
def PSG_STAT_HOLDSRC : Fld := ⟨0x8, 7, 6, false⟩
def PSG_STAT_HBRUN : Fld := ⟨0x8, 5, 5, false⟩
def PSG_STAT_HBEXP : Fld := ⟨0x8, 4, 4, true⟩
def PSG_STAT_HOLDACT : Fld := ⟨0x8, 3, 3, false⟩
def PSG_STAT_COINCIDENT : Fld := ⟨0x8, 2, 2, true⟩
def PSG_STAT_BEXC : Fld := ⟨0x8, 1, 1, false⟩
def PSG_STAT_DER : Fld := ⟨0x8, 0, 0, false⟩
-- PSG_HOLD
def PSG_HOLD_REMAIN : Fld := ⟨0xC, 14, 0, false⟩
-- PSG_SAFECFG
def PSG_SAFECFG_HB_TO : Fld := ⟨0x10, 35, 27, false⟩
def PSG_SAFECFG_HOLD : Fld := ⟨0x10, 26, 12, false⟩
-- PSG_GEN
def PSG_GEN_GEN : Fld := ⟨0x14, 7, 0, false⟩
-- PSG_RECLAIM
def PSG_RECLAIM_GEN : Fld := ⟨0x18, 35, 28, false⟩
def PSG_RECLAIM_GROUP : Fld := ⟨0x18, 26, 25, false⟩
def PSG_RECLAIM_MASK : Fld := ⟨0x18, 23, 0, false⟩
-- PSG_STAG
def PSG_STAG_GUARD : Fld := ⟨0x1C, 6, 0, false⟩
-- PSG_UNCL
def PSG_UNCL_UNCL : Fld := ⟨0x20, 23, 0, false⟩
-- PSG_ARBCFG
def PSG_ARBCFG_CAP : Fld := ⟨0x2C, 35, 24, false⟩
-- PSG_ARBSTAT
def PSG_ARBSTAT_BUDGET : Fld := ⟨0x30, 35, 24, false⟩
def PSG_ARBSTAT_DISS : Fld := ⟨0x30, 23, 12, false⟩
def PSG_ARBSTAT_TBP : Fld := ⟨0x30, 11, 2, false⟩
-- PSG_FEED
def PSG_FEED_VOLT : Fld := ⟨0x40, 35, 24, false⟩
def PSG_FEED_CURR : Fld := ⟨0x40, 23, 12, false⟩
def PSG_FEED_OC : Fld := ⟨0x40, 2, 2, false⟩
def PSG_FEED_UV : Fld := ⟨0x40, 1, 1, false⟩
def PSG_FEED_OV : Fld := ⟨0x40, 0, 0, false⟩
-- PSG_FLT
def PSG_FLT_FLT : Fld := ⟨0x60, 23, 0, false⟩
-- PSC_CMD
def PSC_CMD_PKEEP : Fld := ⟨0x0, 23, 23, false⟩
def PSC_CMD_MODE : Fld := ⟨0x0, 2, 0, false⟩
-- PSC_PWM
def PSC_PWM_PERIOD : Fld := ⟨0x4, 34, 12, false⟩
def PSC_PWM_DUTY : Fld := ⟨0x4, 11, 0, false⟩
-- PSC_PHASE
def PSC_PHASE_STAG : Fld := ⟨0x8, 35, 35, false⟩
def PSC_PHASE_PHASE : Fld := ⟨0x8, 23, 12, false⟩
def PSC_PHASE_WIN : Fld := ⟨0x8, 11, 0, false⟩
-- PSC_LIMIT
def PSC_LIMIT_ILIM : Fld := ⟨0xC, 35, 25, false⟩
def PSC_LIMIT_TLIM : Fld := ⟨0xC, 24, 15, false⟩
def PSC_LIMIT_PKLIM : Fld := ⟨0xC, 3, 0, false⟩
-- PSC_INRUSH
def PSC_INRUSH_WIN : Fld := ⟨0x10, 35, 29, false⟩
def PSC_INRUSH_NRST : Fld := ⟨0x10, 28, 23, false⟩
def PSC_INRUSH_INT : Fld := ⟨0x10, 22, 13, false⟩
-- PSC_RETRY
def PSC_RETRY_RMAX : Fld := ⟨0x14, 35, 30, false⟩
def PSC_RETRY_RDLY : Fld := ⟨0x14, 29, 16, false⟩
-- PSC_CLAMP
def PSC_CLAMP_CAP : Fld := ⟨0x18, 35, 24, false⟩
def PSC_CLAMP_LEAK : Fld := ⟨0x18, 23, 12, false⟩
-- PSC_ARB
def PSC_ARB_FLOOR : Fld := ⟨0x1C, 35, 24, false⟩
def PSC_ARB_PRIO : Fld := ⟨0x1C, 2, 0, false⟩
-- PSC_DIAG
def PSC_DIAG_OLON : Fld := ⟨0x20, 35, 26, false⟩
def PSC_DIAG_OLT : Fld := ⟨0x20, 25, 18, false⟩
def PSC_DIAG_OFFD : Fld := ⟨0x20, 17, 16, false⟩
def PSC_DIAG_OFFPER : Fld := ⟨0x20, 15, 8, false⟩
-- PSC_STAT
def PSC_STAT_STATE : Fld := ⟨0x24, 35, 32, false⟩
def PSC_STAT_UNCLAIMED : Fld := ⟨0x24, 31, 31, false⟩
def PSC_STAT_PAIRED : Fld := ⟨0x24, 30, 30, false⟩
def PSC_STAT_OLND : Fld := ⟨0x24, 29, 29, false⟩
def PSC_STAT_CLIPPED : Fld := ⟨0x24, 28, 28, false⟩
def PSC_STAT_DERATED : Fld := ⟨0x24, 27, 27, false⟩
def PSC_STAT_MINON : Fld := ⟨0x24, 26, 26, false⟩
def PSC_STAT_COINCIDENT : Fld := ⟨0x24, 25, 25, true⟩
def PSC_STAT_CSAT : Fld := ⟨0x24, 24, 24, false⟩
-- PSC_FAULT
def PSC_FAULT_LCAUSE : Fld := ⟨0x28, 35, 32, false⟩
def PSC_FAULT_PARKFLT : Fld := ⟨0x28, 14, 14, true⟩
def PSC_FAULT_LOCK : Fld := ⟨0x28, 13, 13, true⟩
def PSC_FAULT_SECOND : Fld := ⟨0x28, 12, 12, true⟩
def PSC_FAULT_MISMATCH : Fld := ⟨0x28, 11, 11, true⟩
def PSC_FAULT_IMBAL : Fld := ⟨0x28, 10, 10, true⟩
def PSC_FAULT_CLAMP : Fld := ⟨0x28, 9, 9, true⟩
def PSC_FAULT_THERM : Fld := ⟨0x28, 8, 8, true⟩
def PSC_FAULT_WIRE : Fld := ⟨0x28, 7, 7, true⟩
def PSC_FAULT_ILIMT : Fld := ⟨0x28, 6, 6, true⟩
def PSC_FAULT_SC : Fld := ⟨0x28, 5, 5, true⟩
def PSC_FAULT_SCG : Fld := ⟨0x28, 4, 4, true⟩
def PSC_FAULT_SCB : Fld := ⟨0x28, 3, 3, true⟩
def PSC_FAULT_OLOFF : Fld := ⟨0x28, 2, 2, true⟩
def PSC_FAULT_OLON : Fld := ⟨0x28, 1, 1, true⟩
-- PSC_MEAS
def PSC_MEAS_CUR : Fld := ⟨0x2C, 35, 24, false⟩
def PSC_MEAS_VOUT : Fld := ⟨0x2C, 23, 12, false⟩
def PSC_MEAS_TJ : Fld := ⟨0x2C, 9, 0, false⟩
-- PSC_MEAS2
def PSC_MEAS2_VFEED : Fld := ⟨0x30, 35, 24, false⟩
def PSC_MEAS2_IAVG : Fld := ⟨0x30, 23, 12, false⟩
-- PSC_WIRE
def PSC_WIRE_TINS : Fld := ⟨0x34, 35, 26, false⟩
def PSC_WIRE_TCON : Fld := ⟨0x34, 25, 16, false⟩
-- PSC_PROT
def PSC_PROT_BKT : Fld := ⟨0x38, 35, 24, false⟩
def PSC_PROT_RLEFT : Fld := ⟨0x38, 23, 18, false⟩
def PSC_PROT_INRLEFT : Fld := ⟨0x38, 17, 12, false⟩
-- PSC_STRUCT
def PSC_STRUCT_USE : Fld := ⟨0x40, 35, 34, false⟩
def PSC_STRUCT_PAIR : Fld := ⟨0x40, 33, 33, false⟩
def PSC_STRUCT_OWNER : Fld := ⟨0x40, 32, 31, false⟩
def PSC_STRUCT_ENGINE : Fld := ⟨0x40, 30, 27, false⟩
def PSC_STRUCT_FUNC : Fld := ⟨0x40, 26, 20, false⟩
def PSC_STRUCT_CRANK : Fld := ⟨0x40, 19, 19, false⟩
def PSC_STRUCT_PARKON : Fld := ⟨0x40, 18, 18, false⟩
def PSC_STRUCT_PRIO : Fld := ⟨0x40, 17, 15, false⟩
def PSC_STRUCT_PHYS : Fld := ⟨0x40, 14, 8, false⟩
-- PSC_SAFEV
def PSC_SAFEV_MODE : Fld := ⟨0x44, 13, 12, false⟩
def PSC_SAFEV_DUTY : Fld := ⟨0x44, 11, 0, false⟩
-- PSC_DP
def PSC_DP_HS : Fld := ⟨0x48, 35, 35, false⟩
def PSC_DP_LS : Fld := ⟨0x48, 34, 34, false⟩
def PSC_DP_SP2 : Fld := ⟨0x48, 33, 33, false⟩
-- PSC_PWMACT
def PSC_PWMACT_PERIOD : Fld := ⟨0x4C, 34, 12, false⟩
def PSC_PWMACT_GDUTY : Fld := ⟨0x4C, 11, 0, false⟩
-- PSG_ARBRES
def PSG_ARBRES_RESERVE : Fld := ⟨0x34, 35, 24, false⟩
def PSG_ARBRES_PCONT : Fld := ⟨0x34, 23, 12, false⟩
def PSG_ARBRES_BOOST : Fld := ⟨0x34, 0, 0, false⟩
-- MOT_DEAD
def MOT_DEAD_DT7 : Fld := ⟨0x40, 35, 32, false⟩
def MOT_DEAD_DT6 : Fld := ⟨0x40, 31, 28, false⟩
def MOT_DEAD_DT5 : Fld := ⟨0x40, 27, 24, false⟩
def MOT_DEAD_DT4 : Fld := ⟨0x40, 23, 20, false⟩
def MOT_DEAD_DT3 : Fld := ⟨0x40, 19, 16, false⟩
def MOT_DEAD_DT2 : Fld := ⟨0x40, 15, 12, false⟩
def MOT_DEAD_DT1 : Fld := ⟨0x40, 11, 8, false⟩
def MOT_DEAD_DT0 : Fld := ⟨0x40, 7, 4, false⟩
-- MOT_CTRL
def MOT_CTRL_EN : Fld := ⟨0x0, 35, 35, false⟩
def MOT_CTRL_IEDONE : Fld := ⟨0x0, 34, 34, false⟩
def MOT_CTRL_IEPINCH : Fld := ⟨0x0, 33, 33, false⟩
def MOT_CTRL_IEFLT : Fld := ⟨0x0, 32, 32, false⟩
-- MOT_CMD
def MOT_CMD_OP : Fld := ⟨0x4, 35, 32, false⟩
def MOT_CMD_AUTO : Fld := ⟨0x4, 31, 31, false⟩
def MOT_CMD_DIR : Fld := ⟨0x4, 30, 30, false⟩
def MOT_CMD_TARGET : Fld := ⟨0x4, 29, 10, false⟩
-- MOT_SPEED
def MOT_SPEED_TGT : Fld := ⟨0x8, 35, 22, false⟩
def MOT_SPEED_SOFT : Fld := ⟨0x8, 21, 14, false⟩
-- MOT_DUTY
def MOT_DUTY_DMIN : Fld := ⟨0xC, 35, 24, false⟩
def MOT_DUTY_DMAX : Fld := ⟨0xC, 23, 12, false⟩
-- MOT_PWM
def MOT_PWM_PER : Fld := ⟨0x10, 35, 19, false⟩
def MOT_PWM_BRKT : Fld := ⟨0x10, 18, 11, false⟩
-- MOT_LIMIT
def MOT_LIMIT_STALLI : Fld := ⟨0x14, 35, 25, false⟩
def MOT_LIMIT_STALLT : Fld := ⟨0x14, 24, 17, false⟩
def MOT_LIMIT_MAXT : Fld := ⟨0x14, 16, 1, false⟩
-- MOT_PINCH
def MOT_PINCH_KI : Fld := ⟨0x18, 35, 28, false⟩
def MOT_PINCH_KW : Fld := ⟨0x18, 27, 20, false⟩
def MOT_PINCH_REV : Fld := ⟨0x18, 19, 12, false⟩
-- MOT_PZTH
def MOT_PZTH_TH0 : Fld := ⟨0x1C, 35, 27, false⟩
def MOT_PZTH_TH1 : Fld := ⟨0x1C, 26, 18, false⟩
def MOT_PZTH_TH2 : Fld := ⟨0x1C, 17, 9, false⟩
def MOT_PZTH_TH3 : Fld := ⟨0x1C, 8, 0, false⟩
-- MOT_POS
def MOT_POS_POS : Fld := ⟨0x20, 35, 16, false⟩
def MOT_POS_LEARNED : Fld := ⟨0x20, 0, 0, false⟩
-- MOT_TRAVEL
def MOT_TRAVEL_TRAVEL : Fld := ⟨0x24, 35, 16, false⟩
-- MOT_STAT
def MOT_STAT_STATE : Fld := ⟨0x28, 35, 32, false⟩
def MOT_STAT_DIR : Fld := ⟨0x28, 31, 31, false⟩
def MOT_STAT_PINCH : Fld := ⟨0x28, 30, 30, true⟩
def MOT_STAT_COINCIDENT : Fld := ⟨0x28, 29, 29, true⟩
def MOT_STAT_CLIPPED : Fld := ⟨0x28, 28, 28, false⟩
def MOT_STAT_DERATED : Fld := ⟨0x28, 27, 27, false⟩
def MOT_STAT_LOST : Fld := ⟨0x28, 26, 26, true⟩
def MOT_STAT_PEND : Fld := ⟨0x28, 25, 25, false⟩
def MOT_STAT_INZONE : Fld := ⟨0x28, 24, 24, false⟩
def MOT_STAT_DONE : Fld := ⟨0x28, 23, 23, true⟩
def MOT_STAT_STOPC : Fld := ⟨0x28, 22, 19, false⟩
-- MOT_MEAS
def MOT_MEAS_SPEED : Fld := ⟨0x2C, 35, 22, false⟩
def MOT_MEAS_FEST : Fld := ⟨0x2C, 21, 12, false⟩
def MOT_MEAS_CORR : Fld := ⟨0x2C, 11, 4, false⟩
-- MOT_FREE
def MOT_FREE_IFREE : Fld := ⟨0x30, 35, 24, false⟩
def MOT_FREE_WFREE : Fld := ⟨0x30, 23, 10, false⟩
-- MOT_RIPPLE
def MOT_RIPPLE_NOMW : Fld := ⟨0x34, 35, 22, false⟩
def MOT_RIPPLE_CORRMAX : Fld := ⟨0x34, 21, 14, false⟩
-- STK_CTRL
def STK_CTRL_EN : Fld := ⟨0x0, 35, 35, false⟩
def STK_CTRL_IEDONE : Fld := ⟨0x0, 34, 34, false⟩
def STK_CTRL_IEFLT : Fld := ⟨0x0, 33, 33, false⟩
-- STK_CFG
def STK_CFG_REGSIDE : Fld := ⟨0x4, 35, 35, false⟩
def STK_CFG_QFAST : Fld := ⟨0x4, 34, 34, false⟩
def STK_CFG_WINEN : Fld := ⟨0x4, 33, 33, false⟩
def STK_CFG_WINACT : Fld := ⟨0x4, 32, 32, false⟩
def STK_CFG_TOFF : Fld := ⟨0x4, 31, 24, false⟩
-- STK_CMD
def STK_CMD_OP : Fld := ⟨0x8, 35, 32, false⟩
-- STK_CUR
def STK_CUR_IPEAK : Fld := ⟨0xC, 35, 24, false⟩
def STK_CUR_IHOLD : Fld := ⟨0xC, 23, 12, false⟩
-- STK_TIME
def STK_TIME_TBOOST : Fld := ⟨0x10, 35, 20, false⟩
def STK_TIME_TPEAK : Fld := ⟨0x10, 19, 4, false⟩
-- STK_HOLD
def STK_HOLD_THOLD : Fld := ⟨0x14, 35, 20, false⟩
def STK_HOLD_TQ : Fld := ⟨0x14, 19, 4, false⟩
-- STK_WIN
def STK_WIN_TPMIN : Fld := ⟨0x18, 35, 20, false⟩
def STK_WIN_TPMAX : Fld := ⟨0x18, 19, 4, false⟩
-- STK_DUTY
def STK_DUTY_DWIN : Fld := ⟨0x1C, 35, 26, false⟩
def STK_DUTY_DLIM : Fld := ⟨0x1C, 25, 19, false⟩
-- STK_STAT
def STK_STAT_PHASE : Fld := ⟨0x20, 35, 33, false⟩
def STK_STAT_DONE : Fld := ⟨0x20, 32, 32, true⟩
def STK_STAT_EARLY : Fld := ⟨0x20, 31, 31, true⟩
def STK_STAT_LATE : Fld := ⟨0x20, 30, 30, true⟩
def STK_STAT_DUTY : Fld := ⟨0x20, 29, 29, true⟩
def STK_STAT_COINCIDENT : Fld := ⟨0x20, 28, 28, true⟩
def STK_STAT_WAITED : Fld := ⟨0x20, 27, 27, true⟩
def STK_STAT_RESTART : Fld := ⟨0x20, 26, 26, false⟩
def STK_STAT_STOPC : Fld := ⟨0x20, 25, 22, false⟩
-- STK_MEAS
def STK_MEAS_TTP : Fld := ⟨0x24, 35, 20, false⟩
def STK_MEAS_WAITUS : Fld := ⟨0x24, 19, 4, false⟩
-- STK_DACT
def STK_DACT_ACT : Fld := ⟨0x28, 35, 16, false⟩
def STK_DACT_REFUSED : Fld := ⟨0x28, 15, 8, false⟩
-- LGT_CTRL
def LGT_CTRL_GSCALE : Fld := ⟨0x0, 35, 28, false⟩
def LGT_CTRL_SKPER : Fld := ⟨0x0, 27, 14, false⟩
def LGT_CTRL_SHTH : Fld := ⟨0x0, 13, 6, false⟩
-- LGT_STAT
def LGT_STAT_SKTH : Fld := ⟨0x4, 35, 30, false⟩
-- LGT_GEN
def LGT_GEN_GEN : Fld := ⟨0x8, 7, 0, false⟩
-- LGT_RECLAIM
def LGT_RECLAIM_GEN : Fld := ⟨0xC, 35, 28, false⟩
def LGT_RECLAIM_GROUP : Fld := ⟨0xC, 26, 25, false⟩
def LGT_RECLAIM_MASK : Fld := ⟨0xC, 23, 0, false⟩
-- LGT_UNCL
def LGT_UNCL_UNCL : Fld := ⟨0x10, 23, 0, false⟩
-- LGT_FLT
def LGT_FLT_FLT : Fld := ⟨0x20, 23, 0, false⟩
-- LGT_PWRREP
def LGT_PWRREP_REP : Fld := ⟨0x30, 35, 24, false⟩
-- LCH_CTRL
def LCH_CTRL_EN : Fld := ⟨0x0, 35, 35, false⟩
def LCH_CTRL_BLANK : Fld := ⟨0x0, 34, 34, false⟩
def LCH_CTRL_GO : Fld := ⟨0x0, 33, 33, false⟩
def LCH_CTRL_SWAP : Fld := ⟨0x0, 32, 32, false⟩
def LCH_CTRL_REFR : Fld := ⟨0x0, 31, 24, false⟩
def LCH_CTRL_LATW : Fld := ⟨0x0, 23, 20, false⟩
-- LCH_STAT
def LCH_STAT_ACTBUF : Fld := ⟨0x4, 35, 35, false⟩
def LCH_STAT_BUSY : Fld := ⟨0x4, 34, 34, false⟩
def LCH_STAT_SAFE : Fld := ⟨0x4, 33, 33, false⟩
def LCH_STAT_UNCLAIMED : Fld := ⟨0x4, 32, 32, false⟩
def LCH_STAT_PIN : Fld := ⟨0x4, 31, 31, false⟩
def LCH_STAT_COINCIDENT : Fld := ⟨0x4, 30, 30, true⟩
def LCH_STAT_FRAMES : Fld := ⟨0x4, 15, 0, false⟩
-- LCH_LEN
def LCH_LEN_NPOS : Fld := ⟨0x8, 35, 27, false⟩
def LCH_LEN_NBITS : Fld := ⟨0x8, 26, 12, false⟩
def LCH_LEN_CLK : Fld := ⟨0x8, 11, 7, false⟩
-- LCH_SAFEV
def LCH_SAFEV_MODE : Fld := ⟨0xC, 13, 12, false⟩
-- INP_CTRL
def INP_CTRL_SCANPER : Fld := ⟨0x0, 35, 28, false⟩
-- INP_STATE
def INP_STATE_STATE : Fld := ⟨0x4, 31, 0, false⟩
-- INP_EDGE
def INP_EDGE_EDGE : Fld := ⟨0xC, 31, 0, true⟩
-- INP_CODE
def INP_CODE_CODE : Fld := ⟨0x14, 31, 0, false⟩
-- INP_PARK
def INP_PARK_PER : Fld := ⟨0x24, 35, 29, false⟩
def INP_PARK_PW : Fld := ⟨0x24, 28, 24, false⟩
def INP_PARK_PDEB : Fld := ⟨0x24, 23, 21, false⟩
-- INP_WAKESRC
def INP_WAKESRC_SRC : Fld := ⟨0x28, 31, 0, true⟩
-- INP_WAKECMP
def INP_WAKECMP_CMP : Fld := ⟨0x30, 7, 0, true⟩
-- INP_RAW
def INP_RAW_RAW : Fld := ⟨0x34, 31, 0, false⟩
-- INP_ICFG
def INP_ICFG_USE : Fld := ⟨0x100, 35, 35, false⟩
def INP_ICFG_POL : Fld := ⟨0x100, 34, 34, false⟩
def INP_ICFG_WET : Fld := ⟨0x100, 33, 31, false⟩
def INP_ICFG_CODED : Fld := ⟨0x100, 30, 30, false⟩
def INP_ICFG_WAKE_OK : Fld := ⟨0x100, 29, 29, false⟩
def INP_ICFG_PULSED : Fld := ⟨0x100, 28, 28, false⟩
def INP_ICFG_ON : Fld := ⟨0x100, 23, 23, false⟩
def INP_ICFG_DEB : Fld := ⟨0x100, 22, 15, false⟩
def INP_ICFG_REDGE : Fld := ⟨0x100, 14, 14, false⟩
def INP_ICFG_FEDGE : Fld := ⟨0x100, 13, 13, false⟩
def INP_ICFG_WAKE : Fld := ⟨0x100, 12, 12, false⟩
def INP_ICFG_WDIR : Fld := ⟨0x100, 11, 10, false⟩
-- INP_ADCTRL
def INP_ADCTRL_EN : Fld := ⟨0x200, 35, 35, false⟩
def INP_ADCTRL_TRIG : Fld := ⟨0x200, 34, 34, false⟩
def INP_ADCTRL_NSEQ : Fld := ⟨0x200, 33, 29, false⟩
def INP_ADCTRL_PER : Fld := ⟨0x200, 28, 13, false⟩
-- INP_ADSTAT
def INP_ADSTAT_BUSY : Fld := ⟨0x204, 35, 35, false⟩
def INP_ADSTAT_OVERRUN : Fld := ⟨0x204, 34, 34, true⟩
def INP_ADSTAT_MISSED : Fld := ⟨0x204, 33, 33, true⟩
def INP_ADSTAT_SCANS : Fld := ⟨0x204, 15, 0, false⟩
-- INP_ADSEQ
def INP_ADSEQ_ENT : Fld := ⟨0x208, 31, 0, false⟩
-- INP_ADRES
def INP_ADRES_VAL : Fld := ⟨0x240, 35, 24, false⟩
def INP_ADRES_NEW : Fld := ⟨0x240, 23, 23, false⟩
def INP_ADRES_STAMP : Fld := ⟨0x240, 22, 0, false⟩
-- INP_ACFG
def INP_ACFG_USE : Fld := ⟨0x280, 35, 35, false⟩
def INP_ACFG_CMP_OK : Fld := ⟨0x280, 34, 34, false⟩
def INP_ACFG_RANGE : Fld := ⟨0x280, 33, 32, false⟩
def INP_ACFG_CEN : Fld := ⟨0x280, 31, 31, false⟩
def INP_ACFG_CIRQ : Fld := ⟨0x280, 30, 30, false⟩
def INP_ACFG_DIR : Fld := ⟨0x280, 29, 29, false⟩
def INP_ACFG_THR : Fld := ⟨0x280, 28, 21, false⟩
def INP_ACFG_HYST : Fld := ⟨0x280, 20, 17, false⟩
def INP_ACFG_CSTAT : Fld := ⟨0x280, 16, 16, false⟩
-- TMR_GO
def TMR_GO_MASK : Fld := ⟨0x0, 31, 0, false⟩
-- TMR_GPRE
def TMR_GPRE_DIV : Fld := ⟨0x4, 35, 20, false⟩
-- TMR_RUN
def TMR_RUN_RUNNING : Fld := ⟨0x14, 31, 0, false⟩
-- TMR_CTRL
def TMR_CTRL_EN : Fld := ⟨0x0, 35, 35, false⟩
def TMR_CTRL_MODE : Fld := ⟨0x0, 34, 33, false⟩
def TMR_CTRL_CLK : Fld := ⟨0x0, 32, 31, false⟩
def TMR_CTRL_AUTO : Fld := ⟨0x0, 30, 30, false⟩
def TMR_CTRL_OMODE : Fld := ⟨0x0, 29, 28, false⟩
def TMR_CTRL_OIDLE : Fld := ⟨0x0, 27, 27, false⟩
def TMR_CTRL_CSRC : Fld := ⟨0x0, 26, 26, false⟩
def TMR_CTRL_CEDGE : Fld := ⟨0x0, 25, 24, false⟩
def TMR_CTRL_CRST : Fld := ⟨0x0, 23, 23, false⟩
def TMR_CTRL_TOEN : Fld := ⟨0x0, 22, 22, false⟩
def TMR_CTRL_LINK : Fld := ⟨0x0, 21, 21, false⟩
def TMR_CTRL_IEPER : Fld := ⟨0x0, 20, 20, false⟩
def TMR_CTRL_IECMP : Fld := ⟨0x0, 19, 19, false⟩
def TMR_CTRL_IECAP : Fld := ⟨0x0, 18, 18, false⟩
def TMR_CTRL_IETO : Fld := ⟨0x0, 17, 17, false⟩
-- TMR_PERIOD
def TMR_PERIOD_PERIOD : Fld := ⟨0x4, 35, 0, false⟩
-- TMR_CMP
def TMR_CMP_CMP : Fld := ⟨0x8, 35, 0, false⟩
-- TMR_COUNT
def TMR_COUNT_COUNT : Fld := ⟨0xC, 35, 0, false⟩
-- TMR_CMD
def TMR_CMD_OP : Fld := ⟨0x10, 35, 34, false⟩
-- TMR_STAT
def TMR_STAT_RUNNING : Fld := ⟨0x14, 35, 35, false⟩
def TMR_STAT_DONE : Fld := ⟨0x14, 34, 34, true⟩
def TMR_STAT_PER : Fld := ⟨0x14, 33, 33, true⟩
def TMR_STAT_CMPF : Fld := ⟨0x14, 32, 32, true⟩
def TMR_STAT_TO : Fld := ⟨0x14, 31, 31, true⟩
def TMR_STAT_COINCIDENT : Fld := ⟨0x14, 30, 30, true⟩
def TMR_STAT_OVF : Fld := ⟨0x14, 29, 29, true⟩
def TMR_STAT_LEVEL : Fld := ⟨0x14, 28, 26, false⟩
def TMR_STAT_DROP : Fld := ⟨0x14, 25, 22, false⟩
def TMR_STAT_OUT : Fld := ⟨0x14, 21, 21, false⟩
-- TMR_CAP
def TMR_CAP_CAP : Fld := ⟨0x18, 35, 0, false⟩
-- TMR_SNAPLO
def TMR_SNAPLO_VALUE : Fld := ⟨0x1C, 35, 0, false⟩
-- TMR_SNAPHI
def TMR_SNAPHI_VALUE : Fld := ⟨0x20, 35, 0, false⟩
-- TMR_CAPHI
def TMR_CAPHI_VALUE : Fld := ⟨0x24, 35, 0, false⟩
-- RULE_SWP
def RULE_SWP_LINE : Fld := ⟨0x0, 35, 29, false⟩
-- RULE_PEND
def RULE_PEND_PEND : Fld := ⟨0x4, 31, 0, true⟩
-- RULE_IE
def RULE_IE_IE : Fld := ⟨0x14, 31, 0, false⟩
-- RULE_MUTE
def RULE_MUTE_MUTE : Fld := ⟨0x24, 31, 0, false⟩
-- RULE_LINE
def RULE_LINE_SRC : Fld := ⟨0x100, 35, 25, false⟩
def RULE_LINE_EDGE : Fld := ⟨0x100, 24, 23, false⟩
def RULE_LINE_NDST : Fld := ⟨0x100, 22, 20, false⟩
def RULE_LINE_LOSTF : Fld := ⟨0x100, 19, 19, true⟩
def RULE_LINE_CNT : Fld := ⟨0x100, 11, 0, false⟩
-- RULE_ROUTE
def RULE_ROUTE_LINE : Fld := ⟨0x400, 35, 29, false⟩
def RULE_ROUTE_DST : Fld := ⟨0x400, 28, 18, false⟩
def RULE_ROUTE_VALID : Fld := ⟨0x400, 17, 17, false⟩
-- CAN_CTRL
def CAN_CTRL_EN : Fld := ⟨0x0, 35, 35, false⟩
def CAN_CTRL_MODE : Fld := ⟨0x0, 34, 33, false⟩
def CAN_CTRL_FDE : Fld := ⟨0x0, 32, 32, false⟩
def CAN_CTRL_DAR : Fld := ⟨0x0, 31, 31, false⟩
def CAN_CTRL_ABOR : Fld := ⟨0x0, 30, 30, false⟩
def CAN_CTRL_SELFRX : Fld := ⟨0x0, 29, 29, false⟩
def CAN_CTRL_RECOVER : Fld := ⟨0x0, 28, 28, false⟩
-- CAN_STAT
def CAN_STAT_ESTATE : Fld := ⟨0x4, 35, 34, false⟩
def CAN_STAT_ACTIVE : Fld := ⟨0x4, 33, 33, false⟩
def CAN_STAT_TXING : Fld := ⟨0x4, 32, 32, false⟩
def CAN_STAT_RXING : Fld := ⟨0x4, 31, 31, false⟩
def CAN_STAT_COINCIDENT : Fld := ⟨0x4, 30, 30, true⟩
def CAN_STAT_EWARN : Fld := ⟨0x4, 29, 29, false⟩
def CAN_STAT_RECOV : Fld := ⟨0x4, 28, 28, false⟩
-- CAN_NBT
def CAN_NBT_NBRP : Fld := ⟨0x8, 35, 31, false⟩
def CAN_NBT_NTSEG1 : Fld := ⟨0x8, 30, 23, false⟩
def CAN_NBT_NTSEG2 : Fld := ⟨0x8, 22, 16, false⟩
def CAN_NBT_NSJW : Fld := ⟨0x8, 15, 9, false⟩
-- CAN_DBT
def CAN_DBT_DBRP : Fld := ⟨0xC, 35, 31, false⟩
def CAN_DBT_DTSEG1 : Fld := ⟨0xC, 30, 26, false⟩
def CAN_DBT_DTSEG2 : Fld := ⟨0xC, 25, 22, false⟩
def CAN_DBT_DSJW : Fld := ⟨0xC, 21, 18, false⟩
-- CAN_TDC
def CAN_TDC_TDCEN : Fld := ⟨0x10, 35, 35, false⟩
def CAN_TDC_TDCO : Fld := ⟨0x10, 34, 28, false⟩
def CAN_TDC_TDCV : Fld := ⟨0x10, 27, 21, false⟩
-- CAN_ERRC
def CAN_ERRC_TEC : Fld := ⟨0x14, 35, 28, false⟩
def CAN_ERRC_REC : Fld := ⟨0x14, 27, 20, false⟩
def CAN_ERRC_RP : Fld := ⟨0x14, 19, 19, false⟩
-- CAN_ERRLOG
def CAN_ERRLOG_LEC : Fld := ⟨0x18, 35, 33, false⟩
def CAN_ERRLOG_DLEC : Fld := ⟨0x18, 32, 30, false⟩
def CAN_ERRLOG_PXE : Fld := ⟨0x18, 29, 29, true⟩
def CAN_ERRLOG_ECNT : Fld := ⟨0x18, 15, 0, false⟩
-- CAN_RXRING
def CAN_RXRING_WPOS : Fld := ⟨0x1C, 35, 28, false⟩
def CAN_RXRING_RPOS : Fld := ⟨0x1C, 27, 20, false⟩
def CAN_RXRING_LEVEL : Fld := ⟨0x1C, 19, 11, false⟩
-- CAN_RXREL
def CAN_RXREL_COUNT : Fld := ⟨0x20, 35, 27, false⟩
-- CAN_TXCAN
def CAN_TXCAN_OBJ : Fld := ⟨0x24, 35, 28, false⟩
-- CAN_IE
def CAN_IE_DRP : Fld := ⟨0x28, 4, 4, false⟩
def CAN_IE_BO : Fld := ⟨0x28, 3, 3, false⟩
def CAN_IE_ST : Fld := ⟨0x28, 2, 2, false⟩
def CAN_IE_TX : Fld := ⟨0x28, 1, 1, false⟩
def CAN_IE_RX : Fld := ⟨0x28, 0, 0, false⟩
-- CAN_IR
def CAN_IR_DRP : Fld := ⟨0x2C, 4, 4, true⟩
def CAN_IR_BO : Fld := ⟨0x2C, 3, 3, true⟩
def CAN_IR_ST : Fld := ⟨0x2C, 2, 2, true⟩
def CAN_IR_TX : Fld := ⟨0x2C, 1, 1, true⟩
def CAN_IR_RX : Fld := ⟨0x2C, 0, 0, true⟩
-- CAN_SEAL
def CAN_SEAL_EN : Fld := ⟨0x30, 35, 35, false⟩
def CAN_SEAL_OBJ : Fld := ⟨0x30, 34, 27, false⟩
-- CAN_OBJS
def CAN_OBJS_OBJS : Fld := ⟨0x34, 35, 27, false⟩
def CAN_OBJS_WAKEPAT : Fld := ⟨0x34, 26, 26, false⟩
def CAN_OBJS_WUF : Fld := ⟨0x34, 25, 25, false⟩
-- CAN_RXDROP
def CAN_RXDROP_DROP : Fld := ⟨0x38, 35, 20, false⟩
def CAN_RXDROP_CLR : Fld := ⟨0x38, 0, 0, false⟩
-- CAN_DIR
def CAN_DIR_DIR : Fld := ⟨0x40, 31, 0, false⟩
-- CAN_TXRQ
def CAN_TXRQ_RQ : Fld := ⟨0x60, 31, 0, false⟩
-- CAN_TXDONE
def CAN_TXDONE_DONE : Fld := ⟨0x80, 31, 0, true⟩
-- LIN_CTRL
def LIN_CTRL_EN : Fld := ⟨0x0, 35, 35, false⟩
def LIN_CTRL_SCHED : Fld := ⟨0x0, 34, 34, false⟩
def LIN_CTRL_GOSLEEP : Fld := ⟨0x0, 33, 33, false⟩
def LIN_CTRL_WAKE : Fld := ⟨0x0, 32, 32, false⟩
def LIN_CTRL_WKEN : Fld := ⟨0x0, 31, 31, false⟩
def LIN_CTRL_IEFRM : Fld := ⟨0x0, 30, 30, false⟩
def LIN_CTRL_IEERR : Fld := ⟨0x0, 29, 29, false⟩
def LIN_CTRL_IEWAK : Fld := ⟨0x0, 28, 28, false⟩
def LIN_CTRL_NENT : Fld := ⟨0x0, 27, 22, false⟩
-- LIN_CFG
def LIN_CFG_ROLE : Fld := ⟨0x4, 35, 35, false⟩
def LIN_CFG_RATE : Fld := ⟨0x4, 34, 20, false⟩
def LIN_CFG_BRK : Fld := ⟨0x4, 19, 15, false⟩
-- LIN_STAT
def LIN_STAT_STATE : Fld := ⟨0x8, 35, 34, false⟩
def LIN_STAT_POS : Fld := ⟨0x8, 33, 29, false⟩
def LIN_STAT_WAKEUP : Fld := ⟨0x8, 28, 28, true⟩
def LIN_STAT_COINCIDENT : Fld := ⟨0x8, 27, 27, true⟩
def LIN_STAT_ERRCNT : Fld := ⟨0x8, 15, 0, false⟩
-- LIN_SCHED
def LIN_SCHED_ID : Fld := ⟨0x80, 35, 30, false⟩
def LIN_SCHED_SLOT : Fld := ⟨0x80, 29, 18, false⟩
-- TS_PHY
def TS_PHY_PLCA_ID : Fld := ⟨0x2C, 35, 28, false⟩
def TS_PHY_PLCA_CNT : Fld := ⟨0x2C, 27, 20, false⟩
def TS_PHY_TOTMR : Fld := ⟨0x2C, 19, 12, false⟩
def TS_PHY_BCN : Fld := ⟨0x2C, 11, 4, false⟩
def TS_PHY_PLCAST : Fld := ⟨0x2C, 3, 3, false⟩
-- TX_PHY
def TX_PHY_ROLE : Fld := ⟨0x2C, 35, 35, false⟩
def TX_PHY_LINK : Fld := ⟨0x2C, 34, 34, false⟩
def TX_PHY_SQI : Fld := ⟨0x2C, 33, 31, false⟩
def TX_PHY_LDOWN : Fld := ⟨0x2C, 15, 0, false⟩
-- RING_TXS
def RING_TXS_STATE : Fld := ⟨0x104, 35, 33, false⟩
def RING_TXS_FSEQ : Fld := ⟨0x104, 32, 29, false⟩
def RING_TXS_TRIES : Fld := ⟨0x104, 28, 26, false⟩
def RING_TXS_COINCIDENT : Fld := ⟨0x104, 25, 25, true⟩
-- NMG_WAKESRC
def NMG_WAKESRC_WUP : Fld := ⟨0x0, 35, 28, true⟩
def NMG_WAKESRC_WUF : Fld := ⟨0x0, 27, 26, true⟩
def NMG_WAKESRC_FEC : Fld := ⟨0x0, 25, 24, true⟩
-- NMG_LOGCTL
def NMG_LOGCTL_CLR : Fld := ⟨0x4, 35, 35, false⟩
def NMG_LOGCTL_LOST : Fld := ⟨0x4, 15, 0, false⟩
-- NMG_CTRL
def NMG_CTRL_EN : Fld := ⟨0x0, 35, 35, false⟩
def NMG_CTRL_REQ : Fld := ⟨0x0, 34, 34, false⟩
def NMG_CTRL_WAKEN : Fld := ⟨0x0, 33, 33, false⟩
def NMG_CTRL_WUFEN : Fld := ⟨0x0, 32, 32, false⟩
def NMG_CTRL_FWMEN : Fld := ⟨0x0, 31, 31, false⟩
def NMG_CTRL_IE : Fld := ⟨0x0, 30, 25, false⟩
-- NMG_TIME
def NMG_TIME_KAPER : Fld := ⟨0x4, 35, 26, false⟩
def NMG_TIME_SLPTO : Fld := ⟨0x4, 25, 16, false⟩
def NMG_TIME_PREP : Fld := ⟨0x4, 15, 8, false⟩
def NMG_TIME_REPT : Fld := ⟨0x4, 7, 0, false⟩
-- NMG_ID
def NMG_ID_NMID : Fld := ⟨0x8, 35, 28, false⟩
def NMG_ID_NMBASE : Fld := ⟨0x8, 27, 25, false⟩
def NMG_ID_WCONF : Fld := ⟨0x8, 24, 17, false⟩
def NMG_ID_FWTH : Fld := ⟨0x8, 16, 9, false⟩
-- NMG_STAT
def NMG_STAT_STATE : Fld := ⟨0xC, 35, 33, false⟩
def NMG_STAT_XMODE : Fld := ⟨0xC, 32, 31, false⟩
def NMG_STAT_COINCIDENT : Fld := ⟨0xC, 30, 30, true⟩
def NMG_STAT_ABORTED : Fld := ⟨0xC, 29, 29, true⟩
def NMG_STAT_DUPID : Fld := ⟨0xC, 28, 28, true⟩
def NMG_STAT_CONF : Fld := ⟨0xC, 27, 27, false⟩
def NMG_STAT_LASTNM : Fld := ⟨0xC, 26, 19, false⟩
-- NMG_FWAKE
def NMG_FWAKE_AGE : Fld := ⟨0x10, 35, 32, false⟩
def NMG_FWAKE_FWCNT : Fld := ⟨0x10, 31, 24, false⟩
def NMG_FWAKE_MASKED : Fld := ⟨0x10, 23, 23, true⟩
def NMG_FWAKE_CLR : Fld := ⟨0x10, 22, 22, false⟩
def NMG_FWAKE_LCAUSE : Fld := ⟨0x10, 21, 19, false⟩
-- ICU_SWI
def ICU_SWI_SWI : Fld := ⟨0x0, 3, 0, false⟩
-- ICU_SRC
def ICU_SRC_EN : Fld := ⟨0x400, 35, 35, false⟩
def ICU_SRC_PRIO : Fld := ⟨0x400, 34, 31, false⟩
def ICU_SRC_TGT : Fld := ⟨0x400, 30, 28, false⟩
def ICU_SRC_PEND : Fld := ⟨0x400, 27, 27, false⟩
def ICU_SRC_ACT : Fld := ⟨0x400, 26, 26, false⟩
-- PWR_MODE
def PWR_MODE_DEEPEST : Fld := ⟨0x0, 35, 33, false⟩
def PWR_MODE_INKRET : Fld := ⟨0x0, 32, 32, false⟩
-- PWR_STAT
def PWR_STAT_LAST : Fld := ⟨0x4, 35, 33, false⟩
def PWR_STAT_ENTRY : Fld := ⟨0x4, 32, 32, false⟩
def PWR_STAT_CHOSEN : Fld := ⟨0x4, 31, 29, false⟩
def PWR_STAT_COINCIDENT : Fld := ⟨0x4, 28, 28, true⟩
-- PWR_CAP
def PWR_CAP_POWER : Fld := ⟨0x8, 35, 33, false⟩
def PWR_CAP_LIGHT : Fld := ⟨0x8, 32, 30, false⟩
def PWR_CAP_NET : Fld := ⟨0x8, 29, 27, false⟩
def PWR_CAP_TBASE : Fld := ⟨0x8, 26, 24, false⟩
def PWR_CAP_RING : Fld := ⟨0x8, 23, 21, false⟩
def PWR_CAP_STORE : Fld := ⟨0x8, 20, 18, false⟩
def PWR_CAP_SIGNET : Fld := ⟨0x8, 17, 15, false⟩
-- PWR_TOL
def PWR_TOL_WHO : Fld := ⟨0xC, 35, 32, false⟩
def PWR_TOL_MINTOL : Fld := ⟨0xC, 31, 0, false⟩
-- PWR_IR
def PWR_IR_WAKE : Fld := ⟨0x10, 2, 2, true⟩
def PWR_IR_ABORT : Fld := ⟨0x10, 1, 1, true⟩
def PWR_IR_WAKEFLT : Fld := ⟨0x10, 0, 0, true⟩
-- PWR_IE
def PWR_IE_WAKE : Fld := ⟨0x14, 2, 2, false⟩
def PWR_IE_ABORT : Fld := ⟨0x14, 1, 1, false⟩
def PWR_IE_WAKEFLT : Fld := ⟨0x14, 0, 0, false⟩
-- PWR_LAT
def PWR_LAT_STATE : Fld := ⟨0x18, 35, 33, false⟩
def PWR_LAT_LAT : Fld := ⟨0x18, 23, 0, false⟩
-- PWR_WAKESEQ
def PWR_WAKESEQ_REG : Fld := ⟨0x1C, 34, 28, false⟩
def PWR_WAKESEQ_XTAL : Fld := ⟨0x1C, 27, 21, false⟩
def PWR_WAKESEQ_PLL : Fld := ⟨0x1C, 20, 14, false⟩
def PWR_WAKESEQ_MEM : Fld := ⟨0x1C, 13, 7, false⟩
def PWR_WAKESEQ_LOGIC : Fld := ⟨0x1C, 6, 0, false⟩
-- AON_WAKEEN
def AON_WAKEEN_INP : Fld := ⟨0x0, 31, 31, false⟩
def AON_WAKEEN_CMP : Fld := ⟨0x0, 30, 30, false⟩
def AON_WAKEEN_CAN : Fld := ⟨0x0, 29, 29, false⟩
def AON_WAKEEN_LIN : Fld := ⟨0x0, 28, 28, false⟩
def AON_WAKEEN_RING : Fld := ⟨0x0, 27, 27, false⟩
def AON_WAKEEN_RTC : Fld := ⟨0x0, 26, 26, false⟩
def AON_WAKEEN_ATT0 : Fld := ⟨0x0, 25, 25, false⟩
def AON_WAKEEN_ATT1 : Fld := ⟨0x0, 24, 24, false⟩
def AON_WAKEEN_PKF : Fld := ⟨0x0, 23, 23, false⟩
-- AON_WAKESRC
def AON_WAKESRC_INP : Fld := ⟨0x4, 31, 31, true⟩
def AON_WAKESRC_CMP : Fld := ⟨0x4, 30, 30, true⟩
def AON_WAKESRC_CAN : Fld := ⟨0x4, 29, 29, true⟩
def AON_WAKESRC_LIN : Fld := ⟨0x4, 28, 28, true⟩
def AON_WAKESRC_RING : Fld := ⟨0x4, 27, 27, true⟩
def AON_WAKESRC_RTC : Fld := ⟨0x4, 26, 26, true⟩
def AON_WAKESRC_ATT0 : Fld := ⟨0x4, 25, 25, true⟩
def AON_WAKESRC_ATT1 : Fld := ⟨0x4, 24, 24, true⟩
def AON_WAKESRC_PKF : Fld := ⟨0x4, 23, 23, true⟩
-- AON_PADHOLD
def AON_PADHOLD_HELD : Fld := ⟨0x14, 5, 0, true⟩
-- AON_PARKDUR
def AON_PARKDUR_N : Fld := ⟨0x18, 31, 0, false⟩
-- AON_WAKEFLT
def AON_WAKEFLT_CNT : Fld := ⟨0x1C, 15, 8, false⟩
def AON_WAKEFLT_STAGE : Fld := ⟨0x1C, 2, 0, false⟩
-- SAFE_STAT
def SAFE_STAT_GACT : Fld := ⟨0x0, 35, 35, false⟩
def SAFE_STAT_FSL : Fld := ⟨0x0, 34, 34, false⟩
def SAFE_STAT_FAULTN : Fld := ⟨0x0, 33, 33, false⟩
def SAFE_STAT_NOGUAR : Fld := ⟨0x0, 32, 32, false⟩
def SAFE_STAT_LATE : Fld := ⟨0x0, 31, 31, false⟩
def SAFE_STAT_RANGE : Fld := ⟨0x0, 30, 30, false⟩
def SAFE_STAT_TAMP : Fld := ⟨0x0, 29, 29, false⟩
def SAFE_STAT_ALM : Fld := ⟨0x0, 28, 28, true⟩
def SAFE_STAT_INFO : Fld := ⟨0x0, 27, 27, true⟩
-- SAFE_FLT
def SAFE_FLT_VALID : Fld := ⟨0x4, 35, 35, false⟩
def SAFE_FLT_CLASS : Fld := ⟨0x4, 34, 31, false⟩
def SAFE_FLT_INDEX : Fld := ⟨0x4, 30, 24, false⟩
def SAFE_FLT_COUNT : Fld := ⟨0x4, 23, 16, false⟩
-- SAFE_FSTAMP
def SAFE_FSTAMP_STAMP : Fld := ⟨0x8, 35, 0, false⟩
-- SAFE_FSET
def SAFE_FSET_SET : Fld := ⟨0xC, 15, 1, false⟩
-- SAFE_CLR
def SAFE_CLR_KEY : Fld := ⟨0x10, 35, 28, false⟩
def SAFE_CLR_CLR : Fld := ⟨0x10, 0, 0, false⟩
-- SAFE_VOTE
def SAFE_VOTE_VCNT : Fld := ⟨0x14, 35, 20, false⟩
def SAFE_VOTE_BLK : Fld := ⟨0x14, 19, 12, false⟩
def SAFE_VOTE_CLR : Fld := ⟨0x14, 0, 0, false⟩
-- SAFE_TEST
def SAFE_TEST_VOTE : Fld := ⟨0x20, 35, 35, false⟩
def SAFE_TEST_SRAM : Fld := ⟨0x20, 34, 34, false⟩
def SAFE_TEST_NVM : Fld := ⟨0x20, 33, 33, false⟩
def SAFE_TEST_CS : Fld := ⟨0x20, 32, 32, false⟩
def SAFE_TEST_MON : Fld := ⟨0x20, 31, 31, false⟩
-- SAFE_REACT
def SAFE_REACT_ALARM : Fld := ⟨0x40, 35, 35, false⟩
def SAFE_REACT_FSAFE : Fld := ⟨0x40, 34, 34, false⟩
def SAFE_REACT_RESET : Fld := ⟨0x40, 33, 32, false⟩
def SAFE_REACT_FAULTN : Fld := ⟨0x40, 31, 31, false⟩
-- LGT_STCMD
def LGT_STCMD_MODE : Fld := ⟨0x0, 2, 0, false⟩
-- LGT_STSET
def LGT_STSET_ISET : Fld := ⟨0x4, 35, 25, false⟩
-- LGT_STPWM
def LGT_STPWM_PERIOD : Fld := ⟨0x8, 35, 22, false⟩
def LGT_STPWM_DUTY : Fld := ⟨0x8, 11, 0, false⟩
-- LGT_STFREQ
def LGT_STFREQ_FLO : Fld := ⟨0xC, 35, 27, false⟩
def LGT_STFREQ_FHI : Fld := ⟨0xC, 26, 18, false⟩
def LGT_STFREQ_LIND : Fld := ⟨0xC, 17, 10, false⟩
-- LGT_STDIAG
def LGT_STDIAG_OPENMODE : Fld := ⟨0x10, 35, 34, false⟩
def LGT_STDIAG_STRN : Fld := ⟨0x10, 33, 26, false⟩
def LGT_STDIAG_AGE : Fld := ⟨0x10, 25, 16, false⟩
def LGT_STDIAG_SHV : Fld := ⟨0x10, 15, 6, false⟩
-- LGT_STARB
def LGT_STARB_FLOOR : Fld := ⟨0x14, 35, 24, false⟩
def LGT_STARB_PRIO : Fld := ⟨0x14, 2, 0, false⟩
-- LGT_STSTAT
def LGT_STSTAT_STATE : Fld := ⟨0x18, 35, 33, false⟩
def LGT_STSTAT_UNCLAIMED : Fld := ⟨0x18, 32, 32, false⟩
def LGT_STSTAT_UNDIAG : Fld := ⟨0x18, 31, 31, false⟩
def LGT_STSTAT_DERATED : Fld := ⟨0x18, 30, 30, false⟩
def LGT_STSTAT_CLIPPED : Fld := ⟨0x18, 29, 29, false⟩
def LGT_STSTAT_DROPOUT : Fld := ⟨0x18, 28, 28, false⟩
def LGT_STSTAT_STRETCHED : Fld := ⟨0x18, 27, 27, false⟩
def LGT_STSTAT_COINCIDENT : Fld := ⟨0x18, 26, 26, true⟩
-- LGT_STFAULT
def LGT_STFAULT_LOCK : Fld := ⟨0x1C, 5, 5, true⟩
def LGT_STFAULT_OUTSC : Fld := ⟨0x1C, 4, 4, true⟩
def LGT_STFAULT_OPEN : Fld := ⟨0x1C, 3, 3, true⟩
def LGT_STFAULT_OFFOPEN : Fld := ⟨0x1C, 2, 2, true⟩
def LGT_STFAULT_SHORT : Fld := ⟨0x1C, 1, 1, true⟩
def LGT_STFAULT_THERM : Fld := ⟨0x1C, 0, 0, true⟩
-- LGT_STMEAS
def LGT_STMEAS_ISTR : Fld := ⟨0x20, 35, 25, false⟩
def LGT_STMEAS_VSTR : Fld := ⟨0x20, 24, 13, false⟩
def LGT_STMEAS_FSW : Fld := ⟨0x20, 12, 4, false⟩
-- LGT_STLOSS
def LGT_STLOSS_LOSS : Fld := ⟨0x24, 35, 24, false⟩
def LGT_STLOSS_TJ : Fld := ⟨0x24, 9, 0, false⟩
-- LGT_STACT
def LGT_STACT_PERIOD : Fld := ⟨0x28, 35, 22, false⟩
def LGT_STACT_GDUTY : Fld := ⟨0x28, 11, 0, false⟩
-- LGT_STSAFEV
def LGT_STSAFEV_MODE : Fld := ⟨0x2C, 13, 12, false⟩
def LGT_STSAFEV_DUTY : Fld := ⟨0x2C, 11, 0, false⟩
-- LGT_SKCMD
def LGT_SKCMD_MODE : Fld := ⟨0x0, 35, 34, false⟩
def LGT_SKCMD_VAL : Fld := ⟨0x0, 33, 26, false⟩
-- LGT_SKCFG
def LGT_SKCFG_OPENMODE : Fld := ⟨0x4, 35, 34, false⟩
def LGT_SKCFG_STRN : Fld := ⟨0x4, 33, 26, false⟩
def LGT_SKCFG_AGE : Fld := ⟨0x4, 25, 16, false⟩
def LGT_SKCFG_PHASE : Fld := ⟨0x4, 15, 4, false⟩
-- LGT_SKPWM
def LGT_SKPWM_DUTY : Fld := ⟨0x8, 35, 24, false⟩
-- LGT_SKSTAT
def LGT_SKSTAT_STATE : Fld := ⟨0xC, 35, 33, false⟩
def LGT_SKSTAT_UNCLAIMED : Fld := ⟨0xC, 32, 32, false⟩
def LGT_SKSTAT_UNDIAG : Fld := ⟨0xC, 31, 31, false⟩
def LGT_SKSTAT_STRETCHED : Fld := ⟨0xC, 30, 30, false⟩
def LGT_SKSTAT_COINCIDENT : Fld := ⟨0xC, 29, 29, true⟩
def LGT_SKSTAT_OPEN : Fld := ⟨0xC, 28, 28, true⟩
def LGT_SKSTAT_SHORT : Fld := ⟨0xC, 27, 27, true⟩
def LGT_SKSTAT_OFFOPEN : Fld := ⟨0xC, 26, 26, true⟩
def LGT_SKSTAT_THERM : Fld := ⟨0xC, 25, 25, true⟩
-- LGT_SKMEAS
def LGT_SKMEAS_IMEAS : Fld := ⟨0x10, 35, 28, false⟩
def LGT_SKMEAS_VHR : Fld := ⟨0x10, 27, 16, false⟩
-- LGT_SKSAFEV
def LGT_SKSAFEV_MODE : Fld := ⟨0x14, 13, 12, false⟩
def LGT_SKSAFEV_DUTY : Fld := ⟨0x14, 11, 0, false⟩
-- LGT_MXCTRL
def LGT_MXCTRL_EN : Fld := ⟨0x1000, 35, 35, false⟩
def LGT_MXCTRL_SWAP : Fld := ⟨0x1000, 34, 34, false⟩
def LGT_MXCTRL_LT : Fld := ⟨0x1000, 33, 23, false⟩
def LGT_MXCTRL_BL : Fld := ⟨0x1000, 22, 15, false⟩
-- LGT_MXSTAT
def LGT_MXSTAT_ROW : Fld := ⟨0x1004, 35, 33, false⟩
def LGT_MXSTAT_ROWFLT : Fld := ⟨0x1004, 32, 25, true⟩
def LGT_MXSTAT_ROWLOCK : Fld := ⟨0x1004, 24, 17, true⟩
-- LGT_MXOPEN
def LGT_MXOPEN_ODD : Fld := ⟨0x1010, 31, 16, true⟩
def LGT_MXOPEN_EVEN : Fld := ⟨0x1010, 15, 0, true⟩
-- LGT_MXCELL
def LGT_MXCELL_D : Fld := ⟨0x1100, 11, 0, false⟩
-- LIN_FCFG
def LIN_FCFG_DIR : Fld := ⟨0x0, 35, 34, false⟩
def LIN_FCFG_LEN : Fld := ⟨0x0, 33, 30, false⟩
def LIN_FCFG_CK : Fld := ⟨0x0, 29, 29, false⟩
-- LIN_FSTAT
def LIN_FSTAT_NEW : Fld := ⟨0x4, 35, 35, true⟩
def LIN_FSTAT_ERR : Fld := ⟨0x4, 34, 32, false⟩
def LIN_FSTAT_GEN : Fld := ⟨0x4, 31, 24, false⟩
def LIN_FSTAT_STAMP : Fld := ⟨0x4, 23, 0, false⟩
-- LIN_FDATA
def LIN_FDATA_DATA : Fld := ⟨0x8, 35, 0, false⟩
-- ETH_CTRL
def ETH_CTRL_EN : Fld := ⟨0x0, 35, 35, false⟩
def ETH_CTRL_PROMISC : Fld := ⟨0x0, 34, 34, false⟩
def ETH_CTRL_MCAST : Fld := ⟨0x0, 33, 33, false⟩
def ETH_CTRL_IE : Fld := ⟨0x0, 32, 29, false⟩
-- ETH_STAT
def ETH_STAT_ACTIVE : Fld := ⟨0x4, 35, 35, false⟩
def ETH_STAT_RXPOS : Fld := ⟨0x4, 34, 27, false⟩
def ETH_STAT_TXPOS : Fld := ⟨0x4, 26, 19, false⟩
def ETH_STAT_TXRUN : Fld := ⟨0x4, 18, 18, false⟩
def ETH_STAT_DERR : Fld := ⟨0x4, 17, 17, true⟩
-- ETH_MACLO
def ETH_MACLO_ADDR : Fld := ⟨0x8, 31, 0, false⟩
-- ETH_MACHI
def ETH_MACHI_ADDR : Fld := ⟨0xC, 15, 0, false⟩
-- ETH_RXBASE
def ETH_RXBASE_BASE : Fld := ⟨0x10, 31, 0, false⟩
-- ETH_TXBASE
def ETH_TXBASE_BASE : Fld := ⟨0x14, 31, 0, false⟩
-- ETH_RINGN
def ETH_RINGN_RXN : Fld := ⟨0x18, 35, 27, false⟩
def ETH_RINGN_TXN : Fld := ⟨0x18, 26, 18, false⟩
-- ETH_TXKICK
def ETH_TXKICK_GO : Fld := ⟨0x20, 35, 35, false⟩
-- ETH_IR
def ETH_IR_BITS : Fld := ⟨0x24, 35, 32, true⟩
-- ETH_DROP
def ETH_DROP_RXFULL : Fld := ⟨0x28, 35, 24, false⟩
def ETH_DROP_FCS : Fld := ⟨0x28, 23, 12, false⟩
def ETH_DROP_LENERR : Fld := ⟨0x28, 11, 0, false⟩
-- RING_CTRL
def RING_CTRL_EN : Fld := ⟨0x0, 35, 35, false⟩
def RING_CTRL_IE : Fld := ⟨0x0, 34, 29, false⟩
def RING_CTRL_WKEN : Fld := ⟨0x0, 28, 28, false⟩
def RING_CTRL_WAKE : Fld := ⟨0x0, 27, 27, false⟩
-- RING_CFG
def RING_CFG_ACKTO : Fld := ⟨0x4, 35, 26, false⟩
def RING_CFG_RTRY : Fld := ⟨0x4, 25, 23, false⟩
def RING_CFG_EQMIN : Fld := ⟨0x4, 22, 18, false⟩
def RING_CFG_EQMAX : Fld := ⟨0x4, 17, 13, false⟩
def RING_CFG_CABLE : Fld := ⟨0x4, 12, 3, false⟩
-- RING_STAT
def RING_STAT_STATE : Fld := ⟨0x8, 35, 33, false⟩
def RING_STAT_KEEPER : Fld := ⟨0x8, 32, 32, false⟩
def RING_STAT_DUPADDR : Fld := ⟨0x8, 31, 31, true⟩
def RING_STAT_TSTEP : Fld := ⟨0x8, 30, 30, true⟩
def RING_STAT_WAKESEEN : Fld := ⟨0x8, 29, 29, true⟩
def RING_STAT_CLIPPED : Fld := ⟨0x8, 28, 28, false⟩
def RING_STAT_EQ : Fld := ⟨0x8, 27, 23, false⟩
-- RING_NODE
def RING_NODE_ADDR : Fld := ⟨0xC, 35, 26, false⟩
-- RING_UID
def RING_UID_UID : Fld := ⟨0x10, 35, 0, false⟩
-- RING_KEEP
def RING_KEEP_KADDR : Fld := ⟨0x14, 35, 26, false⟩
def RING_KEEP_LOOP : Fld := ⟨0x14, 25, 10, false⟩
def RING_KEEP_DERR : Fld := ⟨0x14, 9, 0, false⟩
-- RING_TOFS
def RING_TOFS_OFS : Fld := ⟨0x18, 35, 0, false⟩
-- RING_RTIME
def RING_RTIME_TIME : Fld := ⟨0x1C, 35, 0, false⟩
-- RING_TXGO
def RING_TXGO_SLOT : Fld := ⟨0x20, 3, 0, false⟩
-- RING_RXRING
def RING_RXRING_WPOS : Fld := ⟨0x24, 35, 32, false⟩
def RING_RXRING_RPOS : Fld := ⟨0x24, 31, 28, false⟩
def RING_RXRING_LEVEL : Fld := ⟨0x24, 27, 23, false⟩
-- RING_RXREL
def RING_RXREL_COUNT : Fld := ⟨0x28, 35, 31, false⟩
-- RING_IR
def RING_IR_BITS : Fld := ⟨0x2C, 5, 0, true⟩
-- RING_CNT
def RING_CNT_RXFULL : Fld := ⟨0x30, 35, 24, false⟩
def RING_CNT_CRCERR : Fld := ⟨0x30, 23, 12, false⟩
def RING_CNT_BREAKS : Fld := ⟨0x30, 11, 0, false⟩
-- RING_BRK
def RING_BRK_ADDR : Fld := ⟨0x34, 35, 26, false⟩
def RING_BRK_VALID : Fld := ⟨0x34, 25, 25, true⟩
-- RING_CRYPT
def RING_CRYPT_EN : Fld := ⟨0x38, 35, 35, false⟩
def RING_CRYPT_SLOT : Fld := ⟨0x38, 34, 30, false⟩
-- RING_NONCE
def RING_NONCE_NONCE : Fld := ⟨0x40, 35, 0, false⟩
-- RING_MAP
def RING_MAP_MAP : Fld := ⟨0x100, 31, 0, false⟩
-- NMG_CNT
def NMG_CNT_KARX : Fld := ⟨0x14, 35, 18, false⟩
def NMG_CNT_KATX : Fld := ⟨0x14, 17, 0, false⟩
-- NMG_IR
def NMG_IR_BITS : Fld := ⟨0x18, 5, 0, true⟩
-- NMG_WUFID
def NMG_WUFID_IDE : Fld := ⟨0x0, 35, 35, false⟩
def NMG_WUFID_ID : Fld := ⟨0x0, 28, 0, false⟩
-- NMG_WUFMSK
def NMG_WUFMSK_MSK : Fld := ⟨0x4, 28, 0, false⟩
-- NMG_WUFCFG
def NMG_WUFCFG_RATE : Fld := ⟨0x8, 35, 34, false⟩
def NMG_WUFCFG_DLC : Fld := ⟨0x8, 33, 30, false⟩
def NMG_WUFCFG_DATAEN : Fld := ⟨0x8, 29, 29, false⟩
-- NMG_WUFDM0
def NMG_WUFDM0_DM : Fld := ⟨0xC, 31, 0, false⟩
-- NMG_WUFDM1
def NMG_WUFDM1_DM : Fld := ⟨0x10, 31, 0, false⟩
-- NMG_WUFSTAT
def NMG_WUFSTAT_FEC : Fld := ⟨0x14, 35, 30, false⟩
-- VAULT_LC
def VAULT_LC_STATE : Fld := ⟨0x0, 35, 33, false⟩
def VAULT_LC_OWNERSET : Fld := ⟨0x0, 32, 32, false⟩
def VAULT_LC_RSVOK : Fld := ⟨0x0, 31, 31, false⟩
def VAULT_LC_SVCLEFT : Fld := ⟨0x0, 30, 23, false⟩
-- VAULT_LCCMD
def VAULT_LCCMD_KEY : Fld := ⟨0x4, 35, 28, false⟩
def VAULT_LCCMD_DUR : Fld := ⟨0x4, 27, 20, false⟩
def VAULT_LCCMD_OP : Fld := ⟨0x4, 3, 0, false⟩
-- VAULT_KCMD
def VAULT_KCMD_OP : Fld := ⟨0x8, 35, 32, false⟩
def VAULT_KCMD_SLOT : Fld := ⟨0x8, 31, 27, false⟩
def VAULT_KCMD_NODE : Fld := ⟨0x8, 26, 19, false⟩
def VAULT_KCMD_WORLD : Fld := ⟨0x8, 18, 16, false⟩
def VAULT_KCMD_LIFE : Fld := ⟨0x8, 15, 10, false⟩
def VAULT_KCMD_ENG : Fld := ⟨0x8, 9, 4, false⟩
def VAULT_KCMD_DERIVE : Fld := ⟨0x8, 3, 3, false⟩
-- VAULT_KSTAT
def VAULT_KSTAT_BUSY : Fld := ⟨0xC, 35, 35, false⟩
def VAULT_KSTAT_DONE : Fld := ⟨0xC, 34, 34, true⟩
def VAULT_KSTAT_ERR : Fld := ⟨0xC, 33, 26, false⟩
-- VAULT_CHAL
def VAULT_CHAL_CHAL : Fld := ⟨0x10, 31, 0, false⟩
-- VAULT_TAMPER
def VAULT_TAMPER_AGE : Fld := ⟨0x20, 35, 32, false⟩
def VAULT_TAMPER_CAUSE : Fld := ⟨0x20, 5, 0, false⟩
-- VAULT_TTIME
def VAULT_TTIME_AGE : Fld := ⟨0x24, 35, 32, false⟩
def VAULT_TTIME_SEC : Fld := ⟨0x24, 31, 0, false⟩
-- VAULT_TMPCFG
def VAULT_TMPCFG_AGE : Fld := ⟨0x28, 35, 32, false⟩
def VAULT_TMPCFG_ARM : Fld := ⟨0x28, 31, 27, false⟩
-- VAULT_CALLTO
def VAULT_CALLTO_TO : Fld := ⟨0x2C, 35, 28, false⟩
-- VAULT_RESP
def VAULT_RESP_RESP : Fld := ⟨0x100, 31, 0, false⟩
-- VAULT_OWNSTG
def VAULT_OWNSTG_HASH : Fld := ⟨0x200, 31, 0, false⟩
-- VAULT_OWNER
def VAULT_OWNER_HASH : Fld := ⟨0x240, 31, 0, false⟩
-- VAULT_SLOT
def VAULT_SLOT_VALID : Fld := ⟨0x400, 35, 35, false⟩
def VAULT_SLOT_NODE : Fld := ⟨0x400, 34, 27, false⟩
def VAULT_SLOT_DEPTH : Fld := ⟨0x400, 26, 24, false⟩
def VAULT_SLOT_WORLD : Fld := ⟨0x400, 23, 21, false⟩
def VAULT_SLOT_LIFE : Fld := ⟨0x400, 20, 15, false⟩
def VAULT_SLOT_ENG : Fld := ⟨0x400, 14, 9, false⟩
def VAULT_SLOT_DERIVE : Fld := ⟨0x400, 8, 8, false⟩
-- VAULT_CSTAT
def VAULT_CSTAT_PEND : Fld := ⟨0x0, 35, 35, false⟩
def VAULT_CSTAT_WORLD : Fld := ⟨0x0, 34, 33, false⟩
def VAULT_CSTAT_SVC : Fld := ⟨0x0, 32, 25, false⟩
def VAULT_CSTAT_TOUT : Fld := ⟨0x0, 24, 24, true⟩
def VAULT_CSTAT_ABANDONED : Fld := ⟨0x0, 23, 23, true⟩
def VAULT_CSTAT_COINCIDENT : Fld := ⟨0x0, 22, 22, true⟩
-- VAULT_ARG
def VAULT_ARG_ARG : Fld := ⟨0x4, 35, 0, false⟩
-- VAULT_REPLY
def VAULT_REPLY_REPLY : Fld := ⟨0x14, 35, 0, false⟩
-- VAULT_RSTAT
def VAULT_RSTAT_CODE : Fld := ⟨0x18, 7, 0, false⟩
-- CRYPT_JOB
def CRYPT_JOB_ENG : Fld := ⟨0x0, 35, 33, false⟩
def CRYPT_JOB_OP : Fld := ⟨0x0, 32, 30, false⟩
def CRYPT_JOB_SLOT : Fld := ⟨0x0, 29, 25, false⟩
def CRYPT_JOB_WORLD : Fld := ⟨0x0, 24, 23, false⟩
def CRYPT_JOB_CORE : Fld := ⟨0x0, 22, 21, false⟩
def CRYPT_JOB_TLEN : Fld := ⟨0x0, 20, 16, false⟩
def CRYPT_JOB_GO : Fld := ⟨0x0, 15, 15, false⟩
-- CRYPT_SRC
def CRYPT_SRC_ADDR : Fld := ⟨0x4, 31, 0, false⟩
-- CRYPT_DST
def CRYPT_DST_ADDR : Fld := ⟨0x8, 31, 0, false⟩
-- CRYPT_LEN
def CRYPT_LEN_ALEN : Fld := ⟨0xC, 35, 20, false⟩
def CRYPT_LEN_LEN : Fld := ⟨0xC, 19, 0, false⟩
-- CRYPT_IV
def CRYPT_IV_IV : Fld := ⟨0x10, 31, 0, false⟩
-- CRYPT_TAG
def CRYPT_TAG_TAG : Fld := ⟨0x20, 31, 0, false⟩
-- CRYPT_STAT
def CRYPT_STAT_BUSY : Fld := ⟨0x30, 35, 35, false⟩
def CRYPT_STAT_DONE : Fld := ⟨0x30, 34, 34, true⟩
def CRYPT_STAT_AUTHF : Fld := ⟨0x30, 33, 33, true⟩
def CRYPT_STAT_ABORT : Fld := ⟨0x30, 32, 32, true⟩
-- ACC_CTRL
def ACC_CTRL_EN : Fld := ⟨0x0, 35, 35, false⟩
def ACC_CTRL_FSLOT : Fld := ⟨0x0, 34, 30, false⟩
def ACC_CTRL_TSLOT : Fld := ⟨0x0, 29, 25, false⟩
def ACC_CTRL_IGNIN : Fld := ⟨0x0, 24, 18, false⟩
def ACC_CTRL_IE : Fld := ⟨0x0, 17, 10, false⟩
-- ACC_STAT
def ACC_STAT_STATE : Fld := ⟨0x4, 35, 34, false⟩
def ACC_STAT_FLEETKEY : Fld := ⟨0x4, 33, 33, false⟩
def ACC_STAT_SETOK : Fld := ⟨0x4, 32, 32, false⟩
def ACC_STAT_LOGPOS : Fld := ⟨0x4, 31, 28, false⟩
-- ACC_SETID
def ACC_SETID_SETID : Fld := ⟨0x8, 31, 0, false⟩
-- ACC_SESSION
def ACC_SESSION_SSTATE : Fld := ⟨0xC, 35, 34, false⟩
def ACC_SESSION_OUTCOME : Fld := ⟨0xC, 33, 31, false⟩
def ACC_SESSION_SLOT : Fld := ⟨0xC, 30, 27, false⟩
def ACC_SESSION_GRANT : Fld := ⟨0xC, 26, 26, false⟩
def ACC_SESSION_COINCIDENT : Fld := ⟨0xC, 25, 25, true⟩
def ACC_SESSION_LOCKFAIL : Fld := ⟨0xC, 24, 24, true⟩
def ACC_SESSION_REMAIN : Fld := ⟨0xC, 23, 10, false⟩
-- ACC_TIME
def ACC_TIME_SESS_TO : Fld := ⟨0x10, 35, 26, false⟩
def ACC_TIME_GRACE : Fld := ⟨0x10, 25, 16, false⟩
-- ACC_CH
def ACC_CH_INVCNT : Fld := ⟨0x14, 35, 32, false⟩
def ACC_CH_BOFF : Fld := ⟨0x14, 31, 18, false⟩
def ACC_CH_HELD : Fld := ⟨0x14, 17, 17, false⟩
def ACC_CH_ATTN : Fld := ⟨0x14, 16, 16, false⟩
def ACC_CH_CLK : Fld := ⟨0x14, 15, 8, false⟩
-- ACC_LEARN
def ACC_LEARN_OP : Fld := ⟨0x1C, 35, 32, false⟩
-- ACC_LADDR
def ACC_LADDR_ADDR : Fld := ⟨0x20, 31, 0, false⟩
-- ACC_LSTAT
def ACC_LSTAT_BUSY : Fld := ⟨0x24, 35, 35, false⟩
def ACC_LSTAT_DONE : Fld := ⟨0x24, 34, 34, true⟩
def ACC_LSTAT_ERR : Fld := ⟨0x24, 33, 26, false⟩
-- ACC_LOCK
def ACC_LOCK_STKU : Fld := ⟨0x28, 35, 20, false⟩
def ACC_LOCK_STKL : Fld := ⟨0x28, 19, 4, false⟩
-- ACC_GRANT
def ACC_GRANT_PER : Fld := ⟨0x2C, 35, 26, false⟩
def ACC_GRANT_OBJ : Fld := ⟨0x2C, 25, 18, false⟩
-- ACC_GCNT
def ACC_GCNT_CNT : Fld := ⟨0x30, 31, 0, false⟩
-- ACC_IR
def ACC_IR_BITS : Fld := ⟨0x34, 7, 0, true⟩
-- ACC_FWCMD
def ACC_FWCMD_PEND : Fld := ⟨0x38, 35, 35, true⟩
def ACC_FWCMD_SLOT : Fld := ⟨0x38, 34, 31, false⟩
def ACC_FWCMD_CMD : Fld := ⟨0x38, 30, 23, false⟩
-- ACC_FIMP
def ACC_FIMP_KEY : Fld := ⟨0x40, 31, 0, false⟩
-- ACC_SLOT
def ACC_SLOT_VALID : Fld := ⟨0x100, 35, 35, false⟩
def ACC_SLOT_SERVICE : Fld := ⟨0x100, 34, 34, false⟩
def ACC_SLOT_CMDMASK : Fld := ⟨0x100, 33, 30, false⟩
def ACC_SLOT_CTR : Fld := ⟨0x100, 27, 0, false⟩
-- ACC_LOG
def ACC_LOG_VALID : Fld := ⟨0x200, 35, 35, false⟩
def ACC_LOG_CH : Fld := ⟨0x200, 34, 34, false⟩
def ACC_LOG_SLOT : Fld := ⟨0x200, 33, 30, false⟩
def ACC_LOG_CMD : Fld := ⟨0x200, 29, 22, false⟩
def ACC_LOG_RESULT : Fld := ⟨0x200, 21, 18, false⟩
def ACC_LOG_COINCIDENT : Fld := ⟨0x200, 17, 17, false⟩
-- ACC_LOGW1
def ACC_LOGW1_STAMP : Fld := ⟨0x204, 35, 0, false⟩
-- ICU_CLAIM
def ICU_CLAIM_SRC : Fld := ⟨0x0, 8, 0, false⟩
-- ICU_EOI
def ICU_EOI_SRC : Fld := ⟨0x4, 8, 0, false⟩
-- ICU_THR
def ICU_THR_THR : Fld := ⟨0x8, 3, 0, false⟩
-- ICU_RPRI
def ICU_RPRI_DEPTH : Fld := ⟨0xC, 7, 4, false⟩
def ICU_RPRI_RPRI : Fld := ⟨0xC, 3, 0, false⟩
-- SYS_EDSTAT
def SYS_EDSTAT_ACT : Fld := ⟨0x40, 35, 35, false⟩
def SYS_EDSTAT_TRIAL : Fld := ⟨0x40, 34, 34, false⟩
def SYS_EDSTAT_TBOOT : Fld := ⟨0x40, 33, 32, false⟩
def SYS_EDSTAT_TRUN : Fld := ⟨0x40, 31, 22, false⟩
def SYS_EDSTAT_DHALF : Fld := ⟨0x40, 21, 21, false⟩
def SYS_EDSTAT_LOCKED : Fld := ⟨0x40, 20, 20, false⟩
def SYS_EDSTAT_ARM : Fld := ⟨0x40, 19, 19, false⟩
def SYS_EDSTAT_ARMSLOT : Fld := ⟨0x40, 18, 18, false⟩
def SYS_EDSTAT_ARMTRIAL : Fld := ⟨0x40, 17, 17, false⟩
def SYS_EDSTAT_FBACK : Fld := ⟨0x40, 16, 16, true⟩
def SYS_EDSTAT_FBCAUSE : Fld := ⟨0x40, 15, 13, false⟩
def SYS_EDSTAT_COINCIDENT : Fld := ⟨0x40, 12, 12, true⟩
def SYS_EDSTAT_LASTSW : Fld := ⟨0x40, 11, 11, false⟩
-- SYS_SLOT
def SYS_SLOT_STATE : Fld := ⟨0x0, 35, 33, false⟩
def SYS_SLOT_DFMT : Fld := ⟨0x0, 32, 17, false⟩
-- SYS_SLOTV
def SYS_SLOTV_VERSION : Fld := ⟨0x4, 35, 0, false⟩
-- SYS_SLOTF
def SYS_SLOTF_FLOOR : Fld := ⟨0x8, 19, 0, false⟩
-- SYS_HALFFMT
def SYS_HALFFMT_FMT0 : Fld := ⟨0x5C, 35, 20, false⟩
def SYS_HALFFMT_FMT1 : Fld := ⟨0x5C, 19, 4, false⟩
-- SYS_EDCMD
def SYS_EDCMD_KEY : Fld := ⟨0x60, 35, 28, false⟩
def SYS_EDCMD_OP : Fld := ⟨0x60, 3, 0, false⟩
-- SYS_BOOTST
def SYS_BOOTST_FSTEP : Fld := ⟨0x64, 35, 32, false⟩
def SYS_BOOTST_FCODE : Fld := ⟨0x64, 31, 24, false⟩
def SYS_BOOTST_PATH : Fld := ⟨0x64, 23, 21, false⟩
def SYS_BOOTST_ISLOFF : Fld := ⟨0x64, 20, 10, false⟩
-- SYS_BOOTREC
def SYS_BOOTREC_ADDR : Fld := ⟨0x68, 31, 0, false⟩
-- SYS_NVADDR
def SYS_NVADDR_ADDR : Fld := ⟨0x70, 31, 0, false⟩
-- SYS_NVCMD
def SYS_NVCMD_KEY : Fld := ⟨0x74, 35, 28, false⟩
def SYS_NVCMD_OP : Fld := ⟨0x74, 3, 0, false⟩
-- SYS_NVSTAT
def SYS_NVSTAT_BUSY : Fld := ⟨0x78, 35, 35, false⟩
def SYS_NVSTAT_DONE : Fld := ⟨0x78, 34, 34, true⟩
-- SYS_UPDCMD
def SYS_UPDCMD_OP : Fld := ⟨0x80, 35, 32, false⟩
def SYS_UPDCMD_NW : Fld := ⟨0x80, 31, 25, false⟩
-- SYS_UPDSTAT
def SYS_UPDSTAT_BUSY : Fld := ⟨0x84, 35, 35, false⟩
def SYS_UPDSTAT_DONE : Fld := ⟨0x84, 34, 34, true⟩
def SYS_UPDSTAT_ERR : Fld := ⟨0x84, 33, 26, false⟩
def SYS_UPDSTAT_STAGE : Fld := ⟨0x84, 25, 24, false⟩
def SYS_UPDSTAT_SLOT : Fld := ⟨0x84, 23, 23, false⟩
def SYS_UPDSTAT_RCVD : Fld := ⟨0x84, 22, 0, false⟩
-- SYS_NVBUF
def SYS_NVBUF_DATA : Fld := ⟨0x100, 35, 0, false⟩
-- SYS_UPDBUF
def SYS_UPDBUF_DATA : Fld := ⟨0x200, 35, 0, false⟩
-- AON_RTCSEC
def AON_RTCSEC_SEC : Fld := ⟨0x8, 31, 0, false⟩
-- AON_RTCSUB
def AON_RTCSUB_SUB : Fld := ⟨0xC, 14, 0, false⟩
-- AON_ALARM
def AON_ALARM_ALARM : Fld := ⟨0x10, 31, 0, false⟩
-- SAFE_ECC
def SAFE_ECC_SRAMC : Fld := ⟨0x18, 35, 24, false⟩
def SAFE_ECC_NVMC : Fld := ⟨0x18, 23, 12, false⟩
-- SAFE_ECCADDR
def SAFE_ECCADDR_ADDR : Fld := ⟨0x1C, 31, 0, false⟩
-- RING_TXW
def RING_TXW_WORD : Fld := ⟨0x0, 35, 0, false⟩
-- RING_RXW
def RING_RXW_WORD : Fld := ⟨0x0, 35, 0, false⟩
-- RING_RXS
def RING_RXS_FSEQ : Fld := ⟨0x108, 35, 32, false⟩
def RING_RXS_AUTH : Fld := ⟨0x108, 31, 31, false⟩
-- LCH_BUFA
def LCH_BUFA_O3 : Fld := ⟨0x1000, 34, 27, false⟩
def LCH_BUFA_O2 : Fld := ⟨0x1000, 25, 18, false⟩
def LCH_BUFA_O1 : Fld := ⟨0x1000, 16, 9, false⟩
def LCH_BUFA_O0 : Fld := ⟨0x1000, 7, 0, false⟩
-- LCH_BUFB
def LCH_BUFB_O3 : Fld := ⟨0x2000, 34, 27, false⟩
def LCH_BUFB_O2 : Fld := ⟨0x2000, 25, 18, false⟩
def LCH_BUFB_O1 : Fld := ⟨0x2000, 16, 9, false⟩
def LCH_BUFB_O0 : Fld := ⟨0x2000, 7, 0, false⟩
-- NMG_LOGS
def NMG_LOGS_VALID : Fld := ⟨0x800, 35, 35, false⟩
def NMG_LOGS_CH : Fld := ⟨0x800, 34, 31, false⟩
def NMG_LOGS_NMID : Fld := ⟨0x800, 30, 23, false⟩
def NMG_LOGS_COUNT : Fld := ⟨0x800, 22, 7, false⟩
-- NMG_LOGT
def NMG_LOGT_STAMP : Fld := ⟨0x804, 35, 0, false⟩
-- SYS_LASTERR
def SYS_LASTERR_CODE : Fld := ⟨0x3C, 35, 28, false⟩
def SYS_LASTERR_REQ : Fld := ⟨0x3C, 27, 24, false⟩
def SYS_LASTERR_COUNT : Fld := ⟨0x3C, 23, 20, false⟩
def SYS_LASTERR_OFFSET : Fld := ⟨0x3C, 19, 4, false⟩
def SYS_LASTERR_INFO : Fld := ⟨0x3C, 1, 1, true⟩
def SYS_LASTERR_VALID : Fld := ⟨0x3C, 0, 0, true⟩
-- PWR_LASTERR
def PWR_LASTERR_CODE : Fld := ⟨0x3C, 35, 28, false⟩
def PWR_LASTERR_REQ : Fld := ⟨0x3C, 27, 24, false⟩
def PWR_LASTERR_COUNT : Fld := ⟨0x3C, 23, 20, false⟩
def PWR_LASTERR_OFFSET : Fld := ⟨0x3C, 19, 4, false⟩
def PWR_LASTERR_INFO : Fld := ⟨0x3C, 1, 1, true⟩
def PWR_LASTERR_VALID : Fld := ⟨0x3C, 0, 0, true⟩
-- AON_LASTERR
def AON_LASTERR_CODE : Fld := ⟨0x3C, 35, 28, false⟩
def AON_LASTERR_REQ : Fld := ⟨0x3C, 27, 24, false⟩
def AON_LASTERR_COUNT : Fld := ⟨0x3C, 23, 20, false⟩
def AON_LASTERR_OFFSET : Fld := ⟨0x3C, 19, 4, false⟩
def AON_LASTERR_INFO : Fld := ⟨0x3C, 1, 1, true⟩
def AON_LASTERR_VALID : Fld := ⟨0x3C, 0, 0, true⟩
-- FOLIO_LASTERR
def FOLIO_LASTERR_CODE : Fld := ⟨0x3C, 35, 28, false⟩
def FOLIO_LASTERR_REQ : Fld := ⟨0x3C, 27, 24, false⟩
def FOLIO_LASTERR_COUNT : Fld := ⟨0x3C, 23, 20, false⟩
def FOLIO_LASTERR_OFFSET : Fld := ⟨0x3C, 19, 4, false⟩
def FOLIO_LASTERR_INFO : Fld := ⟨0x3C, 1, 1, true⟩
def FOLIO_LASTERR_VALID : Fld := ⟨0x3C, 0, 0, true⟩
-- SAFE_LASTERR
def SAFE_LASTERR_CODE : Fld := ⟨0x3C, 35, 28, false⟩
def SAFE_LASTERR_REQ : Fld := ⟨0x3C, 27, 24, false⟩
def SAFE_LASTERR_COUNT : Fld := ⟨0x3C, 23, 20, false⟩
def SAFE_LASTERR_OFFSET : Fld := ⟨0x3C, 19, 4, false⟩
def SAFE_LASTERR_INFO : Fld := ⟨0x3C, 1, 1, true⟩
def SAFE_LASTERR_VALID : Fld := ⟨0x3C, 0, 0, true⟩
-- ICU_LASTERR
def ICU_LASTERR_CODE : Fld := ⟨0x3C, 35, 28, false⟩
def ICU_LASTERR_REQ : Fld := ⟨0x3C, 27, 24, false⟩
def ICU_LASTERR_COUNT : Fld := ⟨0x3C, 23, 20, false⟩
def ICU_LASTERR_OFFSET : Fld := ⟨0x3C, 19, 4, false⟩
def ICU_LASTERR_INFO : Fld := ⟨0x3C, 1, 1, true⟩
def ICU_LASTERR_VALID : Fld := ⟨0x3C, 0, 0, true⟩
-- RULE_LASTERR
def RULE_LASTERR_CODE : Fld := ⟨0x3C, 35, 28, false⟩
def RULE_LASTERR_REQ : Fld := ⟨0x3C, 27, 24, false⟩
def RULE_LASTERR_COUNT : Fld := ⟨0x3C, 23, 20, false⟩
def RULE_LASTERR_OFFSET : Fld := ⟨0x3C, 19, 4, false⟩
def RULE_LASTERR_INFO : Fld := ⟨0x3C, 1, 1, true⟩
def RULE_LASTERR_VALID : Fld := ⟨0x3C, 0, 0, true⟩
-- TMR_LASTERR
def TMR_LASTERR_CODE : Fld := ⟨0x3C, 35, 28, false⟩
def TMR_LASTERR_REQ : Fld := ⟨0x3C, 27, 24, false⟩
def TMR_LASTERR_COUNT : Fld := ⟨0x3C, 23, 20, false⟩
def TMR_LASTERR_OFFSET : Fld := ⟨0x3C, 19, 4, false⟩
def TMR_LASTERR_INFO : Fld := ⟨0x3C, 1, 1, true⟩
def TMR_LASTERR_VALID : Fld := ⟨0x3C, 0, 0, true⟩
-- PSG_LASTERR
def PSG_LASTERR_CODE : Fld := ⟨0x3C, 35, 28, false⟩
def PSG_LASTERR_REQ : Fld := ⟨0x3C, 27, 24, false⟩
def PSG_LASTERR_COUNT : Fld := ⟨0x3C, 23, 20, false⟩
def PSG_LASTERR_OFFSET : Fld := ⟨0x3C, 19, 4, false⟩
def PSG_LASTERR_INFO : Fld := ⟨0x3C, 1, 1, true⟩
def PSG_LASTERR_VALID : Fld := ⟨0x3C, 0, 0, true⟩
-- PSC_LASTERR
def PSC_LASTERR_CODE : Fld := ⟨0x3C, 35, 28, false⟩
def PSC_LASTERR_REQ : Fld := ⟨0x3C, 27, 24, false⟩
def PSC_LASTERR_COUNT : Fld := ⟨0x3C, 23, 20, false⟩
def PSC_LASTERR_OFFSET : Fld := ⟨0x3C, 19, 4, false⟩
def PSC_LASTERR_INFO : Fld := ⟨0x3C, 1, 1, true⟩
def PSC_LASTERR_VALID : Fld := ⟨0x3C, 0, 0, true⟩
-- STK_LASTERR
def STK_LASTERR_CODE : Fld := ⟨0x3C, 35, 28, false⟩
def STK_LASTERR_REQ : Fld := ⟨0x3C, 27, 24, false⟩
def STK_LASTERR_COUNT : Fld := ⟨0x3C, 23, 20, false⟩
def STK_LASTERR_OFFSET : Fld := ⟨0x3C, 19, 4, false⟩
def STK_LASTERR_INFO : Fld := ⟨0x3C, 1, 1, true⟩
def STK_LASTERR_VALID : Fld := ⟨0x3C, 0, 0, true⟩
-- MOT_LASTERR
def MOT_LASTERR_CODE : Fld := ⟨0x3C, 35, 28, false⟩
def MOT_LASTERR_REQ : Fld := ⟨0x3C, 27, 24, false⟩
def MOT_LASTERR_COUNT : Fld := ⟨0x3C, 23, 20, false⟩
def MOT_LASTERR_OFFSET : Fld := ⟨0x3C, 19, 4, false⟩
def MOT_LASTERR_INFO : Fld := ⟨0x3C, 1, 1, true⟩
def MOT_LASTERR_VALID : Fld := ⟨0x3C, 0, 0, true⟩
-- LGT_LASTERR
def LGT_LASTERR_CODE : Fld := ⟨0x3C, 35, 28, false⟩
def LGT_LASTERR_REQ : Fld := ⟨0x3C, 27, 24, false⟩
def LGT_LASTERR_COUNT : Fld := ⟨0x3C, 23, 20, false⟩
def LGT_LASTERR_OFFSET : Fld := ⟨0x3C, 19, 4, false⟩
def LGT_LASTERR_INFO : Fld := ⟨0x3C, 1, 1, true⟩
def LGT_LASTERR_VALID : Fld := ⟨0x3C, 0, 0, true⟩
-- LCH_LASTERR
def LCH_LASTERR_CODE : Fld := ⟨0x3C, 35, 28, false⟩
def LCH_LASTERR_REQ : Fld := ⟨0x3C, 27, 24, false⟩
def LCH_LASTERR_COUNT : Fld := ⟨0x3C, 23, 20, false⟩
def LCH_LASTERR_OFFSET : Fld := ⟨0x3C, 19, 4, false⟩
def LCH_LASTERR_INFO : Fld := ⟨0x3C, 1, 1, true⟩
def LCH_LASTERR_VALID : Fld := ⟨0x3C, 0, 0, true⟩
-- INP_LASTERR
def INP_LASTERR_CODE : Fld := ⟨0x3C, 35, 28, false⟩
def INP_LASTERR_REQ : Fld := ⟨0x3C, 27, 24, false⟩
def INP_LASTERR_COUNT : Fld := ⟨0x3C, 23, 20, false⟩
def INP_LASTERR_OFFSET : Fld := ⟨0x3C, 19, 4, false⟩
def INP_LASTERR_INFO : Fld := ⟨0x3C, 1, 1, true⟩
def INP_LASTERR_VALID : Fld := ⟨0x3C, 0, 0, true⟩
-- CAN_LASTERR
def CAN_LASTERR_CODE : Fld := ⟨0x3C, 35, 28, false⟩
def CAN_LASTERR_REQ : Fld := ⟨0x3C, 27, 24, false⟩
def CAN_LASTERR_COUNT : Fld := ⟨0x3C, 23, 20, false⟩
def CAN_LASTERR_OFFSET : Fld := ⟨0x3C, 19, 4, false⟩
def CAN_LASTERR_INFO : Fld := ⟨0x3C, 1, 1, true⟩
def CAN_LASTERR_VALID : Fld := ⟨0x3C, 0, 0, true⟩
-- NMG_LASTERR
def NMG_LASTERR_CODE : Fld := ⟨0x3C, 35, 28, false⟩
def NMG_LASTERR_REQ : Fld := ⟨0x3C, 27, 24, false⟩
def NMG_LASTERR_COUNT : Fld := ⟨0x3C, 23, 20, false⟩
def NMG_LASTERR_OFFSET : Fld := ⟨0x3C, 19, 4, false⟩
def NMG_LASTERR_INFO : Fld := ⟨0x3C, 1, 1, true⟩
def NMG_LASTERR_VALID : Fld := ⟨0x3C, 0, 0, true⟩
-- LIN_LASTERR
def LIN_LASTERR_CODE : Fld := ⟨0x3C, 35, 28, false⟩
def LIN_LASTERR_REQ : Fld := ⟨0x3C, 27, 24, false⟩
def LIN_LASTERR_COUNT : Fld := ⟨0x3C, 23, 20, false⟩
def LIN_LASTERR_OFFSET : Fld := ⟨0x3C, 19, 4, false⟩
def LIN_LASTERR_INFO : Fld := ⟨0x3C, 1, 1, true⟩
def LIN_LASTERR_VALID : Fld := ⟨0x3C, 0, 0, true⟩
-- ETH_LASTERR
def ETH_LASTERR_CODE : Fld := ⟨0x3C, 35, 28, false⟩
def ETH_LASTERR_REQ : Fld := ⟨0x3C, 27, 24, false⟩
def ETH_LASTERR_COUNT : Fld := ⟨0x3C, 23, 20, false⟩
def ETH_LASTERR_OFFSET : Fld := ⟨0x3C, 19, 4, false⟩
def ETH_LASTERR_INFO : Fld := ⟨0x3C, 1, 1, true⟩
def ETH_LASTERR_VALID : Fld := ⟨0x3C, 0, 0, true⟩
-- RING_LASTERR
def RING_LASTERR_CODE : Fld := ⟨0x3C, 35, 28, false⟩
def RING_LASTERR_REQ : Fld := ⟨0x3C, 27, 24, false⟩
def RING_LASTERR_COUNT : Fld := ⟨0x3C, 23, 20, false⟩
def RING_LASTERR_OFFSET : Fld := ⟨0x3C, 19, 4, false⟩
def RING_LASTERR_INFO : Fld := ⟨0x3C, 1, 1, true⟩
def RING_LASTERR_VALID : Fld := ⟨0x3C, 0, 0, true⟩
-- SPIC_LASTERR
def SPIC_LASTERR_CODE : Fld := ⟨0x3C, 35, 28, false⟩
def SPIC_LASTERR_REQ : Fld := ⟨0x3C, 27, 24, false⟩
def SPIC_LASTERR_COUNT : Fld := ⟨0x3C, 23, 20, false⟩
def SPIC_LASTERR_OFFSET : Fld := ⟨0x3C, 19, 4, false⟩
def SPIC_LASTERR_INFO : Fld := ⟨0x3C, 1, 1, true⟩
def SPIC_LASTERR_VALID : Fld := ⟨0x3C, 0, 0, true⟩
-- DBG_LASTERR
def DBG_LASTERR_CODE : Fld := ⟨0x3C, 35, 28, false⟩
def DBG_LASTERR_REQ : Fld := ⟨0x3C, 27, 24, false⟩
def DBG_LASTERR_COUNT : Fld := ⟨0x3C, 23, 20, false⟩
def DBG_LASTERR_OFFSET : Fld := ⟨0x3C, 19, 4, false⟩
def DBG_LASTERR_INFO : Fld := ⟨0x3C, 1, 1, true⟩
def DBG_LASTERR_VALID : Fld := ⟨0x3C, 0, 0, true⟩
-- VAULT_LASTERR
def VAULT_LASTERR_CODE : Fld := ⟨0x3C, 35, 28, false⟩
def VAULT_LASTERR_REQ : Fld := ⟨0x3C, 27, 24, false⟩
def VAULT_LASTERR_COUNT : Fld := ⟨0x3C, 23, 20, false⟩
def VAULT_LASTERR_OFFSET : Fld := ⟨0x3C, 19, 4, false⟩
def VAULT_LASTERR_INFO : Fld := ⟨0x3C, 1, 1, true⟩
def VAULT_LASTERR_VALID : Fld := ⟨0x3C, 0, 0, true⟩
-- ACC_LASTERR
def ACC_LASTERR_CODE : Fld := ⟨0x3C, 35, 28, false⟩
def ACC_LASTERR_REQ : Fld := ⟨0x3C, 27, 24, false⟩
def ACC_LASTERR_COUNT : Fld := ⟨0x3C, 23, 20, false⟩
def ACC_LASTERR_OFFSET : Fld := ⟨0x3C, 19, 4, false⟩
def ACC_LASTERR_INFO : Fld := ⟨0x3C, 1, 1, true⟩
def ACC_LASTERR_VALID : Fld := ⟨0x3C, 0, 0, true⟩
-- CRYPT_LASTERR
def CRYPT_LASTERR_CODE : Fld := ⟨0x3C, 35, 28, false⟩
def CRYPT_LASTERR_REQ : Fld := ⟨0x3C, 27, 24, false⟩
def CRYPT_LASTERR_COUNT : Fld := ⟨0x3C, 23, 20, false⟩
def CRYPT_LASTERR_OFFSET : Fld := ⟨0x3C, 19, 4, false⟩
def CRYPT_LASTERR_INFO : Fld := ⟨0x3C, 1, 1, true⟩
def CRYPT_LASTERR_VALID : Fld := ⟨0x3C, 0, 0, true⟩

end Sys2Proof.Machine
end

