-- ==== Sys2Proof/Machine/RegMap.lean ====
section
/-! DEFINITION. The register tables of the spec as data: for each block, every register with its offset, its page and
array strides, and for each field its bits, access code, whether it is voted, its Reset column and its legal values.
A Reset column of "folio", "journal", "record", "fuses" or "—" stands as 0: those fields are loaded later (log entry 6). -/

namespace Sys2Proof.Machine

def regMap_sys : List RegDesc := [
  ⟨"SYS_ID", 0x0, 1, 0x0, 1, 0, [⟨35, 20, .ro, false, 13938, [], false⟩, ⟨19, 12, .ro, false, 1, [], false⟩]⟩,
  ⟨"SYS_TIMEBASE", 0x4, 1, 0x0, 1, 0, [⟨35, 0, .ro, false, 0, [], false⟩]⟩,
  ⟨"SYS_TBSTAT", 0x8, 1, 0x0, 1, 0, [⟨2, 2, .ro, false, 0, [], false⟩, ⟨1, 1, .w1c, false, 0, [], false⟩, ⟨0, 0, .w1c, false, 0, [], false⟩]⟩,
  ⟨"SYS_RSTCAUSE", 0xC, 1, 0x0, 1, 0, [⟨8, 8, .w1c, false, 0, [], false⟩, ⟨7, 7, .w1c, false, 0, [], false⟩, ⟨6, 6, .w1c, false, 0, [], false⟩, ⟨5, 5, .w1c, false, 0, [], false⟩, ⟨4, 4, .w1c, false, 0, [], false⟩, ⟨3, 3, .w1c, false, 0, [], false⟩, ⟨2, 2, .w1c, false, 0, [], false⟩, ⟨1, 1, .w1c, false, 0, [], false⟩, ⟨0, 0, .w1c, false, 1, [], false⟩]⟩,
  ⟨"SYS_RESET", 0x10, 1, 0x0, 1, 0, [⟨35, 28, .rw, false, 0, [(90, 90)], true⟩, ⟨1, 0, .rw, false, 0, [(0, 2)], false⟩]⟩,
  ⟨"SYS_FABERR", 0x14, 1, 0x0, 1, 0, [⟨23, 16, .ro, false, 0, [], false⟩, ⟨15, 12, .ro, false, 0, [], false⟩, ⟨0, 0, .w1c, false, 0, [], false⟩]⟩,
  ⟨"SYS_FABADDR", 0x18, 1, 0x0, 1, 0, [⟨31, 0, .ro, false, 0, [], false⟩]⟩,
  ⟨"SYS_ISLRDY", 0x1C, 1, 0x0, 1, 0, [⟨10, 10, .ro, false, 1, [], false⟩, ⟨9, 9, .ro, false, 0, [], false⟩, ⟨8, 8, .ro, false, 0, [], false⟩, ⟨7, 7, .ro, false, 0, [], false⟩, ⟨6, 6, .ro, false, 0, [], false⟩, ⟨5, 5, .ro, false, 0, [], false⟩, ⟨4, 4, .ro, false, 0, [], false⟩, ⟨3, 3, .ro, false, 0, [], false⟩, ⟨2, 2, .ro, false, 0, [], false⟩, ⟨1, 1, .ro, false, 0, [], false⟩, ⟨0, 0, .ro, false, 0, [], false⟩]⟩,
  ⟨"SYS_LASTERR", 0x3C, 1, 0x0, 1, 0, [⟨35, 28, .ro, false, 0, [], false⟩, ⟨27, 24, .ro, false, 0, [], false⟩, ⟨23, 20, .ro, false, 0, [], false⟩, ⟨19, 4, .ro, false, 0, [], false⟩, ⟨1, 1, .w1c, false, 0, [], false⟩, ⟨0, 0, .w1c, false, 0, [], false⟩]⟩,
  ⟨"SYS_EDSTAT", 0x40, 1, 0x0, 1, 0, [⟨35, 35, .ro, false, 0, [], false⟩, ⟨34, 34, .ro, false, 0, [], false⟩, ⟨33, 32, .ro, false, 0, [], false⟩, ⟨31, 22, .ro, false, 0, [], false⟩, ⟨21, 21, .ro, false, 0, [], false⟩, ⟨20, 20, .ro, false, 0, [], false⟩, ⟨19, 19, .ro, false, 0, [], false⟩, ⟨18, 18, .ro, false, 0, [], false⟩, ⟨17, 17, .ro, false, 0, [], false⟩, ⟨16, 16, .w1c, false, 0, [], false⟩, ⟨15, 13, .ro, false, 0, [], false⟩, ⟨12, 12, .w1c, false, 0, [], false⟩, ⟨11, 11, .ro, false, 0, [], false⟩]⟩,
  ⟨"SYS_SLOT", 0x44, 2, 0xC, 1, 0, [⟨35, 33, .ro, false, 0, [], false⟩, ⟨32, 17, .ro, false, 0, [], false⟩]⟩,
  ⟨"SYS_SLOTV", 0x48, 2, 0xC, 1, 0, [⟨35, 0, .ro, false, 0, [], false⟩]⟩,
  ⟨"SYS_SLOTF", 0x4C, 2, 0xC, 1, 0, [⟨19, 0, .ro, false, 0, [], false⟩]⟩,
  ⟨"SYS_HALFFMT", 0x5C, 1, 0x0, 1, 0, [⟨35, 20, .ro, false, 0, [], false⟩, ⟨19, 4, .ro, false, 0, [], false⟩]⟩,
  ⟨"SYS_EDCMD", 0x60, 1, 0x0, 1, 0, [⟨35, 28, .rw, false, 0, [(60, 60)], true⟩, ⟨3, 0, .rw, false, 0, [(1, 7)], true⟩]⟩,
  ⟨"SYS_BOOTST", 0x64, 1, 0x0, 1, 0, [⟨35, 32, .ro, false, 15, [], false⟩, ⟨31, 24, .ro, false, 0, [], false⟩, ⟨23, 21, .ro, false, 0, [], false⟩, ⟨20, 10, .ro, false, 0, [], false⟩]⟩,
  ⟨"SYS_BOOTREC", 0x68, 1, 0x0, 1, 0, [⟨31, 0, .ro, false, 0, [], false⟩]⟩,
  ⟨"SYS_NVADDR", 0x70, 1, 0x0, 1, 0, [⟨31, 0, .rw, false, 0, [], false⟩]⟩,
  ⟨"SYS_NVCMD", 0x74, 1, 0x0, 1, 0, [⟨35, 28, .rw, false, 0, [(105, 105)], true⟩, ⟨3, 0, .rw, false, 0, [(1, 1)], true⟩]⟩,
  ⟨"SYS_NVSTAT", 0x78, 1, 0x0, 1, 0, [⟨35, 35, .ro, false, 0, [], false⟩, ⟨34, 34, .w1c, false, 0, [], false⟩]⟩,
  ⟨"SYS_UPDCMD", 0x80, 1, 0x0, 1, 0, [⟨35, 32, .rw, false, 0, [(1, 5)], true⟩, ⟨31, 25, .rw, false, 0, [], false⟩]⟩,
  ⟨"SYS_UPDSTAT", 0x84, 1, 0x0, 1, 0, [⟨35, 35, .ro, false, 0, [], false⟩, ⟨34, 34, .w1c, false, 0, [], false⟩, ⟨33, 26, .ro, false, 0, [], false⟩, ⟨25, 24, .ro, false, 0, [], false⟩, ⟨23, 23, .ro, false, 0, [], false⟩, ⟨22, 0, .ro, false, 0, [], false⟩]⟩,
  ⟨"SYS_NVBUF", 0x100, 1, 0x0, 64, 4, [⟨35, 0, .rw, false, 0, [], false⟩]⟩,
  ⟨"SYS_UPDBUF", 0x200, 1, 0x0, 64, 4, [⟨35, 0, .rw, false, 0, [], true⟩]⟩]

def regMap_folio : List RegDesc := [
  ⟨"FOLIO_STAT", 0x0, 1, 0x0, 1, 0, [⟨7, 7, .ro, false, 0, [], false⟩, ⟨6, 6, .ro, false, 0, [], false⟩, ⟨2, 2, .w1c, false, 0, [], false⟩, ⟨1, 1, .w1c, false, 0, [], false⟩, ⟨0, 0, .ro, false, 0, [], false⟩]⟩,
  ⟨"FOLIO_CMD", 0x4, 1, 0x0, 1, 0, [⟨35, 28, .rw, false, 0, [(165, 165)], true⟩, ⟨2, 0, .rw, false, 0, [(1, 3)], false⟩]⟩,
  ⟨"FOLIO_ERR", 0x8, 1, 0x0, 1, 0, [⟨35, 28, .ro, false, 0, [], false⟩, ⟨23, 0, .ro, false, 0, [], false⟩]⟩,
  ⟨"FOLIO_VER", 0xC, 1, 0x0, 1, 0, [⟨35, 0, .ro, false, 0, [], false⟩]⟩,
  ⟨"FOLIO_FLOOR", 0x10, 1, 0x0, 1, 0, [⟨19, 0, .ro, false, 0, [], false⟩]⟩,
  ⟨"FOLIO_STAMP", 0x14, 1, 0x0, 1, 0, [⟨35, 0, .ro, false, 0, [], false⟩]⟩,
  ⟨"FOLIO_SECTCHG", 0x18, 1, 0x0, 1, 0, [⟨15, 1, .ro, false, 0, [], false⟩]⟩,
  ⟨"FOLIO_LASTERR", 0x3C, 1, 0x0, 1, 0, [⟨35, 28, .ro, false, 0, [], false⟩, ⟨27, 24, .ro, false, 0, [], false⟩, ⟨23, 20, .ro, false, 0, [], false⟩, ⟨19, 4, .ro, false, 0, [], false⟩, ⟨1, 1, .w1c, false, 0, [], false⟩, ⟨0, 0, .w1c, false, 0, [], false⟩]⟩,
  ⟨"FOLIO_SCRC", 0x40, 1, 0x0, 15, 4, [⟨35, 0, .ro, false, 0, [], false⟩]⟩]

def regMap_psg : List RegDesc := [
  ⟨"PSG_CTRL", 0x0, 1, 0x0, 1, 0, [⟨2, 1, .ro, false, 0, [], false⟩, ⟨0, 0, .w1s, true, 0, [], false⟩]⟩,
  ⟨"PSG_HB", 0x4, 1, 0x0, 1, 0, [⟨35, 28, .rw, false, 0, [], true⟩, ⟨3, 0, .rw, false, 0, [], false⟩]⟩,
  ⟨"PSG_STAT", 0x8, 1, 0x0, 1, 0, [⟨7, 6, .ro, false, 0, [], false⟩, ⟨5, 5, .ro, false, 0, [], false⟩, ⟨4, 4, .w1c, false, 0, [], false⟩, ⟨3, 3, .ro, false, 0, [], false⟩, ⟨2, 2, .w1c, false, 0, [], false⟩, ⟨1, 1, .ro, false, 0, [], false⟩, ⟨0, 0, .ro, false, 0, [], false⟩]⟩,
  ⟨"PSG_HOLD", 0xC, 1, 0x0, 1, 0, [⟨14, 0, .ro, false, 0, [], false⟩]⟩,
  ⟨"PSG_SAFECFG", 0x10, 1, 0x0, 1, 0, [⟨35, 27, .fol, true, 0, [], false⟩, ⟨26, 12, .fol, true, 0, [], false⟩]⟩,
  ⟨"PSG_GEN", 0x14, 1, 0x0, 1, 0, [⟨7, 0, .ro, false, 0, [], false⟩]⟩,
  ⟨"PSG_RECLAIM", 0x18, 1, 0x0, 1, 0, [⟨35, 28, .rw, false, 0, [], true⟩, ⟨26, 25, .rw, false, 0, [(0, 2)], true⟩, ⟨23, 0, .rw, false, 0, [], true⟩]⟩,
  ⟨"PSG_STAG", 0x1C, 1, 0x0, 1, 0, [⟨6, 0, .rw, false, 10, [(1, 100)], false⟩]⟩,
  ⟨"PSG_UNCL", 0x20, 1, 0x0, 3, 4, [⟨23, 0, .ro, false, 0, [], false⟩]⟩,
  ⟨"PSG_ARBCFG", 0x2C, 1, 0x0, 1, 0, [⟨35, 24, .rw, true, 4000, [(100, 4000)], false⟩]⟩,
  ⟨"PSG_ARBSTAT", 0x30, 1, 0x0, 1, 0, [⟨35, 24, .ro, false, 0, [], false⟩, ⟨23, 12, .ro, false, 0, [], false⟩, ⟨11, 2, .ro, false, 0, [], false⟩]⟩,
  ⟨"PSG_ARBRES", 0x34, 1, 0x0, 1, 0, [⟨35, 24, .ro, false, 1600, [], false⟩, ⟨23, 12, .ro, false, 0, [], false⟩, ⟨0, 0, .ro, false, 0, [], false⟩]⟩,
  ⟨"PSG_LASTERR", 0x3C, 1, 0x0, 1, 0, [⟨35, 28, .ro, false, 0, [], false⟩, ⟨27, 24, .ro, false, 0, [], false⟩, ⟨23, 20, .ro, false, 0, [], false⟩, ⟨19, 4, .ro, false, 0, [], false⟩, ⟨1, 1, .w1c, false, 0, [], false⟩, ⟨0, 0, .w1c, false, 0, [], false⟩]⟩,
  ⟨"PSG_FEED", 0x40, 1, 0x0, 5, 4, [⟨35, 24, .ro, false, 0, [], false⟩, ⟨23, 12, .ro, false, 0, [], false⟩, ⟨2, 2, .ro, false, 0, [], false⟩, ⟨1, 1, .ro, false, 0, [], false⟩, ⟨0, 0, .ro, false, 0, [], false⟩]⟩,
  ⟨"PSG_FLT", 0x60, 1, 0x0, 3, 4, [⟨23, 0, .ro, false, 0, [], false⟩]⟩]

def regMap_psc0 : List RegDesc := [
  ⟨"PSC_LASTERR", 0x3C, 1, 0x0, 1, 0, [⟨35, 28, .ro, false, 0, [], false⟩, ⟨27, 24, .ro, false, 0, [], false⟩, ⟨23, 20, .ro, false, 0, [], false⟩, ⟨19, 4, .ro, false, 0, [], false⟩, ⟨1, 1, .w1c, false, 0, [], false⟩, ⟨0, 0, .w1c, false, 0, [], false⟩]⟩,
  ⟨"PSC_CMD", 0x100, 36, 0x100, 1, 0, [⟨23, 23, .run, true, 0, [], false⟩, ⟨2, 0, .run, true, 0, [(0, 4)], false⟩]⟩,
  ⟨"PSC_PWM", 0x104, 36, 0x100, 1, 0, [⟨34, 12, .run, false, 1000000, [], false⟩, ⟨11, 0, .run, false, 0, [], false⟩]⟩,
  ⟨"PSC_PHASE", 0x108, 36, 0x100, 1, 0, [⟨35, 35, .cfg, false, 0, [], false⟩, ⟨23, 12, .cfg, false, 0, [], false⟩, ⟨11, 0, .cfg, false, 0, [], false⟩]⟩,
  ⟨"PSC_LIMIT", 0x10C, 8, 0x100, 1, 0, [⟨35, 25, .cfg, true, 400, [(400, 1600)], false⟩, ⟨24, 15, .cfg, true, 10, [(1, 100)], false⟩, ⟨3, 0, .cfg, true, 0, [], false⟩]⟩,
  ⟨"PSC_INRUSH", 0x110, 36, 0x100, 1, 0, [⟨35, 29, .cfg, false, 0, [(0, 100)], false⟩, ⟨28, 23, .cfg, false, 0, [], false⟩, ⟨22, 13, .cfg, false, 1, [(1, 200)], false⟩]⟩,
  ⟨"PSC_RETRY", 0x114, 36, 0x100, 1, 0, [⟨35, 30, .cfg, true, 0, [], false⟩, ⟨29, 16, .cfg, true, 100, [(1, 10000)], false⟩]⟩,
  ⟨"PSC_CLAMP", 0x118, 36, 0x100, 1, 0, [⟨35, 24, .cfg, true, 100, [(1, 4095)], false⟩, ⟨23, 12, .cfg, true, 100, [(1, 4095)], false⟩]⟩,
  ⟨"PSC_ARB", 0x11C, 36, 0x100, 1, 0, [⟨35, 24, .run, true, 0, [], false⟩, ⟨2, 0, .fol, true, 0, [], false⟩]⟩,
  ⟨"PSC_DIAG", 0x120, 36, 0x100, 1, 0, [⟨35, 26, .cfg, false, 0, [], false⟩, ⟨25, 18, .cfg, false, 10, [(1, 255)], false⟩, ⟨17, 16, .cfg, false, 0, [(0, 2)], false⟩, ⟨15, 8, .cfg, false, 100, [(10, 255)], false⟩]⟩,
  ⟨"PSC_STAT", 0x124, 36, 0x100, 1, 0, [⟨35, 32, .ro, false, 0, [], false⟩, ⟨31, 31, .ro, false, 0, [], false⟩, ⟨30, 30, .ro, false, 0, [], false⟩, ⟨29, 29, .ro, false, 0, [], false⟩, ⟨28, 28, .ro, false, 0, [], false⟩, ⟨27, 27, .ro, false, 0, [], false⟩, ⟨26, 26, .ro, false, 0, [], false⟩, ⟨25, 25, .w1c, false, 0, [], false⟩, ⟨24, 24, .ro, false, 0, [], false⟩]⟩,
  ⟨"PSC_FAULT", 0x128, 36, 0x100, 1, 0, [⟨35, 32, .ro, false, 0, [], false⟩, ⟨14, 14, .w1c, false, 0, [], false⟩, ⟨13, 13, .w1c, false, 0, [], false⟩, ⟨12, 12, .w1c, false, 0, [], false⟩, ⟨11, 11, .w1c, false, 0, [], false⟩, ⟨10, 10, .w1c, false, 0, [], false⟩, ⟨9, 9, .w1c, false, 0, [], false⟩, ⟨8, 8, .w1c, false, 0, [], false⟩, ⟨7, 7, .w1c, false, 0, [], false⟩, ⟨6, 6, .w1c, false, 0, [], false⟩, ⟨5, 5, .w1c, false, 0, [], false⟩, ⟨4, 4, .w1c, false, 0, [], false⟩, ⟨3, 3, .w1c, false, 0, [], false⟩, ⟨2, 2, .w1c, false, 0, [], false⟩, ⟨1, 1, .w1c, false, 0, [], false⟩]⟩,
  ⟨"PSC_MEAS", 0x12C, 36, 0x100, 1, 0, [⟨35, 24, .ro, false, 0, [], false⟩, ⟨23, 12, .ro, false, 0, [], false⟩, ⟨9, 0, .ro, false, 0, [], false⟩]⟩,
  ⟨"PSC_MEAS2", 0x130, 36, 0x100, 1, 0, [⟨35, 24, .ro, false, 0, [], false⟩, ⟨23, 12, .ro, false, 0, [], false⟩]⟩,
  ⟨"PSC_WIRE", 0x134, 36, 0x100, 1, 0, [⟨35, 26, .ro, false, 0, [], false⟩, ⟨25, 16, .ro, false, 0, [], false⟩]⟩,
  ⟨"PSC_PROT", 0x138, 36, 0x100, 1, 0, [⟨35, 24, .ro, false, 0, [], false⟩, ⟨23, 18, .ro, false, 0, [], false⟩, ⟨17, 12, .ro, false, 0, [], false⟩]⟩,
  ⟨"PSC_STRUCT", 0x140, 36, 0x100, 1, 0, [⟨35, 34, .fol, true, 0, [], false⟩, ⟨33, 33, .fol, true, 0, [], false⟩, ⟨32, 31, .fol, true, 0, [], false⟩, ⟨30, 27, .fol, true, 0, [], false⟩, ⟨26, 20, .fol, true, 0, [], false⟩, ⟨19, 19, .fol, true, 0, [], false⟩, ⟨18, 18, .fol, true, 0, [], false⟩, ⟨17, 15, .fol, true, 0, [], false⟩, ⟨14, 8, .fol, true, 0, [], false⟩]⟩,
  ⟨"PSC_SAFEV", 0x144, 36, 0x100, 1, 0, [⟨13, 12, .fol, true, 0, [], false⟩, ⟨11, 0, .fol, true, 0, [], false⟩]⟩,
  ⟨"PSC_DP", 0x148, 36, 0x100, 1, 0, [⟨35, 35, .ro, false, 0, [], false⟩, ⟨34, 34, .ro, false, 0, [], false⟩, ⟨33, 33, .ro, false, 0, [], false⟩]⟩,
  ⟨"PSC_PWMACT", 0x14C, 36, 0x100, 1, 0, [⟨34, 12, .ro, false, 1000000, [], false⟩, ⟨11, 0, .ro, false, 0, [], false⟩]⟩,
  ⟨"PSC_LIMIT", 0x90C, 16, 0x100, 1, 0, [⟨35, 25, .cfg, true, 150, [(150, 600)], false⟩, ⟨24, 15, .cfg, true, 10, [(1, 100)], false⟩, ⟨3, 0, .cfg, true, 0, [], false⟩]⟩,
  ⟨"PSC_LIMIT", 0x190C, 12, 0x100, 1, 0, [⟨35, 25, .cfg, true, 40, [(40, 150)], false⟩, ⟨24, 15, .cfg, true, 10, [(1, 100)], false⟩, ⟨3, 0, .cfg, true, 0, [], false⟩]⟩]

def regMap_psc1 : List RegDesc := [
  ⟨"PSC_LASTERR", 0x3C, 1, 0x0, 1, 0, [⟨35, 28, .ro, false, 0, [], false⟩, ⟨27, 24, .ro, false, 0, [], false⟩, ⟨23, 20, .ro, false, 0, [], false⟩, ⟨19, 4, .ro, false, 0, [], false⟩, ⟨1, 1, .w1c, false, 0, [], false⟩, ⟨0, 0, .w1c, false, 0, [], false⟩]⟩,
  ⟨"PSC_CMD", 0x100, 36, 0x100, 1, 0, [⟨23, 23, .run, true, 0, [], false⟩, ⟨2, 0, .run, true, 0, [(0, 4)], false⟩]⟩,
  ⟨"PSC_PWM", 0x104, 36, 0x100, 1, 0, [⟨34, 12, .run, false, 1000000, [], false⟩, ⟨11, 0, .run, false, 0, [], false⟩]⟩,
  ⟨"PSC_PHASE", 0x108, 36, 0x100, 1, 0, [⟨35, 35, .cfg, false, 0, [], false⟩, ⟨23, 12, .cfg, false, 0, [], false⟩, ⟨11, 0, .cfg, false, 0, [], false⟩]⟩,
  ⟨"PSC_LIMIT", 0x10C, 4, 0x100, 1, 0, [⟨35, 25, .cfg, true, 40, [(40, 150)], false⟩, ⟨24, 15, .cfg, true, 10, [(1, 100)], false⟩, ⟨3, 0, .cfg, true, 0, [], false⟩]⟩,
  ⟨"PSC_INRUSH", 0x110, 36, 0x100, 1, 0, [⟨35, 29, .cfg, false, 0, [(0, 100)], false⟩, ⟨28, 23, .cfg, false, 0, [], false⟩, ⟨22, 13, .cfg, false, 1, [(1, 200)], false⟩]⟩,
  ⟨"PSC_RETRY", 0x114, 36, 0x100, 1, 0, [⟨35, 30, .cfg, true, 0, [], false⟩, ⟨29, 16, .cfg, true, 100, [(1, 10000)], false⟩]⟩,
  ⟨"PSC_CLAMP", 0x118, 36, 0x100, 1, 0, [⟨35, 24, .cfg, true, 100, [(1, 4095)], false⟩, ⟨23, 12, .cfg, true, 100, [(1, 4095)], false⟩]⟩,
  ⟨"PSC_ARB", 0x11C, 36, 0x100, 1, 0, [⟨35, 24, .run, true, 0, [], false⟩, ⟨2, 0, .fol, true, 0, [], false⟩]⟩,
  ⟨"PSC_DIAG", 0x120, 36, 0x100, 1, 0, [⟨35, 26, .cfg, false, 0, [], false⟩, ⟨25, 18, .cfg, false, 10, [(1, 255)], false⟩, ⟨17, 16, .cfg, false, 0, [(0, 2)], false⟩, ⟨15, 8, .cfg, false, 100, [(10, 255)], false⟩]⟩,
  ⟨"PSC_STAT", 0x124, 36, 0x100, 1, 0, [⟨35, 32, .ro, false, 0, [], false⟩, ⟨31, 31, .ro, false, 0, [], false⟩, ⟨30, 30, .ro, false, 0, [], false⟩, ⟨29, 29, .ro, false, 0, [], false⟩, ⟨28, 28, .ro, false, 0, [], false⟩, ⟨27, 27, .ro, false, 0, [], false⟩, ⟨26, 26, .ro, false, 0, [], false⟩, ⟨25, 25, .w1c, false, 0, [], false⟩, ⟨24, 24, .ro, false, 0, [], false⟩]⟩,
  ⟨"PSC_FAULT", 0x128, 36, 0x100, 1, 0, [⟨35, 32, .ro, false, 0, [], false⟩, ⟨14, 14, .w1c, false, 0, [], false⟩, ⟨13, 13, .w1c, false, 0, [], false⟩, ⟨12, 12, .w1c, false, 0, [], false⟩, ⟨11, 11, .w1c, false, 0, [], false⟩, ⟨10, 10, .w1c, false, 0, [], false⟩, ⟨9, 9, .w1c, false, 0, [], false⟩, ⟨8, 8, .w1c, false, 0, [], false⟩, ⟨7, 7, .w1c, false, 0, [], false⟩, ⟨6, 6, .w1c, false, 0, [], false⟩, ⟨5, 5, .w1c, false, 0, [], false⟩, ⟨4, 4, .w1c, false, 0, [], false⟩, ⟨3, 3, .w1c, false, 0, [], false⟩, ⟨2, 2, .w1c, false, 0, [], false⟩, ⟨1, 1, .w1c, false, 0, [], false⟩]⟩,
  ⟨"PSC_MEAS", 0x12C, 36, 0x100, 1, 0, [⟨35, 24, .ro, false, 0, [], false⟩, ⟨23, 12, .ro, false, 0, [], false⟩, ⟨9, 0, .ro, false, 0, [], false⟩]⟩,
  ⟨"PSC_MEAS2", 0x130, 36, 0x100, 1, 0, [⟨35, 24, .ro, false, 0, [], false⟩, ⟨23, 12, .ro, false, 0, [], false⟩]⟩,
  ⟨"PSC_WIRE", 0x134, 36, 0x100, 1, 0, [⟨35, 26, .ro, false, 0, [], false⟩, ⟨25, 16, .ro, false, 0, [], false⟩]⟩,
  ⟨"PSC_PROT", 0x138, 36, 0x100, 1, 0, [⟨35, 24, .ro, false, 0, [], false⟩, ⟨23, 18, .ro, false, 0, [], false⟩, ⟨17, 12, .ro, false, 0, [], false⟩]⟩,
  ⟨"PSC_STRUCT", 0x140, 36, 0x100, 1, 0, [⟨35, 34, .fol, true, 0, [], false⟩, ⟨33, 33, .fol, true, 0, [], false⟩, ⟨32, 31, .fol, true, 0, [], false⟩, ⟨30, 27, .fol, true, 0, [], false⟩, ⟨26, 20, .fol, true, 0, [], false⟩, ⟨19, 19, .fol, true, 0, [], false⟩, ⟨18, 18, .fol, true, 0, [], false⟩, ⟨17, 15, .fol, true, 0, [], false⟩, ⟨14, 8, .fol, true, 0, [], false⟩]⟩,
  ⟨"PSC_SAFEV", 0x144, 36, 0x100, 1, 0, [⟨13, 12, .fol, true, 0, [], false⟩, ⟨11, 0, .fol, true, 0, [], false⟩]⟩,
  ⟨"PSC_DP", 0x148, 36, 0x100, 1, 0, [⟨35, 35, .ro, false, 0, [], false⟩, ⟨34, 34, .ro, false, 0, [], false⟩, ⟨33, 33, .ro, false, 0, [], false⟩]⟩,
  ⟨"PSC_PWMACT", 0x14C, 36, 0x100, 1, 0, [⟨34, 12, .ro, false, 1000000, [], false⟩, ⟨11, 0, .ro, false, 0, [], false⟩]⟩,
  ⟨"PSC_LIMIT", 0x50C, 16, 0x100, 1, 0, [⟨35, 25, .cfg, true, 200, [(200, 800)], false⟩, ⟨24, 15, .cfg, true, 10, [(1, 100)], false⟩, ⟨3, 0, .cfg, true, 0, [], false⟩]⟩,
  ⟨"PSC_LIMIT", 0x150C, 16, 0x100, 1, 0, [⟨35, 25, .cfg, true, 30, [(30, 100)], false⟩, ⟨24, 15, .cfg, true, 10, [(1, 100)], false⟩, ⟨3, 0, .cfg, true, 0, [], false⟩]⟩]

def regMap_mot : List RegDesc := [
  ⟨"MOT_LASTERR", 0x3C, 1, 0x0, 1, 0, [⟨35, 28, .ro, false, 0, [], false⟩, ⟨27, 24, .ro, false, 0, [], false⟩, ⟨23, 20, .ro, false, 0, [], false⟩, ⟨19, 4, .ro, false, 0, [], false⟩, ⟨1, 1, .w1c, false, 0, [], false⟩, ⟨0, 0, .w1c, false, 0, [], false⟩]⟩,
  ⟨"MOT_DEAD", 0x40, 1, 0x0, 2, 4, [⟨35, 32, .run, true, 4, [], false⟩, ⟨31, 28, .run, true, 4, [], false⟩, ⟨27, 24, .run, true, 4, [], false⟩, ⟨23, 20, .run, true, 4, [], false⟩, ⟨19, 16, .run, true, 4, [], false⟩, ⟨15, 12, .run, true, 4, [], false⟩, ⟨11, 8, .run, true, 4, [], false⟩, ⟨7, 4, .run, true, 4, [], false⟩]⟩,
  ⟨"MOT_CTRL", 0x100, 6, 0x100, 1, 0, [⟨35, 35, .run, false, 0, [], false⟩, ⟨34, 34, .run, false, 0, [], false⟩, ⟨33, 33, .run, false, 1, [], false⟩, ⟨32, 32, .run, false, 1, [], false⟩]⟩,
  ⟨"MOT_CMD", 0x104, 6, 0x100, 1, 0, [⟨35, 32, .run, false, 0, [(0, 9)], false⟩, ⟨31, 31, .run, false, 0, [], false⟩, ⟨30, 30, .run, false, 0, [], false⟩, ⟨29, 10, .run, false, 0, [], false⟩]⟩,
  ⟨"MOT_SPEED", 0x108, 6, 0x100, 1, 0, [⟨35, 22, .run, false, 0, [], false⟩, ⟨21, 14, .run, false, 20, [], false⟩]⟩,
  ⟨"MOT_DUTY", 0x10C, 6, 0x100, 1, 0, [⟨35, 24, .run, true, 0, [], false⟩, ⟨23, 12, .run, true, 4095, [], false⟩]⟩,
  ⟨"MOT_PWM", 0x110, 6, 0x100, 1, 0, [⟨35, 19, .cfg, false, 5000, [(4000, 50000)], false⟩, ⟨18, 11, .cfg, false, 20, [(1, 255)], false⟩]⟩,
  ⟨"MOT_LIMIT", 0x114, 6, 0x100, 1, 0, [⟨35, 25, .cfg, true, 100, [(10, 800)], false⟩, ⟨24, 17, .cfg, true, 20, [(1, 255)], false⟩, ⟨16, 1, .cfg, true, 1000, [(1, 65535)], false⟩]⟩,
  ⟨"MOT_PINCH", 0x118, 6, 0x100, 1, 0, [⟨35, 28, .cfg, true, 0, [], false⟩, ⟨27, 20, .cfg, true, 0, [], false⟩, ⟨19, 12, .cfg, true, 0, [], false⟩]⟩,
  ⟨"MOT_PZTH", 0x11C, 6, 0x100, 1, 0, [⟨35, 27, .cfg, true, 100, [(20, 400)], false⟩, ⟨26, 18, .cfg, true, 100, [(20, 400)], false⟩, ⟨17, 9, .cfg, true, 100, [(20, 400)], false⟩, ⟨8, 0, .cfg, true, 100, [(20, 400)], false⟩]⟩,
  ⟨"MOT_POS", 0x120, 6, 0x100, 1, 0, [⟨35, 16, .cfg, false, 0, [], false⟩, ⟨0, 0, .cfg, false, 0, [], false⟩]⟩,
  ⟨"MOT_TRAVEL", 0x124, 6, 0x100, 1, 0, [⟨35, 16, .cfg, false, 0, [], false⟩]⟩,
  ⟨"MOT_STAT", 0x128, 6, 0x100, 1, 0, [⟨35, 32, .ro, false, 0, [], false⟩, ⟨31, 31, .ro, false, 0, [], false⟩, ⟨30, 30, .w1c, false, 0, [], false⟩, ⟨29, 29, .w1c, false, 0, [], false⟩, ⟨28, 28, .ro, false, 0, [], false⟩, ⟨27, 27, .ro, false, 0, [], false⟩, ⟨26, 26, .w1c, false, 0, [], false⟩, ⟨25, 25, .ro, false, 0, [], false⟩, ⟨24, 24, .ro, false, 0, [], false⟩, ⟨23, 23, .w1c, false, 0, [], false⟩, ⟨22, 19, .ro, false, 0, [], false⟩]⟩,
  ⟨"MOT_MEAS", 0x12C, 6, 0x100, 1, 0, [⟨35, 22, .ro, false, 0, [], false⟩, ⟨21, 12, .ro, false, 0, [], false⟩, ⟨11, 4, .ro, false, 0, [], false⟩]⟩,
  ⟨"MOT_FREE", 0x130, 6, 0x100, 1, 0, [⟨35, 24, .ro, false, 0, [], false⟩, ⟨23, 10, .ro, false, 0, [], false⟩]⟩,
  ⟨"MOT_RIPPLE", 0x134, 6, 0x100, 1, 0, [⟨35, 22, .cfg, false, 500, [(1, 16383)], false⟩, ⟨21, 14, .cfg, false, 32, [(1, 255)], false⟩]⟩]

def regMap_stk : List RegDesc := [
  ⟨"STK_LASTERR", 0x3C, 1, 0x0, 1, 0, [⟨35, 28, .ro, false, 0, [], false⟩, ⟨27, 24, .ro, false, 0, [], false⟩, ⟨23, 20, .ro, false, 0, [], false⟩, ⟨19, 4, .ro, false, 0, [], false⟩, ⟨1, 1, .w1c, false, 0, [], false⟩, ⟨0, 0, .w1c, false, 0, [], false⟩]⟩,
  ⟨"STK_CTRL", 0x100, 16, 0x100, 1, 0, [⟨35, 35, .run, false, 0, [], false⟩, ⟨34, 34, .run, false, 0, [], false⟩, ⟨33, 33, .run, false, 1, [], false⟩]⟩,
  ⟨"STK_CFG", 0x104, 16, 0x100, 1, 0, [⟨35, 35, .cfg, false, 0, [], false⟩, ⟨34, 34, .cfg, false, 0, [], false⟩, ⟨33, 33, .cfg, false, 0, [], false⟩, ⟨32, 32, .cfg, false, 0, [], false⟩, ⟨31, 24, .cfg, false, 20, [(1, 255)], false⟩]⟩,
  ⟨"STK_CMD", 0x108, 16, 0x100, 1, 0, [⟨35, 32, .run, false, 0, [(0, 1)], false⟩]⟩,
  ⟨"STK_CUR", 0x10C, 16, 0x100, 1, 0, [⟨35, 24, .cfg, true, 100, [(10, 4000)], false⟩, ⟨23, 12, .cfg, true, 50, [], false⟩]⟩,
  ⟨"STK_TIME", 0x110, 16, 0x100, 1, 0, [⟨35, 20, .cfg, false, 10000, [(1, 65535)], false⟩, ⟨19, 4, .cfg, false, 1000, [], false⟩]⟩,
  ⟨"STK_HOLD", 0x114, 16, 0x100, 1, 0, [⟨35, 20, .cfg, false, 0, [], false⟩, ⟨19, 4, .cfg, false, 1000, [(1, 65535)], false⟩]⟩,
  ⟨"STK_WIN", 0x118, 16, 0x100, 1, 0, [⟨35, 20, .cfg, false, 1, [(1, 65535)], false⟩, ⟨19, 4, .cfg, false, 65535, [(1, 65535)], false⟩]⟩,
  ⟨"STK_DUTY", 0x11C, 16, 0x100, 1, 0, [⟨35, 26, .cfg, true, 10, [(1, 600)], false⟩, ⟨25, 19, .cfg, true, 100, [(1, 100)], false⟩]⟩,
  ⟨"STK_STAT", 0x120, 16, 0x100, 1, 0, [⟨35, 33, .ro, false, 0, [], false⟩, ⟨32, 32, .w1c, false, 0, [], false⟩, ⟨31, 31, .w1c, false, 0, [], false⟩, ⟨30, 30, .w1c, false, 0, [], false⟩, ⟨29, 29, .w1c, false, 0, [], false⟩, ⟨28, 28, .w1c, false, 0, [], false⟩, ⟨27, 27, .w1c, false, 0, [], false⟩, ⟨26, 26, .ro, false, 0, [], false⟩, ⟨25, 22, .ro, false, 0, [], false⟩]⟩,
  ⟨"STK_MEAS", 0x124, 16, 0x100, 1, 0, [⟨35, 20, .ro, false, 0, [], false⟩, ⟨19, 4, .ro, false, 0, [], false⟩]⟩,
  ⟨"STK_DACT", 0x128, 16, 0x100, 1, 0, [⟨35, 16, .ro, false, 0, [], false⟩, ⟨15, 8, .ro, false, 0, [], false⟩]⟩]

def regMap_lgt_0 : List RegDesc := [
  ⟨"LGT_CTRL", 0x0, 1, 0x0, 1, 0, [⟨35, 28, .run, true, 0, [], false⟩, ⟨27, 14, .run, false, 5000, [(50, 10000)], false⟩, ⟨13, 6, .run, false, 40, [(1, 255)], false⟩]⟩,
  ⟨"LGT_STAT", 0x4, 1, 0x0, 1, 0, [⟨35, 30, .ro, false, 0, [], false⟩]⟩,
  ⟨"LGT_GEN", 0x8, 1, 0x0, 1, 0, [⟨7, 0, .ro, false, 0, [], false⟩]⟩,
  ⟨"LGT_RECLAIM", 0xC, 1, 0x0, 1, 0, [⟨35, 28, .rw, false, 0, [], true⟩, ⟨26, 25, .rw, false, 0, [(0, 2)], true⟩, ⟨23, 0, .rw, false, 0, [], true⟩]⟩,
  ⟨"LGT_UNCL", 0x10, 1, 0x0, 3, 4, [⟨23, 0, .ro, false, 0, [], false⟩]⟩,
  ⟨"LGT_FLT", 0x20, 1, 0x0, 3, 4, [⟨23, 0, .ro, false, 0, [], false⟩]⟩,
  ⟨"LGT_PWRREP", 0x30, 1, 0x0, 1, 0, [⟨35, 24, .ro, false, 0, [], false⟩]⟩,
  ⟨"LGT_LASTERR", 0x3C, 1, 0x0, 1, 0, [⟨35, 28, .ro, false, 0, [], false⟩, ⟨27, 24, .ro, false, 0, [], false⟩, ⟨23, 20, .ro, false, 0, [], false⟩, ⟨19, 4, .ro, false, 0, [], false⟩, ⟨1, 1, .w1c, false, 0, [], false⟩, ⟨0, 0, .w1c, false, 0, [], false⟩]⟩,
  ⟨"LGT_STCMD", 0x100, 8, 0x100, 1, 0, [⟨2, 0, .run, true, 0, [(0, 2)], false⟩]⟩,
  ⟨"LGT_STSET", 0x104, 8, 0x100, 1, 0, [⟨35, 25, .run, true, 50, [(50, 1500)], false⟩]⟩,
  ⟨"LGT_STPWM", 0x108, 8, 0x100, 1, 0, [⟨35, 22, .run, false, 5000, [(50, 10000)], false⟩, ⟨11, 0, .run, false, 0, [], false⟩]⟩,
  ⟨"LGT_STFREQ", 0x10C, 8, 0x100, 1, 0, [⟨35, 27, .cfg, false, 0, [], false⟩, ⟨26, 18, .cfg, false, 0, [], false⟩, ⟨17, 10, .cfg, false, 10, [(4, 47)], false⟩]⟩,
  ⟨"LGT_STDIAG", 0x110, 8, 0x100, 1, 0, [⟨35, 34, .cfg, false, 0, [(0, 2)], false⟩, ⟨33, 26, .cfg, false, 16, [(1, 255)], false⟩, ⟨25, 16, .cfg, false, 100, [(10, 1000)], false⟩, ⟨15, 6, .cfg, false, 0, [], false⟩]⟩,
  ⟨"LGT_STARB", 0x114, 8, 0x100, 1, 0, [⟨35, 24, .run, true, 0, [], false⟩, ⟨2, 0, .cfg, true, 0, [], false⟩]⟩,
  ⟨"LGT_STSTAT", 0x118, 8, 0x100, 1, 0, [⟨35, 33, .ro, false, 0, [], false⟩, ⟨32, 32, .ro, false, 0, [], false⟩, ⟨31, 31, .ro, false, 0, [], false⟩, ⟨30, 30, .ro, false, 0, [], false⟩, ⟨29, 29, .ro, false, 0, [], false⟩, ⟨28, 28, .ro, false, 0, [], false⟩, ⟨27, 27, .ro, false, 0, [], false⟩, ⟨26, 26, .w1c, false, 0, [], false⟩]⟩,
  ⟨"LGT_STFAULT", 0x11C, 8, 0x100, 1, 0, [⟨5, 5, .w1c, false, 0, [], false⟩, ⟨4, 4, .w1c, false, 0, [], false⟩, ⟨3, 3, .w1c, false, 0, [], false⟩, ⟨2, 2, .w1c, false, 0, [], false⟩, ⟨1, 1, .w1c, false, 0, [], false⟩, ⟨0, 0, .w1c, false, 0, [], false⟩]⟩,
  ⟨"LGT_STMEAS", 0x120, 8, 0x100, 1, 0, [⟨35, 25, .ro, false, 0, [], false⟩, ⟨24, 13, .ro, false, 0, [], false⟩, ⟨12, 4, .ro, false, 0, [], false⟩]⟩,
  ⟨"LGT_STLOSS", 0x124, 8, 0x100, 1, 0, [⟨35, 24, .ro, false, 0, [], false⟩, ⟨9, 0, .ro, false, 0, [], false⟩]⟩,
  ⟨"LGT_STACT", 0x128, 8, 0x100, 1, 0, [⟨35, 22, .ro, false, 5000, [], false⟩, ⟨11, 0, .ro, false, 0, [], false⟩]⟩,
  ⟨"LGT_STSAFEV", 0x12C, 8, 0x100, 1, 0, [⟨13, 12, .fol, true, 0, [], false⟩, ⟨11, 0, .fol, true, 0, [], false⟩]⟩,
  ⟨"LGT_SKCMD", 0xA00, 48, 0x20, 1, 0, [⟨35, 34, .run, true, 0, [(0, 2)], false⟩, ⟨33, 26, .run, true, 0, [], false⟩]⟩,
  ⟨"LGT_SKCFG", 0xA04, 48, 0x20, 1, 0, [⟨35, 34, .cfg, false, 0, [(0, 2)], false⟩, ⟨33, 26, .cfg, false, 16, [(1, 255)], false⟩, ⟨25, 16, .cfg, false, 100, [(10, 1000)], false⟩, ⟨15, 4, .cfg, false, 0, [], false⟩]⟩,
  ⟨"LGT_SKPWM", 0xA08, 48, 0x20, 1, 0, [⟨35, 24, .run, false, 0, [], false⟩]⟩,
  ⟨"LGT_SKSTAT", 0xA0C, 48, 0x20, 1, 0, [⟨35, 33, .ro, false, 0, [], false⟩, ⟨32, 32, .ro, false, 0, [], false⟩, ⟨31, 31, .ro, false, 0, [], false⟩, ⟨30, 30, .ro, false, 0, [], false⟩, ⟨29, 29, .w1c, false, 0, [], false⟩, ⟨28, 28, .w1c, false, 0, [], false⟩, ⟨27, 27, .w1c, false, 0, [], false⟩, ⟨26, 26, .w1c, false, 0, [], false⟩, ⟨25, 25, .w1c, false, 0, [], false⟩]⟩]

def regMap_lgt_1 : List RegDesc := [
  ⟨"LGT_SKMEAS", 0xA10, 48, 0x20, 1, 0, [⟨35, 28, .ro, false, 0, [], false⟩, ⟨27, 16, .ro, false, 0, [], false⟩]⟩,
  ⟨"LGT_SKSAFEV", 0xA14, 48, 0x20, 1, 0, [⟨13, 12, .fol, true, 0, [], false⟩, ⟨11, 0, .fol, true, 0, [], false⟩]⟩,
  ⟨"LGT_MXCTRL", 0x1000, 1, 0x0, 1, 0, [⟨35, 35, .run, false, 0, [], false⟩, ⟨34, 34, .w1s, false, 0, [], false⟩, ⟨33, 23, .cfg, false, 500, [(50, 2000)], false⟩, ⟨22, 15, .cfg, false, 10, [(1, 255)], false⟩]⟩,
  ⟨"LGT_MXSTAT", 0x1004, 1, 0x0, 1, 0, [⟨35, 33, .ro, false, 0, [], false⟩, ⟨32, 25, .w1c, false, 0, [], false⟩, ⟨24, 17, .w1c, false, 0, [], false⟩]⟩,
  ⟨"LGT_MXOPEN", 0x1010, 1, 0x0, 4, 4, [⟨31, 16, .w1c, false, 0, [], false⟩, ⟨15, 0, .w1c, false, 0, [], false⟩]⟩,
  ⟨"LGT_MXCELL", 0x1100, 1, 0x0, 128, 4, [⟨11, 0, .run, false, 0, [], false⟩]⟩]

def regMap_lch : List RegDesc := [
  ⟨"LCH_CTRL", 0x0, 1, 0x0, 1, 0, [⟨35, 35, .run, false, 0, [], false⟩, ⟨34, 34, .run, true, 1, [], false⟩, ⟨33, 33, .w1s, false, 0, [], false⟩, ⟨32, 32, .w1s, false, 0, [], false⟩, ⟨31, 24, .cfg, false, 10, [], false⟩, ⟨23, 20, .cfg, false, 2, [(1, 15)], false⟩]⟩,
  ⟨"LCH_STAT", 0x4, 1, 0x0, 1, 0, [⟨35, 35, .ro, false, 0, [], false⟩, ⟨34, 34, .ro, false, 0, [], false⟩, ⟨33, 33, .ro, false, 0, [], false⟩, ⟨32, 32, .ro, false, 0, [], false⟩, ⟨31, 31, .ro, false, 1, [], false⟩, ⟨30, 30, .w1c, false, 0, [], false⟩, ⟨15, 0, .ro, false, 0, [], false⟩]⟩,
  ⟨"LCH_LEN", 0x8, 1, 0x0, 1, 0, [⟨35, 27, .fol, true, 0, [], false⟩, ⟨26, 12, .fol, true, 0, [], false⟩, ⟨11, 7, .fol, true, 0, [], false⟩]⟩,
  ⟨"LCH_SAFEV", 0xC, 1, 0x0, 1, 0, [⟨13, 12, .fol, true, 0, [], false⟩]⟩,
  ⟨"LCH_LASTERR", 0x3C, 1, 0x0, 1, 0, [⟨35, 28, .ro, false, 0, [], false⟩, ⟨27, 24, .ro, false, 0, [], false⟩, ⟨23, 20, .ro, false, 0, [], false⟩, ⟨19, 4, .ro, false, 0, [], false⟩, ⟨1, 1, .w1c, false, 0, [], false⟩, ⟨0, 0, .w1c, false, 0, [], false⟩]⟩,
  ⟨"LCH_BUFA", 0x1000, 1, 0x0, 512, 4, [⟨34, 27, .run, false, 0, [], false⟩, ⟨25, 18, .run, false, 0, [], false⟩, ⟨16, 9, .run, false, 0, [], false⟩, ⟨7, 0, .run, false, 0, [], false⟩]⟩,
  ⟨"LCH_BUFB", 0x2000, 1, 0x0, 512, 4, [⟨34, 27, .run, false, 0, [], false⟩, ⟨25, 18, .run, false, 0, [], false⟩, ⟨16, 9, .run, false, 0, [], false⟩, ⟨7, 0, .run, false, 0, [], false⟩]⟩]

def regMap_inp : List RegDesc := [
  ⟨"INP_CTRL", 0x0, 1, 0x0, 1, 0, [⟨35, 28, .run, false, 10, [(1, 100)], false⟩]⟩,
  ⟨"INP_STATE", 0x4, 1, 0x0, 2, 4, [⟨31, 0, .ro, false, 0, [], false⟩]⟩,
  ⟨"INP_EDGE", 0xC, 1, 0x0, 2, 4, [⟨31, 0, .w1c, false, 0, [], false⟩]⟩,
  ⟨"INP_CODE", 0x14, 1, 0x0, 4, 4, [⟨31, 0, .ro, false, 0, [], false⟩]⟩,
  ⟨"INP_PARK", 0x24, 1, 0x0, 1, 0, [⟨35, 29, .run, false, 10, [(1, 64)], false⟩, ⟨28, 24, .run, false, 2, [(1, 16)], false⟩, ⟨23, 21, .run, false, 2, [(1, 7)], false⟩]⟩,
  ⟨"INP_WAKESRC", 0x28, 1, 0x0, 2, 4, [⟨31, 0, .w1c, false, 0, [], false⟩]⟩,
  ⟨"INP_WAKECMP", 0x30, 1, 0x0, 1, 0, [⟨7, 0, .w1c, false, 0, [], false⟩]⟩,
  ⟨"INP_RAW", 0x34, 1, 0x0, 2, 4, [⟨31, 0, .ro, false, 0, [], false⟩]⟩,
  ⟨"INP_LASTERR", 0x3C, 1, 0x0, 1, 0, [⟨35, 28, .ro, false, 0, [], false⟩, ⟨27, 24, .ro, false, 0, [], false⟩, ⟨23, 20, .ro, false, 0, [], false⟩, ⟨19, 4, .ro, false, 0, [], false⟩, ⟨1, 1, .w1c, false, 0, [], false⟩, ⟨0, 0, .w1c, false, 0, [], false⟩]⟩,
  ⟨"INP_ICFG", 0x100, 1, 0x0, 64, 4, [⟨35, 35, .fol, true, 0, [], false⟩, ⟨34, 34, .fol, true, 0, [], false⟩, ⟨33, 31, .fol, true, 0, [], false⟩, ⟨30, 30, .fol, true, 0, [], false⟩, ⟨29, 29, .fol, true, 0, [], false⟩, ⟨28, 28, .fol, true, 0, [], false⟩, ⟨23, 23, .run, false, 0, [], false⟩, ⟨22, 15, .cfg, false, 3, [(1, 255)], false⟩, ⟨14, 14, .run, false, 0, [], false⟩, ⟨13, 13, .run, false, 0, [], false⟩, ⟨12, 12, .run, false, 0, [], false⟩, ⟨11, 10, .run, false, 0, [(0, 2)], false⟩]⟩,
  ⟨"INP_ADCTRL", 0x200, 1, 0x0, 1, 0, [⟨35, 35, .run, false, 0, [], false⟩, ⟨34, 34, .cfg, false, 0, [], false⟩, ⟨33, 29, .cfg, false, 1, [(1, 16)], false⟩, ⟨28, 13, .cfg, false, 100, [(1, 65535)], false⟩]⟩,
  ⟨"INP_ADSTAT", 0x204, 1, 0x0, 1, 0, [⟨35, 35, .ro, false, 0, [], false⟩, ⟨34, 34, .w1c, false, 0, [], false⟩, ⟨33, 33, .w1c, false, 0, [], false⟩, ⟨15, 0, .ro, false, 0, [], false⟩]⟩,
  ⟨"INP_ADSEQ", 0x208, 1, 0x0, 2, 4, [⟨31, 0, .cfg, false, 0, [], false⟩]⟩,
  ⟨"INP_ADRES", 0x240, 1, 0x0, 16, 4, [⟨35, 24, .ro, false, 0, [], false⟩, ⟨23, 23, .ro, false, 0, [], false⟩, ⟨22, 0, .ro, false, 0, [], false⟩]⟩,
  ⟨"INP_ACFG", 0x280, 1, 0x0, 8, 4, [⟨35, 35, .fol, true, 0, [], false⟩, ⟨34, 34, .fol, true, 0, [], false⟩, ⟨33, 32, .fol, true, 0, [], false⟩, ⟨31, 31, .run, false, 0, [], false⟩, ⟨30, 30, .run, false, 0, [], false⟩, ⟨29, 29, .run, false, 0, [], false⟩, ⟨28, 21, .run, false, 128, [], false⟩, ⟨20, 17, .run, false, 2, [], false⟩, ⟨16, 16, .ro, false, 0, [], false⟩]⟩,
  ⟨"INP_ACFG", 0x2A0, 1, 0x0, 8, 4, [⟨35, 35, .fol, true, 0, [], false⟩, ⟨34, 34, .fol, true, 0, [], false⟩, ⟨33, 32, .fol, true, 0, [], false⟩, ⟨31, 31, .run, false, 0, [], false⟩, ⟨30, 30, .run, false, 0, [], false⟩, ⟨29, 29, .run, false, 0, [], false⟩, ⟨28, 21, .run, false, 0, [(0, 0)], false⟩, ⟨20, 17, .run, false, 0, [(0, 0)], false⟩, ⟨16, 16, .ro, false, 0, [], false⟩]⟩]

def regMap_tmr : List RegDesc := [
  ⟨"TMR_GO", 0x0, 1, 0x0, 1, 0, [⟨31, 0, .rw, false, 0, [], true⟩]⟩,
  ⟨"TMR_GPRE", 0x4, 1, 0x0, 4, 4, [⟨35, 20, .run, false, 0, [], false⟩]⟩,
  ⟨"TMR_RUN", 0x14, 1, 0x0, 1, 0, [⟨31, 0, .ro, false, 0, [], false⟩]⟩,
  ⟨"TMR_LASTERR", 0x3C, 1, 0x0, 1, 0, [⟨35, 28, .ro, false, 0, [], false⟩, ⟨27, 24, .ro, false, 0, [], false⟩, ⟨23, 20, .ro, false, 0, [], false⟩, ⟨19, 4, .ro, false, 0, [], false⟩, ⟨1, 1, .w1c, false, 0, [], false⟩, ⟨0, 0, .w1c, false, 0, [], false⟩]⟩,
  ⟨"TMR_CTRL", 0x100, 32, 0x40, 1, 0, [⟨35, 35, .run, false, 0, [], false⟩, ⟨34, 33, .cfg, false, 0, [], false⟩, ⟨32, 31, .cfg, false, 0, [(0, 1)], false⟩, ⟨30, 30, .cfg, false, 0, [], false⟩, ⟨29, 28, .cfg, false, 0, [(0, 2)], false⟩, ⟨27, 27, .cfg, false, 0, [], false⟩, ⟨26, 26, .cfg, false, 0, [], false⟩, ⟨25, 24, .cfg, false, 0, [(0, 2)], false⟩, ⟨23, 23, .cfg, false, 0, [], false⟩, ⟨22, 22, .cfg, false, 0, [], false⟩, ⟨21, 21, .cfg, false, 0, [], false⟩, ⟨20, 20, .run, false, 0, [], false⟩, ⟨19, 19, .run, false, 0, [], false⟩, ⟨18, 18, .run, false, 0, [], false⟩, ⟨17, 17, .run, false, 0, [], false⟩]⟩,
  ⟨"TMR_PERIOD", 0x104, 32, 0x40, 1, 0, [⟨35, 0, .run, false, 0, [], false⟩]⟩,
  ⟨"TMR_CMP", 0x108, 32, 0x40, 1, 0, [⟨35, 0, .run, false, 0, [], false⟩]⟩,
  ⟨"TMR_COUNT", 0x10C, 32, 0x40, 1, 0, [⟨35, 0, .ro, false, 0, [], false⟩]⟩,
  ⟨"TMR_CMD", 0x110, 32, 0x40, 1, 0, [⟨35, 34, .run, false, 0, [(0, 2)], true⟩]⟩,
  ⟨"TMR_STAT", 0x114, 32, 0x40, 1, 0, [⟨35, 35, .ro, false, 0, [], false⟩, ⟨34, 34, .w1c, false, 0, [], false⟩, ⟨33, 33, .w1c, false, 0, [], false⟩, ⟨32, 32, .w1c, false, 0, [], false⟩, ⟨31, 31, .w1c, false, 0, [], false⟩, ⟨30, 30, .w1c, false, 0, [], false⟩, ⟨29, 29, .w1c, false, 0, [], false⟩, ⟨28, 26, .ro, false, 0, [], false⟩, ⟨25, 22, .ro, false, 0, [], false⟩, ⟨21, 21, .ro, false, 0, [], false⟩]⟩,
  ⟨"TMR_CAP", 0x118, 32, 0x40, 1, 0, [⟨35, 0, .ro, false, 0, [], false⟩]⟩,
  ⟨"TMR_SNAPLO", 0x11C, 32, 0x40, 1, 0, [⟨35, 0, .ro, false, 0, [], false⟩]⟩,
  ⟨"TMR_SNAPHI", 0x120, 32, 0x40, 1, 0, [⟨35, 0, .ro, false, 0, [], false⟩]⟩,
  ⟨"TMR_CAPHI", 0x124, 32, 0x40, 1, 0, [⟨35, 0, .ro, false, 0, [], false⟩]⟩]

def regMap_rule : List RegDesc := [
  ⟨"RULE_SWP", 0x0, 1, 0x0, 1, 0, [⟨35, 29, .rw, false, 0, [], true⟩]⟩,
  ⟨"RULE_PEND", 0x4, 1, 0x0, 4, 4, [⟨31, 0, .w1c, false, 0, [], false⟩]⟩,
  ⟨"RULE_IE", 0x14, 1, 0x0, 4, 4, [⟨31, 0, .rw, false, 0, [], false⟩]⟩,
  ⟨"RULE_MUTE", 0x24, 1, 0x0, 4, 4, [⟨31, 0, .rw, true, 0, [], false⟩]⟩,
  ⟨"RULE_LASTERR", 0x3C, 1, 0x0, 1, 0, [⟨35, 28, .ro, false, 0, [], false⟩, ⟨27, 24, .ro, false, 0, [], false⟩, ⟨23, 20, .ro, false, 0, [], false⟩, ⟨19, 4, .ro, false, 0, [], false⟩, ⟨1, 1, .w1c, false, 0, [], false⟩, ⟨0, 0, .w1c, false, 0, [], false⟩]⟩,
  ⟨"RULE_LINE", 0x100, 1, 0x0, 128, 4, [⟨35, 25, .fol, true, 0, [], false⟩, ⟨24, 23, .fol, true, 0, [], false⟩, ⟨22, 20, .fol, true, 0, [], false⟩, ⟨19, 19, .w1c, false, 0, [], false⟩, ⟨11, 0, .ro, false, 0, [], false⟩]⟩,
  ⟨"RULE_ROUTE", 0x400, 1, 0x0, 512, 4, [⟨35, 29, .fol, true, 0, [], false⟩, ⟨28, 18, .fol, true, 0, [], false⟩, ⟨17, 17, .fol, true, 0, [], false⟩]⟩]

def regMap_can : List RegDesc := [
  ⟨"CAN_CTRL", 0x0, 1, 0x0, 1, 0, [⟨35, 35, .run, false, 0, [], false⟩, ⟨34, 33, .cfg, false, 0, [], false⟩, ⟨32, 32, .cfg, false, 0, [], false⟩, ⟨31, 31, .cfg, false, 0, [], false⟩, ⟨30, 30, .cfg, false, 1, [], false⟩, ⟨29, 29, .cfg, false, 0, [], false⟩, ⟨28, 28, .w1s, false, 0, [], true⟩]⟩,
  ⟨"CAN_STAT", 0x4, 1, 0x0, 1, 0, [⟨35, 34, .ro, false, 0, [], false⟩, ⟨33, 33, .ro, false, 0, [], false⟩, ⟨32, 32, .ro, false, 0, [], false⟩, ⟨31, 31, .ro, false, 0, [], false⟩, ⟨30, 30, .w1c, false, 0, [], false⟩, ⟨29, 29, .ro, false, 0, [], false⟩, ⟨28, 28, .ro, false, 0, [], false⟩]⟩,
  ⟨"CAN_NBT", 0x8, 1, 0x0, 1, 0, [⟨35, 31, .cfg, false, 0, [], false⟩, ⟨30, 23, .cfg, false, 126, [(1, 255)], false⟩, ⟨22, 16, .cfg, false, 31, [], false⟩, ⟨15, 9, .cfg, false, 31, [], false⟩]⟩,
  ⟨"CAN_DBT", 0xC, 1, 0x0, 1, 0, [⟨35, 31, .cfg, false, 0, [], false⟩, ⟨30, 26, .cfg, false, 28, [], false⟩, ⟨25, 22, .cfg, false, 9, [], false⟩, ⟨21, 18, .cfg, false, 9, [], false⟩]⟩,
  ⟨"CAN_TDC", 0x10, 1, 0x0, 1, 0, [⟨35, 35, .cfg, false, 0, [], false⟩, ⟨34, 28, .cfg, false, 0, [], false⟩, ⟨27, 21, .ro, false, 0, [], false⟩]⟩,
  ⟨"CAN_ERRC", 0x14, 1, 0x0, 1, 0, [⟨35, 28, .ro, false, 0, [], false⟩, ⟨27, 20, .ro, false, 0, [], false⟩, ⟨19, 19, .ro, false, 0, [], false⟩]⟩,
  ⟨"CAN_ERRLOG", 0x18, 1, 0x0, 1, 0, [⟨35, 33, .ro, false, 0, [], false⟩, ⟨32, 30, .ro, false, 0, [], false⟩, ⟨29, 29, .w1c, false, 0, [], false⟩, ⟨15, 0, .ro, false, 0, [], false⟩]⟩,
  ⟨"CAN_RXRING", 0x1C, 1, 0x0, 1, 0, [⟨35, 28, .ro, false, 0, [], false⟩, ⟨27, 20, .ro, false, 0, [], false⟩, ⟨19, 11, .ro, false, 0, [], false⟩]⟩,
  ⟨"CAN_RXREL", 0x20, 1, 0x0, 1, 0, [⟨35, 27, .run, false, 0, [(1, 256)], true⟩]⟩,
  ⟨"CAN_TXCAN", 0x24, 1, 0x0, 1, 0, [⟨35, 28, .run, false, 0, [], true⟩]⟩,
  ⟨"CAN_IE", 0x28, 1, 0x0, 1, 0, [⟨4, 4, .run, false, 0, [], false⟩, ⟨3, 3, .run, false, 0, [], false⟩, ⟨2, 2, .run, false, 0, [], false⟩, ⟨1, 1, .run, false, 0, [], false⟩, ⟨0, 0, .run, false, 0, [], false⟩]⟩,
  ⟨"CAN_IR", 0x2C, 1, 0x0, 1, 0, [⟨4, 4, .w1c, false, 0, [], false⟩, ⟨3, 3, .w1c, false, 0, [], false⟩, ⟨2, 2, .w1c, false, 0, [], false⟩, ⟨1, 1, .w1c, false, 0, [], false⟩, ⟨0, 0, .w1c, false, 0, [], false⟩]⟩,
  ⟨"CAN_SEAL", 0x30, 1, 0x0, 1, 0, [⟨35, 35, .run, true, 0, [], false⟩, ⟨34, 27, .run, true, 0, [], false⟩]⟩,
  ⟨"CAN_OBJS", 0x34, 1, 0x0, 1, 0, [⟨35, 27, .fol, true, 0, [], false⟩, ⟨26, 26, .fol, true, 0, [], false⟩, ⟨25, 25, .fol, true, 0, [], false⟩]⟩,
  ⟨"CAN_RXDROP", 0x38, 1, 0x0, 1, 0, [⟨35, 20, .ro, false, 0, [], false⟩, ⟨0, 0, .run, false, 0, [], true⟩]⟩,
  ⟨"CAN_LASTERR", 0x3C, 1, 0x0, 1, 0, [⟨35, 28, .ro, false, 0, [], false⟩, ⟨27, 24, .ro, false, 0, [], false⟩, ⟨23, 20, .ro, false, 0, [], false⟩, ⟨19, 4, .ro, false, 0, [], false⟩, ⟨1, 1, .w1c, false, 0, [], false⟩, ⟨0, 0, .w1c, false, 0, [], false⟩]⟩,
  ⟨"CAN_DIR", 0x40, 1, 0x0, 8, 4, [⟨31, 0, .cfg, false, 0, [], false⟩]⟩,
  ⟨"CAN_TXRQ", 0x60, 1, 0x0, 8, 4, [⟨31, 0, .w1s, false, 0, [], false⟩]⟩,
  ⟨"CAN_TXDONE", 0x80, 1, 0x0, 8, 4, [⟨31, 0, .w1c, false, 0, [], false⟩]⟩]

def regMap_lin : List RegDesc := [
  ⟨"LIN_CTRL", 0x0, 1, 0x0, 1, 0, [⟨35, 35, .run, false, 0, [], false⟩, ⟨34, 34, .run, false, 0, [], false⟩, ⟨33, 33, .w1s, false, 0, [], false⟩, ⟨32, 32, .w1s, false, 0, [], true⟩, ⟨31, 31, .run, false, 0, [], false⟩, ⟨30, 30, .run, false, 0, [], false⟩, ⟨29, 29, .run, false, 0, [], false⟩, ⟨28, 28, .run, false, 0, [], false⟩, ⟨27, 22, .run, false, 1, [(1, 32)], false⟩]⟩,
  ⟨"LIN_CFG", 0x4, 1, 0x0, 1, 0, [⟨35, 35, .cfg, false, 0, [], false⟩, ⟨34, 20, .cfg, false, 19200, [(1000, 20000)], false⟩, ⟨19, 15, .cfg, false, 13, [(13, 26)], false⟩]⟩,
  ⟨"LIN_STAT", 0x8, 1, 0x0, 1, 0, [⟨35, 34, .ro, false, 0, [], false⟩, ⟨33, 29, .ro, false, 0, [], false⟩, ⟨28, 28, .w1c, false, 0, [], false⟩, ⟨27, 27, .w1c, false, 0, [], false⟩, ⟨15, 0, .ro, false, 0, [], false⟩]⟩,
  ⟨"LIN_LASTERR", 0x3C, 1, 0x0, 1, 0, [⟨35, 28, .ro, false, 0, [], false⟩, ⟨27, 24, .ro, false, 0, [], false⟩, ⟨23, 20, .ro, false, 0, [], false⟩, ⟨19, 4, .ro, false, 0, [], false⟩, ⟨1, 1, .w1c, false, 0, [], false⟩, ⟨0, 0, .w1c, false, 0, [], false⟩]⟩,
  ⟨"LIN_SCHED", 0x80, 1, 0x0, 32, 4, [⟨35, 30, .run, false, 0, [], false⟩, ⟨29, 18, .run, false, 100, [(10, 4095)], false⟩]⟩,
  ⟨"LIN_FCFG", 0x100, 64, 0x10, 1, 0, [⟨35, 34, .run, false, 0, [(0, 2)], false⟩, ⟨33, 30, .run, false, 8, [(1, 8)], false⟩, ⟨29, 29, .run, false, 1, [], false⟩]⟩,
  ⟨"LIN_FSTAT", 0x104, 64, 0x10, 1, 0, [⟨35, 35, .w1c, false, 0, [], false⟩, ⟨34, 32, .ro, false, 0, [], false⟩, ⟨31, 24, .ro, false, 0, [], false⟩, ⟨23, 0, .ro, false, 0, [], false⟩]⟩,
  ⟨"LIN_FDATA", 0x108, 64, 0x10, 2, 4, [⟨35, 0, .run, false, 0, [], false⟩]⟩]

def regMap_ts : List RegDesc := [
  ⟨"TS_PHY", 0x2C, 1, 0x0, 1, 0, [⟨35, 28, .fol, true, 0, [], false⟩, ⟨27, 20, .fol, true, 0, [], false⟩, ⟨19, 12, .cfg, false, 32, [(1, 255)], false⟩, ⟨11, 4, .cfg, false, 0, [], false⟩, ⟨3, 3, .ro, false, 0, [], false⟩]⟩]

def regMap_tx : List RegDesc := [
  ⟨"TX_PHY", 0x2C, 1, 0x0, 1, 0, [⟨35, 35, .cfg, false, 0, [], false⟩, ⟨34, 34, .ro, false, 0, [], false⟩, ⟨33, 31, .ro, false, 0, [], false⟩, ⟨15, 0, .ro, false, 0, [], false⟩]⟩]

def regMap_ring : List RegDesc := [
  ⟨"RING_CTRL", 0x0, 1, 0x0, 1, 0, [⟨35, 35, .run, false, 0, [], false⟩, ⟨34, 29, .run, false, 0, [], false⟩, ⟨28, 28, .run, false, 0, [], false⟩, ⟨27, 27, .w1s, false, 0, [], false⟩]⟩,
  ⟨"RING_CFG", 0x4, 1, 0x0, 1, 0, [⟨35, 26, .cfg, false, 100, [(1, 1023)], false⟩, ⟨25, 23, .cfg, false, 3, [], false⟩, ⟨22, 18, .cfg, false, 0, [], false⟩, ⟨17, 13, .cfg, false, 31, [], false⟩, ⟨12, 3, .run, false, 0, [], false⟩]⟩,
  ⟨"RING_STAT", 0x8, 1, 0x0, 1, 0, [⟨35, 33, .ro, false, 0, [], false⟩, ⟨32, 32, .ro, false, 0, [], false⟩, ⟨31, 31, .w1c, false, 0, [], false⟩, ⟨30, 30, .w1c, false, 0, [], false⟩, ⟨29, 29, .w1c, false, 0, [], false⟩, ⟨28, 28, .ro, false, 0, [], false⟩, ⟨27, 23, .ro, false, 0, [], false⟩]⟩,
  ⟨"RING_NODE", 0xC, 1, 0x0, 1, 0, [⟨35, 26, .fol, true, 0, [], false⟩]⟩,
  ⟨"RING_UID", 0x10, 1, 0x0, 1, 0, [⟨35, 0, .ro, false, 0, [], false⟩]⟩,
  ⟨"RING_KEEP", 0x14, 1, 0x0, 1, 0, [⟨35, 26, .ro, false, 0, [], false⟩, ⟨25, 10, .ro, false, 0, [], false⟩, ⟨9, 0, .ro, false, 0, [], false⟩]⟩,
  ⟨"RING_TOFS", 0x18, 1, 0x0, 1, 0, [⟨35, 0, .ro, false, 0, [], false⟩]⟩,
  ⟨"RING_RTIME", 0x1C, 1, 0x0, 1, 0, [⟨35, 0, .ro, false, 0, [], false⟩]⟩,
  ⟨"RING_TXGO", 0x20, 1, 0x0, 1, 0, [⟨3, 0, .rw, false, 0, [], true⟩]⟩,
  ⟨"RING_RXRING", 0x24, 1, 0x0, 1, 0, [⟨35, 32, .ro, false, 0, [], false⟩, ⟨31, 28, .ro, false, 0, [], false⟩, ⟨27, 23, .ro, false, 0, [], false⟩]⟩,
  ⟨"RING_RXREL", 0x28, 1, 0x0, 1, 0, [⟨35, 31, .run, false, 0, [(1, 16)], true⟩]⟩,
  ⟨"RING_IR", 0x2C, 1, 0x0, 1, 0, [⟨5, 0, .w1c, false, 0, [], false⟩]⟩,
  ⟨"RING_CNT", 0x30, 1, 0x0, 1, 0, [⟨35, 24, .ro, false, 0, [], false⟩, ⟨23, 12, .ro, false, 0, [], false⟩, ⟨11, 0, .ro, false, 0, [], false⟩]⟩,
  ⟨"RING_BRK", 0x34, 1, 0x0, 1, 0, [⟨35, 26, .ro, false, 0, [], false⟩, ⟨25, 25, .w1c, false, 0, [], false⟩]⟩,
  ⟨"RING_CRYPT", 0x38, 1, 0x0, 1, 0, [⟨35, 35, .run, true, 0, [], false⟩, ⟨34, 30, .run, true, 0, [], false⟩]⟩,
  ⟨"RING_LASTERR", 0x3C, 1, 0x0, 1, 0, [⟨35, 28, .ro, false, 0, [], false⟩, ⟨27, 24, .ro, false, 0, [], false⟩, ⟨23, 20, .ro, false, 0, [], false⟩, ⟨19, 4, .ro, false, 0, [], false⟩, ⟨1, 1, .w1c, false, 0, [], false⟩, ⟨0, 0, .w1c, false, 0, [], false⟩]⟩,
  ⟨"RING_NONCE", 0x40, 1, 0x0, 1, 0, [⟨35, 0, .run, false, 0, [], false⟩]⟩,
  ⟨"RING_MAP", 0x100, 1, 0x0, 32, 4, [⟨31, 0, .ro, false, 0, [], false⟩]⟩,
  ⟨"RING_TXW", 0x400, 4, 0x200, 65, 4, [⟨35, 0, .run, false, 0, [], false⟩]⟩,
  ⟨"RING_TXS", 0x504, 4, 0x200, 1, 0, [⟨35, 33, .ro, false, 0, [], false⟩, ⟨32, 29, .ro, false, 0, [], false⟩, ⟨28, 26, .ro, false, 0, [], false⟩, ⟨25, 25, .w1c, false, 0, [], false⟩]⟩,
  ⟨"RING_RXW", 0x1000, 16, 0x200, 66, 4, [⟨35, 0, .ro, false, 0, [], false⟩]⟩,
  ⟨"RING_RXS", 0x1108, 16, 0x200, 1, 0, [⟨35, 32, .ro, false, 0, [], false⟩, ⟨31, 31, .ro, false, 0, [], false⟩]⟩]

def regMap_nmg : List RegDesc := [
  ⟨"NMG_WAKESRC", 0x0, 1, 0x0, 1, 0, [⟨35, 28, .w1c, false, 0, [], false⟩, ⟨27, 26, .w1c, false, 0, [], false⟩, ⟨25, 24, .w1c, false, 0, [], false⟩]⟩,
  ⟨"NMG_LOGCTL", 0x4, 1, 0x0, 1, 0, [⟨35, 35, .rw, false, 0, [], true⟩, ⟨15, 0, .ro, false, 0, [], false⟩]⟩,
  ⟨"NMG_LASTERR", 0x3C, 1, 0x0, 1, 0, [⟨35, 28, .ro, false, 0, [], false⟩, ⟨27, 24, .ro, false, 0, [], false⟩, ⟨23, 20, .ro, false, 0, [], false⟩, ⟨19, 4, .ro, false, 0, [], false⟩, ⟨1, 1, .w1c, false, 0, [], false⟩, ⟨0, 0, .w1c, false, 0, [], false⟩]⟩,
  ⟨"NMG_CTRL", 0x100, 12, 0x40, 1, 0, [⟨35, 35, .run, false, 0, [], false⟩, ⟨34, 34, .run, false, 0, [], false⟩, ⟨33, 33, .cfg, false, 0, [], false⟩, ⟨32, 32, .cfg, false, 0, [], false⟩, ⟨31, 31, .cfg, false, 0, [], false⟩, ⟨30, 25, .run, false, 0, [], false⟩]⟩,
  ⟨"NMG_TIME", 0x104, 12, 0x40, 1, 0, [⟨35, 26, .cfg, false, 100, [(10, 1023)], false⟩, ⟨25, 16, .cfg, false, 200, [(10, 1023)], false⟩, ⟨15, 8, .cfg, false, 5, [(1, 255)], false⟩, ⟨7, 0, .cfg, false, 20, [(1, 255)], false⟩]⟩,
  ⟨"NMG_ID", 0x108, 12, 0x40, 1, 0, [⟨35, 28, .fol, true, 0, [], false⟩, ⟨27, 25, .cfg, false, 5, [], false⟩, ⟨24, 17, .cfg, false, 10, [(1, 255)], false⟩, ⟨16, 9, .cfg, false, 8, [(1, 255)], false⟩]⟩,
  ⟨"NMG_STAT", 0x10C, 12, 0x40, 1, 0, [⟨35, 33, .ro, false, 0, [], false⟩, ⟨32, 31, .ro, false, 0, [], false⟩, ⟨30, 30, .w1c, false, 0, [], false⟩, ⟨29, 29, .w1c, false, 0, [], false⟩, ⟨28, 28, .w1c, false, 0, [], false⟩, ⟨27, 27, .ro, false, 0, [], false⟩, ⟨26, 19, .ro, false, 0, [], false⟩]⟩,
  ⟨"NMG_FWAKE", 0x110, 12, 0x40, 1, 0, [⟨35, 32, .ro, false, 0, [], false⟩, ⟨31, 24, .ro, false, 0, [], false⟩, ⟨23, 23, .w1c, false, 0, [], false⟩, ⟨22, 22, .rw, false, 0, [], true⟩, ⟨21, 19, .ro, false, 0, [], false⟩]⟩,
  ⟨"NMG_CNT", 0x114, 12, 0x40, 1, 0, [⟨35, 18, .ro, false, 0, [], false⟩, ⟨17, 0, .ro, false, 0, [], false⟩]⟩,
  ⟨"NMG_IR", 0x118, 12, 0x40, 1, 0, [⟨5, 0, .w1c, false, 0, [], false⟩]⟩,
  ⟨"NMG_WUFID", 0x400, 2, 0x20, 1, 0, [⟨35, 35, .cfg, false, 0, [], false⟩, ⟨28, 0, .cfg, false, 0, [], false⟩]⟩,
  ⟨"NMG_WUFMSK", 0x404, 2, 0x20, 1, 0, [⟨28, 0, .cfg, false, 0, [], false⟩]⟩,
  ⟨"NMG_WUFCFG", 0x408, 2, 0x20, 1, 0, [⟨35, 34, .cfg, false, 2, [], false⟩, ⟨33, 30, .cfg, false, 0, [(0, 8)], false⟩, ⟨29, 29, .cfg, false, 0, [], false⟩]⟩,
  ⟨"NMG_WUFDM0", 0x40C, 2, 0x20, 1, 0, [⟨31, 0, .cfg, false, 0, [], false⟩]⟩,
  ⟨"NMG_WUFDM1", 0x410, 2, 0x20, 1, 0, [⟨31, 0, .cfg, false, 0, [], false⟩]⟩,
  ⟨"NMG_WUFSTAT", 0x414, 2, 0x20, 1, 0, [⟨35, 30, .ro, false, 0, [], false⟩]⟩,
  ⟨"NMG_LOGS", 0x800, 1, 0x0, 32, 8, [⟨35, 35, .ro, false, 0, [], false⟩, ⟨34, 31, .ro, false, 0, [], false⟩, ⟨30, 23, .ro, false, 0, [], false⟩, ⟨22, 7, .ro, false, 0, [], false⟩]⟩,
  ⟨"NMG_LOGT", 0x804, 1, 0x0, 32, 8, [⟨35, 0, .ro, false, 0, [], false⟩]⟩]

def regMap_icu : List RegDesc := [
  ⟨"ICU_SWI", 0x0, 1, 0x0, 1, 0, [⟨3, 0, .rw, false, 0, [], false⟩]⟩,
  ⟨"ICU_LASTERR", 0x3C, 1, 0x0, 1, 0, [⟨35, 28, .ro, false, 0, [], false⟩, ⟨27, 24, .ro, false, 0, [], false⟩, ⟨23, 20, .ro, false, 0, [], false⟩, ⟨19, 4, .ro, false, 0, [], false⟩, ⟨1, 1, .w1c, false, 0, [], false⟩, ⟨0, 0, .w1c, false, 0, [], false⟩]⟩,
  ⟨"ICU_CLAIM", 0x100, 5, 0x40, 1, 0, [⟨8, 0, .ro, false, 511, [], false⟩]⟩,
  ⟨"ICU_EOI", 0x104, 5, 0x40, 1, 0, [⟨8, 0, .rw, false, 0, [], true⟩]⟩,
  ⟨"ICU_THR", 0x108, 5, 0x40, 1, 0, [⟨3, 0, .rw, false, 0, [], false⟩]⟩,
  ⟨"ICU_RPRI", 0x10C, 5, 0x40, 1, 0, [⟨7, 4, .ro, false, 0, [], false⟩, ⟨3, 0, .ro, false, 0, [], false⟩]⟩,
  ⟨"ICU_SRC", 0x400, 1, 0x0, 384, 4, [⟨35, 35, .rw, false, 0, [], false⟩, ⟨34, 31, .rw, false, 0, [], false⟩, ⟨30, 28, .rw, false, 0, [(0, 4)], false⟩, ⟨27, 27, .ro, false, 0, [], false⟩, ⟨26, 26, .ro, false, 0, [], false⟩]⟩]

def regMap_pwr : List RegDesc := [
  ⟨"PWR_MODE", 0x0, 1, 0x0, 1, 0, [⟨35, 33, .rw, true, 1, [(0, 5)], false⟩, ⟨32, 32, .rw, false, 0, [], false⟩]⟩,
  ⟨"PWR_STAT", 0x4, 1, 0x0, 1, 0, [⟨35, 33, .ro, false, 0, [], false⟩, ⟨32, 32, .ro, false, 0, [], false⟩, ⟨31, 29, .ro, false, 1, [], false⟩, ⟨28, 28, .w1c, false, 0, [], false⟩]⟩,
  ⟨"PWR_CAP", 0x8, 1, 0x0, 1, 0, [⟨35, 33, .ro, false, 5, [], false⟩, ⟨32, 30, .ro, false, 5, [], false⟩, ⟨29, 27, .ro, false, 5, [], false⟩, ⟨26, 24, .ro, false, 5, [], false⟩, ⟨23, 21, .ro, false, 5, [], false⟩, ⟨20, 18, .ro, false, 5, [], false⟩, ⟨17, 15, .ro, false, 5, [], false⟩]⟩,
  ⟨"PWR_TOL", 0xC, 1, 0x0, 1, 0, [⟨35, 32, .ro, false, 0, [], false⟩, ⟨31, 0, .ro, false, 0, [], false⟩]⟩,
  ⟨"PWR_IR", 0x10, 1, 0x0, 1, 0, [⟨2, 2, .w1c, false, 0, [], false⟩, ⟨1, 1, .w1c, false, 0, [], false⟩, ⟨0, 0, .w1c, false, 0, [], false⟩]⟩,
  ⟨"PWR_IE", 0x14, 1, 0x0, 1, 0, [⟨2, 2, .rw, false, 0, [], false⟩, ⟨1, 1, .rw, false, 0, [], false⟩, ⟨0, 0, .rw, false, 0, [], false⟩]⟩,
  ⟨"PWR_LAT", 0x18, 1, 0x0, 1, 0, [⟨35, 33, .ro, false, 0, [], false⟩, ⟨23, 0, .ro, false, 0, [], false⟩]⟩,
  ⟨"PWR_WAKESEQ", 0x1C, 1, 0x0, 1, 0, [⟨34, 28, .ro, false, 0, [], false⟩, ⟨27, 21, .ro, false, 0, [], false⟩, ⟨20, 14, .ro, false, 0, [], false⟩, ⟨13, 7, .ro, false, 0, [], false⟩, ⟨6, 0, .ro, false, 0, [], false⟩]⟩,
  ⟨"PWR_LASTERR", 0x3C, 1, 0x0, 1, 0, [⟨35, 28, .ro, false, 0, [], false⟩, ⟨27, 24, .ro, false, 0, [], false⟩, ⟨23, 20, .ro, false, 0, [], false⟩, ⟨19, 4, .ro, false, 0, [], false⟩, ⟨1, 1, .w1c, false, 0, [], false⟩, ⟨0, 0, .w1c, false, 0, [], false⟩]⟩]

def regMap_aon : List RegDesc := [
  ⟨"AON_WAKEEN", 0x0, 1, 0x0, 1, 0, [⟨31, 31, .rw, false, 0, [], false⟩, ⟨30, 30, .rw, false, 0, [], false⟩, ⟨29, 29, .rw, false, 0, [], false⟩, ⟨28, 28, .rw, false, 0, [], false⟩, ⟨27, 27, .rw, false, 0, [], false⟩, ⟨26, 26, .rw, false, 0, [], false⟩, ⟨25, 25, .rw, false, 0, [], false⟩, ⟨24, 24, .rw, false, 0, [], false⟩, ⟨23, 23, .rw, false, 0, [], false⟩]⟩,
  ⟨"AON_WAKESRC", 0x4, 1, 0x0, 1, 0, [⟨31, 31, .w1c, false, 0, [], false⟩, ⟨30, 30, .w1c, false, 0, [], false⟩, ⟨29, 29, .w1c, false, 0, [], false⟩, ⟨28, 28, .w1c, false, 0, [], false⟩, ⟨27, 27, .w1c, false, 0, [], false⟩, ⟨26, 26, .w1c, false, 0, [], false⟩, ⟨25, 25, .w1c, false, 0, [], false⟩, ⟨24, 24, .w1c, false, 0, [], false⟩, ⟨23, 23, .w1c, false, 0, [], false⟩]⟩,
  ⟨"AON_RTCSEC", 0x8, 1, 0x0, 1, 0, [⟨31, 0, .rw, false, 0, [], false⟩]⟩,
  ⟨"AON_RTCSUB", 0xC, 1, 0x0, 1, 0, [⟨14, 0, .ro, false, 0, [], false⟩]⟩,
  ⟨"AON_ALARM", 0x10, 1, 0x0, 1, 0, [⟨31, 0, .rw, false, 0, [], false⟩]⟩,
  ⟨"AON_PADHOLD", 0x14, 1, 0x0, 1, 0, [⟨5, 0, .w1c, false, 0, [], false⟩]⟩,
  ⟨"AON_PARKDUR", 0x18, 1, 0x0, 1, 0, [⟨31, 0, .ro, false, 0, [], false⟩]⟩,
  ⟨"AON_WAKEFLT", 0x1C, 1, 0x0, 1, 0, [⟨15, 8, .ro, false, 0, [], false⟩, ⟨2, 0, .ro, false, 0, [], false⟩]⟩,
  ⟨"AON_LASTERR", 0x3C, 1, 0x0, 1, 0, [⟨35, 28, .ro, false, 0, [], false⟩, ⟨27, 24, .ro, false, 0, [], false⟩, ⟨23, 20, .ro, false, 0, [], false⟩, ⟨19, 4, .ro, false, 0, [], false⟩, ⟨1, 1, .w1c, false, 0, [], false⟩, ⟨0, 0, .w1c, false, 0, [], false⟩]⟩]

def regMap_safe_0 : List RegDesc := [
  ⟨"SAFE_STAT", 0x0, 1, 0x0, 1, 0, [⟨35, 35, .ro, false, 0, [], false⟩, ⟨34, 34, .ro, false, 0, [], false⟩, ⟨33, 33, .ro, false, 0, [], false⟩, ⟨32, 32, .ro, false, 0, [], false⟩, ⟨31, 31, .ro, false, 0, [], false⟩, ⟨30, 30, .ro, false, 0, [], false⟩, ⟨29, 29, .ro, false, 0, [], false⟩, ⟨28, 28, .w1c, false, 0, [], false⟩, ⟨27, 27, .w1c, false, 0, [], false⟩]⟩,
  ⟨"SAFE_FLT", 0x4, 1, 0x0, 1, 0, [⟨35, 35, .ro, false, 0, [], false⟩, ⟨34, 31, .ro, false, 0, [], false⟩, ⟨30, 24, .ro, false, 0, [], false⟩, ⟨23, 16, .ro, false, 0, [], false⟩]⟩,
  ⟨"SAFE_FSTAMP", 0x8, 1, 0x0, 1, 0, [⟨35, 0, .ro, false, 0, [], false⟩]⟩,
  ⟨"SAFE_FSET", 0xC, 1, 0x0, 1, 0, [⟨15, 1, .ro, false, 0, [], false⟩]⟩,
  ⟨"SAFE_CLR", 0x10, 1, 0x0, 1, 0, [⟨35, 28, .rw, false, 0, [(210, 210)], true⟩, ⟨0, 0, .rw, false, 0, [], true⟩]⟩,
  ⟨"SAFE_VOTE", 0x14, 1, 0x0, 1, 0, [⟨35, 20, .ro, false, 0, [], false⟩, ⟨19, 12, .ro, false, 0, [], false⟩, ⟨0, 0, .rw, false, 0, [], true⟩]⟩,
  ⟨"SAFE_ECC", 0x18, 1, 0x0, 1, 0, [⟨35, 24, .ro, false, 0, [], false⟩, ⟨23, 12, .ro, false, 0, [], false⟩]⟩,
  ⟨"SAFE_ECCADDR", 0x1C, 1, 0x0, 1, 0, [⟨31, 0, .ro, false, 0, [], false⟩]⟩,
  ⟨"SAFE_TEST", 0x20, 1, 0x0, 1, 0, [⟨35, 35, .ro, false, 0, [], false⟩, ⟨34, 34, .ro, false, 0, [], false⟩, ⟨33, 33, .ro, false, 0, [], false⟩, ⟨32, 32, .ro, false, 0, [], false⟩, ⟨31, 31, .ro, false, 0, [], false⟩]⟩,
  ⟨"SAFE_LASTERR", 0x3C, 1, 0x0, 1, 0, [⟨35, 28, .ro, false, 0, [], false⟩, ⟨27, 24, .ro, false, 0, [], false⟩, ⟨23, 20, .ro, false, 0, [], false⟩, ⟨19, 4, .ro, false, 0, [], false⟩, ⟨1, 1, .w1c, false, 0, [], false⟩, ⟨0, 0, .w1c, false, 0, [], false⟩]⟩,
  ⟨"SAFE_REACT1", 0x40, 1, 0x0, 1, 0, [⟨35, 35, .rw, true, 0, [], false⟩, ⟨34, 34, .rw, true, 1, [], false⟩, ⟨33, 32, .rw, true, 1, [(0, 2)], false⟩, ⟨31, 31, .rw, true, 0, [], false⟩]⟩,
  ⟨"SAFE_REACT2", 0x44, 1, 0x0, 1, 0, [⟨35, 35, .rw, true, 0, [], false⟩, ⟨34, 34, .rw, true, 1, [], false⟩, ⟨33, 32, .rw, true, 1, [(0, 2)], false⟩, ⟨31, 31, .rw, true, 0, [], false⟩]⟩,
  ⟨"SAFE_REACT3", 0x48, 1, 0x0, 1, 0, [⟨35, 35, .rw, true, 1, [], false⟩, ⟨34, 34, .rw, true, 0, [], false⟩, ⟨33, 32, .rw, true, 0, [(0, 2)], false⟩, ⟨31, 31, .rw, true, 0, [], false⟩]⟩,
  ⟨"SAFE_REACT4", 0x4C, 1, 0x0, 1, 0, [⟨35, 35, .rw, true, 0, [], false⟩, ⟨34, 34, .rw, true, 1, [], false⟩, ⟨33, 32, .rw, true, 1, [(0, 2)], false⟩, ⟨31, 31, .rw, true, 0, [], false⟩]⟩,
  ⟨"SAFE_REACT5", 0x50, 1, 0x0, 1, 0, [⟨35, 35, .rw, true, 1, [], false⟩, ⟨34, 34, .rw, true, 0, [], false⟩, ⟨33, 32, .rw, true, 0, [(0, 2)], false⟩, ⟨31, 31, .rw, true, 0, [], false⟩]⟩,
  ⟨"SAFE_REACT6", 0x54, 1, 0x0, 1, 0, [⟨35, 35, .rw, true, 1, [], false⟩, ⟨34, 34, .rw, true, 0, [], false⟩, ⟨33, 32, .rw, true, 0, [(0, 2)], false⟩, ⟨31, 31, .rw, true, 0, [], false⟩]⟩,
  ⟨"SAFE_REACT7", 0x58, 1, 0x0, 1, 0, [⟨35, 35, .rw, true, 1, [], false⟩, ⟨34, 34, .rw, true, 1, [], false⟩, ⟨33, 32, .rw, true, 0, [(0, 2)], false⟩, ⟨31, 31, .rw, true, 1, [], false⟩]⟩,
  ⟨"SAFE_REACT8", 0x5C, 1, 0x0, 1, 0, [⟨35, 35, .rw, true, 1, [], false⟩, ⟨34, 34, .rw, true, 0, [], false⟩, ⟨33, 32, .rw, true, 0, [(0, 2)], false⟩, ⟨31, 31, .rw, true, 0, [], false⟩]⟩,
  ⟨"SAFE_REACT9", 0x60, 1, 0x0, 1, 0, [⟨35, 35, .rw, true, 1, [], false⟩, ⟨34, 34, .rw, true, 0, [], false⟩, ⟨33, 32, .rw, true, 0, [(0, 2)], false⟩, ⟨31, 31, .rw, true, 0, [], false⟩]⟩,
  ⟨"SAFE_REACT10", 0x64, 1, 0x0, 1, 0, [⟨35, 35, .rw, true, 1, [], false⟩, ⟨34, 34, .rw, true, 1, [], false⟩, ⟨33, 32, .rw, true, 0, [(0, 2)], false⟩, ⟨31, 31, .rw, true, 1, [], false⟩]⟩,
  ⟨"SAFE_REACT11", 0x68, 1, 0x0, 1, 0, [⟨35, 35, .rw, true, 0, [], false⟩, ⟨34, 34, .rw, true, 0, [], false⟩, ⟨33, 32, .rw, true, 0, [(0, 2)], false⟩, ⟨31, 31, .rw, true, 0, [], false⟩]⟩,
  ⟨"SAFE_REACT12", 0x6C, 1, 0x0, 1, 0, [⟨35, 35, .rw, true, 1, [], false⟩, ⟨34, 34, .rw, true, 0, [], false⟩, ⟨33, 32, .rw, true, 0, [(0, 2)], false⟩, ⟨31, 31, .rw, true, 0, [], false⟩]⟩,
  ⟨"SAFE_REACT13", 0x70, 1, 0x0, 1, 0, [⟨35, 35, .rw, true, 1, [], false⟩, ⟨34, 34, .rw, true, 1, [], false⟩, ⟨33, 32, .rw, true, 0, [(0, 2)], false⟩, ⟨31, 31, .rw, true, 1, [], false⟩]⟩,
  ⟨"SAFE_REACT14", 0x74, 1, 0x0, 1, 0, [⟨35, 35, .rw, true, 1, [], false⟩, ⟨34, 34, .rw, true, 0, [], false⟩, ⟨33, 32, .rw, true, 0, [(0, 2)], false⟩, ⟨31, 31, .rw, true, 0, [], false⟩]⟩]

def regMap_safe_1 : List RegDesc := [
  ⟨"SAFE_REACT15", 0x78, 1, 0x0, 1, 0, [⟨35, 35, .rw, true, 0, [], false⟩, ⟨34, 34, .rw, true, 1, [], false⟩, ⟨33, 32, .rw, true, 0, [(0, 2)], false⟩, ⟨31, 31, .rw, true, 1, [], false⟩]⟩]

def regMap_eth : List RegDesc := [
  ⟨"ETH_CTRL", 0x0, 1, 0x0, 1, 0, [⟨35, 35, .run, false, 0, [], false⟩, ⟨34, 34, .cfg, false, 0, [], false⟩, ⟨33, 33, .cfg, false, 0, [], false⟩, ⟨32, 29, .run, false, 0, [], false⟩]⟩,
  ⟨"ETH_STAT", 0x4, 1, 0x0, 1, 0, [⟨35, 35, .ro, false, 0, [], false⟩, ⟨34, 27, .ro, false, 0, [], false⟩, ⟨26, 19, .ro, false, 0, [], false⟩, ⟨18, 18, .ro, false, 0, [], false⟩, ⟨17, 17, .w1c, false, 0, [], false⟩]⟩,
  ⟨"ETH_MACLO", 0x8, 1, 0x0, 1, 0, [⟨31, 0, .cfg, false, 0, [], false⟩]⟩,
  ⟨"ETH_MACHI", 0xC, 1, 0x0, 1, 0, [⟨15, 0, .cfg, false, 0, [], false⟩]⟩,
  ⟨"ETH_RXBASE", 0x10, 1, 0x0, 1, 0, [⟨31, 0, .cfg, false, 0, [], false⟩]⟩,
  ⟨"ETH_TXBASE", 0x14, 1, 0x0, 1, 0, [⟨31, 0, .cfg, false, 0, [], false⟩]⟩,
  ⟨"ETH_RINGN", 0x18, 1, 0x0, 1, 0, [⟨35, 27, .cfg, false, 1, [(1, 256)], false⟩, ⟨26, 18, .cfg, false, 1, [(1, 256)], false⟩]⟩,
  ⟨"ETH_TXKICK", 0x20, 1, 0x0, 1, 0, [⟨35, 35, .w1s, false, 0, [], true⟩]⟩,
  ⟨"ETH_IR", 0x24, 1, 0x0, 1, 0, [⟨35, 32, .w1c, false, 0, [], false⟩]⟩,
  ⟨"ETH_DROP", 0x28, 1, 0x0, 1, 0, [⟨35, 24, .ro, false, 0, [], false⟩, ⟨23, 12, .ro, false, 0, [], false⟩, ⟨11, 0, .ro, false, 0, [], false⟩]⟩,
  ⟨"ETH_LASTERR", 0x3C, 1, 0x0, 1, 0, [⟨35, 28, .ro, false, 0, [], false⟩, ⟨27, 24, .ro, false, 0, [], false⟩, ⟨23, 20, .ro, false, 0, [], false⟩, ⟨19, 4, .ro, false, 0, [], false⟩, ⟨1, 1, .w1c, false, 0, [], false⟩, ⟨0, 0, .w1c, false, 0, [], false⟩]⟩]

def regMap_vault : List RegDesc := [
  ⟨"VAULT_LC", 0x0, 1, 0x0, 1, 0, [⟨35, 33, .ro, false, 0, [], false⟩, ⟨32, 32, .ro, false, 0, [], false⟩, ⟨31, 31, .ro, false, 0, [], false⟩, ⟨30, 23, .ro, false, 0, [], false⟩]⟩,
  ⟨"VAULT_LCCMD", 0x4, 1, 0x0, 1, 0, [⟨35, 28, .rw, false, 0, [(150, 150)], true⟩, ⟨27, 20, .rw, false, 0, [], false⟩, ⟨3, 0, .rw, false, 0, [(1, 8)], true⟩]⟩,
  ⟨"VAULT_KCMD", 0x8, 1, 0x0, 1, 0, [⟨35, 32, .rw, false, 0, [(1, 3)], true⟩, ⟨31, 27, .rw, false, 0, [], false⟩, ⟨26, 19, .rw, false, 0, [], false⟩, ⟨18, 16, .rw, false, 0, [], false⟩, ⟨15, 10, .rw, false, 0, [], false⟩, ⟨9, 4, .rw, false, 0, [], false⟩, ⟨3, 3, .rw, false, 0, [], false⟩]⟩,
  ⟨"VAULT_KSTAT", 0xC, 1, 0x0, 1, 0, [⟨35, 35, .ro, false, 0, [], false⟩, ⟨34, 34, .w1c, false, 0, [], false⟩, ⟨33, 26, .ro, false, 0, [], false⟩]⟩,
  ⟨"VAULT_CHAL", 0x10, 1, 0x0, 4, 4, [⟨31, 0, .ro, false, 0, [], false⟩]⟩,
  ⟨"VAULT_TAMPER", 0x20, 1, 0x0, 1, 0, [⟨35, 32, .ro, false, 0, [], false⟩, ⟨5, 0, .ro, false, 0, [], false⟩]⟩,
  ⟨"VAULT_TTIME", 0x24, 1, 0x0, 1, 0, [⟨35, 32, .ro, false, 0, [], false⟩, ⟨31, 0, .ro, false, 0, [], false⟩]⟩,
  ⟨"VAULT_TMPCFG", 0x28, 1, 0x0, 1, 0, [⟨35, 32, .ro, false, 0, [], false⟩, ⟨31, 27, .rw, false, 0, [], false⟩]⟩,
  ⟨"VAULT_CALLTO", 0x2C, 1, 0x0, 1, 0, [⟨35, 28, .rw, false, 10, [(1, 100)], false⟩]⟩,
  ⟨"VAULT_LASTERR", 0x3C, 1, 0x0, 1, 0, [⟨35, 28, .ro, false, 0, [], false⟩, ⟨27, 24, .ro, false, 0, [], false⟩, ⟨23, 20, .ro, false, 0, [], false⟩, ⟨19, 4, .ro, false, 0, [], false⟩, ⟨1, 1, .w1c, false, 0, [], false⟩, ⟨0, 0, .w1c, false, 0, [], false⟩]⟩,
  ⟨"VAULT_RESP", 0x100, 1, 0x0, 32, 4, [⟨31, 0, .rw, false, 0, [], false⟩]⟩,
  ⟨"VAULT_OWNSTG", 0x200, 1, 0x0, 8, 4, [⟨31, 0, .rw, false, 0, [], false⟩]⟩,
  ⟨"VAULT_OWNER", 0x240, 1, 0x0, 8, 4, [⟨31, 0, .ro, false, 0, [], false⟩]⟩,
  ⟨"VAULT_SLOT", 0x400, 1, 0x0, 32, 4, [⟨35, 35, .ro, false, 0, [], false⟩, ⟨34, 27, .ro, false, 0, [], false⟩, ⟨26, 24, .ro, false, 0, [], false⟩, ⟨23, 21, .ro, false, 0, [], false⟩, ⟨20, 15, .ro, false, 0, [], false⟩, ⟨14, 9, .ro, false, 0, [], false⟩, ⟨8, 8, .ro, false, 0, [], false⟩]⟩,
  ⟨"VAULT_CSTAT", 0x800, 4, 0x20, 1, 0, [⟨35, 35, .ro, false, 0, [], false⟩, ⟨34, 33, .ro, false, 0, [], false⟩, ⟨32, 25, .ro, false, 0, [], false⟩, ⟨24, 24, .w1c, false, 0, [], false⟩, ⟨23, 23, .w1c, false, 0, [], false⟩, ⟨22, 22, .w1c, false, 0, [], false⟩]⟩,
  ⟨"VAULT_ARG", 0x804, 4, 0x20, 4, 4, [⟨35, 0, .ro, false, 0, [], false⟩]⟩,
  ⟨"VAULT_REPLY", 0x814, 4, 0x20, 1, 0, [⟨35, 0, .rw, false, 0, [], false⟩]⟩,
  ⟨"VAULT_RSTAT", 0x818, 4, 0x20, 1, 0, [⟨7, 0, .rw, false, 0, [], false⟩]⟩]

def regMap_crypt : List RegDesc := [
  ⟨"CRYPT_JOB", 0x0, 1, 0x0, 1, 0, [⟨35, 33, .cfg, false, 0, [(0, 1)], false⟩, ⟨32, 30, .cfg, false, 0, [], false⟩, ⟨29, 25, .cfg, false, 0, [], false⟩, ⟨24, 23, .cfg, false, 2, [(0, 2)], false⟩, ⟨22, 21, .cfg, false, 0, [], false⟩, ⟨20, 16, .cfg, false, 16, [(4, 16)], false⟩, ⟨15, 15, .w1s, false, 0, [], false⟩]⟩,
  ⟨"CRYPT_SRC", 0x4, 1, 0x0, 1, 0, [⟨31, 0, .cfg, false, 0, [], false⟩]⟩,
  ⟨"CRYPT_DST", 0x8, 1, 0x0, 1, 0, [⟨31, 0, .cfg, false, 0, [], false⟩]⟩,
  ⟨"CRYPT_LEN", 0xC, 1, 0x0, 1, 0, [⟨35, 20, .cfg, false, 0, [], false⟩, ⟨19, 0, .cfg, false, 0, [], false⟩]⟩,
  ⟨"CRYPT_IV", 0x10, 1, 0x0, 3, 4, [⟨31, 0, .cfg, false, 0, [], false⟩]⟩,
  ⟨"CRYPT_TAG", 0x20, 1, 0x0, 4, 4, [⟨31, 0, .cfg, false, 0, [], false⟩]⟩,
  ⟨"CRYPT_STAT", 0x30, 1, 0x0, 1, 0, [⟨35, 35, .ro, false, 0, [], false⟩, ⟨34, 34, .w1c, false, 0, [], false⟩, ⟨33, 33, .w1c, false, 0, [], false⟩, ⟨32, 32, .w1c, false, 0, [], false⟩]⟩,
  ⟨"CRYPT_LASTERR", 0x3C, 1, 0x0, 1, 0, [⟨35, 28, .ro, false, 0, [], false⟩, ⟨27, 24, .ro, false, 0, [], false⟩, ⟨23, 20, .ro, false, 0, [], false⟩, ⟨19, 4, .ro, false, 0, [], false⟩, ⟨1, 1, .w1c, false, 0, [], false⟩, ⟨0, 0, .w1c, false, 0, [], false⟩]⟩]

def regMap_acc : List RegDesc := [
  ⟨"ACC_CTRL", 0x0, 1, 0x0, 1, 0, [⟨35, 35, .run, false, 0, [], false⟩, ⟨34, 30, .cfg, false, 0, [(0, 30)], false⟩, ⟨29, 25, .cfg, false, 0, [(0, 30)], false⟩, ⟨24, 18, .cfg, false, 127, [(0, 63), (127, 127)], false⟩, ⟨17, 10, .run, false, 0, [], false⟩]⟩,
  ⟨"ACC_STAT", 0x4, 1, 0x0, 1, 0, [⟨35, 34, .ro, false, 0, [], false⟩, ⟨33, 33, .ro, false, 0, [], false⟩, ⟨32, 32, .ro, false, 0, [], false⟩, ⟨31, 28, .ro, false, 0, [], false⟩]⟩,
  ⟨"ACC_SETID", 0x8, 1, 0x0, 1, 0, [⟨31, 0, .ro, false, 0, [], false⟩]⟩,
  ⟨"ACC_SESSION", 0xC, 1, 0x0, 1, 0, [⟨35, 34, .ro, false, 0, [], false⟩, ⟨33, 31, .ro, false, 0, [], false⟩, ⟨30, 27, .ro, false, 0, [], false⟩, ⟨26, 26, .ro, false, 0, [], false⟩, ⟨25, 25, .w1c, false, 0, [], false⟩, ⟨24, 24, .w1c, false, 0, [], false⟩, ⟨23, 10, .ro, false, 0, [], false⟩]⟩,
  ⟨"ACC_TIME", 0x10, 1, 0x0, 1, 0, [⟨35, 26, .fol, true, 0, [], false⟩, ⟨25, 16, .fol, true, 0, [], false⟩]⟩,
  ⟨"ACC_CH", 0x14, 1, 0x0, 2, 4, [⟨35, 32, .ro, false, 0, [], false⟩, ⟨31, 18, .ro, false, 0, [], false⟩, ⟨17, 17, .ro, false, 0, [], false⟩, ⟨16, 16, .ro, false, 0, [], false⟩, ⟨15, 8, .cfg, false, 4, [(1, 10)], false⟩]⟩,
  ⟨"ACC_LEARN", 0x1C, 1, 0x0, 1, 0, [⟨35, 32, .run, false, 0, [(1, 2)], true⟩]⟩,
  ⟨"ACC_LADDR", 0x20, 1, 0x0, 1, 0, [⟨31, 0, .run, false, 0, [], false⟩]⟩,
  ⟨"ACC_LSTAT", 0x24, 1, 0x0, 1, 0, [⟨35, 35, .ro, false, 0, [], false⟩, ⟨34, 34, .w1c, false, 0, [], false⟩, ⟨33, 26, .ro, false, 0, [], false⟩]⟩,
  ⟨"ACC_LOCK", 0x28, 1, 0x0, 1, 0, [⟨35, 20, .cfg, false, 0, [], false⟩, ⟨19, 4, .cfg, false, 0, [], false⟩]⟩,
  ⟨"ACC_GRANT", 0x2C, 1, 0x0, 1, 0, [⟨35, 26, .cfg, false, 100, [(10, 1000)], false⟩, ⟨25, 18, .cfg, false, 0, [], false⟩]⟩,
  ⟨"ACC_GCNT", 0x30, 1, 0x0, 1, 0, [⟨31, 0, .ro, false, 0, [], false⟩]⟩,
  ⟨"ACC_IR", 0x34, 1, 0x0, 1, 0, [⟨7, 0, .w1c, false, 0, [], false⟩]⟩,
  ⟨"ACC_FWCMD", 0x38, 1, 0x0, 1, 0, [⟨35, 35, .w1c, false, 0, [], false⟩, ⟨34, 31, .ro, false, 0, [], false⟩, ⟨30, 23, .ro, false, 0, [], false⟩]⟩,
  ⟨"ACC_LASTERR", 0x3C, 1, 0x0, 1, 0, [⟨35, 28, .ro, false, 0, [], false⟩, ⟨27, 24, .ro, false, 0, [], false⟩, ⟨23, 20, .ro, false, 0, [], false⟩, ⟨19, 4, .ro, false, 0, [], false⟩, ⟨1, 1, .w1c, false, 0, [], false⟩, ⟨0, 0, .w1c, false, 0, [], false⟩]⟩,
  ⟨"ACC_FIMP", 0x40, 1, 0x0, 8, 4, [⟨31, 0, .run, false, 0, [], true⟩]⟩,
  ⟨"ACC_SLOT", 0x100, 1, 0x0, 16, 4, [⟨35, 35, .ro, false, 0, [], false⟩, ⟨34, 34, .ro, false, 0, [], false⟩, ⟨33, 30, .ro, false, 0, [], false⟩, ⟨27, 0, .ro, false, 0, [], false⟩]⟩,
  ⟨"ACC_LOG", 0x200, 1, 0x0, 16, 8, [⟨35, 35, .ro, false, 0, [], false⟩, ⟨34, 34, .ro, false, 0, [], false⟩, ⟨33, 30, .ro, false, 0, [], false⟩, ⟨29, 22, .ro, false, 0, [], false⟩, ⟨21, 18, .ro, false, 0, [], false⟩, ⟨17, 17, .ro, false, 0, [], false⟩]⟩,
  ⟨"ACC_LOGW1", 0x204, 1, 0x0, 16, 8, [⟨35, 0, .ro, false, 0, [], false⟩]⟩]

def regMap_spic : List RegDesc := [
  ⟨"SPIC_LASTERR", 0x3C, 1, 0x0, 1, 0, [⟨35, 28, .ro, false, 0, [], false⟩, ⟨27, 24, .ro, false, 0, [], false⟩, ⟨23, 20, .ro, false, 0, [], false⟩, ⟨19, 4, .ro, false, 0, [], false⟩, ⟨1, 1, .w1c, false, 0, [], false⟩, ⟨0, 0, .w1c, false, 0, [], false⟩]⟩]

def regMap_dbg : List RegDesc := [
  ⟨"DBG_LASTERR", 0x3C, 1, 0x0, 1, 0, [⟨35, 28, .ro, false, 0, [], false⟩, ⟨27, 24, .ro, false, 0, [], false⟩, ⟨23, 20, .ro, false, 0, [], false⟩, ⟨19, 4, .ro, false, 0, [], false⟩, ⟨1, 1, .w1c, false, 0, [], false⟩, ⟨0, 0, .w1c, false, 0, [], false⟩]⟩]

def regMap_lgt : List RegDesc := regMap_lgt_0 ++ regMap_lgt_1

def regMap_safe : List RegDesc := regMap_safe_0 ++ regMap_safe_1

end Sys2Proof.Machine
end

