-- ==== Sys2Proof/Machine/State.lean ====
section
/-! DEFINITION. The state of the Aubuotte as plain data, its reset, and the reasons a step can stop.
Every architectural register of every block stands in `regs`, keyed by its nib address; a register not listed holds its
reset value (`RegMap`).  State that the spec gives the machine without a register of its own stands in the typed parts. -/

namespace Sys2Proof.Machine

/-- Why a step stops for good. -/
inductive Fault where
  /-- Raised by a device write that changes a reserved bit in life-cycle state FACTORY or RETURN (R100): the spec says
  that some of those bits are live test controls and gives none of them an effect.  Safe: the device goes on. -/
  | testControl
  deriving DecidableEq, Repr

/-- Why a command has no meaning here. -/
inductive Refusal where
  /-- Answered by an arm of `exec` whose command has no meaning yet.  Safe. -/
  | notModelled (mnemonic : String)
  deriving DecidableEq, Repr

/-- Sparse data by key: keys strictly rising, no entry equal to what an unlisted key reads as. -/
abbrev Cells (n : Nat) := List (Nat × BitVec n)

/-! ### Fabric, clocks and power -/

/-- The power states of R556; IDLE is RUN with a waiting core (R555). -/
inductive PState where
  | run | lift | rest | park | capped
  deriving DecidableEq, Repr

/-- A device write that has left its core and has not reached its block yet (R32, R35). -/
structure Posted where
  src  : Src
  addr : Nat
  data : Word
  /-- the requester was reset after it left: a rejection leaves its reject flag alone (R612) -/
  stray : Bool
  deriving DecidableEq, Repr

/-- A write waiting in the always-on island for the next 32.768 kHz edge (R39). -/
structure AonWrite where
  src  : Src
  blk  : Blk
  off  : Nat
  data : Word
  stray : Bool
  deriving DecidableEq, Repr

/-- Why a WARM reset is due (R44, R45): the cause bit it sets. -/
inductive WarmCause where
  | software | external | safe | watchdog | trial | tamper | bootFail
  deriving DecidableEq, Repr

/-! ### The folio -/

/-- The folio command that runs (R83, R89): verifying (with the requester that issued the refold), or past step 3 with the
affected functions, CAN controllers and islands (R84). -/
inductive FolioCmd where
  | verifyOnly
  | refold (other : Bool) (req : Nat)
  | rewritten (other : Bool) (req : Nat) (funcs cans : List Nat) (isls : List Island)
  deriving DecidableEq, Repr

/-- The loaded folio: its header words and its sections by TYPE (R55, R58); the running command, and the folio that a
refold past step 3 is about to load. -/
structure FolioSt where
  header : List Word
  sects  : List (Nat × List Word)
  cmd    : Option FolioCmd
  next   : Option (List Word × List (Nat × List Word))
  deriving DecidableEq, Repr

/-! ### Boot, editions and recovery -/

/-- One edition slot of the edition control record (R525). -/
structure SlotRec where
  state   : Nat
  dfmt    : Nat
  version : Word
  floor   : Nat
  deriving DecidableEq, Repr

/-- The edition control record (R525). -/
structure Ecr where
  seq      : Word
  act      : Bool
  trial    : Bool
  tboot    : Nat
  fsel     : Bool
  dhalf    : Bool
  recreq   : Bool
  s2short  : Bool
  isloff   : Nat
  trun     : Nat
  slotA    : SlotRec
  slotB    : SlotRec
  floor    : Nat
  fmt0     : Nat
  fmt1     : Nat
  arm      : Bool
  armslot  : Bool
  armtrial : Bool
  deriving DecidableEq, Repr

/-- The path of a start (R527). -/
inductive BootPath where
  | por | warm | capped | park | core
  deriving DecidableEq, Repr

/-- What the ROM is doing: nothing, running past hand-over, waiting in the request window (R548), in recovery mode for
a REASON (R550), in HALT for a REASON (R553), or hung in a step (R529). -/
inductive BootMode where
  | off | running | window | recovery (reason : Nat) | halt (reason : Nat) | hung (step : Nat)
  deriving DecidableEq, Repr

/-- The ROM's own state: path, mode, boot number, step marks (R527), whether this start fell back (R531), whether the
request window stands open and until when (R548), the step found hung at the last start, and the count at which the start
began. -/
structure BootSt where
  path     : BootPath
  mode     : BootMode
  number   : Nat
  marks    : Nat
  fellBack : Bool
  ext      : Bool
  recPin   : Bool
  winEnd   : Option Word
  attn     : Bool
  hungAt   : Option Nat
  input    : BootIn
  began    : Word
  deriving DecidableEq, Repr

/-- The update engine (R534–R539): the running command, the manifest, the ciphertext received so far (R523), the
buffer registers (which read 0), and whether the distribution key is sealed and loaded. -/
structure UpdSt where
  cmd      : Option Nat
  nw       : Nat
  manifest : List Word
  cipher   : List Word
  buf      : Cells 36
  dkSealed : Option (List Nat)
  dkReg    : Option (List Nat)
  trialTicks : Nat
  deriving DecidableEq, Repr

/-- Recovery mode (R547–R552): the challenge, the partial message (TYPE, next segment, octets) and when its next
segment is due; the install state of R552 (manifest, ciphertext so far); when the next HELLO is due; a RECOVER accepted;
the frames of the last message sent on CAN0, and those that wait for DBG; until when a DBG link counts as open (R605). -/
structure RecSt where
  chal    : List Nat
  partType : Nat
  partNext : Nat
  partBody : List Nat
  partDbg  : Bool
  partEnd : Option Word
  resume  : Option (List Word × List Word)
  gotManifest : Bool
  helloAt : Option Word
  accepted : Bool
  sent    : List (List Nat)
  dbgOut  : List (List Nat)
  dbgEnd  : Option Word
  deriving DecidableEq, Repr

/-! ### Power manager and always-on island -/

/-- The stages of the wake sequence (R566), in order. -/
inductive WakeStage where
  | regulator | oscillator | pll | memory | logic | boot
  deriving DecidableEq, Repr

/-- The power manager and the wake logic: the state in force; an entry in progress (the state chosen, when); the
tick of the commit; the wake stage awaited, whether the sequence is a repeat, and the retry due after a failure (R567);
whether any stage failed; the RTC alarm armed (R570); PLLs (R13); the
DEEPEST of PWRD in force since the last WAIT (R557); the levels that the multi-function lands were latched at (R568). -/
structure PwrSt where
  state     : PState
  entry     : Option (PState × Word)
  stage     : Option WakeStage
  from_     : PState
  retried   : Bool
  retryDue  : Bool
  wakeTick  : Word
  failedAny : Bool
  alarmArmed : Bool
  pll1      : Bool
  pll2      : Bool
  pll1Lost  : Bool
  bound     : Nat
  pads      : List (Option Bool)
  deriving DecidableEq, Repr

/-- A fault whose cause the fault manager still finds present (R580): class and index, and the count at which it was last
detected. -/
structure Cause where
  cls : Nat
  idx : Nat
  seen : Word
  deriving DecidableEq, Repr

/-- The fault manager's own state: causes present, reset reactions awaiting their 5 µs (R578), and the last completed
pass of each self-test (R576): voter, SRAM scrub, store scrub, current-sense cross-check; the memory words that hold an
uncorrectable error (R574, classes 5 and 6). -/
structure SafeSt where
  causes  : List Cause
  resetDue : List (Nat × Nat × Word)
  lastPass : List Word
  badWords : List Nat
  fsDue   : Bool
  deriving DecidableEq, Repr

/-! ### Output channels, feeds and the heartbeat -/

/-- A change of a channel's switches that waits for a dead time: when it is due, the switches to be, the dead time of the
commutation (R182), and whether PWM makes it. -/
structure Swap where
  due  : Word
  hs   : Bool
  ls   : Bool
  dead : Nat
  pwm  : Bool
  deriving DecidableEq, Repr

/-- A switch's regulation at ILIM (R152): regulating since when, the total before, conducting below ILIM without a break
since when. -/
structure Limit where
  since : Option Word
  acc   : Nat
  below : Option Word
  deriving DecidableEq, Repr

/-- What a function's channel holds beside its page (chapters 4 and 5). -/
structure Chan where
  /-- the MODE in force, where a stored one waits (R148), and the state a RETRY returns to (R122) -/
  mode     : Nat
  ret      : Nat
  /-- PSC_PHASE in force (R148) -/
  phase    : Word
  /-- the buffer of R127 and the commanded values in force -/
  bufPer   : Nat
  bufDuty  : Nat
  period   : Nat
  duty     : Nat
  /-- the arbiter's latest grant, in force from the next boundary (R173); none: no cycle has granted yet -/
  grant    : Option Nat
  /-- the period in progress: its mode, its next boundary, the pulses placed but not begun (edge, on-time), the latest
  turn-on edge (R130), the turn-off -/
  perMode  : Nat
  boundary : Option Word
  pulses   : List (Word × Nat)
  pwmAt    : Option Word
  offAt    : Option Word
  /-- the commanded switches, and a change waiting for a dead time (R180) -/
  hs       : Bool
  ls       : Bool
  swAt     : Option Swap
  /-- since when the read-back shows each switch off after it was on (R180) -/
  hsOff    : Option Word
  lsOff    : Option Word
  /-- the inrush window's last tick (R158), and whether it opens at the next turn-on edge -/
  winEnd   : Option Word
  winPend  : Bool
  /-- the member's regulation at ILIM: its high-side or only switch, its low-side switch (R152, R154) -/
  limHi    : Limit
  limLo    : Limit
  /-- the off-state test (R137): when the next begins, the phase in progress and its end -/
  testAt   : Option Word
  testPhase : Nat
  testEnd  : Option Word
  /-- the member's disagreement of R139 since when; when the SAFE entry of R140 was made -/
  misSince : Option Word
  misSafe  : Option Word
  /-- thermal latches of the two switches or members (R163) -/
  latch0   : Bool
  latch1   : Bool
  /-- the retry delay's end, a wire trip since RETRY was last left, the last trip (R165, R167) -/
  retryAt  : Option Word
  wireTrip : Bool
  quiet    : Word
  /-- the tick of the last trip, with RLEFT and INRLEFT before it (R167) -/
  tripped  : Option (Word × Nat × Nat)
  /-- the wire model in 1/1,024 °C (R156), started or not; the clamp bucket in 0.1 µJ (R161) -/
  tc       : Int
  ti       : Int
  wireOn   : Bool
  bucket   : Nat
  /-- held off under R176; entered PARKON at the PARK entry (R145); the larger sense reading is used (R577) -/
  held     : Bool
  parked   : Bool
  larger   : Bool
  /-- the member's read-back where it disagrees with the command (R139); the last commanded edge and the last turn-on
  edge; the entry to the present state, and whether a switch has been on since (R135) -/
  readback : Option (Bool × Bool)
  edgeAt   : Word
  onAt     : Word
  enteredAt : Word
  lit      : Bool
  /-- the on-state samples of R136 and R134: the last that counted; from when the next counts; their on-time since the
  last evaluation, in ticks; the on-time below OLON without a break; the member (true: odd) above 75 % of the sum, and for
  how much on-time -/
  counted  : Word
  sampFrom : Word
  sampAcc  : Nat
  olTime   : Nat
  imbOdd   : Bool
  imbTime  : Nat
  /-- the member's own latest on-state current in class LSB and its junction temperature (R133, R172); its losses in W over
  the last 100 evaluations, newest first; clamp energy since the last one, 0.1 µJ -/
  own      : Nat
  tj       : Int
  losses   : List Rat
  clampAcc : Nat
  deriving DecidableEq, Repr

/-- The heartbeat supervision and the hold (R141–R145): their deadlines while they run, and whether a hold or a power
state has paused the supervision; each feed's hold-off of R176 (undervoltage, overvoltage). -/
structure BeatSt where
  deadline : Option Word
  holdEnd  : Option Word
  paused   : Bool
  feedHold : List (Bool × Bool)
  /-- the short-term reserve in J, exactly (R170) -/
  reserve  : Rat
  feedOver : List Bool
  deriving DecidableEq, Repr

/-! ### Motion and stroke engines -/

/-- A motion engine's own state (chapter 6). -/
structure Mot where
  /-- the command in force (OP, AUTO, TARGET) and one stored until reclaim (R190) -/
  op       : Nat
  auto     : Bool
  target   : Int
  stored   : Option Word
  /-- soft start, brake and move (or wiper cycle) deadlines -/
  softEnd  : Option Word
  brakeEnd : Option Word
  moveEnd  : Option Word
  /-- the direction (true: OPEN) that the brake in progress is followed by (R192); the position that ends a pinch
  reversal (R206); a wiper cycle in progress, the tick of the last START pulse (R212) -/
  reverse  : Option Bool
  revTo    : Option Int
  cycle    : Bool
  startAt  : Option Word
  /-- the ripple count: running, last counted dip, last eight intervals in ticks, ripples in this move (R196–R198) -/
  counting : Bool
  lastDip  : Word
  gaps     : List Nat
  dips     : Nat
  /-- the stall condition of R200 holds since then -/
  stallAt  : Option Word
  /-- force evaluations at the threshold in a row; IFREE in A and WFREE in ripples/s, exactly (R204) -/
  hits     : Nat
  ifree    : Rat
  wfree    : Rat
  /-- POS, TRAVEL and LEARNED saved over PARK and CAPPED (R220) -/
  savedPos : Word
  savedTravel : Word
  deriving DecidableEq, Repr

/-- A stroke engine's own state (chapter 7). -/
structure Stk where
  /-- the end of the phase in progress, the BOOST entry, and whether that BOOST came from IDLE or WAIT (R228) -/
  phaseEnd : Option Word
  boostAt  : Word
  fresh    : Bool
  /-- the window of the latest BOOST has been judged (R230); a FIRE is stored until reclaim (R245); the WAIT entry -/
  judged : Bool
  stored   : Bool
  waitAt   : Word
  /-- the 64 segments' active time in ticks, present segment first, its start, and since when the engine is active -/
  segs     : List Nat
  segAt    : Word
  activeAt : Option Word
  /-- the regulating switch: off until then (R224); when it last turned on; a turn-off held back by the least on-time -/
  chopEnd  : Option Word
  regOn    : Word
  chopDue  : Option Word
  /-- the tick of the last RELEASE out of BOOST (R229); the tick of the last FIRE that entered BOOST from a phase other than
  BOOST and PEAK, with RESTART before it (R238) -/
  relAt    : Option Word
  firedAt  : Option (Word × Nat)
  deriving DecidableEq, Repr

/-! ### Lighting -/

/-- A string driver's own state (chapter 8). -/
structure StrDrv where
  /-- MODE and ISET in force, the buffer of R253 -/
  mode     : Nat
  iset     : Nat
  bufPer   : Nat
  bufDuty  : Nat
  duty     : Nat
  /-- the arbiter's grant; the next period boundary; the turn-off of the pulse in progress -/
  grant    : Option Nat
  boundary : Option Word
  offAt    : Option Word
  /-- commanded on; stopped by OPEN; latched by THERM (R255); the last edge of the command -/
  want     : Bool
  stopped  : Bool
  latch    : Bool
  edge     : Word
  /-- R264–R266: short periods counted for STRETCH, when it was last diagnosed, the last test's start, a test's end -/
  short    : Nat
  aged     : Word
  testAt   : Word
  testEnd  : Option Word
  /-- its losses in W over the last 100 arbiter cycles, newest first (R172); measurable on-time in ticks before the last
  turn-off, in this mode; when OPEN stopped it or it was last retested (R255) -/
  losses   : List Rat
  meas     : Nat
  retestAt : Word
  deriving DecidableEq, Repr

/-- A sink's own state (chapter 8). -/
structure Sink where
  mode     : Nat
  val      : Nat
  /-- the duty in force and the buffered one (R257) -/
  duty     : Nat
  bufDuty  : Nat
  /-- in SAFE (a matrix column keeps showing COLUMN, R263) -/
  safe     : Bool
  /-- the PWM generator runs; the pulse placed but not begun (edge, ticks); the turn-off; commanded on -/
  pwm      : Bool
  pulse    : Option (Word × Nat)
  offAt    : Option Word
  want     : Bool
  edge     : Word
  short    : Nat
  aged     : Word
  testAt   : Word
  testEnd  : Option Word
  deriving DecidableEq, Repr

/-- The matrix (R260–R263): the active cells, the next slot, the end of the row's on-time, the frames each row has
tripped in without a break, and the rows tripped in this frame. -/
structure Matrix where
  cells    : List Nat
  nextSlot : Option Word
  rowOff   : Option Word
  trips    : List Nat
  tripped  : List Nat
  deriving DecidableEq, Repr

/-- The chain port (R267–R271): the running frame's end, a start queued, the last start, BLANK in force, and the octets
of the last frame in the order sent. -/
structure Chain where
  frameEnd : Option Word
  queued   : Bool
  started  : Word
  blank    : Bool
  sent     : List Nat
  deriving DecidableEq, Repr

/-- The lighting island's own state: with them, the sinks' shared period in force and its next boundary (R257). -/
structure Light where
  strs     : List StrDrv
  sinks    : List Sink
  skPer    : Nat
  skNext   : Option Word
  matrix   : Matrix
  chain    : Chain
  deriving DecidableEq, Repr

/-! ### Ruling fabric and timers -/

/-- An event in flight on a ruling line (R311): its line, the tick it acts in, and whether its line was muted at its
stamp (R314). -/
structure Flight where
  line  : Nat
  tick  : Word
  muted : Bool
  deriving DecidableEq, Repr

/-- A timer channel's own state: its capture queue of (count, high half), whether a capture is awaited (R302), a capture
to take and a timeout to raise when the tick ends (R300, R302), the tick of the last capture, of the last ruled STOP, and
of the last write that started or stopped it with EN before that write (R303). -/
structure Tmr where
  queue  : List (Word × Word)
  armed  : Bool
  capDue : Bool
  toDue  : Bool
  capAt  : Option Word
  stopAt : Option Word
  wrote  : Option (Word × Bool)
  deriving DecidableEq, Repr

/-! ### Switch and analogue inputs -/

/-- One switch input's own state (chapter 9): latest and debounced sample (a level or a code), debounce count, whether the
next sample is taken directly (R282), rising and falling changes
since the edge bit was clear (R281); in park the reference, the last sample and the count (R284–R286). -/
structure Inp where
  raw    : Nat
  deb    : Nat
  cnt    : Nat
  first  : Bool
  rose   : Bool
  fell   : Bool
  ref    : Nat
  parkSmp : Option Nat
  parkAt : Word
  parkCnt : Nat
  deriving DecidableEq, Repr

/-- The INP block's own state: its inputs, the last scan, the comparators' park counts, the words the always-on island
copied (R284); in park the tick of the next sample and the group of eight whose pulse runs (R283); the converter: next
periodic scan, the entry in conversion and its end, a delayed scan, a ruled START in the tick a scan ends (R289, R290). -/
structure InpSt where
  ins     : List Inp
  scanAt  : Word
  cmpCnt  : List Nat
  saved   : List (Nat × Word)
  parkDue : Nat
  parkGroup : Nat
  adNext  : Option Word
  adPos   : Option Nat
  adEnd   : Option Word
  adLate  : Bool
  adAgain : Bool
  deriving DecidableEq, Repr

/-! ### The network island -/

/-- A CAN frame as it goes over the bus: its arbitration field and attributes as word 0 holds them, its DLC, its octets
(R8, R323). -/
structure CanFrame where
  w0   : Word
  dlc  : Nat
  data : List Nat
  deriving DecidableEq, Repr

/-- A CAN controller's own state (chapter 11): the frame count behind SEQ, both error counters, an EN = 0 awaiting the
end of the frame (R339), the transmit buffer (object, or 256 for a keep-alive of R387, and its words 0, 1, 3–18), the
start-of-frame tick of its last frame, the frame it sends, each object's status as the controller holds it (R324), and the
integration that follows a protocol exception (R321). -/
structure CanSt where
  count   : Nat
  txe     : Nat
  rxe     : Nat
  leaving : Bool
  txBuf   : Option (Nat × List Word)
  sof     : Word
  onBus   : Option CanFrame
  status  : Cells 36
  integ   : Bool
  deriving DecidableEq, Repr

/-- A LIN header being answered: its identifier, the count at its end and the bit rate followed (R341, R343). -/
structure LinHdr where
  id   : Nat
  fin  : Word
  rate : Nat
  deriving DecidableEq, Repr

/-- A LIN channel's own state (chapter 12): the slot's end, the next entry, NENT of this pass, the break's start and the
go-to-sleep header of the slot, the identifier of the header a commander sends, the header being answered, the octets of the
last response sent with their checksum (R344), the last bus activity, the ticks of the last wake-up signal's end and of the
last SLEEP entry of a commander, the resume of R346 and the end of a wake-up pulse. -/
structure LinSt where
  slotEnd : Option Word
  nextEnt : Nat
  nent    : Nat
  brk     : Word
  sleepHdr : Bool
  cur     : Option Nat
  hdr     : Option LinHdr
  sent    : List Nat
  lastAct : Word
  wakeAt  : Option Word
  sleepAt : Option Word
  resume  : Option Word
  pulseEnd : Option Word
  deriving DecidableEq, Repr

/-- An Ethernet port's own state (chapter 12): frames handled by each ring, a direction stopped by DERR (R351), an EN = 0
awaiting the end of the frame (R353), and the octets of the last frame sent, its FCS last (R349). -/
structure EthSt where
  seqRx  : Nat
  seqTx  : Nat
  rxStop : Bool
  txStop : Bool
  closing : Bool
  sent   : List Nat
  deriving DecidableEq, Repr

/-- The detectors of a transceiver (R392). -/
inductive Detector where
  | none | wup | wuf | energy
  deriving DecidableEq, Repr

/-- An NMG channel's own state (chapter 14): the transceiver's mode (R392), its last service and the detector last given,
whether it is armed ahead of the commit (R391); the idle timer's start; a keep-alive pending, its REPEAT bit and when the
last was made pending; the ends of the repeat, prepare and confirmation times; a wake from park: the tick in which the
network island reported ready (R395), and the cause the detector found while parked (R399). -/
structure NmgCh where
  xmode  : Nat
  served : Word
  det    : Detector
  armed  : Bool
  idleAt : Word
  kaPend : Bool
  kaRep  : Bool
  kaAt   : Word
  repEnd : Option Word
  commit : Option Word
  confEnd : Option Word
  parkRdy : Option Word
  found  : Option Nat
  deriving DecidableEq, Repr

/-! ### The ring -/

/-- A ring frame (R359). -/
structure RingFrame where
  h0    : Word
  h1    : Word
  pay   : List Word
  check : Word
  fin   : RingEnd
  deriving DecidableEq, Repr

/-- The frames that the ring hardware sends by itself. -/
inductive RingOwn where
  | claim | brk | time | census
  deriving DecidableEq, Repr

/-- The ring node's own state (chapter 13): the FSEQ counter, the FSEQ last accepted from each source, symbol lock and when
it was gained and lost, whether a wake tone arrives (R381); claiming, own CLAIMs returned in a row, a lower SRC seen, never
keeper (R368); whether the break is this node's to report (R373); next CLAIM, BREAK, TIME and CENSUS due; the last TIME frame seen (R368) and the keeper's own departure
awaiting its return (R371); the completed census map (R372); each slot's SOF tick and nonce (R366, R379); the end of the
frame on the line, its gap included, and of the wake tone; the last frame put on RING_OUT; the frames held in the insertion
buffer (R363); the node's own frames that wait for the line. -/
structure RingSt where
  fseq    : Nat
  seen    : List (Nat × Nat)
  lock    : Bool
  lockAt  : Word
  lossAt  : Word
  tone    : Bool
  claiming : Bool
  returns : Nat
  lower   : Bool
  dup     : Bool
  brk     : Bool
  nextClaim : Word
  nextBreak : Word
  nextTime  : Word
  nextCensus : Word
  timeAt  : Word
  timeOut : Option Word
  map     : List Word
  slots   : List (Word × Word)
  txEnd   : Option Word
  wakeEnd : Option Word
  out     : Option RingFrame
  held    : List RingFrame
  waiting : List RingOwn
  deriving DecidableEq, Repr

/-! ### Vault and access -/

/-- The vault's own state (chapter 15): the life-cycle state held in fuses, VOID in the always-on island (0 BLANK, 1
FACTORY, 2 FIELD, 4 RETURN, 5 VOID); whether the root exists and the activation cells are intact; the 32 slots' keys (64
octets, none in an empty slot); the challenge's end (R404); an owner signature in verification (OP, DUR, result, writer);
a load in progress (slot, node); the end of the current SERVICE minute; when each core's call began (R413); the tamper
erase in progress and when its WARM reset may follow (R421). -/
structure VaultSt where
  lc      : Nat
  root    : Bool
  cells   : Bool
  keys    : List (List Nat)
  chalEnd : Option Word
  verify  : Option (Nat × Nat × Bool × Src)
  load    : Option (Nat × Nat)
  svcMin  : Option Word
  callAt  : List Word
  erasing : Bool
  warmAt  : Word
  deriving DecidableEq, Repr

/-- A token set in a set bank (R432, R434): SETID, the immobiliser key G, and its sixteen entries of FLAGS, CMDMASK and
KEY. -/
structure TokSet where
  setid : Nat
  g     : List Nat
  ents  : List (Nat × Nat × List Nat)
  deriving DecidableEq, Repr

/-- A code read from a channel (R428): its channel, its 14 octets and the tick in which its read ended. -/
structure Code where
  ch     : Nat
  octets : List Nat
  stamp  : Word
  deriving DecidableEq, Repr

/-- The access unit's own state (chapter 16).  In the vault records: the fleet key F, the two set banks and the bank the
commit word names, the stored counters, the recorded grant counter.  Inside the unit: F, the set in force, each slot's
candidate (CTR, stamp), the evaluation frame's end and codes; each channel's kept code, back-off end, read in progress,
its start and the last read's end; the executed command awaiting its counter write; the session's timer and opening tick and
the stamp of the last door-open; the next
grant frame, withdrawn frames left, the next CNT; the LEARN in progress; ACC_FIMP's words; how often the vault records
have been written. -/
structure AccSt where
  fleet    : Option (List Nat)
  banks    : List (Option TokSet)
  commit   : Option Nat
  ctrs     : List Nat
  gRec     : Nat
  fkey     : Option (List Nat)
  set      : Option TokSet
  cands    : List (Option (Nat × Word))
  frameEnd : Option Word
  codes    : List Code
  held     : List (Option Code)
  boff     : List (Option Word)
  reading  : List Bool
  readAt   : List Word
  readEnd  : List Word
  exec     : Option (Nat × Nat)
  timer    : Option Word
  opened   : Word
  doorAt   : Option Word
  grantAt  : Option Word
  withdraw : Nat
  cnt      : Nat
  learn    : Option (TokSet × List Nat)
  fimp     : List Word
  recVer   : Nat
  deriving DecidableEq, Repr

/-! ### Cores and the interrupt controller -/

/-- The coprocessors of one core (R516–R520). -/
structure CpSt where
  /-- CP0: H0–H7, the message words so far, a compression or an AES run in progress (decrypt, 256-bit key), key, state -/
  h       : List Nat
  msg     : List Word
  shaBusy : Bool
  key     : List Word
  aes     : List Word
  aesBusy : Option (Bool × Bool)
  /-- CP1's coefficients; CP2's entries (VALUE, MASK, valid) and the latched map -/
  k       : List Nat
  pats    : List (Word × Word × Bool)
  map     : Nat
  deriving DecidableEq, Repr

/-- One core: Quill 0–3, or Signet (R450–R480, R505). -/
structure Core where
  regs    : List Word
  pc      : Word
  /-- FLG: N, Z, C, V in bits 3:0 -/
  flg     : BitVec 4
  world   : World
  ie      : Bool
  exl     : Bool
  epc     : Word
  ecause  : Word
  eaddr   : Word
  esave   : Word
  vbase   : Word
  ltr     : Word
  cycle   : Word
  scr0    : Word
  scr1    : Word
  opwb    : List Word
  opwl    : List Word
  /-- the granule reserved (R462); the data cache's copies of Vellum lines and the instruction cache's lines (R459, R460) -/
  resv    : Option Nat
  dcache  : List (Nat × List Word)
  icache  : List (Nat × List Word)
  /-- released (R542), waiting in WAIT (R478), stopped by a fault (R468, R578) -/
  running : Bool
  waiting : Bool
  stopped : Bool
  /-- waiting in SEAL; the waits that handlers interrupted, the last first, each with its outcome (w1, Z) once that has
  fallen (R477) -/
  sealing : Bool
  sealHeld : List (Option (Word × Bool))
  /-- the decode table written at S8 (R514); none: no table names the core, so it holds no CPX grant (R515) -/
  ux      : Option (List Word)
  cp      : CpSt
  deriving DecidableEq, Repr

/-- The interrupt controller: each target's stack, top first (R471), and the source presented to it. -/
structure IcuSt where
  levels    : List (List (Nat × Nat))
  presented : List (Option Nat)
  deriving DecidableEq, Repr

/-! ### The state -/

/-- The state of the device. -/
structure State where
  /-- the timebase count (R17), whether it counts, the count and RTC cycles the always-on island carries (R21) -/
  now      : Word
  tbRun    : Bool
  tbRec    : Word
  rtcN     : Nat
  /-- every device register that differs from its reset value, by nib address -/
  regs     : Cells 36
  /-- the copies of the always-on island's registers that the other islands read, by nib address (R109) -/
  copies   : Cells 36
  /-- every nib of memory that is not 0, by nib address -/
  mem      : Cells 9
  /-- device writes on their way (R32), writes waiting in the always-on island (R39), requesters with the sticky
  reject flag set (R36) -/
  posted   : List Posted
  aonPend  : List AonWrite
  rej      : List Nat
  /-- a WARM reset that is due -/
  warmDue  : Option WarmCause
  folio    : FolioSt
  ecr      : Ecr
  boot     : BootSt
  upd      : UpdSt
  /-- the row write that runs (R545): row address and words -/
  nvRow    : Option (Nat × List Word)
  rcv      : RecSt
  pwr      : PwrSt
  safe     : SafeSt
  /-- the channels by function index, the heartbeat, the motion and stroke engines -/
  chans    : List Chan
  beat     : BeatSt
  mots     : List Mot
  stks     : List Stk
  light    : Light
  /-- events in flight on the ruling lines; the timer channels; each prescaler's ticks to its next
  output (R295); the inputs -/
  flights  : List Flight
  tmrs     : List Tmr
  prescale : List Nat
  inp      : InpSt
  /-- CAN0–7, LIN0–11, the ports TS0–3 then TX0–1, the twelve NMG channels -/
  cans     : List CanSt
  lins     : List LinSt
  eths     : List EthSt
  nmgs     : List NmgCh
  ring     : RingSt
  vault    : VaultSt
  acc      : AccSt
  /-- Quill 0–3 and Signet; the interrupt controller -/
  cores    : List Core
  icu      : IcuSt
  /-- the status bits that the present tick set, by register: a write of the tick does not clear them (R108) -/
  edge     : List (Nat × Word)
  /-- the timeouts and boundaries served in the very tick they fall in: they act when that tick ends, after its events
  and writes (R11, R40) -/
  ending   : List Instr
  /-- the model's own counter behind its free values (log entry 3) -/
  fresh    : Nat
  /-- the commands that wait, first in, first out -/
  pending  : List Instr
  deriving DecidableEq, Repr

def SlotRec.reset : SlotRec := ⟨0, 0, 0, 0⟩

def Ecr.reset : Ecr :=
  ⟨0, false, false, 0, false, false, false, false, 0, 0, .reset, .reset, 0, 0xFFFF, 0xFFFF, false, false, false⟩

def BootSt.reset : BootSt := ⟨.por, .off, 0, 0, false, false, false, none, false, none, .good, 0⟩

def UpdSt.reset : UpdSt := ⟨none, 0, [], [], [], none, none, 0⟩

def RecSt.reset : RecSt := ⟨[], 0, 0, [], false, none, none, false, none, false, [], [], none⟩

def PwrSt.reset : PwrSt := ⟨.run, none, none, .run, false, false, 0, false, false, false, false, false, 0, []⟩

def SafeSt.reset : SafeSt := ⟨[], [], [0, 0, 0, 0], [], false⟩

def Limit.reset : Limit := ⟨none, 0, none⟩

def Chan.reset : Chan where
  mode := 0
  ret := 0
  phase := 0
  bufPer := 1000000
  bufDuty := 0
  period := 1000000
  duty := 0
  grant := none
  perMode := 0
  boundary := none
  pulses := []
  pwmAt := none
  offAt := none
  hs := false
  ls := false
  swAt := none
  hsOff := none
  lsOff := none
  winEnd := none
  winPend := false
  limHi := .reset
  limLo := .reset
  testAt := none
  testPhase := 0
  testEnd := none
  misSince := none
  misSafe := none
  latch0 := false
  latch1 := false
  retryAt := none
  wireTrip := false
  quiet := 0
  tripped := none
  tc := 0
  ti := 0
  wireOn := false
  bucket := 0
  held := false
  parked := false
  larger := false
  readback := none
  edgeAt := 0
  onAt := 0
  enteredAt := 0
  lit := false
  counted := 0
  sampFrom := 0
  sampAcc := 0
  olTime := 0
  imbOdd := false
  imbTime := 0
  own := 0
  tj := 0
  losses := []
  clampAcc := 0

/-- The arbiter's reserve at its largest: 160 J (R170). -/
def reserveMax : Rat := 160

def BeatSt.reset : BeatSt :=
  ⟨none, none, false, List.replicate 5 (false, false), reserveMax, [false, false, false, false, false]⟩

def Mot.reset : Mot :=
  ⟨0, false, 0, none, none, none, none, none, none, false, none, false, 0, [], 0, none, 0, 0, 0, 0, 0⟩

def Stk.reset : Stk := ⟨none, 0, false, false, false, 0, List.replicate 64 0, 0, none, none, 0, none, none, none⟩

def StrDrv.reset : StrDrv :=
  ⟨0, 50, 5000, 0, 0, none, none, none, false, false, false, 0, 0, 0, 0, none, [], 0, 0⟩

def Sink.reset : Sink := ⟨0, 0, 0, 0, false, false, none, none, false, 0, 0, 0, 0, none⟩

def Matrix.reset : Matrix := ⟨List.replicate 128 0, none, none, List.replicate 8 0, []⟩

def Chain.reset : Chain := ⟨none, false, 0, true, []⟩

def Light.reset : Light :=
  ⟨List.replicate 8 .reset, List.replicate 48 .reset, 5000, none, .reset, .reset⟩

def Tmr.reset : Tmr := ⟨[], false, false, false, none, none, none⟩

def Inp.reset : Inp := ⟨0, 0, 0, true, false, false, 0, none, 0, 0⟩

def InpSt.reset : InpSt := ⟨List.replicate 64 .reset, 0, List.replicate 8 0, [], 0, 0, none, none, none, false, false⟩

def CanSt.reset : CanSt := ⟨0, 0, 0, false, none, 0, none, [], false⟩

def LinSt.reset : LinSt := ⟨none, 0, 1, 0, false, none, none, [], 0, none, none, none, none⟩

def EthSt.reset : EthSt := ⟨0, 0, false, false, false, []⟩

/-- R401: after a power-on reset the transceivers are OFF. -/
def NmgCh.reset : NmgCh := ⟨3, 0, .none, false, 0, false, false, 0, none, none, none, none, none⟩

def RingSt.reset : RingSt :=
  ⟨0, [], false, 0, 0, false, false, 0, false, false, false, 0, 0, 0, 0, 0, none, List.replicate 32 0, List.replicate 4 (0, 0), none,
   none, none, [], []⟩

def VaultSt.reset : VaultSt :=
  ⟨0, false, false, List.replicate 32 [], none, none, none, none, List.replicate 4 0, false, 0⟩

def AccSt.reset : AccSt :=
  ⟨none, [none, none], none, List.replicate 16 0, 0, none, none, List.replicate 16 none, none, [], [none, none], [none, none],
   [false, false], [0, 0], [0, 0], none, none, 0, none, none, 0, 0, none, List.replicate 8 0, 0⟩

def CpSt.reset : CpSt :=
  ⟨List.replicate 8 0, [], false, List.replicate 8 0, List.replicate 4 0, none, List.replicate 8 0,
   List.replicate 64 (0, 0, false), 0⟩

/-- A core after a reset (R452, R481), before its release. -/
def Core.reset (w : World) : Core :=
  ⟨List.replicate 32 0, 0, 0, w, false, false, 0, 0, 0, 0, 0, 0, 0, 0, 0, List.replicate 4 0, List.replicate 4 0, none, [], [],
   false, false, false, false, [], none, .reset⟩

def IcuSt.reset : IcuSt := ⟨List.replicate 5 [], List.replicate 5 none⟩

/-- The machine in power-on reset, before boot step S0 (R9, R45): every register at its Reset column, memory cleared,
no folio loaded. -/
def State.reset : State where
  now := 0
  tbRun := true
  tbRec := 0
  rtcN := 0
  regs := []
  copies := []
  mem := []
  posted := []
  aonPend := []
  rej := []
  warmDue := none
  folio := ⟨[], [], none, none⟩
  ecr := .reset
  boot := .reset
  upd := .reset
  nvRow := none
  rcv := .reset
  pwr := .reset
  safe := .reset
  chans := List.replicate 72 .reset
  beat := .reset
  mots := List.replicate 6 .reset
  stks := List.replicate 16 .reset
  light := .reset
  flights := []
  tmrs := List.replicate 32 .reset
  prescale := [1, 1, 1, 1]
  inp := .reset
  cans := List.replicate 8 .reset
  lins := List.replicate 12 .reset
  eths := List.replicate 6 .reset
  nmgs := List.replicate 12 .reset
  ring := .reset
  vault := .reset
  acc := .reset
  cores := List.replicate 4 (.reset .trust) ++ [.reset .seal]
  icu := .reset
  edge := []
  ending := []
  fresh := 0
  pending := []

end Sys2Proof.Machine
end

