-- ==== Sys2Proof/Machine/Ops.lean ====
section
/-! DEFINITION. The named operations over cells, registers, memory, time and error records. -/

namespace Sys2Proof.Machine

/-! ### Sparse cells in canonical form -/

/-- What key `k` reads as, `d` being what an unlisted key reads as. -/
def Cells.read {n : Nat} (d : BitVec n) : Cells n → Nat → BitVec n
  | [], _ => d
  | (k', v) :: t, k => if k' = k then v else Cells.read d t k

/-- The entry for key `k` removed. -/
def Cells.erase {n : Nat} : Cells n → Nat → Cells n
  | [], _ => []
  | (k', v) :: t, k => if k' = k then t else if k < k' then (k', v) :: t else (k', v) :: Cells.erase t k

/-- The entry for key `k` set to `v`, keys kept rising. -/
def Cells.insert {n : Nat} : Cells n → Nat → BitVec n → Cells n
  | [], k, v => [(k, v)]
  | (k', v') :: t, k, v =>
    if k' = k then (k, v) :: t else if k < k' then (k, v) :: (k', v') :: t else (k', v') :: Cells.insert t k v

/-- A write of `v` at key `k` that keeps the canonical form: writing what an unlisted key reads as removes the entry. -/
def Cells.write {n : Nat} (d : BitVec n) (c : Cells n) (k : Nat) (v : BitVec n) : Cells n :=
  if v = d then Cells.erase c k else Cells.insert c k v

/-- The canonical form: keys strictly rising, no entry equal to what its key reads as when unlisted. -/
def Cells.wf {n : Nat} (d : Nat → BitVec n) : Cells n → Bool
  | [] => true
  | (k, v) :: t => v != d k && (match t with | [] => true | (k', _) :: _ => decide (k < k')) && Cells.wf d t

/-- Every key from `a` up to `b` (excluded) set back to what an unlisted key reads as. -/
def Cells.clear {n : Nat} (c : Cells n) (a b : Nat) : Cells n := c.filter (fun p => p.1 < a || b ≤ p.1)

/-! ### The register file -/

end Sys2Proof.Machine

namespace Sys2Proof

open Machine

/-- The base address of a block (R28). -/
def Blk.base : Blk → Nat
  | .sys => 0x40000000 | .pwr => 0x40010000 | .aon => 0x40020000 | .folio => 0x40030000
  | .safe => 0x40040000 | .icu => 0x40050000 | .rule => 0x40060000 | .tmr => 0x40070000
  | .psg => 0x40100000 | .psc0 => 0x40110000 | .psc1 => 0x40120000 | .stk => 0x40130000 | .mot => 0x40140000
  | .lgt => 0x40180000 | .lch => 0x40190000 | .inp => 0x401A0000
  | .can n => 0x40200000 + n.val * 0x10000 | .nmg => 0x40280000 | .lin n => 0x40300000 + n.val * 0x10000
  | .ts n => 0x40400000 + n.val * 0x10000 | .tx n => 0x40440000 + n.val * 0x10000 | .ring => 0x40480000
  | .spic n => 0x40500000 + n.val * 0x10000 | .dbg => 0x40580000
  | .vault => 0x40600000 | .acc => 0x40610000 | .crypt => 0x40620000

/-- Every block. -/
def Blk.all : List Blk :=
  [.sys, .pwr, .aon, .folio, .safe, .icu, .rule, .tmr, .psg, .psc0, .psc1, .stk, .mot, .lgt, .lch, .inp]
  ++ (List.finRange 8).map .can ++ [.nmg] ++ (List.finRange 12).map .lin ++ (List.finRange 4).map .ts
  ++ (List.finRange 2).map .tx ++ [.ring] ++ (List.finRange 2).map .spic ++ [.dbg, .vault, .acc, .crypt]

/-- The island of a block (R15). -/
def Blk.island : Blk → Island
  | .sys | .pwr | .folio | .safe | .icu => .fabric
  | .rule | .tmr | .inp => .tbase
  | .psg | .psc0 | .psc1 | .stk | .mot => .power
  | .lgt | .lch => .light
  | .can _ | .nmg | .lin _ | .ts _ | .tx _ | .spic _ | .dbg => .net
  | .ring => .ring
  | .vault | .acc | .crypt => .signet
  | .aon => .aon

/-- The bit of SYS_ISLRDY that shows an island. -/
def Island.bit : Island → Nat
  | .qa => 0 | .qb => 1 | .signet => 2 | .fabric => 3 | .tbase => 4 | .power => 5 | .light => 6 | .net => 7
  | .ring => 8 | .store => 9 | .aon => 10

/-- Every island, in the bit order of SYS_ISLRDY. -/
def Island.all : List Island := [.qa, .qb, .signet, .fabric, .tbase, .power, .light, .net, .ring, .store, .aon]

/-- The register table of a block. -/
def Blk.regMap : Blk → List RegDesc
  | .sys => regMap_sys | .pwr => regMap_pwr | .aon => regMap_aon | .folio => regMap_folio | .safe => regMap_safe
  | .icu => regMap_icu | .rule => regMap_rule | .tmr => regMap_tmr | .psg => regMap_psg | .psc0 => regMap_psc0
  | .psc1 => regMap_psc1 | .stk => regMap_stk | .mot => regMap_mot | .lgt => regMap_lgt | .lch => regMap_lch
  | .inp => regMap_inp | .can _ => regMap_can | .nmg => regMap_nmg | .lin _ => regMap_lin
  | .ts _ => regMap_eth ++ regMap_ts | .tx _ => regMap_eth ++ regMap_tx | .ring => regMap_ring
  | .spic _ => regMap_spic | .dbg => regMap_dbg | .vault => regMap_vault | .acc => regMap_acc | .crypt => regMap_crypt

/-- The offset of the last register of a block (R29); the reserved words of a channel page belong to it (R117). -/
def Blk.lastOff (b : Blk) : Nat :=
  if b = .psc0 ∨ b = .psc1 then 0x24FC else b.regMap.foldl (fun m d => max m (d.off + (d.pages - 1) * d.pageStride + (d.items - 1) * d.itemStride)) 0

/-- The LASTERR register of a block. -/
def Blk.lasterr (b : Blk) : Nat := b.base + 0x3C

end Sys2Proof

namespace Sys2Proof.Machine

/-- The block whose window holds a device address, if any (R28). -/
def blkAt (a : Nat) : Option Blk := Blk.all.find? (fun b => b.base ≤ a && a < b.base + 0x10000)

/-- The descriptor of the register at offset `o` of a block, if its table has one. -/
def regDesc (b : Blk) (o : Nat) : Option RegDesc := b.regMap.find? (fun d => d.covers o)

/-- R115: PSC_LIMIT.ILIM of function `f` after reset, its class's smallest (0.1 A). -/
def ilimReset (f : Nat) : Nat :=
  if f < 8 then 400 else if f < 24 then 150 else if f < 40 then 40 else if f < 56 then 200 else 30

/-- The function whose PSC_LIMIT stands at offset `o` of a channel block, if one does. -/
def limitFunc (b : Blk) (o : Nat) : Option Nat :=
  if o < 0x100 || o % 0x100 != 0xC then none
  else match b with
    | .psc0 => some (o / 0x100 - 1)
    | .psc1 => some (o / 0x100 + 35)
    | _ => none

/-- The reset value of the register at a nib address: its Reset column, 0 where no table names it. -/
def regReset (a : Nat) : Word :=
  match blkAt a with
  | none => 0
  | some b => match regDesc b (a - b.base) with
    | none => 0
    | some d => match limitFunc b (a - b.base) with
      | none => d.resetWord
      | some f => setBits d.resetWord 35 25 (ilimReset f)

/-- The register at nib address `a`; one value stands for the three copies of a voted field (R105; log entry 82). -/
def State.rd (s : State) (a : Nat) : Word := Cells.read (regReset a) s.regs a

/-- The register at nib address `a` set to `v`. -/
def State.wr (s : State) (a : Nat) (v : Word) : State := { s with regs := Cells.write (regReset a) s.regs a v }

/-- A field of a word as numbered by a register's table. -/
def Fld.of (f : Fld) (w : Word) : Nat := bitsOf w f.hi f.lo

/-- Field `f` of the page at `base`. -/
def State.get (s : State) (base : Nat) (f : Fld) : Nat := bitsOf (s.rd (base + f.off)) f.hi f.lo

/-- Field `f` of the page at `base` set to `x` by hardware; a W1C field so set is marked as set on the present clock edge
(R108). -/
def State.put (s : State) (base : Nat) (f : Fld) (x : Nat) : State :=
  { s with
    regs := Cells.write (regReset (base + f.off)) s.regs (base + f.off) (setBits (s.rd (base + f.off)) f.hi f.lo x)
    edge := if f.w1c && x != 0 then (base + f.off, maskOf f.hi f.lo) :: s.edge else s.edge }

/-- R108: bits `m` of the register at `a` were set on the present clock edge. -/
def State.mark (s : State) (a : Nat) (m : Word) : State := { s with edge := (a, m) :: s.edge }

/-- R108: the bits of the register at `a` that were set on the present clock edge. -/
def State.edgeAt (s : State) (a : Nat) : Word := (s.edge.filter (fun p => p.1 == a)).foldl (fun w p => w ||| p.2) 0

/-- Is a one-bit field 1? -/
def State.flag (s : State) (base : Nat) (f : Fld) : Bool := s.get base f != 0

/-- The registers from nib address `a` up to `b` (excluded) at their reset values. -/
def State.resetRange (s : State) (a b : Nat) : State := { s with regs := Cells.clear s.regs a b }

/-- Every register of a block at its reset value. -/
def State.resetBlk (s : State) (b : Blk) : State := s.resetRange b.base (b.base + 0x10000)

/-- `f` applied for each element of a list in order. -/
def State.each {α : Type} (s : State) (l : List α) (f : State → α → State) : State := l.foldl f s

/-- `f` applied when `c` holds. -/
def State.when (s : State) (c : Bool) (f : State → State) : State := if c then f s else s

/-! ### Islands -/

/-- R49: is an island ready? -/
def State.ready (s : State) (i : Island) : Bool := (s.rd 0x4000001C).getLsbD i.bit

/-- R49: an island's ready bit. -/
def State.setReady (s : State) (i : Island) (b : Bool) : State := s.wr 0x4000001C (putBit (s.rd 0x4000001C) i.bit b)

/-! ### Time (R17–R22) -/

/-- R20: the deadline `t` counts as reached at count `c`. -/
def reachedAt (c t : Word) : Bool := (c - t).toNat < 2 ^ 35

/-- Is the deadline reached now? -/
def State.reached (s : State) (t : Word) : Bool := reachedAt s.now t

/-- Can the stamp of an event stand for one that has passed (R18; log entry 98)? -/
def pastCount (s : State) (stamp : Word) : Bool := decide ((s.now + 2 - stamp).toNat < 2 ^ 35)

/-- R21: the count `n` RTC cycles after the recorded one. -/
def restoredCount (rec : Word) (n : Nat) : Word := rec + BitVec.ofNat 36 (n * 390625 / 128)

/-- The master count as it runs on through a stop of the timebase, by whole RTC cycles (R21). -/
def State.clock (s : State) : Word := if s.tbRun then s.now else restoredCount s.tbRec s.rtcN

/-- Is an optional deadline running and reached? -/
def State.due (s : State) (t : Option Word) : Bool := match t with | none => false | some d => s.reached d

/-- The count `n` ticks from now. -/
def State.after (s : State) (n : Nat) : Word := s.now + BitVec.ofNat 36 n

/-- Ticks in a microsecond, a millisecond and a second. -/
def us (n : Nat) : Nat := 100 * n
/-- Ticks in `n` milliseconds. -/
def ms (n : Nat) : Nat := 100000 * n
/-- Ticks in `n` seconds. -/
def sec (n : Nat) : Nat := 100000000 * n

/-! ### Memory: nibs, words and octets (R2–R8) -/

/-- One nib of memory; a nib that nothing has written reads 0 (log entry 5). -/
def State.nib (s : State) (a : Nat) : Nib := Cells.read 0 s.mem a

/-- One nib of memory written. -/
def State.putNib (s : State) (a : Nat) (v : Nib) : State := { s with mem := Cells.write 0 s.mem a v }

/-- R4: the word at a nib address, its lowest nib in bits 8:0. -/
def State.word (s : State) (a : Nat) : Word :=
  (s.nib (a + 3) ++ s.nib (a + 2) ++ s.nib (a + 1) ++ s.nib a)

/-- A word written to memory. -/
def State.putWord (s : State) (a : Nat) (w : Word) : State :=
  (((s.putNib a (w.extractLsb' 0 9)).putNib (a + 1) (w.extractLsb' 9 9)).putNib (a + 2) (w.extractLsb' 18 9)).putNib
    (a + 3) (w.extractLsb' 27 9)

/-- The half at a nib address (R4). -/
def State.half (s : State) (a : Nat) : Half := s.nib (a + 1) ++ s.nib a

/-- A half written to memory. -/
def State.putHalf (s : State) (a : Nat) (h : Half) : State :=
  (s.putNib a (h.extractLsb' 0 9)).putNib (a + 1) (h.extractLsb' 9 9)

/-- `n` words of memory from `a`. -/
def State.words (s : State) (a n : Nat) : List Word := (List.range n).map (fun i => s.word (a + 4 * i))

/-- Words written to memory from `a` upward. -/
def State.putWords (s : State) (a : Nat) (ws : List Word) : State :=
  (ws.zipIdx).foldl (fun s p => s.putWord (a + 4 * p.2) p.1) s

/-- R6: `n` octets stored one per nib from `a`, the mark bit dropped (R8). -/
def State.octets (s : State) (a n : Nat) : List Nat := (List.range n).map (fun i => (s.nib (a + i)).toNat % 256)

/-- R6, R7: octets stored one per nib with mark 1, padding nibs 0 up to `n` nibs. -/
def markedNibs (os : List Nat) (n : Nat) : List Nib :=
  (List.range n).map (fun i => match os[i]? with | some o => BitVec.ofNat 9 (256 + o % 256) | none => 0)

/-- Nibs written to memory from `a` upward. -/
def State.putNibs (s : State) (a : Nat) (ns : List Nib) : State :=
  (ns.zipIdx).foldl (fun s p => s.putNib (a + p.2) p.1) s

/-- Four nibs packed into a word, the first lowest (R4). -/
def nibsWord (ns : List Nib) : Word := (ns.getD 3 0 ++ ns.getD 2 0 ++ ns.getD 1 0 ++ ns.getD 0 0)

/-- The four octets of a word's nibs, lowest nib first, marks dropped. -/
def wordNibOctets (w : Word) : List Nat := (List.range 4).map (fun i => bitsOf w (9 * i + 7) (9 * i))

/-- Memory cleared from `a` up to `b` (excluded). -/
def State.clearMem (s : State) (a b : Nat) : State := { s with mem := Cells.clear s.mem a b }

/-! ### Free values -/

/-- The next free value of the run; the counter advances. -/
def State.free (s : State) : Word := Config.freeWord s.fresh
/-- The next open choice of the run. -/
def State.freeBit (s : State) : Bool := Config.freeBool s.fresh
/-- The counter behind the free values advanced. -/
def State.drawn (s : State) : State := { s with fresh := s.fresh + 1 }

/-! ### Error records -/

/-- R36: the sticky reject flag of a requester set. -/
def State.setRej (s : State) (r : Nat) : State := { s with rej := if s.rej.contains r then s.rej else r :: s.rej }
/-- R36: the flag cleared. -/
def State.clearRej (s : State) (r : Nat) : State := { s with rej := s.rej.filter (· != r) }

/-- R111: a rejection recorded in LASTERR: CODE, REQ and OFFSET overwritten, VALID set, INFO cleared, COUNT advanced. -/
def lasterrReject (old : Word) (code req off : Nat) : Word :=
  let cnt := if bitsOf old 0 0 = 0 then 0 else bitsOf old 23 20
  setBits (setBits (setBits (setBits (setBits 0 35 28 code) 27 24 req) 23 20 (satInc 15 cnt)) 19 4 off) 0 0 1

/-- R112: an information record, written only while VALID is 0; REQ 9, COUNT unchanged. -/
def lasterrInfo (old : Word) (code off : Nat) : Word :=
  if bitsOf old 0 0 = 1 then old
  else setBits (setBits (setBits (setBits (setBits 0 35 28 code) 27 24 9) 23 20 (bitsOf old 23 20)) 19 4 off) 1 1 1

/-- R113: a write to LASTERR clears VALID and INFO where it writes 1; with both clear the whole record reads 0. -/
def lasterrClear (old w : Word) : Word :=
  let v := old &&& ~~~ (w &&& 3)
  if bitsOf v 1 0 = 0 then 0 else v

/-- R36, R111: a write of requester `src` to offset `off` of block `b` rejected with `code`. -/
def State.reject (s : State) (b : Blk) (src : Src) (off code : Nat) : State :=
  (s.wr b.lasterr (lasterrReject (s.rd b.lasterr) code src.req off)).setRej src.req

/-- R48: a fabric error recorded unless one is held. -/
def State.fabErr (s : State) (code req addr : Nat) : State :=
  if s.flag Blk.sys.base SYS_FABERR_VALID then s
  else (s.wr 0x40000014 (setBits (setBits (setBits 0 23 16 code) 15 12 req) 0 0 1)).wr 0x40000018
    (BitVec.ofNat 36 (addr % 2 ^ 32))

/-- R29, R49: a device write ended by the fabric with `code`: the record of R48 and the reject flag of R36. -/
def State.fabReject (s : State) (src : Src) (code addr : Nat) : State := (s.fabErr code src.req addr).setRej src.req

/-! ### Saturating and marking fields -/

/-- A counter field advanced, saturating at its largest value. -/
def State.satField (s : State) (base : Nat) (f : Fld) : State :=
  s.put base f (satInc (2 ^ (f.hi + 1 - f.lo) - 1) (s.get base f))

/-- A counter field advanced modulo its width. -/
def State.incField (s : State) (base : Nat) (f : Fld) : State := s.put base f (s.get base f + 1)

/-- A signed field read. -/
def State.getInt (s : State) (base : Nat) (f : Fld) : Int := signed (f.hi + 1 - f.lo) (s.get base f)

/-- A signed field written; a number the field cannot hold leaves a free value (log entry 4). -/
def State.putInt (s : State) (base : Nat) (f : Fld) (x : Int) : State :=
  let w := f.hi + 1 - f.lo
  if -(2 : Int) ^ (w - 1) ≤ x ∧ x < (2 : Int) ^ (w - 1) then s.put base f (x % (2 : Int) ^ w).toNat
  else (s.put base f s.free.toNat).drawn

/-- A field written; a number the field cannot hold leaves a free value (log entry 4). -/
def State.putNat (s : State) (base : Nat) (f : Fld) (x : Nat) : State :=
  if x < 2 ^ (f.hi + 1 - f.lo) then s.put base f x else (s.put base f s.free.toNat).drawn

/-- Bit `i` of the register at `a` set to `b`. -/
def State.setBit (s : State) (a i : Nat) (b : Bool) : State := s.wr a (putBit (s.rd a) i b)

/-- The W1C bit `i` of the register at `a` set by hardware on the present clock edge (R108). -/
def State.raise (s : State) (a i : Nat) : State := (s.setBit a i true).mark a (maskOf i i)

/-! ### The copies of the always-on island's registers (R109, R110) -/

/-- Is the register at `a` an STL register: AON's but LASTERR, NMG_FWAKEc, VAULT_TAMPER, VAULT_TTIME and VAULT_TMPCFG? -/
def isStl (a : Nat) : Bool :=
  (decide (0x40020000 ≤ a) && decide (a < 0x40020020)) || (decide (0x40600020 ≤ a) && decide (a < 0x4060002C))
  || (decide (0x40280110 ≤ a) && decide (a < 0x40280410) && (a - 0x40280110) % 0x40 == 0)

/-- R109: every copy refreshed, on a 32.768 kHz edge. -/
def State.refresh (s : State) : State := { s with copies := s.regs.filter (fun p => isStl p.1) }

/-- What a read of the register at `a` finds: the present copy of an STL register (R110), else the register. -/
def State.shown (s : State) (a : Nat) : Word := if isStl a then Cells.read (regReset a) s.copies a else s.rd a

/-! ### The end of a tick (R11, R40) -/

/-- A timeout or boundary `i` that falls at `d`: served in that very tick it waits for the tick's end, after the tick's
events and writes; served later it acts at once (log entry 31). -/
def State.expire (s : State) (d : Option Word) (i : Instr) (act : State → State) : State :=
  if d = some s.now then { s with ending := if s.ending.contains i then s.ending else s.ending ++ [i] } else act s

/-- The outcome of a meaning. -/
abbrev Answer := Host.Outcome State Fault Refusal

/-- The answer of a meaning that always goes on. -/
def State.next (s : State) : Host.Outcome State Fault Refusal := .next s

/-- R14, R49: an event of an island that is not ready does not occur; else the answer `a`. -/
def State.on (s : State) (i : Island) (a : Answer) : Answer := if s.ready i then a else .next s

end Sys2Proof.Machine
end

