-- ==== Sys2Proof/Machine/RegCheck.lean ====
section
/-! DEFINITION. What every block does with a plain write, from its register table alone: field by field checks 7, 8 and
11 of R94, the value a write leaves (R90), and the aliases (R101–R103). -/

namespace Sys2Proof.Machine

/-- The access codes an alias acts on (R101). -/
def Acc.writable : Acc → Bool
  | .rw | .run | .cfg => true
  | _ => false

/-- Is `x` among the legal values of the field? -/
def FieldDesc.admits (f : FieldDesc) (x : Nat) : Bool :=
  f.legal.isEmpty || f.legal.any (fun r => r.1 ≤ x && x ≤ r.2)

/-- The bits a field holds after a write of `w` (R90): RW, RUN and CFG take it, W1S and W1C act on its 1s, RO and FOL
keep `old`; a field that always reads 0 stores nothing. -/
def FieldDesc.commit (f : FieldDesc) (old w : Word) : Nat :=
  let o := bitsOf old f.hi f.lo
  let x := bitsOf w f.hi f.lo
  match f.acc with
  | .rw | .run | .cfg => if f.readsZero then o else x
  | .w1s => if f.readsZero then o else o ||| x
  | .w1c => o &&& (2 ^ (f.hi + 1 - f.lo) - 1 - x)
  | .ro | .fol => o

/-- The register value after an accepted write of `w`: every named field by its code, reserved bits kept. -/
def commitWord (d : RegDesc) (old w : Word) : Word :=
  d.fields.foldl (fun v f => setBits v f.hi f.lo (f.commit old w)) old

/-- Check 7: a FOL field would change (R96). -/
def folChange (d : RegDesc) (old w : Word) : Bool :=
  d.fields.any (fun f => f.acc == .fol && bitsOf w f.hi f.lo != bitsOf old f.hi f.lo)

/-- Check 8: a CFG field would change (R96). -/
def cfgChange (d : RegDesc) (old w : Word) : Bool :=
  d.fields.any (fun f => f.acc == .cfg && bitsOf w f.hi f.lo != bitsOf old f.hi f.lo)

/-- Check 11, field by field: a writable field would take a value outside its legal set. -/
def illegalField (d : RegDesc) (w : Word) : Bool :=
  d.fields.any (fun f => f.acc.writable && !f.admits (bitsOf w f.hi f.lo))

/-- Does the write change a reserved bit (R100)? -/
def reservedChange (d : RegDesc) (old w : Word) : Bool :=
  (old ^^^ w) &&& ~~~ (d.fields.foldl (fun m f => m ||| maskOf f.hi f.lo) 0) != 0

/-- The four ways a register is reached (R28). -/
inductive Alias where
  | plain | set | clear | toggle
  deriving DecidableEq, Repr

/-- The nib offset an alias adds (R28). -/
def Alias.off : Alias → Nat
  | .plain => 0 | .set => 0x4000 | .clear => 0x8000 | .toggle => 0xC000

/-- The value an alias gives one bit position. -/
def Alias.apply : Alias → Word → Word → Word
  | .plain, _, w => w
  | .set, o, w => o ||| w
  | .clear, o, w => o &&& ~~~ w
  | .toggle, o, w => o ^^^ w

/-- R101–R103: the plain write an alias write stands for.  Only RW, RUN and CFG fields take the alias; RO and FOL
fields and reserved bits stand at their present value, W1S and W1C fields at the value without effect. -/
def aliasWord (al : Alias) (d : RegDesc) (old w : Word) : Word :=
  match al with
  | .plain => w
  | _ => d.fields.foldl (fun v f =>
      if f.acc.writable then setBits v f.hi f.lo (bitsOf (al.apply old w) f.hi f.lo)
      else match f.acc with
        | .w1s | .w1c => setBits v f.hi f.lo 0
        | _ => v) old

/-- R108: a write of 1 does not clear a W1C bit that hardware sets on the same clock edge. -/
def sameEdge (s : State) (a : Nat) (d : RegDesc) (w : Word) : Word :=
  if s.edge.isEmpty then w
  else d.fields.foldl (fun v f => if f.acc == .w1c then v &&& ~~~ (s.edgeAt a &&& maskOf f.hi f.lo) else v) w

/-- The index and inner offset of `off` in an array of pages. -/
def pageOf (off base stride count : Nat) : Option (Nat × Nat) :=
  if base ≤ off && off < base + stride * count then some ((off - base) / stride, (off - base) % stride) else none

/-- The failing checks a block's chapter adds: the check of R94 at which each is tested, and its code (R615). -/
abbrev Fails := List (Nat × Nat)

/-- Check `order` fails with `code` when `c` holds. -/
def failAt (c : Bool) (order code : Nat) : Fails := if c then [(order, code)] else []

/-- The code of the first check that fails, in order. -/
def firstCode : List (Option Nat) → Option Nat
  | [] => none
  | none :: t => firstCode t
  | some c :: _ => some c

/-- `code` when `c` holds. -/
def failIf (c : Bool) (code : Nat) : Option Nat := if c then some code else none

/-- A device write on its way into a block: the writer, the block, the nib offset without alias, the alias, the data. -/
structure WriteReq where
  src  : Src
  blk  : Blk
  off  : Nat
  al   : Alias
  data : Word
  deriving DecidableEq, Repr

/-- The shared checks that need only the register table and the present value (R94, R96): world, FOL, CFG, legality. -/
def sharedFails (s : State) (r : WriteReq) (d : RegDesc) (old w : Word) (locked : Bool) : Fails :=
  let held := match s.folio.cmd with
    | some (.rewritten _ _ fs cs _) =>
      (match r.blk with
       | .psc0 => 0x100 ≤ r.off && fs.contains (r.off / 0x100 - 1)
       | .psc1 => 0x100 ≤ r.off && fs.contains (r.off / 0x100 + 35)
       | .can n => cs.contains n.val
       | _ => false)
    | _ => false
  failAt (r.src.world == .opn) 2 0x04 ++ failAt held 4 0x06 ++ failAt (folChange d old w) 7 0x03
  ++ failAt (locked && cfgChange d old w) 8 0x01 ++ failAt (illegalField d w) 11 0x02

/-- The code of the first check in the order of R94 that fails; at one check, the first listed. -/
def firstFail (l : Fails) : Option Nat :=
  (l.foldl (fun (b : Option (Nat × Nat)) p => match b with
    | none => some p
    | some q => if p.1 < q.1 then some p else b) none).map (·.2)

/-- A write rejected by its block (R36, R111): the offset is recorded with the alias (R103). -/
def rejectWrite (s : State) (r : WriteReq) (code : Nat) : State := s.reject r.blk r.src (r.off + r.al.off) code

/-- A device write that has reached its block (R94, R95, R102): `fails` are the chapter's own checks, `locked` the
governing enable, `hook old w` what an accepted write does beyond the register, `rej` beyond the record.  A word that no
table names is reserved: it takes no write (R100); past the last register nothing answers (R29).  LASTERR with both flags
clear reads 0 (R113). -/
def blockWrite (r : WriteReq) (fails : State → Word → Fails) (locked : Bool) (hook : State → Word → Word → State)
    (rej : State → Nat → State) (s : State) : State :=
  match regDesc r.blk r.off with
  | none =>
    if r.blk.lastOff < r.off then s.fabReject r.src 0x10 (r.blk.base + r.off + r.al.off)
    else match firstFail ((if r.src.world = .opn then [(2, 0x04)] else []) ++ fails s 0) with
      | some code => rej (rejectWrite s r code) code
      | none => s
  | some d =>
    let a := r.blk.base + r.off
    let old := s.rd a
    let w := sameEdge s a d (aliasWord r.al d old r.data)
    match firstFail (fails s w ++ sharedFails s r d old w locked) with
    | some code => rej (rejectWrite s r code) code
    | none =>
      let v := commitWord d old w
      hook (s.wr a (if r.off = 0x3C && bitsOf v 1 0 = 0 then 0 else v)) old w

/-- No effect beyond the register. -/
def noHook (s : State) (_ _ : Word) : State := s
/-- No effect beyond the record. -/
def noRej (s : State) (_ : Nat) : State := s

end Sys2Proof.Machine
end

