-- ==== Sys2Proof/Machine/ChanOps.lean ====
section
/-! DEFINITION. The shared operations of the power stage: pages and classes (R115, R117), a channel's switches and their
dead time (R180), its PWM periods and stagger (R125–R131), its inrush window (R158), and events raised on ruling lines
(R311, R314). -/

namespace Sys2Proof.Machine

/-! ### Ruling lines -/

/-- Does line `l` carry routes? -/
def lineRouted (s : State) (l : Nat) : Bool := s.get Blk.rule.base (RULE_LINE_NDST.at l) != 0

/-- R314: an event of line `l` stamped now: CNT advances and the event travels; a second event of the line in the same
tick merges with it (R311, R315). -/
def raiseLine (s : State) (l : Nat) : State :=
  if !(s.pwr.state == .run || s.pwr.state == .lift) then s
  else if s.flights.any (fun e => e.line == l && e.tick == s.after 2) then s
  else
    let muted := (s.rd (Blk.rule.base + RULE_MUTE_MUTE.off + 4 * (l / 32))).getLsbD (l % 32)
    let s := s.incField Blk.rule.base (RULE_LINE_CNT.at l)
    { s with flights := s.flights ++ [⟨l, s.after 2, muted⟩] }

/-- R310: the pulse of a source reaches every line that names it. -/
def raiseSrc (s : State) (code : Nat) : State :=
  s.each ((List.range 128).filter (fun l => lineRouted s l && s.get Blk.rule.base (RULE_LINE_SRC.at l) == code)) raiseLine

/-- R310: a level source changed; EDGE chooses which changes are events (0 rising, 1 falling, 2 both). -/
def raiseLevel (s : State) (code : Nat) (rising : Bool) : State :=
  s.each ((List.range 128).filter (fun l => lineRouted s l && s.get Blk.rule.base (RULE_LINE_SRC.at l) == code
    && (let e := s.get Blk.rule.base (RULE_LINE_EDGE.at l); e == 2 || (e == 0) == rising))) raiseLine

/-! ### Pages and classes -/

/-- R117: the page of function index `f`. -/
def pscP (f : Nat) : Nat := if f < 36 then 0x40110100 + f * 0x100 else 0x40120100 + (f - 36) * 0x100

/-- The classes of R115. -/
inductive Cls where
  | h | m | l | b | lo
  deriving DecidableEq, Repr

/-- The class of a function index (R115). -/
def clsOf (f : Nat) : Cls := if f < 8 then .h else if f < 24 then .m else if f < 40 then .l else if f < 56 then .b else .lo

/-- The feed of a function index: 0 FEED_A to 3 FEED_D (R115). -/
def feedOf (f : Nat) : Nat := match clsOf f with | .h => 0 | .m => 1 | .l => 2 | .b => 3 | .lo => 2

/-- R115: the class's minimum on-time in ticks. -/
def minOn (f : Nat) : Nat := match clsOf f with | .h => 2000 | .m => 500 | .l => 200 | .b => 500 | .lo => 200

/-- R115: the class's current LSB in 0.1 mA. -/
def curLsb (f : Nat) : Nat := match clsOf f with | .h => 500 | .m => 200 | .l => 50 | .b => 250 | .lo => 25

/-- R115: the class's on-resistance at 25 °C in µΩ. -/
def ronOf (f : Nat) : Nat := match clsOf f with | .h => 3500 | .m => 10000 | .l => 35000 | .b => 8000 | .lo => 60000

/-- State codes of R120. -/
def stOff : Nat := 0
def stOn : Nat := 1
def stPwm : Nat := 2
def stProfile : Nat := 3
def stMotion : Nat := 4
def stRetry : Nat := 5
def stLocked : Nat := 6
def stSafe : Nat := 7
def stParkon : Nat := 8

/-- The channel of a function index. -/
def State.ch (s : State) (f : Nat) : Chan := s.chans.getD f .reset
/-- The channel of a function index changed. -/
def State.setCh (s : State) (f : Nat) (g : Chan → Chan) : State := { s with chans := s.chans.set f (g (s.ch f)) }

/-- The state code of a function (R120). -/
def chState (s : State) (f : Nat) : Nat := s.get (pscP f) PSC_STAT_STATE
/-- R62: is the function carried by a used channel? -/
def chUsed (s : State) (f : Nat) : Bool := s.get (pscP f) PSC_STRUCT_USE == 1
/-- The odd member of a parallel pair (R119, R133). -/
def isOdd (s : State) (f : Nat) : Bool := s.flag (pscP f) PSC_STAT_PAIRED
/-- The even member of a parallel pair (R61, R132). -/
def isEven (s : State) (f : Nat) : Bool := clsOf f != .b && s.flag (pscP f) PSC_STRUCT_PAIR
/-- The functions that switch together with `f`. -/
def members (s : State) (f : Nat) : List Nat := if isEven s f then [f, f + 1] else [f]
/-- Every used function that is not the odd member of a pair. -/
def usedFuncs (s : State) : List Nat := (List.range 72).filter (fun f => chUsed s f && !isOdd s f)
/-- The function whose page and state serve `f` (R133). -/
def lead (s : State) (f : Nat) : Nat := if isOdd s f then f - 1 else f

/-- The page of string driver `n` (chapter 8). -/
def stP (n : Nat) : Nat := 0x40180100 + n * 0x100

/-- R173: PSG_STAT.DER: is any entry DERATED? -/
def showDer (s : State) : State :=
  s.put Blk.psg.base PSG_STAT_DER ((usedFuncs s).any (fun f => s.flag (pscP f) PSC_STAT_DERATED)
    || (List.range 8).any (fun n => s.flag (stP n) LGT_STSTAT_DERATED)).toNat

/-- R173: a DERATED bit, with PSG_STAT.DER after it. -/
def setDerated (s : State) (base : Nat) (f : Fld) (b : Bool) : State :=
  if s.flag base f == b then s else showDer (s.put base f b.toNat)

/-- PSC_STAT.STATE of a function and, for a pair, of both members (R133); CUR and the own current read 0 until the switch
has been on in the new state (R135); a state outside PWM and SAFE carries no grant (R171). -/
def setChState (s : State) (f st : Nat) : State :=
  let s := s.each (members s f) (fun s g =>
    if chState s g == st then s
    else
      ((s.put (pscP g) PSC_STAT_STATE st).put (pscP g) PSC_MEAS_CUR 0).setCh g (fun c => { c with
        own := 0, lit := false, enteredAt := s.now, misSafe := if st < stRetry then none else c.misSafe }))
  if st = stPwm || st = stSafe then s
  else setDerated (s.setCh f (fun c => { c with grant := none })) (pscP f) PSC_STAT_DERATED false

/-- A PSC_FAULT bit set, with the function's PSG_FLT bit (R138), on both pages of a pair. -/
def setFault (s : State) (f : Nat) (b : Fld) : State :=
  s.each (members s f) (fun s g =>
    (s.put (pscP g) b 1).setBit (Blk.psg.base + PSG_FLT_FLT.off + 4 * (g / 24)) (g % 24) true)

/-- UNCLAIMED of a function, with its PSG_UNCL bit (R145). -/
def setUnclaimed (s : State) (f : Nat) (b : Bool) : State :=
  s.each (members s f) (fun s g =>
    (s.put (pscP g) PSC_STAT_UNCLAIMED b.toNat).setBit (Blk.psg.base + PSG_UNCL_UNCL.off + 4 * (g / 24)) (g % 24) b)

/-- Is the function unclaimed? -/
def unclaimed (s : State) (f : Nat) : Bool := s.flag (pscP f) PSC_STAT_UNCLAIMED

/-! ### Switches -/

/-- R163: does a thermal latch keep a channel's high-side (or only) switch off?  On a pair either member's latch does. -/
def latchedHs (s : State) (f : Nat) : Bool := (s.ch f).latch0 || (isEven s f && (s.ch f).latch1)
/-- R163: does a thermal latch keep a half-bridge's low-side switch off? -/
def latchedLs (s : State) (f : Nat) : Bool := (s.ch f).latch1

/-- The switches that should conduct: as commanded, unless the channel is held off (R176) or the switch latched (R163). -/
def expectedHs (s : State) (f : Nat) : Bool := (s.ch f).hs && !(s.ch f).held && !latchedHs s f
def expectedLs (s : State) (f : Nat) : Bool := (s.ch f).ls && !(s.ch f).held && !latchedLs s f

/-- The data path shows what each member's switches do (R139): as expected, or the member's read-back that disagrees, off
where the second path is open (R140) or a load is about to take the odd member's channel away (R608); a disagreement that the command itself ends is over; since when a switch shows off
stands in hsOff and lsOff (R180). -/
def showDp (s : State) (f : Nat) : State :=
  let want := (expectedHs s f, expectedLs s f)
  let s := s.each (members s f) (fun s g =>
    s.when ((s.ch g).readback == some want) (fun s => s.setCh g (fun c => { c with misSince := none, misSafe := none })))
  let seen := (s.ch f).readback.getD want
  let path := !s.flag (pscP f) PSC_DP_SP2
  let hsGoes := s.flag (pscP f) PSC_DP_HS && !(seen.1 && path)
  let lsGoes := s.flag (pscP f) PSC_DP_LS && !(seen.2 && path)
  let s := s.setCh f (fun c => { c with
    hsOff := if hsGoes then some s.now else c.hsOff, lsOff := if lsGoes then some s.now else c.lsOff })
  s.each (members s f) (fun s g =>
    let v := (s.ch g).readback.getD (want.1 && (g == f || !(s.ch g).held), want.2)
    let on := !s.flag (pscP g) PSC_DP_SP2
    (s.put (pscP g) PSC_DP_HS (v.1 && on).toNat).put (pscP g) PSC_DP_LS (v.2 && on).toNat)

/-- R136, R115: the shortest on-time that yields a sample for the open-load filter, in ticks. -/
def olMin (f : Nat) : Nat := if clsOf f == .l || clsOf f == .lo then 2000 else 1000

/-- R152: the regulation time of a switch up to `now`. -/
def Limit.total (r : Limit) (now : Word) : Nat := r.acc + match r.since with | none => 0 | some t => (now - t).toNat

/-- R152: the regulation time is 0 once the switch has conducted below ILIM for 100 µs without a break. -/
def Limit.settled (r : Limit) (now : Word) : Limit :=
  match r.below with
  | some t => if us 100 ≤ (now - t).toNat then { r with acc := 0 } else r
  | none => r

/-- R152: a switch that was on or off is on or off now.  Off-time in PWM keeps the regulation time, any other resets it. -/
def Limit.sw (r : Limit) (now : Word) (was on pwm : Bool) : Limit :=
  if on && !was then { since := none, acc := if pwm then r.acc else 0, below := some now }
  else if was && !on then { since := none, acc := if pwm then (r.settled now).total now else 0, below := none }
  else r

/-- The on-time whose samples count, up to now, moved to the evaluation's account (R134, R136). -/
def Chan.sampled (c : Chan) (now : Word) : Chan :=
  if (c.hs || c.ls) && !c.held && reachedAt now c.sampFrom then
    { c with sampAcc := c.sampAcc + (now - c.sampFrom).toNat, sampFrom := now, counted := now }
  else c

/-- R158: an inrush window opens now. -/
def openWindow (s : State) (f : Nat) : State :=
  (s.setCh f (fun c => { c with winPend := false, winEnd := some (s.after (ms (s.get (pscP f) PSC_INRUSH_WIN))) })).put
    (pscP f) PSC_PROT_INRLEFT (s.get (pscP f) PSC_INRUSH_NRST)

/-- The switches of a channel set now, by its PWM generator or not (R152).  A window waiting for the first turn-on edge
opens with it: of a later period where the first has a duty of 0 (R158, log entry 83). -/
def setSw (s : State) (f : Nat) (hs ls pwm : Bool) : State :=
  let c := s.ch f
  let rising := (hs && !c.hs) || (ls && !c.ls)
  let off := !hs && !ls
  let s := s.each (members s f) (fun s g => s.setCh g (fun m => { m with
    limHi := m.limHi.sw s.now c.hs hs pwm, limLo := m.limLo.sw s.now c.ls ls pwm }))
  let s := s.setCh f (fun c =>
    let c := if off then c.sampled s.now else c
    { c with
      hs := hs, ls := ls, swAt := none
      edgeAt := if hs == c.hs && ls == c.ls then c.edgeAt else s.now
      onAt := if rising then s.now else c.onAt
      sampFrom := if rising then s.after (olMin f) else c.sampFrom
      lit := c.lit || ((c.hs || c.ls) && c.enteredAt != s.now) })
  let s := if rising && c.winPend then openWindow s f else s
  showDp s f

/-- R180: the dead time of the half-bridge of function `f`, in ticks. -/
def deadTicks (s : State) (f : Nat) : Nat :=
  let k := f - 40
  let r := s.rd (Blk.mot.base + 0x40 + 4 * (k / 8))
  (bitsOf r (7 + 4 * (k % 8)) (4 + 4 * (k % 8)) + 1) * 10

/-- R180: the tick from which a switch may turn on, `dead` ticks being the dead time: that long after now while the other
switch (`on`: commanded or read back on) still conducts, that long after its read-back showed off else; `none`: at once. -/
def deadUntil (s : State) (dead : Nat) (on : Bool) (offSince : Option Word) : Option Word :=
  let d := BitVec.ofNat 36 dead
  if on then some (s.now + d)
  else offSince.bind (fun t => if (s.now - t).toNat < d.toNat then some (t + d) else none)

/-- R180, R181: the switches of a channel commanded: on a half-bridge the outgoing switch turns off now, and the incoming
one turns on after the dead time. -/
def drive (s : State) (f : Nat) (hs ls pwm : Bool) : State :=
  let c := s.ch f
  let p := pscP f
  let d := deadTicks s f
  let wait :=
    if clsOf f != .b then none
    else if hs && !c.hs then deadUntil s d (c.ls || s.flag p PSC_DP_LS) c.lsOff
    else if ls && !c.ls then deadUntil s d (c.hs || s.flag p PSC_DP_HS) c.hsOff
    else none
  match wait with
  | some t => (setSw s f (hs && c.hs) (ls && c.ls) pwm).setCh f (fun c => { c with swAt := some ⟨t, hs, ls, d, pwm⟩ })
  | none => setSw s f hs ls pwm

/-- R183: the side of a PWMSYNC channel commanded at an edge: a side that is not on yet turns on after the dead time. -/
def driveSync (s : State) (f : Nat) (hs ls : Bool) : State :=
  let c := s.ch f
  if c.hs == hs && c.ls == ls then setSw s f hs ls true
  else
    let d := deadTicks s f
    (setSw s f (hs && c.hs) (ls && c.ls) true).setCh f (fun c => { c with swAt := some ⟨s.after d, hs, ls, d, true⟩ })

/-- The change that waits for a dead time is made once it is due.  While the outgoing switch still reads on it waits for
the commutation's own dead time (R182) after the read-back shows it off; 2 µs after the commanded edge the incoming switch stays off (R181).  A mark
older than any dead time is dropped. -/
def serveDead (s : State) (f : Nat) : State :=
  let c := s.ch f
  let recent := fun t : Word => decide ((s.now - t).toNat < us 2)
  match c.swAt with
  | none => s.setCh f (fun c => { c with hsOff := c.hsOff.filter recent, lsOff := c.lsOff.filter recent })
  | some w =>
    if !s.reached w.due then s
    else if (w.hs && s.flag (pscP f) PSC_DP_LS) || (w.ls && s.flag (pscP f) PSC_DP_HS) then
      if us 2 ≤ (s.now - c.edgeAt).toNat then s.setCh f (fun c => { c with swAt := none }) else s
    else
      match deadUntil s w.dead false (if w.hs then c.lsOff else c.hsOff) with
      | some u => s.setCh f (fun c => { c with swAt := some { w with due := u } })
      | none => setSw s f w.hs w.ls w.pwm

/-- The PWM generator of a channel stopped, its dead time dropped. -/
def stopGen (s : State) (f : Nat) : State :=
  s.setCh f (fun c => { c with pulses := [], offAt := none, boundary := none, swAt := none })

/-- Every switch of a channel off, its pulse and its dead time dropped. -/
def allOff (s : State) (f : Nat) : State := setSw (stopGen s f) f false false false

/-- Is the inrush window open, its last tick included (R159)? -/
def windowOpen (s : State) (f : Nat) : Bool :=
  match (s.ch f).winEnd with
  | none => false
  | some t => s.now == t || !s.reached t

/-! ### PWM periods -/

/-- R125, R183: the on-time of a period of `per` ticks at duty `d`, and whether it was adjusted to the class minimum;
`dead` is the dead time that a PWMSYNC pulse spends before the high side conducts. -/
def onTicks (f per d dead : Nat) : Nat × Bool :=
  let t := per * d / 4095
  let least := minOn f + dead
  if 0 < t ∧ t < least then (min least per, true)
  else if 0 < per - t ∧ per - t < minOn f then (per, true)
  else (t, false)

/-- R129, R130: the turn-on edges fixed on the feed of `f` that have not occurred before this tick, `f`'s own left out. -/
def fixedEdges (s : State) (f : Nat) : List Word :=
  (usedFuncs s).flatMap (fun g =>
    let c := s.ch g
    if g != f && feedOf g == feedOf f && PSC_PHASE_STAG.of c.phase == 1 && c.boundary.isSome then
      c.pulses.map (·.1) ++ (c.pwmAt.toList.filter (· == s.now)) else [])

/-- Do two edges lie within the guard of each other? -/
def nearEdge (guard : Nat) (a b : Word) : Bool := (a - b).toNat ≤ guard || (b - a).toNat ≤ guard

/-- R129: the smallest shift from `sh` at which no edge lies within the guard, by moving past each edge in the way. -/
def findShift (guard : Nat) (base : Word) (edges : List Word) : Nat → Nat → Nat
  | 0, sh => sh
  | fuel + 1, sh =>
    match edges.find? (fun e => nearEdge guard e (base + BitVec.ofNat 36 sh)) with
    | none => sh
    | some e => findShift guard base edges fuel (((e - base).toNat + guard + 1) % 2 ^ 36)

/-- R129: the turn-on edge of a period that begins at `t`, and whether the window's bound was taken; PSC_PHASE is the one in
force (R148). -/
def placeEdge (s : State) (f per : Nat) (t : Word) : Word × Bool :=
  let w := (s.ch f).phase
  if PSC_PHASE_STAG.of w = 0 then (t, false)
  else
    let base := t + BitVec.ofNat 36 (per * PSC_PHASE_PHASE.of w / 4096)
    let win := per * PSC_PHASE_WIN.of w / 4096
    let edges := fixedEdges s f
    let sh := findShift (10 * s.get Blk.psg.base PSG_STAG_GUARD) base edges (edges.length + 1) 0
    if sh ≤ win then (base + BitVec.ofNat 36 sh, false) else (base + BitVec.ofNat 36 win, true)

/-- The turn-on edge of a pulse: the high side (after a dead time in PWMSYNC, R183) turns on, and the turn-off stands at the
later of the two where two pulses merge (R131). -/
def beginPulse (s : State) (f : Nat) (p : Word × Nat) : State :=
  let c := s.ch f
  let off := p.1 + BitVec.ofNat 36 p.2
  let off' := match c.offAt with | none => off | some o => if reachedAt o off then o else off
  let s := s.setCh f (fun c => { c with pulses := c.pulses.erase p, pwmAt := some p.1, offAt := some off' })
  if c.perMode = 4 then driveSync s f true false else drive s f true false true

/-- The pulses whose edge is reached begin. -/
def beginPulses (s : State) (f : Nat) : State :=
  s.each ((s.ch f).pulses.filter (fun p => s.reached p.1)) (fun s p => beginPulse s f p)

/-- Is the turn-off at `t` left to a period boundary or a pulse of the same tick, which may carry the on-time on (R131)? -/
def offWaits (s : State) (f : Nat) (t : Word) : Bool :=
  (match (s.ch f).boundary with | some b => s.reached b && reachedAt t b | none => false)
  || (s.ch f).pulses.any (fun p => s.reached p.1)

/-- The on-time of a period ends: the high side turns off, and in PWMSYNC the low side follows after the dead time. -/
def endPulse (s : State) (f : Nat) : State :=
  match (s.ch f).offAt with
  | none => s
  | some t =>
    if !s.reached t || offWaits s f t then s
    else
      let s := s.setCh f (fun c => { c with offAt := none })
      if (s.ch f).perMode = 4 then driveSync s f false true else drive s f false false true

/-- The switches at the start of a period with a pulse at `e` (`none`: a duty of 0).  A first period leaves the switch off
until its edge; a duty of 0 in PWMSYNC keeps the low side on throughout (R183); outside PWMSYNC the low side is off. -/
def periodSwitches (s : State) (f : Nat) (e : Option Word) (isFirst : Bool) : State :=
  let c := s.ch f
  let low := c.ls || (match c.swAt with | some w => w.ls | none => false)
  if c.perMode = 4 then
    if e.isNone && c.offAt.isNone then driveSync s f false true
    else if isFirst && e != some s.now then drive s f false false true else s
  else if isFirst && e != some s.now then drive s f false false true
  else if low then setSw s f c.hs false true
  else s

/-- R127: a period begins now with the values given: PSC_PWMACT, the duty after the grant (R173), MINON, CLIPPED and
the pulse; `isFirst`: the first period of a run. -/
def beginPeriod (s : State) (f : Nat) (mode per duty : Nat) (isFirst : Bool) : State :=
  let c := s.ch f
  let d := match c.grant with | none => duty | some g => min g duty
  let t := onTicks f per d (if mode = 4 then deadTicks s f else 0)
  let e := placeEdge s f per s.now
  let p := pscP f
  let s := s.setCh f (fun c => { c with
    perMode := mode, period := per, duty := duty, boundary := some (s.after per),
    pulses := (if isFirst then [] else c.pulses) ++ (if t.1 = 0 then [] else [(e.1, t.1)]),
    offAt := if isFirst then none else c.offAt })
  let s := (((s.put p PSC_PWMACT_PERIOD per).put p PSC_PWMACT_GDUTY d).put p PSC_STAT_MINON t.2.toNat).put p
    PSC_STAT_CLIPPED (t.1 != 0 && e.2).toNat
  let s := setDerated s p PSC_STAT_DERATED (decide (d < duty))
  let s := periodSwitches s f (if t.1 = 0 then none else some e.1) isFirst
  endPulse (beginPulses s f) f

/-- Is the channel switched by its PWM generator now: PWM, SAFE whose value runs it (R144), or the driving member of a
motion engine (R191)? -/
def pwmRuns (s : State) (f : Nat) : Bool :=
  (chState s f == stPwm || chState s f == stSafe || chState s f == stMotion) && (s.ch f).boundary.isSome

/-- The values the next period takes (R127, R144, R148): the buffer; while unclaimed or in SAFE, those in force. -/
def nextValues (s : State) (f : Nat) : Nat × Nat × Nat :=
  let c := s.ch f
  if chState s f = stSafe then
    (c.perMode, c.period, if s.get (pscP f) PSC_SAFEV_MODE = 3 then s.get (pscP f) PSC_SAFEV_DUTY else c.duty)
  else if chState s f = stMotion then (4, c.bufPer, c.bufDuty)
  else if unclaimed s f then (c.perMode, c.period, c.duty)
  else (c.mode, c.bufPer, c.bufDuty)

/-- R127: the period boundary of a channel whose boundary is reached. -/
def periodBoundary (s : State) (f : Nat) : State :=
  if pwmRuns s f && s.due (s.ch f).boundary then
    let v := nextValues s f
    beginPeriod s f v.1 v.2.1 v.2.2 false
  else s

end Sys2Proof.Machine
end

