-- ==== Sys2Proof/Machine/FolioData.lean ====
section
/-! DEFINITION. The loaded folio read as entries: the sections of R58 in the fields of R59–R76. -/

namespace Sys2Proof.Machine

def chunksAux {α : Type} (k : Nat) : Nat → List α → List (List α)
  | 0, _ => []
  | f + 1, l => if l.isEmpty then [] else l.take k :: chunksAux k f (l.drop k)

/-- A list cut into runs of `k`. -/
def chunks {α : Type} (k : Nat) (l : List α) : List (List α) := chunksAux k l.length l

/-- The words of section TYPE of the loaded folio; an absent section holds none (R58). -/
def State.sect (s : State) (ty : Nat) : List Word :=
  match s.folio.sects.find? (fun p => p.1 == ty) with | some p => p.2 | none => []

/-- Is the section present? -/
def State.hasSect (s : State) (ty : Nat) : Bool := s.folio.sects.any (fun p => p.1 == ty)

/-- Bits of word `i` of an entry. -/
def entBits (e : List Word) (i hi lo : Nat) : Nat := bitsOf (e.getD i 0) hi lo

/-- The WIRE entry of a function (R63). -/
def wireEntry (s : State) (f : Nat) : Option (List Word) :=
  (chunks 3 (s.sect 3)).find? (fun e => entBits e 0 35 29 == f)

/-- One entry of PROF (R66). -/
structure Prof where
  eng     : Nat
  feed    : Nat
  sel     : Nat
  partner : Nat
  par     : Bool
  deriving DecidableEq, Repr

def profOf (w : Word) : Prof :=
  ⟨bitsOf w 35 32, bitsOf w 31 25, bitsOf w 24 18, bitsOf w 15 12, bitAt w 11⟩

/-- The stroke engines bound by a PROF section. -/
def profList (ws : List Word) : List Prof := ws.map profOf

/-- The PROF entry of a stroke engine. -/
def prof (s : State) (k : Nat) : Option Prof := (profList (s.sect 5)).find? (fun p => p.eng == k)

/-- R241: the engine that leads `k`'s group; `k` itself without one. -/
def stkLead (s : State) (k : Nat) : Nat :=
  match prof s k with
  | some p => if p.par then min k p.partner else k
  | none => k

/-- One entry of MOTN (R67). -/
structure Motn where
  eng    : Nat
  bridge : Nat
  kind   : Nat
  parkIn : Nat
  brake  : Bool
  pzLo   : Nat
  pzHi   : Nat
  scale  : Nat
  deriving DecidableEq, Repr

def motnOf (e : List Word) : Motn :=
  ⟨entBits e 0 35 33, entBits e 0 32 30, entBits e 0 29 28, entBits e 0 27 22, entBits e 0 21 21 == 1,
   entBits e 1 35 28, entBits e 1 27 20, entBits e 1 19 8⟩

/-- The motion engines of a MOTN section. -/
def motnList (ws : List Word) : List Motn := (chunks 2 ws).map motnOf

/-- The MOTN entry of a motion engine. -/
def motn (s : State) (k : Nat) : Option Motn := (motnList (s.sect 6)).find? (fun m => m.eng == k)

/-- The even and odd functions of H-bridge `b` (R67, R185). -/
def bridgeEven (b : Nat) : Nat := 40 + 2 * b

/-- The SAFE entry of a target, MODE and DUTY (R65): kind 0 power function, 1 string driver, 2 sink, 3 BLANK. -/
def safeEntry (s : State) (kind idx : Nat) : Nat × Nat :=
  match ((s.sect 4).drop 1).find? (fun w => bitsOf w 35 34 == kind && bitsOf w 33 27 == idx) with
  | some w => (bitsOf w 26 25, bitsOf w 24 13)
  | none => (0, 0)

/-- Word `i` of a section, 0 where absent. -/
def sectWord (s : State) (ty i : Nat) : Word := (s.sect ty).getD i 0

/-- The TERM word of a land (R59). -/
def termWord (s : State) (land : Nat) : Option Word := (s.sect 1).find? (fun w => bitsOf w 35 26 == land)

/-- Does TERM give a land the function code (R588)? -/
def termFunc (s : State) (land func : Nat) : Bool := (termWord s land).any (fun w => bitsOf w 25 16 == func)

end Sys2Proof.Machine
end

