-- ==== Sys2Proof/Machine/Inputs.lean ====
section
/-! DEFINITION. Switch inputs, analogue inputs and the converter (chapter 9). -/

namespace Sys2Proof.Machine

def inpB : Nat := 0x401A0000
/-- The page of INP_ICFGn, INP_ADRESn and INP_ACFGn. -/
def inpI (n : Nat) : Nat := inpB + 4 * n

def State.ip (s : State) (n : Nat) : Inp := s.inp.ins.getD n .reset
def State.setIp (s : State) (n : Nat) (g : Inp → Inp) : State :=
  { s with inp := { s.inp with ins := s.inp.ins.set n (g (s.ip n)) } }

def inpOn (s : State) (n : Nat) : Bool := s.flag (inpI n) INP_ICFG_USE && s.flag (inpI n) INP_ICFG_ON
def inpCoded (s : State) (n : Nat) : Bool := s.flag (inpI n) INP_ICFG_CODED

/-! ### Switch inputs -/

/-- R277: the falling and the rising threshold of a plain input, in mV above the lower limit of its band: within the band
of 1 V, at least 0.3 V apart, free beyond this. -/
def inpLo (n : Nat) : Nat := Config.inpLow n % 701
def inpHi (n : Nat) : Nat := inpLo n + 300 + Config.inpGap n % (701 - inpLo n)

/-- R277: a plain input's sample at a pin voltage in mV: above the rising or below the falling threshold its level, between
them that of the previous sample, for a first sample either. -/
def plainSample (s : State) (n : Nat) (v : Int) : Nat × State :=
  let bat := s.flag (inpI n) INP_ICFG_POL
  let base : Int := if bat then 2500 else 1500
  if base + 1000 < v then (bat.toNat, s)
  else if v < base then ((!bat).toNat, s)
  else if base + inpHi n < v then (bat.toNat, s)
  else if v < base + inpLo n then ((!bat).toNat, s)
  else if (s.ip n).first then (s.freeBit.toNat, s.drawn)
  else ((s.ip n).raw, s)

/-- R278: a coded input's sample; a drop in a gap leaves the previous one. -/
def codedSample (s : State) (n : Nat) (kl30 v : Int) : Nat :=
  let bat := s.flag (inpI n) INP_ICFG_POL
  let d := if bat then kl30 - v else v
  if (if bat then kl30 - 1000 else 4000) < d then 0
  else if 1600 ≤ d ∧ d ≤ 3200 then 2
  else if 400 ≤ d ∧ d ≤ 1200 then 1
  else if d < 250 then 3
  else (s.ip n).raw

def sampleOf (s : State) (n : Nat) (kl30 v : Int) : Nat × State :=
  if inpCoded s n then (codedSample s n kl30 v, s) else plainSample s n v

/-- INP_RAW, INP_STATE and INP_CODE show the latest and the debounced sample (R280, R292). -/
def showInp (s : State) (n : Nat) : State :=
  let i := s.ip n
  let s := s.setBit (inpB + 0x34 + 4 * (n / 32)) (n % 32) (i.raw != 0)
  let s := s.setBit (inpB + 0x4 + 4 * (n / 32)) (n % 32) (i.deb != 0)
  let a := inpB + 0x14 + 4 * (n / 16)
  s.wr a (setBits (s.rd a) (2 * (n % 16) + 1) (2 * (n % 16)) (if inpCoded s n then i.deb else 0))

/-- R281: a debounced change: the edge bit, the directions seen, and the ruling pulses. -/
def inpChange (s : State) (n v : Nat) (pulse : Bool) : State :=
  let old := (s.ip n).deb
  let up := v != 0
  let down := old != 0
  let s := s.setIp n (fun i => { i with deb := v, cnt := 0, rose := i.rose || up, fell := i.fell || down })
  let s := showInp (s.setBit (inpB + 0xC + 4 * (n / 32)) (n % 32) true) n
  let s := s.when (pulse && up) (fun s => raiseSrc s (0x100 + n))
  s.when (pulse && down) (fun s => raiseSrc s (0x140 + n))

/-- R280, R282: one sample of an input. -/
def inpTake (s : State) (n v : Nat) : State :=
  let s := s.setIp n (fun i => { i with raw := v })
  let i := s.ip n
  if i.first then showInp (s.setIp n (fun i => { i with first := false, deb := v, cnt := 0 })) n
  else if v = i.deb then showInp (s.setIp n (fun i => { i with cnt := 0 })) n
  else if i.cnt + 1 < s.get (inpI n) INP_ICFG_DEB then showInp (s.setIp n (fun i => { i with cnt := i.cnt + 1 })) n
  else inpChange s n v true

/-- The pin voltage of a unit in a list of (unit, mV). -/
def voltOf (l : List (Nat × Int)) (n : Nat) : Int := match l.find? (fun p => p.1 == n) with | some p => p.2 | none => 0

/-- R279: every input that is on is sampled; the pins' voltages and KL30_LOGIC in mV. -/
def inputScan (s : State) (kl30 : Int) (pins : List (Nat × Int)) : State :=
  s.each ((List.range 64).filter (inpOn s)) (fun s n =>
    let v := sampleOf s n kl30 (voltOf pins n)
    inpTake v.2 n v.1)

/-- R279: a scan falls due in RUN, IDLE and LIFT, every SCANPER × 100 µs. -/
def scanDue (s : State) : Bool :=
  (s.pwr.state == .run || s.pwr.state == .lift) && decide (us (100 * s.get inpB INP_CTRL_SCANPER) ≤ (s.now - s.inp.scanAt).toNat)

/-! ### Analogue inputs -/

/-- R288: full scale in mV of a RANGE code. -/
def fullScale (r : Nat) : Int := match r with | 0 => 5000 | 1 => 16000 | 2 => 32000 | _ => 48000

/-- R291: the comparator of ANn at a voltage in mV: beyond its threshold; CSTAT returns only HYST back on the other side. -/
def cmpBeyond (s : State) (n : Nat) (v : Int) (was : Bool) : Bool :=
  let p := inpI n
  let fs := fullScale (s.get p INP_ACFG_RANGE)
  let th := (s.get p INP_ACFG_THR : Int)
  let hy := if was then (s.get p INP_ACFG_HYST : Int) else 0
  if s.flag p INP_ACFG_DIR then
    if was then decide (v * 256 < (th + hy) * fs) else decide (v * 256 < th * fs)
  else if was then decide ((th - hy) * fs < v * 256) else decide (th * fs < v * 256)

/-- COMPARATOR_CROSSING (R291): the comparator of ANn at the input's voltage in mV. -/
def comparatorCrossingEffect (n : Nat) (volt : Int) (s : State) : State :=
  let was := s.flag (inpI n) INP_ACFG_CSTAT
  let is_ := cmpBeyond s n volt was
  let s := s.put (inpI n) INP_ACFG_CSTAT is_.toNat
  if is_ == was then s else raiseLevel s (0x188 + n) is_

/-- COMPARATOR_CROSSING where its condition holds; else nothing happens. -/
def execComparatorCrossing (n : Nat) (volt : Int) (s : State) : Answer := s.on .tbase <|
  (s.when (decide (n < 8) && s.flag (inpI n) INP_ACFG_USE && (s.pwr.state == .run || s.pwr.state == .lift))
    (comparatorCrossingEffect n volt)).next

/-! ### The converter (R289, R290) -/

/-- A scan begins: its first conversion ends 1 µs later. -/
def adStart (s : State) : State :=
  { s.put inpB INP_ADSTAT_BUSY 1 with inp := { s.inp with adPos := some 0, adEnd := some (s.after (us 1)), adLate := false } }

/-- A scan falls due on the period, or at the enable. -/
def adDue (s : State) : State :=
  if s.inp.adPos.isSome then
    { s.put inpB INP_ADSTAT_OVERRUN 1 with inp := { s.inp with adLate := true } }
  else adStart s

/-- R289: the converter enabled: with TRIG = 0 the scans begin here, every PER µs. -/
def adEnable (s : State) : State :=
  if s.flag inpB INP_ADCTRL_TRIG then s
  else adDue { s with inp := { s.inp with adNext := some (s.after (us (s.get inpB INP_ADCTRL_PER))) } }

/-- EN written 0: the converter stops. -/
def adDisable (s : State) : State :=
  { s.put inpB INP_ADSTAT_BUSY 0 with inp := { s.inp with adNext := none, adPos := none, adEnd := none, adLate := false, adAgain := false } }

/-- ADC_SCAN_PERIOD (R290): a periodic scan falls due. -/
def execAdcScanPeriod (s : State) : Answer := s.on .tbase <|
  (s.when (s.flag inpB INP_ADCTRL_EN && !s.flag inpB INP_ADCTRL_TRIG && s.due s.inp.adNext) (fun s =>
    adDue { s with inp := { s.inp with
      adNext := s.inp.adNext.map (fun t => t + BitVec.ofNat 36 (us (s.get inpB INP_ADCTRL_PER))) } })).next

/-- R290: a START pulse begins a scan, in the tick in which one ends the next one, or is discarded with MISSED. -/
def adPulse (s : State) : State :=
  if !(s.flag inpB INP_ADCTRL_EN && s.flag inpB INP_ADCTRL_TRIG) then s
  else match s.inp.adPos with
  | none => adStart s
  | some k =>
    let nseq := s.get inpB INP_ADCTRL_NSEQ
    if nseq ≤ k || (nseq ≤ k + 1 && s.inp.adEnd == some s.now) then { s with inp := { s.inp with adAgain := true } }
    else s.put inpB INP_ADSTAT_MISSED 1

/-- ADC_RULE_START (R290). -/
def execAdcRuleStart (s : State) : Answer :=
  s.on .tbase ((adPulse s).next)

/-- R289: the analogue input of entry `k`. -/
def adEntry (s : State) (k : Nat) : Nat :=
  bitsOf (s.rd (inpB + 0x208 + 4 * (k / 8))) (4 * (k % 8) + 3) (4 * (k % 8))

/-- R288: the result of a conversion at a pin voltage in mV: the whole LSBs of FS / 4,096, off by at most 4 (which is free);
outside the full scale the spec states no result, and it is free. -/
def adResult (s : State) (n : Nat) (v : Int) : Nat :=
  let fs := fullScale (s.get (inpI n) INP_ACFG_RANGE)
  if 0 ≤ v ∧ v < fs then min 4095 ((v * 4096 / fs).toNat + s.free.toNat % 9 - 4) else s.free.toNat % 4096

/-- ADC_CONVERSION_DONE (R288, R289): the result at the pin's voltage in mV and the count at the sampling instant, some tick
of the conversion, are written, and NEW is set. -/
def execAdcConversionDone (volt : Int) (s : State) : Answer := s.on .tbase <|
  (match s.inp.adPos, s.inp.adEnd with
  | some k, some t =>
    if s.reached t then
      let p := inpI (adEntry s k)
      let x := adResult s (adEntry s k) volt
      let s := s.drawn
      let at_ := t - BitVec.ofNat 36 (s.free.toNat % (us 1 + 1))
      let s := ((s.drawn.put p INP_ADRES_VAL x).put p INP_ADRES_STAMP (at_.toNat % 2 ^ 23)).put p INP_ADRES_NEW 1
      let last := s.get inpB INP_ADCTRL_NSEQ ≤ k + 1
      { s with inp := { s.inp with adPos := some (k + 1), adEnd := if last then none else some (s.after (us 1)) } }
    else s
  | _, _ => s).next

/-- ADC_SCAN_DONE (R289, R290): the last conversion is made: SCANS advances, the DONE source pulses; a START of this tick
begins the next scan, a delayed one starts in the next tick. -/
def execAdcScanDone (s : State) : Answer := s.on .tbase <|
  (s.when (match s.inp.adPos with | some k => decide (s.get inpB INP_ADCTRL_NSEQ ≤ k) | none => false) (fun s =>
    let s := (s.incField inpB INP_ADSTAT_SCANS).put inpB INP_ADSTAT_BUSY 0
    let again := s.inp.adAgain
    let s := raiseSrc { s with inp := { s.inp with adPos := none, adEnd := none, adAgain := false } } 0x180
    s.when again adStart)).next

/-- R290: a delayed scan starts in the tick after the running one ended. -/
def adServe (s : State) : State := if s.inp.adLate && s.inp.adPos.isNone then adStart s else s

/-- R289: a read of INP_ADRESn clears NEW. -/
def adRead (s : State) (n : Nat) : State := s.put (inpI n) INP_ADRES_NEW 0

/-! ### Enabling an input (R282) and park (R283–R286) -/

/-- A write changed ON: the first sample is taken directly; off, STATE, RAW and CODE read 0 (R279). -/
def inpOnWritten (s : State) (n : Nat) (old new : Bool) : State :=
  if old == new then s
  else showInp (s.setIp n (fun i => { i with raw := 0, deb := 0, cnt := 0, first := true })) n

/-- R281: the directions of inputs whose edge bit firmware cleared are forgotten. -/
def inpEdgeWritten (s : State) : State :=
  s.each ((List.range 64).filter (fun n => !bitAt (s.rd (inpB + 0xC + 4 * (n / 32))) (n % 32)))
    (fun s n => s.setIp n (fun i => { i with rose := false, fell := false }))

/-- R283: is the input sampled in park? -/
def inpParked (s : State) (n : Nat) : Bool := inpOn s n && s.flag (inpI n) INP_ICFG_PULSED

/-- The words the always-on island copies (R284): INP_CTRL, INP_PARK, every INP_ICFG, the RUN fields of INP_ACFG0–7. -/
def inpCopied (s : State) : List (Nat × Word) :=
  ([0x0, 0x24] ++ (List.range 64).map (fun n => 0x100 + 4 * n) ++ (List.range 8).map (fun n => 0x280 + 4 * n)).map
    (fun o => (o, s.rd (inpB + o)))

/-- R284: the timebase island stops; the first park sample falls within the next 1 ms, when is free. -/
def inpPark (s : State) : State :=
  let s := adDisable s
  let s := { s.drawn with inp := { s.inp with parkDue := s.free.toNat % (ms 1 + 1), parkGroup := 0 } }
  let s := ((s.wr (inpB + 0x28) 0).wr (inpB + 0x2C) 0).wr (inpB + 0x30) 0
  { s with inp := { s.inp with
      saved := inpCopied s, cmpCnt := List.replicate 8 0,
      ins := s.inp.ins.map (fun i => { i with ref := i.deb, parkSmp := none, parkCnt := 0 }) } }

/-- R286, R294: the exit: the converter's registers at their reset values, the copied words written back (CSTAT is not
among them), a sampled input takes its last park sample, the others their first RUN sample directly. -/
def inpRestore (s : State) : State :=
  let s := s.resetRange (inpB + 0x200) (inpB + 0x280)
  let s := s.each s.inp.saved (fun s p =>
    s.wr (inpB + p.1) (if 0x280 ≤ p.1 then setBits p.2 16 16 (s.get (inpB + (p.1 - 0x280)) INP_ACFG_CSTAT) else p.2))
  s.each (List.range 64) (fun s n =>
    match (s.ip n).parkSmp with
    | some v =>
      if inpParked s n then
        let s := s.setIp n (fun i => { i with raw := v, deb := i.ref, cnt := 0, first := false, parkSmp := none })
        if v = (s.ip n).ref then showInp s n else inpChange s n v false
      else s.setIp n (fun i => { i with first := true, parkSmp := none })
    | none => s.setIp n (fun i => { i with first := true }))

/-- R285: does a sample differ from the reference in the direction WDIR selects? -/
def parkDiffers (s : State) (n v : Nat) : Bool :=
  let r := (s.ip n).ref
  v != r && (inpCoded s n || match s.get (inpI n) INP_ICFG_WDIR with | 0 => true | 1 => v != 0 | _ => v == 0)

/-- R280, R285: one park sample of an input, stamped with the count as it will be restored (R21); whether it completes a wake. -/
def parkTake (s : State) (n v : Nat) : State × Bool :=
  let s := s.setIp n (fun i => { i with raw := v, parkSmp := some v, parkAt := restoredCount s.tbRec s.rtcN })
  let c := if parkDiffers s n v then (s.ip n).parkCnt + 1 else 0
  let s := s.setIp n (fun i => { i with parkCnt := c })
  let wakes := s.flag (inpI n) INP_ICFG_WAKE && decide (s.get inpB INP_PARK_PDEB ≤ c)
  if wakes then (s.setBit (inpB + 0x28 + 4 * (n / 32)) (n % 32) true, true) else (s, false)

/-- R291: one park sample of a comparator; whether it completes a wake. -/
def parkCmp (s : State) (n : Nat) (v : Int) : State × Bool :=
  let c := if cmpBeyond s n v false then s.inp.cmpCnt.getD n 0 + 1 else 0
  let s := { s with inp := { s.inp with cmpCnt := s.inp.cmpCnt.set n c } }
  if s.get inpB INP_PARK_PDEB ≤ c then (s.setBit (inpB + 0x30) n true, true) else (s, false)

/-- R283: the wetting pulse of a group, in ticks. -/
def parkPulse (s : State) : Nat := us (25 * s.get inpB INP_PARK_PW)

/-- R283: the groups of a park sample: eight sampled inputs each, in index order; a sample of comparators alone has one. -/
def parkGroups (s : State) : Nat := max 1 ((((List.range 64).filter (inpParked s)).length + 7) / 8)

/-- R283: the end of the pulse of the group that is next, in ticks since the stop: its start g × (PW × 25 µs + 10 µs) after
the sample instant, and the pulse. -/
def parkAtEnd (s : State) : Nat := s.inp.parkDue + s.inp.parkGroup * (parkPulse s + us 10) + parkPulse s

/-- R283, R285, R291: at the end of a group's pulse its inputs are sampled, with the first group every enabled comparator;
the next group, or the next sample PER × 5 ms after this one's instant, follows.  Whether any completes a wake. -/
def parkSample (s : State) (kl30 : Int) (pins ans : List (Nat × Int)) : State × Bool :=
  let g := s.inp.parkGroup
  let mine := (((List.range 64).filter (inpParked s)).drop (8 * g)).take 8
  let r := mine.foldl (fun r n =>
    let v := sampleOf r.1 n kl30 (voltOf pins n)
    let t := parkTake v.2 n v.1
    (t.1, r.2 || t.2)) (s, false)
  let r := ((List.range 8).filter (fun n => g == 0 && s.flag (inpI n) INP_ACFG_CEN)).foldl (fun r n =>
    let t := parkCmp r.1 n (voltOf ans n)
    (t.1, r.2 || t.2)) r
  let last := parkGroups s ≤ g + 1
  ({ r.1 with inp := { r.1.inp with
      parkGroup := if last then 0 else g + 1
      parkDue := if last then s.inp.parkDue + ms (5 * s.get inpB INP_PARK_PER) else s.inp.parkDue } }, r.2)

end Sys2Proof.Machine
end

