-- ==== Sys2Proof/Machine/Crypto.lean ====
section
/-! DEFINITION. The checks and ciphers the spec takes from published standards (R1): CRC-32 (R52), CRC-16 (R360),
SHA-256 (FIPS 180-4), AES (FIPS 197), AES-CMAC (SP 800-38B), AES-GCM (SP 800-38D), the counter-mode KDF of SP 800-108
(R407) and ECDSA P-256 verification (FIPS 186).  Octet strings are lists of numbers below 256.
PRESUMED: the standards' own constants and steps (log entry 7). -/

namespace Sys2Proof.Machine

/-- R51: a word as five octets, the first holding bits 35:32. -/
def wordOctets (w : Word) : List Nat :=
  [bitsOf w 35 32, bitsOf w 31 24, bitsOf w 23 16, bitsOf w 15 8, bitsOf w 7 0]

/-- R51: words serialised in ascending order. -/
def wordsOctets (ws : List Word) : List Nat := ws.flatMap wordOctets

/-- The number a most-significant-first octet string spells. -/
def octetsNat (os : List Nat) : Nat := os.foldl (fun a o => a * 256 + o % 256) 0

/-- `n` octets of `x`, most significant first. -/
def natOctets : Nat → Nat → List Nat
  | 0, _ => []
  | n + 1, x => natOctets n (x / 256) ++ [x % 256]

/-- A list cut into groups of `k`, the last one maybe shorter. -/
def groupsAux (k : Nat) : Nat → List Nat → List (List Nat)
  | 0, _ => []
  | f + 1, os => if os.isEmpty then [] else os.take k :: groupsAux k f (os.drop k)

/-- A list cut into groups of `k`. -/
def groups (k : Nat) (os : List Nat) : List (List Nat) := groupsAux k os.length os

/-! ### CRC -/

/-- One bit step of a reflected CRC with the reflected polynomial `poly`. -/
def crcBit (poly c : Nat) : Nat := if c % 2 = 1 then (c / 2) ^^^ poly else c / 2

/-- One octet of a reflected CRC, running value in and out. -/
def crcOctet (poly c o : Nat) : Nat :=
  crcBit poly (crcBit poly (crcBit poly (crcBit poly (crcBit poly (crcBit poly (crcBit poly (crcBit poly (c ^^^ o))))))))

/-- R52, R518: the running value of CRC-32 continued over octets, without the final XOR. -/
def crc32Run (c : Nat) (os : List Nat) : Nat := os.foldl (crcOctet 0xEDB88320) c

/-- R52: CRC-32 of an octet string. -/
def crc32 (os : List Nat) : Nat := crc32Run 0xFFFFFFFF os ^^^ 0xFFFFFFFF

/-- R52: CRC-32 over words. -/
def crc32Words (ws : List Word) : Nat := crc32 (wordsOctets ws)

/-- One bit step of a CRC-16 that is not reflected, polynomial 0x1021. -/
def crc16Bit (c : Nat) : Nat := if c < 0x8000 then 2 * c else (2 * c % 0x10000) ^^^ 0x1021

/-- One octet of CRC-16, running value in and out. -/
def crc16Octet (c o : Nat) : Nat :=
  crc16Bit (crc16Bit (crc16Bit (crc16Bit (crc16Bit (crc16Bit (crc16Bit (crc16Bit (c ^^^ (o * 256)))))))))

/-- R360, R518: the running value of CRC-16 over octets. -/
def crc16Run (c : Nat) (os : List Nat) : Nat := os.foldl crc16Octet c

/-- R360: CRC-16 of a word's five octets, from the initial value. -/
def crc16Word (w : Word) : Nat := crc16Run 0xFFFF (wordOctets w)

/-! ### SHA-256 -/

/-- The first `n` odd primes search: `p` has no divisor in `2 .. p-1`. -/
def isPrimeNat (p : Nat) : Bool := 2 ≤ p && (List.range p).all (fun d => d < 2 || p % d != 0)

/-- The first 64 primes. -/
def primes64 : List Nat := (List.range 312).filter isPrimeNat

/-- The largest `r` below `2 ^ k` with `r ^ e ≤ n`, bit by bit. -/
def iroot (e n : Nat) : Nat → Nat → Nat
  | 0, r => r
  | k + 1, r => let r' := r + 2 ^ k; if r' ^ e ≤ n then iroot e n k r' else iroot e n k r

/-- FIPS 180-4: the 64 round constants, the first 32 fraction bits of the cube roots of the first 64 primes. -/
def shaK : List Nat := primes64.map (fun p => iroot 3 (p * 2 ^ 96) 36 0 % 2 ^ 32)

/-- FIPS 180-4: the initial value, the first 32 fraction bits of the square roots of the first 8 primes. -/
def shaInit : List Nat := (primes64.take 8).map (fun p => iroot 2 (p * 2 ^ 64) 37 0 % 2 ^ 32)

/-- Rotation right of a 32-bit number. -/
def rotr32 (n x : Nat) : Nat := ((x >>> n) ||| (x <<< (32 - n))) % 2 ^ 32

/-- The message schedule grown from its first 16 words (newest first). -/
def shaSchedule : Nat → List Nat → List Nat
  | 0, w => w
  | n + 1, w =>
    let w15 := w.getD 14 0; let w2 := w.getD 1 0
    let s0 := rotr32 7 w15 ^^^ rotr32 18 w15 ^^^ (w15 >>> 3)
    let s1 := rotr32 17 w2 ^^^ rotr32 19 w2 ^^^ (w2 >>> 10)
    shaSchedule n (((w.getD 15 0 + s0 + w.getD 6 0 + s1) % 2 ^ 32) :: w)

/-- One SHA-256 round over the eight working variables. -/
def shaRound (v : List Nat) (kw : Nat × Nat) : List Nat :=
  match v with
  | [a, b, c, d, e, f, g, h] =>
    let s1 := rotr32 6 e ^^^ rotr32 11 e ^^^ rotr32 25 e
    let ch := (e &&& f) ^^^ ((e ^^^ 0xFFFFFFFF) &&& g)
    let t1 := h + s1 + ch + kw.1 + kw.2
    let s0 := rotr32 2 a ^^^ rotr32 13 a ^^^ rotr32 22 a
    let mj := (a &&& b) ^^^ (a &&& c) ^^^ (b &&& c)
    [(t1 + s0 + mj) % 2 ^ 32, a, b, c, (d + t1) % 2 ^ 32, e, f, g]
  | _ => v

/-- The SHA-256 compression of a state of 8 words with a block of 16 words. -/
def shaCompress (h block : List Nat) : List Nat :=
  let w := (shaSchedule 48 block.reverse).reverse
  let v := (shaK.zip w).foldl shaRound h
  (h.zip v).map (fun p => (p.1 + p.2) % 2 ^ 32)

/-- SHA-256 padding. -/
def shaPad (os : List Nat) : List Nat :=
  os ++ [0x80] ++ List.replicate ((119 - os.length % 64) % 64) 0 ++ natOctets 8 (8 * os.length)

/-- SHA-256 of an octet string, as 32 octets. -/
def sha256 (os : List Nat) : List Nat :=
  let blocks := (groups 64 (shaPad os)).map (fun b => (groups 4 b).map octetsNat)
  (blocks.foldl shaCompress shaInit).flatMap (natOctets 4)

/-! ### AES -/

/-- Doubling in GF(2^8) with the AES polynomial. -/
def xtime (x : Nat) : Nat := if x < 128 then 2 * x else (2 * x) ^^^ 0x11B

/-- Product in GF(2^8), by Horner over the low `n` bits of `b`. -/
def gmulAux (a b : Nat) : Nat → Nat
  | 0 => 0
  | n + 1 => gmulAux a b n ^^^ (if b.testBit n then Nat.repeat xtime n a else 0)

/-- Product in GF(2^8). -/
def gmul (a b : Nat) : Nat := gmulAux a b 8

/-- The inverse in GF(2^8), `x ^ 254`; 0 for 0. -/
def ginv (x : Nat) : Nat :=
  let x2 := gmul x x; let x4 := gmul x2 x2; let x8 := gmul x4 x4; let x16 := gmul x8 x8
  let x32 := gmul x16 x16; let x64 := gmul x32 x32; let x128 := gmul x64 x64
  gmul x128 (gmul x64 (gmul x32 (gmul x16 (gmul x8 (gmul x4 x2)))))

/-- Rotation left of an octet. -/
def rotl8 (n x : Nat) : Nat := ((x <<< n) ||| (x >>> (8 - n))) % 256

/-- The AES S-box. -/
def sbox (x : Nat) : Nat :=
  let b := ginv x
  b ^^^ rotl8 1 b ^^^ rotl8 2 b ^^^ rotl8 3 b ^^^ rotl8 4 b ^^^ 0x63

/-- The inverse AES S-box. -/
def sboxInv (y : Nat) : Nat :=
  ginv (rotl8 1 y ^^^ rotl8 3 y ^^^ rotl8 6 y ^^^ 0x05)

/-- Octet-wise XOR. -/
def xorOctets (a b : List Nat) : List Nat := List.zipWith (· ^^^ ·) a b

/-- The AES key schedule: words (newest first) grown to `total` words from a key of `nk` words. -/
def aesExpand (nk : Nat) : Nat → Nat → List (List Nat) → List (List Nat)
  | 0, _, ws => ws
  | n + 1, i, ws =>
    let t := ws.headD []
    let t' :=
      if i % nk = 0 then
        xorOctets ((t.drop 1 ++ t.take 1).map sbox) [Nat.repeat xtime (i / nk - 1) 1, 0, 0, 0]
      else if nk = 8 ∧ i % nk = 4 then t.map sbox
      else t
    aesExpand nk n (i + 1) (xorOctets (ws.getD (nk - 1) []) t' :: ws)

/-- The AES round keys of a 16- or 32-octet key, each 16 octets. -/
def aesRoundKeys (key : List Nat) : List (List Nat) :=
  let nk := key.length / 4
  let total := 4 * (nk + 7)
  groups 16 ((aesExpand nk (total - nk) nk ((groups 4 key).reverse)).reverse.flatten)

/-- The AES row shift over 16 octets in column order. -/
def shiftRows (s : List Nat) : List Nat :=
  [0, 5, 10, 15, 4, 9, 14, 3, 8, 13, 2, 7, 12, 1, 6, 11].map (fun i => s.getD i 0)

/-- The inverse row shift. -/
def shiftRowsInv (s : List Nat) : List Nat :=
  [0, 13, 10, 7, 4, 1, 14, 11, 8, 5, 2, 15, 12, 9, 6, 3].map (fun i => s.getD i 0)

/-- A column mix with the circulant first row `m`. -/
def mixWith (m : List Nat) (s : List Nat) : List Nat :=
  (groups 4 s).flatMap (fun c => (List.range 4).map (fun r =>
    (List.range 4).foldl (fun a j => a ^^^ gmul (m.getD ((j + 4 - r) % 4) 0) (c.getD j 0)) 0))

/-- AES encryption of a 16-octet block. -/
def aesEnc (key block : List Nat) : List Nat :=
  let ks := aesRoundKeys key
  let s0 := xorOctets block (ks.headD [])
  let mid := (ks.drop 1).dropLast
  let s := mid.foldl (fun s k => xorOctets (mixWith [2, 3, 1, 1] (shiftRows (s.map sbox))) k) s0
  xorOctets (shiftRows (s.map sbox)) (ks.getLastD [])

/-- AES decryption of a 16-octet block. -/
def aesDec (key block : List Nat) : List Nat :=
  let ks := aesRoundKeys key
  let s0 := xorOctets block (ks.getLastD [])
  let mid := ((ks.drop 1).dropLast).reverse
  let s := mid.foldl (fun s k => mixWith [14, 11, 13, 9] (xorOctets ((shiftRowsInv s).map sboxInv) k)) s0
  xorOctets ((shiftRowsInv s).map sboxInv) (ks.headD [])

/-! ### XTS (IEEE 1619) -/

/-- A tweak times α: 128 bits, the least significant octet first, shifted up by one. -/
def xtsAlpha (t : List Nat) : List Nat :=
  let carry := t.getD 15 0 / 128
  let l := (List.range 16).map (fun i => t.getD i 0 * 2 % 256 + (if i = 0 then 0 else t.getD (i - 1) 0 / 128))
  l.set 0 (l.getD 0 0 ^^^ (135 * carry))

/-- The tweak of a data unit: its number, least significant octet first, under the tweak key. -/
def xtsTweak (key : List Nat) (unit : Nat) : List Nat :=
  aesEnc ((key.drop 32).take 32) ((List.range 16).map (fun i => unit / 256 ^ i % 256))

/-- AES-256-XTS over the whole blocks of a data unit, with `f` the cipher or its inverse under the data key. -/
def xtsWith (f : List Nat → List Nat → List Nat) (key : List Nat) (unit : Nat) (os : List Nat) : List Nat :=
  ((groups 16 os).foldl (fun (p : List Nat × List Nat) b =>
    (xtsAlpha p.1, p.2 ++ xorOctets (f (key.take 32) (xorOctets b p.1)) p.1)) (xtsTweak key unit, [])).2
def xtsEnc : List Nat → Nat → List Nat → List Nat := xtsWith aesEnc
def xtsDec : List Nat → Nat → List Nat → List Nat := xtsWith aesDec

/-! ### CMAC, KDF and GCM -/

/-- Doubling in GF(2^128) as SP 800-38B takes it. -/
def cmacDouble (b : List Nat) : List Nat :=
  let x := octetsNat b
  natOctets 16 (if x < 2 ^ 127 then 2 * x else (2 * x - 2 ^ 128) ^^^ 0x87)

/-- AES-CMAC of a message, 16 octets. -/
def cmac (key msg : List Nat) : List Nat :=
  let k1 := cmacDouble (aesEnc key (List.replicate 16 0))
  let k2 := cmacDouble k1
  let n := if msg.isEmpty then 1 else (msg.length + 15) / 16
  let body := (groups 16 msg).take (n - 1)
  let last := msg.drop (16 * (n - 1))
  let lastB := if last.length = 16 then xorOctets last k1
    else xorOctets (last ++ [0x80] ++ List.replicate (15 - last.length) 0) k2
  aesEnc key (xorOctets (body.foldl (fun c b => aesEnc key (xorOctets c b)) (List.replicate 16 0)) lastB)

/-- R407: the 512-bit key of a node from its parent's 256-bit key, its LABEL and its depth. -/
def kdf (parent : List Nat) (label : Word) (depth : Nat) : List Nat :=
  [1, 2, 3, 4].flatMap (fun i => cmac parent ([i] ++ wordOctets label ++ [0, depth % 256, 2, 0]))

/-- Product in GF(2^128) with GCM's bit order. -/
def ghashMul : Nat → Nat → Nat → Nat → Nat
  | 0, _, _, z => z
  | n + 1, x, v, z =>
    ghashMul n x (if v % 2 = 0 then v / 2 else (v / 2) ^^^ (0xE1 * 2 ^ 120)) (if x.testBit n then z ^^^ v else z)

/-- GHASH of whole blocks. -/
def ghash (h : Nat) (os : List Nat) : Nat :=
  (groups 16 os).foldl (fun y b => ghashMul 128 (y ^^^ octetsNat (b ++ List.replicate (16 - b.length) 0)) h 0) 0

/-- Zero padding to a multiple of 16 octets. -/
def pad16 (os : List Nat) : List Nat := os ++ List.replicate ((16 - os.length % 16) % 16) 0

/-- AES-CTR keystream over a message from counter `c` under a 96-bit IV. -/
def gcmCtr (key iv : List Nat) (msg : List Nat) : List Nat :=
  let bs := groups 16 msg
  ((List.range bs.length).zip bs).flatMap (fun p => xorOctets p.2 (aesEnc key (iv ++ natOctets 4 (p.1 + 2))))

/-- The GCM tag of additional data and ciphertext; `abits` and `bits` are their exact lengths in bits, the last octets
padded with zero bits. -/
def gcmTag (key iv aad ct : List Nat) (abits bits : Nat) : List Nat :=
  let h := octetsNat (aesEnc key (List.replicate 16 0))
  let s := ghash h (pad16 aad ++ pad16 ct ++ natOctets 8 abits ++ natOctets 8 bits)
  xorOctets (natOctets 16 s) (aesEnc key (iv ++ [0, 0, 0, 1]))

/-- AES-GCM over whole octets: the ciphertext (or plaintext) and the tag over the ciphertext. -/
def gcmSeal (key iv aad plain : List Nat) : List Nat × List Nat :=
  let ct := gcmCtr key iv plain
  (ct, gcmTag key iv aad ct (8 * aad.length) (8 * ct.length))

/-- The plaintext of a GCM ciphertext whose tag matches. -/
def gcmOpen (key iv aad ct tag : List Nat) : Option (List Nat) :=
  if gcmTag key iv aad ct (8 * aad.length) (8 * ct.length) == tag then some (gcmCtr key iv ct) else none

/-! ### ECDSA P-256 verification -/

/-- The field prime of P-256. -/
def p256 : Nat := 2 ^ 256 - 2 ^ 224 + 2 ^ 192 + 2 ^ 96 - 1
/-- The group order of P-256. -/
def n256 : Nat := 0xFFFFFFFF00000000FFFFFFFFFFFFFFFFBCE6FAADA7179E84F3B9CAC2FC632551
/-- The curve constant b of P-256. -/
def b256 : Nat := 0x5AC635D8AA3A93E7B3EBBD55769886BC651D06B0CC53B0F63BCE3C3E27D2604B
/-- The base point of P-256. -/
def g256 : Nat × Nat := (0x6B17D1F2E12C4247F8BCE6E563A440F277037D812DEB33A0F4A13945D898C296,
  0x4FE342E2FE1A7F9B8EE7EB4A7C0F9E162BCE33576B315ECECBB6406837BF51F5)

/-- `x ^ e mod m`, over the low `k` bits of `e`. -/
def powMod (m x e : Nat) : Nat → Nat
  | 0 => 1
  | k + 1 => let r := powMod m x (e / 2) k; let r2 := r * r % m; if e % 2 = 1 then r2 * x % m else r2

/-- The inverse modulo a prime below 2^256. -/
def invMod (m x : Nat) : Nat := powMod m x (m - 2) 256

/-- `a - b` in the field of P-256. -/
def subP (a b : Nat) : Nat := (a % p256 + (p256 - b % p256)) % p256

/-- A point in Jacobian coordinates: x = X / Z^2, y = Y / Z^3; Z is 0 at infinity. -/
abbrev JacPoint := Nat × Nat × Nat

/-- Twice a point. -/
def ecDouble : JacPoint → JacPoint
  | (x, y, z) =>
    let d := z * z % p256
    let g := y * y % p256
    let b := x * g % p256
    let a := 3 * subP x d * (x + d) % p256
    let x3 := subP (a * a) (8 * b)
    (x3, subP (a * subP (4 * b) x3) (8 * g * g), 2 * y * z % p256)

/-- The sum of two points. -/
def ecAdd : JacPoint → JacPoint → JacPoint
  | (x1, y1, z1), (x2, y2, z2) =>
    if z1 = 0 then (x2, y2, z2) else if z2 = 0 then (x1, y1, z1) else
      let u1 := x1 * (z2 * z2 % p256) % p256
      let u2 := x2 * (z1 * z1 % p256) % p256
      let s1 := y1 * (z2 * z2 * z2 % p256) % p256
      let s2 := y2 * (z1 * z1 * z1 % p256) % p256
      if u1 = u2 then if s1 = s2 then ecDouble (x1, y1, z1) else (1, 1, 0)
      else
        let h := subP u2 u1
        let r := subP s2 s1
        let h2 := h * h % p256
        let x3 := subP (r * r) (h2 * h + 2 * u1 * h2)
        (x3, subP (r * subP (u1 * h2) x3) (s1 * (h2 * h)), h * z1 * z2 % p256)

/-- Scalar multiple over the low `n` bits of the scalar. -/
def ecMul (q : JacPoint) (s : Nat) : Nat → JacPoint
  | 0 => (1, 1, 0)
  | n + 1 => let d := ecDouble (ecMul q (s / 2) n); if s % 2 = 1 then ecAdd d q else d

/-- ECDSA P-256 verification over SHA-256 (R53): public key (qx, qy), signature (r, s). -/
def ecdsaVerify (qx qy r s : Nat) (msg : List Nat) : Bool :=
  if r = 0 || n256 ≤ r || s = 0 || n256 ≤ s || p256 ≤ qx || p256 ≤ qy
    || (qy * qy) % p256 != (qx * qx * qx + (p256 - 3) * qx + b256) % p256 then false
  else
    let e := octetsNat (sha256 msg)
    let w := invMod n256 s
    let (x, _, z) := ecAdd (ecMul (g256.1, g256.2, 1) (e * w % n256) 256) (ecMul (qx, qy, 1) (r * w % n256) 256)
    z != 0 && x * invMod p256 (z * z % p256) % p256 % n256 == r

end Sys2Proof.Machine
end

