-- ==== Sys2Proof/Machine/EngOps.lean ====
section
/-! DEFINITION. The shared operations of the motion engines (chapter 6) and the stroke engines (chapter 7): their pages,
what they drive, how they stop, and which of them a channel's trip, SAFE entry or supply loss stops (R217, R218, R227). -/

namespace Sys2Proof.Machine

/-! ### Motion engines -/

/-- The page of motion engine `k`. -/
def motP (k : Nat) : Nat := 0x40140100 + k * 0x100

/-- Engine `k`'s own state. -/
def State.mo (s : State) (k : Nat) : Mot := s.mots.getD k .reset
def State.setMo (s : State) (k : Nat) (g : Mot → Mot) : State := { s with mots := s.mots.set k (g (s.mo k)) }

/-- MOT_STAT.STATE: 0 IDLE, 1 DRIVE, 2 BRAKE, 3 REVERSE, 4 COAST. -/
def motState (s : State) (k : Nat) : Nat := s.get (motP k) MOT_STAT_STATE
def setMotState (s : State) (k st : Nat) : State := s.put (motP k) MOT_STAT_STATE st

/-- The even function of the engine's bridge, 72 (no function) for an engine that MOTN does not name. -/
def motEven (s : State) (k : Nat) : Nat := match motn s k with | some m => bitsOf (sectWord s 2 (bridgeEven m.bridge)) 26 20 | none => 72

def motKind (s : State) (k : Nat) : Nat := match motn s k with | some m => m.kind | none => 0

/-- MOT_POS.POS as a signed count. -/
def motPos (s : State) (k : Nat) : Int := s.getInt (motP k) MOT_POS_POS

/-- R203, R206: is a position within the pinch zone, both edges included?  POS / RPM_SCALE is in mm below closure. -/
def inZone (m : Motn) (pos : Int) : Bool :=
  decide (m.kind ≤ 1) && decide ((m.pzLo * m.scale : Nat) ≤ pos * 16) && decide (pos * 16 ≤ (m.pzHi * m.scale : Nat))

/-- POS set, with MOT_STAT.INZONE after it. -/
def setPos (s : State) (k : Nat) (x : Int) : State :=
  let s := s.putInt (motP k) MOT_POS_POS x
  match motn s k with
  | some m => s.put (motP k) MOT_STAT_INZONE (inZone m (motPos s k)).toNat
  | none => s

/-- An engine's command to one of its channels, which acts only while that channel is in its engine's state (R222,
R187). -/
def engSwitch (s : State) (f st : Nat) (hs ls : Bool) : State :=
  if chState s f == st then drive (stopGen s f) f hs ls false else s

/-- Both low sides on: BRAKE (R185). -/
def bridgeBrake (s : State) (e : Nat) : State := engSwitch (engSwitch s e stMotion false true) (e + 1) stMotion false true

/-- Every switch of the bridge off. -/
def bridgeOff (s : State) (e : Nat) : State := engSwitch (engSwitch s e stMotion false false) (e + 1) stMotion false false

/-- What ends with a move: its deadlines, its reversal, its cycle. -/
def Mot.ended (m : Mot) : Mot :=
  { m with softEnd := none, brakeEnd := none, moveEnd := none, reverse := none, revTo := none, cycle := false, hits := 0,
           stallAt := none }

/-- R194: without a drive neither a bound is limiting nor a demand missed. -/
def motIdleLoop (s : State) (k : Nat) : State := (s.put (motP k) MOT_STAT_CLIPPED 0).put (motP k) MOT_STAT_DERATED 0

/-- After the motor is released: COAST while the count continues, else IDLE (R198: DONE came with the count's end). -/
def motRelease (s : State) (k : Nat) : State :=
  let s := bridgeOff ((motIdleLoop s k).setMo k .ended) (motEven s k)
  setMotState s k (if (s.mo k).counting then 4 else 0)

/-- R195: the engine stops with a cause, braking when its MOTN entry says so or `force` does; its command is over. -/
def motStop (s : State) (k cause : Nat) (force : Bool) : State :=
  if motState s k = 0 then s
  else
    let s := s.setMo k (fun m => { m with op := 0 })
    let s := motIdleLoop ((s.put (motP k) MOT_STAT_STOPC cause).put (motP k) MOT_STAT_PEND 0) k
    if force || (match motn s k with | some m => m.brake | none => false) then
      let s := setMotState (bridgeBrake (s.setMo k .ended) (motEven s k)) k 2
      s.setMo k (fun m => { m with brakeEnd := some (s.after (ms (s.get (motP k) MOT_PWM_BRKT))) })
    else motRelease s k

/-- R217, R218: a channel's trip, lock or SAFE entry, or a supply event, stops the engine at once: every switch of the
bridge off, the count continuing; the command is over, that of an intermittent wiper between its cycles too. -/
def motKill (s : State) (k cause : Nat) : State :=
  let idle := motState s k = 0 || motState s k = 4
  if idle && (s.mo k).op != 6 then s
  else
    let s := (s.put (motP k) MOT_STAT_STOPC cause).put (motP k) MOT_STAT_PEND 0
    let s := s.setMo k (fun m => { m with op := 0 })
    if idle then s else motRelease s k

/-! ### Stroke engines -/

/-- The page of stroke engine `k`. -/
def stkP (k : Nat) : Nat := 0x40130100 + k * 0x100

def State.sk (s : State) (k : Nat) : Stk := s.stks.getD k .reset
def State.setSk (s : State) (k : Nat) (g : Stk → Stk) : State := { s with stks := s.stks.set k (g (s.sk k)) }

/-- STK_STAT.PHASE: 0 IDLE, 1 WAIT, 2 BOOST, 3 PEAK, 4 HOLD, 5 QUENCH. -/
def stkPhase (s : State) (k : Nat) : Nat := s.get (stkP k) STK_STAT_PHASE

/-- R234: BOOST, PEAK and HOLD are active time. -/
def phaseActive (ph : Nat) : Bool := 2 ≤ ph && ph ≤ 4

/-- R234: the active time in the window up to now, in ticks. -/
def stkActive (s : State) (k : Nat) : Nat :=
  (s.sk k).segs.foldl (· + ·) 0 + match (s.sk k).activeAt with | none => 0 | some t => (s.now - t).toNat

/-- R234, R235: has ACT reached DWIN × 100 ms × DLIM / 100?  DLIM = 100 never limits. -/
def dutyReached (s : State) (k : Nat) : Bool :=
  s.get (stkP k) STK_DUTY_DLIM != 100 &&
  s.get (stkP k) STK_DUTY_DWIN * s.get (stkP k) STK_DUTY_DLIM * 100000 ≤ stkActive s k

/-- Does the engine hold its feed-side switch on (R226)? -/
def stkFeedOn (s : State) (k : Nat) : Bool :=
  match stkPhase s k with
  | 2 => true
  | 3 | 4 => s.flag (stkP k) STK_CFG_REGSIDE || (s.sk k).chopEnd.isNone
  | _ => false

/-- Does the engine hold its select-side switch on (R226)? -/
def stkSelOn (s : State) (k : Nat) : Bool :=
  match stkPhase s k with
  | 2 => true
  | 3 | 4 => !s.flag (stkP k) STK_CFG_REGSIDE || (s.sk k).chopEnd.isNone
  | 5 => !s.flag (stkP k) STK_CFG_REGSIDE && !s.flag (stkP k) STK_CFG_QFAST
  | _ => false

/-- Is the regulating switch on (R224)? -/
def stkRegOn (s : State) (k : Nat) : Bool := if s.flag (stkP k) STK_CFG_REGSIDE then stkSelOn s k else stkFeedOn s k

/-- The other engines that name the same FEED (R66, R236). -/
def feedSharers (s : State) (k : Nat) : List Nat :=
  match prof s k with
  | none => []
  | some p => ((profList (s.sect 5)).filter (fun q => q.feed == p.feed && q.eng != k && stkLead s q.eng != k)).map (·.eng)

/-- R223, R226, R237: the engine's two switches set as its phase requires; a shared feed is on while any engine on it
holds it on. -/
def stkApply (s : State) (k : Nat) : State :=
  match prof s k with
  | none => s
  | some p =>
    let fOn := stkFeedOn s k || (feedSharers s k).any (stkFeedOn s)
    let sOn := stkSelOn s k
    let s := engSwitch s p.feed stProfile fOn false
    if clsOf p.sel == .b then engSwitch s p.sel stProfile false sOn else engSwitch s p.sel stProfile sOn false

/-- R242: the partner's STK_STAT and STK_MEAS mirror the leader's. -/
def stkMirror (s : State) (k : Nat) : State :=
  match prof s k with
  | some p => if p.par then (s.wr (stkP p.partner + 0x20) (s.rd (stkP k + 0x20))).wr (stkP p.partner + 0x24)
      (s.rd (stkP k + 0x24)) else s
  | none => s

/-- STK_DACT.ACT shows the active time in whole ms. -/
def showAct (s : State) (k : Nat) : State := s.put (stkP k) STK_DACT_ACT (stkActive s k / 100000)

/-- The phase changed: active time starts or stops, and the switches follow. -/
def setPhase (s : State) (k ph : Nat) : State :=
  let a := (s.sk k).activeAt
  let s := s.setSk k (fun e =>
    match a, phaseActive ph with
    | some t, false => { e with
        activeAt := none
        segs := (e.segs.headD 0 + (s.now - t).toNat) :: e.segs.drop 1 }
    | none, true => { e with activeAt := some s.now }
    | _, _ => e)
  stkMirror (showAct (stkApply (s.put (stkP k) STK_STAT_PHASE ph) k) k) k

/-- BOOST is entered (R227): both switches on, the time-to-peak count from 0; `isFresh` from IDLE or WAIT (R228). -/
def stkBoost (s : State) (k : Nat) (isFresh : Bool) : State :=
  let s := s.setSk k (fun e => { e with
    phaseEnd := some (s.after (us (s.get (stkP k) STK_TIME_TBOOST))), boostAt := s.now, fresh := isFresh, judged := false,
    chopEnd := none, chopDue := none, regOn := if stkRegOn s k then e.regOn else s.now })
  setPhase (s.put (stkP k) STK_STAT_RESTART (!isFresh).toNat) k 2

/-- STK_MEAS.WAITUS: the time since the WAIT entry, saturating (R238). -/
def waitUs (s : State) (k : Nat) : Nat := min 65535 ((s.now - (s.sk k).waitAt).toNat / 100)

/-- R227, R238: an engine waiting on the same feed enters BOOST once no other engine on it is in BOOST or PEAK. -/
def stkServeWait (s : State) (j : Nat) : State :=
  if stkPhase s j = 1 && (feedSharers s j).all (fun q => stkPhase s q != 2 && stkPhase s q != 3) then
    let s := (s.put (stkP j) STK_MEAS_WAITUS (waitUs s j)).put (stkP j) STK_STAT_WAITED 1
    stkBoost s j true
  else s

/-- What follows a phase change of `k`: the engines that share its feed. -/
def stkSettle (s : State) (k : Nat) : State := s.each (feedSharers s k) stkServeWait

/-- QUENCH is entered with a stop cause (R227). -/
def stkQuench (s : State) (k cause : Nat) : State :=
  let s := s.setSk k (fun e => { e with
    phaseEnd := some (s.after (us (s.get (stkP k) STK_HOLD_TQ))), chopEnd := none, chopDue := none })
  stkSettle (setPhase (s.put (stkP k) STK_STAT_STOPC cause) k 5) k

/-- R227's first row for one engine: IDLE at once with both switches off. -/
def stkHalt (cause : Nat) (s : State) (k : Nat) : State :=
  if stkPhase s k = 0 then s
  else
    let s := if stkPhase s k = 1 then s.put (stkP k) STK_MEAS_WAITUS (waitUs s k) else s
    let s := s.setSk k (fun e => { e with phaseEnd := none, chopEnd := none, chopDue := none })
    setPhase (s.put (stkP k) STK_STAT_STOPC cause) k 0

/-- R227, R240: engines stop together, and then those that waited for them go on. -/
def stkStops (s : State) (ks : List Nat) (cause : Nat) : State := (s.each ks (stkHalt cause)).each ks stkSettle

/-- One engine stops. -/
def stkStop (s : State) (k cause : Nat) : State := stkStops s [k] cause

/-! ### A channel stops its engine -/

/-- Why a channel stops its engine. -/
inductive StopWhy where
  | trip | safe | supply
  deriving DecidableEq, Repr

/-- MOT_STAT.STOPC and STK_STAT.STOPC for it. -/
def StopWhy.mot : StopWhy → Nat | .trip => 7 | .safe => 8 | .supply => 11
def StopWhy.stk : StopWhy → Nat | .trip => 4 | .safe => 5 | .supply => 6

/-- The stroke engines (leaders) that drive a function. -/
def stkOn (s : State) (f : Nat) : List Nat :=
  ((profList (s.sect 5)).filter (fun p => p.feed == f || p.sel == f)).map (fun p => stkLead s p.eng)

/-- The motion engines whose bridge holds a function. -/
def motOn (s : State) (f : Nat) : List Nat :=
  ((motnList (s.sect 6)).filter (fun m => motEven s m.eng == f || motEven s m.eng + 1 == f)).map (·.eng)

/-- R217, R218, R227, R240, R242: the engine that owns a function stops. -/
def stopOwner (s : State) (f : Nat) (why : StopWhy) : State :=
  match s.get (pscP f) PSC_STRUCT_OWNER with
  | 1 => stkStops s (stkOn s f) why.stk
  | 2 => s.each (motOn s f) (fun s k => motKill s k why.mot)
  | _ => s

end Sys2Proof.Machine
end

