-- ==== Sys2Proof/Machine/LightOps.lean ====
section
/-! DEFINITION. The shared operations of the lighting island (chapter 8): string drivers, sinks, matrix and chain port,
their SAFE values (R275), and the targets of a hold (R273, R274). -/

namespace Sys2Proof.Machine

/-! ### Targets -/

/-- A lighting target (R272): a string driver, a sink, or the chain port. -/
inductive Target where
  | str (n : Nat) | sink (n : Nat) | chain
  deriving DecidableEq, Repr

def skP (n : Nat) : Nat := 0x40180A00 + n * 0x20
def lgt : Nat := 0x40180000
def lch : Nat := 0x40190000

/-- Its register group and bit in LGT_RECLAIM, LGT_UNCL and LGT_FLT. -/
def Target.slot : Target → Nat × Nat
  | .str n => (0, n)
  | .chain => (0, 8)
  | .sink n => (1 + n / 24, n % 24)

/-- Every target in ascending order. -/
def Target.all : List Target := (List.range 8).map .str ++ (List.range 48).map .sink ++ [.chain]

/-- R68: is the target used? -/
def tgtUsed (s : State) : Target → Bool
  | .str n => bitAt (sectWord s 7 0) n
  | .sink n => bitAt (sectWord s 7 (1 + n / 24)) (n % 24)
  | .chain => bitsOf (sectWord s 7 0) 30 22 != 0

/-- R68: the matrix exists. -/
def hasMatrix (s : State) : Bool := bitAt (sectWord s 7 0) 35
/-- R68: its number of rows. -/
def mxRows (s : State) : Nat := bitsOf (sectWord s 7 0) 34 31
/-- R263: does the sink serve as a matrix column? -/
def isColumn (s : State) (n : Nat) : Bool := hasMatrix s && n < 16

def State.st (s : State) (n : Nat) : StrDrv := s.light.strs.getD n .reset
def State.setSt (s : State) (n : Nat) (g : StrDrv → StrDrv) : State :=
  { s with light := { s.light with strs := s.light.strs.set n (g (s.st n)) } }
def State.sn (s : State) (n : Nat) : Sink := s.light.sinks.getD n .reset
def State.setSn (s : State) (n : Nat) (g : Sink → Sink) : State :=
  { s with light := { s.light with sinks := s.light.sinks.set n (g (s.sn n)) } }
def State.setMx (s : State) (g : Matrix → Matrix) : State := { s with light := { s.light with matrix := g s.light.matrix } }
def State.setChain (s : State) (g : Chain → Chain) : State := { s with light := { s.light with chain := g s.light.chain } }

/-- LGT_STSTAT.STATE: 0 OFF, 1 ON, 2 PWM, 3 SAFE, 4 LOCKED. -/
def stState (s : State) (n : Nat) : Nat := s.get (stP n) LGT_STSTAT_STATE
/-- The sink's state: SAFE, or COLUMN, or as LGT_SKSTAT.STATE. -/
def skState (s : State) (n : Nat) : Nat := if (s.sn n).safe then 3 else s.get (skP n) LGT_SKSTAT_STATE

/-- UNCLAIMED of a target, with its LGT_UNCL bit (R274). -/
def tgtUncl (s : State) (t : Target) (b : Bool) : State :=
  let s := match t with
    | .str n => s.put (stP n) LGT_STSTAT_UNCLAIMED b.toNat
    | .sink n => s.put (skP n) LGT_SKSTAT_UNCLAIMED b.toNat
    | .chain => s.put lch LCH_STAT_UNCLAIMED b.toNat
  s.setBit (lgt + 0x10 + 4 * t.slot.1) t.slot.2 b

/-- R274: a target reclaimed in the tick of hold expiry. -/
def tgtCoincident (s : State) : Target → State
  | .str n => s.put (stP n) LGT_STSTAT_COINCIDENT 1
  | .sink n => s.put (skP n) LGT_SKSTAT_COINCIDENT 1
  | .chain => s.put lch LCH_STAT_COINCIDENT 1

def tgtIsUncl (s : State) : Target → Bool
  | .str n => s.flag (stP n) LGT_STSTAT_UNCLAIMED
  | .sink n => s.flag (skP n) LGT_SKSTAT_UNCLAIMED
  | .chain => s.flag lch LCH_STAT_UNCLAIMED

def tgtIsSafe (s : State) : Target → Bool
  | .str n => stState s n == 3
  | .sink n => (s.sn n).safe
  | .chain => s.flag lch LCH_STAT_SAFE

/-- The LGT_FLT bit of a target follows its fault bits. -/
def lgtRefreshFlt (s : State) : Target → State
  | .str n => s.setBit (lgt + 0x20) n (bitsOf (s.rd (stP n + 0x1C)) 5 0 != 0)
  | .sink n => s.setBit (lgt + 0x20 + 4 * (1 + n / 24)) (n % 24) (bitsOf (s.rd (skP n + 0xC)) 28 25 != 0)
  | .chain => s

/-- LGT_FLT0 bit 8, the matrix: a row tripped or locked, or a cell open. -/
def mxRefreshFlt (s : State) : State :=
  s.setBit (lgt + 0x20) 8 (bitsOf (s.rd (lgt + 0x1004)) 32 17 != 0 ||
    (List.range 4).any (fun k => s.rd (lgt + 0x1010 + 4 * k) != 0))

/-- A fault bit of a string driver set (R255). -/
def stFault (s : State) (n : Nat) (b : Fld) : State := lgtRefreshFlt (s.put (stP n) b 1) (.str n)
/-- A fault bit of a sink set (R258). -/
def skFault (s : State) (n : Nat) (b : Fld) : State := lgtRefreshFlt (s.put (skP n) b 1) (.sink n)

/-! ### String drivers -/

/-- R255, R258, R264: the least measurable on-time in ticks. -/
def strMin : Nat := 2000
def sinkMin : Nat := 200

/-- Is the string driver's output on? -/
def strOn (s : State) (n : Nat) : Bool := (s.st n).want && !(s.st n).stopped && !(s.st n).latch

/-- A string driver commanded on or off; a turn-on edge ends a test (R265). -/
def strWant (s : State) (n : Nat) (on : Bool) : State :=
  s.setSt n (fun d =>
    if d.want == on then d
    else { d with
      want := on, edge := s.now, testEnd := if on then none else d.testEnd
      meas := d.meas + if d.want && !d.stopped && !d.latch then (s.now - d.edge).toNat - strMin else 0 })

/-- R255: the measurable on-time of a string driver up to now, in ticks, in its present mode. -/
def strMeas (s : State) (n : Nat) : Nat :=
  (s.st n).meas + if strOn s n then (s.now - (s.st n).edge).toNat - strMin else 0

/-- R264: the output was diagnosed in this tick; R266 where the age ends in it. -/
def strDiagnosed (s : State) (n : Nat) : State :=
  let s := s.when (s.now == (s.st n).aged + BitVec.ofNat 36 (ms (s.get (stP n) LGT_STDIAG_AGE)))
    (fun s => s.put (stP n) LGT_STSTAT_COINCIDENT 1)
  (s.setSt n (fun d => { d with aged := s.now })).put (stP n) LGT_STSTAT_UNDIAG 0

/-- R253, R264: the on-time in ticks of a period of `per` µs at duty `d`; in STRETCH every STRN-th short period, those
before it counted, is lengthened to the minimum. -/
def strOnTicks (s : State) (n per d : Nat) : Nat × Bool :=
  let t := us (per * d / 4095)
  if t < strMin && s.get (stP n) LGT_STDIAG_OPENMODE == 1 && decide (s.get (stP n) LGT_STDIAG_STRN ≤ (s.st n).short + 1) then
    (strMin, true)
  else (t, false)

/-- R264: an output that is on without a turn-off due has been measured up to now. -/
def strAged (s : State) (n : Nat) : State :=
  if strOn s n && (s.st n).offAt.isNone && decide (strMin ≤ (s.now - (s.st n).edge).toNat) then
    s.setSt n (fun d => { d with aged := s.now })
  else s

/-- R253: a dimming period begins, with the grant in force. -/
def strBegin (s : State) (n per duty : Nat) : State :=
  let s := strAged s n
  let d := match (s.st n).grant with | none => duty | some g => min g duty
  let t := strOnTicks s n per d
  let isShort := t.2 || t.1 < strMin
  let s := s.setSt n (fun e => { e with
    duty := duty, boundary := some (s.after (us per)), offAt := if us per ≤ t.1 || t.1 == 0 then none else some (s.after t.1),
    short := if t.2 || s.get (stP n) LGT_STDIAG_OPENMODE != 1 then 0 else if isShort then e.short + 1 else e.short })
  let s := (s.put (stP n) LGT_STACT_PERIOD per).put (stP n) LGT_STACT_GDUTY d
  let s := setDerated s (stP n) LGT_STSTAT_DERATED (decide (d < duty))
  let s := s.put (stP n) LGT_STSTAT_STRETCHED (isShort && s.get (stP n) LGT_STDIAG_OPENMODE == 1).toNat
  strWant s n (t.1 != 0)

/-- The dimming generator stopped. -/
def strStop (s : State) (n : Nat) : State :=
  ((strAged s n).setSt n (fun e => { e with boundary := none, offAt := none })).put (stP n) LGT_STSTAT_STRETCHED 0

/-- The end of a string driver's on-time. -/
def strServe (s : State) (n : Nat) : State :=
  let s := if strOn s n && (s.now - (s.st n).edge).toNat == strMin then strDiagnosed s n else s
  if s.due (s.st n).offAt then strWant (s.setSt n (fun e => { e with offAt := none })) n false else s

/-- Does the string driver run its dimming generator: PWM, or a SAFE that does? -/
def strRuns (s : State) (n : Nat) : Bool := (s.st n).boundary.isSome

/-- R273: MODE takes the value `m` (0 OFF, 1 ON, 2 PWM) from the mode in force. -/
def strMode (s : State) (n m : Nat) : State :=
  let s := s.setSt n (fun e => { e with mode := m, meas := 0, short := 0 })
  let s := s.when (m != 2) (fun s =>
    setDerated (s.setSt n (fun e => { e with grant := none })) (stP n) LGT_STSTAT_DERATED false)
  match m with
  | 0 => (strWant (strStop s n) n false).put (stP n) LGT_STSTAT_STATE 0
  | 1 => (strWant (strStop s n) n true).put (stP n) LGT_STSTAT_STATE 1
  | _ => (strBegin s n (s.st n).bufPer (s.st n).bufDuty).put (stP n) LGT_STSTAT_STATE 2

/-! ### Sinks -/

/-- R258: the bank's thermal latch. -/
def bankLatched (s : State) (n : Nat) : Bool := bitAt (s.rd (lgt + 4)) (30 + n / 8)

/-- R262: may row `r` conduct in its slot? -/
def rowOk (s : State) (r : Nat) : Bool :=
  !bitAt (s.rd (lgt + 0x1004)) (17 + r) && !s.light.matrix.tripped.contains r

/-- R260, R262: does the row that is scanned conduct? -/
def rowOn (s : State) : Bool := s.light.matrix.rowOff.isSome && rowOk s (s.get lgt LGT_MXSTAT_ROW)

/-- Is the sink conducting, a matrix column from its row? -/
def sinkOn (s : State) (n : Nat) : Bool := (s.sn n).want && !bankLatched s n && (!isColumn s n || rowOn s)

/-- A sink commanded on or off; a turn-on edge ends a test (R265). -/
def sinkWant (s : State) (n : Nat) (on : Bool) : State :=
  s.setSn n (fun d =>
    if d.want == on then d
    else { d with want := on, edge := s.now, testEnd := if on then none else d.testEnd })

def sinkDiagnosed (s : State) (n : Nat) : State :=
  let s := s.when (s.now == (s.sn n).aged + BitVec.ofNat 36 (ms (s.get (skP n) LGT_SKCFG_AGE)))
    (fun s => s.put (skP n) LGT_SKSTAT_COINCIDENT 1)
  (s.setSn n (fun d => { d with aged := s.now })).put (skP n) LGT_SKSTAT_UNDIAG 0

/-- R256: GSCALE × VAL × 100 mA / 65,025, the set current in µA, rounded down. -/
def sinkSet (s : State) (n : Nat) : Nat := 100000 * s.get lgt LGT_CTRL_GSCALE * (s.sn n).val / 65025

/-- R264: as for a string driver. -/
def sinkAged (s : State) (n : Nat) : State :=
  if sinkOn s n && decide (sinkMin ≤ (s.now - (s.sn n).edge).toNat) then s.setSn n (fun d => { d with aged := s.now })
  else s

/-- R257, R264: a sink's next pulse, `t` ticks from the edge `edge`; every STRN-th short one is stretched in STRETCH. -/
def sinkPlace (s : State) (n t : Nat) (edge : Word) : State :=
  let isShort := t < sinkMin && s.get (skP n) LGT_SKCFG_OPENMODE == 1
  let stretch := isShort && decide (s.get (skP n) LGT_SKCFG_STRN ≤ (s.sn n).short + 1)
  let len := if stretch then sinkMin else t
  let s := s.setSn n (fun e => { e with
    pulse := if len == 0 then none else some (edge, len),
    short := if stretch || s.get (skP n) LGT_SKCFG_OPENMODE != 1 then 0 else if isShort then e.short + 1 else e.short })
  s.put (skP n) LGT_SKSTAT_STRETCHED isShort.toNat

/-- R257: a sink's pulse for a shared period of `per` µs that begins now, at duty `d`. -/
def sinkBegin (s : State) (n per d : Nat) : State :=
  sinkPlace (sinkAged s n) n (per * 100 * d / 4095) (s.after (us (per * s.get (skP n) LGT_SKCFG_PHASE / 4096)))

/-- A sink's on-time ends; one that ends at the shared boundary waits for it, since the next pulse may follow at once. -/
def sinkEnd (s : State) (n : Nat) : State :=
  if s.due (s.sn n).offAt && !((s.sn n).pwm && (s.sn n).offAt == s.light.skNext) then
    sinkWant (s.setSn n (fun e => { e with offAt := none })) n false
  else s

/-- A sink's pulse begins, its on-time ends, its on-time becomes measurable. -/
def sinkServe (s : State) (n : Nat) : State :=
  let s := if sinkOn s n && (s.now - (s.sn n).edge).toNat == sinkMin then sinkDiagnosed s n else s
  match (s.sn n).pulse with
  | some (e, l) =>
    if s.reached e then
      let off := match (s.sn n).offAt with
        | some o => if reachedAt o (e + BitVec.ofNat 36 l) then o else e + BitVec.ofNat 36 l
        | none => e + BitVec.ofNat 36 l
      sinkWant (s.setSn n (fun k => { k with pulse := none, offAt := some off })) n true
    else sinkEnd s n
  | none => sinkEnd s n

/-- A sink's PWM stopped. -/
def sinkStop (s : State) (n : Nat) : State :=
  ((sinkAged s n).setSn n (fun e => { e with pwm := false, pulse := none, offAt := none })).put (skP n) LGT_SKSTAT_STRETCHED 0

/-- R257: a sink joins the shared period: the first one starts it, a later one waits for its next boundary. -/
def sinkJoin (s : State) (n duty : Nat) : State :=
  let s := sinkWant (sinkStop s n) n false
  let s := s.setSn n (fun e => { e with pwm := true, duty := duty })
  match s.light.skNext with
  | some _ => s
  | none =>
    let per := s.get lgt LGT_CTRL_SKPER
    sinkServe (sinkBegin { s with light := { s.light with skPer := per, skNext := some (s.after (us per)) } } n per duty) n

/-- R273: a sink's MODE takes the value `m`. -/
def sinkMode (s : State) (n m : Nat) : State :=
  let s := s.setSn n (fun e => { e with mode := m })
  match m with
  | 0 => (sinkWant (sinkStop s n) n false).put (skP n) LGT_SKSTAT_STATE 0
  | 1 => (sinkWant (sinkStop s n) n true).put (skP n) LGT_SKSTAT_STATE 1
  | _ => (sinkJoin s n (s.sn n).bufDuty).put (skP n) LGT_SKSTAT_STATE 2

/-- R275: the duty of cell (r, c): the active cell, or what the column's SAFE value gives. -/
def cellDuty (s : State) (r c : Nat) : Nat :=
  let d := s.light.matrix.cells.getD (16 * r + c) 0
  if (s.sn c).safe then
    match s.get (skP c) LGT_SKSAFEV_MODE with
    | 0 => 0 | 1 => 4095 | 2 => d | _ => s.get (skP c) LGT_SKSAFEV_DUTY
  else d

/-! ### Chain port -/

/-- R271, R275: LCH_STAT.PIN follows BLANK in force, in SAFE the SAFE value: MODE 0 releases it. -/
def chainPin (s : State) : State :=
  s.put lch LCH_STAT_PIN
    (if s.flag lch LCH_STAT_SAFE then s.get lch LCH_SAFEV_MODE == 1 else s.light.chain.blank).toNat

/-- R268: the nibs of each position, position 0 first: (first nib, count). -/
def chainPos (s : State) : List (Nat × Nat) :=
  let w0 := sectWord s 7 0
  let skip := 3 + countOnes w0 8
  ((s.sect 7).drop skip).foldl (fun l w =>
    let k := bitsOf w 35 29 / 8
    l ++ [((match l.getLast? with | some p => p.1 + p.2 | none => 0), k)]) []

/-- R268: the octets of a frame in the order sent, from buffer `b` (0 A, 1 B). -/
def chainOctets (s : State) (b : Nat) : List Nat :=
  let base := lch + 0x1000 + 0x1000 * b
  (chainPos s).reverse.flatMap (fun p => (List.range p.2).map (fun i =>
    let a := p.1 + i
    bitsOf (s.rd (base + a / 4 * 4)) (9 * (a % 4) + 7) (9 * (a % 4))))

/-- R270: a frame's length in ticks, a begun tick counting as whole. -/
def frameTicks (s : State) : Nat :=
  let clk := s.get lch LCH_LEN_CLK
  ((s.get lch LCH_LEN_NBITS + 1 + s.get lch LCH_CTRL_LATW) * 100 + (clk - 1)) / clk

/-- The levels of SCLK, SDATA and LATCH. -/
structure ChainPins where
  sclk  : Bool
  sdata : Bool
  latch : Bool
  deriving DecidableEq, Repr

/-- R270: the chain port's signals now: low without a frame; in one, the bits of `sent` with SCLK rising in the middle of
each, then LATCH high from one period after them until the frame ends. -/
def chainPins (s : State) : ChainPins :=
  let c := s.light.chain
  if c.frameEnd.isNone then ⟨false, false, false⟩
  else
    let n := s.get lch LCH_LEN_NBITS
    -- the time since the frame start, in SCLK periods times 100
    let x := (s.now - c.started).toNat * s.get lch LCH_LEN_CLK
    let i := x / 100
    { sclk := decide (i < n) && decide (50 ≤ x % 100)
      sdata := decide (i < n) && ((c.sent.getD (i / 8) 0) >>> (7 - i % 8)) % 2 == 1
      latch := decide ((n + 1) * 100 ≤ x) }

/-- R269: a frame starts now. -/
def chainStart (s : State) : State :=
  let s := s.put lch LCH_CTRL_GO 0
  let s := if s.flag lch LCH_CTRL_SWAP && !s.flag lch LCH_STAT_SAFE then
      (s.put lch LCH_STAT_ACTBUF (1 - s.get lch LCH_STAT_ACTBUF)).put lch LCH_CTRL_SWAP 0
    else s
  let s := s.put lch LCH_STAT_BUSY 1
  s.setChain (fun c => { c with
    frameEnd := some (s.after (frameTicks s)), queued := false, started := s.now,
    sent := chainOctets s (s.get lch LCH_STAT_ACTBUF) })

/-- R269: a start requested, queued one deep while a frame runs; a SWAP in the tick of a frame's start applies to that
frame. -/
def chainRequest (s : State) : State :=
  if !s.flag lch LCH_CTRL_EN then s
  else if s.light.chain.frameEnd.isNone then chainStart s
  else if s.light.chain.started = s.now && s.flag lch LCH_CTRL_SWAP && !s.flag lch LCH_STAT_SAFE then chainStart s
  else s.setChain (fun c => { c with queued := true })

/-! ### SAFE, hold and reclaim -/

/-- R275: a target enters SAFE (from OFF, ON or PWM; a LOCKED string driver stays LOCKED). -/
def lightSafe (s : State) (t : Target) : State :=
  match t with
  | .str n =>
    if stState s n == 4 || stState s n == 3 then s
    else
      let s := (s.put (stP n) LGT_STSTAT_STATE 3).setSt n (fun e => { e with meas := 0 })
      match s.get (stP n) LGT_STSAFEV_MODE with
      | 0 => strWant (strStop s n) n false
      | 1 => strWant (strStop s n) n true
      | 2 => s
      | _ => if strRuns s n then s
             else strBegin s n (s.get (stP n) LGT_STACT_PERIOD) (s.get (stP n) LGT_STSAFEV_DUTY)
  | .sink n =>
    if (s.sn n).safe then s
    else
      let col := isColumn s n
      let s := s.setSn n (fun e => { e with safe := true })
      if col then s
      else
        let s := s.put (skP n) LGT_SKSTAT_STATE 3
        match s.get (skP n) LGT_SKSAFEV_MODE with
        | 0 => sinkWant (sinkStop s n) n false
        | 1 => sinkWant (sinkStop s n) n true
        | 2 => s
        | _ => if (s.sn n).pwm then s.setSn n (fun e => { e with duty := s.get (skP n) LGT_SKSAFEV_DUTY })
               else sinkJoin s n (s.get (skP n) LGT_SKSAFEV_DUTY)
  | .chain => chainPin (s.put lch LCH_STAT_SAFE 1)

/-- R253, R275: the period and duty the next dimming period takes. -/
def strNext (s : State) (n : Nat) : Nat × Nat :=
  let e := s.st n
  if stState s n == 3 then
    (s.get (stP n) LGT_STACT_PERIOD,
      if s.get (stP n) LGT_STSAFEV_MODE == 3 then s.get (stP n) LGT_STSAFEV_DUTY else e.duty)
  else (e.bufPer, e.bufDuty)

/-- The blanking interval begins: every row and column off. -/
def mxBlank (s : State) : State :=
  s.each (List.range 16) (fun s c =>
    sinkWant (s.setSn c (fun e => { e with pulse := none, offAt := none })) c false)

/-- R260: the scan stops. -/
def mxStop (s : State) : State :=
  mxBlank (s.setMx (fun m => { m with nextSlot := none, rowOff := none, tripped := [] }))

/-- R275: is a matrix column in SAFE? -/
def mxSafe (s : State) : Bool := (List.range 16).any (fun c => isColumn s c && (s.sn c).safe)

/-- R275: with the last column reclaimed a scan that went on after EN = 0 stops. -/
def mxReclaimed (s : State) : State :=
  if mxSafe s || s.flag lgt LGT_MXCTRL_EN then s else mxStop s

/-- R273–R275: a target is reclaimed and follows its stored command from this tick; a SWAP stored in SAFE takes effect. -/
def lightReclaim (s : State) (t : Target) : State :=
  if !(tgtIsUncl s t || tgtIsSafe s t) then s
  else
    let wasSafe := tgtIsSafe s t
    let s := tgtUncl (s.when (s.beat.holdEnd == some s.now) (fun s => tgtCoincident s t)) t false
    match t with
    | .str n =>
      let m := s.get (stP n) LGT_STCMD_MODE
      let old := (s.st n).mode
      let s := s.setSt n (fun e => { e with
        iset := s.get (stP n) LGT_STSET_ISET, bufPer := s.get (stP n) LGT_STPWM_PERIOD,
        bufDuty := s.get (stP n) LGT_STPWM_DUTY })
      if stState s n == 4 then s.setSt n (fun e => { e with mode := m })
      else
        if m == old && m == 2 && strRuns s n then s.put (stP n) LGT_STSTAT_STATE 2
        else if m == old && !wasSafe then s
        else strMode s n m
    | .sink n =>
      let s := s.setSn n (fun e => { e with safe := false, val := s.get (skP n) LGT_SKCMD_VAL, bufDuty := s.get (skP n) LGT_SKPWM_DUTY })
      if isColumn s n then mxReclaimed s
      else
        let m := s.get (skP n) LGT_SKCMD_MODE
        if m == (s.sn n).mode && m == 2 && (s.sn n).pwm then
          s.put (skP n) LGT_SKSTAT_STATE 2
        else if m == (s.sn n).mode && !wasSafe then s
        else sinkMode s n m
    | .chain =>
      let s := chainPin ((s.put lch LCH_STAT_SAFE 0).setChain (fun c => { c with blank := s.flag lch LCH_CTRL_BLANK }))
      if wasSafe && s.flag lch LCH_CTRL_SWAP then chainRequest s else s

/-- R143, R273: every used target that is not LOCKED enters SAFE. -/
def lightAllSafe (s : State) : State := s.each (Target.all.filter (tgtUsed s)) lightSafe

/-- R274: a hold starts: every used target unclaimed. -/
def lightHold (s : State) : State := s.each (Target.all.filter (tgtUsed s)) (fun s t => tgtUncl s t true)

/-- R145, R273: a hold ends: unclaimed targets enter SAFE. -/
def lightHoldEnd (s : State) : State := s.each (Target.all.filter (fun t => tgtUsed s t && tgtIsUncl s t)) lightSafe

end Sys2Proof.Machine
end

