-- ==== Sys2Proof/Machine/ChanState.lean ====
section
/-! DEFINITION. How a channel moves between its states (R121), the heartbeat, the hold and the reclaim (R141–R148). -/

namespace Sys2Proof.Machine

/-! ### SAFE values and the off-state test -/

/-- R144: is the function the FEED of a stroke engine? -/
def isStkFeed (s : State) (f : Nat) : Bool := (profList (s.sect 5)).any (fun p => p.feed == f)

/-- R144: the SAFE MODE that acts: on an owned channel MODE 2 acts as 0, and a stroke engine's SEL channel stays off. -/
def safeMode (s : State) (f : Nat) : Nat :=
  let m := s.get (pscP f) PSC_SAFEV_MODE
  match s.get (pscP f) PSC_STRUCT_OWNER with
  | 0 => m
  | 1 => if isStkFeed s f && m != 2 then m else 0
  | _ => if m == 2 then 0 else m

/-- R137: is the channel eligible for the off-state test? -/
def offEligible (s : State) (f : Nat) : Bool :=
  chState s f == stOff || (chState s f == stSafe && safeMode s f == 0)

/-- R137: the schedule of the off-state test starts with eligibility and ends with it. -/
def syncTests (s : State) (f : Nat) : State :=
  if offEligible s f && s.get (pscP f) PSC_DIAG_OFFD != 0 then
    if (s.ch f).testAt.isSome then s
    else s.setCh f (fun c => { c with testAt := some (s.after (ms (s.get (pscP f) PSC_DIAG_OFFPER))) })
  else s.setCh f (fun c => { c with testAt := none, testPhase := 0, testEnd := none })

/-- R137: a write that changes OFFD or OFFPER restarts the schedule. -/
def restartTests (s : State) (f : Nat) : State :=
  syncTests (s.setCh f (fun c => { c with testAt := none, testPhase := 0, testEnd := none })) f

/-- The channel's PSG_FLT bit follows its PSC_FAULT bits (R138). -/
def refreshFlt (s : State) (f : Nat) : State :=
  s.setBit (Blk.psg.base + PSG_FLT_FLT.off + 4 * (f / 24)) (f % 24) (bitsOf (s.rd (pscP f + 0x28)) 14 1 != 0)

/-- R133: the odd page's PSC_STAT and PSC_FAULT mirror the even page's. -/
def mirrorPair (s : State) (f : Nat) : State :=
  if isEven s f then
    let s := s.wr (pscP (f + 1) + 0x24) (putBit (s.rd (pscP f + 0x24)) 30 true)
    refreshFlt (s.wr (pscP (f + 1) + 0x28) (s.rd (pscP f + 0x28))) (f + 1)
  else s

/-- What every change of state ends with. -/
def settle (s : State) (f : Nat) : State := mirrorPair (refreshFlt (syncTests s f) f) f

/-! ### Entering SAFE -/

/-- A channel's grant and DERATED end: what it keeps is no commanded duty (R144, R171). -/
def dropGrant (s : State) (f : Nat) : State :=
  setDerated (s.setCh f (fun c => { c with grant := none })) (pscP f) PSC_STAT_DERATED false

/-- R144: the channel takes its SAFE value; a window opens where a switch that was off turns on (R158), not at a retry's
restart.  MODE 2 keeps the duty in force, the grant included; after a trip it keeps the switch off that the trip turned
off (log entry 84). -/
def safeValue (s : State) (f : Nat) (window : Bool) : State :=
  let c := s.ch f
  let isOff := !c.hs
  match safeMode s f with
  | 0 => dropGrant (allOff s f) f
  | 1 =>
    let s := dropGrant (drive (stopGen s f) f true false false) f
    if window && isOff then openWindow s f else s
  | 2 => dropGrant (s.setCh f (fun c => { c with
      duty := if c.boundary.isSome then s.get (pscP f) PSC_PWMACT_GDUTY else c.duty })) f
  | _ =>
    if c.boundary.isSome then
      let s := s.setCh f (fun c => { c with
        perMode := 2, swAt := c.swAt.filter (fun w => !w.ls) })
      if (s.ch f).ls then setSw s f (s.ch f).hs false true else s
    else
      let s := s.setCh f (fun c => { c with winPend := window && isOff })
      beginPeriod s f 2 (s.get (pscP f) PSC_PWMACT_PERIOD) (s.get (pscP f) PSC_SAFEV_DUTY) true

/-- The channel enters SAFE from a state other than RETRY, LOCKED and SAFE; its engine stops (R144). -/
def enterSafe (s : State) (f : Nat) : State :=
  let s := stopOwner s f .safe
  settle (safeValue (setChState s f stSafe) f true) f

/-- R121, R122: a hold or the supervision expires for one function. -/
def expireToSafe (s : State) (f : Nat) : State :=
  let st := chState s f
  if st ≤ stMotion then enterSafe s f
  else if st = stRetry then s.setCh f (fun c => { c with ret := stSafe })
  else s

/-- R579, R140: a channel-level SAFE; a channel in RETRY or LOCKED follows R122. -/
def chanSafe (s : State) (f : Nat) : State := if chState s f = stSafe then s else expireToSafe s f

/-! ### MODE -/

/-- The state a MODE names (R121). -/
def modeState (m : Nat) : Nat := match m with | 0 => stOff | 1 | 3 => stOn | _ => stPwm

/-- R121: MODE `m` acts on a channel in OFF, ON, PWM or, at a reclaim, SAFE. -/
def toMode (s : State) (f m : Nat) : State :=
  let st := chState s f
  let c := s.ch f
  let window := (st == stOff || st == stSafe) && !c.hs && !c.ls
  let s := s.setCh f (fun c => { c with mode := m })
  if m = 0 then settle (setChState (allOff s f) f stOff) f
  else if m = 1 || m = 3 then
    let s := setChState s f stOn
    let s := drive (stopGen s f) f (m == 1) (m == 3) false
    settle (if window then openWindow s f else s) f
  else if st == stPwm then s
  else
    let s := stopGen (setChState s f stPwm) f
    let s := s.setCh f (fun c => { c with winPend := window })
    settle (beginPeriod s f m (s.ch f).bufPer (s.ch f).bufDuty true) f

/-- R148: does a write of PSC_CMD or PSC_PWM act now? -/
def commandActs (s : State) (f : Nat) : Bool := !unclaimed s f && chState s f != stSafe

/-- A MODE write that was accepted: it acts (R121), changes the return state (R166), or is stored (R148). -/
def modeWritten (s : State) (f old new : Nat) : State :=
  if old = new || !commandActs s f then s
  else
    let st := chState s f
    if st = stRetry then s.setCh f (fun c => { c with mode := new, ret := modeState new })
    else if st = stLocked || st = stParkon then s.setCh f (fun c => { c with mode := new })
    else toMode s f new

/-! ### Trips, locks and restarts -/

/-- The PSC_FAULT bit and the LCAUSE code of a trip. -/
def tripFault : TripCause → Fld
  | .therm => PSC_FAULT_THERM | .sc => PSC_FAULT_SC | .ilimt => PSC_FAULT_ILIMT | .wire => PSC_FAULT_WIRE
def tripCode : TripCause → Nat | .therm => 4 | .sc => 1 | .ilimt => 2 | .wire => 3

/-- R152: the regulation times of a function's switches are 0. -/
def limReset (s : State) (f : Nat) : State :=
  s.each (members s f) (fun s g => s.setCh g (fun c => { c with limHi := .reset, limLo := .reset }))

/-- LOCKED is entered with a cause (R121); the engine stops. -/
def enterLocked (s : State) (f cause : Nat) : State :=
  let s := stopOwner s f .trip
  let s := (limReset (allOff s f) f).setCh f (fun c => { c with retryAt := none })
  let s := setFault (setChState s f stLocked) f PSC_FAULT_LOCK
  settle (s.put (pscP f) PSC_FAULT_LCAUSE cause) f

/-- RETRY is entered with a delay in ticks. -/
def enterRetry (s : State) (f st delay : Nat) : State :=
  let s := stopOwner s f .trip
  let s := (limReset (allOff s f) f).setCh f (fun c => { c with retryAt := some (s.after delay), ret := st })
  settle (setChState s f stRetry) f

/-- R167: the decision order at a trip of function `f` with the causes of this tick; `odd` marks the odd member. -/
def trip (s : State) (f : Nat) (causes : List TripCause) (odd : Bool) : State :=
  let st := chState s f
  if !(1 ≤ st && st ≤ 4 || st == stSafe) then s
  else
    let p := pscP f
    let s := s.each causes (fun s c => setFault s f (tripFault c))
    let s := s.setCh f (fun c => { c with
      quiet := s.now, wireTrip := c.wireTrip || causes.contains .wire
      tripped := some (s.now, s.get p PSC_PROT_RLEFT, s.get p PSC_PROT_INRLEFT) })
    if causes.all (· == .ilimt) && windowOpen s f && s.get p PSC_PROT_INRLEFT != 0 then
      let s := s.when ((s.ch f).winEnd == some s.now) (fun s => s.put p PSC_STAT_COINCIDENT 1)
      let s := s.put p PSC_PROT_INRLEFT (s.get p PSC_PROT_INRLEFT - 1)
      enterRetry s f st (us (50 * s.get p PSC_INRUSH_INT))
    else
      let first := if causes.contains .therm then TripCause.therm else if causes.contains .sc then .sc
        else if causes.contains .ilimt then .ilimt else .wire
      if s.get p PSC_PROT_RLEFT = 0 then enterLocked s f (if odd then 7 else tripCode first)
      else
        let s := s.put p PSC_PROT_RLEFT (s.get p PSC_PROT_RLEFT - 1)
        enterRetry s f st (ms (s.get p PSC_RETRY_RDLY))

/-- Is a thermal latch of the channel set (R163)? -/
def latched (s : State) (f : Nat) : Bool := (s.ch f).latch0 || (s.ch f).latch1

/-- T_LIM and T_REL of the function's WIRE entry (R63). -/
def wireLim (s : State) (f : Nat) : Option (Nat × Nat) :=
  (wireEntry s f).map (fun e => (entBits e 2 35 27, entBits e 2 26 18))

/-- R156, R167: ti below T_LIM, and, after a wire trip, at or below T_REL (log entry 85). -/
def wireReleased (s : State) (f : Nat) (needRel : Bool) : Bool :=
  match wireLim s f with
  | none => true
  | some (lim, rel) =>
    decide ((s.ch f).ti < (lim * 1024 : Nat)) && (!needRel || decide ((s.ch f).ti ≤ (rel * 1024 : Nat)))

/-- R167: may a channel in RETRY leave it now? -/
def restartOk (s : State) (f : Nat) : Bool :=
  ((s.ch f).ret == stOff || s.due (s.ch f).retryAt) && !latched s f && wireReleased s f (s.ch f).wireTrip

/-- R167: RETRY is left for the return state; no window opens (R158). -/
def restart (s : State) (f : Nat) : State :=
  let c := s.ch f
  let s := s.setCh f (fun c => { c with retryAt := none, wireTrip := false, quiet := s.now })
  let s := s.each (members s f) (fun s g => s.setCh g (fun m => { m with misSafe := none }))
  let s := setChState s f c.ret
  let s :=
    if c.ret = stOn then drive s f (c.mode != 3) (c.mode == 3) false
    else if c.ret = stPwm then beginPeriod s f (if c.mode = 4 then 4 else 2) c.bufPer c.bufDuty true
    else if c.ret = stSafe then safeValue s f false
    else s
  settle s f

/-- The state an unlock or a reclaim gives an owned channel: PROFILE or MOTION; OFF for a direct one. -/
def ownedState (s : State) (f : Nat) : Nat :=
  match s.get (pscP f) PSC_STRUCT_OWNER with | 0 => stOff | 1 => stProfile | _ => stMotion

/-- R169: do the release conditions of a LOCKED function hold?  With LCAUSE 7 and several cause bits set, T_REL is asked for
only where WIRE is the only one (log entry 86). -/
def releaseOk (s : State) (f : Nat) : Bool :=
  let p := pscP f
  let bkt := (s.ch f).bucket
  let cap := s.get p PSC_CLAMP_CAP
  let base := !latched s f && wireReleased s f false && decide (s.get p PSC_PROT_BKT ≤ cap)
  let isWire := s.flag p PSC_FAULT_WIRE && !s.flag p PSC_FAULT_THERM && !s.flag p PSC_FAULT_SC && !s.flag p PSC_FAULT_ILIMT
  match s.get p PSC_FAULT_LCAUSE with
  | 3 => base && wireReleased s f true
  | 5 => base && decide (bkt * 2 < cap * 10000)
  | 6 => false
  | 7 => base && (!isWire || wireReleased s f true)
  | _ => base

/-- R121, R165: a LOCKED function is unlocked. -/
def unlock (s : State) (f : Nat) : State :=
  let p := pscP f
  let s := (s.put p PSC_FAULT_LCAUSE 0).put p PSC_FAULT_LOCK 0
  let s := s.put p PSC_PROT_RLEFT (s.get p PSC_RETRY_RMAX)
  let s := s.setCh f (fun c => { c with wireTrip := false, quiet := s.now, mode := 0 })
  settle (setChState s f (ownedState s f)) f

/-! ### Held-off and latched switches -/

/-- A switch begins or ceases to conduct without a command (R163, R176): its samples and regulation time start anew. -/
def conductChanged (s : State) (f : Nat) : State :=
  let s := s.each (members s f) (fun s g => s.setCh g (fun c => { c with
    limHi := ⟨none, 0, some s.now⟩, limLo := ⟨none, 0, some s.now⟩ }))
  showDp (s.setCh f (fun c => { c with sampFrom := s.after (olMin f) })) f

/-- R176: each channel on a feed is held off while the feed's hold-offs require it; an engine whose channel is held off
stops (R218, R227). -/
def applyHolds (s : State) (feed : Nat) : State :=
  let h := s.beat.feedHold.getD feed (false, false)
  s.each ((usedFuncs s).filter (fun f => feedOf f == feed)) (fun s f =>
    let hold := h.2 || (h.1 && !s.flag (pscP f) PSC_STRUCT_CRANK)
    if (s.ch f).held == hold then s
    else
      let s := if hold then stopOwner s f .supply else s
      conductChanged (s.setCh f (fun c => { c.sampled s.now with held := hold })) f)

/-- R176: the hold-offs weighed again for every feed. -/
def reholds (s : State) : State := s.each (List.range 4) applyHolds

/-! ### Heartbeat and hold -/

/-- R142: the supervision timer starts at HB_TO. -/
def beatStart (s : State) : State :=
  let s := s.put Blk.psg.base PSG_STAT_HBRUN 1
  { s with beat := { s.beat with
      deadline := some (s.after (ms (s.get Blk.psg.base PSG_SAFECFG_HB_TO))), paused := false } }

/-- Supervision stops counting. -/
def beatStop (s : State) : State :=
  { s.put Blk.psg.base PSG_STAT_HBRUN 0 with beat := { s.beat with deadline := none } }

/-- R143: supervision expires, or FSAFE acts as if it did (R578). -/
def beatExpire (s : State) : State :=
  let s := (beatStop s).put Blk.psg.base PSG_STAT_HBEXP 1
  lightAllSafe (s.each (usedFuncs s) expireToSafe)

/-- R145 step 1: a hold starts unless one runs. -/
def holdStart (s : State) (src : Nat) : State :=
  let b := Blk.psg.base
  if s.flag b PSG_STAT_HOLDACT then s
  else
    let s := (s.put b PSG_STAT_HOLDACT 1).put b PSG_STAT_HOLDSRC src
    let s := (s.put b PSG_HOLD_REMAIN (s.get b PSG_SAFECFG_HOLD)).put b PSG_HB_SEQ 0
    let s := beatStop s
    let s := { s with beat := { s.beat with
      holdEnd := some (s.after (ms (s.get b PSG_SAFECFG_HOLD))), paused := true } }
    lightHold (s.each (usedFuncs s) (fun s f => setUnclaimed s f true))

/-- R145 step 5: the hold ends. -/
def holdEnd (s : State) : State :=
  let b := Blk.psg.base
  let s := s.each ((usedFuncs s).filter (unclaimed s)) expireToSafe
  let s := lightHoldEnd s
  let s := (s.put b PSG_STAT_HOLDACT 0).put b PSG_HOLD_REMAIN 0
  let resume := s.beat.paused && s.flag b PSG_CTRL_HBEN
  let s := { s with beat := { s.beat with holdEnd := none, paused := false } }
  if resume then beatStart s else s

/-- R146–R148: one function reclaimed. -/
def reclaim (s : State) (f : Nat) : State :=
  let st := chState s f
  if !(unclaimed s f || st == stSafe) then s
  else
    let p := pscP f
    let s := s.when (s.beat.holdEnd == some s.now) (fun s => s.put p PSC_STAT_COINCIDENT 1)
    let s := setUnclaimed s f false
    let m := s.get p PSC_CMD_MODE
    let s := s.setCh f (fun c => { c with
      bufPer := s.get p PSC_PWM_PERIOD, bufDuty := s.get p PSC_PWM_DUTY, phase := s.rd (p + 8) })
    let c := s.ch f
    if st = stSafe then
      if s.get p PSC_STRUCT_OWNER != 0 then settle (setChState (allOff s f) f (ownedState s f)) f
      else if (m = 2 || m = 4) && (c.mode = 2 || c.mode = 4) && c.boundary.isSome then
        settle (setChState (s.setCh f (fun c => { c with mode := m })) f stPwm) f
      else toMode s f m
    else if m = c.mode || s.get p PSC_STRUCT_OWNER != 0 then mirrorPair s f
    else mirrorPair (modeWritten s f c.mode m) f

end Sys2Proof.Machine
end

