-- ==== Sys2Proof/Machine/SafeOps.lean ====
section
/-! DEFINITION. The cores as the blocks see them, and the fault manager: recording a fault and making its reactions
(R574, R578, R581, R609). -/

namespace Sys2Proof.Machine

/-! ### Cores and pairs -/

/-- A core. -/
def State.core (s : State) (c : Nat) : Core := s.cores.getD c (.reset .trust)
def State.setCore (s : State) (c : Nat) (g : Core → Core) : State := { s with cores := s.cores.set c (g (s.core c)) }

/-- A change to every core. -/
def State.mapCores (s : State) (g : Core → Core) : State := { s with cores := s.cores.map g }

/-- R463: a write to nibs `a` to `a + n - 1` ends every core's reservation on their granules, the writer's own included. -/
def loseResv (s : State) (a n : Nat) : State :=
  s.mapCores (fun k => match k.resv with
    | some g => if decide (g < a + n) && decide (a < g + 16) then { k with resv := none } else k
    | none => k)

/-- A write to Inkwell by a requester that is no core (R463). -/
def State.dmaPut (s : State) (a : Nat) (ns : List Nib) : State := loseResv (s.putNibs a ns) a ns.length

/-- R76, R456: does GUAR lock the pair (0 A, 1 B)? -/
def pairLocked (s : State) (p : Nat) : Bool := bitAt (sectWord s 15 0) (34 - p)

/-- The cores of a pair. -/
def pairCores (p : Nat) : List Nat := [2 * p, 2 * p + 1]

/-- R457: the odd core of a locked pair follows its even core and is nobody's target. -/
def coreIdle (s : State) (c : Nat) : Bool := c == 1 && pairLocked s 0 || c == 3 && pairLocked s 1

/-- The heartbeat owner is pair `p` (R141). -/
def ownsBeat (s : State) (p : Nat) : Bool := s.get Blk.psg.base PSG_CTRL_OWNER == p + 1

/-! ### The fault manager -/

def safeB : Nat := 0x40040000

/-- R572: SAFE_STAT.GACT and LATE follow their conditions. -/
def updateGact (s : State) : State :=
  let late := bitsOf (s.rd (safeB + 0x20)) 35 31 != 0
  let s := s.put safeB SAFE_STAT_LATE late.toNat
  let ok := bitAt (sectWord s 15 0) 35 && !late && !s.flag safeB SAFE_STAT_RANGE && !s.flag safeB SAFE_STAT_TAMP
    && (!bitAt (sectWord s 15 0) 32 || pairLocked s 0) && (!bitAt (sectWord s 15 0) 31 || pairLocked s 1)
  s.put safeB SAFE_STAT_GACT ok.toNat

/-- R580: does a fault of the class leave a cause that lasts (classes 5, 6 and 8 are events)? -/
def causeLasts (cls : Nat) : Bool := !(cls == 5 || cls == 6 || cls == 8)

def addCause (s : State) (cls idx : Nat) : State :=
  if causeLasts cls then
    { s with safe := { s.safe with
        causes := s.safe.causes.filter (fun c => !(c.cls == cls && c.idx == idx)) ++ [⟨cls, idx, s.now⟩] } }
  else s

/-- The cause of a fault ends (R580). -/
def dropCause (s : State) (p : Cause → Bool) : State :=
  { s with safe := { s.safe with causes := s.safe.causes.filter (fun c => !p c) } }

/-- R581: the fault record. -/
def recordFault (s : State) (cls idx : Nat) : State :=
  let s := s.setBit (safeB + 0xC) cls true
  let s := s.satField safeB SAFE_FLT_COUNT
  let newer := !s.flag safeB SAFE_FLT_VALID ||
    (s.rd (safeB + 8) == s.now && decide (cls < s.get safeB SAFE_FLT_CLASS))
  if newer then
    (((s.put safeB SAFE_FLT_VALID 1).put safeB SAFE_FLT_CLASS cls).put safeB SAFE_FLT_INDEX idx).wr (safeB + 8) s.now
  else s

/-- R578, R579: FSAFE acts as a heartbeat expiry and is latched. -/
def fsafe (s : State) : State := (beatExpire s).put safeB SAFE_STAT_FSL 1

/-- R581: an FSAFE acts at the end of its tick, after the refreshes and reclaims that the tick accepts. -/
def fsafeDue (s : State) : State := { s with safe := { s.safe with fsDue := true } }

/-- An FSAFE that has waited for the end of the tick acts. -/
def fsafeServe (s : State) : State :=
  s.when s.safe.fsDue (fun s => fsafe { s with safe := { s.safe with fsDue := false } })

/-- REST, PARK or CAPPED. -/
def isDown (s : State) : Bool := s.pwr.state == .rest || s.pwr.state == .park || s.pwr.state == .capped

/-- R573, R582: does the fault manager find faults of the class?  It stops with a lost PLL1; in a park state the always-on
island keeps those of the clocks, the supply and the channels. -/
def managerRuns (s : State) (cls : Nat) : Bool :=
  !s.pwr.pll1Lost && (!isDown s || cls == 9 || cls == 10 || cls == 11 || cls == 12)

/-- The pair a class's fault concerns: class 1 A, 2 B, 4 the pair of the core. -/
def faultPair (cls idx : Nat) : Option Nat :=
  match cls with | 1 => some 0 | 2 => some 1 | 4 => some (idx / 2) | _ => none

/-- A core stops at once: its requests are discarded, its clock stands (R468, R578). -/
def haltCore (s : State) (c : Nat) : State := s.setCore c (fun k => { k with stopped := true })

/-- R574, R578: a fault of a class is detected: recorded, and every reaction its class selects is made.  ACCOFF of class
3 is made by the rows that raise it. -/
def safeDetect (s : State) (cls idx : Nat) : State :=
  if !managerRuns s cls then s
  else
  let s := addCause (recordFault s cls idx) cls idx
  let reg := safeB + 0x40 + 4 * (cls - 1)
  let fixed9 := cls == 9 && (idx == 0 || idx == 2)
  let r := s.rd reg
  let alarm := if fixed9 then false else bitAt r 35
  let fsel := if fixed9 then true else bitAt r 34
  let faultn := if fixed9 then true else bitAt r 31
  let rst := if fixed9 then 0 else bitsOf r 33 32
  -- HALT
  let s := match cls with
    | 1 | 2 => s.each (pairCores (cls - 1)) haltCore
    | 3 => haltCore s 4
    | _ => s
  let fs := match faultPair cls idx with | some p => fsel && ownsBeat s p | none => fsel
  let s := s.when fs fsafeDue
  let s := s.when alarm (fun s => s.put safeB SAFE_STAT_ALM 1)
  let s := s.when faultn (fun s => s.put safeB SAFE_STAT_FAULTN 1)
  let due : List (Nat × Nat × Word) :=
    match rst, faultPair cls idx with
    | 1, some p => [(1, p, s.after 500)]
    | 2, _ => [(2, 0, s.after 500)]
    | _, _ => []
  updateGact { s with safe := { s.safe with resetDue := s.safe.resetDue ++ due } }

/-! ### Memory words beyond correction -/

/-- The array of a memory address (R574, class 5): 0–3 tightly coupled memory, 4 Inkwell, 5 Signet private, 6 message
memory; or a region of the Vellum read map (class 6), counted in the order of R26. -/
def setBad (s : State) (a : Nat) : State :=
  if s.safe.badWords.contains (a / 4 * 4) then s
  else { s with safe := { s.safe with badWords := s.safe.badWords ++ [a / 4 * 4] } }

/-- An uncorrectable error found: class 5 or 6, its address kept. -/
def eccFault (s : State) (cls idx a : Nat) : State :=
  safeDetect ((setBad s a).put safeB SAFE_ECCADDR_ADDR a) cls idx

end Sys2Proof.Machine
end

