-- ==== Sys2Proof/Machine/Wake.lean ====
section
/-! DEFINITION. Wake sources: what a detection records, aborts and starts (R562–R565, R616). -/

namespace Sys2Proof.Machine

def pwrB : Nat := 0x40010000
def aonB : Nat := 0x40020000

def setPwr (s : State) (g : PwrSt → PwrSt) : State := { s with pwr := g s.pwr }

/-- The code of a power state (R556). -/
def PState.code : PState → Nat | .run => 0 | .lift => 2 | .rest => 3 | .park => 4 | .capped => 5

/-- R562, R616: an entry that runs is aborted; in its commit tick COINCIDENT is set too. -/
def entryAbort (s : State) : State :=
  match s.pwr.entry with
  | none => s
  | some (_, t) =>
    let s := s.when (t == s.now) (fun s => s.put pwrB PWR_STAT_COINCIDENT 1)
    setPwr ((s.put pwrB PWR_STAT_ENTRY 0).put pwrB PWR_IR_ABORT 1) (fun p => { p with entry := none })

/-- The stages of an exit, in order (R566): REST needs no oscillator stage, and its memories return within logic. -/
def wakeStages (from_ : PState) : List WakeStage :=
  if from_ = .rest then [.regulator, .pll, .logic] else [.regulator, .oscillator, .pll, .memory, .logic, .boot]

/-- R563, R566: the wake sequence begins at the regulator; within the 200 µs of R561 step 4, at the first stage already
undone, which the spec leaves open. -/
def wakeStart (s : State) : State :=
  if s.pwr.stage.isSome || s.pwr.retryDue then s
  else
    let stages := (wakeStages s.pwr.state).filter (· != .boot)
    let early := decide ((s.now - s.tbRec).toNat ≤ us 200)
    let first := if early then (stages[s.free.toNat % stages.length]?).getD .regulator else .regulator
    let s := s.when early State.drawn
    let s := (s.wr (pwrB + 0x18) (setBits 0 35 33 s.pwr.state.code)).wr (pwrB + 0x1C) 0
    setPwr s (fun p => { p with stage := some first, from_ := p.state, retried := false, wakeTick := s.now })

/-- R564: does source bit `i` of AON_WAKEEN wake from the present state? PKF from PARK alone. -/
def wakesFrom (s : State) (i : Nat) : Bool := isDown s && (i != 23 || s.pwr.state == .park)

/-- R565: the source of bit `i` completes its detection: recorded while enabled (the RTC alarm always); an entry that
runs is aborted, and a state of R564 is left. -/
def wakeDetect (s : State) (i : Nat) : State :=
  let en := bitAt (s.rd aonB) i
  let s := s.when (en || i == 26) (fun s => s.raise (aonB + 4) i)
  if !en then s else if wakesFrom s i then wakeStart s else entryAbort s

end Sys2Proof.Machine
end

