-- ==== Sys2Proof/Machine/Nmg.lean ====
section
/-! DEFINITION. Network sleep and wake: the NMG engine and the transceivers (R383–R401). -/

namespace Sys2Proof.Machine

/-- R71: a bit of NETW word 0. -/
def netBit (s : State) (i : Nat) : Bool := bitAt (sectWord s 10 0) i

def canB (n : Nat) : Nat := 0x40200000 + n * 0x10000
def ethB (p : Nat) : Nat := 0x40400000 + p * 0x10000

def nmgB : Nat := 0x40280000
/-- The page of channel `c`, and its wake-frame page. -/
def nmgP (c : Nat) : Nat := nmgB + 0x100 + c * 0x40
def wufP (c : Nat) : Nat := nmgB + 0x400 + c * 0x20

def State.nm (s : State) (c : Nat) : NmgCh := s.nmgs.getD c .reset
def State.setNm (s : State) (c : Nat) (g : NmgCh → NmgCh) : State := { s with nmgs := s.nmgs.set c (g (s.nm c)) }

/-- R383: does NETW mark the channel's port present? -/
def nmgPresent (s : State) (c : Nat) : Bool := if c < 8 then netBit s (28 + c) else decide (c < 12) && netBit s (12 + (c - 8))

/-- The port's own enable, and whether it is active. -/
def portEn (s : State) (c : Nat) : Bool :=
  if c < 8 then s.flag (canB c) CAN_CTRL_EN else s.flag (ethB (c - 8)) ETH_CTRL_EN
def portActive (s : State) (c : Nat) : Bool :=
  if c < 8 then s.flag (canB c) CAN_STAT_ACTIVE else s.flag (ethB (c - 8)) ETH_STAT_ACTIVE

def nmgState (s : State) (c : Nat) : Nat := s.get (nmgP c) NMG_STAT_STATE
def nmgIrq (s : State) (c i : Nat) : State := s.raise (nmgP c + 0x18) i

/-- The transceiver's mode, as XMODE shows it. -/
def setXmode (s : State) (c m : Nat) : State := (s.setNm c (fun k => { k with xmode := m })).put (nmgP c) NMG_STAT_XMODE m

/-- R394: FEC is cleared at each entry into LOWPWR. -/
def xLow (s : State) (c : Nat) : State :=
  let s := setXmode s c 1
  if c < 2 then s.put (wufP c) NMG_WUFSTAT_FEC 0 else s

/-- R392: the detector the channel selects. -/
def nmgDet (s : State) (c : Nat) : Detector :=
  if c < 8 then
    (if c < 2 && s.flag (nmgP c) NMG_CTRL_WUFEN then .wuf else if s.flag (nmgP c) NMG_CTRL_WAKEN then .wup else .none)
  else if s.flag (nmgP c) NMG_CTRL_WAKEN then .energy else .none

/-- R393: the network island sends the transceiver the mode that the channel's state calls for. -/
def nmgServe (s : State) (c : Nat) : State :=
  if !(portEn s c || s.flag (nmgP c) NMG_CTRL_EN) then s
  else
    let s := s.setNm c (fun k => { k with served := s.now })
    if nmgState s c = 4 then
      (if (s.nm c).xmode = 1 then s else xLow (s.setNm c (fun k => { k with det := nmgDet s c })) c)
    else setXmode s c 0

/-- R388, R393: the channel changes state, and its transceiver is served. -/
def nmgTo (s : State) (c st : Nat) : State := nmgServe (s.put (nmgP c) NMG_STAT_STATE st) c

/-- A keep-alive made pending now (R388); one still pending is replaced (R387). -/
def kaMake (s : State) (c : Nat) (rep : Bool) : State :=
  s.setNm c (fun k => { k with kaPend := true, kaRep := rep, kaAt := s.now })

/-- R387: a keep-alive sent, its start-of-frame bit or start-frame delimiter at `t`. -/
def kaSent (s : State) (c : Nat) (t : Word) : State :=
  (s.setNm c (fun k => { k with kaPend := false, idleAt := t })).incField (nmgP c) NMG_CNT_KATX

/-- R387: may a pending keep-alive be sent? -/
def kaReady (s : State) (c : Nat) : Bool :=
  (s.nm c).kaPend && portActive s c && !(c < 8 && (s.get (canB c) CAN_CTRL_MODE == 1 || s.get (canB c) CAN_CTRL_MODE == 3))

/-- R384: the identifier of a CAN keep-alive of this node, and its two octets. -/
def kaId (s : State) (c : Nat) : Nat := s.get (nmgP c) NMG_ID_NMBASE * 256 + s.get (nmgP c) NMG_ID_NMID
def kaOctets (s : State) (c : Nat) : List Nat := [s.get (nmgP c) NMG_ID_NMID, (s.nm c).kaRep.toNat]

/-- R385: a T1S keep-alive, from the destination address to the last octet before the FCS. -/
def kaFrame (s : State) (c : Nat) : List Nat :=
  List.replicate 6 0xFF ++ natOctets 2 (s.get (ethB (c - 8)) ETH_MACHI_ADDR) ++ natOctets 4 (s.get (ethB (c - 8)) ETH_MACLO_ADDR)
    ++ [0x88, 0xB5] ++ ([0x4B, s.get (nmgP c) NMG_ID_NMID, (s.nm c).kaRep.toNat] ++ List.replicate 43 0)

/-! ### The sleep agreement -/

/-- R390: a sleep abort: the repeat time starts and a keep-alive with REPEAT is pending at once. -/
def nmgAbort (s : State) (c : Nat) : State :=
  let s := if (s.nm c).commit = some s.now then s.put (nmgP c) NMG_STAT_COINCIDENT 1 else s
  let s := nmgIrq (s.put (nmgP c) NMG_STAT_ABORTED 1) c 3
  let s := s.setNm c (fun k => { k with
    repEnd := some (s.after (ms (10 * s.get (nmgP c) NMG_TIME_REPT))), commit := none, armed := false })
  kaMake (nmgTo s c 1) c true

/-- R388: NETWORK is left for READY when REQ = 0 and no repeat time runs. -/
def nmgSettle (s : State) (c : Nat) : State :=
  if nmgState s c = 1 && !s.flag (nmgP c) NMG_CTRL_REQ && (s.nm c).repEnd.isNone then nmgTo s c 2 else s

/-- R390: the repeat time has ended. -/
def nmgRepeatEnd (s : State) (c : Nat) : State :=
  if s.due (s.nm c).repEnd then nmgSettle (s.setNm c (fun k => { k with repEnd := none })) c else s

/-- The tick in which the idle timer reaches SLPTO × 10 ms. -/
def idleEnd (s : State) (c : Nat) : Word := (s.nm c).idleAt + BitVec.ofNat 36 (ms (10 * s.get (nmgP c) NMG_TIME_SLPTO))

/-- R400: a keep-alive enters the log. -/
def nmgLog (s : State) (c nmid : Nat) (stamp : Word) : State :=
  let ks := List.range 32
  let valid := fun k => s.flag (nmgB + 8 * k) NMG_LOGS_VALID
  let fill := fun k (s : State) =>
    (((((s.put (nmgB + 8 * k) NMG_LOGS_VALID 1).put (nmgB + 8 * k) NMG_LOGS_CH c).put (nmgB + 8 * k) NMG_LOGS_NMID nmid).put
      (nmgB + 8 * k) NMG_LOGS_COUNT 1).wr (nmgB + 8 * k + 0x804) stamp)
  match ks.find? (fun k => valid k && s.get (nmgB + 8 * k) NMG_LOGS_CH == c && s.get (nmgB + 8 * k) NMG_LOGS_NMID == nmid) with
  | some k => (s.satField (nmgB + 8 * k) NMG_LOGS_COUNT).wr (nmgB + 8 * k + 0x804) stamp
  | none =>
    match ks.find? (fun k => !valid k) with
    | some k => fill k s
    | none =>
      let age := fun k => (s.now - s.rd (nmgB + 8 * k + 0x804)).toNat
      let k := ks.foldl (fun b k => if age b < age k then k else b) 0
      fill k (s.satField nmgB NMG_LOGCTL_LOST)

/-- R386, R388, R389, R395: a keep-alive of identity `nmid` received from another node. -/
def kaReceived (s : State) (c nmid : Nat) (stamp : Word) : State :=
  let p := nmgP c
  let s := (s.incField p NMG_CNT_KARX).put p NMG_STAT_LASTNM nmid
  let s := if nmid = s.get p NMG_ID_NMID then s.put p NMG_STAT_DUPID 1 else s
  let s := nmgLog s c nmid stamp
  let s := match (s.nm c).confEnd with
    | some t =>
      if s.reached t && t != s.now then s
      else
        let s := if t == s.now then s.put p NMG_STAT_COINCIDENT 1 else s
        (s.setNm c (fun k => { k with confEnd := none })).put p NMG_STAT_CONF 0
    | none => s
  let s := if nmgState s c = 2 && idleEnd s c == s.now then s.put p NMG_STAT_COINCIDENT 1 else s
  let s := if nmgState s c = 3 then nmgAbort s c else s
  s.setNm c (fun k => { k with idleAt := stamp })

/-- R384, R385: the identity of a received frame that counts as a keep-alive on the channel. -/
def kaMatch (s : State) (c : Nat) : NetFrame → Option Nat
  | .can w0 dlc data =>
    let id := bitsOf w0 28 0
    let base := s.get (nmgP c) NMG_ID_NMBASE * 256
    if c < 8 && !bitAt w0 35 && decide (base ≤ id) && decide (id ≤ base + 255) && decide (2 ≤ dlc)
      && data.getD 0 256 == id - base then some (id - base) else none
  | .eth os =>
    if decide (8 ≤ c) && os.getD 12 0 == 0x88 && os.getD 13 0 == 0xB5 && os.getD 14 0 == 0x4B then some (os.getD 15 0 % 256)
    else none

/-- NMG_KEEPALIVE_RECEIVED (R386): a valid frame from another node, examined by NMG. -/
def execNmgKeepaliveReceived (c : Fin 12) (fr : NetFrame) (stamp : Word) (s : State) : Answer := s.on .net <|
  (if !(s.flag (nmgP c.val) NMG_CTRL_EN && portActive s c.val && pastCount s stamp) then s
   else match kaMatch s c.val fr with
    | some nmid => kaReceived s c.val nmid stamp
    | none => s).next

/-- NMG_SLEEP_ABORT (R388, R390): bus activity in PREPARE. -/
def execNmgSleepAbort (c : Fin 12) (s : State) : Answer :=
  s.on .net ((s.when (nmgState s c.val == 3) (fun s => nmgAbort s c.val)).next)

/-- When the next keep-alive falls due (R388). -/
def kaDue (s : State) (c : Nat) : Word := (s.nm c).kaAt + BitVec.ofNat 36 (ms (s.get (nmgP c) NMG_TIME_KAPER))

/-- R388, R390: a keep-alive falls due; with the repeat time ended, only if REQ is 1. -/
def kaDueServe (c : Nat) (s : State) : State :=
  let k := s.nm c
  let past := s.due k.repEnd && !s.flag (nmgP c) NMG_CTRL_REQ
  s.when (nmgState s c == 1 && !past && s.reached (kaDue s c)) (fun s => kaMake s c (k.repEnd.isSome && !s.due k.repEnd))

/-- NMG_KEEPALIVE_DUE (R388, R390): the rows above its own in the table act first in its tick. -/
def execNmgKeepaliveDue (c : Fin 12) (s : State) : Answer :=
  s.on .net ((s.expire (some (kaDue s c.val)) (.nmgKeepaliveDue c) (kaDueServe c.val)).next)

/-- R388: the idle timer has run out in READY: PREPARE. -/
def nmgIdleServe (c : Nat) (s : State) : State :=
  s.when (nmgState s c == 2 && s.reached (idleEnd s c)) (fun s =>
    nmgIrq (nmgTo (s.setNm c (fun k => { k with
      commit := some (s.after (ms (10 * s.get (nmgP c) NMG_TIME_PREP))), armed := false })) c 3) c 5)

/-- NMG_IDLE_TIMEOUT (R388, R389): a keep-alive in the very tick is in time. -/
def execNmgIdleTimeout (c : Fin 12) (s : State) : Answer :=
  s.on .net ((s.expire (some (idleEnd s c.val)) (.nmgIdleTimeout c) (nmgIdleServe c.val)).next)

/-- NMG_REPEAT_END (R390). -/
def execNmgRepeatEnd (c : Fin 12) (s : State) : Answer :=
  s.on .net ((s.expire (s.nm c.val).repEnd (.nmgRepeatEnd c) (fun s => nmgRepeatEnd s c.val)).next)

/-- NMG_DETECTOR_ARM (R391 step 1). -/
def execNmgDetectorArm (c : Fin 12) (s : State) : Answer := s.on .net <|
  (match (s.nm c.val).commit with
   | some t =>
     s.when (nmgState s c.val == 3 && s.reached (t - BitVec.ofNat 36 (us 100))) (fun s =>
       s.setNm c.val (fun k => { k with armed := true, det := nmgDet s c.val }))
   | none => s).next

/-- R391 step 3: the commit point is reached. -/
def commitServe (c : Nat) (s : State) : State :=
  s.when (nmgState s c == 3 && s.due (s.nm c).commit) (fun s =>
    nmgIrq (nmgTo (s.setNm c (fun k => { k with commit := none, armed := false })) c 4) c 4)

/-- NMG_SLEEP_COMMIT (R391 step 3): an abort cause in the very tick is in time. -/
def execNmgSleepCommit (c : Fin 12) (s : State) : Answer :=
  s.on .net ((s.expire (s.nm c.val).commit (.nmgSleepCommit c) (commitServe c.val)).next)

/-! ### Wake, confirmation and service -/

/-- R395: a confirmation window from tick `t`. -/
def confOpen (s : State) (c : Nat) (t : Word) : State :=
  (s.setNm c (fun k => { k with confEnd := some (t + BitVec.ofNat 36 (ms (10 * s.get (nmgP c) NMG_ID_WCONF))) })).put
    (nmgP c) NMG_STAT_CONF 1

/-- R388, R395: a wake: SLEEP is left for READY, the idle timer restarts and a confirmation window opens. -/
def nmgWoken (s : State) (c : Nat) : State :=
  if nmgState s c = 4 then
    let s := s.setNm c (fun k => { k with idleAt := s.now })
    nmgIrq (confOpen (nmgTo s c 2) c s.now) c 2
  else s

/-- R392, R396: a detection of cause `cause` (1 WUP, 2 WUF, 3 FEC, 4 energy): LCAUSE, WOKEN; unmasked, SLEEP is left in
RUN and LIFT; in REST it waits for the network island's clock (R395), and in PARK and CAPPED the cause is kept for
NMG_WAKESRC (R399). -/
def nmgDetect (s : State) (c cause : Nat) : State :=
  let p := nmgP c
  let s := (setXmode (s.put p NMG_FWAKE_LCAUSE cause) c 2).setNm c (fun k => { k with served := s.clock })
  if s.flag p NMG_FWAKE_MASKED then s
  else
  let s := wakeDetect s 29
  if isDown s then s.setNm c (fun k => { k with found := some cause }) else nmgWoken s c

/-- R394: does a classical frame match the wake-up frame settings? -/
def wufMatch (s : State) (c : Nat) (w0 : Word) (dlc : Nat) (data : List Nat) : Bool :=
  let p := wufP c
  let dm := natOctets 4 (s.get p NMG_WUFDM0_DM) ++ natOctets 4 (s.get p NMG_WUFDM1_DM)
  bitAt w0 35 == s.flag p NMG_WUFID_IDE
    && (bitsOf w0 28 0 ^^^ s.get p NMG_WUFID_ID) &&& s.get p NMG_WUFMSK_MSK == 0
    && (!s.flag p NMG_WUFCFG_DATAEN || (dlc == s.get p NMG_WUFCFG_DLC
      && ((data.take (min dlc 8)).zip dm).any (fun q => q.1 &&& q.2 != 0)))

/-- R392: is a pattern of these phases, in ns, recognised?  Phases from 0.5 µs to 1.8 µs and a completion between 0.8 ms and
10 ms after the first dominant phase leave it open. -/
def patternSeen (s : State) (dom1 recess dom2 : Nat) : Bool :=
  let shortest := min dom1 (min recess dom2)
  if shortest < 500 || 10000000 < recess + dom2 then false
  else if 1800 ≤ shortest && recess + dom2 ≤ 800000 then true
  else s.freeBit

/-- What a detector does with what it sees (R392, R394). -/
def nmgSees (s : State) (c : Nat) : XcvrEvent → State
  | .pattern d r e => if (s.nm c).det == .wup && patternSeen s d r e then nmgDetect s.drawn c 1 else s.drawn
  | .energy ns =>
    if (s.nm c).det == .energy && 20000 ≤ ns && (s.pwr.state == .run || s.pwr.state == .lift) then nmgDetect s c 4 else s
  | .frame w0 dlc data =>
    if (s.nm c).det != .wuf || bitAt w0 34 then s
    else
      let s := s.put (wufP c) NMG_WUFSTAT_FEC (s.get (wufP c) NMG_WUFSTAT_FEC - 1)
      if wufMatch s c w0 dlc data then nmgDetect s c 2 else s
  | .frameError =>
    if (s.nm c).det != .wuf then s
    else
      let n := min 32 (s.get (wufP c) NMG_WUFSTAT_FEC + 1)
      let s := s.put (wufP c) NMG_WUFSTAT_FEC n
      if n = 32 then nmgDetect s c 3 else s

/-- TRANSCEIVER_WAKE (R392): what the detector of a transceiver in LOWPWR sees. -/
def execTransceiverWake (c : Fin 12) (ev : XcvrEvent) (s : State) : Answer :=
  (s.when ((s.nm c.val).xmode == 1) (fun s => nmgSees s c.val ev)).next

/-- WAKE_FRAME_DECODE (R394): a frame decoded, or an error in one, with WUFEN = 1. -/
def wakeFrameDecodeEffect (c : Fin 12) (ev : XcvrEvent) (s : State) : State :=
  match ev with
  | .pattern _ _ _ | .energy _ => s
  | .frame w0 dlc data => nmgSees s c.val (.frame w0 dlc data)
  | .frameError => nmgSees s c.val .frameError

/-- WAKE_FRAME_DECODE where its condition holds; else nothing happens. -/
def execWakeFrameDecode (c : Fin 12) (ev : XcvrEvent) (s : State) : Answer :=
  (s.when ((s.nm c.val).xmode == 1) (wakeFrameDecodeEffect c ev)).next

/-- NMG_CONFIRM_TIMEOUT (R395, R396): a false wake. -/
def nmgConfirmTimeoutEffect (c : Fin 12) (s : State) : State :=
  let p := nmgP c.val
  let s := (s.setNm c.val (fun k => { k with confEnd := none })).put p NMG_STAT_CONF 0
  let s := nmgIrq (s.satField p NMG_FWAKE_FWCNT) c.val 1
  if s.flag p NMG_CTRL_FWMEN && decide (s.get p NMG_ID_FWTH ≤ s.get p NMG_FWAKE_FWCNT) then
    nmgIrq (s.put p NMG_FWAKE_MASKED 1) c.val 0
  else s

/-- R395: a confirmation window has ended without a keep-alive. -/
def confServe (c : Fin 12) (s : State) : State := s.when (s.due (s.nm c.val).confEnd) (nmgConfirmTimeoutEffect c)

/-- NMG_CONFIRM_TIMEOUT (R395): a keep-alive in the very tick is in time. -/
def execNmgConfirmTimeout (c : Fin 12) (s : State) : Answer :=
  s.on .net ((s.expire (s.nm c.val).confEnd (.nmgConfirmTimeout c) (confServe c)).next)

/-- TRANSCEIVER_SERVICE (R393): every 100 ms. -/
def execTransceiverService (s : State) : Answer := (s.when (s.ready .net) (fun s => s.each (List.range 12) nmgServe)).next

/-- R393: when a transceiver will have had no service for 2 s. -/
def unservedAt (s : State) (c : Nat) : Word := (s.nm c).served + BitVec.ofNat 36 (sec 2)

/-- R393: a transceiver unserved for 2 s leaves NORMAL or WOKEN for LOWPWR. -/
def unservedServe (c : Nat) (s : State) : State :=
  s.when (((s.nm c).xmode == 0 || (s.nm c).xmode == 2) && reachedAt s.clock (unservedAt s c)) (fun s =>
    xLow (s.setNm c (fun k => { k with det := if k.det == .none then .wup else k.det })) c)

/-- TRANSCEIVER_SERVICE_TIMEOUT (R393): a service in the very tick is in time (R40). -/
def execTransceiverServiceTimeout (c : Fin 12) (s : State) : Answer :=
  (s.expire (some (unservedAt s c.val)) (.transceiverServiceTimeout c) (unservedServe c.val)).next

/-! ### What writes do -/

/-- R388, R393, R395: a write of NMG_CTRL took effect; `old` is its value before, `w` the word written. -/
def nmgCtrlWritten (s : State) (c : Nat) (old w : Word) : State :=
  let p := nmgP c
  let en := s.flag p NMG_CTRL_EN
  let req := bitAt w 34
  if !en then
    if !bitAt old 35 then s
    else
      let s := s.setNm c (fun k => { k with kaPend := false, repEnd := none, commit := none, confEnd := none, armed := false })
      nmgServe ((s.put p NMG_STAT_CONF 0).put p NMG_STAT_STATE 0) c
  else if !bitAt old 35 then
    let s := s.setNm c (fun k => { k with idleAt := s.now })
    let s := match (s.nm c).parkRdy with
      | some t =>
        let s := s.setNm c (fun k => { k with parkRdy := none })
        if s.reached (t + BitVec.ofNat 36 (ms (10 * s.get p NMG_ID_WCONF))) then s else confOpen s c t
      | none => s
    if req then kaMake (nmgTo s c 1) c false else nmgTo s c 2
  else if req then
    match nmgState s c with
    | 2 | 4 => kaMake (nmgTo s c 1) c false
    | 3 => nmgAbort s c
    | _ => s
  else nmgSettle s c

/-- The checks of the NMG chapter on a write of channel `c`'s page at inner offset `o` (R383, R394, and the legal pairs
of NMG_TIME and NMG_ID). -/
def nmgChk (s : State) (c o : Nat) (w : Word) : Fails :=
  let wakepat := if c < 8 then s.flag (canB c) CAN_OBJS_WAKEPAT else true
  let wuf := c < 8 && s.flag (canB c) CAN_OBJS_WUF
  failAt (!nmgPresent s c) 5 0x07
  ++ (if o = 0 then
      failAt (bitAt w 32 && !wuf) 12 0x10 ++ failAt (bitAt w 33 && !wakepat) 12 0x11
      ++ failAt (bitAt w 35 && !portEn s c) 12 0x12
    else [])
  ++ failAt (o == 4 && decide (10 * bitsOf w 25 16 < 2 * bitsOf w 35 26)) 11 0x02
  ++ failAt (o == 8 && decide (8 ≤ c) && bitsOf w 27 25 != 0) 11 0x02

/-- R400: a write of CLR to NMG_LOGCTL. -/
def nmgLogWritten (s : State) (w : Word) : State :=
  if bitAt w 35 then
    (s.each (List.range 32) (fun s k => s.put (nmgB + 8 * k) NMG_LOGS_VALID 0)).put nmgB NMG_LOGCTL_LOST 0
  else s

/-- R396: a write to NMG_FWAKE: CLR clears the count. -/
def nmgFwakeWritten (s : State) (c : Nat) (w : Word) : State := if bitAt w 22 then s.put (nmgP c) NMG_FWAKE_FWCNT 0 else s

/-! ### Park and resets (R398, R399, R401) -/

/-- R401: reset values except NMG_FWAKE; the transceivers stay as they are. -/
def nmgReset (s : State) : State :=
  let keep := (List.range 12).map (fun c => s.rd (nmgP c + 0x10))
  let s := s.resetBlk .nmg
  let s := s.each (List.range 12) (fun s c => s.wr (nmgP c + 0x10) (keep.getD c 0))
  { s with nmgs := s.nmgs.map (fun k => { NmgCh.reset with xmode := k.xmode, served := k.served, det := k.det, found := k.found }) }

/-- R395: at the exit from REST the channels woken in it leave SLEEP. -/
def nmgRest (s : State) : State :=
  s.each (List.range 12) (fun s c =>
    if (s.nm c).found.isSome then nmgWoken (s.setNm c (fun k => { k with found := none })) c else s)

/-- R395: the network island reports ready after a wake from park. -/
def nmgReady (s : State) : State :=
  { s with nmgs := s.nmgs.map (fun k => { k with parkRdy := k.parkRdy.map (fun _ => s.now) }) }

/-- R398: the transceivers at the entry to PARK (`capped` false) or CAPPED, where the marked ones watch for WUP alone. -/
def nmgPark (s : State) (capped : Bool) : State :=
  s.each (List.range 12) (fun s c =>
    let mark := bitAt (sectWord s 11 0) (c + (if capped then 4 else 12))
    if c < 8 && mark && (if capped then s.flag (nmgP c) NMG_CTRL_WAKEN else nmgState s c == 4) then
      (if capped then xLow (s.setNm c (fun k => { k with det := .wup })) c else s)
    else setXmode s c 3)

/-- R399: after a wake from park the causes found are shown, and XMODE reads WOKEN for the channels that woke. -/
def nmgUnpark (s : State) : State :=
  s.each (List.range 8) (fun s c =>
    match (s.nm c).found with
    | none => s
    | some cause =>
      let s := match cause with
        | 1 => s.setBit nmgB (28 + c) true
        | 2 => s.setBit nmgB (26 + c) true
        | _ => s.setBit nmgB (24 + c) true
      (setXmode s c 2).setNm c (fun k => { k with found := none, parkRdy := some s.now, served := s.now }))

end Sys2Proof.Machine
end

