-- ==== Sys2Proof/Machine/Can.lean ====
section
/-! DEFINITION. The CAN FD controllers and the message memory (R318–R340).  PRESUMED: the error counting of ISO 11898-1
(log entry 11). -/

namespace Sys2Proof.Machine

def State.cn (s : State) (n : Nat) : CanSt := s.cans.getD n .reset
def State.setCn (s : State) (n : Nat) (g : CanSt → CanSt) : State := { s with cans := s.cans.set n (g (s.cn n)) }

/-- R318: does NETW mark the controller present? -/
def canPresent (s : State) (n : Nat) : Bool := netBit s (28 + n)

/-! ### Objects -/

/-- R71: objects of a controller. -/
def canObjs (s : State) (n : Nat) : Nat := if canPresent s n then bitsOf (sectWord s 10 (1 + n)) 35 27 else 0

/-- R322: word `j` of object `k`. -/
def objW (n k j : Nat) : Nat := 0x04000000 + n * 0x8000 + k * 80 + 4 * j

/-- R324: field `hi:lo` of an object's status, which the controller holds; a change of it overwrites word 19 whole, so that
a store of firmware to that word does not last (log entry 97). -/
def objStat (s : State) (n k : Nat) : Word := Cells.read 0 (s.cn n).status k
def objSt (s : State) (n k hi lo : Nat) : Nat := bitsOf (objStat s n k) hi lo
def setObjSt (s : State) (n k hi lo x : Nat) : State :=
  let w := setBits (objStat s n k) hi lo x
  (s.setCn n (fun c => { c with status := Cells.write 0 c.status k w })).putWord (objW n k 19) w
def setTxst (s : State) (n k x : Nat) : State := setObjSt s n k 17 15 x

/-- GEN advances modulo 256. -/
def objGen (s : State) (n k : Nat) : State := setObjSt s n k 33 26 (objSt s n k 33 26 + 1)

/-- R325: is object `k` a transmit object? -/
def isTxObj (s : State) (n k : Nat) : Bool := bitAt (s.rd (canB n + 0x40 + 4 * (k / 32))) (k % 32)

/-- R332: is the object's request pending? -/
def isPending (s : State) (n k : Nat) : Bool := bitAt (s.rd (canB n + 0x60 + 4 * (k / 32))) (k % 32)
def setPending (s : State) (n k : Nat) (b : Bool) : State := s.setBit (canB n + 0x60 + 4 * (k / 32)) (k % 32) b

/-- R325: the receive objects in ascending order. -/
def rxObjs (s : State) (n : Nat) : List Nat := (List.range (canObjs s n)).filter (fun k => !isTxObj s n k)

/-- The receive object after `k` in the ring. -/
def nextRx (s : State) (n k : Nat) : Nat :=
  let l := rxObjs s n
  match l.find? (fun j => decide (k < j)) with | some j => j | none => l.headD k

/-- R323: the data length of a DLC. -/
def canLen (fdf : Bool) (dlc : Nat) : Nat :=
  if dlc ≤ 8 then dlc else if fdf then [12, 16, 20, 24, 32, 48, 64].getD (dlc - 9) 64 else 8

/-- R332: does a transmit object's header break its rules? -/
def hdrBad (s : State) (n : Nat) (w0 w1 : Word) : Bool :=
  let fdf := bitAt w0 34; let brs := bitAt w0 33; let rtr := bitAt w0 31
  bitsOf w0 30 29 != 0 || bitsOf w1 24 0 != 0 || (!bitAt w0 35 && bitsOf w0 28 11 != 0) || (fdf && !s.flag (canB n) CAN_CTRL_FDE)
    || (brs && !fdf) || (rtr && fdf) || (rtr && decide (8 < bitsOf w1 35 32))

/-- The object a seal protects (R336). -/
def canSealed (s : State) (n k : Nat) : Bool := s.flag (canB n) CAN_SEAL_EN && s.get (canB n) CAN_SEAL_OBJ == k

def canMode (s : State) (n : Nat) : Nat := s.get (canB n) CAN_CTRL_MODE
def canIrq (s : State) (n i : Nat) : State := s.raise (canB n + 0x2C) i

/-! ### Errors -/

/-- R337: the error state of the two counters, and what CAN_ERRC and CAN_STAT show of them. -/
def canShow (s : State) (n : Nat) : State :=
  let k := s.cn n
  let b := canB n
  let st := if 255 < k.txe then 2 else if 127 < k.txe || 127 < k.rxe then 1 else 0
  let old := s.get b CAN_STAT_ESTATE
  let s := ((s.put b CAN_ERRC_TEC (min 255 k.txe)).put b CAN_ERRC_REC (min 127 k.rxe)).put b CAN_ERRC_RP
    (decide (127 < k.rxe)).toNat
  let s := (s.put b CAN_STAT_ESTATE st).put b CAN_STAT_EWARN (decide (96 ≤ k.txe) || decide (96 ≤ k.rxe)).toNat
  if st = old then s else canIrq s n 2

/-- The error counters changed, where the mode counts (R321). -/
def canCount (s : State) (n : Nat) (g : CanSt → CanSt) : State :=
  if canMode s n = 2 then s else canShow (s.setCn n g) n

/-- ISO 11898-1: the receive counter after a frame received without error; from above 127 it takes a value from 119 to
127 that the standard leaves open. -/
def rxGood (s : State) (n : Nat) : State :=
  if 127 < (s.cn n).rxe then (canCount s n (fun k => { k with rxe := 119 + s.free.toNat % 9 })).drawn
  else canCount s n (fun k => { k with rxe := k.rxe - 1 })

/-- A frame of this node leaves the bus without success (R334). -/
def txLost (s : State) (n : Nat) : State :=
  match (s.cn n).txBuf with
  | none => s
  | some (k, _) =>
    let s := (s.setCn n (fun c => { c with txBuf := none, onBus := none })).put (canB n) CAN_STAT_TXING 0
    if 256 ≤ k then s
    else if s.flag (canB n) CAN_CTRL_DAR then setTxst (setPending s n k false) n k 4
    else setTxst s n k 1

/-- Does the frame that the controller sends switch its bit rate? -/
def txBrs (s : State) (n : Nat) : Bool := (s.cn n).onBus.any (fun f => bitAt f.w0 33)

/-- R320: the loop delay measured in a frame sent with BRS = 1, in network clock periods, saturating at 127. -/
def tdcMeasured (s : State) (n : Nat) (d : Option Nat) : State :=
  match d with
  | some d => s.when (s.flag (canB n) CAN_TDC_TDCEN && txBrs s n) (fun s => s.put (canB n) CAN_TDC_TDCV (min 127 d))
  | none => s

/-- CAN_ERROR_DETECTED (R337): the kind of R337's LEC; ISO's step of the counter of the role in which it was met (`tx`):
0, 1 or 8; `delay` the loop delay, where the frame got past its measurement (R320). -/
def canErrorDetectedEffect (n : Fin 8) (kind : Fin 7) (dataPhase tx : Bool) (step : CanStep) (delay : Option Nat) (s : State) :
    State :=
  let b := canB n.val
  let s := s.when tx (fun s => tdcMeasured s n.val delay)
  let s := (s.put b (if dataPhase then CAN_ERRLOG_DLEC else CAN_ERRLOG_LEC) kind.val).incField b CAN_ERRLOG_ECNT
  let d := match step with | .none => 0 | .one => 1 | .eight => 8
  let s := canCount s n.val (fun k => if tx then { k with txe := k.txe + d } else { k with rxe := min 128 (k.rxe + d) })
  -- R338: in bus-off the controller leaves the bus, and recovery begins at once with ABOR = 1
  if s.get b CAN_STAT_ESTATE = 2 then
    let s := (txLost s n.val).put b CAN_STAT_ACTIVE 0
    (canIrq s n.val 3).put b CAN_STAT_RECOV (s.get b CAN_CTRL_ABOR)
  else s

/-- Can the error be met: an active controller, in the role in which it takes part in the frame, with a step that ISO
11898-1 gives that role (0 or 8 as transmitter, 1 or 8 as receiver; log entry 11), a data phase where there can be one. -/
def canErrorMeets (n : Nat) (kind : Nat) (dataPhase tx : Bool) (step : CanStep) (s : State) : Bool :=
  s.flag (canB n) CAN_STAT_ACTIVE && !(s.cn n).integ && kind != 0 && (tx == s.flag (canB n) CAN_STAT_TXING)
    && (if tx then step != .one else step != .none)
    && (!dataPhase || if tx then txBrs s n else s.flag (canB n) CAN_CTRL_FDE)

/-- CAN_ERROR_DETECTED where its condition holds; else nothing happens. -/
def execCanErrorDetected (n : Fin 8) (kind : Fin 7) (dataPhase tx : Bool) (step : CanStep) (delay : Option Nat) (s : State) :
    Answer := s.on .net <|
  (s.when (canErrorMeets n.val kind.val dataPhase tx step s) (canErrorDetectedEffect n kind dataPhase tx step delay)).next

/-- CAN_PROTOCOL_EXCEPTION (R321): a receiver leaves the frame and integrates to the bus again, up to the next idle bus; a
frame it had selected is selected anew. -/
def execCanProtocolException (n : Fin 8) (s : State) : Answer := s.on .net <|
  let b := canB n.val
  (s.when (s.flag b CAN_STAT_ACTIVE && s.flag b CAN_CTRL_FDE && !s.flag b CAN_STAT_TXING) (fun s =>
    (s.setCn n.val (fun c => { c with integ := true, txBuf := none })).put b CAN_ERRLOG_PXE 1)).next

/-- CAN_RECOVERY_DONE (R338). -/
def execCanRecoveryDone (n : Fin 8) (s : State) : Answer := s.on .net <|
  let b := canB n.val
  (s.when (s.flag b CAN_STAT_RECOV) (fun s =>
    let s := canShow (s.setCn n.val (fun k => { k with txe := 0, rxe := 0 })) n.val
    (s.put b CAN_STAT_RECOV 0).put b CAN_STAT_ACTIVE (s.get b CAN_CTRL_EN))).next

/-! ### Reception -/

/-- R326: does the controller store the frame? -/
def canTakes (s : State) (n : Nat) (own fdf : Bool) : Bool :=
  s.flag (canB n) CAN_STAT_ACTIVE && !(s.cn n).integ && (!fdf || s.flag (canB n) CAN_CTRL_FDE)
    && (if own then s.flag (canB n) CAN_STAT_TXING && (canMode s n == 3 || s.flag (canB n) CAN_CTRL_SELFRX)
      else canMode s n != 3)

/-- R323: word 0 as stored: unlisted bits and a base identifier's upper bits are 0. -/
def rxWord0 (w0 : Word) : Word := if bitAt w0 35 then setBits w0 30 29 0 else setBits (setBits w0 30 29 0) 28 11 0

/-- R327: a frame stored in object `k`. -/
def canStore (s : State) (n k : Nat) (w0 : Word) (dlc : Nat) (data : List Nat) (stamp : Word) : State :=
  let len := if bitAt w0 31 then 0 else canLen (bitAt w0 34) dlc
  let s := setObjSt (objGen (setObjSt s n k 34 34 1) n k) n k 35 35 0
  let s := (s.putWord (objW n k 0) (rxWord0 w0)).putWord (objW n k 1) (setBits (setBits 0 35 32 dlc) 31 25 len)
  let s := s.putWord (objW n k 2) stamp
  let os := (List.range len).map (fun i => data.getD i 0)
  let s := s.putNibs (objW n k 3) (markedNibs os 64)
  setObjSt (setObjSt (setObjSt s n k 25 18 (s.cn n).count) n k 34 34 0) n k 35 35 1

/-- R327, R328: a valid frame stored at WPOS, or dropped. -/
def canReceive (s : State) (n : Nat) (w0 : Word) (dlc : Nat) (data : List Nat) (stamp : Word) : State :=
  let b := canB n
  let s := s.setCn n (fun c => { c with count := (c.count + 1) % 256 })
  if s.get b CAN_RXRING_LEVEL < (rxObjs s n).length then
    let k := s.get b CAN_RXRING_WPOS
    let s := canStore s n k w0 dlc data stamp
    let s := (s.put b CAN_RXRING_WPOS (nextRx s n k)).put b CAN_RXRING_LEVEL (s.get b CAN_RXRING_LEVEL + 1)
    canIrq (raiseSrc s (0x1C0 + n)) n 0
  else canIrq (s.satField b CAN_RXDROP_DROP) n 4

/-- Two counts within two ticks of each other (R18, R331). -/
def near (a b : Word) : Bool := decide ((a - b).toNat ≤ 2) || decide ((b - a).toNat ≤ 2)

/-- R331: can the stamp be that of the frame: of the start of frame recorded for an own one, else a count reached (log entry
98)? -/
def stampOk (s : State) (n : Nat) (own : Bool) (stamp : Word) : Bool :=
  if own then near stamp (s.cn n).sof else pastCount s stamp

/-- CAN_FRAME_RECEIVED of another node's frame (R321, R326–R328): one with FDF = 1 is valid for a receiver with FDE = 1 alone. -/
def canFrameIn (n : Nat) (f : CanFrame) (stamp : Word) (s : State) : State :=
  s.when (canTakes s n false (bitAt f.w0 34)) (fun s => canReceive (rxGood s n) n f.w0 f.dlc f.data stamp)

/-- CAN_FRAME_RECEIVED of the controller's own frame (R326): the octets it sends, whatever the operands say. -/
def canOwnIn (n : Nat) (stamp : Word) (s : State) : State :=
  match (s.cn n).onBus with
  | some f => s.when (canTakes s n true (bitAt f.w0 34)) (fun s => canReceive s n f.w0 f.dlc f.data stamp)
  | none => s

/-! ### Transmission -/

/-- R333: the arbitration field as a number, dominant lowest: base identifier, SRR or RTR, IDE, extension, RTR, FDF. -/
def arbKey (w0 : Word) : Nat :=
  let rtr := bitsOf w0 31 31; let fdf := bitsOf w0 34 34
  if bitAt w0 35 then bitsOf w0 28 18 * 2 ^ 22 + 3 * 2 ^ 20 + bitsOf w0 17 0 * 4 + rtr * 2 + fdf
  else bitsOf w0 10 0 * 2 ^ 22 + rtr * 2 ^ 21 + fdf * 2 ^ 19

/-- The pending object that wins (R333). -/
def canWinner (s : State) (n : Nat) : Option Nat :=
  (List.range (canObjs s n)).foldl (fun b k =>
    if !isPending s n k then b
    else match b with
      | none => some k
      | some j => if arbKey (s.word (objW n k 0)) < arbKey (s.word (objW n j 0)) then some k else b) none

/-- R387: word 0 and word 1 of a pending keep-alive, and its data. -/
def kaWords (s : State) (n : Nat) : List Word :=
  let os := kaOctets s n
  [BitVec.ofNat 36 (kaId s n), setBits 0 35 32 2, nibsWord (markedNibs os 4)] ++ List.replicate 15 0

/-- CAN_TX_SELECTION (R333, R387): the winning pending frame is copied and its header checked again. -/
def canTxSelectionEffect (n : Nat) (s : State) : State :=
  let ka := kaReady s n
  let w := canWinner s n
  let kaWins := ka && (match w with | none => true | some k => decide (arbKey ((kaWords s n).headD 0) ≤ arbKey (s.word (objW n k 0))))
  if kaWins then s.setCn n (fun c => { c with txBuf := some (256, kaWords s n) })
  else match w with
    | none => s.setCn n (fun c => { c with txBuf := none })
    | some k =>
      let w0 := s.word (objW n k 0); let w1 := s.word (objW n k 1)
      if hdrBad s n w0 w1 then
        canIrq (setTxst (setPending (s.setCn n (fun c => { c with txBuf := none })) n k false) n k 5) n 1
      else s.setCn n (fun c => { c with txBuf := some (k, w0 :: w1 :: s.words (objW n k 3) 16) })

/-- CAN_TX_SELECTION where its condition holds; else nothing happens.  The idle bus ends an integration (R321). -/
def execCanTxSelection (n : Fin 8) (s : State) : Answer := s.on .net <|
  let n := n.val
  let b := canB n
  (s.when (s.flag b CAN_STAT_ACTIVE && !s.flag b CAN_STAT_TXING) (fun s =>
    let s := s.setCn n (fun c => { c with integ := false })
    s.when (!(s.cn n).leaving && canMode s n != 1) (canTxSelectionEffect n))).next

/-- R8, R323: the frame of a transmit buffer: the controller's own ESI in an FD frame, the octets of its data without their
marks. -/
def frameOf (s : State) (n : Nat) (ws : List Word) : CanFrame :=
  let w0 := ws.headD 0
  let fdf := bitAt w0 34
  let dlc := bitsOf (ws.getD 1 0) 35 32
  let len := if bitAt w0 31 then 0 else canLen fdf dlc
  ⟨setBits w0 32 32 (fdf && s.get (canB n) CAN_STAT_ESTATE == 1).toNat, dlc, ((ws.drop 2).flatMap wordNibOctets).take len⟩

/-- The start-of-frame bit of the frame in the transmit buffer. -/
def canStart (n k : Nat) (ws : List Word) (s : State) : State :=
  let f := frameOf s n ws
  let s := (s.setCn n (fun c => { c with sof := s.now, onBus := some f })).put (canB n) CAN_STAT_TXING 1
  s.when (decide (k < 256)) (fun s => setTxst s n k 2)

/-- CAN_ARBITRATION_START (R334): the start-of-frame bit of the selected frame; none starts once EN is 0 (R339). -/
def execCanArbitrationStart (n : Fin 8) (s : State) : Answer := s.on .net <|
  let b := canB n.val
  (match (s.cn n.val).txBuf with
   | none => s
   | some (k, ws) =>
     s.when (s.flag b CAN_STAT_ACTIVE && !s.flag b CAN_STAT_TXING && !(s.cn n.val).leaving) (canStart n.val k ws)).next

/-- CAN_TX_SUCCESS (R331, R334, R387): `stamp` the count at the start-of-frame bit. -/
def canSent (n k : Nat) (stamp : Word) (s : State) : State :=
  let b := canB n
  let s := (s.setCn n (fun c => { c with txBuf := none, onBus := none })).put b CAN_STAT_TXING 0
  let s := canCount s n (fun c => { c with txe := c.txe - 1 })
  if 256 ≤ k then kaSent s n stamp
  else
    let s := setTxst (objGen ((setPending s n k false).putWord (objW n k 2) stamp) n k) n k 3
    let s := s.setBit (b + 0x80 + 4 * (k / 32)) (k % 32) true
    canIrq (raiseSrc s (0x1C8 + n)) n 1

/-- R320: a loop delay beyond TDCV's range is a bit error, whose level the spec leaves open (log entry 99). -/
def canDelayError (n : Fin 8) (delay : Nat) (s : State) : State :=
  txLost (canErrorDetectedEffect n (if s.freeBit then 4 else 5) true true .eight (some delay) s).drawn n.val

/-- CAN_TX_SUCCESS while its frame is on the bus; `stamp` within two ticks of its start-of-frame bit (R334); `delay` the loop
delay in network clock periods, where R320 measures one. -/
def execCanTxSuccess (n : Fin 8) (stamp : Word) (delay : Nat) (s : State) : Answer := s.on .net <|
  let b := canB n.val
  (match (s.cn n.val).txBuf with
   | none => s
   | some (k, _) =>
     s.when (s.flag b CAN_STAT_TXING && near stamp (s.cn n.val).sof) (fun s =>
       if s.flag b CAN_TDC_TDCEN && txBrs s n.val && decide (127 < delay) then canDelayError n delay s
       else canSent n.val k stamp (tdcMeasured s n.val (some delay)))).next

/-- CAN_TX_LOST (R334). -/
def execCanTxLost (n : Fin 8) (s : State) : Answer :=
  s.on .net ((s.when (s.flag (canB n.val) CAN_STAT_TXING) (fun s => txLost s n.val)).next)

/-! ### Enable, disable and the effects of writes -/

/-- R339: the controller leaves the bus and withdraws every request, a selected one too. -/
def canLeave (s : State) (n : Nat) : State :=
  let s := s.setCn n (fun c => { c with leaving := false, txBuf := none, onBus := none, integ := false })
  let s := s.each ((List.range (canObjs s n)).filter (isPending s n)) (fun s k => setTxst (setPending s n k false) n k 6)
  s.put (canB n) CAN_STAT_ACTIVE 0

/-- CAN_DISABLE_EFFECT (R339): the end of the frame in progress, or the idle bus, after EN was written 0. -/
def execCanDisableEffect (n : Fin 8) (s : State) : Answer := s.on .net <|
  (s.when ((s.cn n.val).leaving && !s.flag (canB n.val) CAN_STAT_TXING) (fun s => canLeave s n.val)).next

/-- R325: an enable resets the receive ring. -/
def canEnable (s : State) (n : Nat) : State :=
  let b := canB n
  let first := (rxObjs s n).headD 0
  let s := ((s.put b CAN_RXRING_WPOS first).put b CAN_RXRING_RPOS first).put b CAN_RXRING_LEVEL 0
  let s := s.each (rxObjs s n) (fun s k => setObjSt (setObjSt s n k 35 34 0) n k 25 18 0)
  let s := s.setCn n (fun c => { c with count := 0, leaving := false })
  -- R338: enabled in bus-off, it begins recovery with ABOR = 1
  let off := s.get b CAN_STAT_ESTATE == 2
  let s := s.when (off && s.flag b CAN_CTRL_ABOR) (fun s => s.put b CAN_STAT_RECOV 1)
  nmgServe (s.put b CAN_STAT_ACTIVE (!off).toNat) n

/-- R325, R338, R339: a write of CAN_CTRL took effect. -/
def canCtrlWritten (s : State) (n : Nat) (old w : Word) : State :=
  let b := canB n
  let en := s.flag b CAN_CTRL_EN
  let s := if en && !bitAt old 35 then canEnable s n
    else if !en && bitAt old 35 then
      (if s.flag b CAN_STAT_ACTIVE then s.setCn n (fun c => { c with leaving := true }) else canLeave s n)
    else s
  if bitAt w 28 && s.get b CAN_STAT_ESTATE == 2 then s.put b CAN_STAT_RECOV 1 else s

/-- R319: the bit timing legal at an enable. -/
def canTiming (s : State) (n : Nat) : Bool :=
  let b := canB n
  let t1 := s.get b CAN_NBT_NTSEG1 + 1
  let t2 := s.get b CAN_NBT_NTSEG2 + 1
  let nom := (s.get b CAN_NBT_NBRP + 1) * (1 + t1 + t2)
  let dt2 := s.get b CAN_DBT_DTSEG2 + 1
  let dat := (s.get b CAN_DBT_DBRP + 1) * (1 + (s.get b CAN_DBT_DTSEG1 + 1) + dt2)
  decide (80 ≤ nom) && decide (2 ≤ t1) && decide (10 ≤ dat) && decide (dat ≤ nom)
    && decide (s.get b CAN_NBT_NSJW + 1 ≤ t2) && decide (s.get b CAN_DBT_DSJW + 1 ≤ dt2)
    && (decide (80 ≤ dat) || s.flag b CAN_TDC_TDCEN)

/-- R329: the `m` oldest stored objects released. -/
def canRelease (s : State) (n : Nat) : Nat → State
  | 0 => s
  | m + 1 =>
    let s := canRelease s n m
    let b := canB n
    let k := s.get b CAN_RXRING_RPOS
    ((setObjSt s n k 35 35 0).put b CAN_RXRING_RPOS (nextRx s n k)).put b CAN_RXRING_LEVEL (s.get b CAN_RXRING_LEVEL - 1)

/-- R335: a pending request whose arbitration has not begun is cancelled. -/
def canCancel (s : State) (n k : Nat) : State :=
  if !isPending s n k then s
  else
    let s := s.setCn n (fun c => { c with txBuf := match c.txBuf with
      | some (j, ws) => if j = k then none else some (j, ws)
      | none => none })
    setTxst (setPending s n k false) n k 4

/-- The checks of R332 on objects, without the header check. -/
def objChk (s : State) (n : Nat) (src : Src) (ks : List Nat) : Fails :=
  failAt (ks.any (fun k => decide (canObjs s n ≤ k))) 12 0x07
  ++ failAt (ks.any (fun k => !isTxObj s n k)) 12 0x10
  ++ failAt (src.req != 4 && ks.any (canSealed s n)) 12 0x04

/-- The objects that the 1s of a word written to CAN_TXRQk name. -/
def rqObjs (k : Nat) (w : Word) : List Nat := (onesBelow w 32).map (fun j => 32 * k + j)

/-- The checks of the CAN chapter on a write of `w` at offset `o`. -/
def canChk (s : State) (n : Nat) (src : Src) (o : Nat) (w : Word) : Fails :=
  failAt (!canPresent s n) 5 0x07
  ++ (if o = 0 then failAt (bitAt w 35 && !canTiming s n) 11 0x02
    else if o = 0x20 then failAt (decide (s.get (canB n) CAN_RXRING_LEVEL < bitsOf w 35 27)) 12 0x12
    else if o = 0x24 then
      let k := bitsOf w 35 28
      objChk s n src [k] ++ failAt (decide (k < canObjs s n) && objSt s n k 17 15 == 2) 12 0x06
    else if o = 0x30 then
      failAt (src.req != 4) 2 0x04
      ++ failAt (bitAt w 35 && !(decide (bitsOf w 34 27 < canObjs s n) && isTxObj s n (bitsOf w 34 27))) 12 0x10
    else if 0x60 ≤ o ∧ o < 0x80 then
      let ks := rqObjs ((o - 0x60) / 4) w
      objChk s n src ks
      ++ failAt (ks.any (fun k => hdrBad s n (s.word (objW n k 0)) (s.word (objW n k 1)))) 12 0x11
    else [])

/-- R92, R339: CFG fields are locked while EN is 1, and until an EN = 0 has taken effect. -/
def canLocked (s : State) (n : Nat) : Bool := s.flag (canB n) CAN_CTRL_EN || (s.cn n).leaving

/-- R335: a cancel rejected in the tick of the start-of-frame bit. -/
def canRejected (s : State) (n o code : Nat) (w : Word) : State :=
  if o == 0x24 && code == 0x06 && (s.cn n).sof == s.now && s.flag (canB n) CAN_STAT_TXING
      && ((s.cn n).txBuf.map (·.1)) == some (bitsOf w 35 28) then s.put (canB n) CAN_STAT_COINCIDENT 1
  else s

/-- What an accepted write of `w` at offset `o` does beyond the register. -/
def canWritten (s : State) (n o : Nat) (old w : Word) : State :=
  if o = 0 then canCtrlWritten s n old w
  else if o = 0x20 then canRelease s n (bitsOf w 35 27)
  else if o = 0x24 then canCancel s n (bitsOf w 35 28)
  else if o = 0x38 then (if bitAt w 0 then s.put (canB n) CAN_RXDROP_DROP 0 else s)
  else if 0x60 ≤ o ∧ o < 0x80 then
    s.each ((rqObjs ((o - 0x60) / 4) w).filter (fun k => !bitAt old (k % 32))) (fun s k => setTxst s n k 1)
  else s

/-! ### Resets (R340) -/

/-- One controller at its reset values. -/
def canReset1 (s : State) (n : Nat) : State := (s.resetBlk (.can (Fin.ofNat 8 n))).setCn n (fun _ => .reset)

/-- R340: message memory cleared: contents lost, ECC initialised. -/
def canMemClear (s : State) (a b : Nat) : State :=
  let s := s.clearMem a b
  { s with safe := { s.safe with badWords := s.safe.badWords.filter (fun w => decide (w < a) || decide (b ≤ w)) } }

/-- Every controller at its reset values and the message memory cleared. -/
def canReset (s : State) : State := canMemClear (s.each (List.range 8) canReset1) 0x04000000 0x04040000

end Sys2Proof.Machine
end

