-- ==== Sys2Proof/Machine/Lin.lean ====
section
/-! DEFINITION. The LIN channels (R341–R346, R354). -/

namespace Sys2Proof.Machine

def linB (n : Nat) : Nat := 0x40300000 + n * 0x10000
/-- The frame entry of identifier `f`. -/
def linF (n f : Nat) : Nat := linB n + 0x100 + f * 0x10

def State.ln (s : State) (n : Nat) : LinSt := s.lins.getD n .reset
def State.setLn (s : State) (n : Nat) (g : LinSt → LinSt) : State := { s with lins := s.lins.set n (g (s.ln n)) }

def linPresent (s : State) (n : Nat) : Bool := netBit s (16 + n)
def linState (s : State) (n : Nat) : Nat := s.get (linB n) LIN_STAT_STATE
/-- R341: 0 commander, 1 responder. -/
def isResponder (s : State) (n : Nat) : Bool := s.flag (linB n) LIN_CFG_ROLE

/-! ### The frame on the bus -/

/-- Ticks of `n` bits at a bit rate. -/
def linBits (n rate : Nat) : Nat := n * 100000000 / max 1 rate

/-- R341: bits of a commander's header: the break of BRK bits, its delimiter of one, sync field and protected identifier. -/
def linHdrBits (s : State) (n : Nat) : Nat := s.get (linB n) LIN_CFG_BRK + 21
def linRate (s : State) (n : Nat) : Nat := s.get (linB n) LIN_CFG_RATE

/-- The end of the header, and of a go-to-sleep command, that a commander sends from its break's start. -/
def linHdrEnd (s : State) (n : Nat) : Word := (s.ln n).brk + BitVec.ofNat 36 (linBits (linHdrBits s n) (linRate s n))
def linSleepEnd (s : State) (n : Nat) : Word := (s.ln n).brk + BitVec.ofNat 36 (linBits (linHdrBits s n + 90) (linRate s n))

/-- R341: a responder follows a rate within ±15 % of RATE. -/
def linFollows (s : State) (n rate : Nat) : Bool := decide (85 * linRate s n ≤ 100 * rate) && decide (100 * rate ≤ 115 * linRate s n)

/-- R343: the response timeout after a header's end, in ticks: 14 × (LEN + 1) bit times. -/
def linTimeout (s : State) (n : Nat) (h : LinHdr) : Nat := linBits (14 * (s.get (linF n h.id) LIN_FCFG_LEN + 1)) h.rate

/-- R342: is a frame of the channel on the bus: its header, its own response, or a response awaited? -/
def linBusy (s : State) (n : Nat) : Bool :=
  ((s.ln n).cur.isSome && !s.reached (linHdrEnd s n))
  || (s.ln n).hdr.any (fun h =>
      let own := s.get (linF n h.id) LIN_FCFG_DIR == 1
      let len := s.get (linF n h.id) LIN_FCFG_LEN
      !s.reached (h.fin + BitVec.ofNat 36 (if own then linBits (10 * (len + 1)) h.rate else linTimeout s n h)))

/-- The protected identifier of LIN, its two parity bits above it (log entry 100). -/
def linPid (id : Nat) : Nat :=
  let b (i : Nat) : Nat := id / 2 ^ i % 2
  id + 64 * ((b 0 + b 1 + b 2 + b 4) % 2) + 128 * ((b 1 + b 3 + b 4 + b 5 + 1) % 2)

/-- The checksum of LIN over a first octet and the data: the inverted sum with carry (log entry 100). -/
def linSum (first : Nat) (os : List Nat) : Nat :=
  255 - os.foldl (fun a o => let t := a + o % 256; if 256 ≤ t then t - 255 else t) first

/-- R341: the checksum of a frame: enhanced, over the protected identifier too, at CK = 1; classic at CK = 0 and for
identifiers 0x3C and 0x3D. -/
def linChecksum (s : State) (n id : Nat) (os : List Nat) : Nat :=
  if s.flag (linF n id) LIN_FCFG_CK && id != 0x3C && id != 0x3D then linSum (linPid id) os else linSum 0 os

/-- R344: the octets of a published response and their checksum, from the entry's data words as they stand. -/
def linPublished (s : State) (n id : Nat) : List Nat :=
  let f := linF n id
  let os := (wordNibOctets (s.rd (f + 8)) ++ wordNibOctets (s.rd (f + 0xC))).take (s.get f LIN_FCFG_LEN)
  os ++ [linChecksum s n id os]

/-- R345: the response of the go-to-sleep command and its classic checksum. -/
def linSleepOctets : List Nat :=
  let os := 0 :: List.replicate 7 0xFF
  os ++ [linSum 0 os]

/-! ### Headers and responses -/

/-- LIN_SLOT_START (R342, R345): the next slot of a commander's schedule begins and its header starts. -/
def linSlotStartEffect (n : Nat) (s : State) : State :=
  let b := linB n
  let k := s.ln n
  if s.flag b LIN_CTRL_GOSLEEP then
    s.setLn n (fun k => { k with
      sleepHdr := true, cur := none, hdr := none, brk := s.now, lastAct := s.now, slotEnd := none, sent := linSleepOctets })
  else
    let e := k.nextEnt
    let nent := if e = 0 then s.get b LIN_CTRL_NENT else k.nent
    let e := if nent ≤ e then 0 else e
    let slot := s.get b (LIN_SCHED_SLOT.at e)
    (s.setLn n (fun k => { k with
      nent := nent, nextEnt := if e + 1 < nent then e + 1 else 0, slotEnd := some (s.after (us (100 * slot))),
      brk := s.now, sleepHdr := false, cur := some (s.get b (LIN_SCHED_ID.at e)), hdr := none, lastAct := s.now })).put b LIN_STAT_POS e

/-- LIN_SLOT_START where its condition holds; else nothing happens. -/
def execLinSlotStart (n : Fin 12) (s : State) : Answer := s.on .net <|
  let n := n.val
  let b := linB n
  let k := s.ln n
  let go := linState s n == 1 && !isResponder s n && s.flag b LIN_CTRL_SCHED && k.resume.isNone && !k.sleepHdr && !linBusy s n
    && (match k.slotEnd with | none => true | some t => s.reached t)
  (s.when go (linSlotStartEffect n)).next

/-- LIN_HEADER_RECEIVED (R341, R343, R344): a header ends, a commander's the one of its slot (R342); `brk` is the count
at the break's start and `rate` the measured bit rate of a responder's. -/
def linHeaderReceivedEffect (n : Nat) (id : Fin 64) (brk : Word) (rate : Nat) (s : State) : State :=
  let f := linF n id.val
  let resp := isResponder s n
  let t := if resp then brk else (s.ln n).brk
  let dir := s.get f LIN_FCFG_DIR
  let mine := dir == 1 || dir == 2
  let s := s.setLn n (fun k => { k with
    lastAct := s.now, cur := none,
    hdr := if mine then some ⟨id.val, s.now, if resp then rate else linRate s n⟩ else none,
    sent := if dir = 1 then linPublished s n id.val else k.sent })
  s.when mine (fun s => s.put f LIN_FSTAT_STAMP t.toNat)

/-- LIN_HEADER_RECEIVED where its condition holds; else nothing happens: a commander's header takes its time, a responder
follows rates near RATE alone (R341). -/
def execLinHeaderReceived (n : Fin 12) (id : Fin 64) (brk : Word) (rate : Nat) (s : State) : Answer := s.on .net <|
  let n := n.val
  let comes := if isResponder s n then linFollows s n rate else (s.ln n).cur == some id.val && s.reached (linHdrEnd s n)
  (s.when (linState s n == 1 && !(s.ln n).sleepHdr && comes) (linHeaderReceivedEffect n id brk rate)).next

/-- R343: a missing or faulty response, as LIN_FSTAT.ERR codes it. -/
def linFault (n id err : Nat) (s : State) : State :=
  ((s.put (linF n id) LIN_FSTAT_ERR err).incField (linB n) LIN_STAT_ERRCNT).setLn n (fun k => { k with hdr := none })

/-- LIN_RESPONSE_RECEIVED (R343): a subscribed response with a correct checksum ends in time. -/
def linReceived (n id : Nat) (last : Bool) (os : List Nat) (s : State) : State :=
  let f := linF n id
  let ns := markedNibs os 8
  let s := (s.wr (f + 8) (nibsWord ns)).wr (f + 0xC) (nibsWord (ns.drop 4))
  let s := ((s.put f LIN_FSTAT_ERR 0).incField f LIN_FSTAT_GEN).put f LIN_FSTAT_NEW 1
  let s := s.when last (fun s => s.put (linB n) LIN_STAT_COINCIDENT 1)
  s.setLn n (fun k => { k with hdr := none, lastAct := s.now })

/-- LIN_RESPONSE_RECEIVED after its header, within the timeout: the octets of the entry's LEN and the checksum `sum`, which
R341 judges. -/
def execLinResponseReceived (n : Fin 12) (data : List Nat) (sum : Nat) (s : State) : Answer := s.on .net <|
  let n := n.val
  (match (s.ln n).hdr with
   | none => s
   | some h =>
     let f := linF n h.id
     let late := (s.now - h.fin).toNat
     let lim := linTimeout s n h
     let os := (List.range (s.get f LIN_FCFG_LEN)).map (fun i => data.getD i 0)
     s.when (linState s n == 1 && s.get f LIN_FCFG_DIR == 2 && decide (late ≤ lim)) (fun s =>
       if sum = linChecksum s n h.id os then linReceived n h.id (late == lim) os s else linFault n h.id 2 s)).next

/-- R343: the response that is awaited has not come by its deadline. -/
def linMissServe (n : Fin 12) (s : State) : State :=
  match (s.ln n.val).hdr with
  | none => s
  | some h =>
    s.when (linState s n.val == 1 && s.get (linF n.val h.id) LIN_FCFG_DIR == 2
      && decide (linTimeout s n.val h ≤ (s.now - h.fin).toNat)) (linFault n.val h.id 1)

/-- LIN_RESPONSE_TIMEOUT (R343): a missing (1) or faulty response: `err` as LIN_FSTAT.ERR codes it.  A response that ends in
the tick of the deadline is in time (R40). -/
def execLinResponseTimeout (n : Fin 12) (err : Fin 6) (s : State) : Answer := s.on .net <|
  (match (s.ln n.val).hdr with
   | none => s
   | some h =>
     if err.val = 1 then
       s.expire (some (h.fin + BitVec.ofNat 36 (linTimeout s n.val h))) (.linResponseTimeout n err) (linMissServe n)
     else s.when (linState s n.val == 1 && err.val != 0) (linFault n.val h.id err.val)).next

/-! ### Sleep and wake -/

/-- R346: the channel becomes ACTIVE on a wake-up signal that ends at `t`. -/
def linWake (s : State) (n : Nat) (t : Word) : State :=
  let s := (s.put (linB n) LIN_STAT_WAKEUP 1).put (linB n) LIN_STAT_STATE 1
  s.setLn n (fun k => { k with
    lastAct := s.now, hdr := none, sleepHdr := false, slotEnd := none,
    resume := if isResponder s n then none else some (t + BitVec.ofNat 36 (ms 100)) })

/-- LIN_SLEEP_ENTRY (R345, R346): go-to-sleep has been sent (commander) or received (responder). -/
def linSleepEntryEffect (n : Nat) (s : State) : State :=
  let b := linB n
  let cmd := !isResponder s n
  let s := if cmd then s.put b LIN_CTRL_GOSLEEP 0 else s
  let met := cmd && (s.ln n).wakeAt == some s.now
  let s := s.setLn n (fun k => { k with hdr := none, sleepHdr := false, slotEnd := none, nextEnt := 0,
                                        sleepAt := if cmd then some s.now else none })
  if met then linWake (s.put b LIN_STAT_COINCIDENT 1) n s.now else s.put b LIN_STAT_STATE 2

/-- LIN_SLEEP_ENTRY where its condition holds; else nothing happens. -/
def execLinSleepEntry (n : Fin 12) (s : State) : Answer := s.on .net <|
  let n := n.val
  let ends := isResponder s n || ((s.ln n).sleepHdr && s.reached (linSleepEnd s n))
  (s.when (linState s n == 1 && ends) (linSleepEntryEffect n)).next

/-- R345: 4 s without bus activity. -/
def linIdleEnd (s : State) (n : Nat) : Word := (s.ln n).lastAct + BitVec.ofNat 36 (sec 4)
def linIdleServe (n : Fin 12) (s : State) : State :=
  s.when (linState s n.val == 1 && isResponder s n.val && s.reached (linIdleEnd s n.val))
    (fun s => (s.setLn n.val (fun k => { k with hdr := none })).put (linB n.val) LIN_STAT_STATE 2)

/-- LIN_IDLE_TIMEOUT (R345): a responder without bus activity for 4 s. -/
def execLinIdleTimeout (n : Fin 12) (s : State) : Answer :=
  s.on .net ((s.expire (some (linIdleEnd s n.val)) (.linIdleTimeout n) (linIdleServe n)).next)

/-- LIN_WAKEUP_DETECT (R346): a dominant level of at least 150 µs that ends at `fin`; in park it is kept for
LIN_STAT.WAKEUP (R354). -/
def execLinWakeupDetect (n : Fin 12) (fin : Word) (s : State) : Answer :=
  let n := n.val
  let s := s.when (s.flag (linB n) LIN_CTRL_WKEN && (isDown s || linState s n == 2)) (fun s => wakeDetect s 28)
  (if s.pwr.state == .park || s.pwr.state == .capped then
     s.when (s.flag (linB n) LIN_CTRL_WKEN) (fun s => s.setLn n (fun k => { k with wakeAt := some s.now }))
   else if linState s n = 2 then
     let s := if (s.ln n).sleepAt = some fin then s.put (linB n) LIN_STAT_COINCIDENT 1 else s
     linWake s n fin
   else if linState s n = 1 then s.setLn n (fun k => { k with wakeAt := some fin, lastAct := s.now })
   else s).next

/-- LIN_SCHEDULE_RESUME (R346): from entry 0. -/
def execLinScheduleResume (n : Fin 12) (s : State) : Answer := s.on .net <|
  (s.when (s.due (s.ln n.val).resume) (fun s => s.setLn n.val (fun k => { k with
    resume := none, nextEnt := 0, slotEnd := none }))).next

/-! ### Writes and resets -/

/-- The checks of the LIN chapter on a write of `w` at offset `o` (R341, R346). -/
def linChk (s : State) (n o : Nat) (w : Word) : Fails :=
  failAt (!linPresent s n) 5 0x07
  ++ (if o = 0 then failAt ((bitAt w 34 || bitAt w 33) && isResponder s n) 12 0x10
      ++ failAt (bitAt w 32 && linState s n != 2) 12 0x11 else [])

/-- What an accepted write does beyond the register: the enable, a schedule started, a wake-up pulse. -/
def linWritten (s : State) (n o : Nat) (old w : Word) : State :=
  let b := linB n
  if o ≠ 0 then s
  else if !s.flag b LIN_CTRL_EN then
    if bitAt old 35 then
      ((s.put b LIN_STAT_STATE 0).put b LIN_CTRL_GOSLEEP 0).setLn n (fun k => { LinSt.reset with lastAct := k.lastAct })
    else s
  else
    let s := if bitAt old 35 then s
      else (s.put b LIN_STAT_STATE 1).setLn n (fun _ => { LinSt.reset with lastAct := s.now })
    let s := if s.flag b LIN_CTRL_SCHED && !bitAt old 34 then s.setLn n (fun k => { k with nextEnt := 0 }) else s
    if bitAt w 32 then s.setLn n (fun k => { k with pulseEnd := some (s.after (ms 1)) }) else s

def linReset1 (s : State) (n : Nat) : State := (s.resetBlk (.lin (Fin.ofNat 12 n))).setLn n (fun _ => .reset)
def linReset (s : State) : State := s.each (List.range 12) linReset1

/-- R354: after a wake from park LIN_STAT.WAKEUP shows the waking channels. -/
def linUnpark (s : State) : State :=
  let woke := (List.range 12).filter (fun n => (s.ln n).wakeAt.isSome)
  (linReset s).each woke (fun s n => s.put (linB n) LIN_STAT_WAKEUP 1)

/-- R354: PARK keeps WKEN alone; nothing heard so far. -/
def linPark (s : State) : State := s.each (List.range 12) (fun s n => s.setLn n (fun k => { k with wakeAt := none }))

end Sys2Proof.Machine
end

