-- ==== Sys2Proof/Machine/Eth.lean ====
section
/-! DEFINITION. The Ethernet ports TS0–TS3 (0–3) and TX0–TX1 (4–5) and their DMA (R347–R354). -/

namespace Sys2Proof.Machine

def State.et (s : State) (p : Nat) : EthSt := s.eths.getD p .reset
def State.setEt (s : State) (p : Nat) (g : EthSt → EthSt) : State := { s with eths := s.eths.set p (g (s.et p)) }

/-- The block of a port. -/
def ethBlk (p : Nat) : Blk := if p < 4 then .ts (Fin.ofNat 4 p) else .tx (Fin.ofNat 2 (p - 4))

def ethPresent (s : State) (p : Nat) : Bool := if p < 4 then netBit s (12 + p) else netBit s (10 + (p - 4))

/-- Interrupt flags RX, TX, DROP, LINK: bits 35 to 32 of IR. -/
def ethIrq (s : State) (p i : Nat) : State := s.raise (ethB p + 0x24) i

/-- Does Inkwell hold `n` nibs from `a`? -/
def inInkwell (a n : Nat) : Bool := decide (0x02000000 ≤ a) && decide (a + n ≤ 0x02280000)

/-- The descriptor at a ring position (R350). -/
def rxDesc (s : State) (p : Nat) : Nat := s.get (ethB p) ETH_RXBASE_BASE + 16 * s.get (ethB p) ETH_STAT_RXPOS
def txDesc (s : State) (p : Nat) : Nat := s.get (ethB p) ETH_TXBASE_BASE + 16 * s.get (ethB p) ETH_STAT_TXPOS

/-- A word written by the DMA. -/
def dmaWord (s : State) (a : Nat) (w : Word) : State := loseResv (s.putWord a w) a 4

/-- R349: does the MAC take frames for the destination address? -/
def ethTakes (s : State) (p : Nat) (octets : List Nat) : Bool :=
  let dst := octets.take 6
  let own := natOctets 2 (s.get (ethB p) ETH_MACHI_ADDR) ++ natOctets 4 (s.get (ethB p) ETH_MACLO_ADDR)
  dst == own || dst == List.replicate 6 0xFF || (s.flag (ethB p) ETH_CTRL_MCAST && octets.headD 0 % 2 == 1)
    || s.flag (ethB p) ETH_CTRL_PROMISC

/-- R351: a buffer address outside Inkwell: ST 2, DERR; that direction stops. -/
def ethDerr (s : State) (p d : Nat) (rx : Bool) : State :=
  let s := (dmaWord s d (setBits (s.word d) 35 32 2)).put (ethB p) ETH_STAT_DERR 1
  if rx then s.setEt p (fun k => { k with rxStop := true })
  else (s.setEt p (fun k => { k with txStop := true })).put (ethB p) ETH_STAT_TXRUN 0

/-- R350–R352: an accepted frame fills the descriptor at RXPOS.  The last word's nibs past the frame are written 0 (log entry
94). -/
def ethStore (s : State) (p : Nat) (octets : List Nat) (stamp : Word) : State :=
  let b := ethB p
  let d := rxDesc s p
  if !bitAt (s.word d) 35 then ethIrq (s.satField b ETH_DROP_RXFULL) p 33
  else
    let buf := bitsOf (s.word (d + 4)) 31 0
    if !inInkwell buf octets.length then ethDerr s p d true
    else
      let s := s.dmaPut buf (markedNibs octets ((octets.length + 3) / 4 * 4))
      let seq := (s.et p).seqRx
      let s := dmaWord (dmaWord s (d + 8) stamp) (d + 12) (setBits (s.word (d + 12)) 15 0 (seq + 1))
      let s := dmaWord s d (setBits (setBits (s.word d) 35 32 0) 10 0 octets.length)
      let s := s.setEt p (fun k => { k with seqRx := (seq + 1) % 65536 })
      let pos := s.get b ETH_STAT_RXPOS + 1
      ethIrq (s.put b ETH_STAT_RXPOS (if pos < s.get b ETH_RINGN_RXN then pos else 0)) p 35

/-- ETH_FRAME_RECEIVED (R349, R351): the octets from the destination address to the last before the FCS. -/
def ethFrameReceivedEffect (p : Nat) (octets : List Nat) (fcsOk : Bool) (stamp : Word) (s : State) : State :=
  let b := ethB p
  let len := octets.length + 4
  if !fcsOk then ethIrq (s.satField b ETH_DROP_FCS) p 33
  else if len < 64 ∨ 1522 < len then ethIrq (s.satField b ETH_DROP_LENERR) p 33
  else if !ethTakes s p octets then s
  else ethStore s p octets stamp

/-- ETH_FRAME_RECEIVED where its condition holds; else nothing happens. -/
def execEthFrameReceived (p : Fin 6) (octets : List Nat) (fcsOk : Bool) (stamp : Word) (s : State) : Answer := s.on .net <|
  let p := p.val
  let b := ethB p
  (s.when (s.flag b ETH_STAT_ACTIVE && !(s.et p).rxStop && pastCount s stamp) (ethFrameReceivedEffect p octets fcsOk stamp)).next

/-- R350: the lengths of a transmit frame; jumbo frames are not supported (R1). -/
def txLenOk (n : Nat) : Bool := decide (14 ≤ n) && decide (n ≤ 1518)

/-- A transmit descriptor whose LEN is none of R350: a descriptor error with a free ST; nothing is sent (log entry 96). -/
def ethLenErr (s : State) (p d : Nat) : State :=
  let s := (dmaWord s d (setBits (setBits (s.word d) 35 35 0) 34 32 s.free.toNat)).drawn.put (ethB p) ETH_STAT_DERR 1
  (s.setEt p (fun k => { k with txStop := true })).put (ethB p) ETH_STAT_TXRUN 0

/-- R351: transmit DMA at TXPOS: it stops at OWN = 0, at a descriptor error, and once EN = 0 awaits the end of the frame
(R353). -/
def ethTxCheck (s : State) (p : Nat) : State :=
  let b := ethB p
  if (s.et p).closing then s.put b ETH_STAT_TXRUN 0
  else if !s.flag b ETH_STAT_TXRUN || (decide (4 ≤ p) && !s.flag b TX_PHY_LINK) then s
  else
    let d := txDesc s p
    if !bitAt (s.word d) 35 then s.put b ETH_STAT_TXRUN 0
    else if !txLenOk (bitsOf (s.word d) 10 0) then ethLenErr s p d
    else if !inInkwell (bitsOf (s.word (d + 4)) 31 0) (bitsOf (s.word d) 10 0) then ethDerr s p d false
    else s

/-- R351: a kick. -/
def ethKick (s : State) (p : Nat) : State :=
  if s.flag (ethB p) ETH_STAT_ACTIVE && !(s.et p).txStop && !(s.et p).closing then ethTxCheck (s.put (ethB p) ETH_STAT_TXRUN 1) p else s

/-- The FCS of IEEE 802.3: the CRC-32 of R52, its least significant octet first (log entry 100). -/
def fcsOf (os : List Nat) : List Nat := (List.range 4).map (fun i => crc32 os / 256 ^ i % 256)

/-- R349: a frame below 60 octets is padded with zeros, and the FCS appended. -/
def ethPad (os : List Nat) : List Nat :=
  let l := os ++ List.replicate (60 - os.length) 0
  l ++ fcsOf l

/-- ETH_FRAME_SENT (R351, R352, R387): a frame completes, of the descriptor at TXPOS, or a pending keep-alive (`ka`);
`excess`: given up after excessive collisions. -/
def ethSent (p : Nat) (stamp : Word) (excess : Bool) (s : State) : State :=
  let b := ethB p
  let d := txDesc s p
  let seq := (s.et p).seqTx
  let os := s.octets (bitsOf (s.word (d + 4)) 31 0) (bitsOf (s.word d) 10 0)
  let s := dmaWord (dmaWord s (d + 8) stamp) (d + 12) (setBits (s.word (d + 12)) 15 0 (seq + 1))
  let s := dmaWord s d (setBits (s.word d) 35 32 excess.toNat)
  let s := s.setEt p (fun k => { k with seqTx := (seq + 1) % 65536, sent := ethPad os })
  let pos := s.get b ETH_STAT_TXPOS + 1
  let s := ethIrq (s.put b ETH_STAT_TXPOS (if pos < s.get b ETH_RINGN_TXN then pos else 0)) p 34
  ethTxCheck s p

/-- ETH_FRAME_SENT: the stored keep-alive's or the descriptor's frame. -/
def execEthFrameSent (p : Fin 6) (stamp : Word) (excess ka : Bool) (s : State) : Answer := s.on .net <|
  let p := p.val
  let b := ethB p
  (if !pastCount s stamp then s
   else if ka then
     s.when (decide (p < 4) && kaReady s (8 + p) && !excess) (fun s =>
       kaSent (s.setEt p (fun k => { k with sent := ethPad (kaFrame s (8 + p)) })) (8 + p) stamp)
   else
     let d := txDesc s p
     s.when (s.flag b ETH_STAT_TXRUN && bitAt (s.word d) 35 && (decide (p < 4) || s.flag b TX_PHY_LINK)) (ethSent p stamp excess)).next

/-- ETH_LINK_CHANGE (R348): the link of a TX port, with its signal quality. -/
def ethLinkChangeEffect (n : Fin 2) (up : Bool) (sqi : BitVec 3) (s : State) : State :=
  let p := 4 + n.val
  let b := ethB p
  let was := s.flag b TX_PHY_LINK
  let s := (s.put b TX_PHY_LINK up.toNat).put b TX_PHY_SQI sqi.toNat
  let s := if was && !up then s.incField b TX_PHY_LDOWN else s
  let s := if was == up then s else ethIrq s p 32
  ethTxCheck s p

/-- ETH_LINK_CHANGE where its condition holds; else nothing happens. -/
def execEthLinkChange (n : Fin 2) (up : Bool) (sqi : BitVec 3) (s : State) : Answer := s.on .net <|
  let p := 4 + n.val
  let b := ethB p
  (s.when (s.flag b ETH_STAT_ACTIVE) (ethLinkChangeEffect n up sqi)).next

/-- R353: the port stops. -/
def ethStop (s : State) (p : Nat) : State :=
  let b := ethB p
  let s := (s.setEt p (fun k => { k with closing := false })).put b ETH_STAT_ACTIVE 0
  let s := s.put b ETH_STAT_TXRUN 0
  if 4 ≤ p then s.put b TX_PHY_LINK 0 else s

/-- ETH_DISABLE (R353): the end of the frame in progress after EN was written 0. -/
def execEthDisable (p : Fin 6) (s : State) : Answer :=
  s.on .net ((s.when (s.et p.val).closing (fun s => ethStop s p.val)).next)

/-! ### Writes and resets -/

/-- A ring base: a multiple of 16 nibs within Inkwell. -/
def baseOk (a : Nat) : Bool := a % 16 == 0 && inInkwell a 16

def ethChk (s : State) (p o : Nat) (w : Word) : Fails :=
  failAt (!ethPresent s p) 5 0x07 ++ failAt ((o == 0x10 || o == 0x14) && !baseOk (bitsOf w 31 0)) 11 0x02

/-- What an accepted write does beyond the register: enable, disable, kick. -/
def ethWritten (s : State) (p o : Nat) (old w : Word) : State :=
  let b := ethB p
  if o = 0 then
    if bitAt w 35 && !bitAt old 35 then
      let s := s.setEt p (fun k => { k with rxStop := false, txStop := false, closing := false })
      let s := ((s.put b ETH_STAT_ACTIVE 1).put b ETH_STAT_RXPOS 0).put b ETH_STAT_TXPOS 0
      if p < 4 then nmgServe s (8 + p) else s
    else if !bitAt w 35 && bitAt old 35 then s.setEt p (fun k => { k with closing := true })
    else s
  else if o = 0x20 then (if bitAt w 35 then ethKick s p else s)
  else s

def ethReset (s : State) : State :=
  s.each (List.range 6) (fun s p => (s.resetBlk (ethBlk p)).setEt p (fun _ => .reset))

end Sys2Proof.Machine
end

