-- ==== Sys2Proof/Machine/VaultOps.lean ====
section
/-! DEFINITION. Keys: the life-cycle state, a slot's attributes, the derivation tree (R402, R406–R412). -/

namespace Sys2Proof.Machine

def vaultB : Nat := 0x40600000
def accB : Nat := 0x40610000
def cryptB : Nat := 0x40620000

/-- R402: VAULT_LC.STATE: 0 BLANK, 1 FACTORY, 2 FIELD, 3 SERVICE, 4 RETURN, 5 VOID. -/
def lcState (s : State) : Nat := s.get vaultB VAULT_LC_STATE

/-- R100: in FACTORY and RETURN some reserved bits are live test controls. -/
def testControls (s : State) : Bool := lcState s == 1 || lcState s == 4

/-- Signet's private memory cleared, its ECC initialised (R421, R423). -/
def signetMemClear (s : State) : State :=
  { s.clearMem 0x03000000 0x03040000 with safe := { s.safe with
      badWords := s.safe.badWords.filter (fun a => a < 0x03000000 || 0x03040000 ≤ a) } }

def setVault (s : State) (g : VaultSt → VaultSt) : State := { s with vault := g s.vault }

/-- VAULT_SLOTn. -/
def slotReg (s : State) (n : Nat) : Word := s.rd (vaultB + 0x400 + 4 * n)

/-- R412: may engine `e` use slot `n` for world `w` (0 TRUST, 1 OPEN, 2 SEAL) in life-cycle state `l`? -/
def slotAllows (s : State) (n e w l : Nat) : Bool :=
  let r := slotReg s n
  bitAt r 35 && bitAt r (14 - e) && bitAt r (23 - w) && bitAt r (20 - l)

/-- The 512-bit key in a slot, as 64 octets; empty in an empty slot. -/
def slotKey (s : State) (n : Nat) : List Nat := s.vault.keys.getD n []

/-- R408: the first 256 bits. -/
def slotKey1 (s : State) (n : Nat) : List Nat := (slotKey s n).take 32

/-- The KPOL entry of a node (R74). -/
def kpolNode (s : State) (node : Nat) : Option (List Word) := (chunks 3 (s.sect 13)).find? (fun e => entBits e 0 35 28 == node)

/-- The root as octets (R406). -/
def rootKey : List Nat := natOctets 32 Config.pufRoot.toNat

/-- R407, R410: the key of a KPOL node, derived along its path from the root. -/
def nodeKey (s : State) : Nat → Nat → List Nat
  | 0, _ => []
  | fuel + 1, node =>
    match kpolNode s node with
    | none => []
    | some e =>
      let parent := entBits e 0 27 20
      let kp := if parent = 0 then rootKey else (nodeKey s fuel parent).take 32
      kdf kp (e.getD 1 0) (entBits e 0 19 17)

/-- A slot filled with a key and the attributes of VAULT_SLOTn. -/
def fillSlot (s : State) (n : Nat) (key : List Nat) (attrs : Word) : State :=
  setVault (s.wr (vaultB + 0x400 + 4 * n) (putBit attrs 35 true)) (fun v => { v with keys := v.keys.set n key })

end Sys2Proof.Machine
end

