-- ==== Sys2Proof/Machine/Ring.lean ====
section
/-! DEFINITION. The Ligature ring node (R355–R382). -/

namespace Sys2Proof.Machine

def ringB : Nat := 0x40480000
/-- Transmit slot `i`, its TXS register, and receive entry `e`. -/
def txSlot (i : Nat) : Nat := ringB + 0x400 + i * 0x200
def rxEnt (e : Nat) : Nat := ringB + 0x1000 + e * 0x200

def setRing (s : State) (g : RingSt → RingSt) : State := { s with ring := g s.ring }

def ringPresent (s : State) : Bool := netBit s 9
def ringAddr (s : State) : Nat := s.get ringB RING_NODE_ADDR
/-- RING_STAT.STATE: 0 OFF, 1 TRAIN, 2 CLAIM, 3 RUN, 4 BROKEN. -/
def ringState (s : State) : Nat := s.get ringB RING_STAT_STATE
def isKeeper (s : State) : Bool := s.flag ringB RING_STAT_KEEPER
/-- RING_IR bits: 5 RX, 4 TXDONE, 3 BROKEN, 2 KEEPCHG, 1 MAPCHG, 0 AUTHF. -/
def ringIrq (s : State) (i : Nat) : State := s.raise (ringB + 0x2C) i

/-! ### Frames (R359–R361) -/

def fDst (h0 : Word) : Nat := bitsOf h0 35 26
def fSrc (h0 : Word) : Nat := bitsOf h0 25 16
def fType (h0 : Word) : Nat := bitsOf h0 15 12
def fAck (h0 : Word) : Bool := bitAt h0 4
def fEnc (h0 : Word) : Bool := bitAt h0 3
def fMon (h0 : Word) : Bool := bitAt h0 2
def fBc (h0 : Word) : Bool := bitAt h0 1

/-- R360: the header check over H0 with MON taken as 0. -/
def hcsOf (h0 : Word) : Nat := crc16Word (putBit h0 2 false)

/-- A frame built by this node. -/
def mkFrame (h0 : Word) (pay : List Word) (fseq : Nat) : RingFrame :=
  ⟨h0, BitVec.ofNat 36 (hcsOf h0), pay, setBits (BitVec.ofNat 36 (crc32Words pay)) 35 32 fseq, .eof⟩

/-- A header from its fields. -/
def mkH0 (dst src ty len : Nat) (bc : Bool) : Word :=
  putBit (setBits (setBits (setBits (setBits 0 35 26 dst) 25 16 src) 15 12 ty) 11 5 len) 1 bc

/-- R360: header and payload check words correct, and the length as the header says. -/
def hdrGood (f : RingFrame) : Bool := bitsOf f.h1 15 0 == hcsOf f.h0 && bitsOf f.h0 11 5 == f.pay.length
def frameGood (f : RingFrame) : Bool := hdrGood f && bitsOf f.check 31 0 == crc32Words f.pay

def frameSeq (f : RingFrame) : Nat := bitsOf f.check 35 32

/-- R361: the payload replaced, its CRC recomputed. -/
def withPay (f : RingFrame) (pay : List Word) : RingFrame :=
  { f with pay := pay, check := setBits f.check 31 0 (crc32Words pay) }

/-- R359: symbol slots of a frame, and its time on the line in ticks (40 ns a symbol). -/
def ringTicks (f : RingFrame) : Nat := 4 * (14 + 4 * f.pay.length)

/-- The code of an end symbol (R357). -/
def endCode : RingEnd → Nat
  | .eof => 0x0F1 | .eofA => 0x0F2 | .eofN => 0x0F3 | .abort => 0x0F4

/-- R356: a control symbol of a code, and the data symbols of a word, most significant nib first (R359). -/
def ctlSymbol (code : Nat) : BitVec 10 := BitVec.ofNat 10 (512 + code)
def wordSymbols (w : Word) : List (BitVec 10) :=
  [bitsOf w 35 27, bitsOf w 26 18, bitsOf w 17 9, bitsOf w 8 0].map (BitVec.ofNat 10)

/-- R359: the symbols of a frame: SOF, H0, H1, the payload, the check word and the end symbol. -/
def frameSymbols (f : RingFrame) : List (BitVec 10) :=
  ctlSymbol 0x0F0 :: (f.h0 :: f.h1 :: f.pay ++ [f.check]).flatMap wordSymbols ++ [ctlSymbol (endCode f.fin)]

/-- R356: a symbol's line bits, bit 9 first. -/
def symbolBits (y : BitVec 10) : List Bool := (List.range 10).map (fun i => y.getLsbD (9 - i))

/-- R356: the line bits of data bits `ds`, after the line bits `h`, the newest first. -/
def scramble : List Bool → List Bool → List Bool
  | _, [] => []
  | h, d :: ds =>
    let b := d ^^ (h.getD 17 false ^^ h.getD 22 false)
    b :: scramble (b :: h) ds

/-- R356: what a receiver makes of line bits, with the line bits `h` that it has seen, the newest first. -/
def descramble : List Bool → List Bool → List Bool
  | _, [] => []
  | h, b :: bs => (b ^^ (h.getD 17 false ^^ h.getD 22 false)) :: descramble (b :: h) bs

/-- R363: is RING_OUT between frames? -/
def lineFree (s : State) : Bool := match s.ring.txEnd with | none => true | some t => s.reached t

/-- A frame starts on RING_OUT; the next starts at least 4 IDLE symbols after its end (R357). -/
def ringPut (s : State) (f : RingFrame) : State :=
  setRing s (fun r => { r with out := some f, txEnd := some (s.after (ringTicks f + 16)) })

/-- The symbol on RING_OUT while the node sends a frame of its own or one that its insertion buffer held (R356–R359). -/
def ringSymbol (s : State) : BitVec 10 :=
  match s.ring.out, s.ring.txEnd with
  | some f, some t =>
    if s.reached t then ctlSymbol 0x1FF
    else (frameSymbols f).getD ((ringTicks f + 16 - (t - s.now).toNat) / 4) (ctlSymbol 0x1FF)
  | _, _ => ctlSymbol (if ringState s = 1 then 0x055 else 0x1FF)

/-- R361–R363: a frame is forwarded, at once or, while the node sends one of its own or holds others, from its insertion
buffer; the keeper sets MON. -/
def ringForward (s : State) (f : RingFrame) : State :=
  let f := { f with h0 := if isKeeper s then putBit f.h0 2 true else f.h0 }
  setRing s (fun r => if lineFree s && r.held.isEmpty then { r with out := some f } else { r with held := r.held ++ [f] })

/-- R374: the bypass joins RING_IN to RING_OUT until the link has trained. -/
def ringBypassed (s : State) : Bool :=
  !s.ready .ring || !s.flag ringB RING_CTRL_EN || decide (ringState s < 2)

/-- R370: n ns in ticks, rounded; a half rounds either way (log entry 12). -/
def roundTicks (s : State) (n : Nat) : Nat := if n % 10 = 5 then n / 10 + s.freeBit.toNat else (n + 5) / 10

/-! ### States -/

/-- R368: CLAIM is entered. -/
def ringClaim (s : State) : State :=
  let s := (s.put ringB RING_STAT_STATE 2).put ringB RING_STAT_KEEPER 0
  setRing s (fun r => { r with claiming := !r.dup, returns := 0, lower := false, brk := false, nextClaim := s.now, timeOut := none })

/-- R373: BROKEN is entered. -/
def ringBroken (s : State) : State :=
  if ringState s = 4 then s
  else
    let s := ((s.put ringB RING_STAT_STATE 4).put ringB RING_STAT_KEEPER 0).satField ringB RING_CNT_BREAKS
    setRing (ringIrq s 3) (fun r => { r with timeOut := none, claiming := false })

/-- R369, R371: the keeper's address set; a change sets TSTEP and KEEPCHG. -/
def setKeeper (s : State) (a : Nat) : State :=
  if s.get ringB RING_KEEP_KADDR = a then s
  else ringIrq ((s.put ringB RING_KEEP_KADDR a).put ringB RING_STAT_TSTEP 1) 2

/-- May the node still send an own frame that has waited for the line? -/
def ownStands (s : State) : RingOwn → Bool
  | .claim => ringState s == 2 && s.ring.claiming
  | .brk => ringState s == 4 && s.ring.brk && !s.ring.dup
  | .time | .census => ringState s == 3 && isKeeper s

/-- The TYPE, LEN and payload of an own frame (R368, R370, R372, R373). -/
def ownFrame (s : State) : RingOwn → RingFrame
  | .claim => mkFrame (mkH0 0 (ringAddr s) 2 1 true) [Config.uid] s.ring.fseq
  | .brk => mkFrame (mkH0 0 (ringAddr s) 5 0 true) [] s.ring.fseq
  | .time => mkFrame (mkH0 0 (ringAddr s) 1 2 true) [s.now, 0] s.ring.fseq
  | .census => mkFrame (mkH0 0 (ringAddr s) 3 64 true) (s.ring.map ++ List.replicate 32 0) s.ring.fseq

/-- An own frame starts on the line; a TIME frame's departure is noted (R371). -/
def ownStart (s : State) (o : RingOwn) : State :=
  setRing (ringPut s (ownFrame s o)) (fun r => { r with
    fseq := (r.fseq + 1) % 16, timeOut := if o = .time then some s.now else r.timeOut })

/-- R363: an own frame is sent, or waits until the line is free and the insertion buffer empty. -/
def ownSend (s : State) (o : RingOwn) : State :=
  if lineFree s && s.ring.held.isEmpty && s.ring.waiting.isEmpty then ownStart s o
  else setRing s (fun r => { r with waiting := if r.waiting.contains o then r.waiting else r.waiting ++ [o] })

/-- R370: the keeper sends TIME. -/
def timeSend (s : State) : State := ownSend (setRing s (fun r => { r with nextTime := s.after (ms 1) })) .time

/-- R372: the map completed in the last round, as this node holds it. -/
def heldMap (s : State) : List Word := (List.range 32).map (fun k => BitVec.ofNat 36 (s.get ringB (RING_MAP_MAP.at k)))

/-- R368, R369: the node becomes keeper, enters RUN and sends TIME at once; its first census, due at once, carries the map
that it holds (log entry 69). -/
def becomeKeeper (s : State) : State :=
  let s := setKeeper ((s.put ringB RING_STAT_STATE 3).put ringB RING_STAT_KEEPER 1) (ringAddr s)
  let s := s.wr (ringB + 0x18) 0
  timeSend (setRing s (fun r => { r with claiming := false, timeAt := s.now, nextCensus := s.now, map := heldMap s }))

/-! ### Frame encryption (R379) -/

/-- Words as one bit string, octet by octet, padded with zero bits. -/
def bitOctets (ws : List Word) : List Nat :=
  let n := 36 * ws.length
  let k := (n + 7) / 8
  natOctets k ((ws.foldl (fun a w => a * 2 ^ 36 + w.toNat) 0) * 2 ^ (8 * k - n))

/-- The first `n` words of a bit string. -/
def bitWords (os : List Nat) (n : Nat) : List Word :=
  let x := octetsNat os / 2 ^ (8 * os.length - 36 * n)
  (List.range n).map (fun i => BitVec.ofNat 36 (x / 2 ^ (36 * (n - 1 - i))))

/-- R379: the IV of a source and a nonce. -/
def ringIv (src : Nat) (nonce : Word) : List Nat := natOctets 12 (src * 2 ^ 64 + nonce.toNat)

/-- The cipher text of plaintext words (and back), and the tag over ciphertext words. -/
def ringCtr (key : List Nat) (src : Nat) (nonce : Word) (ws : List Word) : List Word :=
  bitWords (gcmCtr key (ringIv src nonce) (bitOctets ws)) ws.length
def ringTag (key : List Nat) (src : Nat) (nonce h0 : Word) (ct : List Word) : List Word :=
  let t := gcmTag key (ringIv src nonce) (bitOctets [putBit h0 2 false]) (bitOctets ct) 36 (36 * ct.length)
  (groups 4 t).map (fun g => BitVec.ofNat 36 (octetsNat g))

def ringKey (s : State) : List Nat := slotKey1 s (s.get ringB RING_CRYPT_SLOT)

/-- R412: may E4 use its slot now? -/
def ringKeyOk (s : State) : Bool :=
  s.flag ringB RING_CRYPT_EN && slotAllows s (s.get ringB RING_CRYPT_SLOT) 4 2 (lcState s)

/-- R379: the plaintext words of an encrypted payload, none where the tag fails. -/
def ringOpen (s : State) (f : RingFrame) : Option (List Word) :=
  let n := f.pay.length - 5
  let nonce := f.pay.getD 0 0
  let ct := (f.pay.drop 1).take n
  if 6 ≤ f.pay.length && ringKeyOk s
      && ringTag (ringKey s) (fSrc f.h0) nonce f.h0 ct == (f.pay.drop (n + 1)).map (fun w => w &&& maskOf 31 0) then
    some (ringCtr (ringKey s) (fSrc f.h0) nonce ct)
  else none

/-! ### Sending data (R363, R364) -/

def slotState (s : State) (i : Nat) : Nat := s.get (txSlot i) RING_TXS_STATE

/-- The frame of a pending slot: SRC filled in, MON clear, payload sealed where ENC is 1. -/
def slotFrame (s : State) (i : Nat) : RingFrame :=
  let h := s.rd (txSlot i)
  let h0 := putBit (setBits h 25 16 (ringAddr s)) 2 false
  let pay := (List.range (bitsOf h 11 5)).map (fun j => s.rd (txSlot i + 4 + 4 * j))
  let pay := if fEnc h then
      let nonce := (s.ring.slots.getD i (0, 0)).2
      let ct := ringCtr (ringKey s) (ringAddr s) nonce ((pay.drop 1).take (pay.length - 5))
      nonce :: ct ++ ringTag (ringKey s) (ringAddr s) nonce h0 ct
    else pay
  mkFrame h0 pay (s.get (txSlot i) RING_TXS_FSEQ)

/-- R364: in RUN the lowest pending slot is sent. -/
def slotServe4 (s : State) : State :=
  if ringState s != 3 || s.ring.dup then s
  else match (List.range 4).find? (fun i => slotState s i == 1) with
    | none => s
    | some i =>
      let nonce := (s.ring.slots.getD i (0, 0)).2
      let s := ringPut (s.put (txSlot i) RING_TXS_STATE 2) (slotFrame s i)
      setRing s (fun r => { r with slots := r.slots.set i (s.now, nonce) })

/-- R363: between frames the node sends what its insertion buffer holds, then its own frames that wait, then its slots. -/
def ringServe (s : State) : State :=
  let s := if s.due s.ring.wakeEnd then (setRing s (fun r => { r with wakeEnd := none })).put ringB RING_CTRL_WAKE 0 else s
  let s := setRing s (fun r => { r with waiting := r.waiting.filter (ownStands s) })
  if !lineFree s then s
  else match s.ring.held, s.ring.waiting with
    | f :: l, _ => ringPut (setRing s (fun r => { r with held := l })) f
    | [], o :: l => ownStart (setRing s (fun r => { r with waiting := l })) o
    | [], [] => slotServe4 s

/-- R366: a slot's final state raises TXDONE. -/
def slotDone (s : State) (i st : Nat) : State := ringIrq (s.put (txSlot i) RING_TXS_STATE st) 4

/-- R366: a slot is resent, or ends with `st` when no retry is left. -/
def slotRetry (s : State) (i st : Nat) : State :=
  if s.get (txSlot i) RING_TXS_TRIES < s.get ringB RING_CFG_RTRY then
    (s.incField (txSlot i) RING_TXS_TRIES).put (txSlot i) RING_TXS_STATE 1
  else slotDone s i st

/-- R366: the deadline of a slot in flight. -/
def ackEnd (s : State) (i : Nat) : Word :=
  (s.ring.slots.getD i (0, 0)).1 + BitVec.ofNat 36 (1000 * s.get ringB RING_CFG_ACKTO)

/-- R366: a DATA frame of this node returns.  EOF with ACK 1, which the table leaves out, counts as no acceptance
(log entry 13). -/
def dataReturn (s : State) (f : RingFrame) : State :=
  match (List.range 4).find? (fun i => slotState s i == 2 && s.get (txSlot i) RING_TXS_FSEQ == frameSeq f) with
  | none => s
  | some i =>
    let s := if ackEnd s i = s.now then s.put (txSlot i) RING_TXS_COINCIDENT 1 else s
    if f.fin == .abort || !frameGood f then slotRetry s i 5
    else if !fAck f.h0 || fBc f.h0 then slotDone s i 6
    else match f.fin with
      | .eofA => slotDone s i 3
      | .eofN => slotRetry s i 4
      | _ => slotRetry s i 5

/-- R371: the keeper's TIME frame returns, its SOF at count `stamp`. -/
def timeReturn (s : State) (f : RingFrame) (stamp : Word) : State :=
  match s.ring.timeOut with
  | none => s
  | some t =>
    if !frameGood f then s
    else
      let loop := (stamp - t).toNat
      let d := roundTicks s ((f.pay.getD 1 0).toNat + s.get ringB RING_CFG_CABLE)
      let s := s.drawn
      let s := (s.putNat ringB RING_KEEP_LOOP loop).putInt ringB RING_KEEP_DERR ((loop : Int) - d)
      setRing s (fun r => { r with timeOut := none, timeAt := s.now })

/-- R372: the census returns: its words 32–63, with the keeper's own bit, are the completed map. -/
def censusReturn (s : State) (f : RingFrame) : State :=
  if !frameGood f then s
  else
    let a := ringAddr s
    let m := (f.pay.drop 32).take 32
    setRing s (fun r => { r with map := m.set (a / 32) (putBit (m.getD (a / 32) 0) (a % 32) true) })

/-- R368: a CLAIM with the node's own address and another's UID: CLAIM is entered, and the node is never keeper. -/
def ringDup (s : State) : State :=
  let s := if ringState s = 2 then s else ringClaim s
  setRing (s.put ringB RING_STAT_DUPADDR 1) (fun r => { r with dup := true, claiming := false })

/-- R368: a CLAIM of this node returns; one that comes back in RUN is left over from the election (log entry 69). -/
def claimReturn (s : State) (f : RingFrame) : State :=
  if !frameGood f then s
  else if f.pay.getD 0 0 != Config.uid then ringDup s
  else if ringState s = 4 then ringClaim s
  else if ringState s != 2 || !s.ring.claiming then s
  else
    let n := s.ring.returns + 1
    if 3 ≤ n && !s.ring.lower then becomeKeeper s else setRing s (fun r => { r with returns := n })

/-- R362, R366: a frame of this node's own is stripped; one that ended in ABORT is ignored but for its slot (R357). -/
def ringReturn (s : State) (f : RingFrame) (stamp : Word) : State :=
  if fType f.h0 = 0 then dataReturn s f
  else if f.fin == .abort then s
  else match fType f.h0 with
    | 1 => timeReturn s f stamp
    | 2 => claimReturn s f
    | 3 => censusReturn s f
    | _ => s

/-! ### Receiving -/

/-- R365, R379: an accepted DATA frame stored at WPOS. -/
def ringStore (s : State) (f : RingFrame) (stamp : Word) : State :=
  let body := if fEnc f.h0 then ringOpen s f else some f.pay
  match body with
  | none => ringIrq s 0
  | some ws =>
    let e := s.get ringB RING_RXRING_WPOS
    let s := (s.wr (rxEnt e) f.h0).wr (rxEnt e + 4) stamp
    let s := s.each ws.zipIdx (fun s p => s.wr (rxEnt e + 8 + 4 * p.2) p.1)
    let s := (s.put (rxEnt e) RING_RXS_FSEQ (frameSeq f)).put (rxEnt e) RING_RXS_AUTH 1
    let s := (s.put ringB RING_RXRING_WPOS (e + 1)).put ringB RING_RXRING_LEVEL (s.get ringB RING_RXRING_LEVEL + 1)
    ringIrq s 5

/-- R365: a DATA frame that passes: accepted, refused, marked again, or only forwarded. -/
def ringData (s : State) (f : RingFrame) (stamp : Word) : State :=
  let src := fSrc f.h0
  let bc := fBc f.h0
  let mark := fun (e : RingEnd) => if bc then f else { f with fin := e }
  if !(bc || fDst f.h0 == ringAddr s) then ringForward s f
  else if s.ring.seen.contains (src, frameSeq f) then ringForward s (mark .eofA)
  else if 16 ≤ s.get ringB RING_RXRING_LEVEL then ringForward (s.satField ringB RING_CNT_RXFULL) (mark .eofN)
  else
    let s := setRing (ringStore s f stamp) (fun r => { r with
      seen := (src, frameSeq f) :: r.seen.filter (fun p => p.1 != src) })
    ringForward s (mark .eofA)

/-- R369, R370: a TIME frame of another node. -/
def ringTime (s : State) (f : RingFrame) (stamp : Word) : State :=
  let d := (f.pay.getD 1 0).toNat + s.get ringB RING_CFG_CABLE
  let s := setKeeper ((s.put ringB RING_STAT_STATE 3).put ringB RING_STAT_KEEPER 0) (fSrc f.h0)
  let s := s.wr (ringB + 0x18) (f.pay.getD 0 0 + BitVec.ofNat 36 (roundTicks s d) - stamp)
  let s := setRing s.drawn (fun r => { r with timeAt := s.now, timeOut := none, claiming := false, brk := false })
  ringForward s (withPay f [f.pay.getD 0 0, BitVec.ofNat 36 (d + 48)])

/-- R368: a CLAIM frame of another node. -/
def ringClaimSeen (s : State) (f : RingFrame) : State :=
  let s := if ringState s = 2 then s else ringClaim s
  if fSrc f.h0 < ringAddr s then
    ringForward (setRing s (fun r => { r with claiming := false, lower := true, returns := 0 })) f
  else s

/-- R372: the map of a census copied, MAPCHG where it differs. -/
def mapCopy (s : State) (m : List Word) : State :=
  let new := (List.range 32).map (fun k => bitsOf (m.getD k 0) 31 0)
  let old := (List.range 32).map (fun k => s.get ringB (RING_MAP_MAP.at k))
  if new == old then s
  else ringIrq (s.each (List.range 32) (fun s k => s.put ringB (RING_MAP_MAP.at k) (new.getD k 0))) 1

/-- R372: a CENSUS frame passes; every node copies its map, one in RUN sets its own bit and forwards it (R369). -/
def ringCensus (s : State) (f : RingFrame) : State :=
  if ringState s != 3 then mapCopy s f.pay
  else
    let a := ringAddr s
    let i := 32 + a / 32
    ringForward (mapCopy s f.pay) (withPay f (f.pay.set i (putBit (f.pay.getD i 0) (a % 32) true)))

/-- R373: a BREAK frame. -/
def ringBreakSeen (s : State) (f : RingFrame) : State :=
  let s := ringBroken s
  ringForward ((s.put ringB RING_BRK_ADDR (fSrc f.h0)).put ringB RING_BRK_VALID 1) f

/-- R360–R373: a frame arrives at an inserted node. -/
def ringReceive (s : State) (f : RingFrame) (stamp : Word) (codeErr : Bool) : State :=
  let run := ringState s == 3
  let bad := codeErr || !frameGood f
  let s := if bad then s.satField ringB RING_CNT_CRCERR else s
  let f := if bad then { f with fin := .abort } else f
  let ty := fType f.h0
  if hdrGood f && fSrc f.h0 = ringAddr s then ringReturn s f stamp
  else if isKeeper s && fMon f.h0 then s
  else if f.fin == .abort then (if run || ty == 1 || ty == 2 || ty == 5 then ringForward s f else s)
  else match ty with
    | 0 => if run then ringData s f stamp else s
    | 1 => ringTime s f stamp
    | 2 => ringClaimSeen s f
    | 3 => ringCensus s f
    | 5 => ringBreakSeen s f
    | _ => if run then ringForward s f else s

/-- RING_FRAME_RECEIVED (R362): a frame arrives, its SOF at count `stamp`; `codeErr`: a code error within it. -/
def execRingFrameReceived (h0 h1 : Word) (pay : List Word) (check : Word) (fin : RingEnd) (stamp : Word) (codeErr : Bool)
    (s : State) : Answer := s.on .ring <|
  (s.when (decide (2 ≤ ringState s) && pastCount s stamp) (fun s => ringReceive s ⟨h0, h1, pay, check, fin⟩ stamp codeErr)).next

/-- RING_FRAME_RETURN (R366): a frame of this node's own arrives again. -/
def execRingFrameReturn (h0 h1 : Word) (pay : List Word) (check : Word) (fin : RingEnd) (stamp : Word) (s : State) : Answer := s.on .ring <|
  let f : RingFrame := ⟨h0, h1, pay, check, fin⟩
  (s.when (decide (2 ≤ ringState s) && pastCount s stamp && hdrGood f && fSrc h0 == ringAddr s) (fun s => ringReceive s f stamp false)).next

/-- R366: a slot in flight whose ACKTO has passed. -/
def ackServe (i : Nat) (s : State) : State :=
  s.when (slotState s i == 2 && s.reached (ackEnd s i)) (fun s => slotRetry s i 5)

/-- RING_ACK_TIMEOUT (R366): no return within ACKTO × 10 µs; a return in its very tick is in time (R40). -/
def execRingAckTimeout (i : Fin 4) (s : State) : Answer :=
  s.on .ring ((s.expire (some (ackEnd s i.val)) (.ringAckTimeout i) (ackServe i.val)).next)

/-! ### Link, breaks and the keeper's frames -/

/-- RING_LINK_TRAINED (R376 steps 2 and 3, R377): `eq` is the gain the loop asks for. -/
def ringLinkTrainedEffect (eq : Nat) (s : State) : State :=
  let lo := s.get ringB RING_CFG_EQMIN; let hi := s.get ringB RING_CFG_EQMAX
  let s := (s.put ringB RING_STAT_EQ (max lo (min hi eq))).put ringB RING_STAT_CLIPPED (decide (eq < lo) || decide (hi < eq)).toNat
  ringClaim s

/-- R376: has the lock been held for 1 ms in training? -/
def ringTrained (s : State) : Bool :=
  ringState s == 1 && s.ring.lock && s.reached (s.ring.lockAt + BitVec.ofNat 36 (ms 1))

/-- RING_LINK_TRAINED where its condition holds; else nothing happens. -/
def execRingLinkTrained (eq : Nat) (s : State) : Answer :=
  s.on .ring ((s.when (ringTrained s) (ringLinkTrainedEffect eq)).next)

/-- RING_LOCK_LOSS (R358): after `errs` code errors, or at a loss of signal. -/
def execRingLockLoss (errs : Nat) (s : State) : Answer := s.on .ring <|
  (s.when (ringState s != 0 && s.ring.lock) (fun s =>
    let s := s.put ringB RING_CNT_CRCERR (min 4095 (s.get ringB RING_CNT_CRCERR + errs))
    setRing s (fun r => { r with lock := false, lossAt := s.now }))).next

/-- RING_SYMBOL_LOCK (R358): IDLE found at one alignment in 16 consecutive symbol slots. -/
def execRingSymbolLock (s : State) : Answer := s.on .ring <|
  (s.when (ringState s != 0 && !s.ring.lock) (fun s =>
    setRing s (fun r => { r with lock := true, tone := false, lockAt := s.now }))).next

/-- WAKE_TONE_RECEIVED (R381): a node in RUN forwards the tone and counts no break. -/
def execWakeToneReceived (s : State) : Answer :=
  let s := s.when (s.flag ringB RING_CTRL_WKEN) (fun s => wakeDetect s 27)
  (s.when (s.ready .ring && ringState s == 3) (fun s =>
    setRing (s.put ringB RING_STAT_WAKESEEN 1) (fun r => { r with tone := true, wakeEnd := some (s.after (us 100)) }))).next

/-- R373: no lock for 10 µs: BROKEN, and BREAK frames are this node's to send. -/
def ringBreakDetectEffect (s : State) : State :=
  setRing (ringBroken s) (fun r => { r with brk := true, nextBreak := if r.brk then r.nextBreak else s.now })

/-- RING_BREAK_DETECT (R373): no lock for 10 µs. -/
def execRingBreakDetect (s : State) : Answer := s.on .ring <|
  (s.when (decide (2 ≤ ringState s) && !s.ring.lock && !s.ring.tone && s.reached (s.ring.lossAt + BitVec.ofNat 36 (us 10)))
    ringBreakDetectEffect).next

/-- RING_BREAK_SEND (R373): every 100 µs by the node whose input lost its lock. -/
def ringBreakSendEffect (s : State) : State :=
  ownSend (setRing s (fun r => { r with nextBreak := s.after (us 100) })) .brk

/-- RING_BREAK_SEND where its condition holds; else nothing happens. -/
def execRingBreakSend (s : State) : Answer := s.on .ring <|
  (s.when (ringState s == 4 && s.ring.brk && !s.ring.dup && s.reached s.ring.nextBreak) ringBreakSendEffect).next

/-- RING_RELOCK (R373): the input has kept lock for 100 µs. -/
def execRingRelock (s : State) : Answer := s.on .ring <|
  (s.when (ringState s == 4 && s.ring.lock && s.reached (s.ring.lockAt + BitVec.ofNat 36 (us 100))) ringClaim).next

/-- RING_CLAIM_SEND (R368): every 20 µs. -/
def ringClaimSendEffect (s : State) : State :=
  ownSend (setRing s (fun r => { r with nextClaim := s.after (us 20) })) .claim

/-- RING_CLAIM_SEND where its condition holds; else nothing happens. -/
def execRingClaimSend (s : State) : Answer := s.on .ring <|
  (s.when (ringState s == 2 && s.ring.claiming && s.reached s.ring.nextClaim) ringClaimSendEffect).next

/-- R368: when 3 ms without a TIME frame have passed. -/
def timeMissAt (s : State) : Word := s.ring.timeAt + BitVec.ofNat 36 (ms 3)

/-- R368: a node in RUN that has seen no TIME frame for 3 ms claims. -/
def timeMissServe (s : State) : State := s.when (ringState s == 3 && s.reached (timeMissAt s)) ringClaim

/-- RING_TIME_TIMEOUT (R368): no TIME frame for 3 ms in RUN; one in the very tick is in time (R40). -/
def execRingTimeTimeout (s : State) : Answer :=
  s.on .ring ((s.expire (some (timeMissAt s)) .ringTimeTimeout timeMissServe).next)

/-- RING_TIME_SEND (R370): every 1 ms. -/
def execRingTimeSend (s : State) : Answer := s.on .ring <|
  (s.when (ringState s == 3 && isKeeper s && s.ring.timeOut.isNone && s.reached s.ring.nextTime) timeSend).next

/-- R373: when the keeper's TIME frame has been away for 1 ms. -/
def timeReturnBy (s : State) : Option Word := s.ring.timeOut.map (fun t => t + BitVec.ofNat 36 (ms 1))

/-- R373: a keeper whose TIME frame has not returned within 1 ms is BROKEN. -/
def timeReturnServe (s : State) : State := s.when (ringState s == 3 && isKeeper s && s.due (timeReturnBy s)) ringBroken

/-- RING_TIME_RETURN_TIMEOUT (R373): a return in the very tick is in time (R40). -/
def execRingTimeReturnTimeout (s : State) : Answer :=
  s.on .ring ((s.expire (timeReturnBy s) .ringTimeReturnTimeout timeReturnServe).next)

/-- RING_CENSUS_SEND (R372): every 10 ms; the keeper copies the map it sends. -/
def ringCensusSendEffect (s : State) : State :=
  ownSend (setRing (mapCopy s s.ring.map) (fun r => { r with nextCensus := s.after (ms 10) })) .census

/-- RING_CENSUS_SEND where its condition holds; else nothing happens. -/
def execRingCensusSend (s : State) : Answer := s.on .ring <|
  (s.when (ringState s == 3 && isKeeper s && s.reached s.ring.nextCensus) ringCensusSendEffect).next

/-! ### Writes and resets -/

/-- The slots a TXGO word names. -/
def goSlots (w : Word) : List Nat := onesBelow w 4

/-- The checks of the ring chapter on a write of `w` at offset `o` (R355, R364, R367, R377, R378, R381). -/
def ringChk (s : State) (src : Src) (o : Nat) (w : Word) : Fails :=
  failAt (!ringPresent s) 5 0x07
  ++ (if o = 0 then failAt (bitAt w 27 && !(ringState s == 3 || ringState s == 1)) 12 0x11
    else if o = 4 then failAt (decide (bitsOf w 17 13 < bitsOf w 22 18)) 11 0x02
    else if o = 0x20 then
      let l := goSlots w
      let h := fun i => s.rd (txSlot i)
      let enc := l.filter (fun i => fEnc (h i))
      failAt (l.any (fun i => slotState s i == 1 || slotState s i == 2)) 12 0x10
      ++ failAt (l.any (fun i => fType (h i) != 0 || decide (64 < bitsOf (h i) 11 5)
          || (fEnc (h i) && decide (bitsOf (h i) 11 5 < 6)))) 12 0x14
      ++ failAt (!enc.isEmpty && (!s.flag ringB RING_CRYPT_EN
          || decide (2 ^ 36 - 1 < (s.rd (ringB + 0x40)).toNat + enc.length))) 12 0x13
    else if o = 0x28 then failAt (decide (s.get ringB RING_RXRING_LEVEL < bitsOf w 35 31)) 12 0x12
    else if o = 0x38 then
      failAt (src.req != 4) 2 0x04 ++ failAt (!slotAllows s (bitsOf w 34 30) 4 2 (lcState s)) 10 0x09
    else [])

/-- R364: one slot made pending: FSEQ assigned, and a nonce where ENC is 1. -/
def slotGo (s : State) (i : Nat) : State :=
  let enc := fEnc (s.rd (txSlot i))
  let nonce := s.rd (ringB + 0x40)
  let q := s.ring.fseq
  let s := ((s.put (txSlot i) RING_TXS_STATE 1).put (txSlot i) RING_TXS_FSEQ q).put (txSlot i) RING_TXS_TRIES 0
  let s := if enc then s.wr (ringB + 0x40) (nonce + 1) else s
  setRing s (fun r => { r with fseq := (q + 1) % 16, slots := r.slots.set i (0, nonce) })

/-- What an accepted write does beyond the register. -/
def ringWritten (s : State) (o : Nat) (old w : Word) : State :=
  if o = 0 then
    let s := if bitAt w 35 && !bitAt old 35 then
        setRing (s.put ringB RING_STAT_STATE 1) (fun r => { r with lock := false, tone := false, dup := false, brk := false })
      else if !bitAt w 35 && bitAt old 35 then
        setRing ((s.put ringB RING_STAT_STATE 0).put ringB RING_STAT_KEEPER 0) (fun r => { r with
          lock := false, claiming := false, timeOut := none })
      else s
    if bitAt w 27 then setRing s (fun r => { r with wakeEnd := some (s.after (us 100)) }) else s
  else if o = 0x20 then s.each (goSlots w) slotGo
  else if o = 0x28 then
    let n := bitsOf w 35 31
    (s.put ringB RING_RXRING_RPOS (s.get ringB RING_RXRING_RPOS + n)).put ringB RING_RXRING_LEVEL
      (s.get ringB RING_RXRING_LEVEL - n)
  else s

def ringReset (s : State) : State := setRing (s.resetBlk .ring) (fun _ => .reset)

end Sys2Proof.Machine
end

