-- ==== Sys2Proof/Machine/NetRegs.lean ====
section
/-! DEFINITION. Writes to the network and ring islands (chapters 11 to 14). -/

namespace Sys2Proof.Machine

/-- A write to CANn. -/
def canWrite (n : Nat) (r : WriteReq) (s : State) : State :=
  blockWrite r (fun s w => canChk s n r.src r.off w) (canLocked s n) (fun s old w => canWritten s n r.off old w)
    (fun s code => canRejected s n r.off code r.data) s

/-- A write to LINn. -/
def linWrite (n : Nat) (r : WriteReq) (s : State) : State :=
  blockWrite r (fun s w => linChk s n r.off w) (s.flag (linB n) LIN_CTRL_EN) (fun s old w => linWritten s n r.off old w) noRej s

/-- A write to SPICn: its presence (R71, R94). -/
def spicWrite (n : Nat) (r : WriteReq) (s : State) : State :=
  blockWrite r (fun s _ => failAt (!netBit s (7 + n)) 5 0x07) false noHook noRej s

/-- A write to a TS or TX port. -/
def ethWrite (p : Nat) (r : WriteReq) (s : State) : State :=
  blockWrite r (fun s w => ethChk s p r.off w) (s.flag (ethB p) ETH_CTRL_EN) (fun s old w => ethWritten s p r.off old w) noRej s

/-- A write to RING. -/
def ringWrite (r : WriteReq) (s : State) : State :=
  blockWrite r (fun s w => ringChk s r.src r.off w) (s.flag ringB RING_CTRL_EN) (fun s old w => ringWritten s r.off old w) noRej s

/-- What an accepted write to an NMG channel's page does. -/
def nmgWritten (c o : Nat) (s : State) (old w : Word) : State :=
  if o = 0 then nmgCtrlWritten s c old w else if o = 0x10 then nmgFwakeWritten s c w else s

/-- What an accepted write to the log's registers does. -/
def nmgLogHook (o : Nat) (s : State) (_ w : Word) : State := if o = 4 then nmgLogWritten s w else s

/-- A write to NMG: the channel pages, the wake-frame pages of CAN0 and CAN1, and the log. -/
def nmgWrite (r : WriteReq) (s : State) : State :=
  if 0x100 ≤ r.off && r.off < 0x400 then
    let c := (r.off - 0x100) / 0x40
    let o := (r.off - 0x100) % 0x40
    blockWrite r (fun s w => nmgChk s c o w) (s.flag (nmgP c) NMG_CTRL_EN)
      (nmgWritten c o) noRej s
  else if 0x400 ≤ r.off && r.off < 0x440 then
    let c := (r.off - 0x400) / 0x20
    blockWrite r (fun s _ => failAt (!nmgPresent s c) 5 0x07) (s.flag (nmgP c) NMG_CTRL_EN) noHook noRej s
  else
    blockWrite r (fun _ _ => []) false (nmgLogHook r.off) noRej s

end Sys2Proof.Machine
end

