-- ==== Sys2Proof/Machine/Protection.lean ====
section
/-! DEFINITION. The events of the output channels and their protections (chapters 4 and 5). -/

namespace Sys2Proof.Machine

/-- Does a page serve the function, in its own right or as the odd member of a pair? -/
def carried (s : State) (f : Nat) : Bool := decide (f < 72) && chUsed s f

/-- R179: does the power island, which is ready, serve the function? -/
def served (s : State) (f : Nat) : Bool := carried s f && s.ready .power

/-- The function whose state serves `f`, and whether `f` is the odd member (R133). -/
def isOddOf (s : State) (f : Nat) : Bool := lead s f != f

/-- A driven state of R121. -/
def driven (st : Nat) : Bool := (1 ≤ st && st ≤ 4) || st == stSafe

/-! ### Current limit, trips and clamp -/

/-- PWM_ON_TIME_END (R125, R131): the high side turns off at the end of its on-time. -/
def execPwmOnTimeEnd (f : Nat) (s : State) : Answer := (s.when (served s f) (fun s => endPulse s (lead s f))).next

/-- R152: a switch's current reaches ILIM, where its gate drive regulates it, or falls below again. -/
def Limit.reach (r : Limit) (now : Word) (at_ : Bool) : Limit :=
  if at_ then (if r.since.isSome then r else { (r.settled now) with since := some now, below := none })
  else if r.since.isSome then { since := none, acc := r.total now, below := some now } else r

/-- The conducting switch of a member: its high-side or only switch, else its low-side one. -/
def onLimit (s : State) (f : Nat) : Limit := if (s.ch (lead s f)).hs then (s.ch f).limHi else (s.ch f).limLo
def setOnLimit (s : State) (f : Nat) (g : Limit → Limit) : State :=
  if (s.ch (lead s f)).hs then s.setCh f (fun c => { c with limHi := g c.limHi })
  else s.setCh f (fun c => { c with limLo := g c.limLo })

/-- Does a switch of the function's channel conduct on command? -/
def conducts (s : State) (f : Nat) : Bool :=
  let g := lead s f
  expectedHs s g || expectedLs s g

/-- CURRENT_LIMIT_REACHED (R152, R154): the current of a member's conducting switch reaches ILIM, or (`at_` false) leaves it
again; the regulation time runs while it stands there. -/
def execCurrentLimitReached (f : Nat) (at_ : Bool) (s : State) : Answer :=
  (s.when (served s f && driven (chState s (lead s f)) && conducts s f)
    (fun s => setOnLimit s f (fun r => r.reach s.now at_))).next

/-- ILIM_TIME_TRIP (R152, R154): the member's regulation has lasted TLIM × 10 µs in total. -/
def execIlimTimeTrip (f : Nat) (also : List TripCause) (s : State) : Answer :=
  let g := lead s f
  (s.when (served s f && conducts s f && decide (us (10 * s.get (pscP g) PSC_LIMIT_TLIM) ≤ (onLimit s f).total s.now))
    (fun s => trip s g (.ilimt :: also) (isOddOf s f))).next

/-- REGULATION_TIME_CLEAR (R152): 100 µs of conduction below ILIM without a break reset the regulation time. -/
def execRegulationTimeClear (f : Nat) (s : State) : Answer :=
  (s.when (served s f && conducts s f) (fun s => setOnLimit s f (fun r => r.settled s.now))).next

/-- SHORT_CIRCUIT_TRIP (R153): 1.5 × ILIM on the comparator, or 20 µs of regulation into a hard short. -/
def execShortCircuitTrip (f : Nat) (also : List TripCause) (s : State) : Answer :=
  (s.when (served s f) (fun s => trip s (lead s f) (.sc :: also) (isOddOf s f))).next

/-- The inrush window closes once its last tick is over (R158, R159). -/
def inrushServe (f : Nat) (s : State) : State :=
  s.when (served s f && s.due (s.ch (lead s f)).winEnd) (fun s => s.setCh (lead s f) (fun c => { c with winEnd := none }))

/-- INRUSH_WINDOW_END (R158, R159): at the end of the window's last tick. -/
def execInrushWindowEnd (f : Nat) (s : State) : Answer :=
  (s.expire (s.ch (lead s f)).winEnd (.inrushWindowEnd f) (inrushServe f)).next

/-- PSC_PROT.BKT shows the bucket in whole mJ (R161). -/
def showBucket (s : State) (f : Nat) : State := s.put (pscP f) PSC_PROT_BKT (min 4095 ((s.ch f).bucket / 10000))

/-- Did the function trip in the present tick? -/
def trippedNow (s : State) (f : Nat) : Bool := match (s.ch f).tripped with | some t => t.1 == s.now | none => false

/-- R167: a lock that takes precedence over the decision order undoes what a trip of the same tick spent. -/
def unspend (s : State) (f : Nat) : State :=
  match (s.ch f).tripped with
  | some t => if t.1 = s.now then (s.put (pscP f) PSC_PROT_RLEFT t.2.1).put (pscP f) PSC_PROT_INRLEFT t.2.2 else s
  | none => s

/-- R162, R167: the clamp lock takes precedence over every trip of its tick, but not over a second path's lock (log entry
88). -/
def clampLock (s : State) (f : Nat) : State :=
  if s.get (pscP f) PSC_CLAMP_CAP * 10000 < (s.ch f).bucket then
    let s := setFault s f PSC_FAULT_CLAMP
    if driven (chState s f) || chState s f == stRetry
        || (chState s f == stLocked && trippedNow s f && s.get (pscP f) PSC_FAULT_LCAUSE != 6) then
      enterLocked (unspend s f) f 5
    else settle s f
  else s

/-- R156, R161: a value held to whole units: which of the two neighbours of a value between them is held is free. -/
def quant (s : State) (x : Rat) : Int × State :=
  let n := x.floor
  if (n : Rat) = x then (n, s) else (if s.freeBit then n + 1 else n, s.drawn)

/-- R161, R115: the energy of one sense sample through a conducting clamp, in 0.1 µJ: 62 V (65 V on a low side) times the
current in 0.1 mA times the class's sample interval of 1 or 4 µs. -/
def clampEnergy (f current : Nat) (low : Bool) : Rat :=
  (if low || clsOf f == .lo then 65 else 62 : Nat) * (current : Rat) / 1000 * (if clsOf f == .l || clsOf f == .lo then 4 else 1 : Nat)

/-- CLAMP_ENERGY_EXCEEDED (R161, R162): the energy of a sense sample while a clamp conducts is added to the bucket, which is
held to 0.1 µJ, and compared with CAP. -/
def clampEnergyExceededEffect (f current : Nat) (low : Bool) (s : State) : State :=
  let g := lead s f
  let e := quant s (clampEnergy f current low)
  let s := e.2.setCh g (fun c => { c with bucket := c.bucket + e.1.toNat, clampAcc := c.clampAcc + e.1.toNat })
  clampLock (showBucket s g) g

/-- CLAMP_ENERGY_EXCEEDED where its condition holds; else nothing happens. -/
def execClampEnergyExceeded (f current : Nat) (low : Bool) (s : State) : Answer :=
  (s.when (served s f) (clampEnergyExceededEffect f current low)).next

/-- CLAMP_LEAK_TICK (R161): every bucket loses LEAK × 0.1 µJ, never below 0; a stopped island's leak is made up at its exit
(R178). -/
def execClampLeakTick (s : State) : Answer :=
  (s.when (s.ready .power) (fun s => s.each (usedFuncs s) (fun s f =>
    showBucket (s.setCh f (fun c => { c with bucket := c.bucket - s.get (pscP f) PSC_CLAMP_LEAK })) f))).next

/-- PARKON_LIMIT_FAULT (R121, R150): a PARKON channel held at PKLIM for 1 ms, or thermally shut down, turns off. -/
def parkonLimitFaultEffect (f : Nat) (s : State) : State :=
  let g := lead s f
  let s := (allOff s g).setCh g (fun c => { c with mode := 0 })
  wakeDetect (settle (setFault (setChState s g stOff) g PSC_FAULT_PARKFLT) g) 23

/-- PARKON_LIMIT_FAULT where its condition holds; else nothing happens. -/
def execParkonLimitFault (f : Nat) (s : State) : Answer :=
  (s.when (carried s f && chState s (lead s f) == stParkon) (parkonLimitFaultEffect f)).next

/-- A thermal latch of a switch (the second: low side, or odd member) set or released (R163). -/
def setLatch (s : State) (f : Nat) (second b : Bool) : State :=
  let g := lead s f
  conductChanged (s.setCh g (fun c =>
    let c := c.sampled s.now
    if second || isOddOf s f then { c with latch1 := b } else { c with latch0 := b })) g

/-- THERMAL_LATCH (R163, R164): a switch latches off in whatever state: a trip with cause THERM, in PARKON its thermal
shutdown (R121). -/
def thermalLatchEffect (f : Nat) (second : Bool) (also : List TripCause) (s : State) : State :=
  let s := setLatch s f second true
  if chState s (lead s f) = stParkon then parkonLimitFaultEffect f s
  else trip s (lead s f) (.therm :: also) (isOddOf s f)

/-- THERMAL_LATCH where its condition holds; else nothing happens. -/
def execThermalLatch (f : Nat) (second : Bool) (also : List TripCause) (s : State) : Answer :=
  (s.when (carried s f) (thermalLatchEffect f second also)).next

/-- THERMAL_RELEASE (R163): the junction has fallen to its release temperature. -/
def execThermalRelease (f : Nat) (second : Bool) (s : State) : Answer :=
  (s.when (carried s f) (fun s => setLatch s f second false)).next

/-- The restart of R167 once every condition holds. -/
def retryServe (f : Nat) (s : State) : State :=
  s.when (served s f && chState s (lead s f) == stRetry && restartOk s (lead s f)) (fun s => restart s (lead s f))

/-- The end of the hold or of the heartbeat supervision, that of the present tick if one falls in it. -/
def beatDue (s : State) : Option Word := if s.beat.deadline = some s.now then s.beat.deadline else s.beat.holdEnd

/-- RETRY_DELAY_EXPIRY (R167, R168): in RETRY, the restart is made once every condition holds; in the tick of a hold's or
the heartbeat's expiry after that expiry. -/
def execRetryDelayExpiry (f : Nat) (s : State) : Answer :=
  (s.expire (beatDue s) (.retryDelayExpiry f) (retryServe f)).next

/-- RETRY_RESTORE_TIMEOUT (R165): 10 s without a trip outside RETRY and LOCKED, and no latch set. -/
def execRetryRestoreTimeout (f : Nat) (s : State) : Answer :=
  let g := lead s f
  (s.when (served s f && chState s g != stRetry && chState s g != stLocked && !latched s g
      && decide (sec 10 ≤ (s.now - (s.ch g).quiet).toNat))
    (fun s => s.put (pscP g) PSC_PROT_RLEFT (s.get (pscP g) PSC_RETRY_RMAX))).next

/-! ### Management path and data path -/

/-- R139: the mask after a commanded edge, in ticks. -/
def edgeMask (f : Nat) : Nat := if clsOf f == .h || clsOf f == .b then us 4 else us 2

/-- MISMATCH_DETECT (R139): the read-back of a member's switches; a disagreement outside the mask sets MISMATCH and is
recorded as a class 11 fault, one within it only shows in PSC_DP, an agreement ends it. -/
def mismatchDetectEffect (f : Nat) (hs ls : Bool) (s : State) : State :=
  let g := lead s f
  let bad := hs != expectedHs s g || ls != expectedLs s g
  if !bad then
    let s := s.setCh f (fun c => { c with readback := none, misSince := none, misSafe := none })
    let settled := (members s g).all (fun m => (s.ch m).misSince.isNone)
    showDp (dropCause s (fun c => c.cls == 11 && c.idx == g && settled && chState s g != stLocked)) g
  else if edgeMask g < (s.now - (s.ch g).edgeAt).toNat then
    let first := (members s g).all (fun m => (s.ch m).misSince.isNone)
    let s := showDp (s.setCh f (fun c => { c with
      readback := some (hs, ls), misSince := some (c.misSince.getD s.now) })) g
    let s := settle (setFault s g PSC_FAULT_MISMATCH) g
    if first then safeDetect s 11 g else s
  else showDp (s.setCh f (fun c => { c with readback := some (hs, ls) })) g

/-- MISMATCH_DETECT where its condition holds; else nothing happens. -/
def execMismatchDetect (f : Nat) (hs ls : Bool) (s : State) : Answer :=
  (s.when (served s f) (mismatchDetectEffect f hs ls)).next

/-- MISMATCH_PERSIST_SAFE (R140): the member's disagreement has persisted for 100 µs. -/
def mismatchPersistSafeEffect (f : Nat) (s : State) : State :=
  let g := lead s f
  let st := chState s g
  match (s.ch f).misSince with
  | none => s
  | some t =>
    if (st == stOn || st == stPwm || st == stSafe) && s.reached (t + BitVec.ofNat 36 (us 100))
        && (s.ch f).misSafe.isNone then
      (chanSafe s g).setCh f (fun c => { c with misSafe := some s.now })
    else s

/-- MISMATCH_PERSIST_SAFE where its condition holds; else nothing happens. -/
def execMismatchPersistSafe (f : Nat) (s : State) : Answer :=
  (s.when (served s f) (mismatchPersistSafeEffect f)).next

/-- SECOND_PATH_SHUTDOWN (R140, R167): 10 µs after the SAFE entry, a member's switch still shown on that the SAFE value
requires off loses its gate supply, and the channel locks with LCAUSE 6, before any trip or clamp lock of the tick. -/
def secondPathShutdownEffect (f : Nat) (s : State) : State :=
  let g := lead s f
  match (s.ch f).misSafe, (s.ch f).readback with
  | some t, some (hs, ls) =>
    if (chState s g == stSafe || trippedNow s g) && s.reached (t + BitVec.ofNat 36 (us 10))
        && (hs && !(s.ch g).hs || ls && !(s.ch g).ls) then
      let s := s.put (pscP f) PSC_DP_SP2 1
      enterLocked (setFault (unspend s g) g PSC_FAULT_SECOND) g 6
    else s
  | _, _ => s

/-- SECOND_PATH_SHUTDOWN where its condition holds; else nothing happens. -/
def execSecondPathShutdown (f : Nat) (s : State) : Answer :=
  (s.when (served s f) (secondPathShutdownEffect f)).next

/-! ### Diagnostics -/

/-- OPEN_LOAD_ON_DETECT (R136, R138): the current stayed below OLON for OLT ms of counted on-time; report only. -/
def execOpenLoadOnDetect (f : Nat) (s : State) : Answer :=
  (s.when (served s f && s.get (pscP (lead s f)) PSC_DIAG_OLON != 0
      && decide (ms (s.get (pscP (lead s f)) PSC_DIAG_OLT) ≤ (s.ch (lead s f)).olTime))
    (fun s => settle (setFault s (lead s f) PSC_FAULT_OLON) (lead s f))).next

/-- OFF_STATE_TEST_START (R137): the first phase begins; the next test follows OFFPER ms after this one's start. -/
def offStateTestStartEffect (f : Nat) (s : State) : State :=
  let g := lead s f
  if offEligible s g && s.get (pscP g) PSC_DIAG_OFFD != 0 && s.due (s.ch g).testAt then
    s.setCh g (fun c => { c with
      testPhase := 1, testEnd := some (s.after (us 500)),
      testAt := some (s.after (ms (s.get (pscP g) PSC_DIAG_OFFPER))) })
  else s

/-- OFF_STATE_TEST_START where its condition holds; else nothing happens. -/
def execOffStateTestStart (f : Nat) (s : State) : Answer :=
  (s.when (served s f) (offStateTestStartEffect f)).next

/-- OFF_STATE_TEST_PHASE_END (R137): the output voltage compared with VFEED at the end of a phase. -/
def offStateTestPhaseEndEffect (f vout vfeed : Nat) (s : State) : State :=
  let g := lead s f
  let bad := if clsOf g == .lo then decide (vout * 10 < vfeed * 4) else decide (vfeed * 6 < vout * 10)
  if !s.due (s.ch g).testEnd then s
  else if (s.ch g).testPhase == 1 then
    let s := s.setCh g (fun c => { c with testPhase := 2, testEnd := some (s.after (us 500)) })
    if bad then settle (setFault s g PSC_FAULT_OLOFF) g else s
  else
    let s := s.setCh g (fun c => { c with testPhase := 0, testEnd := none })
    if bad then settle (setFault s g (if clsOf g == .lo then PSC_FAULT_SCG else PSC_FAULT_SCB)) g else s

/-- OFF_STATE_TEST_PHASE_END where its condition holds; else nothing happens. -/
def execOffStateTestPhaseEnd (f vout vfeed : Nat) (s : State) : Answer :=
  (s.when (served s f) (offStateTestPhaseEndEffect f vout vfeed)).next

/-- PAIR_IMBALANCE (R134): one member has carried more than 75 % of the sum over 10 ms of counted on-time. -/
def execPairImbalance (f : Nat) (s : State) : Answer :=
  (s.when (served s f && isEven s (lead s f) && decide (ms 10 ≤ (s.ch (lead s f)).imbTime)) (fun s =>
    let g := lead s f
    let s := s.put (pscP g) PSC_FAULT_IMBAL 1
    settle s g)).next

/-! ### The wire model (R155–R157) and the measurements (R135) -/

/-- R155: the ambient of a function's model, °C. -/
def wireAmb (s : State) (e : List Word) : Int :=
  s.getInt Blk.psg.base PSG_ARBSTAT_TBP + signed 9 (entBits e 2 17 9)

/-- R155: one evaluation of a function's wire model with the mean square current in mA². -/
def wireStep (s : State) (f i2 : Nat) : State :=
  match wireEntry s f with
  | none => s
  | some e =>
    let amb := wireAmb s e * 1024
    let c := s.ch f
    let s := if c.wireOn then s else s.setCh f (fun c => { c with wireOn := true, tc := amb, ti := amb })
    let c := s.ch f
    let tss : Rat := (amb : Rat) + (entBits e 0 17 0 : Rat) * (i2 : Rat) / 1000000
    let tc := quant s ((c.tc : Rat) + (tss - c.tc) / (10 * entBits e 1 35 18 : Nat))
    let s := tc.2
    let ti := quant s ((c.ti : Rat) + ((tc.1 : Rat) - c.ti) / (1000 * entBits e 1 17 0 : Nat))
    let s := ti.2
    let s := s.setCh f (fun c => { c with tc := tc.1, ti := ti.1 })
    let s := (s.putInt (pscP f) PSC_WIRE_TCON (tc.1 / 1024)).putInt (pscP f) PSC_WIRE_TINS (ti.1 / 1024)
    if (entBits e 2 35 27 : Int) * 1024 ≤ ti.1 then trip s f [.wire] false else s

/-- R172: the on-resistance in Ω of a function's class at a junction temperature. -/
def ronAt (f : Nat) (tj : Int) : Rat := (ronOf f : Rat) / 1000000 * (1 + 45 / 10000 * ((tj : Rat) - 25))

/-- R135: does an evaluation bring an on-state sample of the channel's present state: a switch conducts, or has turned off
within the last 100 µs after conducting in this state? -/
def sampledOn (s : State) (f : Nat) : Bool :=
  let c := s.ch f
  conducts s f || (c.lit && !c.held && decide ((s.now - c.edgeAt).toNat < us 100))

/-- The own current and junction temperature of one member, its loss over the last 100 µs, and its measurement fields
(R133, R135, R172); CUR is held through the off-time.  A voltage past its field's range reads 4,095 (log entry 89). -/
def senseMember (s : State) (x : ChanSense) (clamp : Nat) : State :=
  let k := curLsb x.f
  let on := sampledOn s x.f
  let loss : Rat := (x.i2 : Rat) / 1000000 * ronAt x.f x.tj + (clamp : Rat) / 1000
  let s := s.when on (fun s => (s.setCh x.f (fun c => { c with own := x.cur / k })).put (pscP x.f) PSC_MEAS_CUR
    (min 4095 (x.cur / k)))
  let s := s.setCh x.f (fun c => { c with tj := x.tj, losses := loss :: c.losses.take 99 })
  let s := (s.put (pscP x.f) PSC_MEAS_VOUT (min 4095 (x.vout / 20))).putInt (pscP x.f) PSC_MEAS_TJ x.tj
  (s.put (pscP x.f) PSC_MEAS2_IAVG (min 4095 (x.iavg / k))).put
    (pscP x.f) PSC_STAT_CSAT (decide (on ∧ 4095 < x.cur / k ∨ 4095 < x.iavg / k)).toNat

/-- R133, R172: on a pair's even page CUR and IAVG show the sum, TJ the hotter member, CSAT a saturation; the even member's
own current is the sum less the odd member's. -/
def senseSum (s : State) (f : Nat) (e o : ChanSense) : State :=
  let k := curLsb f
  let on := sampledOn s f
  let s := s.when on (fun s => (s.setCh f (fun c => { c with own := (e.cur + o.cur) / k - o.cur / k })).put (pscP f)
    PSC_MEAS_CUR (min 4095 ((e.cur + o.cur) / k)))
  let s := s.put (pscP f) PSC_MEAS2_IAVG (min 4095 ((e.iavg + o.iavg) / k))
  (s.putInt (pscP f) PSC_MEAS_TJ (max e.tj o.tj)).put (pscP f) PSC_STAT_CSAT
    (decide (on ∧ 4095 < (e.cur + o.cur) / k ∨ 4095 < (e.iavg + o.iavg) / k)).toNat

/-- R136: the open-load filter after an evaluation whose samples counted for `on` ticks of on-time: CUR below OLON adds
them, else breaks; OLND reads 1 while no sample has counted for OLT ms. -/
def olSample (s : State) (f on : Nat) : State :=
  let s := s.when (on != 0) (fun s =>
    let low := decide (s.get (pscP f) PSC_MEAS_CUR < s.get (pscP f) PSC_DIAG_OLON)
    s.setCh f (fun c => { c with olTime := if low then c.olTime + on else 0 }))
  s.put (pscP f) PSC_STAT_OLND (decide (ms (s.get (pscP f) PSC_DIAG_OLT) ≤ (s.now - (s.ch f).counted).toNat)).toNat

/-- R134: the balance of a pair after an evaluation whose samples counted for `on` ticks: a sum at or below 10 % of twice
ILIM does not count; a member above 75 % of it adds them. -/
def imbSample (s : State) (f on : Nat) (e o : ChanSense) : State :=
  let sum := e.cur + o.cur
  s.when (on != 0 && decide (2 * s.get (pscP f) PSC_LIMIT_ILIM * 1000 < 10 * sum)) (fun s =>
    s.setCh f (fun c =>
      let odd := decide (e.cur < o.cur)
      if 3 * sum < 4 * max e.cur o.cur then
        { c with imbOdd := odd, imbTime := on + if c.imbOdd == odd then c.imbTime else 0 }
      else { c with imbTime := 0 }))

/-- A feed's VOLT, UV and OV bits from its own sense; a voltage past the field's range reads 0 or 4,095 (log entry 89). -/
def showFeed (s : State) (feed : Nat) (volt : Int) : State :=
  let b := Blk.psg.base + 4 * feed
  ((s.put b PSG_FEED_VOLT (min 4095 (volt / 20).toNat)).put b PSG_FEED_UV (decide (volt < 6000)).toNat).put b PSG_FEED_OV
    (decide (32000 < volt)).toNat

/-- The currents of the five feeds in 50 mA units: the sum of the 100 µs averages of a feed's channels; FEED_E as the
lighting island reports it, in mA (log entry 90).  A sum past the field's range reads 4,095 (log entry 89). -/
def showFeedCurrents (s : State) (sense : List ChanSense) (light : Nat) : State :=
  s.each (List.range 5) (fun s feed =>
    let mine := sense.filter (fun x => carried s x.f && feedOf x.f == feed && !(s.ch (lead s x.f)).held)
    let i := if feed = 4 then light / 50 else (mine.map (·.iavg)).foldl (· + ·) 0 / 500
    s.put (Blk.psg.base + 4 * feed) PSG_FEED_CURR (min 4095 i))

/-- WIRE_MODEL_EVALUATION (R155, every 100 µs): the feeds' voltages in mV, the channels and the lighting island's current in
mA sensed, then every wire model advanced; a channel held off counts zero current (R176), a PARKON channel's model stands
(R155). -/
def wireEvaluation (sense : List ChanSense) (feeds : List Int) (light : Nat) (s : State) : State :=
  let s := s.each feeds.zipIdx (fun s p => showFeed s p.2 p.1)
  let s := showFeedCurrents s sense light
  let zero (f : Nat) : ChanSense := ⟨f, 0, 0, 0, 0, 0, 25⟩
  let at_ (f : Nat) : ChanSense := (sense.find? (fun x => x.f == f)).getD (zero f)
  s.each (usedFuncs s) (fun s f =>
    let off (y : ChanSense) : ChanSense := if (s.ch f).held then { y with i2 := 0, i2w := 0, iavg := 0 } else y
    let x := off (at_ f)
    let y := off (at_ (f + 1))
    let s := s.setCh f (fun c => c.sampled s.now)
    let on := (s.ch f).sampAcc
    let s := senseMember s x (s.ch f).clampAcc
    let s := if isEven s f then imbSample (senseSum (senseMember s y 0) f x y) f on x y else s
    let s := s.each (members s f) (fun s g =>
      s.put (pscP g) PSC_MEAS2_VFEED (s.get (Blk.psg.base + 4 * feedOf f) PSG_FEED_VOLT))
    let s := mirrorPair (olSample s f on) f
    let s := s.setCh f (fun c => { c with clampAcc := 0, sampAcc := 0 })
    if chState s f == stParkon then s else wireStep s f x.i2w)

/-- WIRE_MODEL_EVALUATION, while the power island runs (R179). -/
def execWireModelEvaluation (sense : List ChanSense) (feeds : List Int) (light : Nat) (s : State) : Answer :=
  (s.when (s.ready .power) (wireEvaluation sense feeds light)).next

/-! ### The thermal arbiter (R170–R174) -/

/-- One reducible entry: its number (functions 0–71, string drivers 72–79), priority, commanded duty, floor in force and
loss at full duty in W. -/
structure ArbEntry where
  id   : Nat
  prio : Nat
  d    : Nat
  fl   : Nat
  full : Rat
  deriving DecidableEq, Repr

/-- R172: the loss at full duty of a channel: each member's own on-state current squared, times its on-resistance. -/
def fullLoss (s : State) (f : Nat) : Rat :=
  ((members s f).map (fun g =>
    let i : Rat := ((s.ch g).own * curLsb g : Nat) / 10000
    i * i * ronAt g (s.ch g).tj)).foldl (· + ·) 0

/-- R172: the loss averaged over the last 10 ms. -/
def avgLoss (s : State) (f : Nat) : Rat :=
  ((members s f).map (fun g => (s.ch g).losses.foldl (· + ·) 0 / 100)).foldl (· + ·) 0

/-- R171: is a function reducible now: PWM, or SAFE with MODE 3? -/
def reducible (s : State) (f : Nat) : Bool :=
  chState s f == stPwm || (chState s f == stSafe && safeMode s f == 3)

def stReducible (s : State) (n : Nat) : Bool :=
  stState s n == 2 || (stState s n == 3 && s.get (stP n) LGT_STSAFEV_MODE == 3)

def arbEntries (s : State) : List ArbEntry :=
  ((usedFuncs s).filter (reducible s)).map (fun f =>
    let d := (nextValues s f).2.2
    ⟨f, s.get (pscP f) PSC_ARB_PRIO, d, min (s.get (pscP f) PSC_ARB_FLOOR) d, fullLoss s f⟩)
  ++ (((List.range 8).filter (fun n => tgtUsed s (.str n) && stReducible s n)).map (fun n =>
    let d := (strNext s n).2
    ⟨72 + n, s.get (stP n) LGT_STARB_PRIO, d, min (s.get (stP n) LGT_STARB_FLOOR) d,
      (s.get (stP n) LGT_STLOSS_LOSS : Rat) / 100⟩))

/-- The loss that a rise from the floors to the commanded duties of a level would add. -/
def arbWant (es : List ArbEntry) : Rat :=
  (es.map (fun e => e.full * ((e.d - e.fl : Nat) : Rat) / 4095)).foldl (· + ·) 0

/-- R172: the grants of the levels from `lvl - 1` down to 0, with what is left of the budget. -/
def arbGrant (es : List ArbEntry) : Nat → Rat → List (Nat × Nat)
  | 0, _ => []
  | lvl + 1, left =>
    let here := es.filter (fun e => e.prio == lvl)
    let want := arbWant here
    if want ≤ left then here.map (fun e => (e.id, e.d)) ++ arbGrant es lvl (left - want)
    else here.map (fun e => (e.id, e.fl + (((e.d - e.fl : Nat) : Rat) * left / want).floor.toNat)) ++ arbGrant es lvl 0

/-- R173: a grant recorded for the entry's next period boundary, with DERATED; a grant of the whole commanded duty stands
as one too, until the next cycle. -/
def setGrant (s : State) (es : List ArbEntry) (p : Nat × Nat) : State :=
  let d := match es.find? (fun e => e.id == p.1) with | some e => e.d | none => p.2
  let der := decide (p.2 < d)
  if p.1 < 72 then
    mirrorPair (setDerated (s.setCh p.1 (fun c => { c with grant := some p.2 })) (pscP p.1) PSC_STAT_DERATED der) p.1
  else
    setDerated (s.setSt (p.1 - 72) (fun c => { c with grant := some p.2 })) (stP (p.1 - 72)) LGT_STSTAT_DERATED der

/-- An entry that is not reducible carries no grant. -/
def clearGrants (s : State) : State :=
  let s := s.each ((usedFuncs s).filter (fun f => !reducible s f)) (fun s f =>
    mirrorPair (dropGrant s f) f)
  s.each ((List.range 8).filter (fun n => !stReducible s n)) (fun s n =>
    setDerated (s.setSt n (fun c => { c with grant := none })) (stP n) LGT_STSTAT_DERATED false)

/-- A power in W in 10 mW units, saturated to a 12-bit field. -/
def tenMw (x : Rat) : Nat := min 4095 (x * 100).floor.toNat

/-- R259: the fraction of time a sink or matrix column sinks its current. -/
def sinkDuty (s : State) (n : Nat) : Rat :=
  if isColumn s n then
    if s.flag lgt LGT_MXCTRL_EN then
      let lt := s.get lgt LGT_MXCTRL_LT
      let cells := (List.range (mxRows s)).map (fun r => cellDuty s r n)
      (cells.foldl (· + ·) 0 : Nat) * (lt : Rat) / 4095 / ((mxRows s : Nat) * (lt + s.get lgt LGT_MXCTRL_BL : Nat))
    else 0
  else if (s.sn n).pwm then ((s.sn n).duty : Rat) / 4095
  else if (s.sn n).want then 1 else 0

/-- R259: the lighting report in W from each sink's current in 0.1 mA and headroom in mV, and the row losses in µW. -/
def lightReport (s : State) (sinks : List (Nat × Nat × Nat)) (rowLoss : Nat) : Rat :=
  (sinks.map (fun x => (x.2.1 : Rat) * x.2.2 / 10000000 * sinkDuty s x.1)).foldl (· + ·) 0 + (rowLoss : Rat) / 1000000 + 1 / 10

/-- ARBITER_CYCLE (R170–R174, every 100 µs): baseplate temperature, each sink's current and headroom, the row switches'
losses, and the string drivers' losses of this cycle in µW, averaged here over 10 ms.  The budget takes the reserve after
this cycle's gain (log entry 91). -/
def arbiterCycle (tbp : Int) (sinks : List (Nat × Nat × Nat)) (rowLoss : Nat) (strNow : List Nat) (s : State) : State :=
  let b := Blk.psg.base
  let rep := lightReport s sinks rowLoss
  let s := s.put lgt LGT_PWRREP_REP (tenMw rep)
  let s := s.each sinks (fun s x => (s.put (skP x.1) LGT_SKMEAS_IMEAS (min 255 (x.2.1 / 4))).put (skP x.1) LGT_SKMEAS_VHR
    (min 4095 (x.2.2 / 20)))
  let s := s.putInt b PSG_ARBSTAT_TBP tbp
  let pcont : Rat := min 36 (max 0 (6 / 10 * (125 - (tbp : Rat))))
  let strs := (List.range 8).filter (fun n => tgtUsed s (.str n))
  let s := s.each strs (fun s n => s.setSt n (fun d => { d with
    losses := ((strNow.getD n 0 : Rat) / 1000000) :: d.losses.take 99 }))
  let strW (n : Nat) : Rat := (s.st n).losses.foldl (· + ·) 0 / 100
  let fixedTerms : Rat := 25 / 10 + rep
  -- the dissipation of this cycle: the newest loss of every channel, the string drivers and the fixed terms
  let p := fixedTerms + ((usedFuncs s).map (fun f =>
      ((members s f).map (fun g => (s.ch g).losses.headD 0)).foldl (· + ·) 0)).foldl (· + ·) 0
    + (strs.map (fun n => (s.st n).losses.headD 0)).foldl (· + ·) 0
  let reserve := min reserveMax (max 0 (s.beat.reserve + (pcont - p) / 10000))
  let s := { s with beat := { s.beat with reserve := reserve } }
  let cap : Rat := (s.get b PSG_ARBCFG_CAP : Rat) / 100
  let budget := min cap (if 0 < reserve then pcont + 16 else pcont)
  let es := arbEntries s
  let sumAvg (g : Nat → Bool) (h : Nat → Bool) : Rat :=
    (((usedFuncs s).filter g).map (avgLoss s)).foldl (· + ·) 0 + ((strs.filter h).map strW).foldl (· + ·) 0
  let fixed := fixedTerms + sumAvg (fun f => !reducible s f) (fun n => !stReducible s n)
  let floors := (es.map (fun e => e.full * (e.fl : Rat) / 4095)).foldl (· + ·) 0
  let past := budget < fixed + floors
  let grants := if past then es.map (fun e => (e.id, e.fl)) else arbGrant es 8 (budget - fixed - floors)
  let s := clearGrants (s.put b PSG_STAT_BEXC (decide past).toNat)
  let s := s.each grants (fun s g => setGrant s es g)
  let s := (s.put b PSG_ARBSTAT_DISS (tenMw (fixedTerms + sumAvg (fun _ => true) (fun _ => true)))).put b
    PSG_ARBSTAT_BUDGET (tenMw budget)
  ((s.put b PSG_ARBRES_RESERVE (min 4095 (reserve * 10).floor.toNat)).put b PSG_ARBRES_PCONT (tenMw pcont)).put b
    PSG_ARBRES_BOOST (decide (0 < reserve)).toNat

/-- ARBITER_CYCLE, while the power island runs (R179). -/
def execArbiterCycle (tbp : Int) (sinks : List (Nat × Nat × Nat)) (rowLoss : Nat) (strNow : List Nat) (s : State) : Answer :=
  (s.when (s.ready .power) (arbiterCycle tbp sinks rowLoss strNow)).next

/-! ### Supply events (R175–R177) -/

/-- FEED_OVERCURRENT (R175): OC shows whether the 1 s average exceeds 60 A; no channel turns off. -/
def feedOvercurrentEffect (feed avg : Nat) (s : State) : State :=
  let past := decide (60000 < avg)
  let s := s.put (Blk.psg.base + 4 * feed) PSG_FEED_OC past.toNat
  { s with beat := { s.beat with feedOver := s.beat.feedOver.set feed past } }

/-- FEED_OVERCURRENT where its condition holds; else nothing happens. -/
def execFeedOvercurrent (feed avg : Nat) (s : State) : Answer :=
  s.on .power ((s.when (decide (feed < 5)) (feedOvercurrentEffect feed avg)).next)

def setHold (s : State) (feed : Nat) (g : Bool × Bool → Bool × Bool) : State :=
  applyHolds { s with beat := { s.beat with
    feedHold := s.beat.feedHold.set feed (g (s.beat.feedHold.getD feed (false, false))) } } feed

/-- FEED_UNDERVOLTAGE (R176, cranking): a feed below 6.0 V holds off its channels without CRANK. -/
def execFeedUndervoltage (feed : Nat) (volt : Int) (s : State) : Answer := s.on .power <|
  (s.when (decide (feed < 5) && decide (volt < 6000)) (fun s => setHold (showFeed s feed volt) feed (fun h => (true, h.2)))).next

/-- FEED_OVERVOLTAGE_HOLD (R176): a feed above 36 V for 10 µs holds off every switch on it. -/
def execFeedOvervoltageHold (feed : Nat) (volt : Int) (s : State) : Answer := s.on .power <|
  (s.when (decide (feed < 5) && decide (36000 < volt)) (fun s => setHold (showFeed s feed volt) feed (fun h => (h.1, true)))).next

/-- FEED_VOLTAGE_RECOVERY (R176): above 6.3 V the cranking hold-off ends, below 34 V the overvoltage hold does. -/
def execFeedVoltageRecovery (feed : Nat) (volt : Int) (s : State) : Answer := s.on .power <|
  (s.when (decide (feed < 5)) (fun s =>
    setHold (showFeed s feed volt) feed (fun h => (h.1 && decide (volt ≤ 6300), h.2 && decide (34000 ≤ volt))))).next

/-- REVERSE_BATTERY (R176, R177): below −2 V the logic is unpowered, and the self-powered gate circuits turn the class H
(FEED_A) and class M (FEED_B) switches of the feed on. -/
def reverseBatteryEffect (feed : Nat) (s : State) : State :=
  let s := s.each Island.all (fun s i => s.setReady i false)
  let s := { s with tbRun := false }
  let s := s.mapCores (fun c => { c with running := false })
  s.each ((List.range 24).filter (fun f => feedOf f == feed)) (fun s f =>
    let s := s.setCh f (fun c => { c with readback := some (true, false) })
    s.put (pscP f) PSC_DP_HS 1)

/-- REVERSE_BATTERY where its condition holds; else nothing happens. -/
def execReverseBattery (feed : Nat) (volt : Int) (s : State) : Answer :=
  s.on .power ((s.when (decide (feed < 5) && decide (volt < -2000)) (reverseBatteryEffect feed)).next)

/-! ### Heartbeat, hold, PARKON -/

/-- The supervision timer has expired (R143). -/
def heartbeatServe (s : State) : State := s.when (s.flag Blk.psg.base PSG_STAT_HBRUN && s.due s.beat.deadline) beatExpire

/-- HEARTBEAT_EXPIRY (R143): at the end of the tick of expiry, in which a refresh still counts as in time. -/
def execHeartbeatExpiry (s : State) : Answer := (s.expire s.beat.deadline .heartbeatExpiry heartbeatServe).next

/-- The hold time has ended (R145 step 5). -/
def holdServe (s : State) : State := s.when (s.flag Blk.psg.base PSG_STAT_HOLDACT && s.tbRun && s.due s.beat.holdEnd) holdEnd

/-- HOLD_EXPIRY (R145 step 5, R147): at the end of the tick of expiry, in which a reclaim still counts as in time. -/
def execHoldExpiry (s : State) : Answer := (s.expire s.beat.holdEnd .holdExpiry holdServe).next

/-! ### Self-test passes (R576, R577) -/

/-- R76: the period of a self-test (0 voter, 1 SRAM, 2 store, 3 cross-check): in ticks, for the store in seconds. -/
def testPeriod (s : State) (t : Nat) : Nat :=
  let w := sectWord s 15 1
  match t with
  | 0 => ms (bitsOf w 35 27)
  | 1 => ms (bitsOf w 26 18)
  | 2 => 3600 * bitsOf w 17 9
  | _ => us (100 * bitsOf w 8 0)

/-- The clock a self-test's period is counted on: the timebase, for the store the RTC's seconds. -/
def testClock (s : State) (t : Nat) : Word := if t = 2 then BitVec.ofNat 36 (s.get Blk.aon.base AON_RTCSEC_SEC) else s.now

/-- The time since the last pass of a self-test. -/
def testElapsed (s : State) (t : Nat) : Nat := (testClock s t - s.safe.lastPass.getD t 0).toNat

/-- R576: a pass completed: its SAFE_TEST bit clears when it did so within its period. -/
def testPassed (s : State) (t : Nat) : State :=
  let s := if testElapsed s t ≤ testPeriod s t then
      dropCause (s.setBit (safeB + 0x20) (35 - t) false) (fun c => c.cls == 14 && c.idx == t)
    else s
  updateGact { s with safe := { s.safe with lastPass := s.safe.lastPass.set t (testClock s t) } }

/-- CURRENT_SENSE_CROSS_CHECK (R577): for each switch that carries current, its function and the two paths' 100 µs means
in 0.1 mA. -/
def crossCheck (pairs : List (Nat × Nat × Nat)) (s : State) : State :=
  let s := s.each (pairs.filter (fun x => served s x.1)) (fun s x =>
    let g := lead s x.1
    let hi := max x.2.1 x.2.2
    let lo := min x.2.1 x.2.2
    if hi + 40 * curLsb g < 10 * (hi - lo) then
      chanSafe (safeDetect (s.setCh g (fun c => { c with larger := true })) 12 g) g
    else dropCause s (fun c => c.cls == 12 && c.idx == g))
  testPassed s 3

/-- CURRENT_SENSE_CROSS_CHECK, while the power island runs. -/
def execCurrentSenseCrossCheck (pairs : List (Nat × Nat × Nat)) (s : State) : Answer :=
  (s.when (s.ready .power) (crossCheck pairs)).next

end Sys2Proof.Machine
end

