-- ==== Sys2Proof/Machine/Motion.lean ====
section
/-! DEFINITION. The motion engines' commands and events (chapter 6). -/

namespace Sys2Proof.Machine

/-- The driving member and the other member for a direction (true: OPEN), R185. -/
def motDriver (s : State) (k : Nat) (isOpen : Bool) : Nat := motEven s k + isOpen.toNat
def motOther (s : State) (k : Nat) (isOpen : Bool) : Nat := motEven s k + (!isOpen).toNat

/-- MOT_STAT.DIR: true is OPEN. -/
def motDir (s : State) (k : Nat) : Bool := s.flag (motP k) MOT_STAT_DIR

/-- R193, R194: the loop's demand: DMAX open-loop; under the speed loop, whose gains the spec does not give, a free value
held within DMIN and DMAX, with CLIPPED and DERATED (log entry 8). -/
def motDemand (s : State) (k : Nat) : Nat × State :=
  let p := motP k
  let lo := s.get p MOT_DUTY_DMIN
  let hi := s.get p MOT_DUTY_DMAX
  let tgt := s.get p MOT_SPEED_TGT
  if tgt = 0 ∨ (s.mo k).op = 9 then
    (hi, (s.put p MOT_STAT_CLIPPED 0).put p MOT_STAT_DERATED 0)
  else
    let ask := signed 14 s.free.toNat
    let d := if ask < lo then lo else if (hi : Int) < ask then hi else ask.toNat
    let s := s.drawn.put p MOT_STAT_CLIPPED (decide (ask < lo || (hi : Int) < ask)).toNat
    (d, s.put p MOT_STAT_DERATED (d == hi && decide (s.get p MOT_MEAS_SPEED * 10 < tgt * 9)).toNat)

/-- R193: the duty now: through the soft start it rises linearly from DMIN to the demand. -/
def motDuty (s : State) (k : Nat) : Nat × State :=
  let dm := motDemand s k
  let s := dm.2
  match (s.mo k).softEnd with
  | some t =>
    let total := ms (s.get (motP k) MOT_SPEED_SOFT)
    let lo := s.get (motP k) MOT_DUTY_DMIN
    if s.reached t || total = 0 then (dm.1, s)
    else (lo + (dm.1 - lo) * (total - (t - s.now).toNat) / total, s)
  | none => (dm.1, s)

/-- R191: the bridge driven in a direction: the driving member in PWMSYNC, the other low side on. -/
def motDrive (s : State) (k : Nat) (isOpen : Bool) : State :=
  let d := motDriver s k isOpen
  let s := s.put (motP k) MOT_STAT_DIR isOpen.toNat
  let du := motDuty s k
  let s := engSwitch du.2 (motOther s k isOpen) stMotion false true
  if chState s d == stMotion then
    let s := (stopGen s d).setCh d (fun c => { c with bufPer := s.get (motP k) MOT_PWM_PER, bufDuty := du.1 })
    beginPeriod s d 4 (s.get (motP k) MOT_PWM_PER) du.1 true
  else s

/-- What every move starts with: its timeout, its correction count, its stop cause. -/
def motArm (s : State) (k : Nat) : State :=
  let s := (s.put (motP k) MOT_MEAS_CORR 0).put (motP k) MOT_STAT_STOPC 0
  s.setMo k (fun m => { m with
    moveEnd := some (s.after (ms (10 * s.get (motP k) MOT_LIMIT_MAXT))), hits := 0, revTo := none, reverse := none })

/-- R193: a move starts with its soft start. -/
def motBegin (s : State) (k : Nat) (isOpen : Bool) : State :=
  let s := motArm (setMotState s k 1) k
  let s := s.setMo k (fun m => { m with
    softEnd := some (s.after (ms (s.get (motP k) MOT_SPEED_SOFT))), brakeEnd := none, counting := true, lastDip := s.now,
    gaps := [], dips := 0, cycle := motKind s k == 2 })
  motDrive s k isOpen

/-- R192, R208: a command for a direction: it replaces one in the same direction at once, and brakes first when it
reverses; in a pinch reversal OPEN replaces the distance with the open end stop. -/
def motMove (s : State) (k : Nat) (isOpen : Bool) : State :=
  let st := motState s k
  if st = 0 then motBegin s k isOpen
  else if st = 1 && motDir s k == isOpen then motArm s k
  else if st = 3 then s.setMo k (fun m => { m with revTo := none })
  else if st = 2 && (s.mo k).reverse == some isOpen then s
  else if motDir s k == isOpen then motBegin s k isOpen
  else
    let s := setMotState (bridgeBrake (motIdleLoop s k) (motEven s k)) k 2
    let s := s.setMo k .ended
    s.setMo k (fun m => { m with
      brakeEnd := some (s.after (ms (s.get (motP k) MOT_PWM_BRKT))), reverse := some isOpen })

/-- R210: is the wiper parked: its PARK_IN active (R67)? -/
def wiperParked (s : State) (k : Nat) : Bool :=
  match motn s k with
  | some m => m.kind == 2 && bitAt (s.rd (Blk.inp.base + INP_STATE_STATE.off + 4 * (m.parkIn / 32))) (m.parkIn % 32)
  | none => false

/-- R190–R214: a command starts. -/
def motStart (s : State) (k : Nat) (w : Word) : State :=
  let op := bitsOf w 35 32
  let tgt := signed 20 (bitsOf w 29 10)
  let s := s.setMo k (fun m => { m with op := op, auto := bitAt w 31, target := tgt, stored := none })
  match op with
  | 0 =>
    if motState s k == 1 || (motState s k == 2 && (s.mo k).reverse.isSome) then motStop s k 1 false else s
  | 1 | 4 => motMove s k false
  | 2 => motMove s k true
  | 3 =>
    if motPos s k = tgt then
      if motState s k == 1 then motStop s k 2 false
      else if motState s k == 0 then (s.put (motP k) MOT_STAT_STOPC 2).put (motP k) MOT_STAT_DONE 1 else s
    else motMove s k (decide (motPos s k < tgt))
  | 5 | 7 => if (s.mo k).cycle then s else motMove s k false
  | 6 => s
  | 8 =>
    let s := s.put (motP k) MOT_STAT_PEND 0
    if (s.mo k).cycle || wiperParked s k then s else motMove s k false
  | _ => motMove s k (bitAt w 30)

/-- R190: an accepted MOT_CMD write starts, or is stored while a member is unclaimed. -/
def motCommanded (s : State) (k : Nat) (w : Word) : State :=
  let e := motEven s k
  if unclaimed s e || unclaimed s (e + 1) then s.setMo k (fun m => { m with stored := some w }) else motStart s k w

/-- R190: a stored command starts in the tick in which the second member is reclaimed. -/
def motReclaimed (s : State) (k : Nat) : State :=
  match (s.mo k).stored with
  | some w => if unclaimed s (motEven s k) || unclaimed s (motEven s k + 1) then s else motStart s k w
  | none => s

/-- R219, R195: EN written 0 while the engine moves stops it with cause 1, out of a pinch's reversal by braking. -/
def motDisabled (s : State) (k : Nat) : State :=
  let s := s.setMo k (fun m => { m with stored := none, op := 0 })
  if motState s k == 1 || motState s k == 3 || (s.mo k).reverse.isSome then motStop s k 1 (motState s k == 3) else s

/-- Is a move, a reversal or the brake before a reversed drive in progress? -/
def motMoving (s : State) (k : Nat) : Bool :=
  motState s k == 1 || motState s k == 3 || (motState s k == 2 && (s.mo k).reverse.isSome)

/-- The engine exists and its command `k` is in range. -/
def motThere (s : State) (k : Nat) : Bool := decide (k < 6) && (motn s k).isSome && s.ready .power

/-- R215: COINCIDENT where the move's end falls in the tick of its timeout. -/
def motCoincident (s : State) (k : Nat) : State :=
  s.when ((s.mo k).moveEnd == some s.now) (fun s => s.put (motP k) MOT_STAT_COINCIDENT 1)

/-- PWM_PERIOD_BOUNDARY (R127, R130): every channel whose boundary is reached takes its next period, in ascending
function index; a driving member takes the speed loop's duty (R191, R193). -/
def pwmBoundaries (s : State) : State :=
  s.each ((usedFuncs s).filter (fun f => pwmRuns s f && s.due (s.ch f).boundary)) (fun s f =>
    let s := if chState s f == stMotion then
        match (motOn s f).head? with
        | some k =>
          let d := motDuty s k
          d.2.setCh f (fun c => { c with bufPer := d.2.get (motP k) MOT_PWM_PER, bufDuty := d.1 })
        | none => s
      else s
    mirrorPair (periodBoundary s f) f)

/-- PWM_PERIOD_BOUNDARY (R127): a boundary of the present tick acts at the tick's end, with the writes of the tick. -/
def execPwmPeriodBoundary (s : State) : Answer :=
  (s.expire (if (usedFuncs s).any (fun f => pwmRuns s f && (s.ch f).boundary == some s.now) then some s.now else none)
    .pwmPeriodBoundary pwmBoundaries).next

/-- The MOT_FREE register shows IFREE in 25 mA units and WFREE in ripples/s. -/
def showFree (s : State) (k : Nat) : State :=
  (s.putNat (motP k) MOT_FREE_IFREE ((s.mo k).ifree * 40).floor.toNat).putNat (motP k) MOT_FREE_WFREE
    (s.mo k).wfree.floor.toNat

/-- SOFT_START_END (R193, R205): the mean current in mA and the mean ripple rate in thousandths per second over the last
10 ms seed IFREE and WFREE. -/
def execSoftStartEnd (k current rate : Nat) (s : State) : Answer :=
  (s.when (motThere s k && motState s k == 1 && s.due (s.mo k).softEnd) (fun s =>
    showFree (s.setMo k (fun m => { m with
      softEnd := none, ifree := (current : Rat) / 1000, wfree := (rate : Rat) / 1000 })) k)).next

/-! ### Ripple counting (R196–R199) -/

/-- R197: the expected interval in ticks; none while the duty in force is 0 and eight ripples have not passed. -/
def expectedGap (s : State) (k : Nat) : Option Rat :=
  let m := s.mo k
  if 8 ≤ m.dips then some (((m.gaps.foldl (· + ·) 0 : Nat) : Rat) / 8)
  else
    let d := s.get (pscP (motDriver s k (motDir s k))) PSC_PWMACT_GDUTY
    if d = 0 then none else some ((100000000 * 4095 : Nat) / (s.get (motP k) MOT_RIPPLE_NOMW * d : Nat))

/-- One ripple counted now: down in CLOSE, up in OPEN. -/
def countRipple (s : State) (k : Nat) : State :=
  let m := s.mo k
  let gap := (s.now - m.lastDip).toNat
  let s := s.setMo k (fun m => { m with lastDip := s.now, gaps := (gap :: m.gaps).take 8, dips := m.dips + 1 })
  let s := s.putNat (motP k) MOT_MEAS_SPEED (if gap = 0 then 0 else 100000000 / gap)
  setPos s k (motPos s k + (if motDir s k then 1 else -1))

/-- R197, R199: a correction counted; beyond CORRMAX the position is lost. -/
def countCorr (s : State) (k : Nat) : State :=
  let p := motP k
  let s := s.satField p MOT_MEAS_CORR
  if s.get p MOT_RIPPLE_CORRMAX < s.get p MOT_MEAS_CORR then
    let s := (s.put p MOT_STAT_LOST 1).put p MOT_POS_LEARNED 0
    if (s.mo k).auto && (s.mo k).op == 1 && motState s k == 1 then motStop s k 9 false else s
  else s

/-- RIPPLE_DETECT (R196, R197): a dip is counted unless it falls within 0.4 expected intervals of the last. -/
def rippleDetectEffect (k : Nat) (s : State) : State :=
  let gap : Rat := ((s.now - (s.mo k).lastDip).toNat : Nat)
  match expectedGap s k with
  | some e => if gap < 4 / 10 * e then countCorr s k else countRipple s k
  | none => countRipple s k

/-- RIPPLE_DETECT where its condition holds; else nothing happens. -/
def execRippleDetect (k : Nat) (s : State) : Answer :=
  (s.when (motThere s k && (s.mo k).counting) (rippleDetectEffect k)).next

/-- RIPPLE_GAP_CORRECTION (R197): 1.75 expected intervals with no dip count as one ripple. -/
def rippleGapCorrectionEffect (k : Nat) (s : State) : State :=
  let gap : Rat := ((s.now - (s.mo k).lastDip).toNat : Nat)
  match expectedGap s k with
  | some e => if 175 / 100 * e ≤ gap then countCorr (countRipple s k) k else s
  | none => s

/-- RIPPLE_GAP_CORRECTION where its condition holds; else nothing happens. -/
def execRippleGapCorrection (k : Nat) (s : State) : Answer :=
  (s.when (motThere s k && (s.mo k).counting) (rippleGapCorrectionEffect k)).next

/-- RIPPLE_COUNT_END (R198): after a stop, the ripple rate has fallen below 20 per second. -/
def rippleCountEndEffect (k : Nat) (s : State) : State :=
  let s := (s.setMo k (fun m => { m with counting := false })).put (motP k) MOT_STAT_DONE 1
  let s := s.put (motP k) MOT_MEAS_SPEED 0
  if motState s k == 4 then setMotState s k 0 else s

/-- RIPPLE_COUNT_END where its condition holds; else nothing happens. -/
def execRippleCountEnd (k : Nat) (s : State) : Answer :=
  (s.when (motThere s k && (s.mo k).counting && (motState s k == 2 || motState s k == 4) && (s.mo k).reverse.isNone
      && decide (5000000 < (s.now - (s.mo k).lastDip).toNat)) (rippleCountEndEffect k)).next

/-! ### Anti-pinch (R203–R208) -/

/-- The pinch threshold THz of a zone. -/
def zoneTh (s : State) (k z : Nat) : Nat :=
  s.get (motP k) (match z with | 0 => MOT_PZTH_TH0 | 1 => MOT_PZTH_TH1 | 2 => MOT_PZTH_TH2 | _ => MOT_PZTH_TH3)

/-- R203: the zone that holds a position within the pinch zone; each includes its lower edge, zone 3 also PZ_HI. -/
def zoneOf (m : Motn) (pos : Int) : Nat :=
  let width := (m.pzHi - m.pzLo) * m.scale
  if width = 0 then 3 else min 3 (((pos * 16 - (m.pzLo * m.scale : Nat)) * 4) / width).toNat

/-- R204: the threshold in force: of the zone; the lowest while LEARNED is 0 or in LEARN; none outside the zone. -/
def pinchTh (s : State) (k : Nat) : Option Nat :=
  match motn s k with
  | none => none
  | some m =>
    if !s.flag (motP k) MOT_POS_LEARNED || (s.mo k).op == 4 then
      some (min (min (zoneTh s k 0) (zoneTh s k 1)) (min (zoneTh s k 2) (zoneTh s k 3)))
    else if inZone m (motPos s k) then some (zoneTh s k (zoneOf m (motPos s k)))
    else none

/-- R206 steps 2 and 3: a pinch: the drive turns off and both low sides brake. -/
def motPinch (s : State) (k : Nat) : State :=
  let s := setMotState (motIdleLoop (s.put (motP k) MOT_STAT_PINCH 1) k) k 3
  let s := s.setMo k (fun m => { m with
    softEnd := none, hits := 0, revTo := none, brakeEnd := some (s.after (750000 + deadTicks s (motEven s k))) })
  raiseSrc (bridgeBrake s (motEven s k)) (0x1B0 + k)

/-- R204: the ripple rate now, in ripples/s. -/
def motRate (s : State) (k : Nat) : Rat :=
  let m := s.mo k
  let t := max (m.gaps.headD 0) (s.now - m.lastDip).toNat
  if t = 0 then 0 else (100000000 : Rat) / (t : Nat)

/-- FORCE_ESTIMATE (R204): every 250 µs with the mean driving current in mA. -/
def forceEstimateEffect (k current : Nat) (s : State) : State :=
  let i : Rat := (current : Rat) / 1000
  let w := motRate s k
  let m := s.mo k
  let f := max 0 ((s.get (motP k) MOT_PINCH_KI : Rat) / 2 * (i - m.ifree)
    + (s.get (motP k) MOT_PINCH_KW : Rat) / 100 * (m.wfree - w))
  let s := s.putNat (motP k) MOT_MEAS_FEST f.floor.toNat
  let learn (s : State) : State := showFree (s.setMo k (fun m => { m with
    ifree := m.ifree + (i - m.ifree) / 800, wfree := m.wfree + (w - m.wfree) / 800 })) k
  match pinchTh s k with
  | none =>
    -- outside the zone the pseudocode names no threshold: whether the free-running values follow is open
    let s := s.setMo k (fun m => { m with hits := 0 })
    if s.freeBit then learn s.drawn else s.drawn
  | some th =>
    let s := s.setMo k (fun m => { m with hits := if (th : Rat) ≤ f then m.hits + 1 else 0 })
    let s := if f < (th : Rat) / 2 then learn s else s
    if (s.mo k).hits = 2 then motPinch s k else s

/-- FORCE_ESTIMATE where its condition holds; else nothing happens. -/
def execForceEstimate (k current : Nat) (s : State) : Answer :=
  (s.when (motThere s k && decide (motKind s k ≤ 1) && motState s k == 1 && !motDir s k && (s.mo k).softEnd.isNone)
    (forceEstimateEffect k current)).next

/-- PINCH_BRAKE_END (R206 step 4): the rate below 10 % of WFREE, or 7.5 ms of braking; the OPEN drive begins. -/
def pinchBrakeEndEffect (k : Nat) (s : State) : State :=
  let rev := s.get (motP k) MOT_PINCH_REV
  let goal := if rev = 0 || (s.mo k).op = 2 then none
    else (motn s k).map (fun m => motPos s k + ((rev * m.scale + 15) / 16 : Nat))
  motDrive (s.setMo k (fun m => { m with brakeEnd := none, revTo := goal })) k true

/-- PINCH_BRAKE_END where its condition holds; else nothing happens. -/
def execPinchBrakeEnd (k : Nat) (s : State) : Answer :=
  (s.when (motThere s k && motState s k == 3 && (s.mo k).brakeEnd.isSome
      && (s.due (s.mo k).brakeEnd || decide (motRate s k * 10 < (s.mo k).wfree))) (pinchBrakeEndEffect k)).next

/-- PINCH_REVERSAL_END (R206 step 6): POS has risen by the reversal distance, or the open end stop is reached. -/
def execPinchReversalEnd (k : Nat) (endStop : Bool) (s : State) : Answer :=
  (s.when (motThere s k && motState s k == 3 && (s.mo k).brakeEnd.isNone
      && (match (s.mo k).revTo with | some p => decide (p ≤ motPos s k) | none => endStop))
    (fun s => motStop s k 4 true)).next

/-- STALL_DETECT (R200, R201, R213): a stall ends the move by command, direction and position. -/
def stallDetectEffect (k : Nat) (s : State) : State :=
  match motn s k with
  | none => s
  | some m =>
    let pos := motPos s k
    let learned := s.flag (motP k) MOT_POS_LEARNED
    let op := (s.mo k).op
    let home (s : State) : State := setPos s k 0
    let ends (s : State) (cause : Nat) (force : Bool) : State := motStop (motCoincident s k) k cause force
    if m.kind = 2 then motStop s k 5 false
    else if motState s k == 3 then
      let s := if learned then s.put (motP k) MOT_TRAVEL_TRAVEL (s.get (motP k) MOT_POS_POS) else s
      ends s (if (s.mo k).revTo.isNone then 4 else 3) true
    else if motDir s k then
      let s := if learned && op != 9 then s.put (motP k) MOT_TRAVEL_TRAVEL (s.get (motP k) MOT_POS_POS) else s
      ends s 3 false
    else if op = 4 then ends ((home s).put (motP k) MOT_POS_LEARNED 1) 3 false
    else if m.kind = 3 then ends (if op = 1 then home s else s) 3 false
    else if !learned then motPinch s k
    else if pos * 16 < (m.pzLo * m.scale : Nat) then ends (home s) 3 false
    else if inZone m pos then motPinch s k
    else motStop s k 5 false

/-- R200: does a motor current in mA, with the ripple rate of now, meet the stall condition? -/
def stalled (s : State) (k current : Nat) : Bool :=
  let p := motP k
  let want := if s.get p MOT_SPEED_TGT = 0 then s.get p MOT_RIPPLE_NOMW else s.get p MOT_SPEED_TGT
  decide (s.get p MOT_LIMIT_STALLI * 100 ≤ current) && decide (motRate s k * 10 < (want : Rat))

/-- R200: a sample of the motor current: the stall condition begins, ends, or has lasted STALLT ms without a break. -/
def stallSample (k current : Nat) (s : State) : State :=
  if !stalled s k current then s.setMo k (fun m => { m with stallAt := none })
  else
    let t := (s.mo k).stallAt.getD s.now
    if ms (s.get (motP k) MOT_LIMIT_STALLT) ≤ (s.now - t).toNat then
      stallDetectEffect k (s.setMo k (fun m => { m with stallAt := none }))
    else s.setMo k (fun m => { m with stallAt := some t })

/-- STALL_DETECT (R200) with the motor current in mA, while the engine drives; else nothing happens. -/
def execStallDetect (k current : Nat) (s : State) : Answer :=
  (s.when (motThere s k && (motState s k == 1 || (motState s k == 3 && (s.mo k).brakeEnd.isNone)))
    (stallSample k current)).next

/-- BRAKE_TIME_END (R192, R195): the brake time ends a stop, or the reversed drive begins. -/
def execBrakeTimeEnd (k : Nat) (s : State) : Answer :=
  (s.when (motThere s k && motState s k == 2 && s.due (s.mo k).brakeEnd) (fun s =>
    match (s.mo k).reverse with
    | some o => motBegin s k o
    | none => motRelease s k)).next

/-- GOTO_TARGET_REACHED (R214): POS has reached TARGET. -/
def execGotoTargetReached (k : Nat) (s : State) : Answer :=
  (s.when (motThere s k && motState s k == 1 && (s.mo k).op == 3
      && (if motDir s k then decide ((s.mo k).target ≤ motPos s k) else decide (motPos s k ≤ (s.mo k).target)))
    (fun s => motStop (motCoincident s k) k 2 false)).next

/-- A move of KIND 0, 1 or 3 has lasted MAXT × 10 ms (R215); the brake of a pinch is not cut short (R207). -/
def moveServe (k : Nat) (s : State) : State :=
  s.when (motThere s k && motKind s k != 2 && motMoving s k && !(motState s k == 3 && (s.mo k).brakeEnd.isSome)
      && s.due (s.mo k).moveEnd)
    (fun s => motStop s k 6 (motState s k == 3))

/-- MOVE_TIMEOUT (R215): at the end of the tick of expiry, in which the move still ends in time. -/
def execMoveTimeout (k : Nat) (s : State) : Answer := (s.expire (s.mo k).moveEnd (.moveTimeout k) (moveServe k)).next

/-! ### Wipers (R210–R213) -/

/-- WIPER_PARK_EDGE (R211, R212): PARK_IN becomes active.  The spec gives no stop cause for a cycle that ends parked: it
is a free value (log entry 9). -/
def wiperParkEdgeEffect (k : Nat) (s : State) : State :=
  let s := setPos s k 0
  if !(s.mo k).cycle then s
  else
    let s := raiseSrc (motCoincident s k) (0x1B8 + k)
    let next (s : State) : State := s.setMo k (fun m => { m with
      moveEnd := some (s.after (ms (10 * s.get (motP k) MOT_LIMIT_MAXT))) })
    let pend := s.flag (motP k) MOT_STAT_PEND
    let s := s.when (pend && (s.mo k).startAt == some s.now) (fun s => s.put (motP k) MOT_STAT_COINCIDENT 1)
    if (s.mo k).op == 5 || pend then next (s.put (motP k) MOT_STAT_PEND 0)
    else
      let op := (s.mo k).op
      (motStop s.drawn k (s.free.toNat % 16) false).setMo k (fun m => { m with op := if op = 6 then 6 else 0 })

/-- WIPER_PARK_EDGE where its condition holds; else nothing happens. -/
def parkEdgeServe (k : Nat) (s : State) : State := s.when (motThere s k && motKind s k == 2) (wiperParkEdgeEffect k)

/-- WIPER_PARK_EDGE (R211, R212): it acts when its tick ends: a START pulse of the same tick counts as pending. -/
def execWiperParkEdge (k : Nat) (s : State) : Answer :=
  s.on .power ((s.expire (some s.now) (.wiperParkEdge k) (parkEdgeServe k)).next)

/-- R210, R212: a START pulse begins a cycle in WINT, or sets PEND during one. -/
def wiperStart (s : State) (k : Nat) : State :=
  if motThere s k && motKind s k == 2 && s.flag (motP k) MOT_CTRL_EN then
    let e := motEven s k
    if (s.mo k).cycle then (s.setMo k (fun m => { m with startAt := some s.now })).put (motP k) MOT_STAT_PEND 1
    else if (s.mo k).op != 6 || chState s e != stMotion || chState s (e + 1) != stMotion then s
    else motMove s k false
  else s

/-- WIPER_START_PULSE (R212). -/
def execWiperStartPulse (k : Nat) (s : State) : Answer :=
  s.on .power ((wiperStart s k).next)

/-- A cycle has not reached the park edge within MAXT × 10 ms (R213). -/
def cycleServe (k : Nat) (s : State) : State :=
  s.when (motThere s k && motKind s k == 2 && (s.mo k).cycle && s.due (s.mo k).moveEnd) (fun s => motStop s k 10 false)

/-- WIPER_CYCLE_TIMEOUT (R213): at the end of the tick of expiry, in which a park edge still counts as in time. -/
def execWiperCycleTimeout (k : Nat) (s : State) : Answer :=
  (s.expire (s.mo k).moveEnd (.wiperCycleTimeout k) (cycleServe k)).next

/-! ### Checks of MOT_CMD and MOT_CTRL -/

/-- R216: is OP legal for a KIND? -/
def motLegalOp (kind op : Nat) : Bool :=
  match kind with
  | 0 | 1 => op ≤ 4
  | 2 => op == 0 || (5 ≤ op && op ≤ 8)
  | _ => op ≤ 4 || op == 9

/-- Check 11 of a MOT_CMD write (R216 and the register's own table). -/
def motCmdLegal (s : State) (k : Nat) (w : Word) : Bool :=
  let op := bitsOf w 35 32
  let kind := motKind s k
  motLegalOp kind op && (!bitAt w 31 || (op == 1 && kind ≤ 1)) && (!bitAt w 30 || op == 9)

/-- R189, R201, R208: check 12 of a MOT_CMD write. -/
def motCmdCheck (s : State) (k : Nat) (w : Word) : Option Nat :=
  let op := bitsOf w 35 32
  let e := motEven s k
  let bad (f : Nat) : Bool := chState s f == stRetry || chState s f == stLocked || chState s f == stSafe
  firstCode [
    failIf (op != 0 && !s.flag (motP k) MOT_CTRL_EN) 0x10,
    failIf (op != 0 && (!s.flag Blk.psg.base PSG_CTRL_HBEN || s.flag Blk.psg.base PSG_STAT_HBEXP)) 0x13,
    failIf (op != 0 && (bad e || bad (e + 1))) 0x14,
    failIf (op != 2 && motState s k == 3) 0x11,
    failIf (op == 1 && bitAt w 31 && !s.flag (motP k) MOT_POS_LEARNED) 0x12]

end Sys2Proof.Machine
end

