-- ==== Sys2Proof/Machine/Stroke.lean ====
section
/-! DEFINITION. The stroke engines' commands and events (chapter 7). -/

namespace Sys2Proof.Machine

/-- The engine is bound by PROF (R222). -/
def stkThere (s : State) (k : Nat) : Bool := decide (k < 16) && (prof s k).isSome && s.ready .power

/-- The two bound channels of an engine. -/
def stkBound (s : State) (k : Nat) : List Nat := match prof s k with | some p => [p.feed, p.sel] | none => []

/-- R227: the shared-feed condition: another engine on the feed in BOOST or PEAK, and the two IPEAK sum above the
feed-side channel's ILIM. -/
def sharedFeed (s : State) (k : Nat) : Bool :=
  match prof s k with
  | none => false
  | some p => (feedSharers s k).any (fun j =>
      (stkPhase s j == 2 || stkPhase s j == 3) &&
      decide (s.get (pscP p.feed) PSC_LIMIT_ILIM * 10 < s.get (stkP k) STK_CUR_IPEAK + s.get (stkP j) STK_CUR_IPEAK))

/-- WAIT is entered (R227). -/
def stkWait (s : State) (k : Nat) : State :=
  let s := s.setSk k (fun e => { e with waitAt := s.now, phaseEnd := none, chopEnd := none, chopDue := none })
  setPhase (s.put (stkP k) STK_MEAS_WAITUS 0) k 1

/-- R238: a higher-numbered engine on the feed whose FIRE of this tick was taken first: it waits instead. -/
def stkYield (s : State) (k j : Nat) : State :=
  match (s.sk j).firedAt with
  | some (t, r) =>
    if k < j ∧ t = s.now ∧ stkPhase s j = 2 then
      stkWait ((s.put (stkP j) STK_STAT_RESTART r).setSk j (fun e => { e with firedAt := none })) j
    else s
  | none => s

/-- R227, R228, R238: FIRE acts. -/
def stkFire (s : State) (k : Nat) : State :=
  if stkPhase s k = 1 then s
  else
    let s := if sharedFeed s k then s.each (feedSharers s k) (fun s j => stkYield s k j) else s
    if sharedFeed s k then stkWait s k
    else
      let ph := stkPhase s k
      let was := if ph = 2 ∨ ph = 3 then none else some (s.now, s.get (stkP k) STK_STAT_RESTART)
      (stkBoost s k (ph == 0)).setSk k (fun e => { e with firedAt := was })

/-- R245: an accepted FIRE acts, or is stored while a bound channel is unclaimed. -/
def stkFired (s : State) (k : Nat) : State :=
  if (stkBound s k).any (unclaimed s) then s.setSk k (fun e => { e with stored := true }) else stkFire s k

/-- R245: a stored FIRE starts in the tick in which the last bound channel is reclaimed. -/
def stkReclaimed (s : State) (k : Nat) : State :=
  if (s.sk k).stored && !(stkBound s k).any (unclaimed s) then stkFire (s.setSk k (fun e => { e with stored := false })) k else s

/-- R227's second row, tested before those that follow it: the active time has reached the duty limit. -/
def stkDuty (s : State) (k : Nat) : State :=
  if phaseActive (stkPhase s k) && dutyReached s k then stkQuench (s.put (stkP k) STK_STAT_DUTY 1) k 3 else s

/-- R227: RELEASE acts. -/
def stkRelease (s : State) (k : Nat) : State :=
  let s := stkDuty (s.setSk k (fun e => { e with stored := false })) k
  match stkPhase s k with
  | 1 => stkStop s k 1
  | 2 => stkQuench (s.setSk k (fun e => { e with relAt := some s.now })) k 1
  | 3 | 4 => stkQuench s k 1
  | _ => s

/-- R243: the checks of a FIRE, in order. -/
def stkFireCheck (s : State) (k : Nat) : Option Nat :=
  let bad (f : Nat) : Bool := chState s f == stRetry || chState s f == stLocked || chState s f == stSafe
  firstCode [
    failIf (!s.flag (stkP k) STK_CTRL_EN) 0x10,
    failIf (!s.flag Blk.psg.base PSG_CTRL_HBEN || s.flag Blk.psg.base PSG_STAT_HBEXP) 0x11,
    failIf ((stkBound s k).any bad) 0x12,
    failIf (dutyReached s k) 0x13]

/-- R235, R243, R313: a ruled FIRE acts, or is discarded and counted. -/
def stkRuleFire (s : State) (k : Nat) : State :=
  if !stkThere s k then s
  else
    let k := stkLead s k
    match stkFireCheck s k with
    | none => stkFired s k
    | some _ => s.satField (stkP k) STK_DACT_REFUSED

/-- R313: a ruled RELEASE acts as a written one. -/
def stkRuleRelease (s : State) (k : Nat) : State := if stkThere s k then stkRelease s (stkLead s k) else s

/-- STK_RULE_FIRE (R235, R243, R313). -/
def execStkRuleFire (k : Nat) (s : State) : Answer :=
  s.on .power ((stkRuleFire s k).next)

/-- STK_RULE_RELEASE (R313). -/
def execStkRuleRelease (k : Nat) (s : State) : Answer :=
  s.on .power ((stkRuleRelease s k).next)

/-- R232: a window fault sets its bit and pulses the FAULT source; with WINACT = 1 the engine enters QUENCH. -/
def stkWindowFault (s : State) (k : Nat) (b : Fld) : State :=
  raiseSrc (s.put (stkP k) b 1) (0x1A0 + k)

/-- The regulating channel of an engine (R224). -/
def stkReg (s : State) (k : Nat) : Nat :=
  match prof s k with
  | some p => if s.flag (stkP k) STK_CFG_REGSIDE then p.sel else p.feed
  | none => 0

/-- R224: the tick from which the regulating switch may turn off: an on-time below the class minimum is lengthened. -/
def stkLeast (s : State) (k : Nat) : Word := (s.sk k).regOn + BitVec.ofNat 36 (minOn (stkReg s k))

/-- R224: the regulating switch turns off for TOFF, now or at the end of its least on-time; an off-time that runs already
goes on to its own end. -/
def stkOff (s : State) (k : Nat) (e : Stk) : Stk :=
  if e.chopEnd.isSome then e
  else if s.reached (stkLeast s k) then
    { e with chopEnd := some (s.after (us (s.get (stkP k) STK_CFG_TOFF))), chopDue := none }
  else { e with chopDue := some (stkLeast s k) }

/-- PEAK is entered (R227); `arrived` chops at once (R224). -/
def stkPeak (s : State) (k : Nat) (arrived : Bool) : State :=
  let s := s.setSk k (fun e =>
    let e := { e with phaseEnd := some (s.after (us (s.get (stkP k) STK_TIME_TPEAK))), chopEnd := none, chopDue := none }
    if arrived then stkOff s k e else e)
  stkSettle (setPhase s k 3) k

/-- R229: a RELEASE ended BOOST in this tick. -/
def stkReleased (s : State) (k : Nat) : Bool := stkPhase s k == 5 && (s.sk k).relAt == some s.now

/-- PEAK_ARRIVAL (R226, R230, R231): the select-side current reaches IPEAK in BOOST; in the tick of a RELEASE the engine
stays in QUENCH (R229). -/
def peakArrivalEffect (k : Nat) (s : State) : State :=
  let e := s.sk k
  let t := (s.now - e.boostAt).toNat
  let s := (s.put (stkP k) STK_MEAS_TTP (min 65535 (t / 100))).setSk k (fun e => { e with judged := true })
  let checked := e.fresh && s.flag (stkP k) STK_CFG_WINEN
  let early := checked && decide (t < us (s.get (stkP k) STK_WIN_TPMIN))
  let late := checked && decide (us (s.get (stkP k) STK_WIN_TPMAX) < t) && !e.judged
  let s := s.when (checked && t == us (s.get (stkP k) STK_WIN_TPMAX)) (fun s => s.put (stkP k) STK_STAT_COINCIDENT 1)
  let s := if early then stkWindowFault s k STK_STAT_EARLY else if late then stkWindowFault s k STK_STAT_LATE else s
  if stkPhase s k = 5 then stkMirror s k
  else if (early || late) && s.flag (stkP k) STK_CFG_WINACT then stkQuench s k 2 else stkPeak s k true

/-- PEAK_ARRIVAL where its condition holds; else nothing happens. -/
def execPeakArrival (k : Nat) (s : State) : Answer :=
  (s.when (stkThere s k && stkLead s k == k && (stkPhase s k == 2 || stkReleased s k))
    (fun s => let t := stkDuty s k; t.when (stkPhase t k == stkPhase s k) (peakArrivalEffect k))).next

/-- A phase of engine `k` ends by its time (R227), the duty limit tested before it. -/
def phaseServe (k ph : Nat) (act : State → State) (s : State) : State :=
  s.when (stkThere s k && stkLead s k == k && stkPhase s k == ph && s.due (s.sk k).phaseEnd) (fun s =>
    let s := stkDuty s k
    s.when (stkPhase s k == ph) act)

/-- TBOOST elapses without arrival (R227). -/
def boostServe (k : Nat) (s : State) : State :=
  phaseServe k 2 (fun s => stkPeak (s.put (stkP k) STK_MEAS_TTP 65535) k false) s

/-- BOOST_TIMEOUT (R227): at the end of its tick, in which an arrival, a FIRE or a RELEASE comes first. -/
def execBoostTimeout (k : Nat) (s : State) : Answer := (s.expire (s.sk k).phaseEnd (.boostTimeout k) (boostServe k)).next

/-- LATE_WINDOW_FAULT (R230, R232): the tick after TPMAX ends with no arrival; with TPMAX = TBOOST the engine has left BOOST
by then. -/
def lateWindowFaultEffect (k : Nat) (s : State) : State :=
  let s := stkWindowFault (s.setSk k (fun e => { e with judged := true })) k STK_STAT_LATE
  if s.flag (stkP k) STK_CFG_WINACT then stkQuench s k 2 else stkMirror s k

/-- LATE_WINDOW_FAULT where its condition holds; else nothing happens. -/
def execLateWindowFault (k : Nat) (s : State) : Answer :=
  (s.when (stkThere s k && stkLead s k == k && phaseActive (stkPhase s k) && (s.sk k).fresh && s.flag (stkP k) STK_CFG_WINEN
      && !(s.sk k).judged && decide (us (s.get (stkP k) STK_WIN_TPMAX) < (s.now - (s.sk k).boostAt).toNat)) (lateWindowFaultEffect k)).next

/-- HOLD is entered (R226, R227) with the select-side current in 10 mA: the regulating switch turns off where the current
still stands at IHOLD or above, and an off-time in progress goes on. -/
def stkPeakTimeEndEffect (k current : Nat) (s : State) : State :=
  let th := s.get (stkP k) STK_HOLD_THOLD
  let s := s.setSk k (fun e => { e with phaseEnd := if th = 0 then none else some (s.after (ms th)), chopDue := none })
  let s := if s.get (stkP k) STK_CUR_IHOLD ≤ current then s.setSk k (stkOff s k) else s
  stkSettle (setPhase s k 4) k

/-- TPEAK elapses (R227). -/
def peakServe (k current : Nat) (s : State) : State := phaseServe k 3 (stkPeakTimeEndEffect k current) s

/-- STK_PEAK_TIME_END (R226, R227): at the end of its tick, in which a FIRE or a RELEASE comes first. -/
def execStkPeakTimeEnd (k current : Nat) (s : State) : Answer :=
  (s.expire (s.sk k).phaseEnd (.stkPeakTimeEnd k current) (peakServe k current)).next

/-- THOLD elapses (R227). -/
def holdTimeServe (k : Nat) (s : State) : State := phaseServe k 4 (fun s => stkQuench s k 1) s

/-- STK_HOLD_TIME_END (R227): at the end of its tick, in which a FIRE or a RELEASE comes first. -/
def execStkHoldTimeEnd (k : Nat) (s : State) : Answer := (s.expire (s.sk k).phaseEnd (.stkHoldTimeEnd k) (holdTimeServe k)).next

/-- TQ elapses (R227): IDLE, DONE, and the DONE source pulses. -/
def quenchServe (k : Nat) (s : State) : State :=
  phaseServe k 5 (fun s =>
    let s := s.setSk k (fun e => { e with phaseEnd := none })
    raiseSrc (setPhase (s.put (stkP k) STK_STAT_DONE 1) k 0) (0x190 + k)) s

/-- QUENCH_END (R227, R229): at the end of its tick, in which a FIRE starts BOOST instead. -/
def execQuenchEnd (k : Nat) (s : State) : Answer := (s.expire (s.sk k).phaseEnd (.quenchEnd k) (quenchServe k)).next

/-- The regulating switch turns off for TOFF. -/
def stkChop (s : State) (k : Nat) : State :=
  stkApply (s.setSk k (fun e => { e with
    chopEnd := some (s.after (us (s.get (stkP k) STK_CFG_TOFF))), chopDue := none })) k

/-- CHOP_CURRENT_REACHED (R224): the coil current reaches the set point; an on-time below the class minimum is lengthened
to it. -/
def chopCurrentReachedEffect (k : Nat) (s : State) : State :=
  if s.reached (stkLeast s k) then stkChop s k else s.setSk k (fun e => { e with chopDue := some (stkLeast s k) })

/-- CHOP_CURRENT_REACHED where its condition holds; else nothing happens. -/
def execChopCurrentReached (k : Nat) (s : State) : Answer :=
  (s.when (stkThere s k && stkLead s k == k && (stkPhase s k == 3 || stkPhase s k == 4) && (s.sk k).chopEnd.isNone)
    (chopCurrentReachedEffect k)).next

/-- A turn-off held back by the least on-time is made once it is due. -/
def serveChop (s : State) (k : Nat) : State := if s.due (s.sk k).chopDue then stkChop s k else s

/-- CHOP_OFF_TIME_END (R224): TOFF elapses and the regulating switch turns on again. -/
def execChopOffTimeEnd (k : Nat) (s : State) : Answer :=
  (s.when (stkThere s k && stkLead s k == k && (stkPhase s k == 3 || stkPhase s k == 4) && s.due (s.sk k).chopEnd)
    (fun s => stkApply (s.setSk k (fun e => { e with chopEnd := none, regOn := s.now })) k)).next

/-- DUTY_LIMIT_REACHED (R227, R234, R235). -/
def execDutyLimitReached (k : Nat) (s : State) : Answer :=
  (s.when (stkThere s k && stkLead s k == k) (fun s => stkDuty s k)).next

/-- DUTY_SEGMENT_ROLL (R234): a segment of DWIN × 100 ms / 64 ends and the oldest leaves the window. -/
def dutySegmentRollEffect (k : Nat) (s : State) : State :=
  let len := s.get (stkP k) STK_DUTY_DWIN * 156250
  let e := s.sk k
  let t := e.segAt + BitVec.ofNat 36 len
  let last := match e.activeAt with | some a => if reachedAt t a then (t - a).toNat else 0 | none => 0
  let act := e.activeAt.map (fun a => if reachedAt t a then t else a)
  showAct (s.setSk k (fun e => { e with
    segAt := t, activeAt := act, segs := 0 :: (e.segs.headD 0 + last) :: (e.segs.drop 1).take 62 })) k

/-- DUTY_SEGMENT_ROLL where its condition holds; else nothing happens. -/
def execDutySegmentRoll (k : Nat) (s : State) : Answer :=
  let len := s.get (stkP k) STK_DUTY_DWIN * 156250
  (s.when (stkThere s k && stkLead s k == k && s.reached ((s.sk k).segAt + BitVec.ofNat 36 len))
    (dutySegmentRollEffect k)).next

/-! ### Checks of the enable -/

/-- R66, R233, R236: check 11 of a write of EN = 1. -/
def stkEnableLegal (s : State) (k : Nat) : Bool :=
  let p := stkP k
  (!s.flag p STK_CFG_WINEN || (decide (s.get p STK_WIN_TPMIN ≤ s.get p STK_WIN_TPMAX)
    && decide (s.get p STK_WIN_TPMAX ≤ s.get p STK_TIME_TBOOST))) &&
  ((feedSharers s k).isEmpty || (s.flag p STK_CFG_REGSIDE && !s.flag p STK_CFG_QFAST))

/-- R244: ABOVE_LIMIT: IPEAK at or above the ILIM of a bound channel, twice it for a parallel group. -/
def stkAboveLimit (s : State) (k : Nat) : Bool :=
  let n := match prof s k with | some p => if p.par then 2 else 1 | none => 1
  (stkBound s k).any (fun f => decide (s.get (pscP f) PSC_LIMIT_ILIM * 10 * n ≤ s.get (stkP k) STK_CUR_IPEAK))

end Sys2Proof.Machine
end

