-- ==== Sys2Proof/Machine/PowerRegs.lean ====
section
/-! DEFINITION. Writes to the power-stage blocks: channel pages, the group block, stroke and motion engines
(chapters 4 to 7). -/

namespace Sys2Proof.Machine

/-! ### Channel pages -/

/-- R115: the class range of ILIM, 0.1 A. -/
def ilimRange (f : Nat) : Nat × Nat :=
  match clsOf f with | .h => (400, 1600) | .m => (150, 600) | .l => (40, 150) | .b => (200, 800) | .lo => (30, 100)

/-- The checks of a write of `w` at offset `o` of function `f`'s page (R62, R118, R119, R121, R124, R126, R149). -/
def pscChk (f o : Nat) (s : State) (w : Word) : Fails :=
  let p := pscP f
  let m := bitsOf w 2 0
  failAt (!chUsed s f) 5 0x07
  ++ failAt (s.get p PSC_STRUCT_OWNER != 0 && (o == 0 || o == 4 || o == 8)) 6 0x0A
  ++ (if o = 0 then
        failAt ((m == 3 || m == 4) && clsOf f != .b) 11 0x02 ++ failAt (bitAt w 23 && !s.flag p PSC_STRUCT_PARKON) 11 0x02
      else if o = 4 then
        let per := bitsOf w 34 12
        failAt (decide (per < (if clsOf f = .h then 50000 else 4000)) || decide (5000000 < per)) 11 0x02
      else if o = 0xC then
        let i := bitsOf w 35 25
        failAt (decide (i < (ilimRange f).1) || decide ((ilimRange f).2 < i)) 11 0x02
      else [])
  ++ failAt (isOdd s f) 12 0x10
  ++ (if o = 0 then
        failAt (m != 0 && !s.flag Blk.psg.base PSG_CTRL_HBEN) 12 0x12
        ++ failAt (m != 0 && chState s f == stLocked) 12 0x13
      else if o = 0x28 && bitAt w 13 && s.flag p PSC_FAULT_LOCK then
        failAt (s.get p PSC_CMD_MODE != 0) 12 0x13 ++ failAt (!releaseOk s f) 12 0x14
      else [])

/-- What an accepted write to a channel page does: MODE acts (R121), PWM enters the buffer and PHASE is in force
(R127, R148), RETRY restores
RLEFT (R164, R165), DIAG restarts the off-state test (R137), LOCK written 1 unlocks (R121, R169). -/
def pscWritten (f o : Nat) (s : State) (old w : Word) : State :=
  let p := pscP f
  if o = 0 then modeWritten s f (bitsOf old 2 0) (bitsOf w 2 0)
  else if o = 4 then
    if commandActs s f then
      s.setCh f (fun c => { c with bufPer := s.get p PSC_PWM_PERIOD, bufDuty := s.get p PSC_PWM_DUTY })
    else s
  else if o = 8 then if commandActs s f then s.setCh f (fun c => { c with phase := s.rd (p + 8) }) else s
  else if o = 0x14 then if latched s f then s else mirrorPair (s.put p PSC_PROT_RLEFT (s.get p PSC_RETRY_RMAX)) f
  else if o = 0x20 then if bitsOf old 17 8 = bitsOf w 17 8 then s else restartTests s f
  else if o = 0x24 then mirrorPair s f
  else if o = 0x28 then
    let s := if bitAt old 13 && bitAt w 13 then unlock s f else s
    mirrorPair (refreshFlt s f) f
  else s

/-- A write to PSC0 or PSC1: function pages from 0x100, their MODE the governing enable (R124). -/
def pscWrite (r : WriteReq) (s : State) : State :=
  if r.off < 0x100 then blockWrite r (fun _ _ => []) false noHook noRej s
  else
    let f := r.off / 0x100 - 1 + (if r.blk = .psc1 then 36 else 0)
    let o := r.off % 0x100
    blockWrite r (pscChk f o) (s.get (pscP f) PSC_CMD_MODE != 0) (pscWritten f o) noRej s

/-! ### The group block -/

/-- R141, R142: is the writer outside the heartbeat owner's pair, or no Quill core? -/
def beatForeign (s : State) (src : Src) : Bool :=
  let o := s.get Blk.psg.base PSG_CTRL_OWNER
  decide (4 ≤ src.req) || (o != 0 && o != src.req / 2 + 1)

/-- The functions a RECLAIM word marks. -/
def reclaimFuncs (w : Word) : List Nat := (onesBelow w 24).map (· + 24 * bitsOf w 26 25)

/-- The checks of PSG (R141, R142, R146). -/
def psgChk (src : Src) (o : Nat) (s : State) (w : Word) : Fails :=
  let b := Blk.psg.base
  if o = 0 then
    if bitAt w 0 && !s.flag b PSG_CTRL_HBEN then
      failAt (beatForeign s src) 12 0x15 ++ failAt (s.flag Blk.safe.base SAFE_STAT_FSL) 12 0x12
    else []
  else if o = 4 then
    failAt (beatForeign s src) 12 0x15
    ++ failAt (!s.flag b PSG_CTRL_HBEN || s.flag Blk.safe.base SAFE_STAT_FSL) 12 0x12
    ++ failAt (bitsOf w 35 28 != 0xC3 || bitsOf w 3 0 != (s.get b PSG_HB_SEQ + 1) % 16) 12 0x11
  else if o = 0x18 then
    failAt (bitsOf w 26 25 != 3 && (reclaimFuncs w).any (fun f => !chUsed s f)) 5 0x07
    ++ failAt (bitsOf w 35 28 != s.get b PSG_GEN_GEN) 9 0x0B
    ++ failAt (bitsOf w 26 25 == 3) 11 0x02
    ++ failAt (!s.flag b PSG_STAT_HBRUN || s.flag b PSG_STAT_HBEXP) 12 0x12
  else []

/-- R143: an accepted refresh; in the tick of expiry it counts as in time. -/
def beatRefresh (s : State) : State :=
  let s := s.when (s.beat.deadline == some s.now) (fun s => s.put Blk.psg.base PSG_STAT_COINCIDENT 1)
  beatStart (s.put Blk.psg.base PSG_STAT_HBEXP 0)

/-- What an accepted write to PSG does (R141, R142, R146, R190, R245). -/
def psgWritten (src : Src) (o : Nat) (s : State) (old w : Word) : State :=
  if o = 0 then
    if bitAt w 0 && !bitAt old 0 then beatStart (s.put Blk.psg.base PSG_CTRL_OWNER (src.req / 2 + 1)) else s
  else if o = 4 then beatRefresh s
  else if o = 0x18 then
    let s := s.each ((reclaimFuncs w).filter (fun f => !isOdd s f)) reclaim
    (s.each (List.range 6) motReclaimed).each (List.range 16) stkReclaimed
  else s

/-- A write to PSG. -/
def psgWrite (r : WriteReq) (s : State) : State :=
  blockWrite r (psgChk r.src r.off) false (psgWritten r.src r.off) noRej s

/-! ### Motion engines -/

/-- The checks of a motion engine's page (R62, R216 and the page's tables). -/
def motChk (k o : Nat) (s : State) (w : Word) : Fails :=
  let p := motP k
  failAt (!motThere s k) 5 0x07
  ++ (if o = 0 then
        failAt (bitAt w 35 && motKind s k ≤ 1 && s.get p MOT_PINCH_KI == 0 && s.get p MOT_PINCH_KW == 0) 11 0x02
      else if o = 4 then
        failAt (!motCmdLegal s k w) 11 0x02 ++ (match motCmdCheck s k w with | some c => [(12, c)] | none => [])
      else if o = 0xC then failAt (decide (bitsOf w 23 12 < bitsOf w 35 24)) 11 0x02
      else [])

/-- What an accepted write to a motion engine's page does (R190, R219). -/
def motWritten (k o : Nat) (s : State) (old w : Word) : State :=
  if o = 0 then if bitAt old 35 && !bitAt w 35 then motDisabled s k else s
  else if o = 4 then motCommanded s k w
  else if o = 0x20 then setPos s k (motPos s k)
  else s

/-- A write to MOT; CFG fields wait for EN and for the stop's ripple count (R219). -/
def motWrite (r : WriteReq) (s : State) : State :=
  if r.off < 0x100 then blockWrite r (fun _ _ => []) false noHook noRej s
  else
    let k := r.off / 0x100 - 1
    let o := r.off % 0x100
    blockWrite r (motChk k o) (s.flag (motP k) MOT_CTRL_EN || (s.mo k).counting) (motWritten k o) noRej s

/-! ### Stroke engines -/

/-- The checks of a stroke engine's page (R242–R244 and the page's tables). -/
def stkChk (k o : Nat) (s : State) (w : Word) : Fails :=
  let enabling := o == 0 && bitAt w 35 && !s.flag (stkP k) STK_CTRL_EN
  failAt (!stkThere s k) 5 0x07
  ++ failAt (o == 4 && bitAt w 35 && bitAt w 34) 11 0x02
  ++ failAt (o == 0xC && (decide (bitsOf w 35 24 < bitsOf w 23 12) || decide (bitsOf w 23 12 < 5))) 11 0x02
  ++ failAt (enabling && !stkEnableLegal s k) 11 0x02
  ++ failAt (stkLead s k != k && (decide (4 ≤ o) && decide (o ≤ 0x1C))) 12 0x14
  ++ (if o = 8 && bitsOf w 35 32 = 1 then (match stkFireCheck s k with | some c => [(12, c)] | none => []) else [])
  ++ failAt (enabling && stkAboveLimit s (stkLead s k)) 12 0x15

/-- What an accepted write to a stroke engine's page does (R227, R234, R245). -/
def stkWritten (k o : Nat) (s : State) (old w : Word) : State :=
  if o = 0 then
    if bitAt w 35 && !bitAt old 35 then s.put (stkP k) STK_DACT_REFUSED 0
    else if !bitAt w 35 && bitAt old 35 && stkLead s k = k then stkStop (s.setSk k (fun e => { e with stored := false })) k 7
    else s
  else if o = 8 then if bitsOf w 35 32 = 1 then stkFired s k else stkRelease s k
  else if o = 0x20 then stkMirror s (stkLead s k)
  else s

/-- A write to STK. -/
def stkWrite (r : WriteReq) (s : State) : State :=
  if r.off < 0x100 then blockWrite r (fun _ _ => []) false noHook noRej s
  else
    let k := r.off / 0x100 - 1
    let o := r.off % 0x100
    blockWrite r (stkChk k o) (s.flag (stkP k) STK_CTRL_EN) (stkWritten k o) noRej s

end Sys2Proof.Machine
end

