-- ==== Sys2Proof/Machine/Access.lean ====
section
/-! DEFINITION. The access unit (chapter 16): token reads, evaluation frames, the session and the grant. -/

namespace Sys2Proof.Machine

def setAcc (s : State) (g : AccSt → AccSt) : State := { s with acc := g s.acc }

/-- ACC_STAT.STATE: 0 OFF, 1 LOADING, 2 READY, 3 KEYLOST. -/
def accState (s : State) : Nat := s.get accB ACC_STAT_STATE
def accReady (s : State) : Bool := accState s == 2
/-- ACC_SESSION.SSTATE: 0 IDLE, 1 OPEN, 2 ENTERED, 3 DRIVE. -/
def sessState (s : State) : Nat := s.get accB ACC_SESSION_SSTATE
/-- ACC_IR bits: 7 EXEC, 6 REJECT, 5 BACKOFF, 4 SESSION, 3 LOCKF, 2 GRANTF, 1 LEARN, 0 KEYLOST. -/
def accIrq (s : State) (i : Nat) : State := s.raise (accB + 0x34) i

/-- Signet as the writer of the unit's own writes (R425). -/
def signetSrc : Src := ⟨4, .seal⟩

/-- R424: the folio holds an ACCS section. -/
def accPresent (s : State) : Bool := s.hasSect 14
/-- Words of ACCS (R75). -/
def accs (s : State) (i : Nat) : Word := sectWord s 14 i

/-! ### The unit's own writes (R425, R443) -/

/-- A write by the unit: the state after it, and whether it was rejected.  The unit's writes set no flag of Signet's. -/
def unitWrite (s : State) (r : WriteReq) (f : WriteReq → State → State) : State × Bool :=
  let had := s.rej.contains 4
  let s := if s.ready r.blk.island then f r (s.clearRej 4) else (s.clearRej 4).fabReject r.src 0x06 (r.blk.base + r.off)
  let bad := s.rej.contains 4
  (if had then s.setRej 4 else s.clearRej 4, bad)

/-- R443: one lock command; a rejection sets LOCKFAIL and raises LOCKF. -/
def lockWrite (s : State) (r : WriteReq) (f : WriteReq → State → State) : State :=
  let p := unitWrite s r f
  if p.2 then accIrq (p.1.put accB ACC_SESSION_LOCKFAIL 1) 3 else p.1

/-- R443: lock or unlock. -/
def lockAct (s : State) (unlock : Bool) : State :=
  let stk := s.get accB (if unlock then ACC_LOCK_STKU else ACC_LOCK_STKL)
  let mot := bitsOf (accs s 2) 9 4
  let s := s.each ((List.range 16).filter (fun e => stk.testBit e)) (fun s e =>
    lockWrite s ⟨signetSrc, .stk, 0x108 + e * 0x100, .plain, setBits 0 35 32 1⟩ stkWrite)
  s.each ((List.range 6).filter (fun e => mot.testBit e)) (fun s e =>
    lockWrite s ⟨signetSrc, .mot, 0x104 + e * 0x100, .plain, setBits 0 35 32 (if unlock then 2 else 1)⟩ motWrite)

/-! ### Grant frames (R446, R447) -/

/-- R446: octets 0–7 of a grant frame.  With the key registers zeroed (R427) the spec gives no G, and the MAC is free. -/
def grantOctets (s : State) (st : Nat) : List Nat :=
  let cnt := natOctets 4 s.acc.cnt
  let mac := match s.acc.set with
    | some t => (cmac t.g (natOctets 4 (bitsOf (accs s 3) 28 0 + (if bitAt (accs s 3) 29 then 2 ^ 31 else 0)) ++ cnt ++ [st])).take 3
    | none => natOctets 3 s.free.toNat
  cnt ++ mac ++ [st]

/-- R446, R447: a grant frame with STATE `st` is requested from the sealed object, its
data nibs marked (log entry 95); its number is recorded ahead. -/
def grantSend (s : State) (st : Nat) : State :=
  let n := bitsOf (accs s 2) 29 27
  let k := s.get accB ACC_GRANT_OBJ
  let os := grantOctets s st
  let s := s.drawn
  let s := if s.acc.cnt % 65536 = 0 then setAcc s (fun a => { a with gRec := (a.cnt + 65536) % 2 ^ 32, recVer := a.recVer + 1 }) else s
  let w0 := putBit (setBits 0 28 0 (bitsOf (accs s 3) 28 0)) 35 (bitAt (accs s 3) 29)
  let s := if k < canObjs s n then
      (((s.putWord (objW n k 0) w0).putWord (objW n k 1) (setBits 0 35 32 8)).putWord (objW n k 3)
        (nibsWord (markedNibs (os.take 4) 4))).putWord (objW n k 4) (nibsWord (markedNibs (os.drop 4) 4))
    else s
  let ok := canSealed s n k
  let p := if ok then
      unitWrite s ⟨signetSrc, .can (Fin.ofNat 8 n), 0x60 + 4 * (k / 32), .plain, putBit 0 (k % 32) true⟩ (canWrite n)
    else (s, true)
  let s := if p.2 then accIrq p.1 2 else p.1
  let s := s.put accB ACC_GCNT_CNT s.acc.cnt
  setAcc s (fun a => { a with cnt := (a.cnt + 1) % 2 ^ 32, grantAt := some (s.after (ms (s.get accB ACC_GRANT_PER))) })

/-- R446: the grant is withdrawn if it was sent: three frames with STATE 0 follow. -/
def grantWithdraw (s : State) : State :=
  if s.flag accB ACC_SESSION_GRANT then
    setAcc (s.put accB ACC_SESSION_GRANT 0) (fun a => { a with withdraw := 3 })
  else s

/-- GRANT_FRAME_SEND (R446): every PER ms while the grant is issued, then three withdrawn frames. -/
def grantFrameSendEffect (s : State) : State :=
  if s.flag accB ACC_SESSION_GRANT then grantSend s 1
  else if s.acc.withdraw = 0 then setAcc s (fun a => { a with grantAt := none })
  else
    let s := grantSend s 0
    setAcc s (fun a => { a with withdraw := a.withdraw - 1, grantAt := if a.withdraw ≤ 1 then none else a.grantAt })

/-- GRANT_FRAME_SEND where its condition holds; else nothing happens. -/
def execGrantFrameSend (s : State) : Answer :=
  s.on .signet ((s.when (s.due s.acc.grantAt) grantFrameSendEffect).next)

/-! ### The session (R444, R445) -/

/-- SSTATE changes; every change raises SESSION. -/
def sessTo (s : State) (st : Nat) : State :=
  if sessState s = st then s else accIrq (s.put accB ACC_SESSION_SSTATE st) 4

/-- The session ends with an outcome; the grant is withdrawn if it was sent. -/
def sessEnd (s : State) (outcome : Nat) : State :=
  sessTo (setAcc ((grantWithdraw s).put accB ACC_SESSION_OUTCOME outcome) (fun a => { a with timer := none })) 0

/-- R444: is ignition active? -/
def ignition (s : State) : Bool :=
  let n := s.get accB ACC_CTRL_IGNIN
  n < 64 && (s.ip n).deb != 0

/-- R444, R445: the ignition rows. -/
def sessIgnition (s : State) : State :=
  match sessState s with
  | 2 =>
    if ignition s then
      let s := s.when (s.acc.timer == some s.now) (fun s => s.put accB ACC_SESSION_COINCIDENT 1)
      sessTo (setAcc s (fun a => { a with timer := none })) 3
    else s
  | 3 => if ignition s then s else sessEnd s 5
  | _ => s

/-- R444, R445: a door-open stamped `t`. -/
def sessDoor (s : State) (t : Word) : State :=
  if sessState s = 1 then
    let s := s.when (s.acc.timer == some t) (fun s => s.put accB ACC_SESSION_COINCIDENT 1)
    let s := setAcc s (fun a => { a with
      timer := some (t + BitVec.ofNat 36 (sec (s.get accB ACC_TIME_GRACE))), withdraw := 0 })
    let s := sessTo ((s.put accB ACC_SESSION_OUTCOME 1).put accB ACC_SESSION_GRANT 1) 2
    grantSend s 1
  else s

/-- R280, R286, R444: the exit from REST: the inputs take their park samples, and the access unit judges a door-open by
its stamp. -/
def restInputs (s : State) : State :=
  let d := bitsOf (accs s 2) 35 30
  let i := s.ip d
  let inTime := match s.acc.timer with | some x => reachedAt x i.parkAt | none => true
  let opened := inpParked s d && i.ref == 0 && i.parkSmp.getD 0 != 0 && inTime
  let s := inpRestore s
  if accPresent s then sessIgnition (s.when opened (fun s => sessDoor s i.parkAt)) else s

/-- A rising change of DOOR_IN in this tick, and what the access unit makes of it and of IGNIN (R444). -/
def doorIgnition (s : State) (opened : Bool) : State :=
  let s := s.when opened (fun s => sessDoor (setAcc s (fun a => { a with doorAt := some s.now })) s.now)
  sessIgnition s

/-- INPUT_SCAN (R279): a scan of the switch inputs, and what the access unit makes of it (R444). -/
def inputScanEffect (kl30 : Int) (pins : List (Nat × Int)) (s : State) : State :=
  let s := { s with inp := { s.inp with scanAt := s.now } }
  let d := bitsOf (accs s 2) 35 30
  let before := s.ip d
  let s := inputScan s kl30 pins
  s.when (accPresent s && s.ready .signet) (fun s =>
    doorIgnition s (!before.first && before.deb == 0 && (s.ip d).deb != 0))

/-- INPUT_SCAN where its condition holds; else nothing happens. -/
def execInputScan (kl30 : Int) (pins : List (Nat × Int)) (s : State) : Answer :=
  s.on .tbase ((s.when (scanDue s) (inputScanEffect kl30 pins)).next)

/-- R444: an executed UNLOCK of slot `n`; a door-open of the very tick counts (R445). -/
def sessUnlock (s : State) (n : Nat) : State :=
  match sessState s with
  | 0 =>
    let s := (lockAct s true).put accB ACC_SESSION_SLOT n
    let s := sessTo (setAcc s (fun a => { a with
      timer := some (s.after (sec (s.get accB ACC_TIME_SESS_TO))), opened := s.now })) 1
    s.when (s.acc.doorAt == some s.now) (fun s => sessDoor s s.now)
  | 1 => setAcc s (fun a => { a with timer := some (s.after (sec (s.get accB ACC_TIME_SESS_TO))) })
  | _ => lockAct s true

/-- R444: an executed LOCK. -/
def sessLock (s : State) : State :=
  let s := lockAct s false
  match sessState s with
  | 1 | 2 => sessEnd s 3
  | _ => s

/-- R444: the session timer has expired in OPEN. -/
def sessionServe (s : State) : State := s.when (sessState s == 1 && s.due s.acc.timer) (fun s => sessEnd (lockAct s false) 2)

/-- SESSION_TIMEOUT (R444): the rows above its own act first in its tick (R445). -/
def execSessionTimeout (s : State) : Answer := s.on .signet ((s.expire s.acc.timer .sessionTimeout sessionServe).next)

/-- R444: the grace timer has expired in ENTERED. -/
def graceServe (s : State) : State := s.when (sessState s == 2 && s.due s.acc.timer) (fun s => sessEnd s 4)

/-- GRACE_TIMEOUT (R444): the rows above its own act first in its tick (R445). -/
def execGraceTimeout (s : State) : Answer := s.on .signet ((s.expire s.acc.timer .graceTimeout graceServe).next)

/-! ### Enable, keys and disable (R426, R427) -/

/-- The counters in the registers. -/
def accCtrs (s : State) : List Nat := (List.range 16).map (fun n => s.get (accB + 4 * n) ACC_SLOT_CTR)

/-- The unit stops reading and checking. -/
def accStop (s : State) : State :=
  setAcc s (fun a => { a with
    frameEnd := none, codes := [], held := [none, none], reading := [false, false], exec := none })

/-- R444: EN written 0. -/
def accDisable (s : State) : State :=
  let s := if s.acc.exec.isSome then setAcc s (fun a => { a with ctrs := accCtrs s, recVer := a.recVer + 1 }) else s
  accStop ((sessEnd s 6).put accB ACC_STAT_STATE 0)

/-- R427: a key slot of the unit was cleared or reloaded: KEYLOST. -/
def accKeyLost (s : State) : State :=
  if accState s = 1 || accState s = 2 then
    let s := setAcc s (fun a => { a with fkey := none, set := none })
    accIrq ((accStop (sessEnd s 6)).put accB ACC_STAT_STATE 3) 0
  else s

/-- R427: does the unit use this slot? -/
def accUses (s : State) (n : Nat) : Bool := s.get accB ACC_CTRL_FSLOT == n || s.get accB ACC_CTRL_TSLOT == n

/-- A set put into the registers, with its counters. -/
def showSet (s : State) (t : TokSet) (ctrs : List Nat) : State :=
  let s := (s.put accB ACC_SETID_SETID t.setid).put accB ACC_STAT_SETOK 1
  s.each (List.range 16) (fun s n =>
    let e := t.ents.getD n (0, 0, [])
    let p := accB + 4 * n
    (((s.put p ACC_SLOT_VALID (e.1 / 128)).put p ACC_SLOT_SERVICE (e.1 / 64)).put p ACC_SLOT_CMDMASK e.2.1).put p
      ACC_SLOT_CTR (ctrs.getD n 0))

/-- R428: a token read starts on a channel. -/
def startRead (s : State) (ch : Nat) : State :=
  setAcc s (fun a => { a with reading := a.reading.set ch true, readAt := a.readAt.set ch s.now })

def attn (s : State) (ch : Nat) : Bool := s.flag (accB + 4 * ch) ACC_CH_ATTN

/-- ACC_LOADING_DONE (R426, R435, R447): the keys and the set in force are unsealed; READY, frame 0 begins, and the
grant counter resumes from its record. -/
def accLoadingDoneEffect (s : State) : State :=
  let t := match s.acc.commit with | some b => s.acc.banks.getD b none | none => none
  let s := match t with | some t => showSet s t s.acc.ctrs | none => s
  let s := ((s.put accB ACC_STAT_FLEETKEY 1).put accB ACC_GCNT_CNT s.acc.gRec).put accB ACC_STAT_STATE 2
  let s := setAcc s (fun a => { a with
    fkey := a.fleet, set := t, cnt := a.gRec, frameEnd := some (s.after 2000000), codes := [] })
  s.each ((List.range 2).filter (attn s)) startRead

/-- ACC_LOADING_DONE where its condition holds; else nothing happens. -/
def execAccLoadingDone (s : State) : Answer :=
  s.on .signet ((s.when (accState s == 1) accLoadingDoneEffect).next)

/-! ### Token reads (R428, R438) -/

/-- ATTENTION_ASSERT (R428): each assertion in READY starts a read, unless one runs. -/
def execAttentionAssert (ch : Fin 2) (s : State) : Answer :=
  (wakeDetect (s.when (accPresent s && s.ready .signet) (fun s =>
    (s.put (accB + 4 * ch.val) ACC_CH_ATTN 1).when (accReady s && !s.acc.reading.getD ch.val false) (fun s =>
      startRead s ch.val))) (25 - ch.val)).next

/-- The log entry of a code (R436): a result, and COINCIDENT. -/
def accLog (s : State) (c : Code) (result : Nat) (coin : Bool) : State :=
  let pos := s.get accB ACC_STAT_LOGPOS
  let k := if s.flag (accB + 8 * pos) ACC_LOG_VALID then (pos + 1) % 16 else pos
  let p := accB + 8 * k
  let w := putBit (setBits (setBits (setBits (putBit (putBit 0 35 true) 34 (c.ch == 1)) 33 30 (c.octets.getD 5 0 / 16)) 29 22
    (c.octets.getD 9 0)) 21 18 result) 17 coin
  ((s.wr (p + 0x200) w).wr (p + 0x204) c.stamp).put accB ACC_STAT_LOGPOS k

/-- R439: a SERVICE entry's code in life-cycle state SERVICE passes the back-off. -/
def serviceCode (s : State) (c : Code) : Bool :=
  lcState s == 3 && s.flag (accB + 4 * (c.octets.getD 5 0 / 16 % 16)) ACC_SLOT_SERVICE

/-- A code joins the running frame, in the order in which the reads ended. -/
def joinFrame (s : State) (c : Code) : State :=
  setAcc s (fun a => { a with
    codes := a.codes.filter (fun d => reachedAt c.stamp d.stamp) ++ [c] ++ a.codes.filter (fun d => !reachedAt c.stamp d.stamp) })

/-- TOKEN_READ_END (R428, R435, R438): the 14 octets received, and whether the attention line is still asserted. -/
def tokenReadEndEffect (ch : Nat) (octets : List Nat) (asserted : Bool) (s : State) : State :=
  let s := (setAcc s (fun a => { a with
    reading := a.reading.set ch false, readEnd := a.readEnd.set ch s.now })).put (accB + 4 * ch) ACC_CH_ATTN asserted.toNat
  let c : Code := ⟨ch, octets.map (· % 256), s.now⟩
  if (s.acc.boff.getD ch none).isSome && !serviceCode s c then
    let s := match s.acc.held.getD ch none with | some d => accLog s d 9 false | none => s
    (setAcc s (fun a => { a with held := a.held.set ch (some c) })).put (accB + 4 * ch) ACC_CH_HELD 1
  else joinFrame s c

/-- TOKEN_READ_END: 15 octets at CLK MHz have passed; else nothing happens. -/
def execTokenReadEnd (ch : Fin 2) (octets : List Nat) (asserted : Bool) (s : State) : Answer := s.on .signet <|
  let ch := ch.val
  let least := 12000 / s.get (accB + 4 * ch) ACC_CH_CLK
  (s.when (s.acc.reading.getD ch false && octets.length == 14
      && s.reached (s.acc.readAt.getD ch 0 + BitVec.ofNat 36 least)) (tokenReadEndEffect ch octets asserted)).next

/-- TOKEN_READ_REPEAT (R428): 1 ms after the last read, while the line stays asserted. -/
def execTokenReadRepeat (ch : Fin 2) (s : State) : Answer := s.on .signet <|
  (s.when (accReady s && attn s ch.val && !s.acc.reading.getD ch.val false
      && s.reached (s.acc.readEnd.getD ch.val 0 + BitVec.ofNat 36 (ms 1))) (fun s => startRead s ch.val)).next

/-- A kept code joins the running frame. -/
def releaseHeld (s : State) (ch : Nat) : State :=
  match s.acc.held.getD ch none with
  | some c => joinFrame ((setAcc s (fun a => { a with held := a.held.set ch none })).put (accB + 4 * ch) ACC_CH_HELD 0) c
  | none => s

/-- R438: a channel's back-off has ended. -/
def backoffServe (ch : Nat) (s : State) : State :=
  s.when (s.due (s.acc.boff.getD ch none)) (fun s =>
    releaseHeld (setAcc s (fun a => { a with boff := a.boff.set ch none })) ch)

/-- ACC_BACKOFF_END (R438): at the end of its tick, before a frame that ends in it. -/
def execAccBackoffEnd (ch : Fin 2) (s : State) : Answer :=
  s.on .signet ((s.expire (s.acc.boff.getD ch.val none) (.accBackoffEnd ch) (backoffServe ch.val)).next)

/-! ### Evaluation frames (R435–R441) -/

/-- The fields of a code (R429). -/
def codeSlot (c : Code) : Nat := c.octets.getD 5 0 / 16 % 16
def codeCtr (c : Code) : Nat := c.octets.getD 5 0 % 16 * 2 ^ 24 + octetsNat ((c.octets.drop 6).take 3)
def codeCmd (c : Code) : Nat := c.octets.getD 9 0

/-- R436 checks 1 to 4: the result of the first that fails. -/
def codeCheck (s : State) (c : Code) : Option Nat :=
  let p := accB + 4 * codeSlot c
  let key := match s.acc.set with | some t => (t.ents.getD (codeSlot c) (0, 0, [])).2.2 | none => []
  firstCode [
    failIf (c.octets.getD 0 0 != 1 || octetsNat ((c.octets.drop 1).take 4) != bitsOf (accs s 0) 31 0) 8,
    failIf (!s.flag p ACC_SLOT_VALID) 6,
    failIf ((cmac key (c.octets.take 10)).take 4 != (c.octets.drop 10).take 4) 5,
    failIf (codeCmd c == 0 || decide (4 < codeCmd c) || !(s.get p ACC_SLOT_CMDMASK).testBit (codeCmd c - 1)) 7]

/-- R437: the counter window: none where the code is accepted; with it, whether its read ended as the 5 s did. -/
def ctrCheck (s : State) (c : Code) : Option Nat × Bool :=
  let d := (codeCtr c + 2 ^ 28 - s.get (accB + 4 * codeSlot c) ACC_SLOT_CTR) % 2 ^ 28
  if d = 0 then (some 3, false)
  else if 16385 ≤ d then (some 4, false)
  else if d ≤ 32 then (none, false)
  else match s.acc.cands.getD (codeSlot c) none with
    | some (cand, t) =>
      if codeCtr c = (cand + 1) % 2 ^ 28 && (c.stamp - t).toNat ≤ sec 5 then (none, (c.stamp - t).toNat == sec 5)
      else (some 2, false)
    | none => (some 2, false)

/-- The end of the frame that is checked: the frame in progress began there (R435). -/
def frameStart (s : State) : Word := (s.acc.frameEnd.getD s.now) - BitVec.ofNat 36 2000000

/-- R438: an invalid code counts against its channel; from the fifth on a back-off starts at the end of the code's frame. -/
def codeInvalid (s : State) (ch : Nat) : State :=
  let p := accB + 4 * ch
  let n := min 15 (s.get p ACC_CH_INVCNT + 1)
  let s := accIrq (s.put p ACC_CH_INVCNT n) 6
  if 5 ≤ n then
    accIrq (setAcc s (fun a => { a with boff := a.boff.set ch (some
      (frameStart s + BitVec.ofNat 36 (min (sec 16) (ms (250 * 2 ^ (n - 5)))))) })) 5
  else s

/-- R438: a valid code clears the count and ends any back-off. -/
def codeValid (s : State) (ch : Nat) : State :=
  let s := s.put (accB + 4 * ch) ACC_CH_INVCNT 0
  releaseHeld (setAcc s (fun a => { a with boff := a.boff.set ch none })) ch

/-- R437: a code is accepted: its counter is the slot's, and no candidate is left. -/
def codeAccept (s : State) (c : Code) : State :=
  codeValid (setAcc (s.put (accB + 4 * codeSlot c) ACC_SLOT_CTR (codeCtr c)) (fun a =>
    { a with cands := a.cands.set (codeSlot c) none })) c.ch

/-- R437: the code becomes its slot's candidate. -/
def codeCandidate (s : State) (c : Code) : State :=
  setAcc s (fun a => { a with cands := a.cands.set (codeSlot c) (some (codeCtr c, c.stamp)) })

/-- R437: what a code past the checks of R436 leaves behind: accepted, kept as a candidate, or invalid. -/
def counterAct (s : State) (c : Code) (result : Option Nat) : State :=
  match result with
  | none => codeAccept s c
  | some r => if r = 2 then codeCandidate s c else codeInvalid s c.ch

/-- R436, R437: one code checked: its result (none: valid), COINCIDENT, and what it leaves behind; result 8 counts against
no channel. -/
def codeResult (s : State) (c : Code) : State × Option Nat × Bool :=
  match codeCheck s c with
  | some r => (if r = 8 then s else codeInvalid s c.ch, some r, false)
  | none =>
    let r := ctrCheck s c
    (counterAct s c r.1, r.1, r.2)

/-- The codes of a frame checked in order. -/
def checkCodes (s : State) : List Code → State × List (Code × Option Nat × Bool)
  | [] => (s, [])
  | c :: t =>
    let r := codeResult s c
    let rest := checkCodes r.1 t
    (rest.1, (c, r.2.1, r.2.2) :: rest.2)

/-- R440: the place of the executed code: the first of the lowest-numbered slot among the valid ones. -/
def winnerIndex (l : List (Code × Option Nat × Bool)) : Option Nat :=
  (List.range 16).findSome? (fun n =>
    let i := l.findIdx (fun p => p.2.1.isNone && codeSlot p.1 == n)
    if i < l.length then some i else none)

/-- EVAL_FRAME_END (R435, R440, R441). -/
def evalFrameEndEffect (s : State) : State :=
  let stop := s.acc.frameEnd.getD s.now
  let codes := s.acc.codes.filter (fun c => reachedAt stop c.stamp)
  let s := setAcc s (fun a => { a with codes := a.codes.filter (fun c => !reachedAt stop c.stamp), frameEnd := a.frameEnd.map (· + 2000000) })
  let r := checkCodes s codes
  let win := winnerIndex r.2
  let s := r.1.each (r.2.zipIdx) (fun s p =>
    accLog s p.1.1 (match p.1.2.1 with | some k => k | none => if win == some p.2 then 0 else 1) p.1.2.2)
  match win with
  | some i => match r.2[i]? with
    | some p => setAcc s (fun a => { a with exec := some (codeSlot p.1, codeCmd p.1) })
    | none => s
  | none => s

/-- R435: a frame has ended. -/
def frameServe (s : State) : State := s.when (accReady s && s.due s.acc.frameEnd) evalFrameEndEffect

/-- EVAL_FRAME_END (R435): at the end of its tick, whose reads belong to the frame. -/
def execEvalFrameEnd (s : State) : Answer := s.on .signet ((s.expire s.acc.frameEnd .evalFrameEnd frameServe).next)

/-- R437: a candidate far past its 5 s can meet no code: the kept code of a back-off is at most 16 s old. -/
def candTick (s : State) : State :=
  setAcc s (fun a => { a with cands := a.cands.map (fun c =>
    c.filter (fun p => decide ((s.now - p.2).toNat < sec 30))) })

/-- ACC_COMMAND_ACT (R441, R442): the accepted counters are written, and the executed command acts. -/
def execAccCommandAct (s : State) : Answer := s.on .signet <|
  (match s.acc.exec with
   | none => s
   | some (n, cmd) =>
     let s := setAcc s (fun a => { a with ctrs := accCtrs s, exec := none, recVer := a.recVer + 1 })
     match cmd with
     | 1 => sessIgnition (sessUnlock s n)
     | 2 => sessLock s
     | _ => accIrq (((s.put accB ACC_FWCMD_PEND 1).put accB ACC_FWCMD_SLOT n).put accB ACC_FWCMD_CMD cmd) 7).next

/-! ### IMPORT and LEARN (R431–R434) -/

/-- R431: F from ACC_FIMP into the fleet record. -/
def accImport (s : State) : State :=
  let f := s.acc.fimp.flatMap (fun w => natOctets 4 (bitsOf w 31 0))
  let s := setAcc s (fun a => { a with fleet := some f, fimp := List.replicate 8 0, recVer := a.recVer + 1 })
  accIrq ((s.put accB ACC_STAT_FLEETKEY 1).put accB ACC_LSTAT_DONE 1) 1

/-- R432: the plaintext of a set message read into a set and its starting counters. -/
def parseSet (setid : Nat) (g : List Nat) (pl : List Nat) : TokSet × List Nat :=
  let e := (List.range 16).map (fun j => (pl.drop (36 + 38 * j)).take 38)
  (⟨setid, g, e.map (fun o => (o.getD 0 0, o.getD 1 0 % 16, o.drop 6))⟩,
   e.map (fun o => octetsNat ((o.drop 2).take 4) % 2 ^ 28))

/-- R432: every zero field of the plaintext is zero. -/
def zerosOk (pl : List Nat) : Bool :=
  (List.range 16).all (fun j =>
    let o := (pl.drop (36 + 38 * j)).take 38
    o.getD 0 0 % 64 == 0 && o.getD 1 0 / 16 == 0 && o.getD 2 0 / 16 == 0)

/-- R433: the outcome of the checks: the code of the first that fails, or the new set. -/
def learnCheck (s : State) : Nat ⊕ (TokSet × List Nat) :=
  let a := s.get accB ACC_LADDR_ADDR
  if !accReady s || s.flag accB ACC_LSTAT_BUSY then .inl 0x06
  else if a % 4 != 0 || !inInkwell a 680 then .inl 0x02
  else
    let m := s.octets a 680
    let setid := octetsNat ((m.drop 4).take 4)
    if m.take 4 != [0x54, 0x53, 0x01, 0x00] then .inl 0x12
    else if setid ≤ s.get accB ACC_SETID_SETID then .inl 0x11
    else match gcmOpen (s.acc.fkey.getD []) ((m.drop 8).take 12) (m.take 8) ((m.drop 20).take 644) (m.drop 664) with
      | none => .inl 0x12
      | some pl =>
        if octetsNat (pl.take 4) != bitsOf (accs s 0) 31 0 then .inl 0x13
        else if !zerosOk pl then .inl 0x12
        else
          let g := (pl.drop 4).take 32
          let old := match s.acc.set with | some t => t.g | none => g
          .inr (parseSet setid (if g.all (· == 0) then old else g) pl)

/-- R433: LEARN: a failure is recorded in ERR; otherwise the new set is being written. -/
def accLearn (s : State) : State :=
  match learnCheck s with
  | .inl code => accIrq (s.put accB ACC_LSTAT_ERR code) 1
  | .inr set => setAcc (s.put accB ACC_LSTAT_BUSY 1) (fun a => { a with learn := some set })

/-- ACC_LEARN_DONE (R434): the commit word is written, then the registers and keys are replaced. -/
def execAccLearnDone (s : State) : Answer := s.on .signet <|
  (match s.acc.learn with
   | none => s
   | some (t, ctrs) =>
     let b := match s.acc.commit with | some 0 => 1 | _ => 0
     let s := setAcc s (fun a => { a with
       banks := a.banks.set b (some t), commit := some b, ctrs := ctrs, learn := none, recVer := a.recVer + 1,
       set := if a.set.isSome || accReady s then some t else none })
     accIrq (((showSet s t ctrs).put accB ACC_LSTAT_BUSY 0).put accB ACC_LSTAT_DONE 1) 1).next

/-! ### Writes (R424–R426, R431) -/

/-- R426: the node and attributes a slot must have. -/
def slotNode (s : State) (n node e : Nat) : Bool :=
  slotAllows s n e 2 (lcState s) && bitsOf (slotReg s n) 34 27 == node

/-- The checks of ACC. -/
def accChk (src : Src) (o : Nat) (s : State) (w : Word) : Fails :=
  failAt (src.req != 4) 2 0x04 ++ failAt (!accPresent s) 5 0x07
  ++ (if o = 0 && bitAt w 35 && !s.flag accB ACC_CTRL_EN then
        let fs := bitsOf w 34 30
        let ts := bitsOf w 29 25
        let ign := bitsOf w 24 18
        let lock := bitsOf (accs s 2) 25 10
        let sub (x : Nat) : Bool := (List.range 16).all (fun e => !x.testBit e || lock.testBit e)
        failAt (ign != 127 && !(ign < 64 && s.flag (inpI ign) INP_ICFG_USE)) 11 0x02
        ++ failAt (!(sub (s.get accB ACC_LOCK_STKU) && sub (s.get accB ACC_LOCK_STKL))) 11 0x02
        ++ failAt (!slotNode s fs (bitsOf (accs s 1) 35 28) 0) 12 0x14
        ++ failAt (!(slotNode s ts (bitsOf (accs s 1) 27 20) 3 && bitsOf (slotReg s ts) 26 24 ≤ 5)) 12 0x14
        ++ failAt s.acc.fleet.isNone 12 0x10
        ++ failAt (!s.flag Blk.psg.base PSG_CTRL_HBEN) 12 0x16
      else if o = 0x1C && bitsOf w 35 32 = 2 then
        failAt (lcState s != 1) 3 0x05
        ++ failAt (!slotAllows s (s.get accB ACC_CTRL_FSLOT) 0 2 (lcState s)) 10 0x09
        ++ failAt s.acc.fleet.isSome 12 0x15
      else [])

/-- What an accepted write does. -/
def accWritten (o : Nat) (s : State) (old w : Word) : State :=
  if o = 0 then
    if bitAt w 35 && !bitAt old 35 then s.put accB ACC_STAT_STATE 1
    else if !bitAt w 35 && bitAt old 35 then accDisable s
    else s
  else if o = 0x1C then (s.put accB ACC_LEARN_OP 0) |> (if bitsOf w 35 32 = 1 then accLearn else accImport)
  else if 0x40 ≤ o && o < 0x60 then setAcc s (fun a => { a with fimp := a.fimp.set ((o - 0x40) / 4) w })
  else s

/-- A write to ACC. -/
def accWrite (r : WriteReq) (s : State) : State :=
  blockWrite r (accChk r.src r.off) (s.flag accB ACC_CTRL_EN) (accWritten r.off) noRej s

/-- R449: the unit after a power-on, WARM or REFOLD reset, or a CAPPED exit: the records survive. -/
def accReset (s : State) : State :=
  setAcc (s.resetBlk .acc) (fun a => { AccSt.reset with
    fleet := a.fleet, banks := a.banks, commit := a.commit, ctrs := a.ctrs, gRec := a.gRec, recVer := a.recVer })

end Sys2Proof.Machine
end

