-- ==== Sys2Proof/Machine/Flags.lean ====
section
/-! DEFINITION. The flags of Valnen-36 (R451, R487, R488) and the result of an ALU operation. -/

namespace Sys2Proof.Machine

/-- A result with the C and V its class gives; N and Z follow from the value (R488). -/
structure Alu where
  val : Word
  c   : Bool
  v   : Bool
  deriving DecidableEq, Repr

/-- FLG's four bits: N, Z, C, V in bits 3:0 (R451). -/
def packFlags (n z c v : Bool) : BitVec 4 := BitVec.ofBool n ++ BitVec.ofBool z ++ BitVec.ofBool c ++ BitVec.ofBool v

/-- R488: the flags of a result. -/
def Alu.flags (a : Alu) : BitVec 4 := packFlags a.val.msb (a.val == 0) a.c a.v

def flagN (f : BitVec 4) : Bool := f.getLsbD 3
def flagZ (f : BitVec 4) : Bool := f.getLsbD 2
def flagC (f : BitVec 4) : Bool := f.getLsbD 1
def flagV (f : BitVec 4) : Bool := f.getLsbD 0

/-- Z replaced, N, C and V kept (R37, R413). -/
def setZ (f : BitVec 4) (z : Bool) : BitVec 4 := packFlags (flagN f) z (flagC f) (flagV f)

/-- R487: does a condition hold?  Code 0xF is not legal. -/
def condHolds (cond : Nat) (f : BitVec 4) : Bool :=
  let n := flagN f
  let z := flagZ f
  let c := flagC f
  let v := flagV f
  match cond with
  | 0x0 => z | 0x1 => !z | 0x2 => c | 0x3 => !c | 0x4 => n | 0x5 => !n | 0x6 => v | 0x7 => !v
  | 0x8 => c && !z | 0x9 => !c || z | 0xA => n == v | 0xB => n != v | 0xC => !z && n == v | 0xD => z || n != v
  | 0xE => true
  | _ => false

end Sys2Proof.Machine
end

