-- ==== Sys2Proof/Machine/Alu.lean ====
section
/-! DEFINITION. The operations of Valnen-36 as pure functions (R488–R495), shared by the base instructions and by the
micro-operations of a customer instruction (R509). -/

namespace Sys2Proof.Machine

/-- A logical result: C and V 0 (R488). -/
def logical (w : Word) : Alu := ⟨w, false, false⟩

/-- Outside the signed range of 36 bits. -/
def outside (x : Int) : Bool := decide (x < -(2 : Int) ^ 35 ∨ (2 : Int) ^ 35 ≤ x)

/-! ### Add and subtract classes (R488) -/

/-- x + y + carry-in. -/
def opAddC (x y : Word) (cin : Bool) : Alu :=
  ⟨x + y + BitVec.ofNat 36 cin.toNat, decide (2 ^ 36 ≤ x.toNat + y.toNat + cin.toNat), outside (x.toInt + y.toInt + cin.toNat)⟩

/-- x − y − borrow-in, `cin` being its inverse; C is 1 when no borrow occurs. -/
def opSubC (x y : Word) (cin : Bool) : Alu :=
  ⟨x - y - BitVec.ofNat 36 (!cin).toNat, decide (y.toNat + (!cin).toNat ≤ x.toNat), outside (x.toInt - y.toInt - (!cin).toNat)⟩

def opAdd (x y : Word) : Alu := opAddC x y false
def opSub (x y : Word) : Alu := opSubC x y true

/-! ### Shifts (R490) -/

/-- Is bit `i` of a word 1? -/
def bitB (x : Word) (i : Nat) : Bool := x.getLsbD i

def opShl (x : Word) (n : Nat) : Alu :=
  if n = 0 then ⟨x, false, false⟩ else if n ≤ 36 then ⟨x <<< n, bitB x (36 - n), false⟩ else ⟨0, false, false⟩

def opShr (x : Word) (n : Nat) : Alu :=
  if n = 0 then ⟨x, false, false⟩ else if n ≤ 36 then ⟨x >>> n, bitB x (n - 1), false⟩ else ⟨0, false, false⟩

def opSar (x : Word) (n : Nat) : Alu :=
  if n = 0 then ⟨x, false, false⟩
  else if n ≤ 36 then ⟨x.sshiftRight n, bitB x (n - 1), false⟩ else ⟨x.sshiftRight 36, x.msb, false⟩

def opRol (x : Word) (n : Nat) : Alu :=
  let r := n % 36
  let w := (x <<< r) ||| (x >>> (36 - r))
  if r = 0 then ⟨x, false, false⟩ else ⟨w, bitB w 0, false⟩

def opRor (x : Word) (n : Nat) : Alu :=
  let r := n % 36
  let w := (x >>> r) ||| (x <<< (36 - r))
  if r = 0 then ⟨x, false, false⟩ else ⟨w, w.msb, false⟩

/-- A register's shift amount: y[7:0] (R489). -/
def shiftAmt (y : Word) : Nat := bitsOf y 7 0

/-- R491: is an SHI immediate legal? -/
def shiLegal (i : BitVec 18) : Bool :=
  decide (i.toNat / 2 ^ 15 ≤ 4 ∧ i.toNat / 2 ^ 6 % 2 ^ 9 = 0 ∧ i.toNat % 64 ≤ 35)

/-- R491: SHI. -/
def opShi (x : Word) (i : BitVec 18) : Alu :=
  let n := i.toNat % 64
  match i.toNat / 2 ^ 15 with
  | 0 => opShl x n | 1 => opShr x n | 2 => opSar x n | 3 => opRol x n | _ => opRor x n

/-! ### Multiply and divide (R492) -/

def opMul (x y : Word) : Alu :=
  ⟨x * y, decide (2 ^ 36 ≤ x.toNat * y.toNat), outside (x.toInt * y.toInt)⟩

def opMulh (x y : Word) : Alu := logical (BitVec.ofInt 36 (x.toInt * y.toInt / 2 ^ 36))
def opMulhu (x y : Word) : Alu := logical (BitVec.ofNat 36 (x.toNat * y.toNat / 2 ^ 36))

def opDiv (x y : Word) : Alu :=
  if y = 0 then ⟨0, false, true⟩
  else ⟨BitVec.ofInt 36 (x.toInt.tdiv y.toInt), false, outside (x.toInt.tdiv y.toInt)⟩

def opDivu (x y : Word) : Alu := if y = 0 then ⟨0, false, true⟩ else logical (x / y)

def opRem (x y : Word) : Alu :=
  if y = 0 then ⟨x, false, true⟩ else logical (BitVec.ofInt 36 (x.toInt.tmod y.toInt))

def opRemu (x y : Word) : Alu := if y = 0 then ⟨x, false, true⟩ else logical (x % y)

/-! ### Counts, permutes and packs (R489, R494, R495) -/

/-- Leading zero bits among the low `n`. -/
def clzBelow (x : Word) : Nat → Nat
  | 0 => 0
  | n + 1 => if x.getLsbD n then 0 else clzBelow x n + 1

/-- Trailing zero bits, from bit `i`, looking at `n` bits. -/
def ctzFrom (x : Word) (i : Nat) : Nat → Nat
  | 0 => 0
  | n + 1 => if x.getLsbD i then 0 else ctzFrom x (i + 1) n + 1

def opClz (x : Word) : Alu := logical (BitVec.ofNat 36 (clzBelow x 36))
def opCtz (x : Word) : Alu := logical (BitVec.ofNat 36 (ctzFrom x 0 36))
def opPopc (x : Word) : Alu := logical (BitVec.ofNat 36 (countOnes x 36))

/-- Nib `k` of a word (R4). -/
def nibOf (x : Word) (k : Nat) : BitVec 9 := x.extractLsb' (9 * k) 9

/-- R494: result nib k is nib s[2k+1 : 2k] of x. -/
def opNprm (x : Word) (sel : Nat) : Alu :=
  logical (nibOf x (sel / 64 % 4) ++ nibOf x (sel / 16 % 4) ++ nibOf x (sel / 4 % 4) ++ nibOf x (sel % 4))

/-- R495: an octet and a mark of a nib. -/
def octOf (x : Word) (k : Nat) : BitVec 8 := x.extractLsb' (9 * k) 8
def markOf (x : Word) (k : Nat) : BitVec 1 := x.extractLsb' (9 * k + 8) 1

def opOpk (x : Word) : Alu :=
  logical (markOf x 0 ++ markOf x 1 ++ markOf x 2 ++ markOf x 3 ++ octOf x 0 ++ octOf x 1 ++ octOf x 2 ++ octOf x 3)

def opOpkl (x : Word) : Alu :=
  logical (markOf x 3 ++ markOf x 2 ++ markOf x 1 ++ markOf x 0 ++ octOf x 3 ++ octOf x 2 ++ octOf x 1 ++ octOf x 0)

def bit1 (x : Word) (i : Nat) : BitVec 1 := x.extractLsb' i 1
def oct8 (x : Word) (i : Nat) : BitVec 8 := x.extractLsb' i 8

def opOupk (x : Word) : Alu :=
  logical (bit1 x 32 ++ oct8 x 0 ++ bit1 x 33 ++ oct8 x 8 ++ bit1 x 34 ++ oct8 x 16 ++ bit1 x 35 ++ oct8 x 24)

def opOupkl (x : Word) : Alu :=
  logical (bit1 x 35 ++ oct8 x 24 ++ bit1 x 34 ++ oct8 x 16 ++ bit1 x 33 ++ oct8 x 8 ++ bit1 x 32 ++ oct8 x 0)

/-! ### Bit fields (R493) -/

/-- R493: legal pos and len. -/
def bfLegal (pos len : Nat) : Bool := decide (pos ≤ 35 ∧ 1 ≤ len ∧ len ≤ 36 ∧ pos + len ≤ 36)

def opBfx (x : Word) (pos len : Nat) : Alu := logical (BitVec.ofNat 36 (bitsOf x (pos + len - 1) pos))
def opBfxs (x : Word) (pos len : Nat) : Alu := logical (BitVec.ofInt 36 (signed len (bitsOf x (pos + len - 1) pos)))
def opBfi (old x : Word) (pos len : Nat) : Alu := logical (setBits old (pos + len - 1) pos x.toNat)

end Sys2Proof.Machine
end

