-- ==== Sys2Proof/Machine/Operands.lean ====
section
/-! DEFINITION. The operand forms of Valnen-36 (R450, R483, R484), the address map as a core meets it (R23–R27, R458),
OPEN windows (R455), exceptions (R464–R468), and the issue of one instruction on a core (R485). -/

namespace Sys2Proof.Machine

/-! ### Registers and immediates -/

/-- R450: register `r` of a core; w0 reads 0. -/
def Core.reg (k : Core) (r : Reg) : Word := if r = 0 then 0 else k.regs.getD r.val 0

/-- R450: register `r` written; a write to w0 is discarded. -/
def Core.setReg (k : Core) (r : Reg) (v : Word) : Core := if r = 0 then k else { k with regs := k.regs.set r.val v }

def State.reg (s : State) (c : CoreId) (r : Reg) : Word := (s.core c.val).reg r
def State.setReg (s : State) (c : CoreId) (r : Reg) (v : Word) : State := s.setCore c.val (fun k => k.setReg r v)

/-- R484: the signed and the unsigned reading of imm18. -/
def sext18 (i : BitVec 18) : Word := i.signExtend 36
def zext18 (i : BitVec 18) : Word := i.zeroExtend 36

/-- R482: the instruction completes: PC + 4. -/
def State.advance (s : State) (c : CoreId) : State := s.setCore c.val (fun k => { k with pc := k.pc + 4 })

/-- A result written with its flags, and PC + 4. -/
def State.aluDone (s : State) (c : CoreId) (wd : Reg) (a : Alu) : State :=
  s.setCore c.val (fun k => { (k.setReg wd a.val) with flg := a.flags, pc := k.pc + 4 })

/-- A result written without flags, and PC + 4. -/
def State.regDone (s : State) (c : CoreId) (wd : Reg) (v : Word) : State :=
  s.setCore c.val (fun k => { (k.setReg wd v) with pc := k.pc + 4 })

/-! ### The address map -/

/-- The regions of R23, the Vellum read map by its rows (R26). -/
inductive Region where
  | rom | tcm (n : Nat) | inkwell | signet | can (n : Nat) | vellum | vault | device
  deriving DecidableEq, Repr

/-- R23–R25, R457: the region that backs an address; none where nothing does. -/
def regionOf (s : State) (a : Nat) : Option Region :=
  if a < 0x10000 then some .rom
  else if 0x01000000 ≤ a ∧ a < 0x01100000 then
    let n := (a - 0x01000000) / 0x40000
    if coreIdle s n then none else some (.tcm n)
  else if 0x02000000 ≤ a ∧ a < 0x02280000 then some .inkwell
  else if 0x03000000 ≤ a ∧ a < 0x03040000 then some .signet
  else if 0x04000000 ≤ a ∧ a < 0x04040000 then
    let n := (a - 0x04000000) / 0x8000
    if a % 0x8000 < 80 * canObjs s n then some (.can n) else none
  else if 0x12E00000 ≤ a ∧ a < 0x12F00000 then some .vault
  else if 0x10000000 ≤ a ∧ a < 0x13000000 then some .vellum
  else if 0x40000000 ≤ a ∧ a < 0x40630000 then some .device
  else none

/-- R27: does the requester reach the region?  Signet alone reaches its private memory and the vault records. -/
def regionOpen (isSignet : Bool) : Region → Bool
  | .signet | .vault => isSignet
  | _ => true

/-- A nib as a core reads it: the boot ROM's contents are the manufacturer's. -/
def State.romNib (s : State) (a : Nat) : Nib := if a < 0x10000 then Config.romNib a else s.nib a
def State.readNibs (s : State) (a : Nat) : Nat → Nat
  | 0 => 0
  | n + 1 => (s.romNib a).toNat + 512 * State.readNibs s (a + 1) n

/-- R455: does window `i` of a core grant an access of kind bit `b` (34 RD, 33 WR, 32 EX) at an address? -/
def windowGrants (k : Core) (b : Nat) (a : Nat) (i : Nat) : Bool :=
  let w := k.opwb.getD i 0
  let l := k.opwl.getD i 0
  bitAt w 35 && bitAt w b && decide (bitsOf w 31 8 ≤ bitsOf l 31 8) && decide (bitsOf w 31 8 * 256 ≤ a)
    && decide (a ≤ bitsOf l 31 8 * 256 + 255)

/-- R455: does some window grant it? -/
def openGrants (k : Core) (b a : Nat) : Bool := (List.range 4).any (windowGrants k b a)

/-! ### Exceptions -/

/-- The cause codes of R465 but INT. -/
inductive Exc where
  | illegal | priv | align | fetch | load | store | ecc | sys | atomic | sealNest
  deriving DecidableEq, Repr

def Exc.code : Exc → Nat
  | .illegal => 1 | .priv => 2 | .align => 3 | .fetch => 4 | .load => 5 | .store => 6 | .ecc => 7 | .sys => 8
  | .atomic => 9 | .sealNest => 10

/-- ECAUSE.ACC of a cause: 0 fetch, 1 load, 2 store, 3 none. -/
def Exc.acc : Exc → Nat | .fetch => 0 | .load => 1 | .store => 2 | _ => 3

/-- ECAUSE from its fields. -/
def ecauseOf (code sub acc info : Nat) : Word := setBits (setBits (setBits (setBits 0 35 28 code) 27 20 sub) 19 18 acc) 17 0 info

/-- ESAVE at entry: FLG, WORLD, IE, SRES. -/
def esaveOf (k : Core) (sres : Bool) : Word :=
  setBits (setBits (setBits (setBits 0 35 32 k.flg.toNat) 31 31 (k.world == .opn).toNat) 30 30 k.ie.toNat) 29 29 sres.toNat

/-- The world an exception enters: TRUST; Signet stays in SEAL (R505). -/
def trustOf (c : Nat) : World := if c = 4 then .seal else .trust

/-- R466: the entry itself: state saved, the reservation cleared, TRUST with IE 0 and EXL 1, at the vector. -/
def enterExc (s : State) (c : Nat) (epc ecause eaddr : Word) (isInt sres : Bool) : State :=
  s.setCore c (fun k => { k with
    esave := esaveOf k sres, epc := epc, ecause := ecause, eaddr := eaddr, resv := none, world := trustOf c, ie := false,
    exl := true, waiting := false, sealing := false, sealHeld := if sres then none :: k.sealHeld else k.sealHeld,
    pc := k.vbase + (if isInt then 0x80 else if k.world == .opn then 0x40 else 0) })

/-- R464–R468: exception `e` is taken; with EXL 1 it is a double fault, and the core stops. -/
def raiseExc (s : State) (c : CoreId) (e : Exc) (sub info : Nat) (epc eaddr : Word) : State :=
  if (s.core c.val).exl then
    let s := haltCore s c.val
    if c.val < 4 then safeDetect s 4 c.val else s
  else enterExc s c.val epc (ecauseOf e.code sub e.acc info) eaddr false false

/-- An exception of the instruction at PC with no address. -/
def State.trap (s : State) (c : CoreId) (e : Exc) : State := raiseExc s c e 0 0 (s.core c.val).pc 0

/-- An address fault of the instruction at PC. -/
def State.fault (s : State) (c : CoreId) (e : Exc) (sub : Nat) (a : Word) : State :=
  raiseExc s c e sub 0 (s.core c.val).pc a

/-! ### Issue -/

/-- May the core issue an instruction now: released, not waiting, not stopped, not in a SEAL wait, and not the odd core
of a locked pair? -/
def canIssue (s : State) (c : CoreId) : Bool :=
  let k := s.core c.val
  k.running && !k.waiting && !k.stopped && !k.sealing && !coreIdle s c.val

/-- R574: the class and index of an uncorrectable error at an address. -/
def badPlace (a : Nat) : Nat × Nat :=
  if a < 0x02000000 then (5, (a - 0x01000000) / 0x40000)
  else if a < 0x03000000 then (5, 4)
  else if a < 0x04000000 then (5, 5)
  else if a < 0x10000000 then (5, 6)
  else if a < 0x11000000 then (6, 0)
  else if a < 0x12000000 then (6, 1)
  else if a < 0x12C00000 then (6, 2)
  else if a < 0x12E00000 then (6, 3)
  else if a < 0x12F00000 then (6, 4)
  else (6, 5)

/-- R455, R458, R459, R461, R485, R500: what the fetch at PC raises: the cause and SUB. -/
def fetchFault (s : State) (c : CoreId) : Option (Exc × Nat) :=
  let k := s.core c.val
  let a := k.pc.toNat
  match (if a < 2 ^ 32 then regionOf s a else none) with
  | none | some .device => some (.fetch, 0x10)
  | some r =>
    if !regionOpen (c.val == 4) r then some (.fetch, 0x04)
    else if a % 4 ≠ 0 then some (.align, 0)
    else if k.world == .opn && !openGrants k 32 a then some (.fetch, 0x04)
    else if s.safe.badWords.contains a then some (if r == .tcm c.val then (.ecc, 0) else (.fetch, 0x12))
    else none

/-- R461, R465, R574: what a fetch that faults does; an uncorrectable word is recorded under its class and in SYS_FABERR
(R31). -/
def fetchRaise (s : State) (c : CoreId) (f : Exc × Nat) : State :=
  let a := (s.core c.val).pc
  let p := badPlace a.toNat
  match f.1 with
  | .align => s.trap c .align
  | .ecc => (eccFault s p.1 p.2 a.toNat).trap c .ecc
  | e => (if f.2 = 0x12 then (eccFault s p.1 p.2 a.toNat).fabErr 0x12 c.val a.toNat else s).fault c e f.2 a

/-- R485: one instruction issues: a core that cannot issue does nothing; a fetch that faults raises it; else `f`. -/
def issue (c : CoreId) (s : State) (f : State → State) : Answer :=
  (if !canIssue s c then s
   else match fetchFault s c with
    | some e => fetchRaise s c e
    | none => f s).next

/-- R485 step 1, then the instruction. -/
def issueIf (c : CoreId) (legal : Bool) (s : State) (f : State → State) : Answer :=
  issue c s (fun s => if legal then f s else s.trap c .illegal)

/-- R485 steps 1 and 2: TRUST only (R453). -/
def issuePriv (c : CoreId) (legal : Bool) (s : State) (f : State → State) : Answer :=
  issueIf c legal s (fun s => if (s.core c.val).world == .opn then s.trap c .priv else f s)

/-- A register operation: x from wa, y from wb, the carry in, the result to wd with its flags. -/
def alu2 (op : Word → Word → Bool → Alu) (c : CoreId) (wd wa wb : Reg) (s : State) : Answer :=
  issue c s (fun s => s.aluDone c wd (op (s.reg c wa) (s.reg c wb) (flagC (s.core c.val).flg)))

/-- A one-source operation, or one with an immediate, on wa. -/
def alu1 (legal : Bool) (op : Word → Alu) (c : CoreId) (wd wa : Reg) (s : State) : Answer :=
  issueIf c legal s (fun s => s.aluDone c wd (op (s.reg c wa)))

end Sys2Proof.Machine
end

