-- ==== Sys2Proof/Machine/Control.lean ====
section
/-! DEFINITION. Control transfers, system instructions and system registers of a core (R452, R476, R478, R500–R503),
and the customer instructions of the decode table (R507–R512). -/

namespace Sys2Proof.Machine

/-! ### Branches and jumps (R500) -/

def State.jump (s : State) (c : CoreId) (t : Word) : State := s.setCore c.val (fun k => { k with pc := t })

/-- BR (R487, R500): condition 0xF is illegal. -/
def execBr (c : CoreId) (cond : BitVec 4) (off : BitVec 24) (s : State) : Answer :=
  issueIf c (cond != 15) s (fun s =>
    let k := s.core c.val
    s.jump c (if condHolds cond.toNat k.flg then k.pc + 4 * off.signExtend 36 else k.pc + 4))

/-- JAL (R500). -/
def execJal (c : CoreId) (wl : Reg) (off : BitVec 23) (s : State) : Answer :=
  issue c s (fun s =>
    let pc := (s.core c.val).pc
    (s.setReg c wl (pc + 4)).jump c (pc + 4 * off.signExtend 36))

/-- JALR (R461, R500): a target that is not a multiple of 4 raises ALIGN. -/
def execJalr (c : CoreId) (wd wa : Reg) (imm : BitVec 18) (s : State) : Answer :=
  issue c s (fun s =>
    let t := s.reg c wa + sext18 imm
    if t.toNat % 4 ≠ 0 then s.trap c .align
    else (s.setReg c wd ((s.core c.val).pc + 4)).jump c t)

/-- NOP (R501). -/
def execNop (c : CoreId) (s : State) : Answer := issue c s (fun s => s.advance c)

/-! ### WAIT, SYS and RFE -/

/-- WAIT (R463, R478, R479): the reservation is cleared and the clock stops, unless an interrupt is presented; the folio's
DEEPEST bounds the choice of a power state from now (R557). -/
def execWait (c : CoreId) (s : State) : Answer :=
  issuePriv c true s (fun s =>
    let s := { s with pwr := { s.pwr with bound := bitsOf (sectWord s 11 0) 23 21 } }
    (s.setCore c.val (fun k => { k with resv := none, waiting := (s.icu.presented.getD c.val none).isNone })).advance c)

/-- SYS (R476): exception SYS with imm18; EPC names the next instruction. -/
def execSys (c : CoreId) (imm : BitVec 18) (s : State) : Answer :=
  issue c s (fun s => raiseExc s c .sys 0 imm.toNat ((s.core c.val).pc + 4) 0)

/-- R413: the outcome of a SEAL call delivered to its waiting core: w1, Z, and on to the next instruction. -/
def sealDeliver (s : State) (c : Nat) (w1 : Word) (z : Bool) : State :=
  s.setCore c (fun k => { (k.setReg 1 w1) with
    flg := setZ k.flg z, sealing := false, pc := k.pc + 4 })

/-- RFE (R467, R477): flags, IE and the world from ESAVE, EXL 0, on to EPC; with SRES the SEAL wait is resumed, and an
outcome that fell during the handler is delivered. -/
def execRfe (c : CoreId) (s : State) : Answer :=
  issuePriv c true s (fun s =>
    let k := s.core c.val
    let e := k.esave
    let s := s.setCore c.val (fun k => { k with
      flg := BitVec.ofNat 4 (bitsOf e 35 32), world := if c.val = 4 then .seal else if bitAt e 31 then .opn else .trust,
      ie := bitAt e 30, exl := false, resv := none, pc := k.epc })
    if bitAt e 29 then
      let s := s.setCore c.val (fun k => { k with sealHeld := k.sealHeld.tail })
      match k.sealHeld.head? with
      | some (some (w, z)) => sealDeliver s c.val w z
      | _ => s.setCore c.val (fun k => { k with sealing := true })
    else s)

/-! ### System registers (R452) -/

/-- The system register numbers of R452; OPWB and OPWL do not exist on Signet (R505). -/
def sysKnown (c : CoreId) (n : Nat) : Bool := decide (n ≤ 0xD) || (decide (0x10 ≤ n ∧ n ≤ 0x17) && c.val != 4)
/-- Those marked RO in TRUST. -/
def sysRo (n : Nat) : Bool := n == 1 || n == 8 || n == 0xA || n == 0xB
/-- Those OPEN may read. -/
def sysOpenRead (n : Nat) : Bool := n == 0 || n == 1 || n == 8 || n == 0xA || n == 0xB

/-- CID: LOCKED, PAIR and the core's number. -/
def cidOf (s : State) (c : CoreId) : Word :=
  if c.val = 4 then Config.signetCid
  else BitVec.ofNat 36 (8 * (pairLocked s (c.val / 2)).toNat + 4 * (c.val / 2) + c.val)

def worldCode : World → Nat | .trust => 0 | .opn => 1 | .seal => 2

/-- The value of a system register. -/
def sysRead (s : State) (c : CoreId) (n : Nat) : Word :=
  let k := s.core c.val
  match n with
  | 0 => k.flg.zeroExtend 36
  | 1 => BitVec.ofNat 36 (worldCode k.world)
  | 2 => BitVec.ofNat 36 (2 * k.exl.toNat + k.ie.toNat)
  | 3 => k.epc | 4 => k.ecause | 5 => k.eaddr | 6 => k.esave | 7 => k.vbase
  | 8 => cidOf s c | 9 => k.ltr | 0xA => k.cycle | 0xB => s.now | 0xC => k.scr0 | 0xD => k.scr1
  | n => if n < 0x14 then k.opwb.getD (n - 0x10) 0 else k.opwl.getD (n - 0x14) 0

/-- A writable system register written; FLG takes bits 3:0, STAT its two bits, VBASE drops bits 7:0. -/
def sysWrite (k : Core) (n : Nat) (w : Word) : Core :=
  match n with
  | 0 => { k with flg := w.extractLsb' 0 4 }
  | 2 => { k with exl := bitAt w 1, ie := bitAt w 0 }
  | 3 => { k with epc := w } | 4 => { k with ecause := w } | 5 => { k with eaddr := w } | 6 => { k with esave := w }
  | 7 => { k with vbase := setBits w 7 0 0 } | 9 => { k with ltr := w } | 0xC => { k with scr0 := w } | 0xD => { k with scr1 := w }
  | n => if n < 0x14 then { k with opwb := k.opwb.set (n - 0x10) w } else { k with opwl := k.opwl.set (n - 0x14) w }

/-- MFS (R452, R453, R485). -/
def execMfs (c : CoreId) (wd : Reg) (num : BitVec 18) (s : State) : Answer :=
  issueIf c (sysKnown c num.toNat) s (fun s =>
    if (s.core c.val).world == .opn && !sysOpenRead num.toNat then s.trap c .priv
    else s.regDone c wd (sysRead s c num.toNat))

/-- MTS (R452, R453, R485, R502). -/
def execMts (c : CoreId) (wa : Reg) (num : BitVec 18) (s : State) : Answer :=
  issueIf c (sysKnown c num.toNat) s (fun s =>
    if (s.core c.val).world == .opn && num != 0 then s.trap c .priv
    else if sysRo num.toNat then s.trap c .illegal
    else (s.setCore c.val (fun k => sysWrite k num.toNat (s.reg c wa))).advance c)

/-! ### CACHE (R503) -/

/-- The lines of a cache that hold no nib address from `a` to `b`; with `b` below `a`, all of them. -/
def linesOutside (a b : Nat) (l : List (Nat × List Word)) : List (Nat × List Word) :=
  l.filter (fun l => !(decide (a ≤ b) && decide (a / 256 ≤ l.1) && decide (l.1 ≤ b / 256)))

/-- CACHE function 0: the instruction cache's lines that hold an address from wa to wb are invalidated. -/
def execCacheInvalidateIRange (c : CoreId) (wa wb : Reg) (s : State) : Answer :=
  issuePriv c true s (fun s =>
    (s.setCore c.val (fun k => { k with icache := linesOutside (s.reg c wa).toNat (s.reg c wb).toNat k.icache })).advance c)

/-- CACHE function 1: the same in the data cache. -/
def execCacheInvalidateDRange (c : CoreId) (wa wb : Reg) (s : State) : Answer :=
  issuePriv c true s (fun s =>
    (s.setCore c.val (fun k => { k with dcache := linesOutside (s.reg c wa).toNat (s.reg c wb).toNat k.dcache })).advance c)

/-- CACHE function 2: the whole instruction cache. -/
def execCacheInvalidateIAll (c : CoreId) (s : State) : Answer :=
  issuePriv c true s (fun s => (s.setCore c.val (fun k => { k with icache := [] })).advance c)

/-- CACHE function 3: the whole data cache. -/
def execCacheInvalidateDAll (c : CoreId) (s : State) : Answer :=
  issuePriv c true s (fun s => (s.setCore c.val (fun k => { k with dcache := [] })).advance c)

/-! ### Customer instructions (R507–R512) -/

/-- The state of a running customer instruction: t0–t3, R, whether R was written, IF and the saved flags. -/
structure UxRun where
  t       : List Word
  r       : Word
  written : Bool
  flg     : BitVec 4
  saved   : BitVec 4
  deriving DecidableEq, Repr

/-- R508: a source operand. -/
def uxSrc (u : UxRun) (x y fn : Word) (code : Nat) : Word :=
  match code with | 4 => u.r | 5 => x | 6 => y | 7 => fn | n => u.t.getD n 0

/-- R509: a micro-operation on its sources; ADC and SBC read IF.C, BFI the present value of its DST. -/
def uxOp (uop : Nat) (x y old : Word) (i : BitVec 18) (cin : Bool) : Alu :=
  let n := shiftAmt y
  match uop with
  | 0x01 => opAdd x y | 0x02 => opAddC x y cin | 0x03 => opSub x y | 0x04 => opSubC x y cin
  | 0x05 => logical (x &&& y) | 0x06 => logical (x ||| y) | 0x07 => logical (x ^^^ y) | 0x08 => logical (x &&& ~~~ y)
  | 0x09 => opShl x n | 0x0A => opShr x n | 0x0B => opSar x n | 0x0C => opRol x n | 0x0D => opRor x n
  | 0x0E => opClz x | 0x0F => opCtz x | 0x10 => opPopc x | 0x11 => opNprm x n
  | 0x12 => opOpk x | 0x13 => opOpkl x | 0x14 => opOupk x | 0x15 => opOupkl x
  | 0x18 => opAdd x (sext18 i) | 0x19 => opSub x (sext18 i) | 0x1A => logical (x &&& zext18 i)
  | 0x1B => logical (x ||| zext18 i) | 0x1C => logical (x ^^^ zext18 i) | 0x1D => logical (zext18 i <<< 18)
  | 0x1E => opShi x i | 0x1F => opNprm x (i.toNat % 256)
  | 0x20 => opBfx x (i.toNat / 2 ^ 12) (i.toNat / 64 % 64)
  | 0x21 => opBfxs x (i.toNat / 2 ^ 12) (i.toNat / 64 % 64)
  | _ => opBfi old x (i.toNat / 2 ^ 12) (i.toNat / 64 % 64)

/-- R510: one micro-operation; `fsrc` tells whether it is the flag source. -/
def uxStep (x y fn : Word) (fsrc : Bool) (u : UxRun) (w : Word) : UxRun :=
  let dst := bitsOf w 29 27
  let old := if dst = 4 then u.r else u.t.getD dst 0
  let v := uxOp (bitsOf w 35 30) (uxSrc u x y fn (bitsOf w 26 24)) (uxSrc u x y fn (bitsOf w 23 21)) old
    (w.extractLsb' 0 18) (flagC u.flg)
  { t := if dst = 4 then u.t else u.t.set dst v.val, r := if dst = 4 then v.val else u.r,
    written := u.written || dst == 4, flg := v.flags, saved := if fsrc then v.flags else u.saved }

/-- R507: the 9-word entry of UXn in a core's table. -/
def uxEntry (k : Core) (n : Nat) : List Word := ((k.ux.getD []).drop (9 * n)).take 9

/-- R512: is the instruction legal under its entry? -/
def uxLegal (h : Word) (wd wa wb : Reg) (fn : Nat) : Bool :=
  bitAt h 35 && decide (fn ≤ bitsOf h 23 11) && (bitAt h 26 || wd == 0) && (bitAt h 25 || wa == 0) && (bitAt h 24 || wb == 0)

/-- UX0–UX15 (R510–R512); none exists on Signet (R505). -/
def execUx (c : CoreId) (n : Fin 16) (wd wa wb : Reg) (fn : BitVec 13) (s : State) : Answer :=
  let k := s.core c.val
  let e := uxEntry k n.val
  let h := e.getD 0 0
  issueIf c (c.val != 4 && uxLegal h wd wa wb fn.toNat) s (fun s =>
    let u0 : UxRun := ⟨[0, 0, 0, 0], k.reg wd, false, k.flg, k.flg⟩
    let u := (((e.drop 1).take (bitsOf h 34 31)).zipIdx).foldl (fun u p =>
      uxStep (k.reg wa) (k.reg wb) (fn.zeroExtend 36) (bitAt h 30 && p.2 == bitsOf h 29 27) u p.1) u0
    (s.setCore c.val (fun k => { (if u.written then k.setReg wd u.r else k) with
      flg := if bitAt h 30 then u.saved else k.flg })).advance c)

end Sys2Proof.Machine
end

