-- ==== Sys2Proof/Machine/Coproc.lean ====
section
/-! DEFINITION. The coprocessors CP0, CP1 and CP2 of each core (R515–R520). -/

namespace Sys2Proof.Machine

def State.setCp (s : State) (c : CoreId) (g : CpSt → CpSt) : State := s.setCore c.val (fun k => { k with cp := g k.cp })
def State.cp (s : State) (c : CoreId) : CpSt := (s.core c.val).cp

/-- A word from a number. -/
def wordN (n : Nat) : Word := BitVec.ofNat 36 n

/-! ### CP0's runs -/

/-- R518: a compression that runs is completed over the sixteen words held. -/
def shaFinish (s : State) (c : CoreId) : State :=
  s.setCp c (fun p =>
    if p.shaBusy then { p with h := shaCompress p.h (p.msg.map (·.toNat)), msg := [], shaBusy := false } else p)

/-- Octets of 32-bit words, most significant first. -/
def keyOctets (ws : List Word) : List Nat := ws.flatMap (fun w => natOctets 4 (bitsOf w 31 0))

/-- Four 32-bit words from 16 octets. -/
def octetWords (os : List Nat) : List Word := (groups 4 os).map (fun g => wordN (octetsNat g))

/-- R518: an AES run that runs is completed. -/
def aesFinish (s : State) (c : CoreId) : State :=
  s.setCp c (fun p =>
    match p.aesBusy with
    | some (dec, big) =>
      let key := keyOctets (if big then p.key else p.key.take 4)
      let blk := keyOctets p.aes
      { p with aes := octetWords (if dec then aesDec key blk else aesEnc key blk), aesBusy := none }
    | none => p)

/-- R517: an instruction that reaches CP0 waits until its unit is free. -/
def cpWait (s : State) (c : CoreId) : State := aesFinish (shaFinish s c) c

/-- SHA_COMPRESSION_DONE (R518): the 64 cycles are over. -/
def execShaCompressionDone (c : CoreId) (s : State) : Answer := (shaFinish s c).next

/-- AES_DONE (R518): the 20 or 28 cycles are over. -/
def execAesDone (c : CoreId) (s : State) : Answer := (aesFinish s c).next

/-! ### Issue -/

/-- R515: does the core hold a grant for the port?  Signet holds CP0's only. -/
def cpGranted (s : State) (c : CoreId) (port : Nat) : Bool :=
  if c.val = 4 then port == 0 else (s.core c.val).ux.isSome

/-- R453, R516, R517: a coprocessor instruction: its fields, the world and the grant, then the unit's wait. -/
def cpIssue (c : CoreId) (port : Nat) (legal : Bool) (s : State) (f : State → State) : Answer :=
  issuePriv c legal s (fun s =>
    if !cpGranted s c port then s.trap c .priv else f (if port = 0 then cpWait s c else s))

/-- A result in wd. -/
def cpRes (c : CoreId) (port : Nat) (legal : Bool) (wd : Reg) (s : State) (v : State → Word) : Answer :=
  cpIssue c port legal s (fun s => s.regDone c wd (v s))

/-- A change to the coprocessor. -/
def cpSet (c : CoreId) (port : Nat) (legal : Bool) (s : State) (g : State → CpSt → CpSt) : Answer :=
  cpIssue c port legal s (fun s => (s.setCp c (g s)).advance c)

/-! ### CP0 (R518) -/

/-- CRC32: continued over the five octets of wb. -/
def execCrc32 (c : CoreId) (wd wa wb : Reg) (idx : BitVec 8) (s : State) : Answer :=
  cpRes c 0 (idx == 0) wd s (fun s => wordN (crc32Run (bitsOf (s.reg c wa) 31 0) (wordOctets (s.reg c wb))))

/-- CRC32O: one octet. -/
def execCrc32o (c : CoreId) (wd wa wb : Reg) (idx : BitVec 8) (s : State) : Answer :=
  cpRes c 0 (idx == 0) wd s (fun s => wordN (crc32Run (bitsOf (s.reg c wa) 31 0) [bitsOf (s.reg c wb) 7 0]))

/-- CRC16: continued over the five octets of wb (R360). -/
def execCrc16 (c : CoreId) (wd wa wb : Reg) (idx : BitVec 8) (s : State) : Answer :=
  cpRes c 0 (idx == 0) wd s (fun s => wordN (crc16Run (bitsOf (s.reg c wa) 15 0) (wordOctets (s.reg c wb))))

/-- SHAINIT: the initial value, the message buffer emptied. -/
def execShainit (c : CoreId) (idx : BitVec 8) (s : State) : Answer :=
  cpSet c 0 (idx == 0) s (fun _ p => { p with h := shaInit, msg := [] })

/-- SHAW: the next message word; the 16th starts a compression. -/
def execShaw (c : CoreId) (wa : Reg) (idx : BitVec 8) (s : State) : Answer :=
  cpSet c 0 (idx == 0) s (fun s p =>
    let m := p.msg ++ [wordN (bitsOf (s.reg c wa) 31 0)]
    { p with msg := m, shaBusy := decide (16 ≤ m.length) })

/-- SHARD: H[index]. -/
def execShard (c : CoreId) (wd : Reg) (idx : BitVec 8) (s : State) : Answer :=
  cpRes c 0 (decide (idx.toNat < 8)) wd s (fun s => wordN ((s.cp c).h.getD idx.toNat 0))

/-- AESKEY: key word [index]. -/
def execAeskey (c : CoreId) (wa : Reg) (idx : BitVec 8) (s : State) : Answer :=
  cpSet c 0 (decide (idx.toNat < 8)) s (fun s p => { p with key := p.key.set idx.toNat (wordN (bitsOf (s.reg c wa) 31 0)) })

/-- AESIN: state word [index]. -/
def execAesin (c : CoreId) (wa : Reg) (idx : BitVec 8) (s : State) : Answer :=
  cpSet c 0 (decide (idx.toNat < 4)) s (fun s p => { p with aes := p.aes.set idx.toNat (wordN (bitsOf (s.reg c wa) 31 0)) })

/-- AESENC: bit 0 of the function field selects AES-256. -/
def execAesenc (c : CoreId) (idx : BitVec 8) (s : State) : Answer :=
  cpSet c 0 (decide (idx.toNat < 2)) s (fun _ p => { p with aesBusy := some (false, idx == 1) })

/-- AESDEC. -/
def execAesdec (c : CoreId) (idx : BitVec 8) (s : State) : Answer :=
  cpSet c 0 (decide (idx.toNat < 2)) s (fun _ p => { p with aesBusy := some (true, idx == 1) })

/-- AESOUT: state word [index]. -/
def execAesout (c : CoreId) (wd : Reg) (idx : BitVec 8) (s : State) : Answer :=
  cpRes c 0 (decide (idx.toNat < 4)) wd s (fun s => (s.cp c).aes.getD idx.toNat 0)

/-! ### CP1 (R519) -/

/-- Saturation at the signed range of 36 bits. -/
def sat36 (x : Int) : Int := min (2 ^ 35 - 1) (max (-(2 : Int) ^ 35) x)

/-- R519: x × K / 2^24, rounded; which way a half rounds is free (log entry 10). -/
def roundK (s : State) (x : Int) : Int × State :=
  let q := x / 2 ^ 24
  let r := x % 2 ^ 24
  if r < 2 ^ 23 then (q, s) else if 2 ^ 23 < r then (q + 1, s) else (q + s.freeBit.toNat, s.drawn)

/-- KSET: K[k] := wa[23:0]. -/
def execKset (c : CoreId) (wa : Reg) (idx : BitVec 8) (s : State) : Answer :=
  cpSet c 1 (decide (idx.toNat < 8)) s (fun s p => { p with k := p.k.set idx.toNat (bitsOf (s.reg c wa) 23 0) })

/-- A rounded and saturated sum in wd. -/
def macRes (c : CoreId) (idx : BitVec 8) (wd wa : Reg) (s : State) (x : State → Int) : Answer :=
  cpIssue c 1 (decide (idx.toNat < 8)) s (fun s =>
    let r := roundK s (x s * ((s.cp c).k.getD idx.toNat 0 : Int))
    r.2.regDone c wd (BitVec.ofInt 36 (sat36 ((s.reg c wa).toInt + r.1))))

/-- LAG: wd := wa + round((wb − wa) × K[k] / 2^24). -/
def execLag (c : CoreId) (wd wa wb : Reg) (idx : BitVec 8) (s : State) : Answer :=
  macRes c idx wd wa s (fun s => (s.reg c wb).toInt - (s.reg c wa).toInt)

/-- SQMAC: wd := wa + round(wb × wb × K[k] / 2^24). -/
def execSqmac (c : CoreId) (wd wa wb : Reg) (idx : BitVec 8) (s : State) : Answer :=
  macRes c idx wd wa s (fun s => (s.reg c wb).toInt * (s.reg c wb).toInt)

/-- KRD: wd := K[k]. -/
def execKrd (c : CoreId) (wd : Reg) (idx : BitVec 8) (s : State) : Answer :=
  cpRes c 1 (decide (idx.toNat < 8)) wd s (fun s => wordN ((s.cp c).k.getD idx.toNat 0))

/-! ### CP2 (R520) -/

/-- PSET: entry e. -/
def execPset (c : CoreId) (wa wb : Reg) (idx : BitVec 8) (s : State) : Answer :=
  cpSet c 2 (decide (idx.toNat < 64)) s (fun s p => { p with pats := p.pats.set idx.toNat (s.reg c wa, s.reg c wb, true) })

/-- PCLR: every entry invalid. -/
def execPclr (c : CoreId) (idx : BitVec 8) (s : State) : Answer :=
  cpSet c 2 (idx == 0) s (fun _ p => { p with pats := p.pats.map (fun e => (e.1, e.2.1, false)) })

/-- R520: the 64-bit map of the entries a header matches. -/
def matchMap (pats : List (Word × Word × Bool)) (h : Word) : Nat :=
  (pats.zipIdx).foldl (fun m p => if p.1.2.2 && ((h ^^^ p.1.1) &&& p.1.2.1) == 0 then m + 2 ^ p.2 else m) 0

/-- The lowest 1 of a map, 0 if none. -/
def lowest (m : Nat) : Nat := ((List.range 64).find? (fun i => m / 2 ^ i % 2 == 1)).getD 0

/-- MATCH: the map is latched; wd shows whether and where the lowest match stands. -/
def execMatch (c : CoreId) (wd wa : Reg) (idx : BitVec 8) (s : State) : Answer :=
  cpIssue c 2 (idx == 0) s (fun s =>
    let m := matchMap (s.cp c).pats (s.reg c wa)
    (s.setCp c (fun p => { p with map := m })).regDone c wd (setBits (wordN (lowest m)) 35 35 (m != 0).toNat))

/-- MAPLO. -/
def execMaplo (c : CoreId) (wd : Reg) (idx : BitVec 8) (s : State) : Answer :=
  cpRes c 2 (idx == 0) wd s (fun s => wordN ((s.cp c).map % 2 ^ 32))

/-- MAPHI. -/
def execMaphi (c : CoreId) (wd : Reg) (idx : BitVec 8) (s : State) : Answer :=
  cpRes c 2 (idx == 0) wd s (fun s => wordN ((s.cp c).map / 2 ^ 32))

end Sys2Proof.Machine
end

