-- ==== Sys2Proof/Machine/Lighting.lean ====
section
/-! DEFINITION. The events of the lighting island (chapter 8): switching frequency, dimming periods, faults, open-lamp
diagnosis, the matrix scan and the chain port. -/

namespace Sys2Proof.Machine

/-! ### String drivers -/

/-- R68: SPREAD of a string driver. -/
def strSpread (s : State) (n : Nat) : Nat :=
  match ((s.sect 7).drop 3).find? (fun w => bitsOf w 35 33 == n) with
  | some w => bitsOf w 14 12
  | none => 0

/-- R251: f_c for a natural frequency, both in 10 kHz: clamped into the bounds that leave room for the sweep. -/
def freqClamp (fnat : Rat) (flo fhi spread : Nat) : Rat :=
  let lo : Rat := (flo : Rat) * 100 / (100 - spread : Nat)
  let hi : Rat := (fhi : Rat) * 100 / (100 + spread : Nat)
  if hi < lo then ((flo : Rat) + fhi) / 2 else min hi (max lo fnat)

/-- STRING_FREQ_UPDATE (R249–R252, every 100 µs): string current in mA, string and feed voltage in mV, on-time loss in
10 mW, junction temperature, and whether the driver runs at its highest duty.  With no feed voltage the spec states no
f_nat, and f_c is free. -/
def stringFreqUpdateEffect (n istr vstr vfeed loss : Nat) (tj : Int) (maxDuty : Bool) (s : State) : State :=
  let p := stP n
  let s := (s.put p LGT_STMEAS_ISTR (min 2047 istr)).put p LGT_STMEAS_VSTR (min 4095 (vstr / 20))
  let s := (s.put p LGT_STLOSS_LOSS (min 4095 loss)).putInt p LGT_STLOSS_TJ tj
  let s := s.put p LGT_STSTAT_DROPOUT (maxDuty && decide (istr * 100 < (s.st n).iset * 95)).toNat
  if vfeed = 0 then
    ((s.put p LGT_STMEAS_FSW s.free.toNat).put p LGT_STSTAT_CLIPPED s.freeBit.toNat).drawn
  else
    let fnat : Rat := (vstr : Rat) * (1 - (vstr : Rat) / vfeed) * 1000 / (3 * s.get p LGT_STFREQ_LIND * (s.st n).iset : Nat)
    let fc := freqClamp fnat (s.get p LGT_STFREQ_FLO) (s.get p LGT_STFREQ_FHI) (strSpread s n)
    (s.put p LGT_STMEAS_FSW fc.floor.toNat).put p LGT_STSTAT_CLIPPED (decide (fc ≠ fnat)).toNat

/-- STRING_FREQ_UPDATE where its condition holds; else nothing happens. -/
def execStringFreqUpdate (n istr vstr vfeed loss : Nat) (tj : Int) (maxDuty : Bool) (s : State) : Answer := s.on .light <|
  (s.when (decide (n < 8) && tgtUsed s (.str n)) (stringFreqUpdateEffect n istr vstr vfeed loss tj maxDuty)).next

/-- A dimming period begins with the buffered values and the grant (R253). -/
def stringServe (n : Nat) (s : State) : State :=
  s.when (decide (n < 8) && strRuns s n && s.due (s.st n).boundary) (fun s =>
    let v := strNext s n
    strBegin s n v.1 v.2)

/-- STRING_PWM_BOUNDARY (R253): at the end of its tick, whose writes still act from it. -/
def execStringPwmBoundary (n : Nat) (s : State) : Answer :=
  s.on .light ((s.expire (s.st n).boundary (.stringPwmBoundary n) (stringServe n)).next)

/-- Has the on-time of a string driver reached the minimum measurement time (R255, R264; log entry 92)? -/
def strMeasurable (s : State) (n : Nat) : Bool :=
  decide (n < 8) && strOn s n && decide (strMin ≤ (s.now - (s.st n).edge).toNat)

/-- STRING_OPEN (R255): the string is open; switching stops, the state is unchanged. -/
def execStringOpen (n : Nat) (s : State) : Answer := s.on .light <|
  (s.when (strMeasurable s n) (fun s =>
    stFault (s.setSt n (fun e => { e with
      stopped := true, retestAt := s.now, meas := strMeas s n })) n LGT_STFAULT_OPEN)).next

/-- R255: may a stopped string be retested: 20 µs after a turn-on edge later than its stop in PWM, 10 ms after the stop or
the last retest in ON? -/
def retestDue (s : State) (n : Nat) : Bool :=
  let e := s.st n
  e.want && e.stopped &&
    (if e.boundary.isSome then
      reachedAt e.edge e.retestAt && e.edge != e.retestAt && decide (strMin ≤ (s.now - e.edge).toNat)
    else decide (ms 10 ≤ (s.now - e.retestAt).toNat))

/-- STRING_OPEN_RETEST (R255): a retest at a later turn-on edge, or 10 ms later in ON; switching resumes when it finds
the string closed; the period has measured (R264). -/
def stringOpenRetestEffect (n : Nat) (closed : Bool) (s : State) : State :=
  let s := (strDiagnosed s n).setSt n (fun e => { e with retestAt := s.now })
  if closed then s.setSt n (fun e => { e with stopped := false, edge := s.now }) else stFault s n LGT_STFAULT_OPEN

/-- STRING_OPEN_RETEST where its condition holds; else nothing happens. -/
def execStringOpenRetest (n : Nat) (closed : Bool) (s : State) : Answer :=
  s.on .light ((s.when (decide (n < 8) && retestDue s n) (stringOpenRetestEffect n closed)).next)

/-- STRING_SHORT (R255): 50 µs of measurable on-time below the threshold; report only; a threshold of 0 disables it. -/
def execStringShort (n : Nat) (s : State) : Answer := s.on .light <|
  (s.when (strMeasurable s n && decide (us 50 ≤ strMeas s n) && s.get (stP n) LGT_STDIAG_SHV != 0) (fun s => stFault s n LGT_STFAULT_SHORT)).next

/-- STRING_OUTPUT_SHORT (R255, R273): switching stops and the driver is LOCKED. -/
def execStringOutputShort (n : Nat) (s : State) : Answer := s.on .light <|
  (s.when (strMeasurable s n && (stState s n == 1 || stState s n == 2 || stState s n == 3)) (fun s =>
    let s := strWant (strStop s n) n false
    let s := s.put (stP n) LGT_STSTAT_STATE 4
    stFault (stFault s n LGT_STFAULT_OUTSC) n LGT_STFAULT_LOCK)).next

/-- STRING_THERMAL (R255): the junction at 175 °C latches the driver off; at 150 °C it resumes without firmware. -/
def stringThermalEffect (n : Nat) (hot : Bool) (s : State) : State :=
  let s := s.setSt n (fun e => { e with latch := hot, edge := if e.latch == hot then e.edge else s.now })
  if hot then stFault s n LGT_STFAULT_THERM else s

/-- STRING_THERMAL where its condition holds; else nothing happens. -/
def execStringThermal (n : Nat) (hot : Bool) (s : State) : Answer :=
  s.on .light ((s.when (decide (n < 8) && tgtUsed s (.str n)) (stringThermalEffect n hot)).next)

/-! ### Sinks -/

/-- The period that the shared boundary takes: SKPER; while a running sink is in SAFE, the one in force (R275; log entry
93). -/
def sinkPer (s : State) : Nat :=
  if (List.range 48).any (fun n => (s.sn n).pwm && (s.sn n).safe) then s.light.skPer else s.get lgt LGT_CTRL_SKPER

/-- SINK_PWM_BOUNDARY (R257): the shared period begins anew, every sink in PWM with its buffered duty; a sink in SAFE
keeps the duty in force. -/
def sinkPwmBoundaryEffect (s : State) : State :=
  let run := (List.range 48).filter (fun n => (s.sn n).pwm)
  if run.isEmpty then { s with light := { s.light with skNext := none } }
  else
    let per := sinkPer s
    let s := { s with light := { s.light with skPer := per, skNext := some (s.after (us per)) } }
    s.each run (fun s n =>
      let s := if (s.sn n).safe then s else s.setSn n (fun e => { e with duty := e.bufDuty })
      sinkServe (sinkBegin s n per (s.sn n).duty) n)

/-- SINK_PWM_BOUNDARY where its condition holds; else nothing happens. -/
def sinkBoundaryServe (s : State) : State := s.when (s.due s.light.skNext) sinkPwmBoundaryEffect

/-- SINK_PWM_BOUNDARY (R257): at the end of its tick, whose writes still act from it. -/
def execSinkPwmBoundary (s : State) : Answer :=
  s.on .light ((s.expire s.light.skNext .sinkPwmBoundary sinkBoundaryServe).next)

def sinkMeasurable (s : State) (n : Nat) : Bool :=
  decide (n < 48) && sinkOn s n && decide (sinkMin ≤ (s.now - (s.sn n).edge).toNat)

/-- SINK_OPEN (R258); on a matrix column the cell of the row being scanned shows it (R263). -/
def sinkOpenEffect (n : Nat) (s : State) : State :=
  if isColumn s n then
    let r := s.get lgt LGT_MXSTAT_ROW
    mxRefreshFlt (s.setBit (lgt + 0x1010 + 4 * (r / 2)) (16 * (r % 2) + n) true)
  else skFault s n LGT_SKSTAT_OPEN

/-- SINK_OPEN where its condition holds; else nothing happens. -/
def execSinkOpen (n : Nat) (s : State) : Answer :=
  s.on .light ((s.when (sinkMeasurable s n) (sinkOpenEffect n)).next)

/-- SINK_SHORT (R258). -/
def execSinkShort (n : Nat) (s : State) : Answer :=
  s.on .light ((s.when (sinkMeasurable s n) (fun s => skFault s n LGT_SKSTAT_SHORT)).next)

/-- SINK_BANK_THERMAL (R258): at 175 °C a bank of eight sinks turns off and sets THERM on each; at 150 °C it resumes. -/
def sinkBankThermalEffect (n : Nat) (hot : Bool) (s : State) : State :=
  let s := s.setBit (lgt + 4) (30 + n) hot
  let bank := ((List.range 8).map (fun i => 8 * n + i)).filter (fun k => tgtUsed s (.sink k))
  if hot then s.each bank (fun s k => skFault s k LGT_SKSTAT_THERM)
  else s.each bank (fun s k => s.setSn k (fun e => { e with edge := s.now }))

/-- SINK_BANK_THERMAL where its condition holds; else nothing happens. -/
def execSinkBankThermal (n : Nat) (hot : Bool) (s : State) : Answer :=
  s.on .light ((s.when (decide (n < 6)) (sinkBankThermalEffect n hot)).next)

/-! ### Open lamps at low duty (R264–R266) -/

/-- The AGE of an output in ticks, the tick it was last diagnosed, and whether it is measured at this moment. -/
def diagAge (s : State) (isSink : Bool) (n : Nat) : Nat :=
  ms (if isSink then s.get (skP n) LGT_SKCFG_AGE else s.get (stP n) LGT_STDIAG_AGE)
def diagAt (s : State) (isSink : Bool) (n : Nat) : Word := if isSink then (s.sn n).aged else (s.st n).aged
def diagNow (s : State) (isSink : Bool) (n : Nat) : Bool := if isSink then sinkMeasurable s n else strMeasurable s n
def diagTgt (isSink : Bool) (n : Nat) : Target := if isSink then .sink n else .str n
/-- R264: the open-detection mode; OFFTEST acts as DEFER on a matrix column (R263). -/
def diagMode (s : State) (isSink : Bool) (n : Nat) : Nat :=
  if isSink then
    let m := s.get (skP n) LGT_SKCFG_OPENMODE
    if isColumn s n && m == 2 then 0 else m
  else s.get (stP n) LGT_STDIAG_OPENMODE

def diagIdx (isSink : Bool) (n : Nat) : Bool := if isSink then decide (n < 48) else decide (n < 8)

/-- The tick in which an output's AGE expires. -/
def ageEnd (s : State) (isSink : Bool) (n : Nat) : Word := diagAt s isSink n + BitVec.ofNat 36 (diagAge s isSink n)

/-- Nothing has been measured for AGE ms (R264, R266). -/
def ageServe (isSink : Bool) (n : Nat) (s : State) : State :=
  s.when (diagIdx isSink n && tgtUsed s (diagTgt isSink n) && !diagNow s isSink n
      && s.reached (ageEnd s isSink n) && diagAt s isSink n != s.now)
    (fun s => if isSink then s.put (skP n) LGT_SKSTAT_UNDIAG 1 else s.put (stP n) LGT_STSTAT_UNDIAG 1)

/-- DIAG_AGE_EXPIRY (R264, R266): at the end of the tick of expiry, in which a measurement still counts as in time. -/
def execDiagAgeExpiry (isSink : Bool) (n : Nat) (s : State) : Answer :=
  s.on .light ((s.expire (some (ageEnd s isSink n)) (.diagAgeExpiry isSink n) (ageServe isSink n)).next)

/-- The tick of the next turn-on edge, if one is known: at the next boundary the buffered values act (R257). -/
def nextEdge (s : State) (isSink : Bool) (n : Nat) : Option Word :=
  if isSink then
    match (s.sn n).pulse with
    | some p => some p.1
    | none =>
      let d := if (s.sn n).safe then (s.sn n).duty else (s.sn n).bufDuty
      if (s.sn n).pwm && d != 0 then
        s.light.skNext.map (fun t => t + BitVec.ofNat 36 (us (sinkPer s * s.get (skP n) LGT_SKCFG_PHASE / 4096)))
      else none
  else if (strNext s n).2 = 0 then none else (s.st n).boundary

/-- R265: may a continuity test begin now: 50 µs after a turn-off with 250 µs of off-time left, or AGE ms after the last
one in OFF? -/
def offTestOk (s : State) (isSink : Bool) (n : Nat) : Bool :=
  let want := if isSink then (s.sn n).want else (s.st n).want
  let edge := if isSink then (s.sn n).edge else (s.st n).edge
  let st := if isSink then skState s n else stState s n
  let last := if isSink then (s.sn n).testAt else (s.st n).testAt
  let runs := if isSink then (s.sn n).testEnd else (s.st n).testEnd
  !want && runs.isNone &&
    (if st = 0 then s.reached (last + BitVec.ofNat 36 (diagAge s isSink n))
     else s.reached (edge + BitVec.ofNat 36 (us 50)) &&
       match nextEdge s isSink n with | none => true | some t => decide (us 250 ≤ (t - s.now).toNat))

/-- OFFTEST_START (R265): the test current flows for 200 µs. -/
def offtestStartEffect (isSink : Bool) (n : Nat) (s : State) : State :=
  if isSink then s.setSn n (fun e => { e with testAt := s.now, testEnd := some (s.after (us 200)) })
  else s.setSt n (fun e => { e with testAt := s.now, testEnd := some (s.after (us 200)) })

/-- OFFTEST_START where its condition holds; else nothing happens. -/
def execOfftestStart (isSink : Bool) (n : Nat) (s : State) : Answer := s.on .light <|
  (s.when (diagIdx isSink n && tgtUsed s (diagTgt isSink n) && diagMode s isSink n == 2 && offTestOk s isSink n)
    (offtestStartEffect isSink n)).next

/-- OFFTEST_END (R265, R266): the sink's pin, or the string voltage with the feed, in mV. -/
def offtestEndEffect (isSink : Bool) (n volt vfeed : Nat) (s : State) : State :=
  if isSink then
    let s := sinkDiagnosed (s.setSn n (fun e => { e with testEnd := none })) n
    if volt < 300 then skFault s n LGT_SKSTAT_OFFOPEN else s
  else
    let s := strDiagnosed (s.setSt n (fun e => { e with testEnd := none })) n
    if vfeed ≤ volt + 1500 then stFault s n LGT_STFAULT_OFFOPEN else s

/-- OFFTEST_END where its condition holds; else nothing happens. -/
def execOfftestEnd (isSink : Bool) (n volt vfeed : Nat) (s : State) : Answer := s.on .light <|
  (s.when (diagIdx isSink n && s.due (if isSink then (s.sn n).testEnd else (s.st n).testEnd))
    (offtestEndEffect isSink n volt vfeed)).next

/-! ### The matrix (R260–R263) -/

/-- R261: a frame starts: a pending SWAP copies the shadow cells unless a column is in SAFE (R275). -/
def mxFrame (s : State) : State :=
  let s := if s.flag lgt LGT_MXCTRL_SWAP && !mxSafe s then
      (s.setMx (fun m => { m with
        cells := (List.range 128).map (fun i => s.get (lgt + 4 * i) LGT_MXCELL_D) })).put lgt LGT_MXCTRL_SWAP 0
    else s
  raiseSrc s 0x1D1

/-- R260: the slot of row `r` begins now. -/
def mxSlot (s : State) (r : Nat) : State :=
  let s := if r = 0 then mxFrame s else s
  let lt := s.get lgt LGT_MXCTRL_LT
  let s := s.put lgt LGT_MXSTAT_ROW r
  -- R262: a row that did not trip in its last slot starts its count anew
  let s := s.setMx (fun m => { m with
    trips := if m.tripped.contains r then m.trips else m.trips.set r 0, tripped := m.tripped.filter (· != r) })
  let s := s.setMx (fun m => { m with
    nextSlot := some (s.after (us (lt + s.get lgt LGT_MXCTRL_BL))), rowOff := some (s.after (us lt)) })
  if rowOk s r then
    s.each (List.range 16) (fun s c => sinkServe (sinkPlace s c (lt * 100 * cellDuty s r c / 4095) s.now) c)
  else s

/-- The row's on-time ends (R260). -/
def mxServe (s : State) : State :=
  if s.due s.light.matrix.rowOff then mxBlank (s.setMx (fun m => { m with rowOff := none })) else s

/-- R260: the scan starts with row 0. -/
def mxStart (s : State) : State := mxSlot s 0

/-- R261: did a frame's first slot begin in the present tick? -/
def mxStarted (s : State) : Bool :=
  s.get lgt LGT_MXSTAT_ROW == 0 &&
  s.light.matrix.nextSlot == some (s.after (us (s.get lgt LGT_MXCTRL_LT + s.get lgt LGT_MXCTRL_BL)))

/-- The next row's slot begins (R260); the scan goes on while a column is in SAFE (R275). -/
def slotServe (s : State) : State :=
  s.when (hasMatrix s && s.due s.light.matrix.nextSlot) (fun s =>
    mxSlot s ((s.get lgt LGT_MXSTAT_ROW + 1) % max 1 (mxRows s)))

/-- MATRIX_ROW_SLOT (R260, R261): at the end of its tick, whose SWAP still applies. -/
def execMatrixRowSlot (s : State) : Answer :=
  s.on .light ((s.expire s.light.matrix.nextSlot .matrixRowSlot slotServe).next)

/-- MATRIX_ROW_TRIP (R262): the row that is on reaches 500 mA: it turns off for its slot, and locks at its third frame
in a row. -/
def matrixRowTripEffect (s : State) : State :=
  let r := s.get lgt LGT_MXSTAT_ROW
  let k := s.light.matrix.trips.getD r 0 + 1
  let s := s.setMx (fun m => { m with trips := m.trips.set r k, tripped := r :: m.tripped })
  let s := s.setBit (lgt + 0x1004) (25 + r) true
  let s := if 3 ≤ k then s.setBit (lgt + 0x1004) (17 + r) true else s
  mxRefreshFlt s

/-- MATRIX_ROW_TRIP where its condition holds; else nothing happens. -/
def execMatrixRowTrip (s : State) : Answer :=
  s.on .light ((s.when (rowOn s) matrixRowTripEffect).next)

/-! ### The chain port (R269, R270) -/

/-- LCH_REFRESH (R269): REFR ms after the last frame start. -/
def execLchRefresh (s : State) : Answer := s.on .light <|
  let r := s.get lch LCH_CTRL_REFR
  (s.when (s.flag lch LCH_CTRL_EN && r != 0 && s.reached (s.light.chain.started + BitVec.ofNat 36 (ms r))
      && s.light.chain.started != s.now) chainRequest).next

/-- LCH_FRAME_END (R270): LATCH falls; a queued start begins in the next tick (R269). -/
def execLchFrameEnd (s : State) : Answer := s.on .light <|
  (s.when (s.due s.light.chain.frameEnd) (fun s =>
    let s := (s.incField lch LCH_STAT_FRAMES).put lch LCH_STAT_BUSY 0
    raiseSrc (s.setChain (fun c => { c with frameEnd := none })) 0x1D0)).next

/-- R269: a queued start begins in the tick after the frame ended. -/
def chainServe (s : State) : State :=
  if s.light.chain.queued && s.light.chain.frameEnd.isNone then chainStart s else s

end Sys2Proof.Machine
end

