-- ==== Sys2Proof/Machine/LightRegs.lean ====
section
/-! DEFINITION. Writes to the lighting island: LGT (string drivers, sinks, matrix) and LCH (chapter 8). -/

namespace Sys2Proof.Machine

/-- R272, R274: supervision not enabled or expired. -/
def lightNoBeat (s : State) : Bool := !s.flag Blk.psg.base PSG_CTRL_HBEN || s.flag Blk.psg.base PSG_STAT_HBEXP

/-- R68: FMIN and FMAX of a string driver. -/
def strBounds (s : State) (n : Nat) : Nat × Nat :=
  match ((s.sect 7).drop 3).find? (fun w => bitsOf w 35 33 == n) with
  | some w => (bitsOf w 32 24, bitsOf w 23 15)
  | none => (0, 0)

/-- The targets an LGT_RECLAIM word marks. -/
def reclaimTargets (w : Word) : List Target := Target.all.filter (fun t => t.slot.1 == bitsOf w 26 25 && bitAt w t.slot.2)

/-- R148, R274, R275: do a target's written commands act now? -/
def lightActs (s : State) (t : Target) : Bool := !tgtIsUncl s t && !tgtIsSafe s t

/-- The checks of the block's own registers (R274). -/
def lgtChk (o : Nat) (s : State) (w : Word) : Fails :=
  if o = 0xC then
    let bad := bitsOf w 26 25 == 3 || (bitsOf w 26 25 == 0 && bitsOf w 23 9 != 0)
    failAt (!bad && ((onesBelow w 24).length != (reclaimTargets w).length || (reclaimTargets w).any (fun t => !tgtUsed s t))) 5 0x07
    ++ failAt (bitsOf w 35 28 != s.get lgt LGT_GEN_GEN) 9 0x0B
    ++ failAt bad 11 0x02
    ++ failAt (!s.flag Blk.psg.base PSG_STAT_HBRUN || s.flag Blk.psg.base PSG_STAT_HBEXP) 12 0x10
  else []

def lgtWritten (o : Nat) (s : State) (_ w : Word) : State :=
  if o = 0xC then s.each (reclaimTargets w) lightReclaim else s

/-- The checks of a string driver's page (R250, R272, R273). -/
def strChk (n o : Nat) (s : State) (w : Word) : Fails :=
  let m := bitsOf w 2 0
  failAt (!tgtUsed s (.str n)) 5 0x07
  ++ (if o = 0 then
        failAt (m != 0 && lightNoBeat s) 12 0x10 ++ failAt (m != 0 && stState s n == 4) 12 0x12
      else if o = 0xC then
        let lo := bitsOf w 35 27
        let hi := bitsOf w 26 18
        failAt (decide (lo < (strBounds s n).1) || decide ((strBounds s n).2 < hi) || decide (hi < lo)) 11 0x02
      else if o = 0x1C && bitAt w 5 && s.flag (stP n) LGT_STFAULT_LOCK then
        failAt (s.get (stP n) LGT_STCMD_MODE != 0) 12 0x12 ++ failAt (s.st n).latch 12 0x13
      else [])

/-- What an accepted write to a string driver's page does (R253, R273, R274). -/
def strWritten (n o : Nat) (s : State) (old w : Word) : State :=
  if o = 0 then
    let m := bitsOf w 2 0
    if bitsOf old 2 0 = m || !lightActs s (.str n) then s
    else if stState s n = 4 then s.setSt n (fun e => { e with mode := m })
    else strMode s n m
  else if o = 4 then
    if lightActs s (.str n) then s.setSt n (fun e => { e with iset := s.get (stP n) LGT_STSET_ISET }) else s
  else if o = 8 then
    if lightActs s (.str n) then
      s.setSt n (fun e => { e with bufPer := s.get (stP n) LGT_STPWM_PERIOD, bufDuty := s.get (stP n) LGT_STPWM_DUTY })
    else s
  else if o = 0x1C then
    let s := if bitAt old 5 && bitAt w 5 then (s.setSt n (fun e => { e with mode := 0 })).put (stP n) LGT_STSTAT_STATE 0 else s
    lgtRefreshFlt s (.str n)
  else s

/-- The checks of a sink's registers (R263, R272). -/
def sinkChk (n o : Nat) (s : State) (w : Word) : Fails :=
  failAt (!tgtUsed s (.sink n)) 5 0x07
  ++ (if o = 0 then
        failAt (bitsOf w 35 34 != 0 && lightNoBeat s) 12 0x10
        ++ failAt (isColumn s n && bitsOf w 35 34 != s.get (skP n) LGT_SKCMD_MODE) 12 0x11
      else [])

/-- What an accepted write to a sink's registers does (R256, R257, R273, R274). -/
def sinkWritten (n o : Nat) (s : State) (old w : Word) : State :=
  if o = 0 then
    if !lightActs s (.sink n) then s
    else
      let s := s.setSn n (fun e => { e with val := s.get (skP n) LGT_SKCMD_VAL })
      if bitsOf old 35 34 = bitsOf w 35 34 then s else sinkMode s n (bitsOf w 35 34)
  else if o = 8 then
    if lightActs s (.sink n) then s.setSn n (fun e => { e with bufDuty := s.get (skP n) LGT_SKPWM_DUTY }) else s
  else if o = 0xC then lgtRefreshFlt s (.sink n)
  else s

/-- The checks of the matrix registers (R262, R272). -/
def mxChk (o : Nat) (s : State) (w : Word) : Fails :=
  failAt (!hasMatrix s) 5 0x07
  ++ (if o = 0x1000 then failAt (bitAt w 35 && lightNoBeat s) 12 0x10
      else if o = 0x1004 then
        failAt (s.flag lgt LGT_MXCTRL_EN && bitsOf (w &&& s.rd (lgt + 0x1004)) 24 17 != 0) 12 0x12
      else [])

/-- What an accepted write to the matrix registers does (R260, R262). -/
def mxWritten (o : Nat) (s : State) (old w : Word) : State :=
  if o = 0x1000 then
    if bitAt w 35 && !bitAt old 35 then s.when s.light.matrix.nextSlot.isNone mxStart
    else if !bitAt w 35 && bitAt old 35 then s.when (!mxSafe s) mxStop
    -- R261: a SWAP in the tick in which the scan starts applies to its first frame
    else if mxStarted s && s.flag lgt LGT_MXCTRL_SWAP then mxSlot s 0
    else s
  else if o = 0x1004 then
    -- an unlocked row starts its count of frames anew
    let s := s.each ((List.range 8).filter (fun r => bitAt w (17 + r) && bitAt old (17 + r))) (fun s r =>
      s.setMx (fun m => { m with trips := m.trips.set r 0 }))
    mxRefreshFlt s
  else if 0x1010 ≤ o && o < 0x1020 then mxRefreshFlt s
  else s

/-- A write to LGT. -/
def lgtWrite (r : WriteReq) (s : State) : State :=
  if r.off < 0x100 then blockWrite r (lgtChk r.off) false (lgtWritten r.off) noRej s
  else if r.off < 0x900 then
    let n := r.off / 0x100 - 1
    blockWrite r (strChk n (r.off % 0x100)) (s.get (stP n) LGT_STCMD_MODE != 0) (strWritten n (r.off % 0x100)) noRej s
  else if 0xA00 ≤ r.off && r.off < 0x1000 then
    let n := (r.off - 0xA00) / 0x20
    let o := r.off % 0x20
    blockWrite r (sinkChk n o) (s.get (skP n) LGT_SKCMD_MODE != 0) (sinkWritten n o) noRej s
  else if 0x1000 ≤ r.off then
    blockWrite r (mxChk r.off) (s.flag lgt LGT_MXCTRL_EN) (mxWritten r.off) noRej s
  else blockWrite r (fun _ _ => []) false noHook noRej s

/-! ### The chain port -/

/-- The checks of LCH (R269, R272). -/
def lchChk (o : Nat) (s : State) (w : Word) : Fails :=
  let buf := s.get lch LCH_STAT_ACTBUF
  failAt (!tgtUsed s .chain) 5 0x07
  ++ failAt (o == 0 && bitAt w 35 && lightNoBeat s) 12 0x11
  ++ failAt (decide (0x1000 + 0x1000 * buf ≤ o) && decide (o < 0x1800 + 0x1000 * buf)) 12 0x10

/-- What an accepted write to LCH does (R269, R271, R274, R275). -/
def lchWritten (o : Nat) (s : State) (old w : Word) : State :=
  if o = 0 then
    let s := if lightActs s .chain then chainPin (s.setChain (fun c => { c with blank := s.flag lch LCH_CTRL_BLANK })) else s
    let s := if !bitAt w 35 && bitAt old 35 then s.setChain (fun c => { c with queued := false }) else s
    if (bitAt w 35 && !bitAt old 35) || bitAt w 33 || (bitAt w 32 && !tgtIsSafe s .chain) then
      chainRequest s
    else s
  else s

/-- A write to LCH. -/
def lchWrite (r : WriteReq) (s : State) : State :=
  blockWrite r (lchChk r.off) (s.flag lch LCH_CTRL_EN) (lchWritten r.off) noRej s

end Sys2Proof.Machine
end

