-- ==== Sys2Proof/Machine/FolioCheck.lean ====
section
/-! DEFINITION. Folio images in the edition slots and their verification (R50–R77, R241, R310, R409, R507–R513, R539,
R588, R589, R613, R614). -/

namespace Sys2Proof.Machine

/-! ### Slots (R521, R522, R524) -/

/-- The base of edition slot B (true) or A in the Vellum read map (R26). -/
def slotBase (b : Bool) : Nat := if b then 0x11000000 else 0x10000000
/-- Manifest word `i` of a slot. -/
def manWord (s : State) (b : Bool) (i : Nat) : Word := s.word (slotBase b + 4 * i)
/-- ILEN and FWLEN of a slot's manifest (R522). -/
def manIlen (s : State) (b : Bool) : Nat := bitsOf (manWord s b 5) 22 0
def manFwlen (s : State) (b : Bool) : Nat := bitsOf (manWord s b 6) 22 0
/-- The nib address of image word `j` of a slot (R524). -/
def imageAt (b : Bool) (j : Nat) : Nat := slotBase b + 0x100 + 4 * j
/-- R613: the words of the folio that a slot holds. -/
def folioWords (s : State) (b : Bool) : List Word := s.words (imageAt b (manFwlen s b)) (manIlen s b - manFwlen s b)
/-- The record of a slot in the ECR (R525). -/
def slotRec (s : State) (b : Bool) : SlotRec := if b then s.ecr.slotB else s.ecr.slotA
/-- R538, R613: INSTALLED or CONFIRMED. -/
def slotUsable (s : State) (b : Bool) : Bool := (slotRec s b).state == 2 || (slotRec s b).state == 3

/-! ### Checks as lists -/

/-- One requirement: does it hold, and the word at fault when it does not. -/
abbrev Need := Bool × Nat

/-- The word of the first requirement that fails. -/
def firstBad (l : List Need) : Option Nat := (l.find? (fun p => !p.1)).map (·.2)

/-- No bit outside the named fields is 1. -/
def named (w : Word) (fs : List (Nat × Nat)) : Bool := w &&& ~~~ (fs.foldl (fun m f => m ||| maskOf f.1 f.2) 0) == 0

/-- Words of a list by position, counted from `base`. -/
def withWord (base : Nat) (ws : List Word) : List (Nat × Nat × Word) := ws.zipIdx.map (fun p => (p.2, base + p.2, p.1))

/-- Whether position `i` holds the first of its key among the list. -/
def fresh? (keys : List Nat) (i : Nat) : Bool := !(keys.take i).contains (keys.getD i 0)

/-! ### TERM (R59, R588, R589, R618) -/

/-- R588, R618: may a land take a function code?  A reserved land, 481 to 520, offers none (DESIGN CHOICE, log entry 81). -/
def landOffers (land func : Nat) : Bool :=
  (func == 0 && (land ≤ 225 || (241 ≤ land && land ≤ 272)))
  || (func == 1 && (land ≤ 240 || (273 ≤ land && land ≤ 480)))
  || (func == 2 && ((205 ≤ land && land ≤ 218) || (241 ≤ land && land ≤ 272)))
  || (241 ≤ land && land ≤ 272 && func == land - 241 + 0x10)

/-- R589: a legal OPT. -/
def landOpt (land func : Nat) (w : Word) : Bool :=
  if (205 ≤ land && land ≤ 223) || (241 ≤ land && land ≤ 272) then
    bitsOf w 9 0 == 0 && bitsOf w 15 14 != 3 && (func == 2 || !bitAt w 11)
  else bitsOf w 15 0 == 0

def checkTerm (ws : List Word) (base : Nat) : List Need :=
  let lands := ws.map (fun w => bitsOf w 35 26)
  (withWord base ws).map (fun x =>
    let w := x.2.2
    let land := bitsOf w 35 26
    (1 ≤ land && land ≤ 520 && fresh? lands x.1 && landOffers land (bitsOf w 25 16) && landOpt land (bitsOf w 25 16) w, x.2.1))

/-! ### CHAN (R60, R61) -/

/-- One CHAN word (R60). -/
structure ChanW where
  use    : Nat
  pair   : Bool
  owner  : Nat
  engine : Nat
  func   : Nat
  crank  : Bool
  parkon : Bool
  prio   : Nat
  deriving DecidableEq, Repr

def chanOf (w : Word) : ChanW :=
  ⟨bitsOf w 35 34, bitAt w 33, bitsOf w 32 31, bitsOf w 30 27, bitsOf w 26 20, bitAt w 19, bitAt w 18, bitsOf w 17 15⟩

def chanList (ws : List Word) : List ChanW := ws.map chanOf
def chanAt (cs : List ChanW) (i : Nat) : ChanW := cs.getD i ⟨0, false, 0, 0, i, false, false, 0⟩

/-- R61: channel `i` meets the constraints of CHAN. -/
def chanLegal (cs : List ChanW) (i : Nat) : Bool :=
  let c := chanAt cs i
  if c.use ≠ 1 then
    c.func == i && !c.pair && c.owner == 0 && !c.crank && !c.parkon && c.prio == 0
  else
    let once := (cs.take i).all (fun d => d.use != 1 || d.func != c.func)
    let from_ := chanAt cs c.func
    let moved := c.func == i || (from_.use == 3 && clsOf c.func == clsOf i)
    let m := chanAt cs (i + 1)
    let paired := !c.pair || (i % 2 == 0 && clsOf (i + 1) == clsOf i && m.use == 1 && !m.pair && c.func % 2 == 0
      && m.func == c.func + 1)
    let park := !c.parkon || (clsOf i == .l && decide (((cs.take (i + 1)).filter (fun d => d.use == 1 && d.parkon)).length ≤ 4))
    let e := i - i % 2
    let bridge := c.owner != 2 || (clsOf i == .b && (chanAt cs e).pair && (chanAt cs e).use == 1
      && (chanAt cs e).owner == 2 && (chanAt cs (e + 1)).owner == 2)
    c.owner != 3 && decide (c.func ≤ 71) && once && moved && paired && park && bridge

def checkChan (ws : List Word) (base : Nat) : List Need :=
  let cs := chanList ws
  (withWord base ws).map (fun x => (bitsOf x.2.2 14 0 == 0 && (chanOf x.2.2).owner != 3 && chanLegal cs x.1, x.2.1))

/-- The physical channel that carries a function, if one does. -/
def carrier (cs : List ChanW) (f : Nat) : Option Nat :=
  (cs.zipIdx.find? (fun p => p.1.use == 1 && p.1.func == f)).map (·.2)

/-- Channel `i` is a member of a parallel pair: even (true) or odd. -/
def pairMember (cs : List ChanW) (even : Bool) (i : Nat) : Bool :=
  clsOf i != .b && i % 2 == (if even then 0 else 1) && (chanAt cs (i - i % 2)).pair && (chanAt cs (i - i % 2)).use == 1

/-! ### WIRE, SAFE, PROF and MOTN (R63–R67, R241) -/

def checkWire (ws : List Word) (base : Nat) : List Need :=
  let es := chunks 3 ws
  let fs := es.map (fun e => entBits e 0 35 29)
  es.zipIdx.flatMap (fun p =>
    let e := p.1
    let o := base + 3 * p.2
    let amb := signed 9 (entBits e 2 17 9)
    [(named (e.getD 0 0) [(35, 29), (17, 0)] && decide (entBits e 0 35 29 ≤ 71) && fresh? fs p.2, o),
     (decide (10 ≤ entBits e 1 35 18) && decide (1 ≤ entBits e 1 17 0), o + 1),
     (named (e.getD 2 0) [(35, 9)] && decide (60 ≤ entBits e 2 35 27) && decide (entBits e 2 35 27 ≤ 200)
        && decide (entBits e 2 26 18 + 5 ≤ entBits e 2 35 27) && decide (-64 ≤ amb ∧ amb ≤ 100), o + 2)])

def checkSafe (ws : List Word) (base : Nat) : List Need :=
  let h := ws.getD 0 0
  let es := ws.drop 1
  let keys := es.map (fun w => bitsOf w 35 27)
  (named h [(35, 12)] && decide (1 ≤ bitsOf h 35 27) && decide (bitsOf h 35 27 ≤ 500) && decide (10 ≤ bitsOf h 26 12)
    && decide (bitsOf h 26 12 ≤ 30000), base) ::
  (withWord (base + 1) es).map (fun x =>
    let w := x.2.2
    let k := bitsOf w 35 34
    (bitsOf w 12 0 == 0 && decide (bitsOf w 33 27 ≤ [71, 7, 47, 0].getD k 0) && fresh? keys x.1
      && (bitsOf w 26 25 == 3 || bitsOf w 24 13 == 0) && (k != 3 || decide (bitsOf w 26 25 < 2)), x.2.1))

/-- R241: the words of a parallel group name the even members (leader) and the odd members (partner), and no other engine
names them. -/
def profGroup (cs : List ChanW) (ps : List Prof) (p : Prof) : Bool :=
  !p.par ||
  match ps.find? (fun q => q.eng == p.partner) with
  | none => false
  | some q =>
    let even (f : Nat) : Bool := match carrier cs f with | some i => pairMember cs true i | none => false
    let lo := if p.eng < q.eng then p else q
    let hi := if p.eng < q.eng then q else p
    q.eng != p.eng && q.par && q.partner == p.eng && even lo.feed && even lo.sel && hi.feed == lo.feed + 1
      && hi.sel == lo.sel + 1
      && ps.all (fun r => r.eng == p.eng || r.eng == q.eng ||
          !List.any [p.feed, p.sel, q.feed, q.sel] (fun f => f == r.feed || f == r.sel))

def checkProf (cs : List ChanW) (ws : List Word) (base : Nat) : List Need :=
  let ps := profList ws
  let engs := ps.map (·.eng)
  (withWord base ws).map (fun x =>
    let p := profOf x.2.2
    (named x.2.2 [(35, 18), (15, 11)] && fresh? engs x.1 && decide (p.feed ≤ 71) && decide (p.sel ≤ 71) && clsOf p.feed != .lo
      && (clsOf p.sel == .lo || clsOf p.sel == .b)
      && decide (((ps.take (x.1 + 1)).filter (fun q => q.feed == p.feed)).length ≤ 2), x.2.1))
  ++ (withWord base ws).map (fun x => (profGroup cs ps (profOf x.2.2), x.2.1))

def checkMotn (ws : List Word) (base : Nat) : List Need :=
  let es := chunks 2 ws
  let engs := es.map (fun e => entBits e 0 35 33)
  es.zipIdx.flatMap (fun p =>
    let e := p.1
    let m := motnOf e
    let o := base + 2 * p.2
    [(named (e.getD 0 0) [(35, 21)] && decide (m.eng ≤ 5) && fresh? engs p.2 && (m.kind == 2 || m.parkIn == 0), o),
     (named (e.getD 1 0) [(35, 8)] && (if m.kind < 2 then decide (4 ≤ m.pzLo ∧ m.pzLo ≤ m.pzHi ∧ m.pzHi ≤ 200)
        else m.pzLo == 0 && m.pzHi == 0) && decide (1 ≤ m.scale ∧ m.scale ≤ 4080), o + 1)])

/-! ### LITE, INPT and RULE (R68–R70, R310, R312, R313) -/

/-- LITE word 0 (R68). -/
def liteMatrix (ws : List Word) : Bool := bitAt (ws.getD 0 0) 35
def liteChain (ws : List Word) : Nat := bitsOf (ws.getD 0 0) 30 22
/-- The used string drivers, ascending. -/
def liteStrings (ws : List Word) : List Nat := onesBelow (ws.getD 0 0) 8

def checkLite (ws : List Word) (base : Nat) : List Need :=
  let h := ws.getD 0 0
  let rows := bitsOf h 34 31
  let n := liteChain ws
  let clk := bitsOf h 21 17
  let sts := liteStrings ws
  let body := ws.drop 3
  [(named h [(35, 17), (7, 0)] && (if liteMatrix ws then decide (1 ≤ rows ∧ rows ≤ 8) else rows == 0)
      && decide (n ≤ 256) && (if n = 0 then clk == 0 else decide (1 ≤ clk ∧ clk ≤ 30)), base),
   (named (ws.getD 1 0) [(23, 0)] && (!liteMatrix ws || bitsOf (ws.getD 1 0) 15 0 == 0xFFFF), base + 1),
   (named (ws.getD 2 0) [(23, 0)], base + 2)]
  ++ (withWord (base + 3) (body.take sts.length)).map (fun x =>
      let w := x.2.2
      (named w [(35, 12)] && bitsOf w 35 33 == sts.getD x.1 8 && decide (40 ≤ bitsOf w 32 24)
        && decide (bitsOf w 32 24 ≤ bitsOf w 23 15) && decide (bitsOf w 23 15 ≤ 220), x.2.1))
  ++ (withWord (base + 3 + sts.length) (body.drop sts.length)).map (fun x =>
      let wd := bitsOf x.2.2 35 29
      (named x.2.2 [(35, 29)] && decide (8 ≤ wd ∧ wd ≤ 64) && wd % 8 == 0, x.2.1))

def checkInpt (ws : List Word) (base : Nat) : List Need :=
  (withWord base (ws.take 64)).map (fun x =>
    let wet := bitsOf x.2.2 33 31
    (named x.2.2 [(35, 28)] && decide (wet ≤ 5) && (wet != 0 || !bitAt x.2.2 35), x.2.1))
  ++ (withWord (base + 64) (ws.drop 64)).map (fun x => (named x.2.2 [(35, 32)] && (decide (x.1 < 8) || !bitAt x.2.2 34), x.2.1))

/-- A unit that a ruling code names (R312, R313): its kind and number. -/
inductive RuleUnit where
  | timer | input (n : Nat) | analogue (n : Nat) | converter | stroke (n : Nat) | motion (n : Nat) | can (n : Nat) | chain
  | matrix
  deriving DecidableEq, Repr

/-- R312: the unit of a source code, and whether the source is a level. -/
def ruleSource (c : Nat) : Option (RuleUnit × Bool) :=
  if 0x10 ≤ c ∧ c < 0x70 then some (.timer, false)
  else if 0x70 ≤ c ∧ c < 0x90 then some (.timer, true)
  else if 0x100 ≤ c ∧ c < 0x180 then some (.input (c % 64), false)
  else if c = 0x180 then some (.converter, false)
  else if 0x188 ≤ c ∧ c < 0x190 then some (.analogue (c - 0x188), true)
  else if 0x190 ≤ c ∧ c < 0x1B0 then some (.stroke (c % 16), false)
  else if (0x1B0 ≤ c ∧ c < 0x1B6) ∨ (0x1B8 ≤ c ∧ c < 0x1BE) then some (.motion (c % 8), false)
  else if 0x1C0 ≤ c ∧ c < 0x1D0 then some (.can (c % 8), false)
  else if c = 0x1D0 then some (.chain, false)
  else if c = 0x1D1 then some (.matrix, false)
  else none

/-- R313: the unit of a destination code. -/
def ruleDest (c : Nat) : Option RuleUnit :=
  if 0x10 ≤ c ∧ c < 0x70 then some .timer
  else if c = 0x180 then some .converter
  else if 0x190 ≤ c ∧ c < 0x1B0 then some (.stroke (c % 16))
  else if 0x1B0 ≤ c ∧ c < 0x1B6 then some (.motion (c - 0x1B0))
  else if c = 0x1D0 then some .chain
  else if c = 0x1D1 then some .matrix
  else none

def checkRule (ws : List Word) (base : Nat) : List Need :=
  (withWord base ws).map (fun x =>
    let w := x.2.2
    let other := (ws.take x.1).filter (fun v => bitsOf v 35 29 != bitsOf w 35 29)
    let same := (ws.take x.1).filter (fun v => bitsOf v 35 29 == bitsOf w 35 29)
    (bitsOf w 4 0 == 0 && bitsOf w 6 5 != 3 && (ruleDest (bitsOf w 17 7)).isSome
      && (match ruleSource (bitsOf w 28 18) with | none => false | some (_, lvl) => lvl || bitsOf w 6 5 == 0)
      && decide (same.length < 4) && same.all (fun v => bitsOf v 28 18 == bitsOf w 28 18 && bitsOf v 6 5 == bitsOf w 6 5)
      && other.all (fun v => bitsOf v 17 7 != bitsOf w 17 7), x.2.1))

/-! ### NETW, PWRD, DECO, KPOL, ACCS and GUAR (R71–R76, R507–R513) -/

def checkNetw (ws : List Word) (base : Nat) : List Need :=
  let g (i : Nat) : Word := ws.getD i 0
  (named (g 0) [(35, 7)], base) ::
  (List.range 8).map (fun n =>
    let w := g (1 + n)
    let total := ((List.range (n + 1)).map (fun i => bitsOf (g (1 + i)) 35 27)).sum
    (named w [(35, 17)] && decide (bitsOf w 35 27 ≤ 256) && (bitAt (g 0) (28 + n) || bitsOf w 35 27 == 0)
      && (decide (n < 2) || !bitAt w 17) && decide (total ≤ 2048), base + 1 + n))
  ++ (List.range 4).map (fun n =>
    let w := g (9 + n)
    (named w [(35, 12)] && (if bitsOf w 35 28 = 0 then decide (1 ≤ bitsOf w 27 20) else bitsOf w 27 20 == 0), base + 9 + n))
  ++ [(named (g 13) [(35, 26)], base + 13)]

def checkPwrd (ws : List Word) (base : Nat) : List Need :=
  let w := ws.getD 0 0
  [(named w [(35, 4)] && bitAt w 35 && bitAt w 34 && bitAt w 31 && bitAt w 24 && decide (bitsOf w 23 21 ≤ 5)
    && decide ((onesBelow (BitVec.ofNat 36 (bitsOf w 11 4)) 8).length ≤ 4), base)]

/-- R509: the sources a micro-operation has, and a legal IMM; none for a code outside the table. -/
def uopForm (u : Nat) (imm : Nat) : Option (Nat × Bool) :=
  if u = 0 then none
  else if u ≤ 0x0D ∨ u = 0x11 then some (2, imm == 0)
  else if u ≤ 0x15 then some (1, imm == 0)
  else if u < 0x18 then none
  else if u ≤ 0x1C then some (1, true)
  else if u = 0x1D then some (0, true)
  else if u = 0x1E then some (1, decide (imm / 2 ^ 15 ≤ 4) && imm / 64 % 512 == 0 && decide (imm % 64 ≤ 35))
  else if u = 0x1F then some (1, imm / 256 == 0)
  else if u ≤ 0x22 then
    let pos := imm / 4096
    let len := imm / 64 % 64
    some (1, imm % 64 == 0 && decide (pos ≤ 35 ∧ 1 ≤ len ∧ len ≤ 36 ∧ pos + len ≤ 36))
  else none

/-- R508, R509, R513: one micro-operation under the header's REGUSE (wd, wa, wb in bits 2:0). -/
def uopLegal (reguse : Nat) (w : Word) : Bool :=
  match uopForm (bitsOf w 35 30) (bitsOf w 17 0) with
  | none => false
  | some (n, immOk) =>
    let sa := bitsOf w 26 24
    let sb := bitsOf w 23 21
    let dst := bitsOf w 29 27
    let src (k : Nat) : Bool := (k != 5 || reguse.testBit 1) && (k != 6 || reguse.testBit 0) && (k != 4 || reguse.testBit 2)
    immOk && bitsOf w 20 18 == 0 && decide (dst ≤ 4) && (dst != 4 || reguse.testBit 2)
      && (if n = 0 then sa == 0 else src sa) && (if n < 2 then sb == 0 else src sb)

/-- R507, R513: one entry of 9 words. -/
def checkEntry (ws : List Word) (o : Nat) : List Need :=
  let h := ws.getD 0 0
  if !bitAt h 35 then (withWord o ws).map (fun x => (x.2.2 == 0, x.2.1))
  else
    let n := bitsOf h 34 31
    let fsrc := bitsOf h 29 27
    (bitsOf h 10 0 == 0 && decide (1 ≤ n ∧ n ≤ 8) && decide (fsrc < n) && (bitAt h 30 || fsrc == 0), o) ::
    (withWord (o + 1) (ws.drop 1)).map (fun x =>
      (if x.1 < n then uopLegal (bitsOf h 26 24) x.2.2 else x.2.2 == 0, x.2.1))

def checkDeco (ws : List Word) (base : Nat) : List Need :=
  let t := bitsOf (ws.getD 0 0) 35 34
  let tabs := chunks 145 (ws.drop 1)
  (named (ws.getD 0 0) [(35, 34)] && t != 0, base) ::
  tabs.zipIdx.flatMap (fun p =>
    let o := base + 1 + 145 * p.2
    let c := p.1.getD 0 0
    let before := (tabs.take p.2).foldl (fun m q => m ||| q.getD 0 0) 0
    (named c [(35, 32)] && c != 0 && c &&& before == 0, o) ::
    ((chunks 9 (p.1.drop 1)).zipIdx.flatMap (fun q => checkEntry q.1 (o + 1 + 9 * q.2))))

/-- R74, R409, R539: the root counts as a parent with every mask. -/
def checkKpol (ws : List Word) (base : Nat) : List Need :=
  let es := chunks 3 ws
  let nodes := es.map (fun e => entBits e 0 35 28)
  es.zipIdx.flatMap (fun p =>
    let e := p.1
    let o := base + 3 * p.2
    let up := entBits e 0 27 20
    let depth := entBits e 0 19 17
    let par := if up = 0 then none else (es.take p.2).find? (fun q => entBits q 0 35 28 == up)
    let d0 := match par with | none => 0 | some q => entBits q 0 19 17
    let w2 := e.getD 2 0
    let masks := maskOf 35 21
    [(named (e.getD 0 0) [(35, 17)] && entBits e 0 35 28 != 0 && fresh? nodes p.2 && (up == 0 || par.isSome)
        && (match par with | none => true | some q => bitAt (q.getD 2 0) 20) && decide (depth ≤ 6) && depth == d0 + 1, o),
     (depth != 1 || (e.getD 1 0 != 0x0ED170001 && e.getD 1 0 != 0x0ED170002), o + 1),
     (named w2 [(35, 20)] && (match par with | none => true | some q => (w2 &&& masks) &&& ~~~ (q.getD 2 0) == 0), o + 2)])

def checkAccs (ws : List Word) (base : Nat) : List Need :=
  let g (i : Nat) : Word := ws.getD i 0
  [(named (g 0) [(31, 0)], base),
   (decide (1 ≤ bitsOf (g 1) 19 10) && decide (1 ≤ bitsOf (g 1) 9 0), base + 1),
   (named (g 2) [(35, 27), (25, 4)], base + 2),
   (named (g 3) [(29, 0)] && (bitAt (g 3) 29 || bitsOf (g 3) 28 11 == 0), base + 3)]

def checkGuar (ws : List Word) (base : Nat) : List Need :=
  let a := ws.getD 0 0
  let b := ws.getD 1 0
  let v := bitsOf b 35 27
  let r := bitsOf b 26 18
  let n := bitsOf b 17 9
  let c := bitsOf b 8 0
  let act := bitAt a 35
  [(named a [(35, 31)] && (!act || ((bitAt a 34 || !bitAt a 32) && (bitAt a 33 || !bitAt a 31))), base),
   (decide (10 ≤ v ∧ v ≤ 500 ∧ 16 ≤ r ∧ 1 ≤ n ∧ n ≤ 168 ∧ 1 ≤ c ∧ c ≤ 100)
      && (!act || decide (v ≤ 100 ∧ r ≤ 64 ∧ n ≤ 24 ∧ c ≤ 10)), base + 1)]

/-- Step 8 of R77 for one section. -/
def checkSection (cs : List ChanW) (ty : Nat) (ws : List Word) (base : Nat) : List Need :=
  match ty with
  | 1 => checkTerm ws base | 2 => checkChan ws base | 3 => checkWire ws base | 4 => checkSafe ws base
  | 5 => checkProf cs ws base | 6 => checkMotn ws base | 7 => checkLite ws base | 8 => checkInpt ws base
  | 9 => checkRule ws base | 10 => checkNetw ws base | 11 => checkPwrd ws base | 12 => checkDeco ws base
  | 13 => checkKpol ws base | 14 => checkAccs ws base | _ => checkGuar ws base

/-! ### Constraints between sections (R64, R66, R67, R73, R75, R310, R588) -/

/-- A folio's sections read by TYPE, with the word offset of each. -/
structure Folio where
  header : List Word
  sects  : List (Nat × Nat × List Word)
  deriving DecidableEq, Repr

def Folio.ws (f : Folio) (ty : Nat) : List Word :=
  match f.sects.find? (fun p => p.1 == ty) with | some p => p.2.2 | none => []
def Folio.at (f : Folio) (ty : Nat) : Nat :=
  match f.sects.find? (fun p => p.1 == ty) with | some p => p.2.1 | none => 0

/-- R588: a land of a port that NETW marks present, or of the chain while CHAIN_N is above 0. -/
def portLand (netw : Word) (chain : Nat) (l : Nat) : Bool :=
  (161 ≤ l && l ≤ 176 && bitAt netw (28 + (l - 161) / 2)) || (177 ≤ l && l ≤ 188 && bitAt netw (16 + (l - 177)))
  || (189 ≤ l && l ≤ 196 && bitAt netw (12 + (l - 189) / 2)) || (197 ≤ l && l ≤ 200 && bitAt netw (10 + (l - 197) / 2))
  || (201 ≤ l && l ≤ 204 && bitAt netw 9) || (205 ≤ l && l ≤ 208 && chain != 0)
  || (209 ≤ l && l ≤ 218 && bitAt netw (7 + (l - 209) / 5))

/-- R310: the other sections make the unit present. -/
def unitPresent (f : Folio) (u : RuleUnit) : Bool :=
  match u with
  | .timer | .converter => true
  | .input n => bitAt ((f.ws 8).getD n 0) 35
  | .analogue n => bitAt ((f.ws 8).getD (64 + n) 0) 35
  | .stroke n => (profList (f.ws 5)).any (fun p => p.eng == n)
  | .motion n => (motnList (f.ws 6)).any (fun m => m.eng == n)
  | .can n => bitAt ((f.ws 10).getD 0 0) (28 + n)
  | .chain => liteChain (f.ws 7) != 0
  | .matrix => liteMatrix (f.ws 7)

/-- The 144 entry words of the DECO table that names a core (R73). -/
def decoTable (ws : List Word) (core : Nat) : Option (List Word) :=
  ((chunks 145 (ws.drop 1)).find? (fun t => bitAt (t.getD 0 0) (32 + core))).map (fun t => t.drop 1)

/-- R66: the engine that the CHAN entry of a FEED must name: the lower-numbered of those that name it as FEED. -/
def feedEngine (ps : List Prof) (f : Nat) : Option Nat :=
  ps.foldl (fun m p => if p.feed = f then some (match m with | none => p.eng | some k => min k p.eng) else m) none

/-- R66, R67: a channel that PROF names: its CHAN entry has OWNER 1 and the engine `e`. -/
def ownedBy (cs : List ChanW) (f : Nat) (e : Option Nat) : Bool :=
  match carrier cs f with
  | none => false
  | some i => (chanAt cs i).owner == 1 && some (chanAt cs i).engine == e

/-- Check 9 of R77.  Two cores of a locked pair receive the same table when the entries they receive are equal (log
entry 81). -/
def checkCross (f : Folio) : List Need :=
  let cs := chanList (f.ws 2)
  let ps := profList (f.ws 5)
  let ms := motnList (f.ws 6)
  let netw := (f.ws 10).getD 0 0
  let wired := (chunks 3 (f.ws 3)).map (fun e => entBits e 0 35 29)
  let lock (p : Nat) : Bool := bitAt ((f.ws 15).getD 0 0) (34 - p)
  let used (n : Nat) : Bool := bitAt ((f.ws 8).getD n 0) 35
  (withWord (f.at 1) (f.ws 1)).map (fun x =>
    (!portLand netw (liteChain (f.ws 7)) (bitsOf x.2.2 35 26) || bitsOf x.2.2 25 16 == 1, x.2.1))
  ++ cs.zipIdx.map (fun p =>
    let c := p.1
    let i := p.2
    let w := wired.contains c.func
    (c.use != 1 || ((if pairMember cs false i then !w else (clsOf i == .lo || w))
      && (c.owner != 1 || ps.any (fun q => q.feed == c.func || q.sel == c.func))
      && (c.owner != 2 || ((ms.filter (fun m => bridgeEven m.bridge == i - i % 2)).length == 1))), f.at 2 + i))
  ++ wired.zipIdx.map (fun p => ((carrier cs p.1).isSome, f.at 3 + 3 * p.2))
  ++ ps.zipIdx.map (fun p =>
    (ownedBy cs p.1.feed (feedEngine ps p.1.feed) && ownedBy cs p.1.sel (some p.1.eng), f.at 5 + p.2))
  ++ ms.zipIdx.map (fun p =>
    let m := p.1
    let e := bridgeEven m.bridge
    let own (i : Nat) : Bool := (chanAt cs i).use == 1 && (chanAt cs i).owner == 2 && (chanAt cs i).engine == m.eng
    (own e && own (e + 1) && !(ms.take p.2).any (fun q => q.bridge == m.bridge) && (m.kind != 2 || used m.parkIn), f.at 6 + 2 * p.2))
  ++ (withWord (f.at 9) (f.ws 9)).map (fun x =>
    let src := match ruleSource (bitsOf x.2.2 28 18) with | none => false | some (u, _) => unitPresent f u
    let dst := match ruleDest (bitsOf x.2.2 17 7) with | none => false | some u => unitPresent f u
    (src && dst, x.2.1))
  ++ (if f.ws 14 = [] then [] else
    let kp (n : Nat) : Option (List Word) := (chunks 3 (f.ws 13)).find? (fun e => entBits e 0 35 28 == n)
    let a1 := (f.ws 14).getD 1 0
    let a2 := (f.ws 14).getD 2 0
    [((match kp (bitsOf a1 35 28) with | none => false | some e => bitAt (e.getD 2 0) 26)
        && (match kp (bitsOf a1 27 20) with | none => false | some e => bitAt (e.getD 2 0) 23 && bitAt (e.getD 2 0) 20), f.at 14 + 1),
     (used (bitsOf a2 35 30) && bitAt netw (28 + bitsOf a2 29 27)
        && (onesBelow (BitVec.ofNat 36 (bitsOf a2 25 10)) 16).all (fun k => ps.any (fun p => p.eng == k))
        && (onesBelow (BitVec.ofNat 36 (bitsOf a2 9 4)) 6).all (fun k => ms.any (fun m => m.eng == k)), f.at 14 + 2)])
  ++ [((List.range 2).all (fun p => !lock p || decoTable (f.ws 12) (2 * p) == decoTable (f.ws 12) (2 * p + 1)), f.at 15)]

/-! ### Header, table and the whole order of R77 -/

/-- Check 1 of R77 (R55, R613) over the words present. -/
def checkHeader (ws : List Word) : List Need :=
  let g (i : Nat) : Word := ws.getD i 0
  let len := bitsOf (g 5) 23 0
  [(g 0 == 0xF0110A036, 0), (bitsOf (g 1) 35 20 == 0x3672 && bitsOf (g 1) 19 12 == 1 && bitsOf (g 1) 11 0 == 1, 1),
   (bitsOf (g 3) 35 20 == 0, 3),
   (bitsOf (g 5) 35 24 == 0 && decide (40 ≤ len ∧ len ≤ 65536) && ws.length == len + 33, 5),
   (bitsOf (g 6) 35 4 == 0 && decide (7 ≤ bitsOf (g 6) 3 0), 6), (bitsOf (g 7) 35 16 == 0, 7)]

/-- R58: the size `n` of a section whose words are `ws`: the sizes of LITE and DECO follow from their word 0 (log
entry 81). -/
def sectSize (ty n : Nat) (ws : List Word) : Bool :=
  decide (1 ≤ n) &&
  match ty with
  | 2 => n == 72 | 3 => n % 3 == 0 | 5 => decide (n ≤ 16) | 6 => n % 2 == 0 && decide (n ≤ 12)
  | 7 => n == 3 + (liteStrings ws).length + liteChain ws
  | 8 => n == 80 | 9 => decide (n ≤ 512) | 10 => n == 14 | 11 => n == 1 | 12 => n == 1 + 145 * bitsOf (ws.getD 0 0) 35 34
  | 13 => n % 3 == 0 && decide (n ≤ 765) | 14 => n == 4 | 15 => n == 2 | _ => true

/-- The sections as the table names them (R56). -/
def readSects (ws : List Word) : List (Nat × Nat × List Word) :=
  (List.range (bitsOf (ws.getD 6 0) 3 0)).map (fun k =>
    let e := 8 + 4 * k
    let off := bitsOf (ws.getD (e + 1) 0) 23 0
    (bitsOf (ws.getD e 0) 35 28, off, (ws.drop off).take (bitsOf (ws.getD (e + 2) 0) 23 0)))

/-- Check 7 of R77 (R56–R58): the section table. -/
def checkTable (ws : List Word) : List Need :=
  let n := bitsOf (ws.getD 6 0) 3 0
  let len := bitsOf (ws.getD 5 0) 23 0
  let g (i : Nat) : Word := ws.getD i 0
  let size (k : Nat) : Nat := bitsOf (g (8 + 4 * k + 2)) 23 0
  let start (k : Nat) : Nat := 8 + 4 * n + ((List.range k).map size).sum
  let types := (List.range n).map (fun k => bitsOf (g (8 + 4 * k)) 35 28)
  (List.range n).flatMap (fun k =>
    let e := 8 + 4 * k
    let ty := bitsOf (g e) 35 28
    [(bitsOf (g e) 27 20 == 1 && bitsOf (g e) 19 0 == 0 && decide (1 ≤ ty ∧ ty ≤ 15)
        && (k == 0 || decide (bitsOf (g (e - 4)) 35 28 < ty)), e),
     (bitsOf (g (e + 1)) 35 0 == start k, e + 1),
     (bitsOf (g (e + 2)) 35 24 == 0 && sectSize ty (size k) ((ws.drop (start k)).take (size k)) && decide (start (k + 1) ≤ len) && (k + 1 != n || start n == len), e + 2),
     ((g (e + 3)).toNat == crc32Words ((ws.drop (start k)).take (size k)), e + 3)])
  ++ [([1, 2, 4, 10, 11, 13, 15].all types.contains, 8)]

/-- The owner key hash as octets (R54). -/
def ownerHash (s : State) : List Nat :=
  (List.range 8).flatMap (fun k => natOctets 4 (bitsOf (s.rd (0x40600240 + 4 * k)) 31 0))

/-- Words holding 32-bit pieces, as octets (R53). -/
def pieces (ws : List Word) : List Nat := ws.flatMap (fun w => natOctets 4 (bitsOf w 31 0))

/-- R54: a signer key of 16 words is the owner's. -/
def signerKnown (s : State) (key : List Word) : Bool := sha256 (pieces key) == ownerHash s

/-- R53: 16 key words and 16 signature words over a message of words; the pieces' top bits are 0. -/
def signatureOk (key sig msg : List Word) : Bool :=
  (key ++ sig).all (fun w => bitsOf w 35 32 == 0) &&
    ecdsaVerify (octetsNat (pieces (key.take 8))) (octetsNat (pieces (key.drop 8))) (octetsNat (pieces (sig.take 8)))
      (octetsNat (pieces (sig.drop 8))) (wordsOctets msg)

/-- R522, R614: the COMPAT classes that an edition's manifest accepts; 0 marks an unused place. -/
def compatList (s : State) (b : Bool) : List Nat :=
  ((List.range 4).flatMap (fun i => [bitsOf (manWord s b (8 + i)) 31 16, bitsOf (manWord s b (8 + i)) 15 0])).filter (· != 0)

/-- R77: the outcome of verifying folio words for the firmware of edition `ed`: the code and word of the first failure, or
the folio. -/
def verifyWords (s : State) (ed : Bool) (ws : List Word) : Except (Nat × Nat) Folio :=
  let len := bitsOf (ws.getD 5 0) 23 0
  let key := (ws.drop (len + 1)).take 16
  let f : Folio := ⟨ws.take 8, readSects ws⟩
  let bad (l : List Need) (code : Nat) (k : Unit → Except (Nat × Nat) Folio) : Except (Nat × Nat) Folio :=
    match firstBad l with | some w => .error (code, w) | none => k ()
  bad (checkHeader ws) 0x10 fun _ =>
  bad [((ws.getD len 0).toNat == crc32Words (ws.take len), len)] 0x11 fun _ =>
  bad [(signerKnown s key, len + 1)] 0x12 fun _ =>
  bad [(signatureOk key ((ws.drop (len + 17)).take 16) (ws.take (len + 17)), len + 17)] 0x13 fun _ =>
  bad [(decide (s.get 0x40030000 FOLIO_FLOOR_FLOOR ≤ bitsOf (ws.getD 3 0) 19 0), 3)] 0x14 fun _ =>
  bad [((compatList s ed).contains (bitsOf (ws.getD 7 0) 15 0), 7)] 0x15 fun _ =>
  bad (checkTable ws) 0x16 fun _ =>
  bad (f.sects.flatMap (fun p => checkSection (chanList (f.ws 2)) p.1 p.2.2 p.2.1)) 0x17 fun _ =>
  bad (checkCross f) 0x18 fun _ => .ok f

/-- R77, R613: the folio of a slot verified for the firmware of edition `ed`. -/
def verifyFolio (s : State) (slot ed : Bool) : Except (Nat × Nat) Folio :=
  if slotUsable s slot then verifyWords s ed (folioWords s slot) else .error (0x10, 0)

/-- R530: the retained check of a CAPPED exit: the CRC word and every SCRC against FOLIO_SCRC. -/
def folioRetained (s : State) (slot : Bool) : Option (List Need) :=
  let ws := folioWords s slot
  let len := bitsOf (ws.getD 5 0) 23 0
  if slotUsable s slot then some [((ws.getD len 0).toNat == crc32Words (ws.take len), len),
    ((readSects ws).all (fun p => crc32Words p.2.2 == s.get (0x40030000 + 4 * (p.1 - 1)) FOLIO_SCRC_SCRC), 8)]
  else none

end Sys2Proof.Machine
end

