-- ==== Sys2Proof/Machine/Timers.lean ====
section
/-! DEFINITION. The timer channels (R295–R309). -/

namespace Sys2Proof.Machine

def tmrP (n : Nat) : Nat := 0x40070100 + n * 0x40

def State.tm (s : State) (n : Nat) : Tmr := s.tmrs.getD n .reset
def State.setTm (s : State) (n : Nat) (g : Tmr → Tmr) : State := { s with tmrs := s.tmrs.set n (g (s.tm n)) }

/-- R305: the low member of a linked pair, and the high one. -/
def tmrLow (s : State) (n : Nat) : Bool := n % 2 == 0 && s.flag (tmrP n) TMR_CTRL_LINK
def tmrHigh (s : State) (n : Nat) : Bool := n % 2 == 1 && s.flag (tmrP (n - 1)) TMR_CTRL_LINK

def tmrRun (s : State) (n : Nat) : Bool := s.flag (tmrP n) TMR_STAT_RUNNING
def tmrMode (s : State) (n : Nat) : Nat := s.get (tmrP n) TMR_CTRL_MODE

/-- R299, R310: OUT set, its level source following. -/
def tmrOut (s : State) (n : Nat) (v : Bool) : State :=
  if s.flag (tmrP n) TMR_STAT_OUT == v then s else raiseLevel (s.put (tmrP n) TMR_STAT_OUT v.toNat) (0x70 + n) v

/-- R299: OUT while stopped: OIDLE in MODE 3, else 0. -/
def tmrIdleOut (s : State) (n : Nat) : State :=
  if tmrRun s n then s else tmrOut s n (tmrMode s n == 3 && s.flag (tmrP n) TMR_CTRL_OIDLE)

/-- RUNNING and its TMR_RUN bit. -/
def tmrSetRun (s : State) (n : Nat) (b : Bool) : State :=
  (s.put (tmrP n) TMR_STAT_RUNNING b.toNat).setBit 0x40070014 n b

/-- R296: one channel starts from COUNT 0, its timeout rearmed, OUT at its start level (R299). -/
def tmrStart1 (s : State) (n : Nat) : State :=
  let s := (tmrSetRun s n true).put (tmrP n) TMR_COUNT_COUNT 0
  let s := s.setTm n (fun t => { t with armed := true })
  if tmrMode s n = 3 then
    tmrOut s n (if s.get (tmrP n) TMR_CTRL_OMODE = 0 then s.get (tmrP n) TMR_CMP_CMP != 0
      else s.flag (tmrP n) TMR_CTRL_OIDLE)
  else tmrOut s n false

/-- R296: one channel stops where it stands. -/
def tmrStop1 (s : State) (n : Nat) : State := tmrIdleOut (tmrSetRun s n false) n

/-- R306: starts and stops of a pair act on both members. -/
def tmrPair (f : State → Nat → State) (s : State) (n : Nat) : State :=
  if tmrLow s n then f (f s n) (n + 1) else f s n
def tmrStart (s : State) (n : Nat) : State := tmrPair tmrStart1 s n
def tmrStop (s : State) (n : Nat) : State := tmrPair tmrStop1 s n

/-- R303: a write has started or stopped the channel in the present tick; `en`: EN before the write. -/
def tmrWrote (s : State) (n : Nat) (en : Bool) : State := s.setTm n (fun t => { t with wrote := some (s.now, en) })

/-- R303: what a START leaves that a later STOP or write of its tick has overruled: COUNT 0, the timeout rearmed. -/
def tmrZero (s : State) (n : Nat) : State :=
  (s.put (tmrP n) TMR_COUNT_COUNT 0).setTm n (fun t => { t with armed := true })

/-! ### Counting -/

/-- R297: would the next counting edge end the period? -/
def tmrEnds (s : State) (n : Nat) : Bool :=
  let c := s.get (tmrP n) TMR_COUNT_COUNT
  let p := s.get (tmrP n) TMR_PERIOD_PERIOD
  if p = 0 then c == 2 ^ 36 - 1 else decide (p ≤ c + 1)

/-- R297, R299, R302: one counting edge of a running channel. -/
def tmrEdge1 (s : State) (n : Nat) : State :=
  let p := tmrP n
  let ends := tmrEnds s n
  let mode := tmrMode s n
  let om := s.get p TMR_CTRL_OMODE
  let new := if ends then 0 else s.get p TMR_COUNT_COUNT + 1
  let hit := new == s.get p TMR_CMP_CMP
  let s := s.put p TMR_COUNT_COUNT new
  let s := if ends then raiseSrc (s.put p TMR_STAT_PER 1) (0x10 + n) else s
  -- R302: only an edge that advances COUNT to CMP raises the timeout
  let s := if mode = 2 && s.flag p TMR_CTRL_TOEN then
      (if ends then s.setTm n (fun t => { t with armed := true })
       else if hit && (s.tm n).armed then s.setTm n (fun t => { t with toDue := true }) else s)
    else s
  let match_ := mode != 2 && hit
  let s := if match_ then raiseSrc (s.put p TMR_STAT_CMPF 1) (0x30 + n) else s
  let s := if mode = 3 then
      (match om with
       | 0 => if match_ then tmrOut s n false else if ends then tmrOut s n true else s
       | 1 => if match_ then tmrOut s n (!s.flag p TMR_STAT_OUT) else s
       | _ => tmrOut s n (s.flag p TMR_CTRL_OIDLE != match_))
    else s
  if ends && mode == 1 then tmrIdleOut ((tmrSetRun s n false).put p TMR_STAT_DONE 1) n else s

/-- R299: an OMODE 2 pulse lasts one tick. -/
def tmrPulseEnd (s : State) (n : Nat) : State :=
  if tmrRun s n && tmrMode s n == 3 && s.get (tmrP n) TMR_CTRL_OMODE == 2 then tmrOut s n (s.flag (tmrP n) TMR_CTRL_OIDLE)
  else s

/-- R305: an edge of a running channel; a low member's period end is its high member's edge, and in any other tick the
high member's pulse ends. -/
def tmrEdge (s : State) (n : Nat) : State :=
  let ends := tmrEnds s n
  let low := tmrLow s n
  let s := tmrEdge1 s n
  if low then (if ends && tmrRun s (n + 1) then tmrEdge1 s (n + 1) else tmrPulseEnd s (n + 1)) else s

/-- R299: a tick without an edge of the channel, or of the pair whose low member it is. -/
def tmrNoEdge (s : State) (n : Nat) : State :=
  if tmrLow s n then tmrPulseEnd (tmrPulseEnd s n) (n + 1) else tmrPulseEnd s n

/-- R295: the groups whose prescaler gives an output in this tick. -/
def preOutputs (s : State) : List Nat := (List.range 4).filter (fun g => decide (s.prescale.getD g 1 ≤ 1))

/-- R295: the prescalers count one tick; a changed DIV acts from the next output. -/
def preCount (s : State) : State :=
  { s with prescale := (List.range 4).map (fun g =>
      let r := s.prescale.getD g 1
      if r ≤ 1 then s.get (0x40070000 + 4 * g) TMR_GPRE_DIV + 1 else r - 1) }

/-- R295: has the channel a counting edge in a tick whose prescaler outputs are `outs`? -/
def tmrCounts (outs : List Nat) (s : State) (n : Nat) : Bool :=
  !tmrHigh s n && tmrRun s n && (s.get (tmrP n) TMR_CTRL_CLK == 0 || outs.contains (n / 8))

/-- R295: the counting edges of one tick, in channel order; a high member counts with its low one. -/
def tmrTick (s : State) : State :=
  let outs := preOutputs s
  (preCount s).each (List.range 32) (fun s n =>
    if tmrHigh s n then s else if tmrCounts outs s n then tmrEdge s n else tmrNoEdge s n)

/-! ### Capture -/

/-- R300, R301, R308: a capture event of a running channel in capture mode. -/
def tmrCapture (s : State) (n : Nat) : State :=
  let p := tmrP n
  if !(tmrRun s n && tmrMode s n == 2) then s
  else
    let c := s.rd (p + 0xC)
    let hi := if tmrLow s n then s.rd (tmrP (n + 1) + 0xC) else 0
    let q := (s.tm n).queue
    let s := if q.length < 4 then
        (s.setTm n (fun t => { t with queue := t.queue ++ [(c, hi)] })).put p TMR_STAT_LEVEL (q.length + 1)
      else (s.put p TMR_STAT_OVF 1).satField p TMR_STAT_DROP
    -- R302: in the tick of the timeout the capture counts as in time
    let s := if (s.tm n).toDue then
        (s.setTm n (fun t => { t with toDue := false })).put p TMR_STAT_COINCIDENT 1
      else s
    let zero := s.flag p TMR_CTRL_CRST
    let s := s.setTm n (fun t => { t with armed := zero, capAt := some s.now })
    if zero then s.put p TMR_COUNT_COUNT 0 else s

/-- R302: the timeout of a channel that no capture met. -/
def tmrTimeout (s : State) (n : Nat) : State :=
  if (s.tm n).toDue then
    raiseSrc ((s.setTm n (fun t => { t with toDue := false })).put (tmrP n) TMR_STAT_TO 1) (0x50 + n)
  else s

/-- The end of a tick: captures take COUNT, then timeouts are raised (R300, R302, R303). -/
def tmrTickEnd (s : State) : State :=
  s.each (List.range 32) (fun s n =>
    let s := if (s.tm n).capDue then tmrCapture (s.setTm n (fun t => { t with capDue := false })) n else s
    tmrTimeout s n)

/-- R301, R308: a read of TMR_CAP by a Quill core or Signet removes the oldest entry. -/
def tmrCapRead (s : State) (src : Src) (n : Nat) : State :=
  match (s.tm n).queue with
  | [] => s
  | (_, hi) :: t =>
    if 4 < src.req then s
    else
      let s := (s.setTm n (fun k => { k with queue := t })).put (tmrP n) TMR_STAT_LEVEL t.length
      if tmrLow s n then s.wr (tmrP n + 0x24) hi else s

/-- R307: a read of a linked low member's TMR_COUNT copies both counts. -/
def tmrSnapshot (s : State) (n : Nat) : State :=
  if tmrLow s n then
    (s.wr (tmrP n + 0x1C) (s.rd (tmrP n + 0xC))).wr (tmrP n + 0x20) (s.rd (tmrP (n + 1) + 0xC))
  else s

/-! ### Commands -/

/-- R296, R303, R306: ruled START and STOP; discarded at EN = 0 and on a high member.  Whatever the order in which one
tick brings them, START acts first, STOP after it and the write of the tick last. -/
def tmrRuled (s : State) (n : Nat) (start : Bool) : State :=
  let t := s.tm n
  let wrote := t.wrote.filter (fun w => w.1 == s.now)
  let en := match wrote with | some w => w.2 | none => s.flag (tmrP n) TMR_CTRL_EN
  if !(decide (n < 32) && en && !tmrHigh s n) then s
  else if start then
    (if wrote.isSome || t.stopAt == some s.now then tmrPair tmrZero s n else tmrStart s n)
  else if wrote.isSome then s
  else (tmrStop s n).setTm n (fun t => { t with stopAt := some s.now })

/-- TIMER_RULE_START (R296). -/
def execTimerRuleStart (n : Nat) (s : State) : Answer :=
  s.on .tbase ((tmrRuled s n true).next)
/-- TIMER_RULE_STOP (R296). -/
def execTimerRuleStop (n : Nat) (s : State) : Answer :=
  s.on .tbase ((tmrRuled s n false).next)

/-- R300: does the channel take captures from the source `csrc`? -/
def tmrTakes (s : State) (n csrc : Nat) : Bool := decide (n < 32) && s.get (tmrP n) TMR_CTRL_CSRC == csrc

/-- R300, R303: a capture event; it takes COUNT when the tick ends. -/
def tmrCapMark (s : State) (n : Nat) : State := s.setTm n (fun t => { t with capDue := true })

/-- TIMER_CAPTURE_RULE (R300). -/
def execTimerCaptureRule (n : Nat) (s : State) : Answer :=
  s.on .tbase ((s.when (tmrTakes s n 0) (fun s => tmrCapMark s n)).next)

/-- TIMER_CAPTURE_EDGE (R300, R588): an edge of the timer terminal that TERM assigns, of the kind CEDGE selects. -/
def execTimerCaptureEdge (n : Nat) (rising : Bool) (s : State) : Answer := s.on .tbase <|
  let e := s.get (tmrP n) TMR_CTRL_CEDGE
  (s.when (tmrTakes s n 1 && termFunc s (241 + n) (16 + n) && (e == 2 || (e == 0) == rising)) (fun s => tmrCapMark s n)).next

/-- R297, R305: does the channel's counting edge of the next tick end its period, or make COUNT equal to CMP? -/
def tmrPerNext (s : State) (n : Nat) : Bool := decide (n < 32) && tmrCounts (preOutputs s) s n && tmrEnds s n
def tmrMeets (s : State) (n : Nat) : Bool :=
  tmrMode s n != 2 && (if tmrEnds s n then 0 else s.get (tmrP n) TMR_COUNT_COUNT + 1) == s.get (tmrP n) TMR_CMP_CMP
def tmrCmpNext (s : State) (n : Nat) : Bool :=
  decide (n < 32) && tmrCounts (preOutputs s) s n && tmrMeets s n

/-- The same of either member of a pair (R305): a high member counts in the tick that ends its low member's period. -/
def tmrNext (own : State → Nat → Bool) (hi : State → Nat → Bool) (s : State) (n : Nat) : Bool :=
  if tmrHigh s n then tmrPerNext s (n - 1) && tmrRun s n && hi s n else own s n

/-! ### What writes do -/

/-- R304: TMR_GO: the prescalers of the marked channels with CLK = 1 restart, then every marked channel starts; a high
member's bit is ignored. -/
def tmrGo (s : State) (mask : Word) : State :=
  let ns := (onesBelow mask 32).filter (fun n => !tmrHigh s n)
  let gs := (ns.filter (fun n => s.get (tmrP n) TMR_CTRL_CLK == 1)).map (fun n => n / 8)
  let s := { s with prescale := (List.range 4).map (fun g =>
    if gs.contains g then s.get (0x40070000 + 4 * g) TMR_GPRE_DIV + 1 else s.prescale.getD g 1) }
  s.each ns (fun s n => tmrWrote (tmrStart s n) n true)

/-- R296: TMR_CMD. -/
def tmrCmdWritten (s : State) (n op : Nat) : State :=
  match op with
  | 1 => tmrWrote (tmrStart s n) n (s.flag (tmrP n) TMR_CTRL_EN)
  | 2 => tmrWrote (tmrStop s n) n (s.flag (tmrP n) TMR_CTRL_EN)
  | _ => s

/-- R307, R308: the pair registers read 0 except on the low member of a linked pair. -/
def tmrUnlinked (s : State) (n : Nat) : State :=
  s.when (!tmrLow s n) (fun s => ((s.wr (tmrP n + 0x1C) 0).wr (tmrP n + 0x20) 0).wr (tmrP n + 0x24) 0)

/-- R296: a write of TMR_CTRL. -/
def tmrCtrlWritten (s : State) (n : Nat) (old : Word) : State :=
  let en := s.flag (tmrP n) TMR_CTRL_EN
  let was := bitAt old 35
  let s := if !was && en && s.flag (tmrP n) TMR_CTRL_AUTO && !tmrHigh s n then tmrWrote (tmrStart s n) n was
    else if was && !en then tmrWrote (tmrStop s n) n was
    else s.when (was != en) (fun s => tmrWrote s n was)
  tmrUnlinked (tmrIdleOut s n) n

/-- R301: clearing OVF clears DROP. -/
def tmrStatWritten (s : State) (n : Nat) : State :=
  if s.flag (tmrP n) TMR_STAT_OVF then s else s.put (tmrP n) TMR_STAT_DROP 0

end Sys2Proof.Machine
end

