-- ==== Sys2Proof/Machine/Ruling.lean ====
section
/-! DEFINITION. The ruling fabric's deliveries (R310–R317). -/

namespace Sys2Proof.Machine

def ruleB : Nat := 0x40060000

/-- R310: the destinations of a line, in folio order. -/
def lineDsts (s : State) (l : Nat) : List Nat :=
  ((List.range 512).filter (fun k => s.flag (ruleB + 4 * k) RULE_ROUTE_VALID && s.get (ruleB + 4 * k) RULE_ROUTE_LINE == l)).map
    (fun k => s.get (ruleB + 4 * k) RULE_ROUTE_DST)

/-- R313: the island of a destination. -/
def dstIsland (d : Nat) : Island :=
  if d < 0x190 then .tbase else if d < 0x1D0 then .power else .light

/-- R313: what a pulse does at a destination; a ruled capture takes COUNT when the tick ends (R300). -/
def ruleAct (s : State) (d : Nat) : State :=
  if 0x10 ≤ d ∧ d < 0x30 then tmrRuled s (d - 0x10) true
  else if 0x30 ≤ d ∧ d < 0x50 then tmrRuled s (d - 0x30) false
  else if 0x50 ≤ d ∧ d < 0x70 then
    s.when (tmrTakes s (d - 0x50) 0) (fun s => tmrCapMark s (d - 0x50))
  else if d = 0x180 then adPulse s
  else if 0x190 ≤ d ∧ d < 0x1A0 then stkRuleFire s (d - 0x190)
  else if 0x1A0 ≤ d ∧ d < 0x1B0 then stkRuleRelease s (d - 0x1A0)
  else if 0x1B0 ≤ d ∧ d < 0x1B6 then wiperStart s (d - 0x1B0)
  else if d = 0x1D0 then
    (if s.flag lch LCH_CTRL_EN then chainRequest (s.put lch LCH_CTRL_GO 1) else s)
  else if d = 0x1D1 then s.put lgt LGT_MXCTRL_SWAP 1
  else s

/-- R303: the order in which the pulses of one tick act: STOP after START, the rest after them. -/
def dstRank (d : Nat) : Nat := if 0x10 ≤ d ∧ d < 0x30 then 0 else if 0x30 ≤ d ∧ d < 0x50 then 1 else 2

/-- R311, R314, R316: events delivered: PEND, then each destination; one whose island is not ready sets LOSTF. -/
def deliver (s : State) (ls : List Nat) : State :=
  let s := s.each ls (fun s l =>
    (s.setBit (ruleB + 4 + 4 * (l / 32)) (l % 32) true).mark (ruleB + 4 + 4 * (l / 32)) (maskOf (l % 32) (l % 32)))
  let all := ls.flatMap (fun l => (lineDsts s l).map (fun d => (l, d)))
  s.each [0, 1, 2] (fun s r =>
    s.each (all.filter (fun p => dstRank p.2 == r)) (fun s p =>
      if s.ready (dstIsland p.2) then ruleAct s p.2 else s.put (ruleB + 4 * p.1) RULE_LINE_LOSTF 1))

/-- The events in flight whose tick is reached; the muted ones reach nothing (R314). -/
def deliverDue (s : State) (sel : Flight → Bool) : State :=
  let due := s.flights.filter (fun e => s.reached e.tick && sel e)
  let s := { s with flights := s.flights.filter (fun e => !(s.reached e.tick && sel e)) }
  deliver s ((due.filter (fun e => !e.muted)).map (·.line))

/-- RULE_EVENT (R310, R314): a source raises its event: a pulse, or a level's change. -/
def execRuleEvent (code : Nat) (rising : Bool) (s : State) : Answer := s.on .tbase <|
  (if (0x70 ≤ code ∧ code < 0x90) ∨ (0x188 ≤ code ∧ code < 0x190) then raiseLevel s code rising else raiseSrc s code).next


/-- R315: a write of LINE to RULE_SWP. -/
def ruleSwp (s : State) (w : Word) : State := raiseLine s (bitsOf w 35 29)

/-- R314: a change of MUTE acts on the events stamped from the tick of the write. -/
def ruleMuted (s : State) : State :=
  { s with flights := s.flights.map (fun e =>
      if e.tick == s.after 2 then
        { e with muted := bitAt (s.rd (ruleB + 0x24 + 4 * (e.line / 32))) (e.line % 32) }
      else e) }

end Sys2Proof.Machine
end

