-- ==== Sys2Proof/Machine/MiscRegs.lean ====
section
/-! DEFINITION. Writes to the timebase island: timers, the ruling fabric and the inputs (chapters 9 and 10). -/

namespace Sys2Proof.Machine

/-! ### Timers -/

def tmrEn (s : State) (n : Nat) : Bool := s.flag (tmrP n) TMR_CTRL_EN

/-- The checks of a timer channel's page (R296, R305, R306). -/
def tmrChk (n o : Nat) (s : State) (w : Word) : Fails :=
  if o = 0 then
    let link := TMR_CTRL_LINK.of w == 1
    let partner := if n % 2 = 0 then n + 1 else n - 1
    failAt (n % 2 == 0 && link != s.flag (tmrP n) TMR_CTRL_LINK && (tmrEn s n || tmrEn s partner)) 8 0x01
    ++ failAt (n % 2 == 1 && link) 11 0x02
    ++ failAt (n % 2 == 0 && link && tmrMode s (n + 1) == 2) 11 0x02
    ++ failAt (tmrHigh s n && TMR_CTRL_MODE.of w == 2) 11 0x02
  else if o = 0x10 then
    failAt (TMR_CMD_OP.of w == 1 && !tmrEn s n) 12 0x10 ++ failAt (tmrHigh s n) 12 0x11
  else []

/-- What an accepted write to a timer channel's page does. -/
def tmrWritten (n o : Nat) (s : State) (old w : Word) : State :=
  if o = 0 then tmrCtrlWritten s n old
  else if o = 0x10 then
    tmrCmdWritten s n (TMR_CMD_OP.of w)
  else if o = 0x14 then tmrStatWritten s n
  else s

/-- The checks of the block's own registers, and what an accepted write does (R304). -/
def tmrGoChk (o : Nat) (s : State) (w : Word) : Fails :=
  if o = 0 then failAt ((onesBelow w 32).any (fun n => !tmrHigh s n && !tmrEn s n)) 12 0x10 else []
def tmrGoWritten (o : Nat) (s : State) (_ w : Word) : State := if o = 0 then tmrGo s w else s

/-- A write to TMR. -/
def tmrWrite (r : WriteReq) (s : State) : State :=
  if r.off < 0x100 then blockWrite r (tmrGoChk r.off) false (tmrGoWritten r.off) noRej s
  else
    let n := (r.off - 0x100) / 0x40
    let o := (r.off - 0x100) % 0x40
    blockWrite r (tmrChk n o) (tmrEn s n) (tmrWritten n o) noRej s

/-! ### The ruling fabric -/

/-- The checks of RULE, and what an accepted write does (R314, R315). -/
def ruleChk (o : Nat) (s : State) (w : Word) : Fails :=
  if o = 0 then failAt (!lineRouted s (RULE_SWP_LINE.of w)) 12 0x10 else []
def ruleWritten (o : Nat) (s : State) (_ w : Word) : State :=
  if o = 0 then ruleSwp s w else if 0x24 ≤ o && o < 0x34 then ruleMuted s else s

/-- A write to RULE. -/
def ruleWrite (r : WriteReq) (s : State) : State := blockWrite r (ruleChk r.off) false (ruleWritten r.off) noRej s

/-! ### Inputs and the converter -/

/-- R292: an entry of the first NSEQ that names an unused analogue input. -/
def seqUnused (s : State) (nseq : Nat) : Bool :=
  (List.range (min 16 nseq)).any (fun k =>
    !s.flag (inpI (bitsOf (s.rd (inpB + 0x208 + 4 * (k / 8))) (4 * (k % 8) + 3) (4 * (k % 8)))) INP_ACFG_USE)

/-- The checks of INP (R292). -/
def inpChk (o : Nat) (s : State) (w : Word) : Fails :=
  if 0x100 ≤ o && o < 0x200 then
    let p := inpB + (o - 0x100)
    failAt (!s.flag p INP_ICFG_USE) 5 0x07
    ++ failAt (INP_ICFG_WAKE.of w == 1 && !(s.flag p INP_ICFG_WAKE_OK && s.flag p INP_ICFG_PULSED)) 12 0x10
  else if o = 0x200 then
    failAt (bitAt w 35 && seqUnused s (INP_ADCTRL_NSEQ.of w)) 12 0x11
  else if 0x280 ≤ o && o < 0x2C0 then
    let n := (o - 0x280) / 4
    let p := inpB + 4 * n
    failAt (!s.flag p INP_ACFG_USE) 5 0x07
    ++ failAt (decide (8 ≤ n) && bitsOf w 31 16 != 0) 11 0x02
    ++ failAt (INP_ACFG_CEN.of w == 1 && !s.flag p INP_ACFG_CMP_OK) 12 0x10
  else []

/-- The governing enable of a register of INP (R293). -/
def inpLocked (o : Nat) (s : State) : Bool :=
  if 0x100 ≤ o && o < 0x200 then s.flag (inpB + (o - 0x100)) INP_ICFG_ON
  else if 0x200 ≤ o && o < 0x210 then s.flag inpB INP_ADCTRL_EN
  else false

/-- What an accepted write to INP does (R281, R282, R289). -/
def inpWritten (o : Nat) (s : State) (old w : Word) : State :=
  if o = 0xC || o = 0x10 then inpEdgeWritten s
  else if 0x100 ≤ o && o < 0x200 then
    inpOnWritten s ((o - 0x100) / 4) (INP_ICFG_ON.of old == 1) (INP_ICFG_ON.of w == 1)
  else if o = 0x200 then
    if bitAt w 35 && !bitAt old 35 then adEnable s else if !bitAt w 35 && bitAt old 35 then adDisable s else s
  else s

/-- A write to INP. -/
def inpWrite (r : WriteReq) (s : State) : State := blockWrite r (inpChk r.off) (inpLocked r.off s) (inpWritten r.off) noRej s

end Sys2Proof.Machine
end

