-- ==== Sys2Proof/Machine/Vault.lean ====
section
/-! DEFINITION. The vault: life-cycle, key slots, Signet calls, CRYPT jobs and the tamper line (chapter 15). -/

namespace Sys2Proof.Machine

/-- The call page of core `c` (R413). -/
def cstatP (c : Nat) : Nat := vaultB + 0x800 + 0x20 * c

/-! ### CRYPT jobs (R415–R418) -/

def cryptBusy (s : State) : Bool := s.flag cryptB CRYPT_STAT_BUSY
def cryptSlot (s : State) : Nat := s.get cryptB CRYPT_JOB_SLOT
/-- The slot serves the running job. -/
def jobUses (s : State) (n : Nat) : Bool := cryptBusy s && cryptSlot s == n

def cryptIv (s : State) : List Nat := (List.range 3).flatMap (fun i => natOctets 4 (s.get cryptB (CRYPT_IV_IV.at i)))
def cryptTag (s : State) : List Nat := (List.range 4).flatMap (fun i => natOctets 4 (s.get cryptB (CRYPT_TAG_TAG.at i)))
def putTag (s : State) (os : List Nat) : State :=
  s.each (List.range 4) (fun s i => s.put cryptB (CRYPT_TAG_TAG.at i) (octetsNat ((os.drop (4 * i)).take 4)))

/-- R417: the job's additional data and payload. -/
def cryptAad (s : State) : List Nat := s.octets (s.get cryptB CRYPT_SRC_ADDR) (s.get cryptB CRYPT_LEN_ALEN)
def cryptPay (s : State) : List Nat :=
  s.octets (s.get cryptB CRYPT_SRC_ADDR + s.get cryptB CRYPT_LEN_ALEN) (s.get cryptB CRYPT_LEN_LEN)

/-- Octets as output nibs: R6 gives bits 7:0, and no rule the mark of CRYPT's output (log entry 14). -/
def openMarks (s : State) (os : List Nat) : List Nib :=
  os.zipIdx.map (fun p => BitVec.ofNat 9 ((if Config.freeBool (s.fresh + p.2) then 256 else 0) + p.1 % 256))

/-- Output octets written from DST on. -/
def cryptOut (s : State) (os : List Nat) : State :=
  let ns := openMarks s os
  (({ s with fresh := s.fresh + os.length } : State)).dmaPut (s.get cryptB CRYPT_DST_ADDR) ns

/-- E0's output stream under a key (R417). -/
def cryptStream (s : State) (key : List Nat) : List Nat := gcmCtr key (cryptIv s) (cryptPay s)

/-- R418: the running job stops: an open-length part of its output stands, ABORT is set. -/
def cryptAbort (s : State) : State :=
  let s := if s.get cryptB CRYPT_JOB_ENG = 0 then
      let os := cryptStream s (slotKey1 s (cryptSlot s))
      cryptOut s.drawn (os.take (s.free.toNat % (os.length + 1)))
    else s
  (s.put cryptB CRYPT_STAT_BUSY 0).put cryptB CRYPT_STAT_ABORT 1

/-- The job has ended. -/
def cryptEnd (s : State) : State := (s.put cryptB CRYPT_STAT_BUSY 0).put cryptB CRYPT_STAT_DONE 1

/-- R417: E0 completes. -/
def cryptGcm (s : State) (key : List Nat) : State :=
  let pay := cryptPay s
  let out := cryptStream s key
  let tag (ct : List Nat) := gcmTag key (cryptIv s) (cryptAad s) ct (8 * (cryptAad s).length) (8 * ct.length)
  if s.get cryptB CRYPT_JOB_OP = 0 then cryptOut (putTag s (tag out)) out
  else if tag pay == cryptTag s then cryptOut s out
  else (s.dmaPut (s.get cryptB CRYPT_DST_ADDR) (List.replicate pay.length 0)).put cryptB CRYPT_STAT_AUTHF 1

/-- R417: E1 completes; past TLEN octets CRYPT_TAG is open. -/
def cryptMac (s : State) (key : List Nat) : State :=
  let n := s.get cryptB CRYPT_JOB_TLEN
  let mac := cmac key (cryptAad s ++ cryptPay s)
  if s.get cryptB CRYPT_JOB_OP = 2 then
    let tail := (List.range (16 - n)).map (fun i => (Config.freeWord (s.fresh + i)).toNat % 256)
    putTag { s with fresh := s.fresh + (16 - n) } (mac.take n ++ tail)
  else if mac.take n == (cryptTag s).take n then s else s.put cryptB CRYPT_STAT_AUTHF 1

/-- CRYPT_JOB_DONE (R417). -/
def execCryptJobDone (s : State) : Answer := s.on .signet <|
  (s.when (cryptBusy s) (fun s =>
    let key := slotKey1 s (cryptSlot s)
    cryptEnd (if s.get cryptB CRYPT_JOB_ENG = 0 then cryptGcm s key else cryptMac s key))).next

/-- R417: `n` nibs from `a` lie wholly in Inkwell or in Signet private memory. -/
def cryptArea (a n : Nat) : Bool :=
  n == 0 || (decide (0x02000000 ≤ a) && decide (a + n ≤ 0x02280000)) || (decide (0x03000000 ≤ a) && decide (a + n ≤ 0x03040000))

/-- The checks of CRYPT (R416, R417). -/
def cryptChk (r : WriteReq) (s : State) (w : Word) : Fails :=
  failAt (r.src.world != .seal) 2 0x04 ++
  (if r.off = 0 && CRYPT_JOB_GO.of w = 1 then
    let e := CRYPT_JOB_ENG.of w
    let o := CRYPT_JOB_OP.of w
    let v := CRYPT_JOB_WORLD.of w
    let c := CRYPT_JOB_CORE.of w
    let len := s.get cryptB CRYPT_LEN_LEN
    failAt (cryptBusy s) 4 0x06
    ++ failAt (!(decide (e ≤ 5) && decide (v ≤ 2) && slotAllows s (CRYPT_JOB_SLOT.of w) e v (lcState s))) 10 0x09
    ++ failAt (!((e == 0 && decide (o ≤ 1)) || (e == 1 && (o == 2 || o == 3)))) 11 0x02
    ++ failAt (!cryptArea (s.get cryptB CRYPT_SRC_ADDR) (s.get cryptB CRYPT_LEN_ALEN + len)) 11 0x02
    ++ failAt (e == 0 && !cryptArea (s.get cryptB CRYPT_DST_ADDR) len) 11 0x02
    ++ failAt (v != 2 && !(s.flag (cstatP c) VAULT_CSTAT_PEND && s.get (cstatP c) VAULT_CSTAT_WORLD == v)) 12 0x04
  else [])

/-- What an accepted write does: GO starts the job at once. -/
def cryptWritten (o : Nat) (s : State) (_ w : Word) : State :=
  if o = 0 && CRYPT_JOB_GO.of w = 1 then (s.put cryptB CRYPT_JOB_GO 0).put cryptB CRYPT_STAT_BUSY 1 else s

/-- A write to CRYPT. -/
def cryptWrite (r : WriteReq) (s : State) : State := blockWrite r (cryptChk r) (cryptBusy s) (cryptWritten r.off) noRej s

/-! ### Slots (R403, R410–R412) -/

/-- A vault command has ended, with an error code or (0) without. -/
def vaultDone (s : State) (err : Nat) : State :=
  let s := (s.put vaultB VAULT_KSTAT_BUSY 0).put vaultB VAULT_KSTAT_DONE 1
  if err = 0 then s else s.put vaultB VAULT_KSTAT_ERR err

/-- R411, R418, R427: a slot is zeroed; a job on it stops, and the access unit loses a key of its own. -/
def clearSlot (s : State) (n : Nat) : State :=
  let s := s.when (jobUses s n) cryptAbort
  let used := bitAt (slotReg s n) 35
  let s := setVault (s.wr (vaultB + 0x400 + 4 * n) 0) (fun v => { v with keys := v.keys.set n [] })
  s.when (used && accUses s n) accKeyLost

/-- A load in progress ends without a key (log entry 15). -/
def dropLoad (s : State) (code : Nat) : State :=
  match s.vault.load with
  | none => s
  | some _ => vaultDone (setVault s (fun v => { v with load := none })) code

/-- Every slot cleared (R420, R421, R423). -/
def clearSlots (s : State) (code : Nat) : State := s.each (List.range 32) (fun s n => dropLoad (clearSlot s n) code)

/-- Does KPOL's LIFE mask of a node hold state `l` (R74)? -/
def nodeLife (e : List Word) (l : Nat) : Bool := bitAt (e.getD 2 0) (32 - l)

/-- R403, R418: the life-cycle state becomes `st`: a running job stops, and slots whose LIFE lacks it are cleared. -/
def setLc (s : State) (st : Nat) : State :=
  let s := s.when (cryptBusy s && lcState s != st) cryptAbort
  let s := setVault (s.put vaultB VAULT_LC_STATE st) (fun v => { v with lc := if st = 3 then 2 else st })
  let s := s.when (st != 3) (fun s => setVault (s.put vaultB VAULT_LC_SVCLEFT 0) (fun v => { v with svcMin := none }))
  let s := s.each (List.range 32) (fun s n =>
    let r := slotReg s n
    s.when (bitAt r 35 && !bitAt r (20 - st)) (fun s => clearSlot s n))
  match s.vault.load with
  | some (_, node) => (match kpolNode s node with
    | some e => if nodeLife e st then s else dropLoad s 0x05
    | none => dropLoad s 0x07)
  | none => s

/-- A slot's register for a KPOL entry (R410). -/
def slotAttrs (e : List Word) : Word :=
  let w2 := e.getD 2 0
  setBits (setBits (setBits (setBits (setBits (setBits (setBits 0 35 35 1) 34 27 (entBits e 0 35 28)) 26 24 (entBits e 0 19 17))
    23 21 (bitsOf w2 35 33)) 20 15 (bitsOf w2 32 27)) 14 9 (bitsOf w2 26 21)) 8 8 (bitsOf w2 20 20)

/-- KEY_LOAD_DONE (R410): the node's key and attributes stand in the slot; a job that has begun on the key held there stops
(R418), and the access unit loses it to another node's (R427). -/
def execKeyLoadDone (s : State) : Answer := s.on .signet <|
  (match s.vault.load with
  | none => s
  | some (n, node) =>
    match kpolNode s node with
    | none => dropLoad s 0x07
    | some e =>
      let s := s.when (jobUses s n) cryptAbort
      let other := bitAt (slotReg s n) 35 && bitsOf (slotReg s n) 34 27 != node
      let s := s.when (other && accUses s n) accKeyLost
      let s := fillSlot s n (nodeKey s 8 node) (slotAttrs e)
      vaultDone (setVault s (fun v => { v with load := none })) 0).next

/-! ### Commands (R402–R405, R409–R411) -/

/-- R402: does some row permit the command from state `st`?  NEWCHAL is no row of the table (R404). -/
def lcPermits (s : State) (st op : Nat) : Bool :=
  let own := s.flag vaultB VAULT_LC_OWNERSET
  match op with
  | 1 => st == 0
  | 2 => st == 1 && !own
  | 3 => st == 1 && own
  | 4 => true
  | 5 => st == 2
  | 6 => st == 3
  | 7 => st == 2 || st == 3
  | 8 => st != 5
  | _ => true

/-- R404: a challenge is valid, in its last tick too. -/
def chalValid (s : State) : Bool :=
  match s.vault.chalEnd with | none => false | some t => t == s.now || !s.reached t

/-- The checks of VAULT (its access paragraph, R402, R404, R409, R410, R413, R422). -/
def vaultChk (r : WriteReq) (s : State) (w : Word) : Fails :=
  let o := r.off
  let st := lcState s
  failAt (r.src.world == .trust && !(o == 4 || (decide (0x100 ≤ o) && decide (o < 0x180)))) 2 0x04 ++
  (if o = 4 then
    let op := VAULT_LCCMD_OP.of w
    let dur := VAULT_LCCMD_DUR.of w
    failAt (st == 5 && op != 4) 3 0x05 ++ failAt (s.flag vaultB VAULT_KSTAT_BUSY) 4 0x06
    ++ failAt (if op = 5 then decide (dur = 0 ∨ 240 < dur) else dur != 0) 11 0x02
    ++ failAt (!lcPermits s st op) 12 0x11 ++ failAt ((op == 5 || op == 7) && !chalValid s) 12 0x13
  else if o = 8 then
    let op := VAULT_KCMD_OP.of w
    let n := VAULT_KCMD_SLOT.of w
    failAt (st == 5 && op == 1) 3 0x05 ++ failAt (s.flag vaultB VAULT_KSTAT_BUSY) 4 0x06 ++ failAt (n == 31) 12 0x15 ++
    (if op = 1 then
      match kpolNode s (VAULT_KCMD_NODE.of w) with
      | none => [(12, 0x07)]
      | some e => failAt (!s.vault.root) 12 0x10 ++ failAt (!s.flag vaultB VAULT_LC_RSVOK) 12 0x14
        ++ failAt (!nodeLife e st) 12 0x05 ++ failAt (jobUses s n) 12 0x06
    else [])
  else if 0x800 ≤ o && o < 0x880 && (o - 0x800) % 0x20 == 0x18 then
    failAt (!s.flag (cstatP ((o - 0x800) / 0x20)) VAULT_CSTAT_PEND) 12 0x16
  else [])

/-- R405: does the response prove the owner for OP and DUR? -/
def ownerProof (s : State) (op dur : Nat) : Bool :=
  let resp (i : Nat) : List Nat := (List.range 8).flatMap (fun k => natOctets 4 (s.get vaultB (VAULT_RESP_RESP.at (8 * i + k))))
  let owner := (List.range 8).flatMap (fun k => natOctets 4 (s.get vaultB (VAULT_OWNER_HASH.at k)))
  let chal := (List.range 4).flatMap (fun k => natOctets 4 (s.get vaultB (VAULT_CHAL_CHAL.at k)))
  sha256 (resp 0 ++ resp 1) == owner &&
    ecdsaVerify (octetsNat (resp 0)) (octetsNat (resp 1)) (octetsNat (resp 2)) (octetsNat (resp 3))
      (chal ++ wordOctets Config.uid ++ [op, dur])

/-! ### The tamper line (R419–R422) -/

/-- Sources by their bit of VAULT_TAMPER.CAUSE: 5 MESH, 4 SUPPLY, 3 CLOCK, 2 TEMP, 1 PIN, 0 SOFT. -/
def tamperArmed (s : State) (t : Nat) : Bool :=
  if t = 0 then true
  else match lcState s with
    | 0 | 1 => (s.get vaultB VAULT_TMPCFG_ARM).testBit (t - 1)
    | 2 | 3 => true
    | 4 => t != 5
    | _ => false

/-- R421, steps 1 to 3: every key is zeroed, every engine stops, the cause is recorded, VOID is held, Signet halts. -/
def tamper (s : State) (t : Nat) : State :=
  let s := clearSlots s 0x05
  let s := setVault s (fun v => { v with root := false, cells := false, verify := none, chalEnd := none, erasing := true })
  let s := setAcc s (fun a => { a with fkey := none, set := none, learn := none })
  let s := { s with upd := { s.upd with dkReg := none } }
  let s := s.put vaultB VAULT_KSTAT_BUSY 0
  let s := s.put vaultB VAULT_TAMPER_CAUSE (s.get vaultB VAULT_TAMPER_CAUSE ||| 2 ^ t)
  let s := s.put vaultB VAULT_TTIME_SEC (s.get Blk.aon.base AON_RTCSEC_SEC)
  let s := haltCore (setLc s 5) 4
  updateGact (s.put safeB SAFE_STAT_TAMP 1)

/-- TAMPER_DETECT (R419, R421): an armed source but SOFT, which the VOID command is. -/
def execTamperDetect (t : Fin 6) (s : State) : Answer :=
  (s.when (t != 0 && tamperArmed s t.val && lcState s != 5) (fun s => tamper s t.val)).next

/-- TAMPER_ERASE_DONE (R421, steps 4 and 5): Signet private memory is clear, and a WARM reset is due 100 µs later. -/
def execTamperEraseDone (s : State) : Answer :=
  (s.when s.vault.erasing (fun s =>
    { setVault (signetMemClear s) (fun v => { v with erasing := false, warmAt := s.after (us 100) }) with
      warmDue := some .tamper })).next

/-- RESERVOIR_CHARGED (R420). -/
def execReservoirCharged (s : State) : Answer := (s.put vaultB VAULT_LC_RSVOK 1).next

/-- RESERVOIR_LOW (R420). -/
def execReservoirLow (s : State) : Answer := (clearSlots (s.put vaultB VAULT_LC_RSVOK 0) 0x14).next

/-- An accepted VAULT_LCCMD (R402, R404, R405). -/
def lcCommand (s : State) (src : Src) (op dur : Nat) : State :=
  match op with
  | 1 => vaultDone (setLc (setVault s (fun v => { v with root := true, cells := true })) 1) 0
  | 2 =>
    let s := s.each (List.range 8) (fun s k =>
      s.put vaultB (VAULT_OWNER_HASH.at k) (s.get vaultB (VAULT_OWNSTG_HASH.at k)))
    vaultDone (s.put vaultB VAULT_LC_OWNERSET 1) 0
  | 3 => vaultDone (setLc s 2) 0
  | 4 =>
    let x := (Config.random128 s.fresh).toNat
    let s := s.drawn.each (List.range 4) (fun s k => s.put vaultB (VAULT_CHAL_CHAL.at k) (x / 2 ^ (32 * (3 - k)) % 2 ^ 32))
    vaultDone (setVault s (fun v => { v with chalEnd := some (s.after (sec 60)) })) 0
  | 6 => vaultDone (setLc s 2) 0
  | 8 => vaultDone (tamper s 0) 0
  | _ =>
    let ok := ownerProof s op dur
    setVault (s.put vaultB VAULT_KSTAT_BUSY 1) (fun v => { v with verify := some (op, dur, ok, src), chalEnd := none })

/-- LC_SIGNATURE_VERIFIED (R405): the command is carried out, or rejected with SIG_FAIL. -/
def execLcSignatureVerified (s : State) : Answer := s.on .signet <|
  (match s.vault.verify with
  | none => s
  | some (op, dur, ok, src) =>
    let s := setVault s (fun v => { v with verify := none })
    if !ok then vaultDone (s.reject .vault src 4 0x12) 0x12
    else if op = 5 then
      let s := (setLc s 3).put vaultB VAULT_LC_SVCLEFT dur
      vaultDone (setVault s (fun v => { v with svcMin := some (s.after (sec 60)) })) 0
    else vaultDone (setLc s 4) 0).next

/-- R404: the challenge's 60 s have passed. -/
def chalServe (s : State) : State := s.when (s.due s.vault.chalEnd) (fun s => setVault s (fun v => { v with chalEnd := none }))

/-- CHALLENGE_EXPIRY (R404): a command in the very tick is in time (R40). -/
def execChallengeExpiry (s : State) : Answer := s.on .signet ((s.expire s.vault.chalEnd .challengeExpiry chalServe).next)

/-- The last minute of SERVICE has passed (R402). -/
def serviceOver (s : State) : Bool :=
  lcState s == 3 && s.due s.vault.svcMin && decide (s.get vaultB VAULT_LC_SVCLEFT ≤ 1)

/-- SERVICE_TIME_END (R402, R403). -/
def execServiceTimeEnd (s : State) : Answer := (s.when (serviceOver s) (fun s => setLc s 2)).next

/-- A minute of SERVICE that is not its last passes. -/
def serviceTick (s : State) : State :=
  if lcState s == 3 && s.due s.vault.svcMin && decide (1 < s.get vaultB VAULT_LC_SVCLEFT) then
    setVault (s.put vaultB VAULT_LC_SVCLEFT (s.get vaultB VAULT_LC_SVCLEFT - 1))
      (fun v => { v with svcMin := v.svcMin.map (· + BitVec.ofNat 36 (sec 60)) })
  else s

/-- An accepted VAULT_KCMD (R410, R411). -/
def keyCommand (s : State) (w : Word) : State :=
  let n := VAULT_KCMD_SLOT.of w
  match VAULT_KCMD_OP.of w with
  | 1 => setVault (s.put vaultB VAULT_KSTAT_BUSY 1) (fun v => { v with load := some (n, VAULT_KCMD_NODE.of w) })
  | 2 => vaultDone (clearSlot s n) 0
  | _ =>
    let m := setBits (setBits (setBits (setBits (maskOf 35 24) 23 21 (VAULT_KCMD_WORLD.of w)) 20 15 (VAULT_KCMD_LIFE.of w)) 14 9
      (VAULT_KCMD_ENG.of w)) 8 8 (VAULT_KCMD_DERIVE.of w)
    vaultDone (s.wr (vaultB + 0x400 + 4 * n) (slotReg s n &&& m)) 0

/-! ### Signet calls (R413, R414) -/

/-- The outcome of core `c`'s call: delivered, or held while a handler runs over the wait (R477). -/
def sealAnswer (s : State) (c : Nat) (w : Word) (z : Bool) : State :=
  let k := s.core c
  if k.sealing then sealDeliver s c w z
  else if k.sealHeld.head? == some none then s.setCore c (fun k => { k with sealHeld := some (w, z) :: k.sealHeld.tail })
  else s

/-- The tick in which core `c`'s call expires. -/
def callEnd (s : State) (c : Nat) : Word := s.vault.callAt.getD c 0 + BitVec.ofNat 36 (ms (s.get vaultB VAULT_CALLTO_TO))

/-- R413: an accepted RSTAT write. -/
def sealReply (s : State) (c : Nat) : State :=
  let p := cstatP c
  let s := s.put p VAULT_CSTAT_PEND 0
  let s := s.when (callEnd s c == s.now) (fun s => s.put p VAULT_CSTAT_COINCIDENT 1)
  sealAnswer s c (s.rd (p + 0x14)) (s.get p VAULT_RSTAT_CODE == 0)

/-- R413: a caller without an answer is released with w1 = 0x10 and Z = 0. -/
def callServe (c : Nat) (s : State) : State :=
  let k := s.core c
  s.when ((k.sealing || k.sealHeld.head? == some none) && s.reached (callEnd s c)) (fun s =>
    sealAnswer ((s.put (cstatP c) VAULT_CSTAT_PEND 0).put (cstatP c) VAULT_CSTAT_TOUT 1) c 0x10 false)

/-- SEAL_CALL_TIMEOUT (R413): a reply in the very tick is in time (R40). -/
def execSealCallTimeout (c : Fin 4) (s : State) : Answer :=
  s.on .signet ((s.expire (some (callEnd s c.val)) (.sealCallTimeout c) (callServe c.val)).next)

/-- R414: the calls of reset cores are abandoned. -/
def abandonCalls (s : State) (cs : List Nat) : State :=
  s.each cs (fun s c => s.when (s.flag (cstatP c) VAULT_CSTAT_PEND) (fun s =>
    (s.put (cstatP c) VAULT_CSTAT_PEND 0).put (cstatP c) VAULT_CSTAT_ABANDONED 1))

/-! ### Writes and resets (R423) -/

/-- What an accepted write does. -/
def vaultWritten (r : WriteReq) (s : State) (_ w : Word) : State :=
  let o := r.off
  if o = 4 then lcCommand s r.src (VAULT_LCCMD_OP.of w) (VAULT_LCCMD_DUR.of w)
  else if o = 8 then keyCommand s w
  else if 0x800 ≤ o && o < 0x880 && (o - 0x800) % 0x20 == 0x18 then sealReply s ((o - 0x800) / 0x20)
  else s

/-- A write to VAULT. -/
def vaultWrite (r : WriteReq) (s : State) : State :=
  blockWrite r (vaultChk r) false (vaultWritten r)
    (fun s code => if r.off = 4 || r.off = 8 then s.put vaultB VAULT_KSTAT_ERR code else s) s

/-- CRYPT and the call pages at their reset values; commands in progress end. -/
def vaultPages (s : State) : State :=
  let s := s.resetBlk .crypt
  let s := s.resetRange (vaultB + 4) (vaultB + 0x20)
  let s := s.resetRange (vaultB + 0x2C) (vaultB + 0x240)
  let s := s.resetRange (vaultB + 0x800) (vaultB + 0x880)
  setVault s (fun v => { v with chalEnd := none, verify := none, load := none })

/-- R423 at a reset of the Signet island (POR, WARM, CAPPED exit): slots cleared, root lost until S4, pages at their
reset values with pending calls abandoned; at a power-on reset SERVICE becomes FIELD and the reservoir is uncharged. -/
def vaultReset (s : State) (por : Bool) : State :=
  let calls := (List.range 4).filter (fun c => s.flag (cstatP c) VAULT_CSTAT_PEND)
  let s := s.when (cryptBusy s) cryptAbort
  let s := s.when s.vault.erasing signetMemClear
  let s := setVault (clearSlots s 0) (fun v => { v with root := false, erasing := false })
  let s := vaultPages s
  if por then
    let s := s.put vaultB VAULT_LC_RSVOK 0
    s.when (lcState s == 3) (fun s => setLc s 2)
  else s.each calls (fun s c => s.put (cstatP c) VAULT_CSTAT_ABANDONED 1)

/-- The key of a depth-1 node by its LABEL (R407). -/
def labelKey (label : Word) : List Nat := kdf rootKey label 1

/-- Slot 31 (R409): SEAL; FACTORY, FIELD, SERVICE, RETURN; E2; it shows NODE 0. -/
def loadSlot31 (s : State) : State :=
  let w2 := [33, 31, 30, 29, 28, 24].foldl (fun w i => putBit w i true) (0 : Word)
  fillSlot s 31 (labelKey 0x0ED170001) (slotAttrs [setBits 0 19 17 1, 0x0ED170001, w2])

/-- R423 at a REFOLD that changes KPOL or ACCS: every slot cleared, the root kept; slot 31, without which no edition can
be read, is loaded again from that root (log entry 19). -/
def vaultRefold (s : State) : State :=
  let s := vaultPages ((s.when (cryptBusy s) cryptAbort).each (List.range 32) (fun s n => dropLoad (clearSlot s n) 0))
  s.when (s.vault.root && s.flag vaultB VAULT_LC_RSVOK) loadSlot31

end Sys2Proof.Machine
end

