-- ==== Sys2Proof/Machine/FolioLoad.lean ====
section
/-! DEFINITION. A folio load: the structural registers written from the loaded folio (R79), what a load changes (R84,
R608), and what becomes of the channels and lighting targets it changes (R121, R122, R178, R273). -/

namespace Sys2Proof.Machine

/-- The sections of a folio by TYPE. -/
abbrev Sects := List (Nat × List Word)

/-- The words of a section; an absent section holds none. -/
def sectOf (l : Sects) (ty : Nat) : List Word := match l.find? (fun p => p.1 == ty) with | some p => p.2 | none => []

/-- R83 step 3: the TYPEs whose words differ between two folios. -/
def changedSects (old new : Sects) : List Nat := ((List.range 16).drop 1).filter (fun ty => sectOf old ty != sectOf new ty)

/-! ### Writing the structural registers (R79) -/

/-- FOLIO_VER, FOLIO_STAMP and FOLIO_SCRC. -/
def loadHeader (s : State) : State :=
  let b := Blk.folio.base
  let s := (s.wr (b + 0xC) (s.folio.header.getD 2 0)).wr (b + 0x14) (s.folio.header.getD 4 0)
  s.each (List.range 15) (fun s k => s.wr (b + 0x40 + 4 * k)
    (if s.hasSect (k + 1) then BitVec.ofNat 36 (crc32Words (s.sect (k + 1))) else 0))

/-- One PSC page and PSG_SAFECFG (R62, R65, R133). -/
def loadChan (s : State) (f : Nat) : State :=
  let cs := chanList (s.sect 2)
  let p := pscP f
  match carrier cs f with
  | none => ((s.wr (p + 0x40) 0).put p PSC_ARB_PRIO 0).wr (p + 0x44) 0
  | some i =>
    let w := sectWord s 2 i
    let s := s.wr (p + 0x40) (setBits (setBits w 14 0 0) 14 8 i)
    let s := (s.put p PSC_ARB_PRIO (bitsOf w 17 15)).put p PSC_STAT_PAIRED (pairMember cs false i).toNat
    (s.put p PSC_SAFEV_MODE (safeEntry s 0 f).1).put p PSC_SAFEV_DUTY (safeEntry s 0 f).2

/-- The lighting registers that LITE and SAFE fill (R65, R68); a matrix column shows COLUMN. -/
def loadLight (s : State) : State :=
  let ws := s.sect 7
  let pos := ws.drop (3 + (liteStrings ws).length)
  let s := (s.put lch LCH_LEN_NPOS (liteChain ws)).put lch LCH_LEN_NBITS ((pos.map (fun w => bitsOf w 35 29)).sum)
  let s := (s.put lch LCH_LEN_CLK (bitsOf (ws.getD 0 0) 21 17)).put lch LCH_SAFEV_MODE (safeEntry s 3 0).1
  let s := s.each (List.range 8) (fun s n =>
    (s.put (stP n) LGT_STSAFEV_MODE (safeEntry s 1 n).1).put (stP n) LGT_STSAFEV_DUTY (safeEntry s 1 n).2)
  s.each (List.range 48) (fun s n =>
    let s := (s.put (skP n) LGT_SKSAFEV_MODE (safeEntry s 2 n).1).put (skP n) LGT_SKSAFEV_DUTY (safeEntry s 2 n).2
    if isColumn s n then s.put (skP n) LGT_SKSTAT_STATE 5 else s)

/-- R250: after a reset of the string drivers their frequency bounds start at the folio's. -/
def loadStrings (s : State) : State :=
  let ws := s.sect 7
  s.each (liteStrings ws).zipIdx (fun s p =>
    let w := ws.getD (3 + p.2) 0
    (s.put (stP p.1) LGT_STFREQ_FLO (bitsOf w 32 24)).put (stP p.1) LGT_STFREQ_FHI (bitsOf w 23 15))

/-- INP_ICFG and INP_ACFG (R69). -/
def loadInputs (s : State) : State :=
  let b := Blk.inp.base
  let s := s.each (List.range 64) (fun s n =>
    s.wr (b + 0x100 + 4 * n) (setBits (s.rd (b + 0x100 + 4 * n)) 35 28 (bitsOf (sectWord s 8 n) 35 28)))
  s.each (List.range 16) (fun s n =>
    s.wr (b + 0x280 + 4 * n) (setBits (s.rd (b + 0x280 + 4 * n)) 35 32 (bitsOf (sectWord s 8 (64 + n)) 35 32)))

/-- RULE_LINE and RULE_ROUTE (R70). -/
def loadRules (s : State) : State :=
  let b := Blk.rule.base
  let ws := s.sect 9
  let s := s.each (List.range 128) (fun s l =>
    let mine := ws.filter (fun w => bitsOf w 35 29 == l)
    let w := mine.getD 0 0
    let s := (s.put b (RULE_LINE_SRC.at l) (bitsOf w 28 18)).put b (RULE_LINE_EDGE.at l) (bitsOf w 6 5)
    s.put b (RULE_LINE_NDST.at l) mine.length)
  s.each (List.range 512) (fun s k =>
    match ws[k]? with
    | none => s.wr (b + 0x400 + 4 * k) 0
    | some w =>
      let s := (s.put b (RULE_ROUTE_LINE.at k) (bitsOf w 35 29)).put b (RULE_ROUTE_DST.at k) (bitsOf w 17 7)
      s.put b (RULE_ROUTE_VALID.at k) 1)

/-- What NETW fills (R71). -/
def loadNet (s : State) : State :=
  let s := s.each (List.range 8) (fun s n =>
    let w := sectWord s 10 (1 + n)
    let b := (Blk.can (Fin.ofNat 8 n)).base
    let s := (s.put b CAN_OBJS_OBJS (bitsOf w 35 27)).put b CAN_OBJS_WAKEPAT (bitsOf w 18 18)
    (s.put b CAN_OBJS_WUF (bitsOf w 17 17)).put (Blk.nmg.base + 0x100 + 0x40 * n) ⟨8, 35, 28, false⟩ (bitsOf w 26 19))
  let s := s.each (List.range 4) (fun s n =>
    let w := sectWord s 10 (9 + n)
    let b := (Blk.ts (Fin.ofNat 4 n)).base
    let s := (s.put b TS_PHY_PLCA_ID (bitsOf w 35 28)).put b TS_PHY_PLCA_CNT (bitsOf w 27 20)
    s.put (Blk.nmg.base + 0x100 + 0x40 * (8 + n)) ⟨8, 35, 28, false⟩ (bitsOf w 19 12))
  s.put Blk.ring.base RING_NODE_ADDR (bitsOf (sectWord s 10 13) 35 26)

/-- R79: every structural register takes the loaded folio's value. -/
def loadStruct (s : State) : State :=
  let s := loadHeader s
  let s := (s.put Blk.psg.base PSG_SAFECFG_HB_TO (bitsOf (sectWord s 4 0) 35 27)).put Blk.psg.base PSG_SAFECFG_HOLD
    (bitsOf (sectWord s 4 0) 26 12)
  let s := loadNet (loadRules (loadInputs (loadLight (s.each (List.range 72) loadChan))))
  let s := (s.put Blk.acc.base ACC_TIME_SESS_TO (bitsOf (sectWord s 14 1) 19 10)).put Blk.acc.base ACC_TIME_GRACE
    (bitsOf (sectWord s 14 1) 9 0)
  updateGact (s.put safeB SAFE_STAT_NOGUAR (!bitAt (sectWord s 15 0) 35).toNat)

/-! ### What a load changes (R84, R608) -/

/-- A function's structure: the channel that carries it and its words: CHAN, WIRE, SAFE, and the PROF or MOTN entries of
its engine. -/
def funcKey (l : Sects) (f : Nat) : Option Nat × List Word :=
  match carrier (chanList (sectOf l 2)) f with
  | none => (none, [])
  | some i =>
    let c := chanAt (chanList (sectOf l 2)) i
    let wire := ((chunks 3 (sectOf l 3)).find? (fun e => entBits e 0 35 29 == f)).getD []
    let safe := ((sectOf l 4).drop 1).filter (fun w => bitsOf w 35 34 == 0 && bitsOf w 33 27 == f)
    let eng := if c.owner = 1 then (sectOf l 5).filter (fun w => (profOf w).feed == f || (profOf w).sel == f)
      else if c.owner = 2 then ((chunks 2 (sectOf l 6)).filter (fun e => (motnOf e).eng == c.engine)).flatten else []
    (some i, (sectOf l 2).getD i 0 :: wire ++ [0] ++ safe ++ [0] ++ eng)

/-- The functions that share one state with `f`: itself, or its parallel pair (R132). -/
def stateMates (l : Sects) (f : Nat) : List Nat :=
  let cs := chanList (sectOf l 2)
  match carrier cs f with
  | none => [f]
  | some i => if pairMember cs true i then [f, f + 1] else if pairMember cs false i then [f - 1, f] else [f]

/-- R608: the functions whose structure a load changes. -/
def changedFuncs (old new : Sects) : List Nat :=
  let diff := (List.range 72).filter (fun f => funcKey old f != funcKey new f)
  (List.range 72).filter (fun f => (stateMates old f ++ stateMates new f).any diff.contains)

/-- R84: lighting targets whose SAFE entry changes. -/
def changedTargets (old new : Sects) : List Target :=
  let ent (l : Sects) (k n : Nat) := ((sectOf l 4).drop 1).filter (fun w => bitsOf w 35 34 == k && bitsOf w 33 27 == n)
  Target.all.filter (fun t => match t with
    | .str n => ent old 1 n != ent new 1 n
    | .sink n => ent old 2 n != ent new 2 n
    | .chain => ent old 3 0 != ent new 3 0)

/-- R84: the islands, and of the network island the CAN controllers, that own a changed land. -/
def landIsland (l : Nat) : Option Island :=
  if (1 ≤ l ∧ l ≤ 80) then some .tbase else if 81 ≤ l ∧ l ≤ 160 then some .light
  else if (177 ≤ l ∧ l ≤ 200) ∨ (209 ≤ l ∧ l ≤ 223) then some .net
  else if 201 ≤ l ∧ l ≤ 204 then some .ring else if 205 ≤ l ∧ l ≤ 208 then some .light else none

/-- The lands whose TERM words differ between two folios. -/
def changedLands (old new : Sects) : List Nat :=
  let of (l : Sects) (n : Nat) := (sectOf l 1).find? (fun w => bitsOf w 35 26 == n)
  ((sectOf old 1 ++ sectOf new 1).map (fun w => bitsOf w 35 26)).eraseDups.filter (fun n => of old n != of new n)

/-- R84: an MF land whose function changes to or from a timer terminal. -/
def timerLand (old new : Sects) (n : Nat) : Bool :=
  let fn (l : Sects) := match (sectOf l 1).find? (fun w => bitsOf w 35 26 == n) with | some w => bitsOf w 25 16 | none => 0
  241 ≤ n && n ≤ 272 && fn old != fn new && (decide (0x10 ≤ fn old) || decide (0x10 ≤ fn new))

/-- R84: the islands that a load affects, in their order. -/
def changedIslands (old new : Sects) : List Island :=
  let ch := changedSects old new
  let lands := changedLands old new
  Island.all.filter (fun i =>
    lands.any (fun n => landIsland n == some i || (i == .tbase && timerLand old new n))
    || (i == .light && ch.contains 7) || (i == .tbase && (ch.contains 8 || ch.contains 9)) || (i == .net && ch.contains 10)
    || (i == .ring && ch.contains 10) || (i == .signet && (ch.contains 13 || ch.contains 14)))

/-- R84, R340: the CAN controllers whose lands change while the network island is not affected. -/
def changedCans (old new : Sects) : List Nat :=
  if (changedIslands old new).contains .net then []
  else (List.range 8).filter (fun n => (changedLands old new).any (fun l => l == 161 + 2 * n || l == 162 + 2 * n))

/-- R84: the pairs whose decode table or lock a load changes. -/
def changedPairs (old new : Sects) : List Nat :=
  (List.range 2).filter (fun p =>
    [2 * p, 2 * p + 1].any (fun c => decoTable (sectOf old 12) c != decoTable (sectOf new 12) c)
    || bitAt ((sectOf old 15).getD 0 0) (34 - p) != bitAt ((sectOf new 15).getD 0 0) (34 - p))

/-! ### Channels (R121, R122, R608) -/

/-- Before the rewrite: a changed function enters SAFE, its retry dropped; one that loses or changes its channel has its
switches off; a LOCKED one stays as it is (R608). -/
def chanBefore (new : Sects) (s : State) (f : Nat) : State :=
  let moved := (funcKey s.folio.sects f).1 != (funcKey new f).1
  if !chUsed s f then s
  else if isOdd s f then
    if moved then showDp (s.setCh f (fun c => { c with held := true })) (f - 1)
    else s.setCh f (fun c => { c with hs := (s.ch (f - 1)).hs })
  else
    let st := chState s f
    let s :=
      if st = stLocked || st = stSafe then s
      else if (funcKey new f).1.isNone then s.when (st == stProfile || st == stMotion) (fun s => stopOwner s f .safe)
      else if st = stRetry then safeValue (setChState (s.setCh f (fun c => { c with retryAt := none })) f stSafe) f true
      else enterSafe s f
    if moved then allOff s f else s

/-- What of a channel's own state a change of structure leaves (R178): the wire model, clamp bucket and latches, the
switches and the period generator of the SAFE value. -/
def Chan.restruct (c : Chan) : Chan :=
  { c with mode := 0, ret := 0, phase := 0, bufPer := 1000000, bufDuty := 0, grant := none, winEnd := none, winPend := false,
           limHi := .reset, limLo := .reset, testAt := none, testPhase := 0, testEnd := none, misSince := none,
           misSafe := none, retryAt := none, wireTrip := false, held := false, olTime := 0, imbTime := 0 }

/-- The PSC page of a function but PSC_STAT at its reset values. -/
def pageReset (s : State) (f : Nat) : State :=
  (s.resetRange (pscP f) (pscP f + 0x24)).resetRange (pscP f + 0x28) (pscP f + 0x100)

/-- The unused page reads 0 (R62). -/
def pageUnused (s : State) (f : Nat) : State :=
  setUnclaimed (((s.resetRange (pscP f) (pscP f + 0x100)).setCh f (fun _ => .reset))) f false

/-- After the rewrite (R121 row 2, R608): SAFE with reset values and UNCLAIMED, the new SAFE value taken; `old` is the
folio before.  LOCKED stays; RLEFT and INRLEFT read 0 (R178), PSC_WIRE where the WIRE entry is gone (R156). -/
def chanAfter (old : Sects) (s : State) (f : Nat) : State :=
  if !chUsed s f then s
  else if isOdd s f then
    s.setCh f (fun c => if (funcKey old f).1.isNone then .reset else { c with held := false })
  else if (funcKey old f).1.isSome && chState s f = stLocked then
    let s := s.when (wireEntry s f).isNone (fun s =>
      (s.wr (pscP f + 0x34) 0).setCh f (fun c => { c with wireOn := false }))
    refreshFlt ((s.put (pscP f) PSC_PROT_RLEFT 0).put (pscP f) PSC_PROT_INRLEFT 0) f
  else
    let s := s.setCh f (fun c => if (funcKey old f).1.isNone then .reset else c.restruct)
    let s := setUnclaimed (setChState s f stSafe) f true
    settle (showDp (safeValue s f true) f) f

/-- R220, R246: the engines whose entry or bound channels a load changes return to IDLE with reset values. -/
def enginesAfter (old : Sects) (s : State) : State :=
  let new := s.folio.sects
  let chan (l : Sects) (f : Nat) : Option Word :=
    (carrier (chanList (sectOf l 2)) f).map (fun i => (sectOf l 2).getD i 0)
  let stkKey (l : Sects) (k : Nat) := ((sectOf l 5).find? (fun w => (profOf w).eng == k)).map (fun w =>
    (w, chan l (profOf w).feed, chan l (profOf w).sel))
  let motKey (l : Sects) (k : Nat) := ((chunks 2 (sectOf l 6)).find? (fun e => (motnOf e).eng == k)).map (fun e =>
    (e, (sectOf l 2).getD (bridgeEven (motnOf e).bridge) 0, (sectOf l 2).getD (bridgeEven (motnOf e).bridge + 1) 0))
  let s := s.each ((List.range 16).filter (fun k => stkKey old k != stkKey new k)) (fun s k =>
    (s.resetRange (stkP k) (stkP k + 0x100)).setSk k (fun e => { Stk.reset with segs := e.segs, segAt := e.segAt }))
  s.each ((List.range 6).filter (fun k => motKey old k != motKey new k)) (fun s k =>
    (s.resetRange (motP k) (motP k + 0x100)).setMo k (fun _ => .reset))

/-! ### Lighting targets (R273, R276) -/

/-- Before the rewrite: a target enters SAFE unless LOCKED. -/
def lightBefore (s : State) (ts : List Target) : State := s.each (ts.filter (tgtUsed s)) lightSafe

/-- A target that the folio leaves unused: off, its registers 0. -/
def lightUnused (s : State) (t : Target) : State :=
  let s := match t with
    | .str n => (s.resetRange (stP n) (stP n + 0x100)).setSt n (fun _ => .reset)
    | .sink n => (s.resetRange (skP n) (skP n + 0x20)).setSn n (fun _ => .reset)
    | .chain => (s.resetBlk .lch).setChain (fun _ => .reset)
  lgtRefreshFlt (s.setBit (lgt + 0x10 + 4 * t.slot.1) t.slot.2 false) t

/-- One target's registers but its state at their reset values; a LOCKED string driver keeps its own; an unused target is
off. -/
def lightPage (s : State) (t : Target) : State :=
  if !tgtUsed s t then lightUnused s t
  else match t with
  | .str n =>
    if stState s n == 4 then s
    else
      let s := (s.resetRange (stP n) (stP n + 0x18)).resetRange (stP n + 0x1C) (stP n + 0x100)
      s.setSt n (fun d => { d with mode := 0, iset := 50, bufPer := 5000, bufDuty := 0, grant := none, stopped := false })
  | .sink n =>
    (s.resetRange (skP n) (skP n + 0x20)).setSn n (fun e => { e with mode := 0, val := 0, bufDuty := 0, safe := false })
  | .chain => (s.resetBlk .lch).setChain (fun _ => .reset)

/-- After the rewrite: the target in SAFE and unclaimed, its SAFE value taken from the new entry. -/
def lightAfter (s : State) (t : Target) : State :=
  match t with
  | .str n =>
    if stState s n == 4 then s
    else tgtUncl (lgtRefreshFlt (lightSafe (s.put (stP n) LGT_STSTAT_STATE 0) t) t) t true
  | _ => tgtUncl (lgtRefreshFlt (lightSafe s t) t) t true

/-- R276: a load that changes LITE gives the island's registers their reset values; the SAFE outputs stand; a LOCKED
string driver stays LOCKED (R273). -/
def lightRelite (s : State) : State :=
  let gen := s.get lgt LGT_GEN_GEN
  let held := (List.range 8).filter (fun n => stState s n == 4)
  let faults := held.map (fun n => s.rd (stP n + 0x1C))
  let s := ((s.resetBlk .lgt).resetBlk .lch).put lgt LGT_GEN_GEN gen
  let s := { s with light := { s.light with matrix := .reset, chain := .reset } }
  s.each (held.zip faults) (fun s p =>
    lgtRefreshFlt ((s.put (stP p.1) LGT_STSTAT_STATE 4).wr (stP p.1 + 0x1C) p.2) (.str p.1))

/-! ### A whole load -/

/-- Before the rewrite: what changes takes its safe state (R46, R83 step 3); `relight`: the lighting island is affected
though LITE is not. -/
def loadBefore (s : State) (new : Sects) (relight : Bool) : State :=
  let old := s.folio.sects
  let s := s.each (changedFuncs old new) (chanBefore new)
  lightBefore s (if relight || sectOf old 7 != sectOf new 7 then Target.all else changedTargets old new)

/-- The loaded folio replaced and every structural register rewritten (R79, R83 step 4); changed functions and targets
return in SAFE, unclaimed (R121, R273); the generations advance. -/
def loadRewrite (s : State) (new : FolioSt) (relight : Bool) : State :=
  let old := s.folio.sects
  let fs := changedFuncs old new.sects
  let changed := sectOf old 7 != sectOf new.sects 7
  let lite := relight || changed
  let ts := changedTargets old new.sects
  let ch := changedSects old new.sects
  let safe := ch.any (fun ty => [2, 3, 4, 5, 6].contains ty)
  let s := { s with folio := { s.folio with header := new.header, sects := new.sects } }
  let s := s.each fs (fun s f => if (funcKey new.sects f).1.isNone then pageUnused s f
    else if chState s f = stLocked && (funcKey old f).1.isSome then s else pageReset s f)
  let s := (s.when lite lightRelite).each (if lite then Target.all else ts) lightPage
  let s := loadStruct s
  let s := s.when safe (fun s => s.incField Blk.psg.base PSG_GEN_GEN)
  let s := s.when (changed || !ts.isEmpty) (fun s => s.incField lgt LGT_GEN_GEN)
  let s := reholds (enginesAfter old (s.each fs (chanAfter old)))
  let s := s.when lite loadStrings
  s.each ((if lite then Target.all else ts).filter (tgtUsed s)) lightAfter

/-- R608 first case: a load with every output off and no hold: every used function starts in OFF, or in PROFILE or MOTION
if owned, UNCLAIMED 0. -/
def loadCold (s : State) (new : FolioSt) : State :=
  let old := s.folio.sects
  let ch := changedSects old new.sects
  let ts := changedTargets old new.sects
  let s := loadStrings (loadStruct { s with folio := { s.folio with header := new.header, sects := new.sects } })
  let s := s.when (ch.any (fun ty => [2, 3, 4, 5, 6].contains ty)) (fun s => s.incField Blk.psg.base PSG_GEN_GEN)
  let s := s.when (ch.contains 7 || !ts.isEmpty) (fun s => s.incField lgt LGT_GEN_GEN)
  let s := s.each ((List.range 72).filter (fun f => !chUsed s f)) pageUnused
  reholds (s.each ((List.range 72).filter (chUsed s)) (fun s f => settle (setChState s f (ownedState s f)) f))

/-- The folio that a verification passed, as State holds it. -/
def Folio.loaded (f : Folio) : FolioSt := ⟨f.header, f.sects.map (fun p => (p.1, p.2.2)), none, none⟩

end Sys2Proof.Machine
end

