-- ==== Sys2Proof/Machine/Safe.lean ====
section
/-! DEFINITION. The fault manager's events and registers: faults, self-tests, the clear and the reactions
(R572–R584, R609, R617), and the loss of the main clock (R14). -/

namespace Sys2Proof.Machine

/-! ### Memory words beyond correction -/

/-- A write to nibs `a` to `a + n - 1` renews the ECC of their words. -/
def healBad (s : State) (a n : Nat) : State :=
  { s with safe := { s.safe with badWords := s.safe.badWords.filter (fun w => decide (w + 4 ≤ a) || decide (a + n ≤ w)) } }

/-! ### Clock loss (R14, R582) -/

/-- R582: the lighting outputs are off and BLANK is asserted. -/
def lightDark (s : State) : State :=
  { s with light := { s.light with
      strs := s.light.strs.map (fun (d : StrDrv) => { d with want := false, boundary := none, offAt := none }),
      sinks := s.light.sinks.map (fun (d : Sink) => { d with want := false, pwm := false, pulse := none, offAt := none }),
      skNext := none, matrix := { s.light.matrix with nextSlot := none, rowOff := none },
      chain := { s.light.chain with frameEnd := none, queued := false, blank := true } } }

/-- PLL1_LOSS (R14, R574, R582): PLL1, or with `crystal` the reference of both PLLs, is found lost. -/
def pll1LossEffect (crystal : Bool) (s : State) : State :=
  let s := safeDetect (s.put Blk.sys.base SYS_TBSTAT_BACKUP 1) 9 (if crystal then 2 else 0)
  let s := lightDark (s.mapCores (fun k => { k with stopped := true }))
  let stop := [Island.qa, .qb, .signet, .fabric, .light, .net] ++ (if crystal then [.ring, .store] else [])
  let s := s.each stop (fun s i => s.setReady i false)
  setPwr s (fun p => { p with pll1 := false, pll1Lost := true, pll2 := p.pll2 && !crystal })

/-- A failed self-test: its SAFE_TEST bit is set and class 14 recorded. -/
def testFailed (s : State) (t : Nat) : State := updateGact (safeDetect (s.setBit (safeB + 0x20) (35 - t) true) 14 t)

/-! ### Faults (R574, R617) -/

/-- R574, R578, R617: a fault of class `cls` with its reactions, those of the classes' own included: ACCOFF of class 3,
SAFE of the channel for class 12; classes 1 and 2 arise for locked pairs alone.  A lost PLL1 or crystal is the loss of
R582, a timebase fault shows in DUALERR, and a failed self-test in SAFE_TEST. -/
def classFault (s : State) (cls idx a : Nat) : State :=
  match cls with
  | 1 | 2 => s.when (pairLocked s (cls - 1)) (fun s => safeDetect s cls (cls - 1))
  | 3 => accDisable (safeDetect s 3 0)
  | 4 => s.when (decide (idx < 4)) (fun s => haltCore (safeDetect s 4 idx) idx)
  | 5 | 6 => eccFault s cls idx a
  | 12 => chanSafe (safeDetect (s.setCh (lead s idx) (fun c => { c with larger := true })) 12 (lead s idx)) (lead s idx)
  | 9 => if s.pwr.pll1 && (idx == 0 || idx == 2) then pll1LossEffect (idx == 2) s else safeDetect s 9 idx
  | 13 => (safeDetect s 13 idx).put Blk.sys.base SYS_TBSTAT_DUALERR 1
  | 14 => if idx < 5 then testFailed s idx else s
  | _ => safeDetect s cls idx

/-- SAFE_FAULT_DETECT (R574, R578): a fault of class 1–15 is detected; `a` is the nib address of a memory error. -/
def execSafeFaultDetect (cls : Fin 16) (idx : BitVec 7) (a : Nat) (s : State) : Answer :=
  (s.when (cls != 0) (fun s => classFault s cls.val idx.toNat a)).next

/-- LOCKSTEP_MISMATCH (R456, R574): pair A (0), pair B (1) or Signet (2). -/
def execLockstepMismatch (who : Fin 3) (s : State) : Answer := (classFault s (who.val + 1) who.val 0).next

/-! ### Self-tests (R576) -/

/-- VOTER_SELF_TEST (R574, R576): a pass completes, or the voter of a block window fails it. -/
def execVoterSelfTest (failed : Option (Fin 128)) (s : State) : Answer :=
  (match failed with
  | none => dropCause (testPassed s 0) (fun c => c.cls == 7)
  | some b => testFailed (safeDetect s 7 b.val) 0).next

/-- A correction counted in SAFE_ECC sets INFO (R578's register table). -/
def countEcc (s : State) (f : Fld) (n : Nat) : State :=
  if n = 0 then s else (s.put safeB f (min 4095 (s.get safeB f + n))).put safeB SAFE_STAT_INFO 1

/-- SRAM_SCRUB (R576): a pass over every SRAM word: `fixed` single-bit corrections, uncorrectable words (array,
address). -/
def execSramScrub (fixed : Nat) (bad : List (Nat × Nat)) (s : State) : Answer :=
  (testPassed ((countEcc s SAFE_ECC_SRAMC fixed).each bad (fun s x => eccFault s 5 x.1 x.2)) 1).next

/-- NVM_SCRUB (R576): a pass over every row of the store. -/
def execNvmScrub (fixed : Nat) (bad : List (Nat × Nat)) (s : State) : Answer :=
  (testPassed ((countEcc s SAFE_ECC_NVMC fixed).each bad (fun s x => eccFault s 6 x.1 x.2)) 2).next

/-- SELFTEST_OVERDUE (R576): test 0 voter, 1 SRAM, 2 store, 3 cross-check has not completed a pass within its period. -/
def execSelftestOverdue (t : Fin 4) (s : State) : Answer :=
  (s.when (!isDown s && s.hasSect 15 && decide (testPeriod s t.val < testElapsed s t.val) && !bitAt (s.rd (safeB + 0x20)) (35 - t.val))
    (fun s => testFailed s t.val)).next

/-- OPERATING_RANGE_CHANGE (R572, R592): KL30_LOGIC and the feeds in mV, the baseplate in °C. -/
def execOperatingRangeChange (kl30 : Int) (feeds : List Int) (tbp : Int) (s : State) : Answer :=
  let inside (v : Int) : Bool := decide (6000 ≤ v ∧ v ≤ 32000)
  (updateGact (s.put safeB SAFE_STAT_RANGE
    (!(inside kl30 && feeds.all inside && decide (-40 ≤ tbp ∧ tbp ≤ 105))).toNat)).next

/-! ### Registers (R580, R584) -/

/-- R580: the class's reactions include FSAFE or FAULT_N. -/
def causeBlocks (s : State) (c : Cause) : Bool :=
  (c.cls == 9 && (c.idx == 0 || c.idx == 2)) ||
  (let r := s.rd (safeB + 0x40 + 4 * (c.cls - 1))
   bitAt r 34 || bitAt r 31)

/-- R580: the cause of a recorded class that blocks the clear is still present. -/
def causePresent (s : State) : Bool :=
  s.safe.causes.any (fun c => bitAt (s.rd (safeB + 0xC)) c.cls && causeBlocks s c)

/-- R580, R609: the fault record cleared, TAMP left. -/
def clearFaults (s : State) : State :=
  let s := ((s.put safeB SAFE_STAT_FSL 0).put safeB SAFE_STAT_ALM 0).put safeB SAFE_STAT_FAULTN 0
  ((s.wr (safeB + 4) 0).wr (safeB + 8) 0).wr (safeB + 0xC) 0

/-- R584: the mandatory reactions of a class, as SAFE_REACTc after reset. -/
def reactFloor (c : Nat) : Word := regReset (safeB + 0x40 + 4 * (c - 1))

/-- The checks of SAFE. -/
def safeChk (r : WriteReq) (s : State) (w : Word) : Fails :=
  if r.off = 0x10 then failAt (SAFE_CLR_CLR.of w == 1 && causePresent s) 12 0x11
  else if 0x40 ≤ r.off && r.off < 0x7C then
    let m := reactFloor ((r.off - 0x40) / 4 + 1)
    failAt (bitAt (sectWord s 15 0) 35 && ((m &&& ~~~ w) &&& ((1 : Word) <<< 35 ||| (1 : Word) <<< 34 ||| (1 : Word) <<< 31) != 0
      || decide (bitsOf w 33 32 < bitsOf m 33 32))) 12 0x10
  else []

/-- What an accepted write does (R580). -/
def safeWritten (o : Nat) (s : State) (_ w : Word) : State :=
  if o = 0x10 && SAFE_CLR_CLR.of w = 1 then clearFaults s
  else if o = 0x14 && SAFE_VOTE_CLR.of w = 1 then s.put safeB SAFE_VOTE_VCNT 0
  else s

/-- A write to SAFE (R580, R584). -/
def safeWrite (r : WriteReq) (s : State) : State := blockWrite r (safeChk r) false (safeWritten r.off) noRej s

/-- R609: what a WARM reset, a PARK exit or a CAPPED exit leaves of SAFE. -/
def safeResetKeep (s : State) : State :=
  let s := s.resetRange (safeB + 0x14) (safeB + 0x20)
  (s.resetRange (safeB + 0x40) (safeB + 0x80)).put safeB SAFE_STAT_INFO 0

end Sys2Proof.Machine
end

