-- ==== Sys2Proof/Machine/Icu.lean ====
section
/-! DEFINITION. The interrupt controller (R470–R475, R479). -/

namespace Sys2Proof.Machine

def icuB : Nat := 0x40050000
/-- ICU_SRCn. -/
def icuSrc (n : Nat) : Nat := icuB + 0x400 + 4 * n
/-- The page of target `t`. -/
def icuT (t : Nat) : Nat := icuB + 0x100 + 0x40 * t

/-- R475: the numbers that name a source. -/
def srcListed (n : Nat) : Bool :=
  n ≤ 10 || (16 ≤ n && n ≤ 49) || (64 ≤ n && n ≤ 67) || (80 ≤ n && n ≤ 120) || (128 ≤ n && n ≤ 134)

/-- R475: two sets of bits meet: flags `f` under enables `e`. -/
def meets (f e : Nat) : Bool := f &&& e != 0

/-- A timer channel's level (chapter 10). -/
def tmrLevel (s : State) (n : Nat) : Bool :=
  let p := tmrP n
  let f (x : Fld) : Bool := s.flag p x
  (f TMR_STAT_PER && f TMR_CTRL_IEPER) || (f TMR_STAT_CMPF && f TMR_CTRL_IECMP)
  || ((s.get p TMR_STAT_LEVEL != 0 || f TMR_STAT_OVF) && f TMR_CTRL_IECAP) || (f TMR_STAT_TO && f TMR_CTRL_IETO)

/-- The inputs' level (R281, R287). -/
def inpLevel (s : State) : Bool :=
  (List.range 64).any (fun n =>
    bitAt (s.rd (inpB + 0xC + 4 * (n / 32))) (n % 32) &&
      (((s.ip n).rose && s.flag (inpB + 4 * n) INP_ICFG_REDGE) || ((s.ip n).fell && s.flag (inpB + 4 * n) INP_ICFG_FEDGE)))
  || (List.range 8).any (fun n => s.flag (inpB + 4 * n) INP_ACFG_CSTAT && s.flag (inpB + 4 * n) INP_ACFG_CIRQ)

/-- The power stage's fault level: MISMATCH, WIRE or LOCK of a channel, BEXC, or a feed's OC. -/
def psgLevel (s : State) : Bool :=
  (List.range 72).any (fun f => s.flag (pscP f) PSC_FAULT_MISMATCH || s.flag (pscP f) PSC_FAULT_WIRE || s.flag (pscP f) PSC_FAULT_LOCK)
  || s.flag Blk.psg.base PSG_STAT_BEXC || (List.range 5).any (fun d => s.flag (Blk.psg.base + 4 * d) PSG_FEED_OC)

/-- The stroke engines' level (chapter 7). -/
def stkLevel (s : State) : Bool :=
  (List.range 16).any (fun k =>
    let p := stkP k
    let c := s.get p STK_STAT_STOPC
    (s.flag p STK_STAT_DONE && s.flag p STK_CTRL_IEDONE)
    || ((s.flag p STK_STAT_EARLY || s.flag p STK_STAT_LATE || s.flag p STK_STAT_DUTY || (4 ≤ c && c ≤ 6)) && s.flag p STK_CTRL_IEFLT))

/-- The motion engines' level (chapter 6). -/
def motLevel (s : State) : Bool :=
  (List.range 6).any (fun k =>
    let p := motP k
    let c := s.get p MOT_STAT_STOPC
    (s.flag p MOT_STAT_DONE && s.flag p MOT_CTRL_IEDONE) || (s.flag p MOT_STAT_PINCH && s.flag p MOT_CTRL_IEPINCH)
    || ((s.flag p MOT_STAT_LOST || (5 ≤ c && c ≤ 11)) && s.flag p MOT_CTRL_IEFLT))

/-- A LIN channel's level (chapter 12). -/
def linLevel (s : State) (n : Nat) : Bool :=
  let p := linB n
  (s.flag p LIN_CTRL_IEFRM && (List.range 64).any (fun f => s.flag (linF n f) LIN_FSTAT_NEW))
  || (s.flag p LIN_CTRL_IEERR && (List.range 64).any (fun f => s.get (linF n f) LIN_FSTAT_ERR != 0))
  || (s.flag p LIN_CTRL_IEWAK && s.flag p LIN_STAT_WAKEUP)

/-- R475: a source's level.  CRYPT and VAULT have flags and no enable, and no rule says which flags hold their level: open
while a flag is 1 (log entry 16).  DBG and the SPI ports have no flag (log entry 17). -/
def srcLevel (s : State) (n : Nat) : Bool :=
  if n < 4 then bitAt (s.rd icuB) n
  else if n = 4 then s.flag Blk.sys.base SYS_FABERR_VALID
  else if n = 5 then s.flag Blk.folio.base FOLIO_STAT_DONE || s.flag Blk.folio.base FOLIO_STAT_ERR
  else if n = 6 then s.flag safeB SAFE_STAT_ALM
  else if n = 7 then s.flag safeB SAFE_STAT_INFO
  else if n = 8 then meets (bitsOf (s.rd 0x40010010) 2 0) (bitsOf (s.rd 0x40010014) 2 0)
  else if n = 9 then s.flag Blk.aon.base AON_WAKESRC_RTC && (s.pwr.state == .run || s.pwr.state == .lift)
  else if 16 ≤ n ∧ n < 48 then tmrLevel s (n - 16)
  else if n = 48 then (List.range 4).any (fun i => meets (s.get ruleB (RULE_PEND_PEND.at i)) (s.get ruleB (RULE_IE_IE.at i)))
  else if n = 49 then inpLevel s
  else if n = 64 then psgLevel s
  else if n = 65 then stkLevel s
  else if n = 66 then motLevel s
  else if n = 67 then (List.range 3).any (fun i => s.get Blk.lgt.base (LGT_FLT_FLT.at i) != 0)
  else if 80 ≤ n ∧ n < 88 then meets (bitsOf (s.rd (canB (n - 80) + 0x2C)) 4 0) (bitsOf (s.rd (canB (n - 80) + 0x28)) 4 0)
  else if 88 ≤ n ∧ n < 100 then linLevel s (n - 88)
  else if 100 ≤ n ∧ n < 106 then meets (s.get (ethB (n - 100)) ETH_IR_BITS) (s.get (ethB (n - 100)) ETH_CTRL_IE)
  else if n = 106 then meets (s.get ringB RING_IR_BITS) (s.get ringB RING_CTRL_IE)
  else if 107 ≤ n ∧ n < 119 then meets (s.get (nmgP (n - 107)) NMG_IR_BITS) (s.get (nmgP (n - 107)) NMG_CTRL_IE)
  else if 128 ≤ n ∧ n < 132 then s.flag (cstatP (n - 128)) VAULT_CSTAT_PEND
  else if n = 132 then bitsOf (s.rd (cryptB + 0x30)) 34 32 != 0 && s.freeBit
  else if n = 133 then (s.flag vaultB VAULT_KSTAT_DONE || s.get vaultB VAULT_KSTAT_ERR != 0) && s.freeBit
  else if n = 134 then meets (s.get accB ACC_IR_BITS) (s.get accB ACC_CTRL_IE)
  else false

/-! ### Delivery (R470–R473) -/

/-- A target's priority stack, top first, and its running priority (R471). -/
def icuStack (s : State) (t : Nat) : List (Nat × Nat) := s.icu.levels.getD t []
def runPrio (s : State) (t : Nat) : Nat := match icuStack s t with | [] => 0 | (_, p) :: _ => p

/-- The priority of a source deliverable to target `t`, or 0. -/
def deliverPrio (s : State) (t n : Nat) : Nat :=
  let r := s.rd (icuSrc n)
  let p := bitsOf r 34 31
  if bitAt r 35 && !bitAt r 26 && bitsOf r 30 28 == t && s.get (icuT t) ICU_THR_THR < p && runPrio s t < p && srcLevel s n
  then p else 0

/-- R470, R457: the highest deliverable source of a target; at equal priority the lowest number. -/
def bestSource (s : State) (t : Nat) : Option Nat :=
  if coreIdle s t then none
  else ((List.range 135).foldl (fun (b : Option (Nat × Nat)) n =>
    let p := if srcListed n then deliverPrio s t n else 0
    if (match b with | none => 0 | some q => q.2) < p then some (n, p) else b) none).map (·.1)

def setIcu (s : State) (g : IcuSt → IcuSt) : State := { s with icu := g s.icu }

/-- A target's stack replaced, ICU_RPRI with it. -/
def setStack (s : State) (t : Nat) (l : List (Nat × Nat)) : State :=
  let s := setIcu s (fun i => { i with levels := i.levels.set t l })
  (s.put (icuT t) ICU_RPRI_DEPTH l.length).put (icuT t) ICU_RPRI_RPRI (runPrio s t)

/-- INTERRUPT_PRESENT (R471, R479, R563, R616): the deliverable source is presented; it wakes a waiting core, ends LIFT
and aborts an entry.  In REST and below the islands that would raise it have stopped. -/
def execInterruptPresent (t : Fin 5) (s : State) : Answer :=
  (if isDown s then s
   else
   let b := bestSource s t.val
   let s := setIcu s.drawn (fun i => { i with presented := i.presented.set t.val b })
   s.when b.isSome (fun s =>
    let was := (s.core t.val).waiting
    let s := s.setCore t.val (fun k => { k with waiting := false })
    let s := setPwr s (fun p => { p with state := .run })
    s.when was entryAbort)).next

/-- INTERRUPT_TAKEN (R466, R469, R472): the core takes the presented interrupt when IE is 1 and EXL 0. -/
def execInterruptTaken (c : CoreId) (s : State) : Answer :=
  (let k := s.core c.val
   s.when (k.running && !k.stopped && k.ie && !k.exl && (s.icu.presented.getD c.val none).isSome) (fun s =>
    enterExc s c.val k.pc (ecauseOf 0 0 3 0) 0 true k.sealing)).next

/-- R473: a read of ICU_CLAIMt: the state after it and the number it returns. -/
def claimRead (s : State) (t : Nat) (src : Src) : State × Nat :=
  if src.req = t && src.world != .opn then
    match bestSource s t with
    | none => (s, 511)
    | some n =>
      let p := bitsOf (s.rd (icuSrc n)) 34 31
      let s := setStack (s.setBit (icuSrc n) 26 true) t ((n, p) :: icuStack s t)
      (setIcu s.drawn (fun i => { i with presented := i.presented.set t none }), n)
  else (s, 511)

/-! ### Registers (R474) -/

/-- The checks of ICU. -/
def icuChk (r : WriteReq) (s : State) (w : Word) : Fails :=
  if 0x400 ≤ r.off && r.off < 0xA00 then
    let n := (r.off - 0x400) / 4
    let old := s.rd (icuSrc n)
    let t := bitsOf w 30 28
    let vault := 128 ≤ n && n ≤ 133
    failAt (vault && r.src.req != 4) 2 0x04
    ++ failAt (bitAt old 26 && bitsOf w 34 28 != bitsOf old 34 28) 4 0x06
    ++ failAt (!srcListed n || 5 ≤ t) 11 0x02 ++ failAt (vault && t != 4) 11 0x04
    ++ failAt (coreIdle s t) 12 0x11
  else if 0x100 ≤ r.off && r.off < 0x240 && r.off % 0x40 == 4 then
    failAt ((icuStack s ((r.off - 0x100) / 0x40)).head?.map (·.1) != some (bitsOf w 8 0)) 12 0x10
  else []

/-- R474: an accepted end of interrupt. -/
def icuEoi (s : State) (t : Nat) : State :=
  match icuStack s t with
  | [] => s
  | (n, _) :: l => setStack (s.setBit (icuSrc n) 26 false) t l

/-- What an accepted write does. -/
def icuWritten (o : Nat) (s : State) (_ _ : Word) : State :=
  if 0x100 ≤ o && o < 0x240 && o % 0x40 == 4 then icuEoi s ((o - 0x100) / 0x40) else s

/-- A write to ICU. -/
def icuWrite (r : WriteReq) (s : State) : State := blockWrite r (icuChk r) false (icuWritten r.off) noRej s

/-- R481: the stacks and ACT of some targets are reset. -/
def icuResetTargets (s : State) (ts : List Nat) : State :=
  s.each ts (fun s t =>
    let s := s.each (icuStack s t) (fun s x => s.setBit (icuSrc x.1) 26 false)
    setIcu (setStack s t []) (fun i => { i with presented := i.presented.set t none }))

end Sys2Proof.Machine
end

