-- ==== Sys2Proof/Machine/Islands.lean ====
section
/-! DEFINITION. What each reset kind and each exit from a park state leaves of every island (R45, R178, R220, R246, R276,
R294, R309, R317, R340, R354, R382, R401, R423, R449, R481, R571, R609, R612). -/

namespace Sys2Proof.Machine

/-! ### Power and lighting islands -/

/-- Every power-stage register at its reset value. -/
def powerRegs (s : State) : State := [Blk.psg, .psc0, .psc1, .stk, .mot].foldl State.resetBlk s

/-- POR: every output off, every register and model at its reset value (R121, R178, R220, R246). -/
def powerCold (s : State) : State :=
  { powerRegs s with
    chans := List.replicate 72 .reset, beat := .reset, mots := List.replicate 6 .reset, stks := List.replicate 16 .reset }

/-- POR and the exits from PARK and CAPPED: every lighting register at its reset value, outputs off (R276). -/
def lightCold (s : State) : State := { (s.resetBlk .lgt).resetBlk .lch with light := .reset }

/-- One step of 100 ms of a wire model with zero current at a baseplate of `tbp` °C (R155, R178). -/
def wireRest1 (f : Nat) (e : List Word) (tbp : Int) (s : State) : State :=
  let amb : Int := (tbp + signed 9 (entBits e 2 17 9)) * 1024
  let c := s.ch f
  let k1 : Rat := min 1 (100 / (entBits e 1 35 18 : Rat))
  let k2 : Rat := min 1 (1 / (entBits e 1 17 0 : Rat))
  let tc := quant s ((c.tc : Rat) + ((amb : Rat) - c.tc) * k1)
  let ti := quant tc.2 ((c.ti : Rat) + ((tc.1 : Rat) - c.ti) * k2)
  ti.2.setCh f (fun c => { c with tc := tc.1, ti := ti.1 })

def wireRest (f : Nat) (e : List Word) (tbp : Int) : Nat → State → State
  | 0, s => s
  | n + 1, s => wireRest f e tbp n (wireRest1 f e tbp s)

/-- R178, R150: a wire model after a park interval of `steps` steps: advanced; at amb past 4,096 steps; a channel that
stayed in PARKON at the steady state of its limit; a model never evaluated stays so. -/
def wireUnpark (tbp : Int) (steps : Nat) (s : State) (f : Nat) : State :=
  match wireEntry s f with
  | none => s
  | some e =>
    let amb : Int := (tbp + signed 9 (entBits e 2 17 9)) * 1024
    if chState s f = stParkon then
      let k : Rat := (s.get (pscP f) PSC_LIMIT_PKLIM + 1 : Nat)
      let t := quant s ((amb : Rat) + (entBits e 0 17 0 : Rat) * (k * k / 16))
      t.2.setCh f (fun c => { c with wireOn := true, tc := t.1, ti := t.1 })
    else if !(s.ch f).wireOn then s
    else if 4096 < steps then s.setCh f (fun c => { c with tc := amb, ti := amb })
    else wireRest f e tbp steps s

/-- R178: a clamp bucket less its leak over `ticks`. -/
def bucketUnpark (ticks : Nat) (s : State) (f : Nat) : State :=
  s.setCh f (fun c => { c with bucket := c.bucket - s.get (pscP f) PSC_CLAMP_LEAK * (ticks / us 100) })

/-- The exit from PARK or CAPPED: models and buckets carried over the interval since the commit (`tbp` °C at the exit);
registers at their reset values except, after PARK, the hold state (UNCLAIMED with it) and the pages of channels that
entered PARKON, which take UNCLAIMED whether or not a hold runs already; the feeds' hold-offs stand (R176).  A channel
LOCKED by its second path returns to OFF with its reset page (R151; log entry 87).  POS, TRAVEL and LEARNED restored (R151, R178, R220). -/
def powerUnpark (s : State) (capped : Bool) (tbp : Int) : State :=
  let ticks := s.rtcN * 390625 / 128
  let s := s.each (usedFuncs s) (fun s f => bucketUnpark ticks (wireUnpark tbp (ticks / ms 100) s f) f)
  let keep (f : Nat) : Bool := !capped && (s.ch (lead s f)).parked
  let kept := (List.range 72).filter keep
  let rest := (List.range 72).filter (fun f => !keep f)
  let hold := !capped && s.flag Blk.psg.base PSG_STAT_HOLDACT
  let src := s.get Blk.psg.base PSG_STAT_HOLDSRC
  let holdEnd := if hold then s.beat.holdEnd else none
  let remain := s.get Blk.psg.base PSG_HOLD_REMAIN
  let feeds := s.beat.feedHold
  let uncl := (List.range 72).filter (fun f => hold && unclaimed s f)
  let mots := s.mots
  let s := [Blk.psg, .stk, .mot].foldl State.resetBlk s
  let s := (s.resetRange 0x40110000 0x40110100).resetRange 0x40120000 0x40120100
  let s := s.each rest (fun s f => s.resetRange (pscP f) (pscP f + 0x100))
  let s := s.each rest (fun s f => s.setCh f (fun c => { Chan.reset with
    tc := c.tc, ti := c.ti, wireOn := c.wireOn, bucket := c.bucket }))
  let s := { s with
    beat := { BeatSt.reset with holdEnd := holdEnd, feedHold := feeds }, stks := List.replicate 16 .reset,
    mots := mots.map (fun (m : Mot) => { Mot.reset with savedPos := m.savedPos, savedTravel := m.savedTravel }) }
  let s := s.when hold (fun s => ((s.put Blk.psg.base PSG_STAT_HOLDACT 1).put Blk.psg.base PSG_STAT_HOLDSRC src).put
    Blk.psg.base PSG_HOLD_REMAIN remain)
  let s := loadStruct s
  let s := s.each kept (fun s f =>
    let s := s.when (chState s f == stParkon) (fun s => setChState s f stOn)
    let s := (s.put (pscP f) PSC_PROT_RLEFT 0).put (pscP f) PSC_PROT_INRLEFT 0
    s.setCh f (fun c => { c with latch0 := false, latch1 := false, held := false, parked := false }))
  let s := s.each (rest.filter (chUsed s)) (fun s f => settle (setChState s f (ownedState s f)) f)
  let s := s.each (List.range 72) refreshFlt
  let s := s.each ((uncl ++ kept).filter (chUsed s)) (fun s f => setUnclaimed s f true)
  let s := reholds s
  s.each (List.range 6) (fun s k =>
    let s := (s.wr (motP k + 0x20) (s.mo k).savedPos).wr (motP k + 0x24) (s.mo k).savedTravel
    setPos s k (motPos s k))

/-- The PARK entry of the power stage (R149, R178, R220): a channel in ON with PKEEP 1 enters PARKON; every other switch
turns off; at a CAPPED entry every switch does.  Position counts are saved. -/
def powerPark (s : State) (capped : Bool) : State :=
  let s := s.each (usedFuncs s) (fun s f =>
    let st := chState s f
    if !capped && st == stOn && s.flag (pscP f) PSC_CMD_PKEEP then
      setChState ((stopGen s f).setCh f (fun c => { c with parked := true })) f stParkon
    else
      let s := (allOff s f).setCh f (fun c => { c with parked := false, retryAt := none })
      s.when (st == stOn || st == stPwm || st == stRetry || st == stSafe || st == stParkon) (fun s => setChState s f stOff))
  s.each (List.range 6) (fun s k => s.setMo k (fun m => { m with
    savedPos := s.rd (motP k + 0x20), savedTravel := s.rd (motP k + 0x24) }))

/-! ### Timebase island -/

def tmrReset (s : State) : State :=
  { s.resetBlk .tmr with tmrs := List.replicate 32 .reset, prescale := [1, 1, 1, 1] }

/-- R317: RULE at its reset values, its events discarded; the routes follow from `loadStruct`. -/
def ruleReset (s : State) : State := { s.resetBlk .rule with flights := [] }

def inpReset (s : State) : State := { s.resetBlk .inp with inp := .reset }

/-- R294, R309, R317 at POR, WARM and a refold that changes INPT or RULE. -/
def tbaseReset (s : State) : State := inpReset (ruleReset (tmrReset s))

/-- R294, R309, R317 at the exit from PARK or CAPPED: INP restored from the copies (R286). -/
def tbaseUnpark (s : State) : State :=
  let inp := s.inp
  let wake := [0x28, 0x2C, 0x30].map (fun o => (inpB + o, s.rd (inpB + o)))
  let s := tbaseReset s
  let s := wake.foldl (fun s p => s.wr p.1 p.2) { s with inp := { InpSt.reset with
    saved := inp.saved
    ins := inp.ins.map (fun (i : Inp) => { Inp.reset with ref := i.ref, parkSmp := i.parkSmp, parkAt := i.parkAt }) } }
  let s := inpRestore s
  { s with inp := { s.inp with scanAt := s.now } }

/-! ### Network and ring -/

/-- The network island at its reset values, message memory cleared (R340, R354, R401). -/
def netReset (s : State) : State :=
  let s := nmgReset (ethReset (linReset (canReset s)))
  [Blk.spic 0, .spic 1, .dbg].foldl State.resetBlk s

/-- POR: with it the transceivers OFF and NMG_FWAKE at its reset value (R401). -/
def netCold (s : State) : State := { (netReset s).resetBlk .nmg with nmgs := List.replicate 12 .reset }

/-- The exit from PARK or CAPPED (R354, R399). -/
def netUnpark (s : State) : State :=
  let s := nmgReset (ethReset (linUnpark (canReset s)))
  nmgUnpark ([Blk.spic 0, .spic 1, .dbg].foldl State.resetBlk s)

/-! ### Cores and their controllers -/

/-- R481: a pair's cores, Signet's excepted, back at the reset address: registers, reservation, caches, coprocessors and
reject flags, which
their writes under way no longer set (R612); their decode tables kept or not; the faults whose cause a reset ends (R580). -/
def coresReset (s : State) (cs : List Nat) (keepUx : Bool) : State :=
  let s := dropCause s (fun x => cs.any (fun c => decide (c < 4) &&
    ((x.cls == c / 2 + 1) || (x.cls == 4 && x.idx / 2 == c / 2))))
  let s := s.each cs (fun s c =>
    (s.setCore c (fun k => { Core.reset (trustOf c) with ux := if keepUx then k.ux else none })).clearRej c)
  { s with
    posted := s.posted.map (fun p => if cs.contains p.src.req then { p with stray := true } else p)
    aonPend := s.aonPend.map (fun p => if cs.contains p.src.req then { p with stray := true } else p) }

/-- R481: the call pages of reset callers; a pending call is abandoned (R414). -/
def callPages (s : State) (cs : List Nat) : State :=
  s.each (cs.filter (· < 4)) (fun s c =>
    let pend := s.flag (cstatP c) VAULT_CSTAT_PEND
    (s.resetRange (cstatP c) (cstatP c + 0x20)).put (cstatP c) VAULT_CSTAT_ABANDONED pend.toNat)

/-- The tightly coupled memory of cores cleared. -/
def tcmClear (s : State) (cs : List Nat) : State :=
  let s := s.each (cs.filter (· < 4)) (fun s c => s.clearMem (0x01000000 + c * 0x40000) (0x01040000 + c * 0x40000))
  { s with safe := { s.safe with badWords := s.safe.badWords.filter (fun a => !(cs.any (fun c =>
      0x01000000 + c * 0x40000 ≤ a && a < 0x01040000 + c * 0x40000))) } }

/-- Inkwell cleared, its ECC initialised. -/
def inkwellClear (s : State) : State :=
  { s.clearMem 0x02000000 0x02280000 with safe := { s.safe with
      badWords := s.safe.badWords.filter (fun a => a < 0x02000000 || 0x02280000 ≤ a) } }

/-- ICU at its reset values, every stack empty (R481). -/
def icuReset (s : State) : State := { s.resetBlk .icu with icu := .reset }

/-! ### PWR, SYS and FOLIO -/

/-- R571, R558: PWR at its reset values except LAST; PWR_MODE kept through a refold, LAT and WAKESEQ through an exit. -/
def pwrReset (s : State) (keepMode keepLat : Bool) : State :=
  let b := Blk.pwr.base
  let last := s.get b PWR_STAT_LAST
  let mode := s.rd b
  let lat := s.rd (b + 0x18)
  let seq := s.rd (b + 0x1C)
  let s := (s.resetBlk .pwr).put b PWR_STAT_LAST last
  let s := s.when keepMode (fun s => s.wr b mode)
  s.when keepLat (fun s => (s.wr (b + 0x18) lat).wr (b + 0x1C) seq)

/-- SYS at a WARM reset or a park exit: the timebase status, the reset causes, the ready bits and the edition causes
stand (R14, R45, R541). -/
def sysReset (s : State) : State :=
  let b := Blk.sys.base
  let keep := [0x8, 0xC, 0x1C].map (fun o => (b + o, s.rd (b + o)))
  let fb := s.get b SYS_EDSTAT_FBCAUSE
  let sw := s.get b SYS_EDSTAT_LASTSW
  let s := keep.foldl (fun s p => s.wr p.1 p.2) (s.resetBlk .sys)
  (s.put b SYS_EDSTAT_FBCAUSE fb).put b SYS_EDSTAT_LASTSW sw

/-- FOLIO at a WARM reset or a park exit: a running command is abandoned (R86); what the folio and the journal give
stands. -/
def folioReset (s : State) : State :=
  let b := Blk.folio.base
  let sel := s.get b FOLIO_STAT_FSEL
  let slot := s.get b FOLIO_STAT_SLOT
  let keep := ([0xC, 0x10, 0x14] ++ (List.range 15).map (fun k => 0x40 + 4 * k)).map (fun o => (b + o, s.rd (b + o)))
  let s := keep.foldl (fun s p => s.wr p.1 p.2) (s.resetBlk .folio)
  let s := (s.put b FOLIO_STAT_FSEL sel).put b FOLIO_STAT_SLOT slot
  { s with folio := { s.folio with cmd := none, next := none } }

/-- R545, R537: an update command, a row write and recovery end with the reset of their island; S4 unseals DK anew, and
an exit from PARK, which runs no S4, finds it again (log entry 103). -/
def storeReset (s : State) : State :=
  { s with nvRow := none, upd := { UpdSt.reset with dkSealed := s.upd.dkSealed, dkReg := s.upd.dkReg },
           rcv := { RecSt.reset with resume := s.rcv.resume, dbgEnd := s.rcv.dbgEnd } }

/-- Every ready bit but AON's cleared (R49). -/
def allNotReady (s : State) : State := s.each (Island.all.filter (· != .aon)) (fun s i => s.setReady i false)

/-! ### Whole resets up to the boot -/

/-- A power-on reset (R44, R45, R610): everything but the store, the fuses and what they hold; the timebase at 0. -/
def porReset (s : State) (cause : PorCause) : State :=
  let v := s.vault
  let lcWord := s.rd vaultB
  let own := (List.range 8).map (fun k => (vaultB + 0x240 + 4 * k, s.rd (vaultB + 0x240 + 4 * k)))
  let tam := [0x20, 0x24, 0x28].map (fun o => (vaultB + o, s.rd (vaultB + o)))
  let nv := s.mem.filter (fun p => 0x10000000 ≤ p.1 && p.1 < 0x13000000)
  let badNv := s.safe.badWords.filter (fun a => 0x10000000 ≤ a && a < 0x13000000)
  let acc := s.acc
  let b := { State.reset with
    mem := nv, ecr := s.ecr, upd := { UpdSt.reset with dkSealed := s.upd.dkSealed }, fresh := s.fresh, pending := s.pending,
    rcv := { RecSt.reset with resume := s.rcv.resume }, vault := v, nvRow := none, safe := { SafeSt.reset with badWords := badNv },
    acc := { AccSt.reset with
      fleet := acc.fleet, banks := acc.banks, commit := acc.commit, ctrs := acc.ctrs, gRec := acc.gRec, recVer := acc.recVer },
    boot := { BootSt.reset with number := s.boot.number, hungAt := s.boot.hungAt } }
  let b := (own ++ tam).foldl (fun s p => s.wr p.1 p.2) (b.wr vaultB lcWord)
  let b := vaultReset b true
  (b.when (cause == .undervoltage) (fun s => s.put Blk.sys.base SYS_RSTCAUSE_BROWNOUT 1)).refresh

/-- The SYS_RSTCAUSE bit of a WARM reset (R44). -/
def warmBit (s : State) (c : WarmCause) : State :=
  let b := Blk.sys.base
  match c with
  | .software | .trial => s.put b SYS_RSTCAUSE_SWWARM 1
  | .external => s.put b SYS_RSTCAUSE_EXT 1
  | .safe => s.put b SYS_RSTCAUSE_SAFE 1
  | .watchdog | .tamper | .bootFail => s

/-- What a WARM reset makes of every domain but AON, XCVR, PSA, PSB, LIGHT and the store's contents (R45, R612): device
writes that have not taken effect are discarded, and a hold starts (R145). -/
def warmReset (s : State) (cause : WarmCause) : State :=
  let s := holdStart (warmBit s cause) 1
  let s := { s with posted := [], aonPend := [], rej := [], warmDue := none }
  let s := dropCause (accReset (vaultReset s false)) (fun c => c.cls == 3)
  let s := coresReset s [0, 1, 2, 3, 4] false
  let s := inkwellClear (tcmClear s [0, 1, 2, 3])
  let s := icuReset (netReset (ringReset (tbaseReset s)))
  let s := safeResetKeep (pwrReset s false false)
  let s := storeReset (folioReset (sysReset s))
  let s := { s with safe := { s.safe with resetDue := [] } }
  -- the power and lighting islands keep their clocks
  let pw := s.ready .power
  let li := s.ready .light
  ((allNotReady s).setReady .power pw).setReady .light li

end Sys2Proof.Machine
end

