-- ==== Sys2Proof/Machine/Boot.lean ====
section
/-! DEFINITION. The journal (R525–R527), the boot steps of every start (R528–R533, R547, R548, R553) and the resets that
run them (R44, R45). -/

namespace Sys2Proof.Machine

/-! ### The edition control record (R525, R526) -/

/-- The two slot words, VERSION and FLOOR of a slot as ECR words. -/
def slotWords (r : SlotRec) : List Word :=
  [setBits (setBits 0 35 33 r.state) 32 17 r.dfmt, r.version, setBits 0 19 0 r.floor]

/-- The 32 words of an ECR. -/
def ecrWords (e : Ecr) : List Word :=
  let w2 := setBits (setBits (setBits (setBits (setBits (setBits (setBits (setBits 0 35 35 e.act.toNat) 34 34 e.trial.toNat)
    33 32 e.tboot) 31 31 e.fsel.toNat) 30 30 e.dhalf.toNat) 29 29 e.recreq.toNat) 28 28 e.s2short.toNat) 26 16 e.isloff
  let ws := [0xEC1700001, e.seq, w2, setBits 0 9 0 e.trun] ++ slotWords e.slotA ++ slotWords e.slotB
    ++ [setBits 0 19 0 e.floor, setBits (setBits 0 35 20 e.fmt0) 19 4 e.fmt1,
        setBits (setBits (setBits 0 35 35 e.arm.toNat) 34 34 e.armslot.toNat) 33 33 e.armtrial.toNat] ++ List.replicate 18 0
  ws ++ [BitVec.ofNat 36 (crc32Words ws)]

def slotParse (ws : List Word) (i : Nat) : SlotRec :=
  ⟨bitsOf (ws.getD i 0) 35 33, bitsOf (ws.getD i 0) 32 17, ws.getD (i + 1) 0, bitsOf (ws.getD (i + 2) 0) 19 0⟩

/-- A copy with its MAGIC and a correct CRC, read. -/
def ecrParse (ws : List Word) : Option Ecr :=
  if ws.getD 0 0 = 0xEC1700001 ∧ (ws.getD 31 0).toNat = crc32Words (ws.take 31) then
    let w2 := ws.getD 2 0
    let w11 := ws.getD 11 0
    let w12 := ws.getD 12 0
    some ⟨ws.getD 1 0, bitAt w2 35, bitAt w2 34, bitsOf w2 33 32, bitAt w2 31, bitAt w2 30, bitAt w2 29, bitAt w2 28,
      bitsOf w2 26 16, bitsOf (ws.getD 3 0) 9 0, slotParse ws 4, slotParse ws 7, bitsOf (ws.getD 10 0) 19 0,
      bitsOf w11 35 20, bitsOf w11 19 4, bitAt w12 35, bitAt w12 34, bitAt w12 33⟩
  else none

/-- The address of copy 0 or 1. -/
def ecrAt (second : Bool) : Nat := if second then 0x12C00080 else 0x12C00000

/-- R526: the newest valid copy: which, and its record. -/
def ecrNewest (s : State) : Option (Bool × Ecr) :=
  match ecrParse (s.words (ecrAt false) 32), ecrParse (s.words (ecrAt true) 32) with
  | some a, some b => if a.seq < b.seq then some (true, b) else some (false, a)
  | some a, none => some (false, a)
  | none, some b => some (true, b)
  | none, none => none

/-- R544: half DHALF is write-locked: a trial whose data format differs from that of the half. -/
def halfLocked (e : Ecr) : Bool :=
  e.trial && (if e.act then e.slotB else e.slotA).dfmt != (if e.dhalf then e.fmt1 else e.fmt0)

/-- The registers that show the journal (SYS_EDSTAT to SYS_HALFFMT, SYS_BOOTST.ISLOFF, FOLIO_FLOOR, FOLIO_STAT.FSEL). -/
def showEcr (s : State) : State :=
  let b := Blk.sys.base
  let e := s.ecr
  let s := (((s.put b SYS_EDSTAT_ACT e.act.toNat).put b SYS_EDSTAT_TRIAL e.trial.toNat).put b SYS_EDSTAT_TBOOT e.tboot).put b
    SYS_EDSTAT_TRUN e.trun
  let s := ((s.put b SYS_EDSTAT_DHALF e.dhalf.toNat).put b SYS_EDSTAT_LOCKED (halfLocked e).toNat).put b SYS_EDSTAT_ARM e.arm.toNat
  let s := (s.put b SYS_EDSTAT_ARMSLOT e.armslot.toNat).put b SYS_EDSTAT_ARMTRIAL e.armtrial.toNat
  let s := s.each [(0, e.slotA), (1, e.slotB)] (fun s p =>
    let a := b + 0x44 + 0xC * p.1
    (((s.put a SYS_SLOT_STATE p.2.state).put a SYS_SLOT_DFMT p.2.dfmt).put a SYS_SLOTV_VERSION p.2.version.toNat).put a
      SYS_SLOTF_FLOOR p.2.floor)
  let s := ((s.put b SYS_HALFFMT_FMT0 e.fmt0).put b SYS_HALFFMT_FMT1 e.fmt1).put b SYS_BOOTST_ISLOFF e.isloff
  (s.put Blk.folio.base FOLIO_FLOOR_FLOOR e.floor).put Blk.folio.base FOLIO_STAT_FSEL e.fsel.toNat

/-- One ECR write (R526): SEQ advances, and the record goes to the copy that does not hold the newest. -/
def setEcr (s : State) (g : Ecr → Ecr) : State :=
  let e := { g s.ecr with seq := s.ecr.seq + 1 }
  let second := match ecrNewest s with | some (false, _) => true | _ => false
  showEcr { s.putWords (ecrAt second) (ecrWords e) with ecr := e }

/-- The record of a slot replaced. -/
def Ecr.setSlot (e : Ecr) (b : Bool) (r : SlotRec) : Ecr := if b then { e with slotB := r } else { e with slotA := r }
def Ecr.slot (e : Ecr) (b : Bool) : SlotRec := if b then e.slotB else e.slotA
def Ecr.setState (e : Ecr) (b : Bool) (st : Nat) : Ecr := e.setSlot b { e.slot b with state := st }

/-- An island joins ISLOFF. -/
def addOff (s : State) (bits : List Nat) : State :=
  let m := (bits.foldl (fun m i => putBit m i true) (BitVec.ofNat 36 s.ecr.isloff)).toNat
  if m = s.ecr.isloff then s else setEcr s (fun e => { e with isloff := m })

/-- Is an island left off? -/
def isOffed (s : State) (i : Island) : Bool := bitAt (BitVec.ofNat 36 s.ecr.isloff) i.bit

/-! ### Boot records (R527) -/

def setBoot (s : State) (g : BootSt → BootSt) : State := { s with boot := g s.boot }

/-- The code of a path. -/
def BootPath.code : BootPath → Nat | .por => 0 | .warm => 1 | .capped => 2 | .park => 3 | .core => 4

/-- The address of this start's boot record. -/
def bootRecAt (s : State) : Nat := 0x12C01000 + 32 * (s.boot.number % 4096)

/-- Is the ROM in recovery mode? -/
def inRecovery (s : State) : Bool := match s.boot.mode with | .recovery _ => true | _ => false

/-- This start's boot record and SYS_BOOTST, SYS_BOOTREC; the count at hand-over stands once S10 has passed, and words 6
and 7, which the spec does not name, keep what they held (log entry 103). -/
def bootRecord (s : State) : State :=
  let b := Blk.sys.base
  let e := s.ecr
  let w1 := setBits (setBits (setBits (setBits 0 35 33 s.boot.path.code) 32 32 e.act.toNat) 31 31 e.trial.toNat) 30 30
    (inRecovery s).toNat
  let w3 := setBits (setBits 0 35 32 (s.get b SYS_BOOTST_FSTEP)) 31 24 (s.get b SYS_BOOTST_FCODE)
  let s := (s.put b SYS_BOOTST_PATH s.boot.path.code).put b SYS_BOOTREC_ADDR (bootRecAt s)
  let handed := bitsOf (BitVec.ofNat 36 s.boot.marks) 21 20 == 2
  s.when s.boot.input.storeOk (fun s => s.putWords (bootRecAt s) [BitVec.ofNat 36 s.boot.number, w1,
    BitVec.ofNat 36 s.boot.marks, w3, if handed then s.now else s.word (bootRecAt s + 16), BitVec.ofNat 36 e.isloff])

/-- A step's mark: 1 begun, 2 passed, 3 failed. -/
def bootMark (s : State) (k v : Nat) : State :=
  setBoot s (fun b => { b with marks := (setBits (BitVec.ofNat 36 b.marks) (2 * k + 1) (2 * k) v).toNat })

/-- A step failed with a code. -/
def bootFail (s : State) (k code : Nat) : State :=
  let b := Blk.sys.base
  ((bootMark s k 3).put b SYS_BOOTST_FSTEP k).put b SYS_BOOTST_FCODE code

/-- A failure for which the spec states no code. -/
def bootFailOpen (s : State) (k : Nat) : State := (bootFail s k s.free.toNat).drawn

def isRunning (s : State) : Bool := s.boot.mode == .running

/-- One boot step (R527, R529): marked, run, marked passed; a hang leaves it begun; in HALT or recovery nothing follows. -/
def bootStep (k : Nat) (f : State → State) (s : State) : State :=
  if !isRunning s then s
  else
    let s := bootMark s k 1
    if s.boot.input.hang = some k then
      if (k = 3 || k = 4) && s.boot.hungAt = some k then setBoot (bootFailOpen s k) (fun b => { b with mode := .halt (k + 2) })
      else setBoot s (fun b => { b with mode := .hung k })
    else
      let s := f s
      if bitsOf (BitVec.ofNat 36 s.boot.marks) (2 * k + 1) (2 * k) = 3 then s else bootMark s k 2

/-- HALT for a REASON (R553). -/
def bootHalt (s : State) (reason : Nat) : State := setBoot s (fun b => { b with mode := .halt reason })

/-! ### S2 to S4 -/

/-- R530: the SRAM test: Inkwell or Signet private memory beyond repair enters HALT; a tightly coupled memory takes its
pair out of use, once the journal can be written. -/
def bootS2 (s : State) : State :=
  let bad := s.boot.input.sramBad
  if bad.contains 4 || bad.contains 5 then bootHalt (bootFailOpen s 2) 7
  else if bad.any (· < 4) then bootFailOpen s 2 else s

/-- R537: a slot in WRITING becomes EMPTY. -/
def writingGone (s : State) : State :=
  s.each [false, true] (fun s b => s.when ((s.ecr.slot b).state == 1) (fun s => setEcr s (·.setState b 0)))

/-- R526, R537: the journal read; a slot in WRITING reads as EMPTY; what S2 found enters ISLOFF; S2SHORT follows a hang
of S2 (R530). -/
def bootS3 (s : State) : State :=
  if !s.boot.input.storeOk then bootHalt (bootFailOpen s 3) 5
  else
    let e := match ecrNewest s with | some (_, e) => e | none => .reset
    let s := writingGone (showEcr { s with ecr := e })
    let pairs := (if s.boot.input.sramBad.any (· < 2) then [0] else [])
      ++ (if s.boot.input.sramBad.any (fun a => a == 2 || a == 3) then [1] else [])
    let s := addOff s pairs
    if s.boot.hungAt = some 2 then setEcr s (fun e => { e with s2short := true })
    else s.when s.ecr.s2short (fun s => setEcr s (fun e => { e with s2short := false }))

/-- R406, R409, R420, R421, R553: S4 waits for RSVOK; a new module enrols; the root is derived, slot 31 loaded and DK
unsealed; VOID, or a root that cannot be derived, enters HALT. -/
def bootS4 (s : State) : State :=
  let s := s.put vaultB VAULT_LC_RSVOK 1
  let s := s.when (lcState s == 0) (fun s => lcCommand s ⟨6, .trust⟩ 1 0)
  if lcState s = 5 || !s.boot.input.rootOk || !s.vault.cells then bootHalt (bootFailOpen s 4) 6
  else
    let s := loadSlot31 (setVault s (fun v => { v with root := true }))
    { s with upd := { s.upd with dkReg := s.upd.dkSealed } }

/-! ### S5: selection and fall-back (R531, R544, R547) -/

/-- The islands of a domain mask (R15, R72): DOM bit 35 AON … 24 NVM.  An island of two domains is ready only while both
are powered (R49, log entry 47). -/
def domIslands (dom : Word) : List Island :=
  let on (i : Nat) : Bool := bitAt dom i
  [.aon] ++ (if on 34 then [.signet] else []) ++ (if on 33 then [.qa] else []) ++ (if on 32 then [.qb] else [])
    ++ (if on 31 then [.fabric, .tbase] else []) ++ (if on 30 && on 29 then [.net] else [])
    ++ (if on 28 && on 27 then [.power] else []) ++ (if on 26 then [.light] else []) ++ (if on 25 then [.ring] else [])
    ++ (if on 24 then [.store] else [])

/-- R528 S9: the islands of PWRD powered, less ISLOFF; one that does not power up joins ISLOFF (R530). -/
def bootS9 (s : State) : State :=
  let bad := s.boot.input.islBad
  let want := (domIslands (sectWord s 11 0)).filter (fun i => !isOffed s i)
  let failed := want.filter (fun i => bad.contains i.bit)
  let s := s.when (!failed.isEmpty) (fun s => addOff (bootFailOpen s 9) (failed.map Island.bit))
  nmgReady (s.each Island.all (fun s i => s.setReady i (want.contains i && !failed.contains i)))

/-- R547: recovery mode: RECREQ is cleared; the network island is powered, the rest as S9 would leave it; HELLO follows. -/
def enterRecovery (s : State) (reason : Nat) : State :=
  let s := s.when s.ecr.recreq (fun s => setEcr s (fun e => { e with recreq := false }))
  let s := (bootS9 s).setReady .net true
  let s := setBoot s (fun b => { b with mode := .recovery reason, winEnd := none })
  { s with rcv := { s.rcv with helloAt := some s.now, gotManifest := false } }

/-- R531: the fall-back, at most once per start; its cause in FBCAUSE (`none`: one that the register's list does not name). -/
def fallBack (s : State) (cause : Option Nat) : State :=
  let b := Blk.sys.base
  if s.boot.fellBack then enterRecovery s 1
  else
    let s := setBoot s (fun b => { b with fellBack := true })
    let s := s.put b SYS_EDSTAT_FBACK 1
    let s := match cause with
      | some c => s.put b SYS_EDSTAT_FBCAUSE c
      | none => (s.put b SYS_EDSTAT_FBCAUSE s.free.toNat).drawn
    let e := if s.ecr.trial then s.ecr.setState s.ecr.act 4 else s.ecr
    let e := { e with trial := false, act := !e.act }
    let r := e.slot e.act
    if r.state = 3 ∧ e.floor ≤ r.floor then setEcr s (fun _ => { e with fsel := false })
    else enterRecovery (setEcr s (fun _ => e)) 1

/-- R544 at S5 of a trial start: a format other than that of half DHALF is recorded for the other half. -/
def trialHalf (e : Ecr) : Ecr :=
  let d := (e.slot e.act).dfmt
  if !e.trial || d = (if e.dhalf then e.fmt1 else e.fmt0) then e
  else if e.dhalf then { e with fmt0 := d } else { e with fmt1 := d }

/-- S5 past the requests for recovery (R531). -/
def bootSelect (s : State) : State :=
  let s := s.when s.ecr.arm (fun s => setEcr s (fun e =>
    { e with act := e.armslot, trial := e.armtrial, tboot := 0, trun := 0, arm := false }))
  let e := s.ecr
  if e.trial && (e.tboot == 3 || e.trun == 600) then fallBack s (some (if e.trun = 600 then 2 else 1))
  else
    let s := s.when e.trial (fun s => setEcr s (fun e => trialHalf { e with tboot := e.tboot + 1 }))
    let r := s.ecr.slot s.ecr.act
    if !(r.state == 2 || r.state == 3) then fallBack s none
    else if r.floor < s.ecr.floor then fallBack s (some 6) else s

/-- R547, R618: the RECOVERY terminal asks for recovery unless TERM takes it away. -/
def recoveryPin (s : State) : Bool :=
  s.boot.input.recPin && !termFunc s 225 0

/-- S5 of a POR or WARM start (R531, R547); S7 found hung fails its slot's edition (R530). -/
def bootS5 (s : State) : State :=
  if s.boot.hungAt = some 5 then enterRecovery (bootFailOpen s 5) 1
  else if s.ecr.recreq then enterRecovery s 4
  else if recoveryPin s then enterRecovery s 2
  else if s.boot.hungAt = some 7 then fallBack (setEcr s (fun e => e.setState e.act 4)) (some 5)
  else bootSelect s

/-! ### S6 and S7 -/

/-- FOLIO_ERR takes the outcome of an attempt (R77, R80). -/
def folioErr (s : State) (code word : Nat) : State :=
  (s.put Blk.folio.base FOLIO_ERR_CODE code).put Blk.folio.base FOLIO_ERR_WORD word

/-- A verified folio of a slot loaded at S6 (R46, R79, R608): cold, or over outputs that a WARM reset holds. -/
def bootLoad (s : State) (slot : Bool) (f : Folio) : State :=
  let s := if s.boot.path = .warm then loadRewrite (loadBefore s f.loaded.sects false) f.loaded false else loadCold s f.loaded
  let s := s.put Blk.folio.base FOLIO_STAT_SLOT slot.toNat
  { s with pwr := { s.pwr with bound := bitsOf (sectWord s 11 0) 23 21 } }

/-- R80: the folio that FSEL names, or (after a hang of S6) the other first; then the other; FSEL records the one loaded.
The outcome: loaded, or the code of the failure. -/
def bootFolio (s : State) : State × Option Nat :=
  let act := s.ecr.act
  let named := act != s.ecr.fsel
  let first := if s.boot.hungAt = some 6 then !named else named
  let sel (s : State) (slot : Bool) : State :=
    s.when (s.ecr.fsel != (slot != act)) (fun s => setEcr s (fun e => { e with fsel := slot != act }))
  match verifyFolio s first act with
  | .ok f => (bootLoad (sel (folioErr s 0 0) first) first f, none)
  | .error (c, w) =>
    let s := folioErr s c w
    match verifyFolio s (!first) act with
    | .ok f => (bootLoad (sel s (!first)) (!first) f, none)
    | .error (c, w) => (folioErr s c w, some c)

/-- R522, R528 S7: the active edition's manifest: its signature and signer, DIGEST over the image, and FLOOR at least the
device's and equal to its folio's; the code of the first failure. -/
def manifestCheck (s : State) (b : Bool) : Option Nat :=
  let m (i : Nat) : Word := manWord s b i
  let ws (a n : Nat) : List Word := (List.range n).map (fun i => m (a + i))
  let ilen := manIlen s b
  if !(signerKnown s (ws 32 16) && signatureOk (ws 32 16) (ws 48 16) (ws 0 48)) then some 0x18
  else if sha256 (wordsOctets (s.words (imageAt b 0) ilen)) != pieces (ws 19 8) then some 0x19
  else
    let fl := bitsOf (m 3) 19 0
    if fl < s.ecr.floor || fl != bitsOf ((folioWords s b).getD 3 0) 19 0 then some 0x1A else none

/-- S7 (R528, R531): the manifest; a failure fails its slot's edition and calls the fall-back.  With it: does the start
resume at S6? -/
def bootManifest (s : State) : State × Bool :=
  if s.boot.input.hang = some (if s.boot.fellBack then 17 else 7) then (setBoot s (fun b => { b with mode := .hung 7 }), false)
  else
    match manifestCheck s s.ecr.act with
    | none => (bootMark s 7 2, false)
    | some c =>
      let s := fallBack (setEcr (bootFail s 7 c) (fun e => e.setState e.act 4)) (some 4)
      (s, isRunning s)

/-- S6 and S7 once (R530, R531): a folio that fails calls the fall-back.  With it: does the start resume at S6? -/
def bootRound (s : State) : State × Bool :=
  let s := bootMark s 6 1
  if s.boot.input.hang = some (if s.boot.fellBack then 16 else 6) then (setBoot s (fun b => { b with mode := .hung 6 }), false)
  else
    let r := bootFolio s
    match r.2 with
    | some c =>
      let s := fallBack (bootFail r.1 6 c) (some 3)
      (s, isRunning s)
    | none => bootManifest (bootMark (bootMark r.1 6 2) 7 1)

/-- S6, S7 and their fall-backs (R530, R531), at most `n` rounds. -/
def bootS67 : Nat → State → State
  | 0, s => s
  | n + 1, s =>
    let r := bootRound s
    if r.2 then bootS67 n r.1 else r.1

/-! ### S8 and S10 -/

/-- R514, R530: each core's decode table from the loaded folio; a pair whose table fails joins ISLOFF. -/
def bootS8 (s : State) (pairs : List Nat) (bad : List Nat) : State :=
  let bad := bad.filter pairs.contains
  let s := s.when (!bad.isEmpty) (fun s => addOff (bootFailOpen s 8) bad)
  s.each (pairs.flatMap pairCores) (fun s c => s.setCore c (fun k => { k with ux := decoTable (s.sect 12) c }))

/-- A core released (R532). -/
def release (s : State) (c entry : Nat) : State :=
  let base := imageAt s.ecr.act 0
  s.setCore c (fun k => { k with
    running := true, stopped := false, waiting := false, pc := BitVec.ofNat 36 (base + 4 * entry),
    regs := ((List.replicate 32 (0 : Word)).set 1 (BitVec.ofNat 36 base)).set 2 (BitVec.ofNat 36 (bootRecAt s)) })

/-- R532: every ready pair of `pairs` is released at the Quill entry, and Signet (when `signet`) at its own. -/
def bootS10 (s : State) (pairs : List Nat) (signet : Bool) : State :=
  let q := bitsOf (manWord s s.ecr.act 12) 22 0
  let g := bitsOf (manWord s s.ecr.act 13) 22 0
  let s := s.each (pairs.filter (fun p => s.ready (if p = 0 then .qa else .qb))) (fun s p =>
    s.each (pairCores p) (fun s c => release s c q))
  s.when (signet && s.ready .signet) (fun s => release s 4 g)

/-! ### The paths (R528) -/

/-- A start begins: its number, path and input; no mark, no failed step; what the ROM held of recovery messages is gone. -/
def bootBegin (s : State) (path : BootPath) (b : BootIn) : State :=
  let s := setBoot s (fun x => { x with
    path := path, mode := .running, number := x.number + 1, marks := 0, fellBack := false, winEnd := none, attn := false, ext := false,
    input := b, began := s.now })
  let s := { s with rcv := { RecSt.reset with resume := s.rcv.resume, dbgEnd := s.rcv.dbgEnd } }
  (s.put Blk.sys.base SYS_BOOTST_FSTEP 15).put Blk.sys.base SYS_BOOTST_FCODE 0

/-- R530: S8 or S9 found hung at the last start: the units that hung go out of use. -/
def hungBefore (s : State) (was : BootIn) : State :=
  match s.boot.hungAt with
  | some 8 => addOff s was.decoBad
  | some 9 => addOff s was.islBad
  | _ => s

/-- S6 to S10 of a POR or WARM start; the boot record closes it. -/
def bootRest (s : State) : State :=
  let s := if isRunning s then bootS67 2 s else s
  let s := bootStep 8 (fun s => bootS8 s [0, 1] s.boot.input.decoBad) s
  let s := bootStep 9 bootS9 s
  let s := bootStep 10 (fun s => bootS10 s [0, 1] true) s
  bootRecord (setBoot s (fun b => { b with hungAt := none }))

/-- R548: a fresh challenge of 128 bits as octets. -/
def freshChallenge (s : State) : List Nat := natOctets 16 (Config.random128 s.fresh).toNat

/-- R576: the monitor test of S0 and S1. -/
def monTest (s : State) : State :=
  if s.boot.input.monOk then
    updateGact (dropCause (s.setBit (safeB + 0x20) 31 false) (fun c => c.cls == 14 && c.idx == 4))
  else testFailed s 4

/-- R13, R528, R582 S1: a power-on reset starts both PLLs and locks them; another start only verifies lock, and does not
come past a PLL1 that was lost. -/
def bootS1 (s : State) (por : Bool) : State :=
  if por then monTest (setPwr s (fun p => { p with pll1 := true, pll2 := true, pll1Lost := false }))
  else if s.pwr.pll1Lost then setBoot s (fun b => { b with mode := .hung 1 })
  else monTest s

/-- A POR or WARM start up to S5; with a request window (POR, or RESET_N) it then waits at the end of S5 (R548). -/
def bootFull (s : State) (path : BootPath) (b : BootIn) (window : Bool) : State :=
  let was := s.boot.input
  let s := bootBegin s path b
  let s := bootStep 0 id s
  let s := bootStep 1 (fun s => bootS1 s (path == .por)) s
  let s := bootStep 4 bootS4 (bootStep 3 bootS3 (bootStep 2 bootS2 s))
  let s := if isRunning s then hungBefore s was else s
  if !isRunning s then bootRecord s
  else
    let s := bootStep 5 bootS5 s
    if !isRunning s then bootRecord (setBoot s (fun b => { b with hungAt := none }))
    else if window then
      let s := setBoot s (fun b => { b with mode := .window, winEnd := some (s.after (ms 20)) })
      bootRecord { s.drawn with rcv := { s.rcv with chal := freshChallenge s, accepted := false, helloAt := some s.now } }
    else bootRest s

/-- A WARM reset and its start (R45, R528). -/
def warmStart (s : State) (cause : WarmCause) (b : BootIn) : State :=
  bootFull (warmReset s cause) .warm b (cause == .external)

/-- A power-on reset and its start. -/
def porStart (s : State) (cause : PorCause) (b : BootIn) : State := bootFull (porReset s cause) .por b true

/-- R530: the CAPPED exit's S6: the CRC word and every SCRC against FOLIO_SCRC. -/
def retainedOk (s : State) (slot : Bool) : Bool :=
  match folioRetained s slot with | some l => (firstBad l).isNone | none => false

/-- The start of a CAPPED exit, after the wake sequence: S2 only clears, and the running edition is kept; a folio that
differs restarts the boot as a WARM start. -/
def cappedStart (s : State) (b : BootIn) : State :=
  let was := s.boot.input
  let s := bootBegin s .capped { b with sramBad := [] }
  let s := bootStep 1 id (bootStep 0 id s)
  let s := bootStep 5 id (bootStep 4 bootS4 (bootStep 3 bootS3 (bootStep 2 bootS2 s)))
  let s := if isRunning s then hungBefore s was else s
  if !isRunning s then bootRecord s
  else
    let slot := s.get Blk.folio.base FOLIO_STAT_SLOT == 1
    if !retainedOk s slot then warmStart (bootRecord (bootFailOpen s 6)) .bootFail b
    else
      let s := bootStep 6 (fun s => bootLoad s slot ⟨s.folio.header, s.folio.sects.map (fun p => (p.1, 0, p.2))⟩) s
      let s := bootStep 8 (fun s => bootS8 s [0, 1] s.boot.input.decoBad) s
      let s := bootStep 9 bootS9 s
      let s := bootStep 10 (fun s => bootS10 s [0, 1] true) s
      bootRecord (setBoot s (fun b => { b with hungAt := none }))

/-- The start of a PARK exit: S1, S8, S9 and S10 (R528, R566); an install that was open has ended (R537). -/
def parkStart (s : State) (b : BootIn) : State :=
  let s := writingGone (bootBegin s .park b)
  let s := bootStep 1 id s
  let s := bootStep 8 (fun s => bootS8 s [0, 1] s.boot.input.decoBad) s
  let s := bootStep 9 bootS9 s
  let s := bootStep 10 (fun s => bootS10 s [0, 1] true) s
  bootRecord (setBoot s (fun b => { b with hungAt := none }))

/-! ### A CORE reset (R45, R145, R533) -/

/-- The reset of one pair: its cores, targets, call pages and (after a refold) memory and table; a hold where the pair
owns the heartbeat. -/
def pairReset (s : State) (p : Nat) (refold : Bool) : State :=
  let s := s.when (ownsBeat s p) (fun s => holdStart s 2)
  let s := callPages (icuResetTargets (coresReset s (pairCores p) (!refold)) (pairCores p)) (pairCores p)
  s.when refold (fun s => tcmClear s (pairCores p))

/-- S8 and S10 for the pair alone. -/
def pairStart (s : State) (p : Nat) (s8ok : Bool) : State :=
  if !isRunning s then s
  else
  let isl := if p = 0 then Island.qa else .qb
  let s := bootBegin s .core .good
  let s := bootStep 8 (fun s => bootS8 s [p] (if s8ok then [] else [p])) s
  let s := s.when (isOffed s isl) (fun s => s.setReady isl false)
  bootRecord (bootStep 10 (fun s => bootS10 s [p] false) s)

/-- A CORE reset of a pair (R47, R578): PWR at its reset values (R571); SYS_RSTCAUSE names the pair, and SAFE where the
fault manager made it. -/
def coreStart (s : State) (p : Nat) (bySafe s8ok : Bool) : State :=
  let s := s.put Blk.sys.base (if p = 0 then SYS_RSTCAUSE_COREA else SYS_RSTCAUSE_COREB) 1
  let s := s.when bySafe (fun s => s.put Blk.sys.base SYS_RSTCAUSE_SAFE 1)
  pairStart (pwrReset (pairReset s p false) false false) p s8ok

/-- R84, R87: a refold reaches a pair by CORE reset; where it is the pair that issued it, SYS_RSTCAUSE.REFOLD is set too. -/
def refoldPair (s : State) (p : Nat) (issuer : Bool) : State :=
  let s := s.put Blk.sys.base (if p = 0 then SYS_RSTCAUSE_COREA else SYS_RSTCAUSE_COREB) 1
  let s := s.when issuer (fun s => s.put Blk.sys.base SYS_RSTCAUSE_REFOLD 1)
  pairStart (pairReset s p true) p true

end Sys2Proof.Machine
end

