-- ==== Sys2Proof/Machine/FolioCmds.lean ====
section
/-! DEFINITION. The FOLIO block: its command, a refold and a verification (R82–R89, R538, R613). -/

namespace Sys2Proof.Machine

def folB : Nat := 0x40030000

/-- The checks of FOLIO_CMD (R85, R89): TRUST alone; no command runs; KEY and OP. -/
def folioChk (r : WriteReq) (s : State) (w : Word) : Fails :=
  if r.off = 4 then
    failAt (r.src.world != .trust) 2 0x04 ++ failAt (s.flag folB FOLIO_STAT_BUSY) 4 0x06
    ++ failAt (FOLIO_CMD_KEY.of w != 0xA5 || !([1, 2, 3].contains (FOLIO_CMD_OP.of w))) 11 0x02
  else []

/-- A command ends: with the failure's code and word, or without. -/
def folioEnd (s : State) (fail : Option (Nat × Nat)) : State :=
  let s := { s.put folB FOLIO_STAT_BUSY 0 with folio := { s.folio with cmd := none, next := none } }
  match fail with
  | some (c, w) => (folioErr s c w).put folB FOLIO_STAT_ERR 1
  | none => s.put folB FOLIO_STAT_DONE 1

/-- R83 step 1, R89: a command starts; a slot that holds no usable folio fails at once (R538, R613). -/
def folioStart (s : State) (src : Src) (op : Nat) : State :=
  let s := (s.put folB FOLIO_STAT_DONE 0).put folB FOLIO_STAT_ERR 0
  if !slotUsable s (s.ecr.act != (op != 1)) then folioEnd s (some (0x10, 0))
  else
    let cmd := if op = 3 then FolioCmd.verifyOnly else .refold (op == 2) src.req
    { s.put folB FOLIO_STAT_BUSY 1 with folio := { s.folio with cmd := some cmd } }

/-- What an accepted write does. -/
def folioWritten (r : WriteReq) (s : State) (_ w : Word) : State :=
  if r.off = 4 then folioStart s r.src (FOLIO_CMD_OP.of w) else s

/-- A write to FOLIO. -/
def folioWrite (r : WriteReq) (s : State) : State := blockWrite r (folioChk r) false (folioWritten r) noRej s

/-- R83 step 3: the changed sections are marked, affected targets take their safe states, affected islands are not
ready. -/
def refoldStep3 (s : State) (other : Bool) (req : Nat) (f : FolioSt) : State :=
  let old := s.folio.sects
  let isls := changedIslands old f.sects
  let s := s.put folB FOLIO_SECTCHG_CHG (((changedSects old f.sects).map (fun ty => 2 ^ (ty - 1))).sum)
  let cmd := FolioCmd.rewritten other req (changedFuncs old f.sects) (changedCans old f.sects) isls
  let s := loadBefore s f.sects (isls.contains .light)
  let s := { s with folio := { s.folio with cmd := some cmd, next := some (f.header, f.sects) } }
  s.each (isls.filter s.ready) (fun s i => s.setReady i false)

/-- FOLIO_VERIFY_END (R77, R83 steps 2 and 3, R89): the verification ends. -/
def execFolioVerifyEnd (s : State) : Answer :=
  (match s.folio.cmd with
  | some .verifyOnly =>
    (match verifyFolio s (!s.ecr.act) (!s.ecr.act) with
    | .error e => folioEnd s (some e)
    | .ok _ => folioEnd s none)
  | some (.refold other req) =>
    (match verifyFolio s (s.ecr.act != other) s.ecr.act with
    | .error e => folioEnd s (some e)
    | .ok f => refoldStep3 s other req f.loaded)
  | _ => s).next

/-- R83 steps 4 and 5, R84: affected islands reset, structural registers rewritten, FSEL recorded, the vault and the
pairs reset that the load changes; the islands return. -/
def refoldRewrite (s : State) (other : Bool) (req : Nat) (cans : List Nat) (isls : List Island) (new : FolioSt) : State :=
  let old := s.folio.sects
  let ch := changedSects old new.sects
  let pairs := changedPairs old new.sects
  let s := s.when (isls.contains .tbase) tbaseReset
  let s := s.when (isls.contains .net) netReset
  let s := s.when (isls.contains .ring) ringReset
  let s := s.each cans (fun s n => canMemClear (canReset1 s n) (0x04000000 + n * 0x8000) (0x04008000 + n * 0x8000))
  let s := loadRewrite (pwrReset s true false) new (isls.contains .light)
  let s := setEcr s (fun e => { e with fsel := other })
  let s := s.put folB FOLIO_STAT_SLOT (s.ecr.act != other).toNat
  let s := s.when (ch.contains 13 || ch.contains 14) (fun s =>
    let s := accReset (vaultRefold s)
    loadStruct (icuResetTargets (coresReset s [4] true) [4]))
  let s := s.each pairs (fun s p => refoldPair s p (decide (req < 4) && req / 2 == p))
  let s := s.each (isls.filter (fun i => (domIslands (sectWord s 11 0)).contains i && !isOffed s i))
    (fun s i => s.setReady i true)
  s.when (isls.contains .signet && isRunning s && s.ready .signet) (fun s =>
    release s 4 (bitsOf (manWord s s.ecr.act 13) 22 0))

/-- REFOLD_DONE (R83 steps 4 and 5): the command completes. -/
def execRefoldDone (s : State) : Answer :=
  (match s.folio.cmd, s.folio.next with
  | some (.rewritten other req _ cans isls), some (h, l) =>
    folioEnd (refoldRewrite s other req cans isls ⟨h, l, none, none⟩) none
  | _, _ => s).next

end Sys2Proof.Machine
end

