-- ==== Sys2Proof/Machine/Update.lean ====
section
/-! DEFINITION. The update engine, editions, trial and the store's row writes (R534–R546), and the SYS block (R47). -/

namespace Sys2Proof.Machine

def sysB : Nat := 0x40000000

def setUpd (s : State) (g : UpdSt → UpdSt) : State := { s with upd := g s.upd }

/-! ### The package's cipher (R523) -/

/-- IV of a manifest (R522). -/
def manIv (m : List Word) : List Nat := pieces ((m.drop 16).take 3)

/-- R523: the plaintext of the ciphertext words received so far. -/
def updPlain (s : State) : List Word :=
  bitWords (gcmCtr (s.upd.dkReg.getD []) (manIv s.upd.manifest) (bitOctets s.upd.cipher)) s.upd.cipher.length

/-- R523: the package's tag as the engine computes it. -/
def updTag (s : State) : List Nat :=
  let aad := wordsOctets (s.upd.manifest.take 48)
  gcmTag (s.upd.dkReg.getD []) (manIv s.upd.manifest) aad (bitOctets s.upd.cipher) (8 * aad.length) (36 * s.upd.cipher.length)

/-! ### The store's cipher (R408, R409, R524) -/

/-- R409: the 512-bit edition storage key, slot 31's. -/
def storageKey : List Nat := labelKey 0x0ED170001

/-- R524: the number of data unit `u` of a slot. -/
def unitNumber (slot : Bool) (u : Nat) : Nat := (if slot then 2 ^ 17 else 0) + u

/-- R524: what the store holds of data unit `u` of a slot: AES-256-XTS of the 32 words whose plaintext `State.mem` holds as
the read map returns it (R26; log entry 73). -/
def storedUnit (s : State) (slot : Bool) (u : Nat) : List Word :=
  bitWords (xtsEnc storageKey (unitNumber slot u) (bitOctets (s.words (slotBase slot + 128 * u) 32))) 32

/-- R26, R408: what engine E2 returns for a stored data unit under a key. -/
def e2Read (key : List Nat) (slot : Bool) (u : Nat) (ws : List Word) : List Word :=
  bitWords (xtsDec key (unitNumber slot u) (bitOctets ws)) 32

/-! ### BEGIN, DATA, END and ABORT (R534–R537) -/

/-- R522: fields, ranges and must-be-0 bits of a manifest. -/
def manifestLegal (m : List Word) : Bool :=
  let g (i : Nat) : Word := m.getD i 0
  let ilen := bitsOf (g 5) 22 0
  let fw := bitsOf (g 6) 22 0
  g 0 == 0xED170A036 && bitsOf (g 1) 35 20 == 0x3672 && bitsOf (g 1) 19 12 == 1 && bitsOf (g 1) 11 0 == 1
    && bitsOf (g 3) 35 20 == 0 && decide (1024 ≤ ilen ∧ ilen ≤ 4194240 ∧ 256 ≤ fw ∧ fw < ilen)
    && bitsOf (g 7) 35 20 != 0xFFFF && g 14 == 0 && g 15 == 0 && ((List.range 5).all (fun i => g (27 + i) == 0))

/-- R534: the code of the first check that BEGIN fails. -/
def beginFail (s : State) (m : List Word) : Option Nat :=
  let sub (a n : Nat) : List Word := (m.drop a).take n
  firstCode [failIf (s.get sysB SYS_UPDSTAT_STAGE != 0) 0x17, failIf (s.flag Blk.folio.base FOLIO_STAT_BUSY) 0x06,
    failIf s.ecr.trial 0x15, failIf s.upd.dkReg.isNone 0x1E, failIf (!manifestLegal m) 0x18,
    failIf (!(signerKnown s (sub 32 16) && signatureOk (sub 32 16) (sub 48 16) (sub 0 48))) 0x18,
    failIf (bitsOf (m.getD 3 0) 19 0 < s.ecr.floor) 0x1A]

/-- R534: an install opens in slot `slot`. -/
def updBegin (s : State) (slot : Bool) (m : List Word) : State :=
  let s := setEcr s (fun e => { e.setState slot 1 with arm := e.arm && e.armslot != slot })
  let s := (s.putWords (slotBase slot) m).wr (sysB + 0x84)
    (setBits (setBits (setBits (s.rd (sysB + 0x84)) 25 24 1) 23 23 slot.toNat) 22 0 0)
  setUpd s (fun u => { u with manifest := m, cipher := [] })

/-- R535: is `nw` the number of words that DATA must bring now? -/
def dataDue (s : State) : Nat := min 64 (bitsOf (s.upd.manifest.getD 5 0) 22 0 - s.get sysB SYS_UPDSTAT_RCVD)

/-- R535: the words of DATA decrypted and written at the next image words; RCVD advances. -/
def updData (s : State) (nw : Nat) : State :=
  let slot := s.get sysB SYS_UPDSTAT_SLOT == 1
  let at_ := s.get sysB SYS_UPDSTAT_RCVD
  let s := s.putWords (imageAt slot at_) ((updPlain s).drop at_)
  s.put sysB SYS_UPDSTAT_RCVD (at_ + nw)

/-- R536: END: the tag and DIGEST checked; the slot INSTALLED with what its manifest says, or EMPTY. -/
def updEnd (s : State) (tag : List Nat) : State × Bool :=
  let slot := s.get sysB SYS_UPDSTAT_SLOT == 1
  let m := s.upd.manifest
  let ok := updTag s == tag && sha256 (wordsOctets (updPlain s)) == pieces ((m.drop 19).take 8)
  let s := (s.put sysB SYS_UPDSTAT_STAGE 0)
  let s := setUpd s (fun u => { u with manifest := [], cipher := [] })
  if ok then
    ((setEcr s (fun e => e.setSlot slot ⟨2, bitsOf (m.getD 7 0) 35 20, m.getD 2 0, bitsOf (m.getD 3 0) 19 0⟩)).put sysB
      SYS_UPDSTAT_DONE 1, true)
  else ((setEcr s (fun e => e.setState slot 0)).put sysB SYS_UPDSTAT_ERR 0x19, false)

/-- R537: ABORT. -/
def updAbort (s : State) : State :=
  let slot := s.get sysB SYS_UPDSTAT_SLOT == 1
  let s := s.when (s.get sysB SYS_UPDSTAT_STAGE == 1) (fun s => setEcr s (fun e => e.setState slot 0))
  setUpd (s.put sysB SYS_UPDSTAT_STAGE 0) (fun u => { u with manifest := [], cipher := [] })

/-- R539: DK sealed into the vault records and kept in the engine's register; the buffer is zeroed. -/
def dkImport (s : State) (dk : List Nat) : State :=
  setUpd s (fun u => { u with dkSealed := some dk, dkReg := some dk, buf := [] })

def updBuf (s : State) (k : Nat) : Word := Cells.read 0 s.upd.buf k
/-- Words of SYS_UPDBUF from `a`. -/
def updBufs (s : State) (a n : Nat) : List Word := (List.range n).map (fun i => updBuf s (a + i))

/-- The checks of SYS_UPDCMD (R534–R537, R539). -/
def updChk (s : State) (src : Src) (w : Word) : Fails :=
  let op := SYS_UPDCMD_OP.of w
  let nw := SYS_UPDCMD_NW.of w
  let own (c : Option Nat) : Fails := match c with | some c => [(12, c)] | none => []
  failAt (s.flag sysB SYS_UPDSTAT_BUSY) 4 0x06 ++
  match op with
  | 1 => own (beginFail s (updBufs s 0 64))
  | 2 => failAt (s.get sysB SYS_UPDSTAT_STAGE != 1 || nw != dataDue s || nw == 0) 12 0x17
  | 3 => failAt (s.get sysB SYS_UPDSTAT_STAGE != 1 || s.get sysB SYS_UPDSTAT_RCVD != bitsOf (s.upd.manifest.getD 5 0) 22 0) 12 0x17
  | 5 => failAt (src.world != .seal) 2 0x04 ++ failAt (lcState s != 1) 3 0x05 ++ failAt s.upd.dkSealed.isSome 12 0x1D
  | _ => []

/-- An accepted SYS_UPDCMD: BEGIN, DATA and END run until UPD_COMMAND_DONE. -/
def updCommand (s : State) (w : Word) : State :=
  let run (s : State) (op nw : Nat) : State := setUpd (s.put sysB SYS_UPDSTAT_BUSY 1) (fun u => { u with cmd := some op, nw := nw })
  let nw := SYS_UPDCMD_NW.of w
  match SYS_UPDCMD_OP.of w with
  | 1 => run (updBegin s (!s.ecr.act) (updBufs s 0 64)) 1 0
  | 2 => run (setUpd s (fun u => { u with cipher := u.cipher ++ updBufs s 0 nw })) 2 nw
  | 3 => run s 3 0
  | 4 => updAbort s
  | _ => dkImport s (pieces (updBufs s 0 8))

/-- UPD_COMMAND_DONE (R534–R536): the running command ends. -/
def execUpdCommandDone (s : State) : Answer := s.on .store <|
  (match s.upd.cmd with
  | none => s
  | some op =>
    let s' := setUpd (s.put sysB SYS_UPDSTAT_BUSY 0) (fun u => { u with cmd := none })
    match op with
    | 2 => updData s' s.upd.nw
    | 3 => (updEnd s' (pieces (updBufs s 0 4))).1
    | _ => s').next

/-! ### Editions (R540–R544) -/

/-- R540: what each command of SYS_EDCMD is rejected with. -/
def edFail (s : State) (op : Nat) : Option Nat :=
  let e := s.ecr
  let o := e.slot (!e.act)
  match op with
  | 1 | 2 => firstCode [failIf (o.state != 2) 0x16, failIf e.trial 0x15]
  | 4 => firstCode [failIf (!e.trial) 0x1F, failIf e.fsel 0x1B]
  | 5 => firstCode [failIf (o.state != 3) 0x16, failIf (o.floor < e.floor) 0x1A, failIf (e.fmt0 != o.dfmt && e.fmt1 != o.dfmt) 0x1C]
  | _ => none

/-- The trial run time in ticks: TRUN and what has passed since (R541). -/
def trialRun (s : State) : Nat := s.ecr.trun * sec 1 + s.upd.trialTicks

/-- R542: an accepted CONFIRM, in one ECR record. -/
def edConfirm (e : Ecr) : Ecr :=
  let locked := halfLocked e
  { e.setState e.act 3 with trial := false, floor := max e.floor (e.slot e.act).floor, dhalf := e.dhalf != locked }

/-- R540: REVERT: the other slot armed, with the half whose format matches. -/
def edRevert (e : Ecr) : Ecr :=
  let d := (e.slot (!e.act)).dfmt
  { e with arm := true, armslot := !e.act, armtrial := false,
           dhalf := if (if e.dhalf then e.fmt1 else e.fmt0) = d then e.dhalf else !e.dhalf }

/-- An accepted SYS_EDCMD. -/
def edCommand (s : State) (op : Nat) : State :=
  let warm (s : State) : State := { s.put sysB SYS_EDSTAT_LASTSW 0 with warmDue := some .software }
  let arm (e : Ecr) : Ecr := { e with arm := true, armslot := !e.act, armtrial := true }
  match op with
  | 1 => setEcr s arm
  | 2 => warm (setEcr s arm)
  | 3 => setEcr s (fun e => { e with arm := false })
  | 4 =>
    let s := s.when (trialRun s == sec 600) (fun s => s.put sysB SYS_EDSTAT_COINCIDENT 1)
    setEcr s edConfirm
  | 5 => setEcr s edRevert
  | 6 => setEcr s (fun e => { e with isloff := 0 })
  | _ => warm (setEcr s (fun e => { e with recreq := true }))

/-- TRIAL_TIME_RECORD (R541): ten further seconds of run time are written into TRUN. -/
def execTrialTimeRecord (s : State) : Answer :=
  (s.when (s.ecr.trial && decide (sec 10 ≤ s.upd.trialTicks)) (fun s =>
    setEcr (setUpd s (fun u => { u with trialTicks := u.trialTicks - sec 10 })) (fun e => { e with trun := min 600 (e.trun + 10) }))).next

/-- TRIAL_EXPIRY (R541): the run time reaches 600 s: a WARM reset is due, after which S5 falls back. -/
def trialExpiryEffect (s : State) : State :=
  let s := setEcr (setUpd s (fun u => { u with trialTicks := 0 })) (fun e => { e with trun := 600 })
  { (s.put sysB SYS_EDSTAT_FBCAUSE 2).put sysB SYS_EDSTAT_LASTSW 1 with warmDue := some .trial }

/-- TRIAL_EXPIRY once served: where the trial still runs and its time is over. -/
def trialServe (s : State) : State := s.when (s.ecr.trial && decide (sec 600 ≤ trialRun s)) trialExpiryEffect

/-- TRIAL_EXPIRY (R541, R543): in the very tick in which the run time reaches 600 s it acts after that tick's writes. -/
def execTrialExpiry (s : State) : Answer :=
  (s.expire (if trialRun s = sec 600 then some s.now else none) .trialExpiry trialServe).next

/-! ### Row writes (R545) -/

/-- The half of the data store that firmware may write (R544). -/
def dataHalf (e : Ecr) : Bool := e.dhalf != halfLocked e

/-- R545: the code of a row address that may not be written. -/
def rowFail (s : State) (a : Nat) : Option Nat :=
  let half (b : Bool) : Bool := if b then 0x12600000 ≤ a && a < 0x12C00000 else 0x12000000 ≤ a && a < 0x12600000
  if a % 256 ≠ 0 then some 0x13
  else if 0x12F00000 ≤ a && a < 0x13000000 then none
  else if half (dataHalf s.ecr) then none
  else if halfLocked s.ecr && half s.ecr.dhalf then some 0x14 else some 0x13

/-- An accepted SYS_NVCMD: the row write runs. -/
def rowStart (s : State) : State :=
  { s.put sysB SYS_NVSTAT_BUSY 1 with
    nvRow := some (s.get sysB SYS_NVADDR_ADDR, (List.range 64).map (fun k => s.rd (sysB + 0x100 + 4 * k))) }

/-- NV_ROW_WRITE_DONE (R545): the row holds the new words. -/
def execNvRowWriteDone (s : State) : Answer := s.on .store <|
  (match s.nvRow with
  | none => s
  | some (a, ws) =>
    let s := healBad ({ s.putWords a ws with nvRow := none }) a 256
    (s.put sysB SYS_NVSTAT_BUSY 0).put sysB SYS_NVSTAT_DONE 1).next

/-! ### The SYS block -/

/-- The checks of SYS (R47, R534, R540, R545). -/
def sysBlkChk (r : WriteReq) (s : State) (w : Word) : Fails :=
  let trust : Fails := failAt (r.src.world != .trust) 2 0x04
  let own (c : Option Nat) : Fails := match c with | some c => [(12, c)] | none => []
  match r.off with
  | 0x10 => trust
  | 0x60 => trust ++ own (edFail s (SYS_EDCMD_OP.of w))
  | 0x74 => trust ++ failAt (s.flag sysB SYS_NVSTAT_BUSY) 4 0x06 ++ own (rowFail s (s.get sysB SYS_NVADDR_ADDR))
  | 0x80 => updChk s r.src w
  | _ => []

/-- What an accepted write to SYS does; `s8ok`: S8 passes for a pair that resets. -/
def sysBlkDone (s8ok : Bool) (o : Nat) (s : State) (w : Word) : State :=
  match o with
  | 0x10 =>
    (match SYS_RESET_KIND.of w with
    | 0 => { s.put sysB SYS_EDSTAT_LASTSW 0 with warmDue := some .software }
    | k => coreStart s (k - 1) false s8ok)
  | 0x60 => edCommand s (SYS_EDCMD_OP.of w)
  | 0x74 => rowStart s
  | 0x80 => updCommand s w
  | _ =>
    if 0x200 ≤ o && o < 0x300 then setUpd s (fun u => { u with buf := Cells.write 0 u.buf ((o - 0x200) / 4) w }) else s

/-- A write to SYS. -/
def sysBlkWrite (s8ok : Bool) (r : WriteReq) (s : State) : State :=
  blockWrite r (sysBlkChk r) false (fun s _ w => sysBlkDone s8ok r.off s w) noRej s

end Sys2Proof.Machine
end

