-- ==== Sys2Proof/Machine/Power.lean ====
section
/-! DEFINITION. The power manager, the entry to and the exit from the park states, the always-on island and its real-time
clock (R555–R571). -/

namespace Sys2Proof.Machine

/-! ### Choosing a state (R557, R559) -/

/-- The cap of an island: `lift` while a condition that excludes REST holds, else CAPPED. -/
def capIf (c : Bool) : Nat := if c then 2 else 5

/-- R151, R221, R246, R559: the power island admits nothing deeper than LIFT. -/
def powerBusy (s : State) : Bool :=
  (usedFuncs s).any (fun f =>
    let st := chState s f
    !(st == stOff || st == stLocked || st == stProfile || st == stMotion
      || (st == stSafe && !(s.ch f).hs && !(s.ch f).ls) || (st == stOn && s.flag (pscP f) PSC_CMD_PKEEP)))
  || (List.range 6).any (fun k => motState s k != 0) || (List.range 16).any (fun k => stkPhase s k != 0)

/-- R276, R559: a target neither OFF nor LOCKED, or the chain port enabled; a matrix column is OFF while the matrix is. -/
def lightBusy (s : State) : Bool :=
  (List.range 8).any (fun n => bitAt (sectWord s 7 0) n && !(stState s n == 0 || stState s n == 4))
  || (List.range 48).any (fun n => tgtUsed s (.sink n) && !(skState s n == 0 || skState s n == 5))
  || (hasMatrix s && (s.flag lgt LGT_MXCTRL_EN || s.light.matrix.nextSlot.isSome))
  || s.flag lch LCH_CTRL_EN || s.flag lch LCH_STAT_SAFE

/-- R340, R354, R398, R559: the network island's cap. -/
def netCap (s : State) : Nat :=
  if (List.range 8).any (fun n => s.flag (canB n) CAN_CTRL_EN) || (List.range 12).any (fun n => s.flag (linB n) LIN_CTRL_EN)
    || (List.range 6).any (fun p => s.flag (ethB p) ETH_CTRL_EN) || s.rcv.dbgEnd.isSome then 2
  else if (List.range 12).any (fun c => s.flag (nmgP c) NMG_CTRL_EN && !(nmgState s c == 4 || nmgState s c == 0)) then 3
  else 5

/-- R448: the access unit holds work. -/
def accWork (s : State) : Bool :=
  sessState s != 0 || s.acc.reading.any id || !s.acc.codes.isEmpty || s.acc.held.any Option.isSome || s.acc.exec.isSome
    || s.acc.learn.isSome

/-- R559: the Signet island's cap. -/
def signetCap (s : State) : Nat :=
  if s.flag cryptB CRYPT_STAT_BUSY || (List.range 4).any (fun c => s.flag (cstatP c) VAULT_CSTAT_PEND) || accWork s then 3 else 5

/-- PWR_CAP: power, lighting, network, timebase, ring, store, Signet (R559). -/
def islandCaps (s : State) : List Nat :=
  [capIf (powerBusy s), capIf (lightBusy s), netCap s,
   capIf ((List.range 32).any (fun n => s.flag (tmrP n) TMR_STAT_RUNNING) || s.flag inpB INP_ADCTRL_EN),
   capIf (s.flag ringB RING_CTRL_EN), capIf (s.nvRow.isSome || s.get sysB SYS_UPDSTAT_STAGE != 0), signetCap s]

/-- The requesters whose tolerance counts (R557): Signet, and the Quill cores in use, neither in ISLOFF nor the odd core of
a locked pair. -/
def requesters (s : State) : List Nat :=
  (List.range 4).filter (fun c => bitAt (sectWord s 11 0) (33 - c / 2) && !isOffed s (if c < 2 then .qa else .qb)
    && !coreIdle s c) ++ [4]

/-- The tolerance of a requester. -/
def tolOf (s : State) (c : Nat) : Nat := bitsOf (s.core c).ltr 31 0

/-- PWR_TOL: the requester with the smallest tolerance (the lowest number where two are equal), and that tolerance. -/
def minTol (s : State) : Nat × Nat :=
  (requesters s).foldl (fun b c => if tolOf s c < b.2 then (c, tolOf s c) else b) (4, tolOf s 4)

/-- R556: the exit latency of a state's code, ticks. -/
def exitLatency (code : Nat) : Nat := match code with | 1 => 3 | 2 => 200 | 3 => 15000 | 4 => 250000 | _ => 1200000

/-- PWR_STAT.CHOSEN (R557): the state that the manager would enter if every requester waited; IDLE at least. -/
def chosenState (s : State) : Nat :=
  let cap := (islandCaps s).foldl min (min (s.get pwrB PWR_MODE_DEEPEST) s.pwr.bound)
  let cap := if s.rd (aonB + 4) = 0 then cap else min cap 2
  let tol := (minTol s).2
  (([2, 3, 4, 5].filter (fun c => c ≤ cap && exitLatency c ≤ tol)).foldl max 1)

/-- The state of a code deeper than IDLE. -/
def PState.ofCode (c : Nat) : PState := match c with | 2 => .lift | 3 => .rest | 4 => .park | 5 => .capped | _ => .run

/-- POWER_STATE_CHOICE (R557, R561): with every requester waiting the manager enters the state chosen: LIFT at once;
deeper, an entry begins, whose saves take `save` ticks (at most 40 µs) before the commit in the next one. -/
def execPowerStateChoice (save : Nat) (s : State) : Answer :=
  (let c := chosenState s
   s.when (isRunning s && s.pwr.entry.isNone && s.pwr.stage.isNone && (s.pwr.state == .run || s.pwr.state == .lift)
      && (requesters s).all (fun k => (s.core k).waiting) && decide (s.pwr.state.code < c) && decide (2 ≤ c)) (fun s =>
    if c = 2 then setPwr s (fun p => { p with state := .lift })
    else setPwr (s.put pwrB PWR_STAT_ENTRY 1) (fun p => { p with
      state := .run, entry := some (.ofCode c, s.after (min save 4000 + 1)) }))).next

/-! ### The commit (R561, R568) -/

/-! ### Pads (R568, R586, R588–R590) -/

/-- R588, R589: the level that multi-function land `n` is driven at (none: high-impedance): a STATIC level, or OUT of a timer
terminal in compare-output mode; an open drain drives low alone. -/
def mfDriven (s : State) (n : Nat) : Option Bool :=
  match termWord s (241 + n) with
  | none => none
  | some w =>
    let v : Option Bool := match bitsOf w 25 16 with
      | 2 => some (bitAt w 11)
      | f => if f == 16 + n && s.ready .tbase && tmrMode s n == 3 then some (s.flag (tmrP n) TMR_STAT_OUT) else none
    if bitAt w 12 && v == some true then none else v

/-- The pad group of a multi-function land that TERM assigns: a timer terminal's 3, another's 4. -/
def mfGroup (s : State) (n : Nat) : Nat :=
  if termFunc s (241 + n) (16 + n) then 3 else 4

/-- R568, R590: the level on multi-function land `n`: while its group is held, the one latched at the commit. -/
def mfLevel (s : State) (n : Nat) : Option Bool :=
  if bitAt (s.rd (aonB + 0x14)) (mfGroup s n) then s.pwr.pads.getD n none else mfDriven s n

/-- R568: the level at which the LED chain port's and a SPI controller's lands are held (none: an input); T205–T218. -/
def padHeld (land : Nat) : Option Bool :=
  match land with
  | 205 | 206 | 207 | 209 | 210 | 214 | 215 => some false
  | 208 | 212 | 217 => some true
  | _ => none

/-- R568: every pad group is latched. -/
def padLatch (s : State) : State :=
  let l := (List.range 32).map (mfLevel s)
  setPwr (s.put aonB AON_PADHOLD_HELD 0x3F) (fun p => { p with pads := l })

/-- What a state deeper than LIFT stops or loses at its commit: the pads latch but for REST, the timebase is recorded, and
the islands that R555 stops or switches off are ready no more. -/
def downAt (s : State) (st : PState) : State :=
  let s := inpPark s
  let run := s.flag Blk.psg.base PSG_STAT_HBRUN
  let s := s.when run (fun s => let s := beatStop s; { s with beat := { s.beat with paused := true } })
  let s := s.when (st != .rest) (fun s =>
    lightCold (linPark (nmgPark (powerPark (padLatch s) (st == .capped)) (st == .capped))))
  let keep := st == .rest && (usedFuncs s).any (fun f => chState s f == stOn)
  let pw := s.ready .power && keep
  let s := (allNotReady s).setReady .power pw
  { setPwr (s.put pwrB PWR_STAT_LAST st.code) (fun p => { p with state := st, entry := none, pll1 := false, pll2 := false }) with
    tbRec := s.now, rtcN := 0, tbRun := false, flights := [] }

/-- PARK_ENTRY_COMMIT once served.  Where an island no longer admits the state (a timer runs again, R309), the entry ends
and the manager chooses again (log entry 104). -/
def entryServe (s : State) : State :=
  match s.pwr.entry with
  | some (st, t) => s.when (s.reached t) (fun s =>
      let s' := s.put pwrB PWR_STAT_ENTRY 0
      if st.code ≤ (islandCaps s).foldl min 5 then downAt s' st else setPwr s' (fun p => { p with entry := none }))
  | none => s

/-- PARK_ENTRY_COMMIT (R561, R562, R568, R616): the commit of the entry that runs; a wake or an interrupt in its very tick
aborts the entry. -/
def execParkEntryCommit (s : State) : Answer := (s.expire (s.pwr.entry.map (·.2)) .parkEntryCommit entryServe).next

/-! ### Wake sources -/

/-- The sources of R564, in the order of AON_WAKEEN from bit 31. -/
def wakeBit (src : Fin 9) : Nat := 31 - src.val


/-- PARK_INPUT_SAMPLE (R283–R285, R291): the end of a group's pulse in a park sample. -/
def parkInputSampleEffect (kl30 : Int) (pins ans : List (Nat × Int)) (s : State) : State :=
  let marks (s : State) : Word × Word × Word := (s.rd (inpB + 0x28), s.rd (inpB + 0x2C), s.rd (inpB + 0x30))
  let t := (parkSample s kl30 pins ans).1
  let a := marks s
  let b := marks t
  let t := t.when (a.1 != b.1 || a.2.1 != b.2.1) (fun t => wakeDetect t 31)
  t.when (a.2.2 != b.2.2) (fun t => wakeDetect t 30)

/-- PARK_INPUT_SAMPLE where its condition holds; else nothing happens. -/
def execParkInputSample (kl30 : Int) (pins ans : List (Nat × Int)) (s : State) : Answer :=
  (s.when (isDown s && !s.tbRun && decide (parkAtEnd s ≤ s.rtcN * 390625 / 128)) (parkInputSampleEffect kl30 pins ans)).next

/-! ### The wake sequence (R566, R567) -/

/-- The count as the always-on island would restore it now. -/
def parkTime (s : State) : State := { s with now := restoredCount s.tbRec s.rtcN }

/-- PWR_LAT advanced by `us` µs, PWR_WAKESEQ's stage field by them in 10 µs. -/
def wakeLog (s : State) (st : WakeStage) (n : Nat) : State :=
  let s := s.putNat pwrB PWR_LAT_LAT (s.get pwrB PWR_LAT_LAT + n)
  let rec_ (f : Fld) : State := s.put pwrB f (min 127 (n / 10))
  match st with
  | .regulator => rec_ PWR_WAKESEQ_REG | .oscillator => rec_ PWR_WAKESEQ_XTAL | .pll => rec_ PWR_WAKESEQ_PLL
  | .memory => rec_ PWR_WAKESEQ_MEM | .logic => rec_ PWR_WAKESEQ_LOGIC | .boot => s

/-- R22: a stop of 2^35 ticks or more outlasts every deadline (R20): each one that waited is reached. -/
def deadlinesPassed (s : State) : State :=
  if s.rtcN * 390625 / 128 < 2 ^ 35 then s
  else
    let d (o : Option Word) : Option Word := o.map (fun _ => s.now - 1)
    { s with
      chans := s.chans.map (fun c => { c with
        testAt := d c.testAt, testEnd := d c.testEnd, retryAt := d c.retryAt, quiet := s.now - BitVec.ofNat 36 (2 ^ 35) })
      beat := { s.beat with deadline := d s.beat.deadline, holdEnd := d s.beat.holdEnd }
      light := { s.light with
        strs := s.light.strs.map (fun (x : StrDrv) => { x with testEnd := d x.testEnd })
        sinks := s.light.sinks.map (fun (x : Sink) => { x with testEnd := d x.testEnd }) }
      nmgs := s.nmgs.map (fun c => { c with
        repEnd := d c.repEnd, commit := d c.commit, confEnd := d c.confEnd
        idleAt := s.now - BitVec.ofNat 36 (2 ^ 34), kaAt := s.now - BitVec.ofNat 36 (2 ^ 34) })
      acc := { s.acc with
        cands := s.acc.cands.map (fun _ => none), frameEnd := d s.acc.frameEnd, boff := s.acc.boff.map d, timer := d s.acc.timer, grantAt := d s.acc.grantAt }
      vault := { s.vault with
        chalEnd := d s.vault.chalEnd, callAt := s.vault.callAt.map (fun _ => s.now - BitVec.ofNat 36 (ms 101)) } }

/-- R423: SVCLEFT counts on the RTC while the timebase stops; the session's end waits for the restore (R22). -/
def serviceParked (s : State) : State :=
  match s.vault.svcMin with
  | none => s
  | some t =>
    let gone := s.rtcN * 390625 / 128
    let first := (t - s.tbRec).toNat
    if gone < first then s
    else
      let n := 1 + (gone - first) / sec 60
      let left := s.get vaultB VAULT_LC_SVCLEFT
      setVault (s.put vaultB VAULT_LC_SVCLEFT (left - min n (left - 1))) (fun v => { v with
        svcMin := some (if left ≤ n then s.now else t + BitVec.ofNat 36 (sec 60 * n)) })

/-- The timebase restored (R21, R22, R561): RESTORED, AON_PARKDUR. -/
def wakeClock (s : State) : State :=
  let s := serviceParked (deadlinesPassed { parkTime s with tbRun := true })
  (s.put sysB SYS_TBSTAT_RESTORED 1).put aonB AON_PARKDUR_N (min 0xFFFFFFFF s.rtcN)

/-- R573: the self-tests' periods are counted from an exit (log entry 105). -/
def testsAnew (s : State) : State :=
  { s with safe := { s.safe with lastPass := [s.now, s.now, s.safe.lastPass.getD 2 0, s.now] } }

/-- The exit completes (R565, R567). -/
def wakeEnd (s : State) : State :=
  let s := (testsAnew s).put pwrB PWR_IR_WAKE 1
  let s := s.when s.pwr.failedAny (fun s => s.put pwrB PWR_IR_WAKEFLT 1)
  setPwr s (fun p => { p with stage := none, failedAny := false })

/-- The islands of PWRD in use, less ISLOFF and those a refold holds, are ready again. -/
def readyAgain (s : State) : State :=
  let held := match s.folio.cmd with | some (.rewritten _ _ _ _ l) => l | _ => []
  s.each ((domIslands (sectWord s 11 0)).filter (fun i => !isOffed s i && !held.contains i)) (fun s i => s.setReady i true)

/-- The exit from REST (R294, R309, R480, R560): clocks resume; every timer channel is stopped; data caches and reservations are lost; supervision
restarts at HB_TO; the inputs take their park samples. -/
def restExit (s : State) : State :=
  let s := nmgRest (restInputs (readyAgain (wakeClock s)))
  let s := { s with inp := { s.inp with scanAt := s.now } }
  let s := s.each (List.range 32) tmrStop1
  let s := s.mapCores (fun k => { k with dcache := [], icache := [], resv := none })
  let resume := s.beat.paused && s.flag Blk.psg.base PSG_CTRL_HBEN && !s.flag Blk.psg.base PSG_STAT_HOLDACT
  let s := s.when resume beatStart
  wakeEnd (setPwr s (fun p => { p with state := .run }))

/-- What the exits from PARK and CAPPED leave before the boot steps (R45, R178, R276, R286, R354, R399, R449, R481, R571,
R609); from PARK a hold starts when a channel entered PARKON (R145). -/
def parkExit (s : State) (capped : Bool) (tbp : Int) : State :=
  let ink := !capped && s.flag pwrB PWR_MODE_INKRET && bitAt (sectWord s 11 0) 20
  let s := wakeClock s
  let s := safeResetKeep (pwrReset (folioReset (sysReset s)) false true)
  let s := { storeReset s with posted := [], rej := [] }
  let s := tcmClear (callPages (coresReset s [0, 1, 2, 3, 4] false) [0, 1, 2, 3]) [0, 1, 2, 3]
  let s := ringReset (netUnpark (tbaseUnpark (icuReset s)))
  let s := if ink then s else inkwellClear s
  let s := lightCold s
  let s := s.when capped (fun s =>
    let s := signetMemClear (accReset (vaultReset s false))
    (s.put sysB SYS_TBSTAT_BACKUP 0).put sysB SYS_RSTCAUSE_CAPWAKE 1)
  let parked := !capped && (List.range 72).any (fun f => (s.ch f).parked)
  let s := loadStrings (loadStruct (powerUnpark s capped tbp))
  let s := s.when parked (fun s => holdStart s 3)
  setPwr s (fun p => { p with state := .run, stage := some .boot })

/-- The stage after `st` in the exit from the state that is left. -/
def nextStage (from_ : PState) (st : WakeStage) : WakeStage :=
  let l := wakeStages from_
  (l[l.idxOf st + 1]?).getD .boot

/-- The code of a stage in AON_WAKEFLT, and its limit in µs by the state left (R566). -/
def WakeStage.code : WakeStage → Nat
  | .regulator => 1 | .oscillator => 2 | .pll => 3 | .memory => 4 | .logic => 5 | .boot => 0
def WakeStage.limit (from_ : PState) : WakeStage → Nat
  | .regulator => if from_ = .rest then 50 else if from_ = .park then 200 else 600
  | .oscillator => 1200 | .pll => 50 | .memory => 300 | .logic => 50 | .boot => 0

/-- R567: has a stage taken no more than four times its limit? -/
def stageInTime (from_ : PState) (st : WakeStage) (n : Nat) : Bool := st == .boot || decide (n ≤ 4 * st.limit from_)

/-- WAKE_STAGE_READY (R21, R566): the awaited stage ends after `n` µs; `tbp` °C is the baseplate, `b` what the boot steps
of the exit meet. -/
def execWakeStageReady (n : Nat) (tbp : Int) (b : BootIn) (s : State) : Answer :=
  (match s.pwr.stage with
  | none => s
  | some st =>
    if !stageInTime s.pwr.from_ st n then s
    else
    let s := wakeLog s st n
    match st with
    | .logic => if s.pwr.from_ = PState.rest then restExit s else parkExit s (s.pwr.from_ == PState.capped) tbp
    | .boot => wakeEnd (if s.pwr.from_ = PState.capped then cappedStart s b else parkStart s b)
    | .pll => setPwr s (fun p => { p with pll1 := true, pll2 := true, pll1Lost := false, stage := some (nextStage p.from_ .pll) })
    | st => setPwr s (fun p => { p with stage := some (nextStage p.from_ st) })).next

/-- R567: the Blotter enters CAPPED with what the state left still kept; the next attempt falls due 100 ms later. -/
def forcedCapped (s : State) : State :=
  let s := s.when (s.pwr.from_ == .rest) (fun s => linPark (padLatch s))
  let s := s.when (s.pwr.from_ != .capped) (fun s => allNotReady (lightCold (nmgPark (powerPark s true) true)))
  setPwr (s.put pwrB PWR_STAT_LAST PState.capped.code) (fun p => { p with
    state := .capped, from_ := .capped, stage := none, retryDue := true, wakeTick := s.now })

/-- WAKE_STAGE_FAILURE (R567): four times the limit of the awaited stage has passed. -/
def execWakeStageFailure (s : State) : Answer :=
  (match s.pwr.stage with
  | none | some .boot => s
  | some st =>
    let s := s.putNat pwrB PWR_LAT_LAT (s.get pwrB PWR_LAT_LAT + 4 * st.limit s.pwr.from_)
    let s := setPwr s (fun p => { p with failedAny := true, pll1 := false, pll2 := false })
    if !s.pwr.retried then setPwr s (fun p => { p with stage := some .regulator, retried := true })
    else
      let s := (s.satField aonB AON_WAKEFLT_CNT).put aonB AON_WAKEFLT_STAGE st.code
      forcedCapped s).next

/-- WAKE_RETRY (R567): 100 ms later a fresh CAPPED exit starts. -/
def wakeRetryEffect (s : State) : State :=
  let s := (s.put pwrB PWR_LAT_STATE PState.capped.code).putNat pwrB PWR_LAT_LAT (s.get pwrB PWR_LAT_LAT + 100000)
  setPwr s (fun p => { p with stage := some .regulator, from_ := .capped, retried := false, retryDue := false })

/-- WAKE_RETRY where its condition holds; else nothing happens. -/
def execWakeRetry (s : State) : Answer :=
  (s.when (s.pwr.retryDue && s.reached (s.pwr.wakeTick + BitVec.ofNat 36 (ms 100))) wakeRetryEffect).next

/-! ### The always-on island's registers (R39, R569, R570) -/

/-- The island that owns a pad group (R569). -/
def padOwner (g : Nat) : Island := match g with | 0 => .light | 1 | 2 | 5 => .net | 3 => .tbase | _ => .aon

/-- The checks of AON: a held group is released only while its owner is ready. -/
def aonChk (o : Nat) (s : State) (w : Word) : Fails :=
  failAt (o == 0x14 && (List.range 6).any (fun g => bitAt w g && bitAt (s.rd (aonB + 0x14)) g && !s.ready (padOwner g))) 12 0x10

/-- What a write to AON does beyond its register: SEC clears SUB, ALARM arms the alarm. -/
def aonWritten (o : Nat) (s : State) : State :=
  if o = 8 then s.put aonB AON_RTCSUB_SUB 0
  else if o = 0x10 then setPwr s (fun p => { p with alarmArmed := true })
  else s

/-- A write that takes effect in the always-on island. -/
def aonBlkWrite (r : WriteReq) (s : State) : State :=
  match r.blk with
  | .nmg => nmgWrite r s
  | _ => blockWrite r (aonChk r.off) false (fun s _ _ => aonWritten r.off s) noRej s

/-- The alias and plain offset of an offset in a block's window (R28). -/
def aliasAt (off : Nat) : Alias × Nat :=
  if off < 0x4000 then (.plain, off) else if off < 0x8000 then (.set, off - 0x4000)
  else if off < 0xC000 then (.clear, off - 0x8000) else (.toggle, off - 0xC000)

/-- R570: has SEC reached ALARM? -/
def alarmReached (s : State) : Bool :=
  decide ((s.get aonB AON_RTCSEC_SEC + 2 ^ 32 - s.get aonB AON_ALARM_ALARM) % 2 ^ 32 < 2 ^ 31)

/-- The alarm's wake request; it is armed no more. -/
def alarmWake (s : State) : State := wakeDetect (setPwr s (fun p => { p with alarmArmed := false })) 26

/-- R570: a second edge. -/
def secondEdge (s : State) : State :=
  let s := (s.put aonB AON_RTCSUB_SUB 0).incField aonB AON_RTCSEC_SEC
  s.when (s.pwr.alarmArmed && alarmReached s) alarmWake

/-- R39: a waiting write takes effect; its rejection is kept through a clear of LASTERR on the same edge (R113), and sets
no flag of a requester reset since (R612). -/
def aonTake1 (s : State) (w : AonWrite) : State :=
  let p := aliasAt w.off
  let had := s.rej.contains w.src.req
  let s := aonBlkWrite ⟨w.src, w.blk, p.2, p.1, w.data⟩ (s.clearRej w.src.req)
  let bad := s.rej.contains w.src.req
  let s := s.when bad (fun s => s.mark w.blk.lasterr 1)
  if had then s.setRej w.src.req else s.when (w.stray && bad) (fun s => s.clearRej w.src.req)

/-- R39: the waiting writes take effect, in the order of their arrival. -/
def aonTake (s : State) : State :=
  let l := s.aonPend
  { s with aonPend := [] }.each l aonTake1

/-- RTC cycles pass in a state that stops the timebase (R21). -/
def rtcCycles (s : State) (n : Nat) : State := if s.tbRun then s else parkTime { s with rtcN := s.rtcN + n }

/-- A 32.768 kHz edge (R39, R109, R570). -/
def rtcEdge (s : State) : State :=
  let s := rtcCycles { s with edge := s.edge.filter (fun p => !(isStl p.1 || p.1 == Blk.aon.lasterr)) } 1
  let sub := s.get aonB AON_RTCSUB_SUB
  (aonTake (if sub = 32767 then secondEdge s else s.put aonB AON_RTCSUB_SUB (sub + 1))).refresh

/-- AON_WRITE_EFFECT (R39): the next 32.768 kHz edge. -/
def execAonWriteEffect (s : State) : Answer := (rtcEdge s).next

/-- R564: can source `src` detect: does some unit enable it?  The RTC alarm and a PARKON fault are found by rows of their own. -/
def unitOn (s : State) (src : Fin 9) : Bool :=
  match src.val with
  | 0 => (List.range 64).any (fun n => s.flag (inpI n) INP_ICFG_WAKE)
  | 1 => (List.range 8).any (fun n => s.flag (inpI n) INP_ACFG_CEN)
  | 2 => (List.range 12).any (fun c => s.flag (nmgP c) NMG_CTRL_WAKEN)
  | 3 => (List.range 12).any (fun n => s.flag (linB n) LIN_CTRL_WKEN)
  | 4 => s.flag ringB RING_CTRL_WKEN
  | 6 | 7 => true
  | _ => false

/-- The next 32.768 kHz edge brings the alarm (R570). -/
def alarmNext (s : State) : Bool :=
  s.pwr.alarmArmed && s.get aonB AON_RTCSUB_SUB == 32767 && alarmReached (s.incField aonB AON_RTCSEC_SEC)

/-- WAKE_DETECT (R562–R565, R570): a source completes its detection; for the RTC, the edge passes that brings the alarm. -/
def execWakeDetect (src : Fin 9) (s : State) : Answer :=
  (if src.val = 5 then s.when (alarmNext s) rtcEdge
   else s.when (unitOn s src) (fun s => wakeDetect s (wakeBit src))).next

/-- RTC_SECOND (R570): the sub-second count reaches its wrap. -/
def execRtcSecond (s : State) : Answer :=
  (let s := rtcCycles s (32767 - s.get aonB AON_RTCSUB_SUB)
   rtcEdge (aonTake (s.put aonB AON_RTCSUB_SUB 32767))).next

/-! ### PWR -/

/-- A write to PWR (R558). -/
def pwrWrite (r : WriteReq) (s : State) : State :=
  blockWrite r (fun s w =>
    let d := sectWord s 11 0
    failAt (r.off == 0 && (decide (bitsOf d 23 21 < PWR_MODE_DEEPEST.of w) || (PWR_MODE_INKRET.of w == 1 && !bitAt d 20))) 12 0x07)
    false noHook noRej s

end Sys2Proof.Machine
end

