-- ==== Sys2Proof/Machine/Resets.lean ====
section
/-! DEFINITION. The reset events, the boot watchdog, the loss of the main clock, fabric errors and vote corrections
(R14, R31, R44, R45, R106, R529, R533, R578, R593, R597). -/

namespace Sys2Proof.Machine

/-- POWER_ON_RESET (R44, R593, R610): the whole device; a RESET_N assertion in the same tick is overruled and leaves EXT. -/
def execPowerOnReset (cause : PorCause) (b : BootIn) (s : State) : Answer :=
  (let both := s.boot.ext && s.boot.began == s.now
   (porStart s cause b).when both (fun s => s.put sysB SYS_RSTCAUSE_EXT 1)).next

/-- R21, R45: what a WARM reset finds of a state that had stopped or lost islands: their exit first. -/
def leaveDown (s : State) (tbp : Int) : State :=
  if !isDown s then s
  else if s.pwr.state = .rest then { restExit s with pwr := { s.pwr with state := .run, stage := none } }
  else
    let s := parkExit s (s.pwr.state == .capped) tbp
    setPwr s (fun p => { p with stage := none, retryDue := false })

/-- A WARM reset from whatever state the device is in; an entry that runs is dropped with PWR's reset. -/
def warmFrom (s : State) (cause : WarmCause) (tbp : Int) (b : BootIn) : State :=
  let s := setPwr (leaveDown s tbp) (fun p => { p with state := .run, entry := none })
  warmStart s cause b

/-- R618: TERM takes RESET_N away. -/
def resetPinOff (s : State) : Bool := termFunc s 224 0

/-- RESET_N_ASSERT (R597, R593): an active pulse of `ns` ns: from 1 µs a WARM reset, below 200 ns ignored, between them
open; in the tick of a power-on reset overruled, with EXT set. -/
def execResetNAssert (ns : Nat) (tbp : Int) (b : BootIn) (s : State) : Answer :=
  (let acts := decide (1000 ≤ ns) || (decide (200 ≤ ns) && s.freeBit)
   let s := s.when (decide (200 ≤ ns ∧ ns < 1000)) State.drawn
   if !acts || resetPinOff s then s
   else if s.boot.path = .por && s.boot.began == s.now then s.put sysB SYS_RSTCAUSE_EXT 1
   else setBoot (warmFrom s .external tbp b) (fun x => { x with ext := true })).next

/-- WARM_RESET (R45): the WARM reset that is due; after a tamper erase, 100 µs after its end (R421). -/
def execWarmReset (tbp : Int) (b : BootIn) (s : State) : Answer :=
  (if s.warmDue = some .tamper && !s.reached s.vault.warmAt then s
   else warmFrom s (s.warmDue.getD .bootFail) tbp b).next

/-- CORE_RESET (R45, R533). -/
def execCoreReset (pairB s8ok : Bool) (s : State) : Answer := (coreStart s pairB.toNat false s8ok).next

/-- BOOT_WATCHDOG_EXPIRY (R529): a step has lasted 1 s. -/
def execBootWatchdogExpiry (b : BootIn) (s : State) : Answer :=
  (match s.boot.mode with
  | .hung k =>
    if s.reached (s.boot.began + BitVec.ofNat 36 (sec 1)) then
      warmStart (setBoot s (fun x => { x with hungAt := some k })) .watchdog b
    else s
  | _ => s).next

/-- SAFE_RESET_ASSERT (R578): the resets whose 5 µs have passed: a WARM reset, or a CORE reset of each pair named. -/
def execSafeResetAssert (s8ok : Bool) (b : BootIn) (s : State) : Answer :=
  (let due := s.safe.resetDue.filter (fun d => s.reached d.2.2)
   let s := { s with safe := { s.safe with resetDue := s.safe.resetDue.filter (fun d => !s.reached d.2.2) } }
   if due.any (fun d => d.1 == 2) then warmFrom s .safe 0 b
   else s.each (due.map (fun d => d.2.1)).eraseDups (fun s p => coreStart s p true s8ok)).next

/-! ### Clock loss (R14, R582) -/

/-- PLL1_LOSS where its condition holds; else nothing happens. -/
def execPll1Loss (crystal : Bool) (s : State) : Answer :=
  (s.when s.pwr.pll1 (pll1LossEffect crystal)).next

/-! ### Fabric errors and votes -/

/-- FABRIC_TIMEOUT (R31, R36, R48, R574): a transfer of requester `req` at `addr` has not completed within 50 µs, or (`ecc`)
the fabric cannot correct it: a write counts as rejected; a load raises its precise fault. -/
def execFabricTimeout (ecc : Bool) (req addr : Nat) (isWrite : Bool) (s : State) : Answer :=
  (let code := if ecc then 0x12 else 0x11
   let s := safeDetect (s.fabErr code req addr) 8 req
   if isWrite then s.setRej req
   else if h : req < 5 then
     let c : CoreId := ⟨req, h⟩
     if canIssue s c then s.fault c .load code (BitVec.ofNat 36 addr) else s
   else s).next

/-- VOTE_CORRECTION (R106, R107, R112): one copy of a voted field disagreed and took the majority. -/
def execVoteCorrection (blk : Blk) (off : Nat) (s : State) : Answer :=
  (match regDesc blk off with
  | some d =>
    s.when (s.ready blk.island && d.fields.any (fun f => f.voted)) (fun s =>
      let s := (s.satField safeB SAFE_VOTE_VCNT).put safeB SAFE_VOTE_BLK ((blk.base - 0x40000000) / 0x10000)
      (s.put safeB SAFE_STAT_INFO 1).wr blk.lasterr (lasterrInfo (s.rd blk.lasterr) 0x08 off))
  | none => s).next

end Sys2Proof.Machine
end

