-- ==== Sys2Proof/Machine/Recovery.lean ====
section
/-! DEFINITION. The request window and recovery mode (R547–R553) and the DBG port (R605). -/

namespace Sys2Proof.Machine

def setRcv (s : State) (g : RecSt → RecSt) : State := { s with rcv := g s.rcv }

/-! ### Messages to the tool (R549, R550) -/

/-- RING_UID as five octets. -/
def uidOctets : List Nat := wordOctets Config.uid

/-- R549: a message's frames of 64 octets: TYPE, segment index with the last marked, 62 octets padded with 0. -/
def recFrames (ty : Nat) (body : List Nat) : List (List Nat) :=
  let n := max 1 ((body.length + 61) / 62)
  (List.range n).map (fun k =>
    let p := (body.drop (62 * k)).take 62
    ty :: (k + (if k + 1 = n then 128 else 0)) :: p ++ List.replicate (62 - p.length) 0)

/-- A message sent on CAN0, or held for DBG. -/
def recSend (s : State) (dbg : Bool) (ty : Nat) (body : List Nat) : State :=
  if dbg then setRcv s (fun r => { r with dbgOut := recFrames ty body })
  else setRcv s (fun r => { r with sent := recFrames ty body })

/-- ACK (R550). -/
def recAck (s : State) (dbg : Bool) (ty row code : Nat) : State :=
  recSend s dbg 0x20 (uidOctets ++ [ty] ++ natOctets 4 row ++ [code])

/-- R552: the rows a later start may resume after. -/
def resumeRows (s : State) : Nat := match s.rcv.resume with | some (_, c) => (c.length + 63) / 64 | none => 0

/-- HELLO: UID, REASON, challenge, RESUME. -/
def helloBody (s : State) (reason : Nat) : List Nat :=
  uidOctets ++ [reason] ++ s.rcv.chal ++ natOctets 4 (resumeRows s)

/-- A start without a request window draws its challenge with its first HELLO. -/
def withChallenge (s : State) : State :=
  s.when s.rcv.chal.isEmpty (fun s => { s.drawn with rcv := { s.rcv with chal := freshChallenge s } })

/-- HELLO on both ports. -/
def helloSend (s : State) (reason : Nat) : State :=
  let s := withChallenge s
  let b := helloBody s reason
  recSend (recSend s false 1 b) true 1 b

/-- RECOVERY_HELLO (R548, R550): once at the opening of the request window, where the spec states no REASON; in recovery
mode every second until the first MANIFEST. -/
def execRecoveryHello (s : State) : Answer :=
  (if !s.due s.rcv.helloAt then s
   else match s.boot.mode with
   | .window => setRcv (helloSend s.drawn (s.free.toNat % 256)) (fun r => { r with helloAt := none })
   | .recovery reason =>
     if s.rcv.gotManifest then s else setRcv (helloSend s reason) (fun r => { r with helloAt := some (s.after (sec 1)) })
   | _ => s).next

/-! ### Messages from the tool -/

/-- Does a message name this device? -/
def uidMatches (body : List Nat) : Bool := body.take 5 == uidOctets

/-- Words of a body as five octets each. -/
def bodyWords (os : List Nat) (n : Nat) : List Word :=
  (List.range n).map (fun i => BitVec.ofNat 36 (octetsNat ((os.drop (5 * i)).take 5)))

/-- Is the ROM in the wait of R548?  It includes its last tick (R40). -/
def inWindow (s : State) : Bool :=
  match s.boot.mode, s.boot.winEnd with
  | .window, some t => t == s.now || !s.reached t
  | _, _ => false

/-- ATTN (R548): the request window stands open until 2 s after its opening. -/
def recAttn (s : State) (dbg : Bool) : State :=
  if s.boot.mode == .window && !inWindow s then s
  else match s.boot.mode, s.boot.winEnd with
  | .window, some t =>
    recAck (if s.boot.attn then s
      else setBoot s (fun b => { b with attn := true, winEnd := some (t + BitVec.ofNat 36 (ms 1980)) })) dbg 2 0 0
  | .recovery _, _ => recAck s dbg 2 0 0
  | _, _ => s

/-- RECOVER (R548): accepted when the key is the owner's and the signature over challenge, UID and 0x52 verifies. -/
def recRecover (s : State) (dbg : Bool) (body : List Nat) : State :=
  let b := body.drop 5
  let part (k : Nat) : List Nat := (b.drop (32 * k)).take 32
  if s.boot.mode == .window && !inWindow s then s
  else match s.boot.mode with
  | .window =>
    if sha256 (part 0 ++ part 1) == ownerHash s && ecdsaVerify (octetsNat (part 0)) (octetsNat (part 1)) (octetsNat (part 2))
        (octetsNat (part 3)) (s.rcv.chal ++ uidOctets ++ [0x52])
    then recAck (setRcv s (fun r => { r with accepted := true })) dbg 3 0 0
    else recAck s dbg 3 0 0x18
  | .recovery _ => recAck s dbg 3 0 0
  | _ => s

/-- R551: the slot that recovery writes: the one without a CONFIRMED edition whose FLOOR suffices; A where both or neither
hold one. -/
def recSlot (e : Ecr) : Bool :=
  let good (r : SlotRec) : Bool := r.state == 3 && decide (e.floor ≤ r.floor)
  good e.slotA && !good e.slotB

/-- MANIFEST (R550, R552): BEGIN on the recovery slot; a manifest identical to the stored one resumes its install. -/
def recManifest (s : State) (dbg : Bool) (body : List Nat) : State :=
  if !inRecovery s then s
  else
    let m := bodyWords (body.drop 5) 64
    let s := setRcv s (fun r => { r with gotManifest := true })
    match beginFail s m with
    | some c => recAck s dbg 0x10 0 c
    | none =>
      let s := updBegin s (recSlot s.ecr) m
      match s.rcv.resume with
      | some (old, cipher) =>
        if old = m then
          let s := setUpd (s.put sysB SYS_UPDSTAT_RCVD cipher.length) (fun u => { u with cipher := cipher })
          recAck (s.putWords (imageAt (recSlot s.ecr) 0) (updPlain s)) dbg 0x10 0 0
        else recAck (setRcv s (fun r => { r with resume := none })) dbg 0x10 0 0
      | none => recAck s dbg 0x10 0 0

/-- DATA (R550, R552): the row due, or UPD_SEQUENCE; the install state is stored after it. -/
def recData (s : State) (dbg : Bool) (body : List Nat) : State :=
  if !inRecovery s then s
  else
    let row := octetsNat ((body.drop 5).take 4)
    let n := dataDue s
    if s.get sysB SYS_UPDSTAT_STAGE ≠ 1 ∨ row ≠ s.get sysB SYS_UPDSTAT_RCVD / 64 ∨ n = 0 then recAck s dbg 0x11 row 0x17
    else
      let s := updData (setUpd s (fun u => { u with cipher := u.cipher ++ bodyWords (body.drop 9) n })) n
      recAck (setRcv s (fun r => { r with resume := some (s.upd.manifest, s.upd.cipher) })) dbg 0x11 row 0

/-- END (R536, R550, R551): the install completes; the slot is armed on trial and a WARM reset is due. -/
def recEnd (s : State) (dbg : Bool) (body : List Nat) : State :=
  if !inRecovery s then s
  else if s.get sysB SYS_UPDSTAT_STAGE ≠ 1 ∨ s.get sysB SYS_UPDSTAT_RCVD ≠ bitsOf (s.upd.manifest.getD 5 0) 22 0 then
    recAck s dbg 0x12 0 0x17
  else
    let slot := s.get sysB SYS_UPDSTAT_SLOT == 1
    let r := updEnd s ((body.drop 5).take 16)
    let s := setRcv r.1 (fun x => { x with resume := none })
    if r.2 then
      { recAck (setEcr s (fun e => { e with arm := true, armslot := slot, armtrial := true })) dbg 0x12 0 0 with
        warmDue := some .bootFail }
    else recAck s dbg 0x12 0 0x19

/-- R550: OWNER and DKIMPORT are for DBG in FACTORY alone. -/
def recOwner (s : State) (dbg : Bool) (body : List Nat) : State :=
  if !inRecovery s then s
  else if !dbg || lcState s != 1 then recAck s dbg 0x30 0 0x05
  else if !lcPermits s (lcState s) 2 then recAck s dbg 0x30 0 0x11
  else
    let s := s.each (List.range 8) (fun s k =>
      s.put vaultB (VAULT_OWNSTG_HASH.at k) (octetsNat (((body.drop 5).drop (4 * k)).take 4)))
    recAck (lcCommand s ⟨6, .trust⟩ 2 0) dbg 0x30 0 0

def recDkImport (s : State) (dbg : Bool) (body : List Nat) : State :=
  if !inRecovery s then s
  else if !dbg || lcState s != 1 then recAck s dbg 0x31 0 0x05
  else if s.upd.dkSealed.isSome then recAck s dbg 0x31 0 0x1D
  else recAck (dkImport s ((body.drop 5).take 32)) dbg 0x31 0 0

/-- A complete message of a type (R549, R550, R553): in HALT any message on DBG is answered by HELLO; one for another UID is
ignored. -/
def recMessage (s : State) (ty : Nat) (dbg : Bool) (body : List Nat) : State :=
  match s.boot.mode with
  | .halt reason => if dbg then let s := withChallenge s; recSend s true 1 (helloBody s reason) else s
  | _ =>
    if !uidMatches body then s
    else match ty with
    | 0x02 => recAttn s dbg
    | 0x03 => recRecover s dbg body
    | 0x10 => recManifest s dbg body
    | 0x11 => recData s dbg body
    | 0x12 => recEnd s dbg body
    | 0x30 => recOwner s dbg body
    | 0x31 => recDkImport s dbg body
    | _ => s

/-- RECOVERY_ATTN: the whole message, from DBG or CAN0. -/
def execRecoveryAttn (dbg : Bool) (body : List Nat) (s : State) : Answer := (recMessage s 0x02 dbg body).next
/-- RECOVERY_RECOVER. -/
def execRecoveryRecover (dbg : Bool) (body : List Nat) (s : State) : Answer := (recMessage s 0x03 dbg body).next
/-- RECOVERY_MANIFEST. -/
def execRecoveryManifest (dbg : Bool) (body : List Nat) (s : State) : Answer := (recMessage s 0x10 dbg body).next
/-- RECOVERY_DATA. -/
def execRecoveryData (dbg : Bool) (body : List Nat) (s : State) : Answer := (recMessage s 0x11 dbg body).next
/-- RECOVERY_END. -/
def execRecoveryEnd (dbg : Bool) (body : List Nat) (s : State) : Answer := (recMessage s 0x12 dbg body).next
/-- RECOVERY_OWNER. -/
def execRecoveryOwner (dbg : Bool) (body : List Nat) (s : State) : Answer := (recMessage s 0x30 dbg body).next
/-- RECOVERY_DKIMPORT. -/
def execRecoveryDkimport (dbg : Bool) (body : List Nat) (s : State) : Answer := (recMessage s 0x31 dbg body).next

/-- RECOVERY_WINDOW_END (R547, R548): the wait at the end of S5 is over: recovery mode when a request was accepted. -/
def recoveryWindowEndEffect (s : State) : State :=
  let s := setBoot s (fun b => { b with mode := .running, winEnd := none })
  if s.rcv.accepted then bootRecord (setBoot (enterRecovery s 3) (fun b => { b with hungAt := none })) else bootRest s

/-- RECOVERY_WINDOW_END once served. -/
def windowServe (s : State) : State := s.when (s.boot.mode == .window && s.due s.boot.winEnd) recoveryWindowEndEffect

/-- RECOVERY_WINDOW_END (R40, R548): a message in the tick of the end is in time. -/
def execRecoveryWindowEnd (s : State) : Answer := (s.expire s.boot.winEnd .recoveryWindowEnd windowServe).next

/-! ### Segments and the DBG port (R549, R605) -/

/-- A partial message is discarded, and answered with SEGMENT where it named this device. -/
def recDiscard (s : State) : State :=
  let hit := s.rcv.partEnd.isSome && uidMatches s.rcv.partBody
  let ty := s.rcv.partType
  let dbg := s.rcv.partDbg
  let s := setRcv s (fun r => { r with partEnd := none, partBody := [], partNext := 0 })
  s.when hit (fun s => recAck s dbg ty 0 0x20)

/-- RECOVERY_SEGMENT_TIMEOUT once served. -/
def segmentServe (s : State) : State := s.when (s.due s.rcv.partEnd) recDiscard

/-- RECOVERY_SEGMENT_TIMEOUT (R40, R549). -/
def execRecoverySegmentTimeout (s : State) : Answer :=
  (s.expire s.rcv.partEnd .recoverySegmentTimeout segmentServe).next

/-- One frame received (R549). -/
def recFrame (s : State) (dbg : Bool) (os : List Nat) : State :=
  let ty := os.getD 0 0
  let k := os.getD 1 0 % 128
  let fin := decide (128 ≤ os.getD 1 0 % 256)
  let more := s.rcv.partEnd.isSome && s.rcv.partType == ty && s.rcv.partNext == k && s.rcv.partDbg == dbg
    && (s.rcv.partEnd == some s.now || !s.due s.rcv.partEnd)
  if k != 0 && !more then recDiscard s
  else
    let body := (if k = 0 then [] else s.rcv.partBody) ++ os.drop 2
    if fin then recMessage (setRcv s (fun r => { r with partEnd := none, partBody := [], partNext := 0 })) ty dbg body
    else setRcv s (fun r => { r with
      partType := ty, partNext := k + 1, partBody := body, partDbg := dbg, partEnd := some (s.after (ms 100)) })

/-- R605: DBG_ATTN is low while the device holds a frame to send. -/
def dbgAttn (s : State) : Bool := s.rcv.dbgOut.isEmpty

/-- DBG_TRANSFER (R605): 64 octets each way; another length is discarded; a transfer of zeros only reads.  The link counts
as open for 1 s. -/
def execDbgTransfer (octets : List Nat) (s : State) : Answer :=
  (let s := setRcv s (fun r => { r with dbgEnd := some (s.after (sec 1)) })
   if octets.length ≠ 64 then s
   else
     let s := setRcv s (fun r => { r with dbgOut := r.dbgOut.drop 1 })
     if octets.all (· == 0) then s else recFrame s true octets).next

/-- DBG_LINK_TIMEOUT once served. -/
def linkServe (s : State) : State := s.when (s.due s.rcv.dbgEnd) (fun s => setRcv s (fun r => { r with dbgEnd := none }))

/-- DBG_LINK_TIMEOUT (R40, R559, R605): 1 s has passed without a transfer. -/
def execDbgLinkTimeout (s : State) : Answer :=
  (s.expire s.rcv.dbgEnd .dbgLinkTimeout linkServe).next

/-- Does the ROM listen on CAN0: in the request window or in recovery mode (R547, R548)? -/
def romListens (s : State) : Bool := s.boot.mode == .window || inRecovery s

/-- CAN_FRAME_RECEIVED (R326–R328, R331, R549): a frame valid for a receiver; `own` for the controller's own frame.  A tool's
frame on CAN0 (identifier 0x7E0, DLC 15) goes to the ROM while it listens. -/
def execCanFrameReceived (n : Fin 8) (w0 : Word) (dlc : BitVec 4) (data : List Nat) (stamp : Word) (own : Bool) (s : State) :
    Answer :=
  if romListens s && n == 0 && !own && bitsOf w0 35 34 == 1 && bitsOf w0 10 0 == 0x7E0 && dlc == 15 then
    (recFrame s false ((List.range 64).map (fun i => data.getD i 0 % 256))).next
  else s.on .net <|
    (s.when (stampOk s n.val own stamp) (fun s =>
      if own then canOwnIn n.val stamp s else canFrameIn n.val ⟨w0, dlc.toNat, data⟩ stamp s)).next

end Sys2Proof.Machine
end

