-- ==== Sys2Proof/Machine/RegWrite.lean ====
section
/-! DEFINITION. Device writes: a write on its way to a block (R27–R36, R39, R94–R103), and the commands that are a write
of one register with some fields fixed. -/

namespace Sys2Proof.Machine

/-! ### A write that reaches its block (R35) -/

/-- The write handed to the block that answers it; `s8ok`: S8 passes for a pair that a SYS_RESET resets. -/
def blkWriteAt (s8ok : Bool) (r : WriteReq) (s : State) : State :=
  match r.blk with
  | .sys => sysBlkWrite s8ok r s
  | .pwr => pwrWrite r s
  | .aon => aonBlkWrite r s
  | .folio => folioWrite r s
  | .safe => safeWrite r s
  | .icu => icuWrite r s
  | .rule => ruleWrite r s
  | .tmr => tmrWrite r s
  | .psg => psgWrite r s
  | .psc0 | .psc1 => pscWrite r s
  | .stk => stkWrite r s
  | .mot => motWrite r s
  | .lgt => lgtWrite r s
  | .lch => lchWrite r s
  | .inp => inpWrite r s
  | .can n => canWrite n.val r s
  | .nmg => nmgWrite r s
  | .lin n => linWrite n.val r s
  | .ts n => ethWrite n.val r s
  | .tx n => ethWrite (4 + n.val) r s
  | .ring => ringWrite r s
  | .spic n => spicWrite n.val r s
  | .dbg => blockWrite r (fun _ _ => []) false noHook noRej s
  | .vault => vaultWrite r s
  | .acc => accWrite r s
  | .crypt => cryptWrite r s

/-- R39, R401: does the write wait for a 32.768 kHz edge? -/
def aonHeld (b : Blk) (o : Nat) : Bool :=
  b == .aon || (b == .nmg && decide (0x100 ≤ o) && decide (o < 0x400) && (o - 0x100) % 0x40 == 0x10)

/-- A write at the crossing of its block's island (R39, R49, R615). -/
def toBlock (s8ok : Bool) (r : WriteReq) (s : State) : State :=
  if !s.ready r.blk.island then s.fabReject r.src 0x06 (r.blk.base + r.off + r.al.off)
  else if aonHeld r.blk r.off then { s with aonPend := s.aonPend ++ [⟨r.src, r.blk, r.off + r.al.off, r.data, false⟩] }
  else blkWriteAt s8ok r s

/-- R100: in FACTORY and RETURN the write changes a reserved bit of a register (a buffer word of LCH is data whole). -/
def testDriven (r : WriteReq) (s : State) : Bool :=
  testControls s && r.al == .plain && !(r.blk == .lch && decide (0x1000 ≤ r.off)) &&
  (match regDesc r.blk r.off with
   | some d => reservedChange d (s.rd (r.blk.base + r.off)) r.data
   | none => false)

/-- A device write of a word by `src` at nib offset `off` of a block's window, alias included, as it reaches the block
(R28, R29).  An accepted write that drives a live test control has an effect the spec does not give. -/
def devPut (s8ok : Bool) (src : Src) (blk : Blk) (off : Nat) (w : Word) (s : State) : Answer :=
  let p := aliasAt off
  let r : WriteReq := ⟨src, blk, p.2, p.1, w⟩
  let s' := toBlock s8ok r s
  if testDriven r s && !(toBlock s8ok r (s.clearRej src.req)).rej.contains src.req then .fault .testControl else .next s'

/-- A device write at an address: a window without a block answers nothing (R29). -/
def deviceAt (s8ok : Bool) (src : Src) (a : Nat) (w : Word) (s : State) : Answer :=
  match blkAt a with
  | none => (s.fabReject src 0x10 a).next
  | some b => devPut s8ok src b (a - b.base) w s

/-- A meaning applied to the next state of an answer. -/
def andThen (x : Answer) (f : State → Answer) : Answer :=
  match x with
  | .next s => f s
  | .fault e => .fault e
  | .refused e => .refused e

/-- R612: the rejection of a write whose requester was reset after it left sets no reject flag: `had`, as it stood. -/
def strayDone (p : Posted) (had : Bool) (s : State) : State :=
  s.when (p.stray && !had) (fun s => s.clearRej p.src.req)

/-- Posted writes reach their blocks in order (R32, R33, R612). -/
def drainPosted : List Posted → State → Answer
  | [], s => .next s
  | p :: l, s => andThen (deviceAt true p.src p.addr p.data s) (fun t =>
      drainPosted l (strayDone p (s.rej.contains p.src.req) t))

/-- R33: the requester's earlier writes to the block reach it first. -/
def drainOwn (req : Nat) (blk : Option Blk) (s : State) : Answer :=
  let mine (p : Posted) : Bool := p.src.req == req && blkAt p.addr == blk
  drainPosted (s.posted.filter mine) { s with posted := s.posted.filter (fun p => !mine p) }

/-- A device write commanded now, behind the writer's earlier writes to the block (R33). -/
def devWrite (s8ok : Bool) (src : Src) (blk : Blk) (off : Nat) (w : Word) (s : State) : Answer :=
  andThen (drainOwn src.req (some blk) s) (devPut s8ok src blk off w)

/-! ### Writes at large (R94, R101) -/

/-- REGISTER_WRITE (R94): `off` may name an alias. -/
def execRegisterWrite (src : Src) (blk : Blk) (off : Nat) (w : Word) (s : State) : Answer := devWrite true src blk off w s

/-- A write through an alias of the register at offset `off`; past the span of an alias no register stands (R28). -/
def aliasWriteAt (al : Alias) (src : Src) (blk : Blk) (off : Nat) (w : Word) (s : State) : Answer :=
  if off < 0x4000 then devWrite true src blk (off + al.off) w s
  else (s.fabReject src 0x10 (blk.base + off + al.off)).next

/-- ALIAS_SET_WRITE (R101). -/
def execAliasSetWrite (src : Src) (blk : Blk) (off : Nat) (w : Word) (s : State) : Answer := aliasWriteAt .set src blk off w s
/-- ALIAS_CLEAR_WRITE (R101). -/
def execAliasClearWrite (src : Src) (blk : Blk) (off : Nat) (w : Word) (s : State) : Answer := aliasWriteAt .clear src blk off w s
/-- ALIAS_TOGGLE_WRITE (R101). -/
def execAliasToggleWrite (src : Src) (blk : Blk) (off : Nat) (w : Word) (s : State) : Answer := aliasWriteAt .toggle src blk off w s

/-! ### SYS_RESET (R45, R47) -/

/-- The keyed word of SYS_RESET. -/
def resetKey (kind : Nat) : Word := setBits (setBits 0 35 28 0x5A) 1 0 kind

/-- SYS_RESET_WARM (R47): an accepted request makes the reset in the same step. -/
def execSysResetWarm (src : Src) (b : BootIn) (s : State) : Answer :=
  andThen (devWrite true src .sys 0x10 (resetKey 0) { s with warmDue := none }) (fun s' =>
    match s'.warmDue with
    | some c => (warmFrom s' c 0 b).next
    | none => { s' with warmDue := s.warmDue }.next)

/-- SYS_RESET_CORE_A (R47). -/
def execSysResetCoreA (src : Src) (s8ok : Bool) (s : State) : Answer := devWrite s8ok src .sys 0x10 (resetKey 1) s
/-- SYS_RESET_CORE_B (R47). -/
def execSysResetCoreB (src : Src) (s8ok : Bool) (s : State) : Answer := devWrite s8ok src .sys 0x10 (resetKey 2) s

/-! ### SAFE_CLR (R580) -/

/-- SAFE_CLEAR (R580): a write of SAFE_CLR; `ended` names the present causes of feeds, clocks and supplies (classes 9
and 10) that the fault manager finds ended: a clock's not within 1 ms of its last detection. -/
def execSafeClear (src : Src) (w : Word) (ended : List (Nat × Nat)) (s : State) : Answer :=
  let gone (c : Cause) : Bool := ended.contains (c.cls, c.idx) && (c.cls == 10
    || (c.cls == 9 && (c.idx == 1 || c.idx == 3) && decide (ms 1 ≤ (s.now - c.seen).toNat)))
  devWrite true src .safe 0x10 w { s with safe := { s.safe with causes := s.safe.causes.filter (fun c => !gone c) } }

/-! ### The commands that write one register -/

/-- A register field of a word set. -/
def Fld.set (f : Fld) (x : Nat) (w : Word) : Word := setBits w f.hi f.lo x

/-- The channel block and the page offset of a function (R115). -/
def pscBlk (f : Fin 72) : Blk := if f.val < 36 then .psc0 else .psc1
def pscOff (f : Fin 72) : Nat := 0x100 + (f.val % 36) * 0x100

/-- FOLIO_REFOLD_OWN (R83). -/
def execFolioRefoldOwn (src : Src) (s : State) : Answer :=
  devWrite true src .folio 4 (FOLIO_CMD_KEY.set 0xA5 (FOLIO_CMD_OP.set 1 0)) s
/-- FOLIO_REFOLD_OTHER (R83). -/
def execFolioRefoldOther (src : Src) (s : State) : Answer :=
  devWrite true src .folio 4 (FOLIO_CMD_KEY.set 0xA5 (FOLIO_CMD_OP.set 2 0)) s
/-- FOLIO_VERIFY_OTHER (R89). -/
def execFolioVerifyOther (src : Src) (s : State) : Answer :=
  devWrite true src .folio 4 (FOLIO_CMD_KEY.set 0xA5 (FOLIO_CMD_OP.set 3 0)) s
/-- PSC_MODE_OFF (R121). -/
def execPscModeOff (src : Src) (f : Fin 72) (w : Word) (s : State) : Answer :=
  devWrite true src (pscBlk f) (pscOff f) (PSC_CMD_MODE.set 0 w) s
/-- PSC_MODE_ON (R121). -/
def execPscModeOn (src : Src) (f : Fin 72) (w : Word) (s : State) : Answer :=
  devWrite true src (pscBlk f) (pscOff f) (PSC_CMD_MODE.set 1 w) s
/-- PSC_MODE_PWM (R128). -/
def execPscModePwm (src : Src) (f : Fin 72) (w : Word) (s : State) : Answer :=
  devWrite true src (pscBlk f) (pscOff f) (PSC_CMD_MODE.set 2 w) s
/-- PSC_MODE_LOWON (R121). -/
def execPscModeLowon (src : Src) (f : Fin 72) (w : Word) (s : State) : Answer :=
  devWrite true src (pscBlk f) (pscOff f) (PSC_CMD_MODE.set 3 w) s
/-- PSC_MODE_PWMSYNC (R183). -/
def execPscModePwmsync (src : Src) (f : Fin 72) (w : Word) (s : State) : Answer :=
  devWrite true src (pscBlk f) (pscOff f) (PSC_CMD_MODE.set 4 w) s
/-- PSC_PWM_WRITE (R127). -/
def execPscPwmWrite (src : Src) (f : Fin 72) (w : Word) (s : State) : Answer :=
  devWrite true src (pscBlk f) (pscOff f + 4) w s
/-- CHANNEL_UNLOCK (R169). -/
def execChannelUnlock (src : Src) (f : Fin 72) (w : Word) (s : State) : Answer :=
  devWrite true src (pscBlk f) (pscOff f + 0x28) (PSC_FAULT_LOCK.set 1 w) s
/-- HEARTBEAT_ENABLE (R141). -/
def execHeartbeatEnable (src : Src) (w : Word) (s : State) : Answer :=
  devWrite true src .psg 0 (PSG_CTRL_HBEN.set 1 w) s
/-- HEARTBEAT_REFRESH (R142). -/
def execHeartbeatRefresh (src : Src) (w : Word) (s : State) : Answer := devWrite true src .psg 4 w s
/-- CHANNEL_RECLAIM (R146). -/
def execChannelReclaim (src : Src) (w : Word) (s : State) : Answer := devWrite true src .psg 0x18 w s
/-- MOT_CMD_STOP (R195). -/
def execMotCmdStop (src : Src) (k : Fin 6) (w : Word) (s : State) : Answer :=
  devWrite true src .mot (0x104 + k * 0x100) (MOT_CMD_OP.set 0 w) s
/-- MOT_CMD_CLOSE (R191). -/
def execMotCmdClose (src : Src) (k : Fin 6) (w : Word) (s : State) : Answer :=
  devWrite true src .mot (0x104 + k * 0x100) (MOT_CMD_OP.set 1 w) s
/-- MOT_CMD_OPEN (R191). -/
def execMotCmdOpen (src : Src) (k : Fin 6) (w : Word) (s : State) : Answer :=
  devWrite true src .mot (0x104 + k * 0x100) (MOT_CMD_OP.set 2 w) s
/-- MOT_CMD_GOTO (R214). -/
def execMotCmdGoto (src : Src) (k : Fin 6) (w : Word) (s : State) : Answer :=
  devWrite true src .mot (0x104 + k * 0x100) (MOT_CMD_OP.set 3 w) s
/-- MOT_CMD_LEARN (R201). -/
def execMotCmdLearn (src : Src) (k : Fin 6) (w : Word) (s : State) : Answer :=
  devWrite true src .mot (0x104 + k * 0x100) (MOT_CMD_OP.set 4 w) s
/-- MOT_CMD_WRUN (R210). -/
def execMotCmdWrun (src : Src) (k : Fin 6) (w : Word) (s : State) : Answer :=
  devWrite true src .mot (0x104 + k * 0x100) (MOT_CMD_OP.set 5 w) s
/-- MOT_CMD_WINT (R210). -/
def execMotCmdWint (src : Src) (k : Fin 6) (w : Word) (s : State) : Answer :=
  devWrite true src .mot (0x104 + k * 0x100) (MOT_CMD_OP.set 6 w) s
/-- MOT_CMD_WSINGLE (R210). -/
def execMotCmdWsingle (src : Src) (k : Fin 6) (w : Word) (s : State) : Answer :=
  devWrite true src .mot (0x104 + k * 0x100) (MOT_CMD_OP.set 7 w) s
/-- MOT_CMD_WPARK (R210). -/
def execMotCmdWpark (src : Src) (k : Fin 6) (w : Word) (s : State) : Answer :=
  devWrite true src .mot (0x104 + k * 0x100) (MOT_CMD_OP.set 8 w) s
/-- MOT_CMD_DRIVE (R214). -/
def execMotCmdDrive (src : Src) (k : Fin 6) (w : Word) (s : State) : Answer :=
  devWrite true src .mot (0x104 + k * 0x100) (MOT_CMD_OP.set 9 w) s
/-- MOT_ENABLE_CLEAR (R219). -/
def execMotEnableClear (src : Src) (k : Fin 6) (w : Word) (s : State) : Answer :=
  devWrite true src .mot (0x100 + k * 0x100) (MOT_CTRL_EN.set 0 w) s
/-- STK_FIRE (R227). -/
def execStkFire (src : Src) (k : Fin 16) (w : Word) (s : State) : Answer :=
  devWrite true src .stk (0x108 + k * 0x100) (STK_CMD_OP.set 1 w) s
/-- STK_RELEASE (R227). -/
def execStkRelease (src : Src) (k : Fin 16) (w : Word) (s : State) : Answer :=
  devWrite true src .stk (0x108 + k * 0x100) (STK_CMD_OP.set 0 w) s
/-- STK_ENABLE (R244). -/
def execStkEnable (src : Src) (k : Fin 16) (w : Word) (s : State) : Answer :=
  devWrite true src .stk (0x100 + k * 0x100) (STK_CTRL_EN.set 1 w) s
/-- STK_ENABLE_CLEAR (R227). -/
def execStkEnableClear (src : Src) (k : Fin 16) (w : Word) (s : State) : Answer :=
  devWrite true src .stk (0x100 + k * 0x100) (STK_CTRL_EN.set 0 w) s
/-- ST_MODE_OFF (R273). -/
def execStModeOff (src : Src) (n : Fin 8) (w : Word) (s : State) : Answer :=
  devWrite true src .lgt (0x100 + n * 0x100) (LGT_STCMD_MODE.set 0 w) s
/-- ST_MODE_ON (R273). -/
def execStModeOn (src : Src) (n : Fin 8) (w : Word) (s : State) : Answer :=
  devWrite true src .lgt (0x100 + n * 0x100) (LGT_STCMD_MODE.set 1 w) s
/-- ST_MODE_PWM (R253). -/
def execStModePwm (src : Src) (n : Fin 8) (w : Word) (s : State) : Answer :=
  devWrite true src .lgt (0x100 + n * 0x100) (LGT_STCMD_MODE.set 2 w) s
/-- SK_MODE_OFF (R273). -/
def execSkModeOff (src : Src) (n : Fin 48) (w : Word) (s : State) : Answer :=
  devWrite true src .lgt (0xA00 + n * 0x20) (LGT_SKCMD_MODE.set 0 w) s
/-- SK_MODE_ON (R256). -/
def execSkModeOn (src : Src) (n : Fin 48) (w : Word) (s : State) : Answer :=
  devWrite true src .lgt (0xA00 + n * 0x20) (LGT_SKCMD_MODE.set 1 w) s
/-- SK_MODE_PWM (R257). -/
def execSkModePwm (src : Src) (n : Fin 48) (w : Word) (s : State) : Answer :=
  devWrite true src .lgt (0xA00 + n * 0x20) (LGT_SKCMD_MODE.set 2 w) s
/-- STRING_UNLOCK (R273). -/
def execStringUnlock (src : Src) (n : Fin 8) (w : Word) (s : State) : Answer :=
  devWrite true src .lgt (0x11C + n * 0x100) (LGT_STFAULT_LOCK.set 1 w) s
/-- MATRIX_ENABLE (R260). -/
def execMatrixEnable (src : Src) (w : Word) (s : State) : Answer :=
  devWrite true src .lgt 0x1000 (LGT_MXCTRL_EN.set 1 w) s
/-- MATRIX_SWAP (R261). -/
def execMatrixSwap (src : Src) (w : Word) (s : State) : Answer :=
  devWrite true src .lgt 0x1000 (LGT_MXCTRL_SWAP.set 1 w) s
/-- MATRIX_ROW_UNLOCK (R262). -/
def execMatrixRowUnlock (src : Src) (w : Word) (s : State) : Answer := devWrite true src .lgt 0x1004 w s
/-- LIGHT_RECLAIM (R274). -/
def execLightReclaim (src : Src) (w : Word) (s : State) : Answer := devWrite true src .lgt 0xC w s
/-- LCH_ENABLE (R269). -/
def execLchEnable (src : Src) (w : Word) (s : State) : Answer := devWrite true src .lch 0 (LCH_CTRL_EN.set 1 w) s
/-- LCH_GO (R269). -/
def execLchGo (src : Src) (w : Word) (s : State) : Answer := devWrite true src .lch 0 (LCH_CTRL_GO.set 1 w) s
/-- LCH_SWAP (R269). -/
def execLchSwap (src : Src) (w : Word) (s : State) : Answer := devWrite true src .lch 0 (LCH_CTRL_SWAP.set 1 w) s
/-- INPUT_ENABLE (R282). -/
def execInputEnable (src : Src) (n : Fin 64) (w : Word) (s : State) : Answer :=
  devWrite true src .inp (0x100 + 4 * n) (INP_ICFG_ON.set 1 w) s
/-- ADC_ENABLE (R289). -/
def execAdcEnable (src : Src) (w : Word) (s : State) : Answer :=
  devWrite true src .inp 0x200 (INP_ADCTRL_EN.set 1 w) s
/-- TIMER_ENABLE (R296). -/
def execTimerEnable (src : Src) (n : Fin 32) (w : Word) (s : State) : Answer :=
  devWrite true src .tmr (0x100 + n * 0x40) (TMR_CTRL_EN.set 1 w) s
/-- TIMER_DISABLE (R296). -/
def execTimerDisable (src : Src) (n : Fin 32) (w : Word) (s : State) : Answer :=
  devWrite true src .tmr (0x100 + n * 0x40) (TMR_CTRL_EN.set 0 w) s
/-- TIMER_CMD_START (R296). -/
def execTimerCmdStart (src : Src) (n : Fin 32) (w : Word) (s : State) : Answer :=
  devWrite true src .tmr (0x110 + n * 0x40) (TMR_CMD_OP.set 1 w) s
/-- TIMER_CMD_STOP (R296). -/
def execTimerCmdStop (src : Src) (n : Fin 32) (w : Word) (s : State) : Answer :=
  devWrite true src .tmr (0x110 + n * 0x40) (TMR_CMD_OP.set 2 w) s
/-- TIMER_GLOBAL_START (R304). -/
def execTimerGlobalStart (src : Src) (w : Word) (s : State) : Answer := devWrite true src .tmr 0 w s
/-- RULE_SOFTWARE_PULSE (R315). -/
def execRuleSoftwarePulse (src : Src) (w : Word) (s : State) : Answer := devWrite true src .rule 0 w s
/-- CAN_ENABLE (R325). -/
def execCanEnable (src : Src) (n : Fin 8) (w : Word) (s : State) : Answer :=
  devWrite true src (.can n) 0 (CAN_CTRL_EN.set 1 w) s
/-- CAN_DISABLE (R339). -/
def execCanDisable (src : Src) (n : Fin 8) (w : Word) (s : State) : Answer :=
  devWrite true src (.can n) 0 (CAN_CTRL_EN.set 0 w) s
/-- CAN_RX_RELEASE (R329). -/
def execCanRxRelease (src : Src) (n : Fin 8) (w : Word) (s : State) : Answer := devWrite true src (.can n) 0x20 w s
/-- CAN_TX_REQUEST (R332). -/
def execCanTxRequest (src : Src) (n : Fin 8) (k : Fin 8) (w : Word) (s : State) : Answer :=
  devWrite true src (.can n) (0x60 + 4 * k) w s
/-- CAN_TX_CANCEL (R335). -/
def execCanTxCancel (src : Src) (n : Fin 8) (w : Word) (s : State) : Answer := devWrite true src (.can n) 0x24 w s
/-- CAN_SEAL_WRITE (R336). -/
def execCanSealWrite (src : Src) (n : Fin 8) (w : Word) (s : State) : Answer := devWrite true src (.can n) 0x30 w s
/-- CAN_RECOVER (R338). -/
def execCanRecover (src : Src) (n : Fin 8) (w : Word) (s : State) : Answer :=
  devWrite true src (.can n) 0 (CAN_CTRL_RECOVER.set 1 w) s
/-- LIN_GOSLEEP (R345). -/
def execLinGosleep (src : Src) (n : Fin 12) (w : Word) (s : State) : Answer :=
  devWrite true src (.lin n) 0 (LIN_CTRL_GOSLEEP.set 1 w) s
/-- LIN_WAKE_SEND (R346). -/
def execLinWakeSend (src : Src) (n : Fin 12) (w : Word) (s : State) : Answer :=
  devWrite true src (.lin n) 0 (LIN_CTRL_WAKE.set 1 w) s
/-- ETH_TX_KICK (R351). -/
def execEthTxKick (src : Src) (p : Fin 6) (w : Word) (s : State) : Answer :=
  devWrite true src (ethBlk p.val) 0x20 (ETH_TXKICK_GO.set 1 w) s
/-- RING_ENABLE (R376). -/
def execRingEnable (src : Src) (w : Word) (s : State) : Answer := devWrite true src .ring 0 (RING_CTRL_EN.set 1 w) s
/-- RING_TXGO (R364). -/
def execRingTxgo (src : Src) (w : Word) (s : State) : Answer := devWrite true src .ring 0x20 w s
/-- RING_RX_RELEASE (R367). -/
def execRingRxRelease (src : Src) (w : Word) (s : State) : Answer := devWrite true src .ring 0x28 w s
/-- RING_WAKE_TONE (R381). -/
def execRingWakeTone (src : Src) (w : Word) (s : State) : Answer :=
  devWrite true src .ring 0 (RING_CTRL_WAKE.set 1 w) s
/-- RING_CRYPT_CONFIG (R378). -/
def execRingCryptConfig (src : Src) (w : Word) (s : State) : Answer := devWrite true src .ring 0x38 w s
/-- NMG_ENABLE (R388). -/
def execNmgEnable (src : Src) (c : Fin 12) (w : Word) (s : State) : Answer :=
  devWrite true src .nmg (0x100 + c * 0x40) (NMG_CTRL_EN.set 1 w) s
/-- NMG_DISABLE (R388). -/
def execNmgDisable (src : Src) (c : Fin 12) (w : Word) (s : State) : Answer :=
  devWrite true src .nmg (0x100 + c * 0x40) (NMG_CTRL_EN.set 0 w) s
/-- NMG_REQUEST (R388). -/
def execNmgRequest (src : Src) (c : Fin 12) (w : Word) (s : State) : Answer :=
  devWrite true src .nmg (0x100 + c * 0x40) (NMG_CTRL_REQ.set 1 w) s
/-- NMG_RELEASE (R388). -/
def execNmgRelease (src : Src) (c : Fin 12) (w : Word) (s : State) : Answer :=
  devWrite true src .nmg (0x100 + c * 0x40) (NMG_CTRL_REQ.set 0 w) s
/-- NMG_LOG_CLEAR (R400). -/
def execNmgLogClear (src : Src) (w : Word) (s : State) : Answer := devWrite true src .nmg 4 (NMG_LOGCTL_CLR.set 1 w) s
/-- LC_ENROLL (R402). -/
def execLcEnroll (src : Src) (w : Word) (s : State) : Answer := devWrite true src .vault 4 (VAULT_LCCMD_OP.set 1 w) s
/-- LC_OWNER (R402). -/
def execLcOwner (src : Src) (w : Word) (s : State) : Answer := devWrite true src .vault 4 (VAULT_LCCMD_OP.set 2 w) s
/-- LC_FIELD (R402). -/
def execLcField (src : Src) (w : Word) (s : State) : Answer := devWrite true src .vault 4 (VAULT_LCCMD_OP.set 3 w) s
/-- LC_NEWCHAL (R404). -/
def execLcNewchal (src : Src) (w : Word) (s : State) : Answer := devWrite true src .vault 4 (VAULT_LCCMD_OP.set 4 w) s
/-- LC_SERVICE (R405). -/
def execLcService (src : Src) (w : Word) (s : State) : Answer := devWrite true src .vault 4 (VAULT_LCCMD_OP.set 5 w) s
/-- LC_ENDSVC (R402). -/
def execLcEndsvc (src : Src) (w : Word) (s : State) : Answer := devWrite true src .vault 4 (VAULT_LCCMD_OP.set 6 w) s
/-- LC_RETURN (R405). -/
def execLcReturn (src : Src) (w : Word) (s : State) : Answer := devWrite true src .vault 4 (VAULT_LCCMD_OP.set 7 w) s
/-- LC_VOID (R402). -/
def execLcVoid (src : Src) (w : Word) (s : State) : Answer := devWrite true src .vault 4 (VAULT_LCCMD_OP.set 8 w) s
/-- KEY_LOAD (R410). -/
def execKeyLoad (src : Src) (w : Word) (s : State) : Answer := devWrite true src .vault 8 (VAULT_KCMD_OP.set 1 w) s
/-- KEY_CLEAR (R411). -/
def execKeyClear (src : Src) (w : Word) (s : State) : Answer := devWrite true src .vault 8 (VAULT_KCMD_OP.set 2 w) s
/-- KEY_RESTRICT (R411). -/
def execKeyRestrict (src : Src) (w : Word) (s : State) : Answer :=
  devWrite true src .vault 8 (VAULT_KCMD_OP.set 3 w) s
/-- SEAL_REPLY (R413). -/
def execSealReply (src : Src) (c : Fin 4) (w : Word) (s : State) : Answer :=
  devWrite true src .vault (0x818 + 0x20 * c) w s
/-- CRYPT_JOB_START (R416). -/
def execCryptJobStart (src : Src) (w : Word) (s : State) : Answer :=
  devWrite true src .crypt 0 (CRYPT_JOB_GO.set 1 w) s
/-- ACC_ENABLE (R426). -/
def execAccEnable (src : Src) (w : Word) (s : State) : Answer := devWrite true src .acc 0 (ACC_CTRL_EN.set 1 w) s
/-- ACC_DISABLE (R444). -/
def execAccDisable (src : Src) (w : Word) (s : State) : Answer := devWrite true src .acc 0 (ACC_CTRL_EN.set 0 w) s
/-- ACC_LEARN (R433). -/
def execAccLearn (src : Src) (s : State) : Answer := devWrite true src .acc 0x1C (ACC_LEARN_OP.set 1 0) s
/-- ACC_IMPORT (R431). -/
def execAccImport (src : Src) (s : State) : Answer := devWrite true src .acc 0x1C (ACC_LEARN_OP.set 2 0) s
/-- INTERRUPT_EOI (R474). -/
def execInterruptEoi (src : Src) (t : Fin 5) (w : Word) (s : State) : Answer :=
  devWrite true src .icu (0x104 + 0x40 * t) w s
/-- ICU_SOURCE_CONFIG (R474). -/
def execIcuSourceConfig (src : Src) (n : Fin 384) (w : Word) (s : State) : Answer :=
  devWrite true src .icu (0x400 + 4 * n) w s
/-- SAFE_REACTION_CONFIG (R584). -/
def execSafeReactionConfig (src : Src) (cls : Fin 15) (w : Word) (s : State) : Answer :=
  devWrite true src .safe (0x40 + 4 * cls) w s
/-- UPD_BEGIN (R534). -/
def execUpdBegin (src : Src) (w : Word) (s : State) : Answer := devWrite true src .sys 0x80 (SYS_UPDCMD_OP.set 1 w) s
/-- UPD_DATA (R535). -/
def execUpdData (src : Src) (w : Word) (s : State) : Answer := devWrite true src .sys 0x80 (SYS_UPDCMD_OP.set 2 w) s
/-- UPD_END (R536). -/
def execUpdEnd (src : Src) (w : Word) (s : State) : Answer := devWrite true src .sys 0x80 (SYS_UPDCMD_OP.set 3 w) s
/-- UPD_ABORT (R537). -/
def execUpdAbort (src : Src) (w : Word) (s : State) : Answer := devWrite true src .sys 0x80 (SYS_UPDCMD_OP.set 4 w) s
/-- UPD_DKIMPORT (R539). -/
def execUpdDkimport (src : Src) (w : Word) (s : State) : Answer :=
  devWrite true src .sys 0x80 (SYS_UPDCMD_OP.set 5 w) s
/-- ED_ARM (R540). -/
def execEdArm (src : Src) (s : State) : Answer :=
  devWrite true src .sys 0x60 (SYS_EDCMD_KEY.set 0x3C (SYS_EDCMD_OP.set 1 0)) s
/-- ED_ARMNOW (R540). -/
def execEdArmnow (src : Src) (s : State) : Answer :=
  devWrite true src .sys 0x60 (SYS_EDCMD_KEY.set 0x3C (SYS_EDCMD_OP.set 2 0)) s
/-- ED_DISARM (R540). -/
def execEdDisarm (src : Src) (s : State) : Answer :=
  devWrite true src .sys 0x60 (SYS_EDCMD_KEY.set 0x3C (SYS_EDCMD_OP.set 3 0)) s
/-- ED_CONFIRM (R542). -/
def execEdConfirm (src : Src) (s : State) : Answer :=
  devWrite true src .sys 0x60 (SYS_EDCMD_KEY.set 0x3C (SYS_EDCMD_OP.set 4 0)) s
/-- ED_REVERT (R540). -/
def execEdRevert (src : Src) (s : State) : Answer :=
  devWrite true src .sys 0x60 (SYS_EDCMD_KEY.set 0x3C (SYS_EDCMD_OP.set 5 0)) s
/-- ED_RETRYISL (R540). -/
def execEdRetryisl (src : Src) (s : State) : Answer :=
  devWrite true src .sys 0x60 (SYS_EDCMD_KEY.set 0x3C (SYS_EDCMD_OP.set 6 0)) s
/-- ED_RECOVER (R540). -/
def execEdRecover (src : Src) (s : State) : Answer :=
  devWrite true src .sys 0x60 (SYS_EDCMD_KEY.set 0x3C (SYS_EDCMD_OP.set 7 0)) s
/-- NV_ROW_WRITE (R545). -/
def execNvRowWrite (src : Src) (s : State) : Answer :=
  devWrite true src .sys 0x74 (SYS_NVCMD_KEY.set 0x69 (SYS_NVCMD_OP.set 1 0)) s
/-- PAD_RELEASE (R569). -/
def execPadRelease (src : Src) (w : Word) (s : State) : Answer := devWrite true src .aon 0x14 w s
/-- RTC_SET (R570). -/
def execRtcSet (src : Src) (w : Word) (s : State) : Answer := devWrite true src .aon 8 w s
/-- RTC_ALARM_SET (R570). -/
def execRtcAlarmSet (src : Src) (w : Word) (s : State) : Answer := devWrite true src .aon 0x10 w s

end Sys2Proof.Machine
end

