-- ==== Sys2Proof/Machine/DevRead.lean ====
section
/-! DEFINITION. Device reads: what a load of a register returns, the registers that show a quantity computed at the read,
and the reads that act (R29, R33, R49, R93, R110). -/

namespace Sys2Proof.Machine

/-! ### Pages without a unit -/

/-- R62, R188, R318, R355, R383, R424 and their like: the register stands in a block or on a page that the folio leaves
without a unit, so it reads 0. -/
def readsAbsent (s : State) (b : Blk) (o : Nat) : Bool :=
  match b with
  | .psc0 => decide (0x100 ≤ o) && !chUsed s (o / 0x100 - 1)
  | .psc1 => decide (0x100 ≤ o) && !chUsed s (o / 0x100 + 35)
  | .stk => decide (0x100 ≤ o) && !stkThere s (o / 0x100 - 1)
  | .mot => decide (0x100 ≤ o) && !motThere s (o / 0x100 - 1)
  | .lgt =>
    if o < 0x100 then false
    else if o < 0x900 then !tgtUsed s (.str (o / 0x100 - 1))
    else if o < 0x1000 then !tgtUsed s (.sink ((o - 0xA00) / 0x20))
    else !hasMatrix s
  | .lch => !tgtUsed s .chain
  | .can n => !canPresent s n.val
  | .lin n => !linPresent s n.val
  | .ts n => !ethPresent s n.val
  | .tx n => !ethPresent s (4 + n.val)
  | .ring => !ringPresent s
  | .nmg =>
    if 0x100 ≤ o && o < 0x400 then !nmgPresent s ((o - 0x100) / 0x40)
    else if 0x400 ≤ o && o < 0x440 then !nmgPresent s ((o - 0x400) / 0x20)
    else false
  | .acc => !accPresent s
  | _ => false

/-! ### Computed registers -/

/-- Ticks left until a deadline that runs. -/
def ticksLeft (s : State) (t : Option Word) : Nat :=
  match t with
  | none => 0
  | some d => if s.reached d then 0 else (d - s.now).toNat

/-- A field of a read word. -/
def Fld.into (f : Fld) (x : Nat) (w : Word) : Word := setBits w f.hi f.lo x

/-- PWR_CAP's word. -/
def capWord (l : List Nat) : Word :=
  (l.zipIdx).foldl (fun w p => setBits w (35 - 3 * p.2) (33 - 3 * p.2) p.1) 0

/-- R559: a requester with a tolerance; PWR_TOL's word. -/
def tolWord (t : Nat × Nat) : Word := PWR_TOL_WHO.into t.1 (PWR_TOL_MINTOL.into t.2 0)

/-- The value a plain read of offset `o` of block `b` shows, `w` standing in the register. -/
def shownWord (s : State) (b : Blk) (o : Nat) (w : Word) : Word :=
  match b with
  | .sys => if o = 4 then s.now else w
  | .pwr =>
    if o = 4 then PWR_STAT_CHOSEN.into (chosenState s) w
    else if o = 8 then capWord (islandCaps s)
    else if o = 0xC then tolWord (minTol s)
    else w
  | .icu => if 0x400 ≤ o && o < 0xA00 then ICU_SRC_PEND.into (srcLevel s ((o - 0x400) / 4)).toNat w else w
  | .psg => if o = 0xC && s.beat.holdEnd.isSome then PSG_HOLD_REMAIN.into ((ticksLeft s s.beat.holdEnd + 99999) / 100000) w else w
  | .stk =>
    let k := stkLead s (o / 0x100 - 1)
    if 0x100 ≤ o && o % 0x100 == 0x28 then STK_DACT_ACT.into (stkActive s (o / 0x100 - 1) / 100000) w
    else if 0x100 ≤ o && o % 0x100 == 0x24 && stkPhase s k == 1 then STK_MEAS_WAITUS.into (waitUs s k) w
    else w
  | .ring =>
    if o = 0x10 then Config.uid
    else if o = 0x1C then s.now + s.rd (ringB + 0x18)
    else w
  | .acc =>
    if o = 0xC then ACC_SESSION_REMAIN.into (ticksLeft s s.acc.timer / sec 1) w
    else if o = 0x14 || o = 0x18 then ACC_CH_BOFF.into (ticksLeft s (s.acc.boff.getD ((o - 0x14) / 4) none) / ms 1) w
    else w
  | .inp =>
    if 0x100 ≤ o && o < 0x200 && !s.flag (inpB + (o - 0x100)) INP_ICFG_USE then w &&& maskOf 35 28
    else if 0x280 ≤ o && o < 0x2C0 && !s.flag (inpB + (o - 0x280)) INP_ACFG_USE then w &&& maskOf 35 32
    else w
  | .can n => if o = 4 && s.flag (canB n.val) CAN_STAT_ACTIVE && s.freeBit then CAN_STAT_RXING.into 1 w else w
  | .ts n => if o = 0x2C && s.flag (ethB n.val) ETH_CTRL_EN && s.freeBit then TS_PHY_PLCAST.into 1 w else w
  | _ => w

/-- A read that draws one of the model's free values. -/
def drawsFree (b : Blk) (o : Nat) : Bool :=
  match b with
  | .can _ => o == 4
  | .ts _ => o == 0x2C
  | _ => false

/-! ### The read -/

/-- What a device read answers: the word, or the code of its precise fault. -/
inductive ReadOut where
  | word (w : Word)
  | err (code : Nat)
  deriving DecidableEq, Repr

/-- What a read does beyond returning its word (R93): the claim (R473), the capture queue (R301), the snapshot (R307), NEW
of a conversion (R289). -/
def readActs (s : State) (src : Src) (b : Blk) (o : Nat) (w : Word) : State × Word :=
  match b with
  | .icu =>
    if 0x100 ≤ o && o < 0x240 && o % 0x40 == 0 then
      let p := claimRead s ((o - 0x100) / 0x40) src
      (p.1, BitVec.ofNat 36 p.2)
    else (s, w)
  | .tmr =>
    if 0x100 ≤ o && o < 0x900 then
      let n := (o - 0x100) / 0x40
      if o % 0x40 = 0x18 then (tmrCapRead s src n, ((s.tm n).queue.head?.map (·.1)).getD 0)
      else if o % 0x40 = 0xC then (tmrSnapshot s n, w)
      else (s, w)
    else (s, w)
  | .inp => if 0x240 ≤ o && o < 0x280 then (adRead s ((o - 0x240) / 4), w) else (s, w)
  | _ => (if drawsFree b o then s.drawn else s, w)

/-- A device read of the word at `a` by `src` (R29, R49, R102): an island not ready is recorded and faults with BUSY. -/
def deviceRead (s : State) (src : Src) (a : Nat) : State × ReadOut :=
  match blkAt a with
  | none => (s, .err 0x10)
  | some b =>
    let p := aliasAt (a - b.base)
    if !s.ready b.island then (s.fabErr 0x06 src.req a, .err 0x06)
    else if b.lastOff < p.2 then (s, .err 0x10)
    else if readsAbsent s b p.2 then (s, .word 0)
    else
      let r := readActs s src b p.2 (shownWord s b p.2 (s.shown (b.base + p.2)))
      (r.1, .word r.2)

/-! ### The commands that are a read of one register -/

/-- A device read commanded now, behind the reader's earlier writes to the block (R33). -/
def readCmd (src : Src) (b : Blk) (off : Nat) (s : State) : Answer :=
  andThen (drainOwn src.req (some b) s) (fun s => (deviceRead s src (b.base + off)).1.next)

/-- INTERRUPT_CLAIM (R473): a read of ICU_CLAIMt. -/
def execInterruptClaim (t : Fin 5) (src : Src) (s : State) : Answer := readCmd src .icu (0x100 + 0x40 * t) s
/-- ADC_RESULT_READ (R289): a read of INP_ADRESn. -/
def execAdcResultRead (src : Src) (n : Fin 16) (s : State) : Answer := readCmd src .inp (0x240 + 4 * n) s
/-- TIMER_CAP_READ (R301): a read of TMR_CAP. -/
def execTimerCapRead (src : Src) (n : Fin 32) (s : State) : Answer := readCmd src .tmr (0x118 + 0x40 * n) s
/-- TIMER_COUNT_SNAPSHOT (R307): a read of TMR_COUNT. -/
def execTimerCountSnapshot (src : Src) (n : Fin 32) (s : State) : Answer := readCmd src .tmr (0x10C + 0x40 * n) s

end Sys2Proof.Machine
end

