-- ==== Sys2Proof/Machine/CpuMem.lean ====
section
/-! DEFINITION. Loads, stores, the reservation, fences and Signet calls of a core (R37, R413, R455–R463, R477,
R496–R499). -/

namespace Sys2Proof.Machine

/-! ### The checks of an access (R497) -/

/-- R497: the first check that an access of `n` nibs at `a` fails, with its SUB. -/
def memFault (s : State) (c : CoreId) (a : Word) (n : Nat) (store atomic : Bool) : Option (Exc × Nat) :=
  let e : Exc := if store then .store else .load
  match (if a.toNat < 2 ^ 32 then regionOf s a.toNat else none) with
  | none => some (e, 0x10)
  | some r =>
    if !regionOpen (c.val == 4) r then some (e, 0x04)
    else if store && (r == .rom || r == .vellum || r == .vault) then some (e, 0x10)
    else if a.toNat % n ≠ 0 || (n ≠ 4 && r == .device) then some (.align, 0)
    else if r ≠ .device && (s.core c.val).world == .opn && !openGrants (s.core c.val) (if store then 33 else 34) a.toNat
      then some (e, 0x04)
    else if atomic && !(r == .tcm c.val || r == .inkwell) then some (.atomic, 0)
    else none

/-- The exception of a failed check or of the access itself: LOAD and STORE carry the address (R465). -/
def memRaise (s : State) (c : CoreId) (f : Exc × Nat) (a : Word) : State :=
  match f.1 with
  | .load | .store => s.fault c f.1 f.2 a
  | e => s.trap c e

/-- R485: the issue of an instruction whose meaning reaches a device. -/
def issueA (c : CoreId) (s : State) (f : State → Answer) : Answer :=
  if !canIssue s c then .next s
  else match fetchFault s c with
    | some e => .next (fetchRaise s c e)
    | none => f s

/-! ### Loads -/

/-- R26, R409, R412, R415: reads of the edition slots pass through E2 with slot 31, which may be refused. -/
def slotSealed (s : State) (a : Nat) : Bool :=
  decide (0x10000000 ≤ a) && decide (a < 0x12000000) && !slotAllows s 31 2 2 (lcState s)

/-- The low `n` nibs from offset `o` of a line's words. -/
def lineNibs (l : List Word) (o : Nat) : Nat → Nat
  | 0 => 0
  | n + 1 => bitsOf (l.getD (o / 4) 0) (9 * (o % 4) + 8) (9 * (o % 4)) + 512 * lineNibs l (o + 1) n

/-- R459, R460: a load of the Vellum read map through the data cache, which nothing snoops: a copy older than the store may
still answer, or be refetched. -/
def vellumLoad (s : State) (c : Nat) (a n : Nat) : State × Nat :=
  let key := a / 256
  let v := s.readNibs a n
  let refill (s : State) : State := s.setCore c (fun k => { k with
    dcache := (key, s.words (key * 256) 64) :: k.dcache.filter (fun p => p.1 != key) })
  match (s.core c).dcache.find? (fun p => p.1 == key) with
  | none => (refill s, v)
  | some p =>
    let old := lineNibs p.2 (a % 256) n
    if old = v then (s, v)
    else if s.freeBit then (s.drawn, old)
    else (refill s.drawn, v)

/-- R26: `n` nibs of the vault records as they are stored. -/
def vaultNibs (v a : Nat) : Nat → Nat
  | 0 => 0
  | n + 1 => (Config.vaultNib v a).toNat + 512 * vaultNibs v (a + 1) n

/-- The value of a load of `n` nibs of normal memory.  What the refused E2 returns is open: a free value; so is the form
of the vault records, whose stored words answer alike until a record is written (log entry 29). -/
def memValue (s : State) (c : Nat) (a n : Nat) : State × Nat :=
  if slotSealed s a then (s.drawn, s.free.toNat % 512 ^ n)
  else if 0x12E00000 ≤ a ∧ a < 0x12F00000 then (s, vaultNibs s.acc.recVer a n)
  else if 0x10000000 ≤ a then vellumLoad s c a n
  else (s, s.readNibs a n)

/-- R459, R465, R574: an uncorrectable word under the access: ECC in the core's own tightly coupled memory, else a load
fault; its class is recorded, and the transfer's end in SYS_FABERR (R31). -/
def badLoad (s : State) (c : CoreId) (a : Word) : Option State :=
  let w := a.toNat / 4 * 4
  if s.safe.badWords.contains w then
    let p := badPlace w
    let s := eccFault s p.1 p.2 w
    some (if p = (5, c.val) then s.trap c .ecc else (s.fabErr 0x12 c.val a.toNat).fault c .load 0x12 a)
  else none

/-- A device read by a core (R33, R110): the same core's earlier writes to the block go first, and a read of a stale copy
waits for its own pending write to AON. -/
def devLoad (c : CoreId) (a : Word) (s : State) (f : State → Word → State) : Answer :=
  let k := s.core c.val
  andThen (drainOwn c.val (blkAt a.toNat) s) (fun s =>
    let stale := match blkAt a.toNat with | some b => aonHeld b (aliasAt (a.toNat - b.base)).2 | none => false
    let s := s.when (stale && s.aonPend.any (fun w => w.src.req == c.val)) rtcEdge
    if s.core c.val ≠ k then .next s
    else match deviceRead s ⟨c.val, k.world⟩ a.toNat with
      | (s, .err code) => .next (s.fault c .load code a)
      | (s, .word w) => .next (f s w))

/-- A load of `n` nibs from wa + sext(imm18) (R496): `f` takes the value. -/
def memLoad (n : Nat) (atomic : Bool) (c : CoreId) (a : Word) (s : State) (f : State → Nat → State) : Answer :=
  match memFault s c a n false atomic with
  | some e => .next (memRaise s c e a)
  | none =>
    if regionOf s a.toNat = some .device then devLoad c a s (fun s w => f s w.toNat)
    else match badLoad s c a with
      | some s => .next s
      | none =>
        let p := memValue s c.val a.toNat n
        .next (f p.1 p.2)

/-- R496: zero or sign extension of `n` nibs. -/
def loadExt (n : Nat) (sgn : Bool) (v : Nat) : Word :=
  if sgn then (BitVec.ofNat (9 * n) v).signExtend 36 else BitVec.ofNat 36 v

/-- A plain load. -/
def loadInto (n : Nat) (sgn : Bool) (c : CoreId) (wd wa : Reg) (imm : BitVec 18) (s : State) : Answer :=
  issueA c s (fun s => memLoad n false c (s.reg c wa + sext18 imm) s (fun s v => s.regDone c wd (loadExt n sgn v)))

/-- LDW (R496). -/
def execLdw (c : CoreId) (wd wa : Reg) (imm : BitVec 18) (s : State) : Answer := loadInto 4 false c wd wa imm s
/-- LDH (R496). -/
def execLdh (c : CoreId) (wd wa : Reg) (imm : BitVec 18) (s : State) : Answer := loadInto 2 false c wd wa imm s
/-- LDHS (R496). -/
def execLdhs (c : CoreId) (wd wa : Reg) (imm : BitVec 18) (s : State) : Answer := loadInto 2 true c wd wa imm s
/-- LDN (R496). -/
def execLdn (c : CoreId) (wd wa : Reg) (imm : BitVec 18) (s : State) : Answer := loadInto 1 false c wd wa imm s
/-- LDNS (R496). -/
def execLdns (c : CoreId) (wd wa : Reg) (imm : BitVec 18) (s : State) : Answer := loadInto 1 true c wd wa imm s

/-- LRES (R462): a word load that reserves its granule. -/
def execLres (c : CoreId) (wd wa : Reg) (imm : BitVec 18) (s : State) : Answer :=
  issueA c s (fun s =>
    let a := s.reg c wa + sext18 imm
    memLoad 4 true c a s (fun s v =>
      (s.setCore c.val (fun k => { k with resv := some (a.toNat / 16 * 16) })).regDone c wd (BitVec.ofNat 36 v)))

/-! ### Stores -/

/-- The low `n` nibs of a word. -/
def lowNibs (w : Word) (n : Nat) : List Nib := (List.range n).map (fun i => w.extractLsb' (9 * i) 9)

/-- R336: a sealed transmit object is stored to by Signet alone. -/
def storeSealed (s : State) (c : CoreId) (a : Nat) : Bool :=
  c.val != 4 && (match regionOf s a with
    | some (.can n) => canSealed s n (a % 0x8000 / 80)
    | _ => false)

/-- A store of `n` nibs to normal memory: reservations on the granule are lost (R463), a whole word replaces an
uncorrectable one. -/
def memStore (s : State) (a n : Nat) (w : Word) : State :=
  let s := loseResv (s.putNibs a (lowNibs w n)) a n
  if n = 4 then healBad s a 4 else s

/-- A store of `n` nibs by a core at `a` (R32, R496, R497): a device store is posted. -/
def storeTo (n : Nat) (c : CoreId) (a : Word) (w : Word) (atomic : Bool) (s : State) (f : State → State) : State :=
  match memFault s c a n true atomic with
  | some e => memRaise s c e a
  | none =>
    if regionOf s a.toNat = some .device then
      f { s with posted := s.posted ++ [⟨⟨c.val, (s.core c.val).world⟩, a.toNat, w, false⟩] }
    else if storeSealed s c a.toNat then s.fault c .store 0x04 a
    else f (memStore s a.toNat n w)

/-- A plain store. -/
def storeFrom (n : Nat) (c : CoreId) (ws wa : Reg) (imm : BitVec 18) (s : State) : Answer :=
  issue c s (fun s => storeTo n c (s.reg c wa + sext18 imm) (s.reg c ws) false s (fun s => s.advance c))

/-- STW (R496). -/
def execStw (c : CoreId) (ws wa : Reg) (imm : BitVec 18) (s : State) : Answer := storeFrom 4 c ws wa imm s
/-- STH (R496). -/
def execSth (c : CoreId) (ws wa : Reg) (imm : BitVec 18) (s : State) : Answer := storeFrom 2 c ws wa imm s
/-- STN (R496). -/
def execStn (c : CoreId) (ws wa : Reg) (imm : BitVec 18) (s : State) : Answer := storeFrom 1 c ws wa imm s

/-- SCOND (R462, R497, R499): the word is stored, and wd is 1, only while the core holds the granule. -/
def execScond (c : CoreId) (wd wa wb : Reg) (s : State) : Answer :=
  issue c s (fun s =>
    let a := s.reg c wa
    match memFault s c a 4 true true with
    | some e => memRaise s c e a
    | none =>
      let held := (s.core c.val).resv == some (a.toNat / 16 * 16)
      let w := s.reg c wb
      let s := s.when held (fun s => memStore s a.toNat 4 w)
      (s.setCore c.val (fun k => { k with resv := none })).regDone c wd (BitVec.ofNat 36 held.toNat))

/-! ### Fences (R37) -/

/-- FENCE MEM: every access to normal memory is performed when it is made. -/
def execFenceMem (c : CoreId) (s : State) : Answer := issue c s (fun s => s.advance c)

/-- R36, R37: every earlier device write of the core ends; then Z shows the reject flag, which is cleared.  A reset or a
halt of the core by one of those writes leaves the fence incomplete. -/
def fenceDev (c : CoreId) (s : State) : Answer :=
  issueA c s (fun s =>
    let k := s.core c.val
    let mine (p : Posted) : Bool := p.src.req == c.val
    andThen (drainPosted (s.posted.filter mine) { s with posted := s.posted.filter (fun p => !mine p) }) (fun s =>
      let s := s.when (s.aonPend.any (fun w => w.src.req == c.val)) rtcEdge
      if s.core c.val ≠ k then .next s
      else
        let z := !s.rej.contains c.val
        .next (((s.clearRej c.val).setCore c.val (fun k => { k with flg := setZ k.flg z })).advance c)))

/-- FENCE DEV (R37). -/
def execFenceDev (c : CoreId) (s : State) : Answer := fenceDev c s
/-- FENCE ALL (R37): FENCE MEM waits for nothing here, so FENCE DEV alone is left. -/
def execFenceAll (c : CoreId) (s : State) : Answer := fenceDev c s

/-! ### SEAL (R413, R477) -/

/-- The call page of core `c` filled, PEND set, its timeout started; the core waits, its pc at the SEAL. -/
def sealCall (s : State) (c : Nat) (svc : Nat) : State :=
  let k := s.core c
  let p := cstatP c
  let s := ((s.put p VAULT_CSTAT_SVC svc).put p VAULT_CSTAT_WORLD (k.world == .opn).toNat).put p VAULT_CSTAT_PEND 1
  let s := s.each (List.range 4) (fun s i => s.wr (p + 4 + 4 * i) (k.regs.getD (1 + i) 0))
  let s := { s with vault := { s.vault with callAt := s.vault.callAt.set c s.now } }
  s.setCore c (fun k => { k with sealing := true })

/-- SEAL (R413, R477, R501): illegal on Signet and with a service number above 255; SEAL_NEST while a call is pending. -/
def execSeal (c : CoreId) (imm : BitVec 18) (s : State) : Answer :=
  issueIf c (c.val != 4 && decide (imm.toNat < 256)) s (fun s =>
    if s.flag (cstatP c.val) VAULT_CSTAT_PEND then s.trap c .sealNest else sealCall s c.val imm.toNat)

end Sys2Proof.Machine
end

