-- ==== Sys2Proof/Machine/Integer.lean ====
section
/-! DEFINITION. The integer instructions of Valnen-36 (opcodes 0x00–0x7F, R486–R495). -/

namespace Sys2Proof.Machine

/-- ADD: wd := wa + wb (R489). -/
def execAdd (c : CoreId) (wd wa wb : Reg) (s : State) : Answer := alu2 (fun x y _ => opAdd x y) c wd wa wb s

/-- ADC: wd := wa + wb + C (R489). -/
def execAdc (c : CoreId) (wd wa wb : Reg) (s : State) : Answer := alu2 (opAddC) c wd wa wb s

/-- SUB: wd := wa − wb (R489). -/
def execSub (c : CoreId) (wd wa wb : Reg) (s : State) : Answer := alu2 (fun x y _ => opSub x y) c wd wa wb s

/-- SBC: wd := wa − wb − (1 − C) (R489). -/
def execSbc (c : CoreId) (wd wa wb : Reg) (s : State) : Answer := alu2 (opSubC) c wd wa wb s

/-- AND: wd := wa and wb (R489). -/
def execAnd (c : CoreId) (wd wa wb : Reg) (s : State) : Answer := alu2 (fun x y _ => logical (x &&& y)) c wd wa wb s

/-- OR: wd := wa or wb (R489). -/
def execOr (c : CoreId) (wd wa wb : Reg) (s : State) : Answer := alu2 (fun x y _ => logical (x ||| y)) c wd wa wb s

/-- XOR: wd := wa xor wb (R489). -/
def execXor (c : CoreId) (wd wa wb : Reg) (s : State) : Answer := alu2 (fun x y _ => logical (x ^^^ y)) c wd wa wb s

/-- ANDN: wd := wa and not wb (R489). -/
def execAndn (c : CoreId) (wd wa wb : Reg) (s : State) : Answer := alu2 (fun x y _ => logical (x &&& ~~~ y)) c wd wa wb s

/-- SHL: shift left (R490). -/
def execShl (c : CoreId) (wd wa wb : Reg) (s : State) : Answer := alu2 (fun x y _ => opShl x (shiftAmt y)) c wd wa wb s

/-- SHR: shift right (R490). -/
def execShr (c : CoreId) (wd wa wb : Reg) (s : State) : Answer := alu2 (fun x y _ => opShr x (shiftAmt y)) c wd wa wb s

/-- SAR: arithmetic shift right (R490). -/
def execSar (c : CoreId) (wd wa wb : Reg) (s : State) : Answer := alu2 (fun x y _ => opSar x (shiftAmt y)) c wd wa wb s

/-- ROL: rotate left (R490). -/
def execRol (c : CoreId) (wd wa wb : Reg) (s : State) : Answer := alu2 (fun x y _ => opRol x (shiftAmt y)) c wd wa wb s

/-- ROR: rotate right (R490). -/
def execRor (c : CoreId) (wd wa wb : Reg) (s : State) : Answer := alu2 (fun x y _ => opRor x (shiftAmt y)) c wd wa wb s

/-- MUL: low 36 bits of the product (R492). -/
def execMul (c : CoreId) (wd wa wb : Reg) (s : State) : Answer := alu2 (fun x y _ => opMul x y) c wd wa wb s

/-- MULH: high 36 bits of the signed product (R492). -/
def execMulh (c : CoreId) (wd wa wb : Reg) (s : State) : Answer := alu2 (fun x y _ => opMulh x y) c wd wa wb s

/-- MULHU: high 36 bits of the unsigned product (R492). -/
def execMulhu (c : CoreId) (wd wa wb : Reg) (s : State) : Answer := alu2 (fun x y _ => opMulhu x y) c wd wa wb s

/-- DIV: signed quotient (R492). -/
def execDiv (c : CoreId) (wd wa wb : Reg) (s : State) : Answer := alu2 (fun x y _ => opDiv x y) c wd wa wb s

/-- DIVU: unsigned quotient (R492). -/
def execDivu (c : CoreId) (wd wa wb : Reg) (s : State) : Answer := alu2 (fun x y _ => opDivu x y) c wd wa wb s

/-- REM: signed remainder (R492). -/
def execRem (c : CoreId) (wd wa wb : Reg) (s : State) : Answer := alu2 (fun x y _ => opRem x y) c wd wa wb s

/-- REMU: unsigned remainder (R492). -/
def execRemu (c : CoreId) (wd wa wb : Reg) (s : State) : Answer := alu2 (fun x y _ => opRemu x y) c wd wa wb s

/-- NPRM: nib permute under wb[7:0] (R494). -/
def execNprm (c : CoreId) (wd wa wb : Reg) (s : State) : Answer := alu2 (fun x y _ => opNprm x (shiftAmt y)) c wd wa wb s

/-- CLZ: leading zero bits (R489). -/
def execClz (c : CoreId) (wd wa : Reg) (s : State) : Answer := alu1 true opClz c wd wa s

/-- CTZ: trailing zero bits (R489). -/
def execCtz (c : CoreId) (wd wa : Reg) (s : State) : Answer := alu1 true opCtz c wd wa s

/-- POPC: number of 1 bits (R489). -/
def execPopc (c : CoreId) (wd wa : Reg) (s : State) : Answer := alu1 true opPopc c wd wa s

/-- OPK: dense pack (R495). -/
def execOpk (c : CoreId) (wd wa : Reg) (s : State) : Answer := alu1 true opOpk c wd wa s

/-- OPKL: little-endian pack (R495). -/
def execOpkl (c : CoreId) (wd wa : Reg) (s : State) : Answer := alu1 true opOpkl c wd wa s

/-- OUPK: unpack (R495). -/
def execOupk (c : CoreId) (wd wa : Reg) (s : State) : Answer := alu1 true opOupk c wd wa s

/-- OUPKL: little-endian unpack (R495). -/
def execOupkl (c : CoreId) (wd wa : Reg) (s : State) : Answer := alu1 true opOupkl c wd wa s

/-- ADDI: wd := wa + i (R491). -/
def execAddi (c : CoreId) (wd wa : Reg) (imm : BitVec 18) (s : State) : Answer := alu1 true (fun x => opAdd x (sext18 imm)) c wd wa s

/-- SUBI: wd := wa − i (R491). -/
def execSubi (c : CoreId) (wd wa : Reg) (imm : BitVec 18) (s : State) : Answer := alu1 true (fun x => opSub x (sext18 imm)) c wd wa s

/-- ANDI: wd := wa and i (R491). -/
def execAndi (c : CoreId) (wd wa : Reg) (imm : BitVec 18) (s : State) : Answer := alu1 true (fun x => logical (x &&& zext18 imm)) c wd wa s

/-- ORI: wd := wa or i (R491). -/
def execOri (c : CoreId) (wd wa : Reg) (imm : BitVec 18) (s : State) : Answer := alu1 true (fun x => logical (x ||| zext18 imm)) c wd wa s

/-- XORI: wd := wa xor i (R491). -/
def execXori (c : CoreId) (wd wa : Reg) (imm : BitVec 18) (s : State) : Answer := alu1 true (fun x => logical (x ^^^ zext18 imm)) c wd wa s

/-- SHI: shift by an immediate (R491). -/
def execShi (c : CoreId) (wd wa : Reg) (imm : BitVec 18) (s : State) : Answer := alu1 (shiLegal imm) (fun x => opShi x imm) c wd wa s

/-- NPRMI: nib permute under an immediate (R491, R494). -/
def execNprmi (c : CoreId) (wd wa : Reg) (imm : BitVec 18) (s : State) : Answer := alu1 (decide (imm.toNat < 256)) (fun x => opNprm x (imm.toNat % 256)) c wd wa s

/-- LUI: wd := i × 2^18 (R491). -/
def execLui (c : CoreId) (wd : Reg) (imm : BitVec 18) (s : State) : Answer :=
  alu1 true (fun _ => logical (zext18 imm <<< 18)) c wd 0 s

/-- BFX: zero-extended bit field (R493). -/
def execBfx (c : CoreId) (wd wa : Reg) (pos len : BitVec 6) (s : State) : Answer :=
  alu1 (bfLegal pos.toNat len.toNat) (fun x => opBfx x pos.toNat len.toNat) c wd wa s

/-- BFXS: sign-extended bit field (R493). -/
def execBfxs (c : CoreId) (wd wa : Reg) (pos len : BitVec 6) (s : State) : Answer :=
  alu1 (bfLegal pos.toNat len.toNat) (fun x => opBfxs x pos.toNat len.toNat) c wd wa s

/-- BFI: the low bits of wa inserted into a field of wd (R493). -/
def execBfi (c : CoreId) (wd wa : Reg) (pos len : BitVec 6) (s : State) : Answer :=
  alu1 (bfLegal pos.toNat len.toNat) (fun x => opBfi (s.reg c wd) x pos.toNat len.toNat) c wd wa s

end Sys2Proof.Machine
end

