-- ==== Sys2Proof/Machine/Tick.lean ====
section
/-! DEFINITION. What passes with time alone: the block with no command waiting lets one tick pass (log entry 20). -/

namespace Sys2Proof.Machine

/-- R452: core cycles of one tick, four of a Quill core and two of Signet, while its clock runs. -/
def cyclesTick (s : State) : State :=
  s.each (List.range 5) (fun s c =>
    let k := s.core c
    s.when (k.running && !k.waiting && !k.stopped && !coreIdle s c) (fun s =>
      s.setCore c (fun k => { k with cycle := k.cycle + (if c = 4 then 2 else 4) })))

/-- The order in which the timeouts and boundaries of one tick act at its end: the hold and the heartbeat before the
restarts they redirect (R168), a wiper's park edge before its timeout (R213), the end of a repeat time before a keep-alive that falls due (R388), that of a back-off before its frame (R438), period and frame boundaries last, with everything the tick has written (R127, R253), and the commit of an entry after all of them (R562). -/
def endRank : Instr → Nat
  | .holdExpiry | .heartbeatExpiry => 0
  | .retryDelayExpiry _ | .wiperParkEdge _ | .nmgRepeatEnd _ | .accBackoffEnd _ => 1
  | .pwmPeriodBoundary | .stringPwmBoundary _ | .sinkPwmBoundary | .matrixRowSlot => 3
  | .parkEntryCommit => 4
  | _ => 2

/-- What a timeout or boundary that waited for the end of its tick does then. -/
def endOne (i : Instr) (s : State) : State :=
  match i with
  | .holdExpiry => holdServe s
  | .heartbeatExpiry => heartbeatServe s
  | .retryDelayExpiry f => retryServe f s
  | .inrushWindowEnd f => inrushServe f s
  | .moveTimeout k => moveServe k s
  | .wiperParkEdge k => parkEdgeServe k s
  | .wiperCycleTimeout k => cycleServe k s
  | .boostTimeout k => boostServe k s
  | .stkPeakTimeEnd k c => peakServe k c s
  | .stkHoldTimeEnd k => holdTimeServe k s
  | .quenchEnd k => quenchServe k s
  | .diagAgeExpiry b n => ageServe b n s
  | .pwmPeriodBoundary => pwmBoundaries s
  | .stringPwmBoundary n => stringServe n s
  | .sinkPwmBoundary => sinkBoundaryServe s
  | .matrixRowSlot => slotServe s
  | .linResponseTimeout n _ => linMissServe n s
  | .linIdleTimeout n => linIdleServe n s
  | .nmgRepeatEnd c => nmgRepeatEnd s c.val
  | .nmgKeepaliveDue c => kaDueServe c.val s
  | .nmgIdleTimeout c => nmgIdleServe c.val s
  | .nmgSleepCommit c => commitServe c.val s
  | .nmgConfirmTimeout c => confServe c s
  | .transceiverServiceTimeout c => unservedServe c.val s
  | .challengeExpiry => chalServe s
  | .sealCallTimeout c => callServe c.val s
  | .sessionTimeout => sessionServe s
  | .graceTimeout => graceServe s
  | .accBackoffEnd ch => backoffServe ch.val s
  | .evalFrameEnd => frameServe s
  | .ringAckTimeout i => ackServe i.val s
  | .ringTimeTimeout => timeMissServe s
  | .ringTimeReturnTimeout => timeReturnServe s
  | .trialExpiry => trialServe s
  | .recoveryWindowEnd => windowServe s
  | .recoverySegmentTimeout => segmentServe s
  | .dbgLinkTimeout => linkServe s
  | .parkEntryCommit => entryServe s
  | _ => s

/-- The end of the present tick: what has waited for it acts (R11, R40, R581; log entry 31). -/
def endTick (s : State) : State :=
  let l := (List.range 5).flatMap (fun r => s.ending.filter (fun i => endRank i == r))
  fsafeServe ({ s with ending := [] }.each l (fun s i => endOne i s))

/-- What the power island serves in a tick. -/
def powerTick (s : State) : State :=
  (s.each (List.range 72) (fun s f => serveDead (beginPulses s f) f)).each (List.range 16) serveChop

/-- What the islands serve in a tick: changes that wait for a dead time, pulses placed earlier, ends of on-times, queued
frames and scans, a minute of SERVICE. -/
def serveTick (s : State) : State :=
  let s := s.when (s.ready .power) powerTick
  let s := s.when (s.ready .light) (fun s =>
    chainServe (mxServe ((s.each (List.range 8) strServe).each (List.range 48) sinkServe)))
  let s := s.when (s.ready .tbase) adServe
  let s := s.when (s.ready .ring) ringServe
  s.when (s.ready .signet) (fun s => candTick (serviceTick s))

/-- What a tick of a running timebase brings but the writes that arrive in it: the count advances, counters count (R295),
ruled events act (R311) before the writes of their tick (R229, R303), islands serve, cores run. -/
def tickOver (s : State) : State :=
  let s := { s with
    now := s.now + 1
    edge := []
    upd := { s.upd with trialTicks := if s.ecr.trial then s.upd.trialTicks + 1 else s.upd.trialTicks } }
  cyclesTick (serveTick (deliverDue (s.when (s.ready .tbase) tmrTick) (fun _ => true)))

/-- One tick of a running timebase: the present tick ends (R11, R300, R302), and unless an entry that committed in it
stopped the timebase (R21) the next one comes and posted writes arrive (R38). -/
def clockTick (s : State) : Answer :=
  let s := tmrTickEnd (endTick s)
  if !s.tbRun then s.next
  else
  let s := tickOver s
  drainPosted s.posted { s with posted := [] }

/-- The timebase stopped: one cycle of the 32.768 kHz clock passes (R21, R39, R570); in REST the trial's time goes on, and
the power island runs while a channel is ON (R560). -/
def parkTick (s : State) : State :=
  let s := endTick s
  let n := s.rtcN
  let d := (n + 1) * 390625 / 128 - n * 390625 / 128
  let s := rtcEdge { s with
    edge := []
    upd := { s.upd with trialTicks := if s.ecr.trial && s.pwr.state == .rest then s.upd.trialTicks + d else s.upd.trialTicks } }
  s.when (s.ready .power) powerTick

/-- The block with nothing commanded. -/
def idleTick (s : State) : Answer := if s.tbRun then clockTick s else (parkTick s).next

end Sys2Proof.Machine
end

