-- ==== Sys2Proof/Machine/TickRows.lean ====
section
/-! DEFINITION. The events that a tick of the running timebase brings by itself: period ends, compare matches and capture
timeouts of the timers, deliveries of the ruling fabric (R295, R297, R302, R311). -/

namespace Sys2Proof.Machine

/-- An event of the next tick is commanded: where that tick brings it, the tick passes; else nothing happens (log entry 20). -/
def tickIf (due : Bool) (s : State) : Answer := if s.tbRun && due then idleTick s else .next s

/-- TIMER_PERIOD_END (R295, R297): the counting edge of the next tick ends the channel's period. -/
def execTimerPeriodEnd (n : Nat) (s : State) : Answer :=
  tickIf (s.ready .tbase && tmrNext tmrPerNext tmrEnds s n) s

/-- TIMER_COMPARE_MATCH (R295, R297, R299): the counting edge of the next tick makes COUNT equal to CMP. -/
def execTimerCompareMatch (n : Nat) (s : State) : Answer :=
  tickIf (s.ready .tbase && tmrNext tmrCmpNext tmrMeets s n) s

/-- CAPTURE_TIMEOUT (R302): COUNT has reached CMP in this tick, which ends with no capture. -/
def execCaptureTimeout (n : Nat) (s : State) : Answer :=
  tickIf (decide (n < 32) && (s.tm n).toDue && !((s.tm n).capDue && tmrRun s n && tmrMode s n == 2)) s

/-- RULE_DELIVERY (R311): the event of a line acts two ticks after its source; a park state carries nothing (R317). -/
def execRuleDelivery (line : Nat) (s : State) : Answer :=
  tickIf (s.flights.any (fun e => e.line == line && e.tick == s.now + 1)) s

end Sys2Proof.Machine
end

