-- ==== Sys2Proof/Machine/Dispatch.lean ====
section
/-! DEFINITION. The meaning of every command, arm by arm: each arm is one direct call of that command's meaning. -/

namespace Sys2Proof.Machine

def exec (i : Instr) (s : State) : Host.Outcome State Fault Refusal :=
  match i with
  | .powerOnReset cause b => Sys2Proof.Machine.execPowerOnReset cause b s
  | .resetNAssert ns tbp b => Sys2Proof.Machine.execResetNAssert ns tbp b s
  | .warmReset tbp b => Sys2Proof.Machine.execWarmReset tbp b s
  | .coreReset pairB s8ok => Sys2Proof.Machine.execCoreReset pairB s8ok s
  | .sysResetWarm src b => Sys2Proof.Machine.execSysResetWarm src b s
  | .sysResetCoreA src s8ok => Sys2Proof.Machine.execSysResetCoreA src s8ok s
  | .sysResetCoreB src s8ok => Sys2Proof.Machine.execSysResetCoreB src s8ok s
  | .bootWatchdogExpiry b => Sys2Proof.Machine.execBootWatchdogExpiry b s
  | .pll1Loss crystal => Sys2Proof.Machine.execPll1Loss crystal s
  | .registerWrite src blk off w => Sys2Proof.Machine.execRegisterWrite src blk off w s
  | .aliasSetWrite src blk off w => Sys2Proof.Machine.execAliasSetWrite src blk off w s
  | .aliasClearWrite src blk off w => Sys2Proof.Machine.execAliasClearWrite src blk off w s
  | .aliasToggleWrite src blk off w => Sys2Proof.Machine.execAliasToggleWrite src blk off w s
  | .aonWriteEffect => Sys2Proof.Machine.execAonWriteEffect s
  | .fabricTimeout ecc req addr isWrite => Sys2Proof.Machine.execFabricTimeout ecc req addr isWrite s
  | .voteCorrection blk off => Sys2Proof.Machine.execVoteCorrection blk off s
  | .folioRefoldOwn src => Sys2Proof.Machine.execFolioRefoldOwn src s
  | .folioRefoldOther src => Sys2Proof.Machine.execFolioRefoldOther src s
  | .folioVerifyOther src => Sys2Proof.Machine.execFolioVerifyOther src s
  | .folioVerifyEnd => Sys2Proof.Machine.execFolioVerifyEnd s
  | .refoldDone => Sys2Proof.Machine.execRefoldDone s
  | .pscModeOff src f w => Sys2Proof.Machine.execPscModeOff src f w s
  | .pscModeOn src f w => Sys2Proof.Machine.execPscModeOn src f w s
  | .pscModePwm src f w => Sys2Proof.Machine.execPscModePwm src f w s
  | .pscModeLowon src f w => Sys2Proof.Machine.execPscModeLowon src f w s
  | .pscModePwmsync src f w => Sys2Proof.Machine.execPscModePwmsync src f w s
  | .pscPwmWrite src f w => Sys2Proof.Machine.execPscPwmWrite src f w s
  | .pwmPeriodBoundary => Sys2Proof.Machine.execPwmPeriodBoundary s
  | .pwmOnTimeEnd f => Sys2Proof.Machine.execPwmOnTimeEnd f s
  | .currentLimitReached f at_ => Sys2Proof.Machine.execCurrentLimitReached f at_ s
  | .ilimTimeTrip f also => Sys2Proof.Machine.execIlimTimeTrip f also s
  | .regulationTimeClear f => Sys2Proof.Machine.execRegulationTimeClear f s
  | .shortCircuitTrip f also => Sys2Proof.Machine.execShortCircuitTrip f also s
  | .wireModelEvaluation sense feeds light => Sys2Proof.Machine.execWireModelEvaluation sense feeds light s
  | .inrushWindowEnd f => Sys2Proof.Machine.execInrushWindowEnd f s
  | .clampEnergyExceeded f current low => Sys2Proof.Machine.execClampEnergyExceeded f current low s
  | .clampLeakTick => Sys2Proof.Machine.execClampLeakTick s
  | .thermalLatch f second also => Sys2Proof.Machine.execThermalLatch f second also s
  | .thermalRelease f second => Sys2Proof.Machine.execThermalRelease f second s
  | .retryDelayExpiry f => Sys2Proof.Machine.execRetryDelayExpiry f s
  | .retryRestoreTimeout f => Sys2Proof.Machine.execRetryRestoreTimeout f s
  | .channelUnlock src f w => Sys2Proof.Machine.execChannelUnlock src f w s
  | .mismatchDetect f hs ls => Sys2Proof.Machine.execMismatchDetect f hs ls s
  | .mismatchPersistSafe f => Sys2Proof.Machine.execMismatchPersistSafe f s
  | .secondPathShutdown f => Sys2Proof.Machine.execSecondPathShutdown f s
  | .openLoadOnDetect f => Sys2Proof.Machine.execOpenLoadOnDetect f s
  | .offStateTestStart f => Sys2Proof.Machine.execOffStateTestStart f s
  | .offStateTestPhaseEnd f vout vfeed => Sys2Proof.Machine.execOffStateTestPhaseEnd f vout vfeed s
  | .pairImbalance f => Sys2Proof.Machine.execPairImbalance f s
  | .heartbeatEnable src w => Sys2Proof.Machine.execHeartbeatEnable src w s
  | .heartbeatRefresh src w => Sys2Proof.Machine.execHeartbeatRefresh src w s
  | .heartbeatExpiry => Sys2Proof.Machine.execHeartbeatExpiry s
  | .holdExpiry => Sys2Proof.Machine.execHoldExpiry s
  | .channelReclaim src w => Sys2Proof.Machine.execChannelReclaim src w s
  | .parkonLimitFault f => Sys2Proof.Machine.execParkonLimitFault f s
  | .arbiterCycle tbp sinks rowLoss strNow => Sys2Proof.Machine.execArbiterCycle tbp sinks rowLoss strNow s
  | .feedOvercurrent feed avg => Sys2Proof.Machine.execFeedOvercurrent feed avg s
  | .feedUndervoltage feed volt => Sys2Proof.Machine.execFeedUndervoltage feed volt s
  | .feedOvervoltageHold feed volt => Sys2Proof.Machine.execFeedOvervoltageHold feed volt s
  | .feedVoltageRecovery feed volt => Sys2Proof.Machine.execFeedVoltageRecovery feed volt s
  | .reverseBattery feed volt => Sys2Proof.Machine.execReverseBattery feed volt s
  | .currentSenseCrossCheck pairs => Sys2Proof.Machine.execCurrentSenseCrossCheck pairs s
  | .motCmdStop src k w => Sys2Proof.Machine.execMotCmdStop src k w s
  | .motCmdClose src k w => Sys2Proof.Machine.execMotCmdClose src k w s
  | .motCmdOpen src k w => Sys2Proof.Machine.execMotCmdOpen src k w s
  | .motCmdGoto src k w => Sys2Proof.Machine.execMotCmdGoto src k w s
  | .motCmdLearn src k w => Sys2Proof.Machine.execMotCmdLearn src k w s
  | .motCmdWrun src k w => Sys2Proof.Machine.execMotCmdWrun src k w s
  | .motCmdWint src k w => Sys2Proof.Machine.execMotCmdWint src k w s
  | .motCmdWsingle src k w => Sys2Proof.Machine.execMotCmdWsingle src k w s
  | .motCmdWpark src k w => Sys2Proof.Machine.execMotCmdWpark src k w s
  | .motCmdDrive src k w => Sys2Proof.Machine.execMotCmdDrive src k w s
  | .motEnableClear src k w => Sys2Proof.Machine.execMotEnableClear src k w s
  | .softStartEnd k current rate => Sys2Proof.Machine.execSoftStartEnd k current rate s
  | .rippleDetect k => Sys2Proof.Machine.execRippleDetect k s
  | .rippleGapCorrection k => Sys2Proof.Machine.execRippleGapCorrection k s
  | .rippleCountEnd k => Sys2Proof.Machine.execRippleCountEnd k s
  | .forceEstimate k current => Sys2Proof.Machine.execForceEstimate k current s
  | .pinchBrakeEnd k => Sys2Proof.Machine.execPinchBrakeEnd k s
  | .pinchReversalEnd k endStop => Sys2Proof.Machine.execPinchReversalEnd k endStop s
  | .stallDetect k current => Sys2Proof.Machine.execStallDetect k current s
  | .brakeTimeEnd k => Sys2Proof.Machine.execBrakeTimeEnd k s
  | .gotoTargetReached k => Sys2Proof.Machine.execGotoTargetReached k s
  | .moveTimeout k => Sys2Proof.Machine.execMoveTimeout k s
  | .wiperParkEdge k => Sys2Proof.Machine.execWiperParkEdge k s
  | .wiperStartPulse k => Sys2Proof.Machine.execWiperStartPulse k s
  | .wiperCycleTimeout k => Sys2Proof.Machine.execWiperCycleTimeout k s
  | .stkFire src k w => Sys2Proof.Machine.execStkFire src k w s
  | .stkRelease src k w => Sys2Proof.Machine.execStkRelease src k w s
  | .stkRuleFire k => Sys2Proof.Machine.execStkRuleFire k s
  | .stkRuleRelease k => Sys2Proof.Machine.execStkRuleRelease k s
  | .stkEnable src k w => Sys2Proof.Machine.execStkEnable src k w s
  | .stkEnableClear src k w => Sys2Proof.Machine.execStkEnableClear src k w s
  | .peakArrival k => Sys2Proof.Machine.execPeakArrival k s
  | .boostTimeout k => Sys2Proof.Machine.execBoostTimeout k s
  | .lateWindowFault k => Sys2Proof.Machine.execLateWindowFault k s
  | .stkPeakTimeEnd k current => Sys2Proof.Machine.execStkPeakTimeEnd k current s
  | .stkHoldTimeEnd k => Sys2Proof.Machine.execStkHoldTimeEnd k s
  | .quenchEnd k => Sys2Proof.Machine.execQuenchEnd k s
  | .chopCurrentReached k => Sys2Proof.Machine.execChopCurrentReached k s
  | .chopOffTimeEnd k => Sys2Proof.Machine.execChopOffTimeEnd k s
  | .dutyLimitReached k => Sys2Proof.Machine.execDutyLimitReached k s
  | .dutySegmentRoll k => Sys2Proof.Machine.execDutySegmentRoll k s
  | .stModeOff src n w => Sys2Proof.Machine.execStModeOff src n w s
  | .stModeOn src n w => Sys2Proof.Machine.execStModeOn src n w s
  | .stModePwm src n w => Sys2Proof.Machine.execStModePwm src n w s
  | .skModeOff src n w => Sys2Proof.Machine.execSkModeOff src n w s
  | .skModeOn src n w => Sys2Proof.Machine.execSkModeOn src n w s
  | .skModePwm src n w => Sys2Proof.Machine.execSkModePwm src n w s
  | .stringFreqUpdate n istr vstr vfeed loss tj maxDuty => Sys2Proof.Machine.execStringFreqUpdate n istr vstr vfeed loss tj maxDuty s
  | .stringPwmBoundary n => Sys2Proof.Machine.execStringPwmBoundary n s
  | .sinkPwmBoundary => Sys2Proof.Machine.execSinkPwmBoundary s
  | .stringOpen n => Sys2Proof.Machine.execStringOpen n s
  | .stringOpenRetest n closed => Sys2Proof.Machine.execStringOpenRetest n closed s
  | .stringShort n => Sys2Proof.Machine.execStringShort n s
  | .stringOutputShort n => Sys2Proof.Machine.execStringOutputShort n s
  | .stringThermal n hot => Sys2Proof.Machine.execStringThermal n hot s
  | .stringUnlock src n w => Sys2Proof.Machine.execStringUnlock src n w s
  | .sinkOpen n => Sys2Proof.Machine.execSinkOpen n s
  | .sinkShort n => Sys2Proof.Machine.execSinkShort n s
  | .sinkBankThermal n hot => Sys2Proof.Machine.execSinkBankThermal n hot s
  | .diagAgeExpiry isSink n => Sys2Proof.Machine.execDiagAgeExpiry isSink n s
  | .offtestStart isSink n => Sys2Proof.Machine.execOfftestStart isSink n s
  | .offtestEnd isSink n volt vfeed => Sys2Proof.Machine.execOfftestEnd isSink n volt vfeed s
  | .matrixEnable src w => Sys2Proof.Machine.execMatrixEnable src w s
  | .matrixRowSlot => Sys2Proof.Machine.execMatrixRowSlot s
  | .matrixSwap src w => Sys2Proof.Machine.execMatrixSwap src w s
  | .matrixRowTrip => Sys2Proof.Machine.execMatrixRowTrip s
  | .matrixRowUnlock src w => Sys2Proof.Machine.execMatrixRowUnlock src w s
  | .lightReclaim src w => Sys2Proof.Machine.execLightReclaim src w s
  | .lchEnable src w => Sys2Proof.Machine.execLchEnable src w s
  | .lchGo src w => Sys2Proof.Machine.execLchGo src w s
  | .lchSwap src w => Sys2Proof.Machine.execLchSwap src w s
  | .lchRefresh => Sys2Proof.Machine.execLchRefresh s
  | .lchFrameEnd => Sys2Proof.Machine.execLchFrameEnd s
  | .inputEnable src n w => Sys2Proof.Machine.execInputEnable src n w s
  | .inputScan kl30 pins => Sys2Proof.Machine.execInputScan kl30 pins s
  | .parkInputSample kl30 pins ans => Sys2Proof.Machine.execParkInputSample kl30 pins ans s
  | .comparatorCrossing n volt => Sys2Proof.Machine.execComparatorCrossing n volt s
  | .adcEnable src w => Sys2Proof.Machine.execAdcEnable src w s
  | .adcScanPeriod => Sys2Proof.Machine.execAdcScanPeriod s
  | .adcRuleStart => Sys2Proof.Machine.execAdcRuleStart s
  | .adcConversionDone volt => Sys2Proof.Machine.execAdcConversionDone volt s
  | .adcScanDone => Sys2Proof.Machine.execAdcScanDone s
  | .adcResultRead src n => Sys2Proof.Machine.execAdcResultRead src n s
  | .timerEnable src n w => Sys2Proof.Machine.execTimerEnable src n w s
  | .timerDisable src n w => Sys2Proof.Machine.execTimerDisable src n w s
  | .timerCmdStart src n w => Sys2Proof.Machine.execTimerCmdStart src n w s
  | .timerCmdStop src n w => Sys2Proof.Machine.execTimerCmdStop src n w s
  | .timerGlobalStart src w => Sys2Proof.Machine.execTimerGlobalStart src w s
  | .timerRuleStart n => Sys2Proof.Machine.execTimerRuleStart n s
  | .timerRuleStop n => Sys2Proof.Machine.execTimerRuleStop n s
  | .timerPeriodEnd n => Sys2Proof.Machine.execTimerPeriodEnd n s
  | .timerCompareMatch n => Sys2Proof.Machine.execTimerCompareMatch n s
  | .timerCaptureRule n => Sys2Proof.Machine.execTimerCaptureRule n s
  | .timerCaptureEdge n rising => Sys2Proof.Machine.execTimerCaptureEdge n rising s
  | .captureTimeout n => Sys2Proof.Machine.execCaptureTimeout n s
  | .timerCapRead src n => Sys2Proof.Machine.execTimerCapRead src n s
  | .timerCountSnapshot src n => Sys2Proof.Machine.execTimerCountSnapshot src n s
  | .ruleEvent code rising => Sys2Proof.Machine.execRuleEvent code rising s
  | .ruleDelivery line => Sys2Proof.Machine.execRuleDelivery line s
  | .ruleSoftwarePulse src w => Sys2Proof.Machine.execRuleSoftwarePulse src w s
  | .canEnable src n w => Sys2Proof.Machine.execCanEnable src n w s
  | .canDisable src n w => Sys2Proof.Machine.execCanDisable src n w s
  | .canDisableEffect n => Sys2Proof.Machine.execCanDisableEffect n s
  | .canFrameReceived n w0 dlc data stamp own => Sys2Proof.Machine.execCanFrameReceived n w0 dlc data stamp own s
  | .canRxRelease src n w => Sys2Proof.Machine.execCanRxRelease src n w s
  | .canTxRequest src n k w => Sys2Proof.Machine.execCanTxRequest src n k w s
  | .canTxSelection n => Sys2Proof.Machine.execCanTxSelection n s
  | .canArbitrationStart n => Sys2Proof.Machine.execCanArbitrationStart n s
  | .canTxSuccess n stamp delay => Sys2Proof.Machine.execCanTxSuccess n stamp delay s
  | .canTxLost n => Sys2Proof.Machine.execCanTxLost n s
  | .canTxCancel src n w => Sys2Proof.Machine.execCanTxCancel src n w s
  | .canSealWrite src n w => Sys2Proof.Machine.execCanSealWrite src n w s
  | .canErrorDetected n kind dataPhase tx step delay => Sys2Proof.Machine.execCanErrorDetected n kind dataPhase tx step delay s
  | .canProtocolException n => Sys2Proof.Machine.execCanProtocolException n s
  | .canRecover src n w => Sys2Proof.Machine.execCanRecover src n w s
  | .canRecoveryDone n => Sys2Proof.Machine.execCanRecoveryDone n s
  | .linSlotStart n => Sys2Proof.Machine.execLinSlotStart n s
  | .linHeaderReceived n id brk rate => Sys2Proof.Machine.execLinHeaderReceived n id brk rate s
  | .linResponseReceived n data sum => Sys2Proof.Machine.execLinResponseReceived n data sum s
  | .linResponseTimeout n err => Sys2Proof.Machine.execLinResponseTimeout n err s
  | .linGosleep src n w => Sys2Proof.Machine.execLinGosleep src n w s
  | .linSleepEntry n => Sys2Proof.Machine.execLinSleepEntry n s
  | .linIdleTimeout n => Sys2Proof.Machine.execLinIdleTimeout n s
  | .linWakeupDetect n fin => Sys2Proof.Machine.execLinWakeupDetect n fin s
  | .linWakeSend src n w => Sys2Proof.Machine.execLinWakeSend src n w s
  | .linScheduleResume n => Sys2Proof.Machine.execLinScheduleResume n s
  | .ethFrameReceived p octets fcsOk stamp => Sys2Proof.Machine.execEthFrameReceived p octets fcsOk stamp s
  | .ethTxKick src p w => Sys2Proof.Machine.execEthTxKick src p w s
  | .ethFrameSent p stamp excess ka => Sys2Proof.Machine.execEthFrameSent p stamp excess ka s
  | .ethLinkChange n up sqi => Sys2Proof.Machine.execEthLinkChange n up sqi s
  | .ethDisable p => Sys2Proof.Machine.execEthDisable p s
  | .ringEnable src w => Sys2Proof.Machine.execRingEnable src w s
  | .ringLinkTrained eq => Sys2Proof.Machine.execRingLinkTrained eq s
  | .ringLockLoss errs => Sys2Proof.Machine.execRingLockLoss errs s
  | .ringBreakDetect => Sys2Proof.Machine.execRingBreakDetect s
  | .ringBreakSend => Sys2Proof.Machine.execRingBreakSend s
  | .ringRelock => Sys2Proof.Machine.execRingRelock s
  | .ringFrameReceived h0 h1 pay check fin stamp codeErr => Sys2Proof.Machine.execRingFrameReceived h0 h1 pay check fin stamp codeErr s
  | .ringTxgo src w => Sys2Proof.Machine.execRingTxgo src w s
  | .ringFrameReturn h0 h1 pay check fin stamp => Sys2Proof.Machine.execRingFrameReturn h0 h1 pay check fin stamp s
  | .ringAckTimeout slot => Sys2Proof.Machine.execRingAckTimeout slot s
  | .ringRxRelease src w => Sys2Proof.Machine.execRingRxRelease src w s
  | .ringClaimSend => Sys2Proof.Machine.execRingClaimSend s
  | .ringTimeTimeout => Sys2Proof.Machine.execRingTimeTimeout s
  | .ringTimeSend => Sys2Proof.Machine.execRingTimeSend s
  | .ringTimeReturnTimeout => Sys2Proof.Machine.execRingTimeReturnTimeout s
  | .ringCensusSend => Sys2Proof.Machine.execRingCensusSend s
  | .ringWakeTone src w => Sys2Proof.Machine.execRingWakeTone src w s
  | .ringCryptConfig src w => Sys2Proof.Machine.execRingCryptConfig src w s
  | .nmgEnable src c w => Sys2Proof.Machine.execNmgEnable src c w s
  | .nmgDisable src c w => Sys2Proof.Machine.execNmgDisable src c w s
  | .nmgRequest src c w => Sys2Proof.Machine.execNmgRequest src c w s
  | .nmgRelease src c w => Sys2Proof.Machine.execNmgRelease src c w s
  | .nmgKeepaliveDue c => Sys2Proof.Machine.execNmgKeepaliveDue c s
  | .nmgKeepaliveReceived c fr stamp => Sys2Proof.Machine.execNmgKeepaliveReceived c fr stamp s
  | .nmgIdleTimeout c => Sys2Proof.Machine.execNmgIdleTimeout c s
  | .nmgSleepAbort c => Sys2Proof.Machine.execNmgSleepAbort c s
  | .nmgRepeatEnd c => Sys2Proof.Machine.execNmgRepeatEnd c s
  | .nmgDetectorArm c => Sys2Proof.Machine.execNmgDetectorArm c s
  | .nmgSleepCommit c => Sys2Proof.Machine.execNmgSleepCommit c s
  | .transceiverWake c ev => Sys2Proof.Machine.execTransceiverWake c ev s
  | .nmgConfirmTimeout c => Sys2Proof.Machine.execNmgConfirmTimeout c s
  | .transceiverService => Sys2Proof.Machine.execTransceiverService s
  | .transceiverServiceTimeout c => Sys2Proof.Machine.execTransceiverServiceTimeout c s
  | .nmgLogClear src w => Sys2Proof.Machine.execNmgLogClear src w s
  | .lcEnroll src w => Sys2Proof.Machine.execLcEnroll src w s
  | .lcOwner src w => Sys2Proof.Machine.execLcOwner src w s
  | .lcField src w => Sys2Proof.Machine.execLcField src w s
  | .lcNewchal src w => Sys2Proof.Machine.execLcNewchal src w s
  | .lcService src w => Sys2Proof.Machine.execLcService src w s
  | .lcEndsvc src w => Sys2Proof.Machine.execLcEndsvc src w s
  | .lcReturn src w => Sys2Proof.Machine.execLcReturn src w s
  | .lcVoid src w => Sys2Proof.Machine.execLcVoid src w s
  | .lcSignatureVerified => Sys2Proof.Machine.execLcSignatureVerified s
  | .serviceTimeEnd => Sys2Proof.Machine.execServiceTimeEnd s
  | .challengeExpiry => Sys2Proof.Machine.execChallengeExpiry s
  | .keyLoad src w => Sys2Proof.Machine.execKeyLoad src w s
  | .keyLoadDone => Sys2Proof.Machine.execKeyLoadDone s
  | .keyClear src w => Sys2Proof.Machine.execKeyClear src w s
  | .keyRestrict src w => Sys2Proof.Machine.execKeyRestrict src w s
  | .sealReply src c w => Sys2Proof.Machine.execSealReply src c w s
  | .sealCallTimeout c => Sys2Proof.Machine.execSealCallTimeout c s
  | .cryptJobStart src w => Sys2Proof.Machine.execCryptJobStart src w s
  | .cryptJobDone => Sys2Proof.Machine.execCryptJobDone s
  | .tamperDetect t => Sys2Proof.Machine.execTamperDetect t s
  | .tamperEraseDone => Sys2Proof.Machine.execTamperEraseDone s
  | .reservoirCharged => Sys2Proof.Machine.execReservoirCharged s
  | .reservoirLow => Sys2Proof.Machine.execReservoirLow s
  | .accEnable src w => Sys2Proof.Machine.execAccEnable src w s
  | .accLoadingDone => Sys2Proof.Machine.execAccLoadingDone s
  | .accDisable src w => Sys2Proof.Machine.execAccDisable src w s
  | .attentionAssert ch => Sys2Proof.Machine.execAttentionAssert ch s
  | .tokenReadEnd ch octets asserted => Sys2Proof.Machine.execTokenReadEnd ch octets asserted s
  | .tokenReadRepeat ch => Sys2Proof.Machine.execTokenReadRepeat ch s
  | .evalFrameEnd => Sys2Proof.Machine.execEvalFrameEnd s
  | .accCommandAct => Sys2Proof.Machine.execAccCommandAct s
  | .accBackoffEnd ch => Sys2Proof.Machine.execAccBackoffEnd ch s
  | .accImport src => Sys2Proof.Machine.execAccImport src s
  | .accLearn src => Sys2Proof.Machine.execAccLearn src s
  | .accLearnDone => Sys2Proof.Machine.execAccLearnDone s
  | .sessionTimeout => Sys2Proof.Machine.execSessionTimeout s
  | .graceTimeout => Sys2Proof.Machine.execGraceTimeout s
  | .grantFrameSend => Sys2Proof.Machine.execGrantFrameSend s
  | .add c wd wa wb => Sys2Proof.Machine.execAdd c wd wa wb s
  | .adc c wd wa wb => Sys2Proof.Machine.execAdc c wd wa wb s
  | .sub c wd wa wb => Sys2Proof.Machine.execSub c wd wa wb s
  | .sbc c wd wa wb => Sys2Proof.Machine.execSbc c wd wa wb s
  | .and_ c wd wa wb => Sys2Proof.Machine.execAnd c wd wa wb s
  | .or_ c wd wa wb => Sys2Proof.Machine.execOr c wd wa wb s
  | .xor c wd wa wb => Sys2Proof.Machine.execXor c wd wa wb s
  | .andn c wd wa wb => Sys2Proof.Machine.execAndn c wd wa wb s
  | .shl c wd wa wb => Sys2Proof.Machine.execShl c wd wa wb s
  | .shr c wd wa wb => Sys2Proof.Machine.execShr c wd wa wb s
  | .sar c wd wa wb => Sys2Proof.Machine.execSar c wd wa wb s
  | .rol c wd wa wb => Sys2Proof.Machine.execRol c wd wa wb s
  | .ror c wd wa wb => Sys2Proof.Machine.execRor c wd wa wb s
  | .mul c wd wa wb => Sys2Proof.Machine.execMul c wd wa wb s
  | .mulh c wd wa wb => Sys2Proof.Machine.execMulh c wd wa wb s
  | .mulhu c wd wa wb => Sys2Proof.Machine.execMulhu c wd wa wb s
  | .div c wd wa wb => Sys2Proof.Machine.execDiv c wd wa wb s
  | .divu c wd wa wb => Sys2Proof.Machine.execDivu c wd wa wb s
  | .rem c wd wa wb => Sys2Proof.Machine.execRem c wd wa wb s
  | .remu c wd wa wb => Sys2Proof.Machine.execRemu c wd wa wb s
  | .clz c wd wa => Sys2Proof.Machine.execClz c wd wa s
  | .ctz c wd wa => Sys2Proof.Machine.execCtz c wd wa s
  | .popc c wd wa => Sys2Proof.Machine.execPopc c wd wa s
  | .nprm c wd wa wb => Sys2Proof.Machine.execNprm c wd wa wb s
  | .opk c wd wa => Sys2Proof.Machine.execOpk c wd wa s
  | .opkl c wd wa => Sys2Proof.Machine.execOpkl c wd wa s
  | .oupk c wd wa => Sys2Proof.Machine.execOupk c wd wa s
  | .oupkl c wd wa => Sys2Proof.Machine.execOupkl c wd wa s
  | .addi c wd wa imm => Sys2Proof.Machine.execAddi c wd wa imm s
  | .subi c wd wa imm => Sys2Proof.Machine.execSubi c wd wa imm s
  | .andi c wd wa imm => Sys2Proof.Machine.execAndi c wd wa imm s
  | .ori c wd wa imm => Sys2Proof.Machine.execOri c wd wa imm s
  | .xori c wd wa imm => Sys2Proof.Machine.execXori c wd wa imm s
  | .lui c wd imm => Sys2Proof.Machine.execLui c wd imm s
  | .shi c wd wa imm => Sys2Proof.Machine.execShi c wd wa imm s
  | .nprmi c wd wa imm => Sys2Proof.Machine.execNprmi c wd wa imm s
  | .bfx c wd wa pos len => Sys2Proof.Machine.execBfx c wd wa pos len s
  | .bfxs c wd wa pos len => Sys2Proof.Machine.execBfxs c wd wa pos len s
  | .bfi c wd wa pos len => Sys2Proof.Machine.execBfi c wd wa pos len s
  | .ldw c wd wa imm => Sys2Proof.Machine.execLdw c wd wa imm s
  | .ldh c wd wa imm => Sys2Proof.Machine.execLdh c wd wa imm s
  | .ldhs c wd wa imm => Sys2Proof.Machine.execLdhs c wd wa imm s
  | .ldn c wd wa imm => Sys2Proof.Machine.execLdn c wd wa imm s
  | .ldns c wd wa imm => Sys2Proof.Machine.execLdns c wd wa imm s
  | .stw c ws wa imm => Sys2Proof.Machine.execStw c ws wa imm s
  | .sth c ws wa imm => Sys2Proof.Machine.execSth c ws wa imm s
  | .stn c ws wa imm => Sys2Proof.Machine.execStn c ws wa imm s
  | .lres c wd wa imm => Sys2Proof.Machine.execLres c wd wa imm s
  | .scond c wd wa wb => Sys2Proof.Machine.execScond c wd wa wb s
  | .br c cond off => Sys2Proof.Machine.execBr c cond off s
  | .jal c wl off => Sys2Proof.Machine.execJal c wl off s
  | .jalr c wd wa imm => Sys2Proof.Machine.execJalr c wd wa imm s
  | .nop c => Sys2Proof.Machine.execNop c s
  | .fenceMem c => Sys2Proof.Machine.execFenceMem c s
  | .fenceDev c => Sys2Proof.Machine.execFenceDev c s
  | .fenceAll c => Sys2Proof.Machine.execFenceAll c s
  | .wait c => Sys2Proof.Machine.execWait c s
  | .sys c imm => Sys2Proof.Machine.execSys c imm s
  | .seal_ c imm => Sys2Proof.Machine.execSeal c imm s
  | .rfe c => Sys2Proof.Machine.execRfe c s
  | .mfs c wd num => Sys2Proof.Machine.execMfs c wd num s
  | .mts c wa num => Sys2Proof.Machine.execMts c wa num s
  | .cacheInvalidateIRange c wa wb => Sys2Proof.Machine.execCacheInvalidateIRange c wa wb s
  | .cacheInvalidateDRange c wa wb => Sys2Proof.Machine.execCacheInvalidateDRange c wa wb s
  | .cacheInvalidateIAll c => Sys2Proof.Machine.execCacheInvalidateIAll c s
  | .cacheInvalidateDAll c => Sys2Proof.Machine.execCacheInvalidateDAll c s
  | .ux c n wd wa wb fn => Sys2Proof.Machine.execUx c n wd wa wb fn s
  | .crc32 c wd wa wb idx => Sys2Proof.Machine.execCrc32 c wd wa wb idx s
  | .crc32o c wd wa wb idx => Sys2Proof.Machine.execCrc32o c wd wa wb idx s
  | .crc16 c wd wa wb idx => Sys2Proof.Machine.execCrc16 c wd wa wb idx s
  | .shainit c idx => Sys2Proof.Machine.execShainit c idx s
  | .shaw c wa idx => Sys2Proof.Machine.execShaw c wa idx s
  | .shaCompressionDone c => Sys2Proof.Machine.execShaCompressionDone c s
  | .shard c wd idx => Sys2Proof.Machine.execShard c wd idx s
  | .aeskey c wa idx => Sys2Proof.Machine.execAeskey c wa idx s
  | .aesin c wa idx => Sys2Proof.Machine.execAesin c wa idx s
  | .aesenc c idx => Sys2Proof.Machine.execAesenc c idx s
  | .aesdec c idx => Sys2Proof.Machine.execAesdec c idx s
  | .aesDone c => Sys2Proof.Machine.execAesDone c s
  | .aesout c wd idx => Sys2Proof.Machine.execAesout c wd idx s
  | .kset c wa idx => Sys2Proof.Machine.execKset c wa idx s
  | .lag c wd wa wb idx => Sys2Proof.Machine.execLag c wd wa wb idx s
  | .sqmac c wd wa wb idx => Sys2Proof.Machine.execSqmac c wd wa wb idx s
  | .krd c wd idx => Sys2Proof.Machine.execKrd c wd idx s
  | .pset c wa wb idx => Sys2Proof.Machine.execPset c wa wb idx s
  | .pclr c idx => Sys2Proof.Machine.execPclr c idx s
  | .match_ c wd wa idx => Sys2Proof.Machine.execMatch c wd wa idx s
  | .maplo c wd idx => Sys2Proof.Machine.execMaplo c wd idx s
  | .maphi c wd idx => Sys2Proof.Machine.execMaphi c wd idx s
  | .interruptPresent t => Sys2Proof.Machine.execInterruptPresent t s
  | .interruptTaken c => Sys2Proof.Machine.execInterruptTaken c s
  | .interruptClaim t src => Sys2Proof.Machine.execInterruptClaim t src s
  | .interruptEoi src t w => Sys2Proof.Machine.execInterruptEoi src t w s
  | .icuSourceConfig src n w => Sys2Proof.Machine.execIcuSourceConfig src n w s
  | .lockstepMismatch who => Sys2Proof.Machine.execLockstepMismatch who s
  | .updBegin src w => Sys2Proof.Machine.execUpdBegin src w s
  | .updData src w => Sys2Proof.Machine.execUpdData src w s
  | .updEnd src w => Sys2Proof.Machine.execUpdEnd src w s
  | .updAbort src w => Sys2Proof.Machine.execUpdAbort src w s
  | .updDkimport src w => Sys2Proof.Machine.execUpdDkimport src w s
  | .edArm src => Sys2Proof.Machine.execEdArm src s
  | .edArmnow src => Sys2Proof.Machine.execEdArmnow src s
  | .edDisarm src => Sys2Proof.Machine.execEdDisarm src s
  | .edConfirm src => Sys2Proof.Machine.execEdConfirm src s
  | .edRevert src => Sys2Proof.Machine.execEdRevert src s
  | .edRetryisl src => Sys2Proof.Machine.execEdRetryisl src s
  | .edRecover src => Sys2Proof.Machine.execEdRecover src s
  | .trialTimeRecord => Sys2Proof.Machine.execTrialTimeRecord s
  | .trialExpiry => Sys2Proof.Machine.execTrialExpiry s
  | .nvRowWrite src => Sys2Proof.Machine.execNvRowWrite src s
  | .nvRowWriteDone => Sys2Proof.Machine.execNvRowWriteDone s
  | .recoveryWindowEnd => Sys2Proof.Machine.execRecoveryWindowEnd s
  | .recoveryHello => Sys2Proof.Machine.execRecoveryHello s
  | .recoveryAttn dbg body => Sys2Proof.Machine.execRecoveryAttn dbg body s
  | .recoveryRecover dbg body => Sys2Proof.Machine.execRecoveryRecover dbg body s
  | .recoveryManifest dbg body => Sys2Proof.Machine.execRecoveryManifest dbg body s
  | .recoveryData dbg body => Sys2Proof.Machine.execRecoveryData dbg body s
  | .recoveryEnd dbg body => Sys2Proof.Machine.execRecoveryEnd dbg body s
  | .recoveryOwner dbg body => Sys2Proof.Machine.execRecoveryOwner dbg body s
  | .recoveryDkimport dbg body => Sys2Proof.Machine.execRecoveryDkimport dbg body s
  | .recoverySegmentTimeout => Sys2Proof.Machine.execRecoverySegmentTimeout s
  | .dbgTransfer octets => Sys2Proof.Machine.execDbgTransfer octets s
  | .powerStateChoice save => Sys2Proof.Machine.execPowerStateChoice save s
  | .parkEntryCommit => Sys2Proof.Machine.execParkEntryCommit s
  | .wakeDetect src => Sys2Proof.Machine.execWakeDetect src s
  | .wakeStageReady us tbp b => Sys2Proof.Machine.execWakeStageReady us tbp b s
  | .wakeStageFailure => Sys2Proof.Machine.execWakeStageFailure s
  | .wakeRetry => Sys2Proof.Machine.execWakeRetry s
  | .padRelease src w => Sys2Proof.Machine.execPadRelease src w s
  | .rtcSecond => Sys2Proof.Machine.execRtcSecond s
  | .rtcSet src w => Sys2Proof.Machine.execRtcSet src w s
  | .rtcAlarmSet src w => Sys2Proof.Machine.execRtcAlarmSet src w s
  | .safeFaultDetect cls idx a => Sys2Proof.Machine.execSafeFaultDetect cls idx a s
  | .safeResetAssert s8ok b => Sys2Proof.Machine.execSafeResetAssert s8ok b s
  | .voterSelfTest failed => Sys2Proof.Machine.execVoterSelfTest failed s
  | .sramScrub fixed bad => Sys2Proof.Machine.execSramScrub fixed bad s
  | .nvmScrub fixed bad => Sys2Proof.Machine.execNvmScrub fixed bad s
  | .selftestOverdue t => Sys2Proof.Machine.execSelftestOverdue t s
  | .safeClear src w ended => Sys2Proof.Machine.execSafeClear src w ended s
  | .safeReactionConfig src cls w => Sys2Proof.Machine.execSafeReactionConfig src cls w s
  | .ringSymbolLock => Sys2Proof.Machine.execRingSymbolLock s
  | .wakeToneReceived => Sys2Proof.Machine.execWakeToneReceived s
  | .wakeFrameDecode c ev => Sys2Proof.Machine.execWakeFrameDecode c ev s
  | .updCommandDone => Sys2Proof.Machine.execUpdCommandDone s
  | .dbgLinkTimeout => Sys2Proof.Machine.execDbgLinkTimeout s
  | .operatingRangeChange kl30 feeds tbp => Sys2Proof.Machine.execOperatingRangeChange kl30 feeds tbp s

end Sys2Proof.Machine
end

