-- ==== Sys2Proof/Machine/Encoding.lean ====
section
/-! DEFINITION. The words of Valnen-36: formats, decoder and encoder (R482–R486, R489, R491, R493, R496, R500, R501, R503,
R512, R516, R518–R520).  The rows of the table that are instructions come as commands with their operands decoded; this file
says which word spells each. -/

namespace Sys2Proof

/-! ### Formats (R483) -/

/-- Form A: op, wd, wa, wb, function. -/
def formA (op : Nat) (d a b : Reg) (f : BitVec 13) : Word := BitVec.ofNat 8 op ++ BitVec.ofFin (w := 5) d ++ BitVec.ofFin (w := 5) a ++ BitVec.ofFin (w := 5) b ++ f
/-- Forms I and M: op, wd (ws for stores), wa, imm18. -/
def formI (op : Nat) (d a : Reg) (i : BitVec 18) : Word := BitVec.ofNat 8 op ++ BitVec.ofFin (w := 5) d ++ BitVec.ofFin (w := 5) a ++ i
/-- Form F: op, wd, wa, pos, len, sub. -/
def formF (op : Nat) (d a : Reg) (pos len : BitVec 6) (sub : Nat) : Word :=
  BitVec.ofNat 8 op ++ BitVec.ofFin (w := 5) d ++ BitVec.ofFin (w := 5) a ++ pos ++ len ++ BitVec.ofNat 6 sub
/-- Form B: op, cond, offset24. -/
def formB (op : Nat) (cond : BitVec 4) (off : BitVec 24) : Word := BitVec.ofNat 8 op ++ cond ++ off
/-- Form J: op, wl, offset23. -/
def formJ (op : Nat) (l : Reg) (off : BitVec 23) : Word := BitVec.ofNat 8 op ++ BitVec.ofFin (w := 5) l ++ off

/-- The fields of a word by R483. -/
def wOp (w : Word) : Nat := (w.extractLsb' 28 8).toNat
def wD (w : Word) : Reg := (w.extractLsb' 23 5).toFin
def wA (w : Word) : Reg := (w.extractLsb' 18 5).toFin
def wB (w : Word) : Reg := (w.extractLsb' 13 5).toFin
def wFn (w : Word) : BitVec 13 := w.extractLsb' 0 13
def wImm (w : Word) : BitVec 18 := w.extractLsb' 0 18
def wPos (w : Word) : BitVec 6 := w.extractLsb' 12 6
def wLen (w : Word) : BitVec 6 := w.extractLsb' 6 6
def wSub (w : Word) : Nat := (w.extractLsb' 0 6).toNat
def wCond (w : Word) : BitVec 4 := w.extractLsb' 24 4
def wOff24 (w : Word) : BitVec 24 := w.extractLsb' 0 24
def wOff23 (w : Word) : BitVec 23 := w.extractLsb' 0 23
/-- R516: OPF and the index of a CPX function field. -/
def wOpf (w : Word) : Nat := (w.extractLsb' 8 5).toNat
def wIdx (w : Word) : BitVec 8 := w.extractLsb' 0 8
/-- A CPX function field. -/
def cpFn (opf : Nat) (idx : BitVec 8) : BitVec 13 := BitVec.ofNat 5 opf ++ idx

/-! ### The decoder (R485 step 1, R486) -/

/-- An instruction whose must-be-zero fields are 0. -/
def zeroThen (z : Bool) (i : Instr) : Option Instr := if z then some i else none

/-- R489: opcode 0x01 by its function field. -/
def decReg (c : CoreId) (w : Word) : Option Instr :=
  let d := wD w; let a := wA w; let b := wB w
  match (wFn w).toNat with
  | 0x00 => some (.add c d a b)
  | 0x01 => some (.adc c d a b)
  | 0x02 => some (.sub c d a b)
  | 0x03 => some (.sbc c d a b)
  | 0x04 => some (.and_ c d a b)
  | 0x05 => some (.or_ c d a b)
  | 0x06 => some (.xor c d a b)
  | 0x07 => some (.andn c d a b)
  | 0x08 => some (.shl c d a b)
  | 0x09 => some (.shr c d a b)
  | 0x0A => some (.sar c d a b)
  | 0x0B => some (.rol c d a b)
  | 0x0C => some (.ror c d a b)
  | 0x10 => some (.mul c d a b)
  | 0x11 => some (.mulh c d a b)
  | 0x12 => some (.mulhu c d a b)
  | 0x14 => some (.div c d a b)
  | 0x15 => some (.divu c d a b)
  | 0x16 => some (.rem c d a b)
  | 0x17 => some (.remu c d a b)
  | 0x24 => some (.nprm c d a b)
  | 0x20 => zeroThen (b == 0) (.clz c d a)
  | 0x21 => zeroThen (b == 0) (.ctz c d a)
  | 0x22 => zeroThen (b == 0) (.popc c d a)
  | 0x28 => zeroThen (b == 0) (.opk c d a)
  | 0x29 => zeroThen (b == 0) (.opkl c d a)
  | 0x2A => zeroThen (b == 0) (.oupk c d a)
  | 0x2B => zeroThen (b == 0) (.oupkl c d a)
  | _ => none

/-- R516, R518: CP0 by OPF; a register field that the operation does not name must be 0. -/
def decCp0 (c : CoreId) (w : Word) : Option Instr :=
  let d := wD w; let a := wA w; let b := wB w; let i := wIdx w
  match wOpf w with
  | 0x00 => some (.crc32 c d a b i)
  | 0x01 => some (.crc32o c d a b i)
  | 0x02 => some (.crc16 c d a b i)
  | 0x04 => zeroThen (d == 0 && a == 0 && b == 0) (.shainit c i)
  | 0x05 => zeroThen (d == 0 && b == 0) (.shaw c a i)
  | 0x06 => zeroThen (a == 0 && b == 0) (.shard c d i)
  | 0x08 => zeroThen (d == 0 && b == 0) (.aeskey c a i)
  | 0x09 => zeroThen (d == 0 && b == 0) (.aesin c a i)
  | 0x0A => zeroThen (d == 0 && a == 0 && b == 0) (.aesenc c i)
  | 0x0B => zeroThen (d == 0 && a == 0 && b == 0) (.aesdec c i)
  | 0x0C => zeroThen (a == 0 && b == 0) (.aesout c d i)
  | _ => none

/-- R516, R519: CP1 by OPF; a register field that the operation does not name must be 0. -/
def decCp1 (c : CoreId) (w : Word) : Option Instr :=
  let d := wD w; let a := wA w; let b := wB w; let i := wIdx w
  match wOpf w with
  | 0x00 => zeroThen (d == 0 && b == 0) (.kset c a i)
  | 0x01 => some (.lag c d a b i)
  | 0x02 => some (.sqmac c d a b i)
  | 0x03 => zeroThen (a == 0 && b == 0) (.krd c d i)
  | _ => none

/-- R516, R520: CP2 by OPF; a register field that the operation does not name must be 0. -/
def decCp2 (c : CoreId) (w : Word) : Option Instr :=
  let d := wD w; let a := wA w; let b := wB w; let i := wIdx w
  match wOpf w with
  | 0x00 => zeroThen (d == 0) (.pset c a b i)
  | 0x01 => zeroThen (d == 0 && a == 0 && b == 0) (.pclr c i)
  | 0x02 => zeroThen (b == 0) (.match_ c d a i)
  | 0x03 => zeroThen (a == 0 && b == 0) (.maplo c d i)
  | 0x04 => zeroThen (a == 0 && b == 0) (.maphi c d i)
  | _ => none

/-- R485 step 1, R486: the instruction that a word spells on a core; none for a word that raises ILLEGAL for its opcode, its
function or a field that must be 0.  What else step 1 checks stands with the instruction's meaning. -/
def decodeWord (c : CoreId) (w : Word) : Option Instr :=
  let d := wD w; let a := wA w; let b := wB w; let i := wImm w
  let none27 := w.extractLsb' 0 28 == 0
  match wOp w with
  | 0x01 => decReg c w
  | 0x10 => some (.addi c d a i)
  | 0x11 => some (.subi c d a i)
  | 0x12 => some (.andi c d a i)
  | 0x13 => some (.ori c d a i)
  | 0x14 => some (.xori c d a i)
  | 0x16 => some (.shi c d a i)
  | 0x18 => some (.nprmi c d a i)
  | 0x80 => some (.ldw c d a i)
  | 0x81 => some (.ldh c d a i)
  | 0x82 => some (.ldhs c d a i)
  | 0x83 => some (.ldn c d a i)
  | 0x84 => some (.ldns c d a i)
  | 0x88 => some (.stw c d a i)
  | 0x89 => some (.sth c d a i)
  | 0x8A => some (.stn c d a i)
  | 0x8C => some (.lres c d a i)
  | 0xA2 => some (.jalr c d a i)
  | 0x15 => zeroThen (a == 0) (.lui c d i)
  | 0x20 =>
    match wSub w with
    | 0 => some (.bfx c d a (wPos w) (wLen w))
    | 1 => some (.bfxs c d a (wPos w) (wLen w))
    | 2 => some (.bfi c d a (wPos w) (wLen w))
    | _ => none
  | 0x8D => zeroThen (wFn w == 0) (.scond c d a b)
  | 0xA0 => some (.br c (wCond w) (wOff24 w))
  | 0xA1 => some (.jal c d (wOff23 w))
  | 0xC0 => zeroThen none27 (.nop c)
  | 0xC1 =>
    if d == 0 && a == 0 && b == 0 then
      match (wFn w).toNat with
      | 0 => some (.fenceMem c)
      | 1 => some (.fenceDev c)
      | 2 => some (.fenceAll c)
      | _ => none
    else none
  | 0xC2 => zeroThen none27 (.wait c)
  | 0xC3 => zeroThen (d == 0 && a == 0) (.sys c i)
  | 0xC4 => zeroThen (d == 0 && a == 0) (.seal_ c i)
  | 0xC5 => zeroThen none27 (.rfe c)
  | 0xC6 => zeroThen (a == 0) (.mfs c d i)
  | 0xC7 => zeroThen (d == 0) (.mts c a i)
  | 0xC8 =>
    if d == 0 then
      match (wFn w).toNat with
      | 0 => some (.cacheInvalidateIRange c a b)
      | 1 => some (.cacheInvalidateDRange c a b)
      | 2 => zeroThen (a == 0 && b == 0) (.cacheInvalidateIAll c)
      | 3 => zeroThen (a == 0 && b == 0) (.cacheInvalidateDAll c)
      | _ => none
    else none
  | 0xF0 => decCp0 c w
  | 0xF4 => decCp1 c w
  | 0xF8 => decCp2 c w
  | op => if 0xE0 ≤ op ∧ op < 0xF0 then some (.ux c (Fin.ofNat 16 (op - 0xE0)) d a b (wFn w)) else none

/-! ### The encoder -/

/-- The word of an instruction; none for a command that is no instruction. -/
def encodeWord : Instr → Option Word
  | .add _ d a b => some (formA 0x01 d a b 0x00)
  | .adc _ d a b => some (formA 0x01 d a b 0x01)
  | .sub _ d a b => some (formA 0x01 d a b 0x02)
  | .sbc _ d a b => some (formA 0x01 d a b 0x03)
  | .and_ _ d a b => some (formA 0x01 d a b 0x04)
  | .or_ _ d a b => some (formA 0x01 d a b 0x05)
  | .xor _ d a b => some (formA 0x01 d a b 0x06)
  | .andn _ d a b => some (formA 0x01 d a b 0x07)
  | .shl _ d a b => some (formA 0x01 d a b 0x08)
  | .shr _ d a b => some (formA 0x01 d a b 0x09)
  | .sar _ d a b => some (formA 0x01 d a b 0x0A)
  | .rol _ d a b => some (formA 0x01 d a b 0x0B)
  | .ror _ d a b => some (formA 0x01 d a b 0x0C)
  | .mul _ d a b => some (formA 0x01 d a b 0x10)
  | .mulh _ d a b => some (formA 0x01 d a b 0x11)
  | .mulhu _ d a b => some (formA 0x01 d a b 0x12)
  | .div _ d a b => some (formA 0x01 d a b 0x14)
  | .divu _ d a b => some (formA 0x01 d a b 0x15)
  | .rem _ d a b => some (formA 0x01 d a b 0x16)
  | .remu _ d a b => some (formA 0x01 d a b 0x17)
  | .nprm _ d a b => some (formA 0x01 d a b 0x24)
  | .clz _ d a => some (formA 0x01 d a 0 0x20)
  | .ctz _ d a => some (formA 0x01 d a 0 0x21)
  | .popc _ d a => some (formA 0x01 d a 0 0x22)
  | .opk _ d a => some (formA 0x01 d a 0 0x28)
  | .opkl _ d a => some (formA 0x01 d a 0 0x29)
  | .oupk _ d a => some (formA 0x01 d a 0 0x2A)
  | .oupkl _ d a => some (formA 0x01 d a 0 0x2B)
  | .addi _ d a i => some (formI 0x10 d a i)
  | .subi _ d a i => some (formI 0x11 d a i)
  | .andi _ d a i => some (formI 0x12 d a i)
  | .ori _ d a i => some (formI 0x13 d a i)
  | .xori _ d a i => some (formI 0x14 d a i)
  | .shi _ d a i => some (formI 0x16 d a i)
  | .nprmi _ d a i => some (formI 0x18 d a i)
  | .ldw _ d a i => some (formI 0x80 d a i)
  | .ldh _ d a i => some (formI 0x81 d a i)
  | .ldhs _ d a i => some (formI 0x82 d a i)
  | .ldn _ d a i => some (formI 0x83 d a i)
  | .ldns _ d a i => some (formI 0x84 d a i)
  | .stw _ d a i => some (formI 0x88 d a i)
  | .sth _ d a i => some (formI 0x89 d a i)
  | .stn _ d a i => some (formI 0x8A d a i)
  | .lres _ d a i => some (formI 0x8C d a i)
  | .jalr _ d a i => some (formI 0xA2 d a i)
  | .lui _ d i => some (formI 0x15 d 0 i)
  | .bfx _ d a pos len => some (formF 0x20 d a pos len 0)
  | .bfxs _ d a pos len => some (formF 0x20 d a pos len 1)
  | .bfi _ d a pos len => some (formF 0x20 d a pos len 2)
  | .scond _ d a b => some (formA 0x8D d a b 0)
  | .br _ cond off => some (formB 0xA0 cond off)
  | .jal _ l off => some (formJ 0xA1 l off)
  | .nop _ => some (formA 0xC0 0 0 0 0)
  | .fenceMem _ => some (formA 0xC1 0 0 0 0)
  | .fenceDev _ => some (formA 0xC1 0 0 0 1)
  | .fenceAll _ => some (formA 0xC1 0 0 0 2)
  | .wait _ => some (formA 0xC2 0 0 0 0)
  | .sys _ i => some (formI 0xC3 0 0 i)
  | .seal_ _ i => some (formI 0xC4 0 0 i)
  | .rfe _ => some (formA 0xC5 0 0 0 0)
  | .mfs _ d i => some (formI 0xC6 d 0 i)
  | .mts _ a i => some (formI 0xC7 0 a i)
  | .cacheInvalidateIRange _ a b => some (formA 0xC8 0 a b 0)
  | .cacheInvalidateDRange _ a b => some (formA 0xC8 0 a b 1)
  | .cacheInvalidateIAll _ => some (formA 0xC8 0 0 0 2)
  | .cacheInvalidateDAll _ => some (formA 0xC8 0 0 0 3)
  | .ux _ n d a b f => some (formA (0xE0 + n.val) d a b f)
  | .crc32 _ d a b i => some (formA 0xF0 d a b (cpFn 0x00 i))
  | .crc32o _ d a b i => some (formA 0xF0 d a b (cpFn 0x01 i))
  | .crc16 _ d a b i => some (formA 0xF0 d a b (cpFn 0x02 i))
  | .shainit _ i => some (formA 0xF0 0 0 0 (cpFn 0x04 i))
  | .shaw _ a i => some (formA 0xF0 0 a 0 (cpFn 0x05 i))
  | .shard _ d i => some (formA 0xF0 d 0 0 (cpFn 0x06 i))
  | .aeskey _ a i => some (formA 0xF0 0 a 0 (cpFn 0x08 i))
  | .aesin _ a i => some (formA 0xF0 0 a 0 (cpFn 0x09 i))
  | .aesenc _ i => some (formA 0xF0 0 0 0 (cpFn 0x0A i))
  | .aesdec _ i => some (formA 0xF0 0 0 0 (cpFn 0x0B i))
  | .aesout _ d i => some (formA 0xF0 d 0 0 (cpFn 0x0C i))
  | .kset _ a i => some (formA 0xF4 0 a 0 (cpFn 0x00 i))
  | .lag _ d a b i => some (formA 0xF4 d a b (cpFn 0x01 i))
  | .sqmac _ d a b i => some (formA 0xF4 d a b (cpFn 0x02 i))
  | .krd _ d i => some (formA 0xF4 d 0 0 (cpFn 0x03 i))
  | .pset _ a b i => some (formA 0xF8 0 a b (cpFn 0x00 i))
  | .pclr _ i => some (formA 0xF8 0 0 0 (cpFn 0x01 i))
  | .match_ _ d a i => some (formA 0xF8 d a 0 (cpFn 0x02 i))
  | .maplo _ d i => some (formA 0xF8 d 0 0 (cpFn 0x03 i))
  | .maphi _ d i => some (formA 0xF8 d 0 0 (cpFn 0x04 i))
  | _ => none

end Sys2Proof
end

