-- ==== Sys2Proof/Machine/Fetch.lean ====
section
/-! DEFINITION. What a core does with the word at its program counter (R482, R485): the instruction commanded is the one that
this word spells (log entry 101). -/

namespace Sys2Proof.Machine

/-- The word in memory at a core's program counter. -/
def fetched (s : State) (c : CoreId) : Word := BitVec.ofNat 36 (s.readNibs (s.core c.val).pc.toNat 4)

/-- R458: does the instruction cache hold this region? -/
def icached : Option Region → Bool
  | some .rom | some .inkwell | some .vellum => true
  | _ => false

/-- R459, R460: a fetch through the instruction cache, which nothing snoops: a copy older than memory may still answer, or
be refetched. -/
def fetchWord (s : State) (c : CoreId) : State × Word :=
  let a := (s.core c.val).pc.toNat
  let w := fetched s c
  let refill (s : State) : State := s.setCore c.val (fun k => { k with
    icache := (a / 256, (List.range 64).map (fun i => BitVec.ofNat 36 (s.readNibs (a / 256 * 256 + 4 * i) 4))) :: k.icache.filter (fun p => p.1 != a / 256) })
  if !icached (regionOf s a) || !canIssue s c || (fetchFault s c).isSome then (s, w)
  else match (s.core c.val).icache.find? (fun p => p.1 == a / 256) with
    | none => (refill s, w)
    | some p =>
      let old := p.2.getD (a % 256 / 4) 0
      if old = w then (s, w)
      else if s.freeBit then (s.drawn, old)
      else (refill s.drawn, w)

/-- R482–R486: one instruction of a core, from memory: the word fetched is decoded, and a word that spells no instruction
raises ILLEGAL; the fetch's own faults come first in either case. -/
def coreStep (c : CoreId) (s : State) : Answer :=
  let p := fetchWord s c
  match decodeWord c p.2 with
  | some i => exec i p.1
  | none => issue c p.1 (fun s => s.trap c .illegal)

end Sys2Proof.Machine
end

