-- ==== Sys2Proof/Safety.lean ====
section
/-! DEFINITION. What claims about a run are made of: the canonical form of the sparse parts of the state, and runs that
go on. -/

namespace Sys2Proof.Machine

/-- The memory's cells stand in canonical form: addresses rising, none equal to what an unlisted address reads as. -/
def Memory.wf (m : Cells 9) : Bool := Cells.wf (fun _ => 0) m

/-- The registers' cells stand in canonical form against the reset values of their tables. -/
def Registers.wf (r : Cells 36) : Bool := Cells.wf regReset r

/-- Equal memories are equal data, and so are equal register files and equal copies of the always-on island's registers. -/
def Canonical (s : State) : Prop := Memory.wf s.mem = true ∧ Registers.wf s.regs = true ∧ Registers.wf s.copies = true

/-- The five cores are there, each with its 32 registers (R450). -/
def Cores.wf (l : List Core) : Prop := l.length = 5 ∧ ∀ k ∈ l, k.regs.length = 32

/-- What every step keeps. -/
def Invariant (s : State) : Prop := Canonical s ∧ Cores.wf s.cores

/-! ### Commands that store nothing -/

/-- Memory, the posted writes, the journal, the boot, update and recovery state, the vault, the count and the queue of
`t` are those of `s`. -/
def Untouched (s t : State) : Prop :=
  t.mem = s.mem ∧ t.posted = s.posted ∧ t.warmDue = s.warmDue ∧ t.ecr = s.ecr ∧ t.boot = s.boot ∧ t.upd = s.upd ∧
  t.nvRow = s.nvRow ∧ t.rcv = s.rcv ∧ t.vault = s.vault ∧ t.now = s.now ∧ t.pending = s.pending

end Sys2Proof.Machine

namespace Sys2Proof

/-- The blocks whose register writes store nothing to memory and reach none of the rest above. -/
def Blk.storesNothing : Blk → Bool
  | .pwr | .aon | .folio | .safe | .icu | .rule | .tmr | .psg | .psc0 | .psc1 | .stk | .mot | .lgt | .lch | .inp | .nmg
  | .lin _ | .ring | .spic _ | .dbg | .acc | .crypt => true
  | .sys | .can _ | .ts _ | .tx _ | .vault => false

/-- The commands that store nothing to memory and reach none of the rest above: the events of the power stage, motion,
strokes, lighting, inputs, timers and ruling, LIN, ring and network management, the access unit, the safety manager, and
a core's instructions but loads, stores, fences of device writes and SEAL. A wake by the real-time clock is an always-on edge. -/
def Instr.storesNothing : Instr → Bool
  | .pll1Loss .. | .fabricTimeout .. | .voteCorrection .. | .folioVerifyEnd | .pwmPeriodBoundary | .pwmOnTimeEnd ..
  | .currentLimitReached .. | .ilimTimeTrip .. | .regulationTimeClear .. | .shortCircuitTrip ..
  | .wireModelEvaluation .. | .inrushWindowEnd .. | .clampEnergyExceeded .. | .clampLeakTick | .thermalLatch ..
  | .thermalRelease .. | .retryDelayExpiry .. | .retryRestoreTimeout .. | .mismatchDetect .. | .mismatchPersistSafe ..
  | .secondPathShutdown .. | .openLoadOnDetect .. | .offStateTestStart .. | .offStateTestPhaseEnd ..
  | .pairImbalance .. | .heartbeatExpiry | .holdExpiry | .parkonLimitFault .. | .arbiterCycle .. | .feedOvercurrent ..
  | .feedUndervoltage .. | .feedOvervoltageHold .. | .feedVoltageRecovery .. | .reverseBattery ..
  | .currentSenseCrossCheck .. | .softStartEnd .. | .rippleDetect .. | .rippleGapCorrection .. | .rippleCountEnd ..
  | .forceEstimate .. | .pinchBrakeEnd .. | .pinchReversalEnd .. | .stallDetect .. | .brakeTimeEnd ..
  | .gotoTargetReached .. | .moveTimeout .. | .wiperParkEdge .. | .wiperStartPulse .. | .wiperCycleTimeout ..
  | .stkRuleFire .. | .stkRuleRelease .. | .peakArrival .. | .boostTimeout .. | .lateWindowFault ..
  | .stkPeakTimeEnd .. | .stkHoldTimeEnd .. | .quenchEnd .. | .chopCurrentReached .. | .chopOffTimeEnd ..
  | .dutyLimitReached .. | .dutySegmentRoll .. | .stringFreqUpdate .. | .stringPwmBoundary .. | .sinkPwmBoundary
  | .stringOpen .. | .stringOpenRetest .. | .stringShort .. | .stringOutputShort .. | .stringThermal .. | .sinkOpen ..
  | .sinkShort .. | .sinkBankThermal .. | .diagAgeExpiry .. | .offtestStart .. | .offtestEnd .. | .matrixRowSlot
  | .matrixRowTrip | .lchRefresh | .lchFrameEnd | .parkInputSample .. | .comparatorCrossing .. | .adcScanPeriod
  | .adcRuleStart | .adcConversionDone .. | .adcScanDone | .timerRuleStart .. | .timerRuleStop ..
  | .timerCaptureRule .. | .timerCaptureEdge ..
  | .ruleEvent .. | .canProtocolException ..
  | .canRecoveryDone .. | .linSlotStart .. | .linHeaderReceived .. | .linResponseReceived .. | .linResponseTimeout ..
  | .linSleepEntry .. | .linIdleTimeout .. | .linWakeupDetect .. | .linScheduleResume .. | .ethDisable ..
  | .ringLinkTrained .. | .ringLockLoss .. | .ringBreakDetect | .ringBreakSend | .ringRelock | .ringFrameReceived ..
  | .ringFrameReturn .. | .ringAckTimeout .. | .ringClaimSend | .ringTimeTimeout | .ringTimeSend
  | .ringTimeReturnTimeout | .ringCensusSend | .nmgKeepaliveDue .. | .nmgKeepaliveReceived .. | .nmgIdleTimeout ..
  | .nmgSleepAbort .. | .nmgRepeatEnd .. | .nmgDetectorArm .. | .nmgSleepCommit .. | .transceiverWake ..
  | .nmgConfirmTimeout .. | .transceiverService | .transceiverServiceTimeout .. | .sealCallTimeout ..
  | .reservoirCharged | .accLoadingDone | .attentionAssert .. | .tokenReadEnd .. | .tokenReadRepeat .. | .evalFrameEnd
  | .accBackoffEnd .. | .accLearnDone | .sessionTimeout | .graceTimeout | .add .. | .adc .. | .sub ..
  | .sbc .. | .and_ .. | .or_ .. | .xor .. | .andn .. | .shl .. | .shr .. | .sar .. | .rol .. | .ror .. | .mul ..
  | .mulh .. | .mulhu .. | .div .. | .divu .. | .rem .. | .remu .. | .clz .. | .ctz .. | .popc .. | .nprm .. | .opk ..
  | .opkl .. | .oupk .. | .oupkl .. | .addi .. | .subi .. | .andi .. | .ori .. | .xori .. | .lui .. | .shi ..
  | .nprmi .. | .bfx .. | .bfxs .. | .bfi .. | .br .. | .jal .. | .jalr .. | .nop .. | .fenceMem .. | .wait ..
  | .sys .. | .rfe .. | .mfs .. | .mts .. | .cacheInvalidateIRange .. | .cacheInvalidateDRange ..
  | .cacheInvalidateIAll .. | .cacheInvalidateDAll .. | .ux .. | .crc32 .. | .crc32o .. | .crc16 .. | .shainit ..
  | .shaw .. | .shaCompressionDone .. | .shard .. | .aeskey .. | .aesin .. | .aesenc .. | .aesdec .. | .aesDone ..
  | .aesout .. | .kset .. | .lag .. | .sqmac .. | .krd .. | .pset .. | .pclr .. | .match_ .. | .maplo .. | .maphi ..
  | .interruptPresent .. | .interruptTaken .. | .lockstepMismatch .. | .powerStateChoice ..
  | .parkEntryCommit | .wakeStageFailure | .wakeRetry | .safeFaultDetect .. | .voterSelfTest ..
  | .sramScrub .. | .nvmScrub .. | .selftestOverdue .. | .ringSymbolLock | .wakeToneReceived | .wakeFrameDecode ..
  | .operatingRangeChange .. => true
  | .wakeDetect src => src.val != 5
  | _ => false

end Sys2Proof

namespace Sys2Proof.Machine

/-! ### Accepted writes -/

/-- R33: no earlier write of the requester to the block is still on its way. -/
def noneAhead (s : State) (req : Nat) (blk : Option Blk) : Bool :=
  s.posted.all (fun p => !(p.src.req == req && blkAt p.addr == blk))

/-- The present value of the register a write names. -/
def WriteReq.old (r : WriteReq) (s : State) : Word := s.rd (r.blk.base + r.off)

/-- The plain write that the write stands for (R103), less what the present clock edge set (R108). -/
def WriteReq.plainWord (r : WriteReq) (d : RegDesc) (s : State) : Word :=
  sameEdge s (r.blk.base + r.off) d (aliasWord r.al d (r.old s) r.data)

/-- R94: the write passes every check: no earlier write of its requester to the block is on its way (R33), its island is
ready, its register is `d` of the block's table, neither the block's checks nor the shared ones fail, and it drives no live
test control (R100). -/
def Passes (r : WriteReq) (fails : State → Word → Fails) (locked : Bool) (s : State) (d : RegDesc) : Prop :=
  noneAhead s r.src.req (some r.blk) = true ∧ s.ready r.blk.island = true ∧ testDriven r s = false ∧ regDesc r.blk r.off = some d ∧
  firstFail (fails s (r.plainWord d s) ++ sharedFails s r d (r.old s) (r.plainWord d s) locked) = none

/-- R35: the state after an accepted write: the register holds the new value, and the block acts on it. -/
def Taken (r : WriteReq) (d : RegDesc) (hook : State → Word → Word → State) (s : State) : State :=
  hook (s.wr (r.blk.base + r.off) (commitWord d (r.old s) (r.plainWord d s))) (r.old s) (r.plainWord d s)

/-- R11, R40: the timeout or boundary has fallen due in this tick, at whose end it acts, once. -/
def State.waits (s : State) (i : Instr) : State :=
  { s with ending := if s.ending.contains i then s.ending else s.ending ++ [i] }

/-- A core that may issue, at a pc its fetch does not fault on (R485). -/
def Issues (s : State) (c : CoreId) : Prop := canIssue s c = true ∧ fetchFault s c = none

/-- The step goes on. -/
def GoesOn (s : State) : Prop := ∃ t, step s = .next t

/-- The step stops, and why. -/
def StopsWith (s : State) (f : Fault) : Prop := step s = .fault f

end Sys2Proof.Machine
end

