-- ==== Sys2Proof/Certificates/Slice0/Obligations.lean ====
section
/-! DEFINITION. The statements for the provers: what the commands do (each completion statement names its commands), what a
refused write leaves, and what every step keeps. -/

open Sys2Proof Sys2Proof.Machine

/-- A step is the front command on the state with the rest of the queue.  For every command c and every state, step with c at the front of the queue is exec of c with the rest of the queue; with no command waiting, step lets one tick pass (the model's choice, log entry 20). -/
def Obligations.StepServesTheFront : Prop :=
  (∀ (c : Instr) (rest : List Instr) (s : State), step { s with pending := c :: rest } = exec c { s with pending := rest }) ∧
  (∀ s : State, s.pending = [] → step s = idleTick s)

/-- The one stop of the model is a live test control.  Every step answers a next state or the fault testControl; outside life-cycle states FACTORY and RETURN, and with no posted write under way now or after a tick, every command answers a next state. -/
def Obligations.StepStopsOnlyAtTestControls : Prop :=
  (∀ s : State, (∃ t, step s = .next t) ∨ step s = .fault .testControl) ∧
  (∀ (i : Instr) (s : State), testControls s = false → s.posted = [] →
    (tickOver (tmrTickEnd (endTick s))).posted = [] → ∃ t, exec i s = .next t)

/-- The state after reset.  State.reset meets the invariant, its queue is empty, the timebase is 0 and every register reads its Reset column; that memory reads 0 is the model's choice (log entry 5), and so are the values of registers whose Reset column names none (log entry 6). -/
def Obligations.ResetState : Prop :=
  Invariant State.reset ∧ State.reset.pending = [] ∧ (∀ a, State.reset.nib a = 0) ∧ (∀ a, State.reset.rd a = regReset a) ∧
  State.reset.now = 0 ∧ State.reset.posted = [] ∧ State.reset.rej = []

/-- Every step keeps the invariant.  From every state in which memory and registers stand in canonical form and the five cores hold their 32 registers each, a step that goes on leaves such a state, whatever the command. -/
def Obligations.StepKeepsTheInvariant : Prop :=
  ∀ s t : State, Invariant s → step s = .next t → Invariant t

/-- A step takes the front command and leaves the others in order.  No command adds to the queue or reorders it. -/
def Obligations.QueueIsServedInOrder : Prop :=
  ∀ s t : State, Invariant s → step s = .next t → t.pending = s.pending.tail

/-- A rejected write leaves its record alone.  When the first failing check of R94 gives a code, the block write changes LASTERR and the requester's reject flag and nothing else: CODE, REQ and OFFSET (alias included) are those of the write, VALID is set, INFO cleared, COUNT advanced, saturating at 15 and restarting when VALID was 0. -/
def Obligations.RejectedWriteChangesNothing : Prop :=
  ∀ (r : WriteReq) (fails : State → Word → Fails) (locked : Bool) (hook : State → Word → Word → State) (s : State)
    (d : RegDesc) (code : Nat), Registers.wf s.regs = true → r.src.req < 16 → r.off + r.al.off < 2 ^ 16 → code < 256 →
    regDesc r.blk r.off = some d →
    firstFail (fails s (r.plainWord d s) ++ sharedFails s r d (r.old s) (r.plainWord d s) locked) = some code →
    let t := blockWrite r fails locked hook noRej s
    let e := t.rd r.blk.lasterr
    let old := s.rd r.blk.lasterr
    (∀ a, a ≠ r.blk.lasterr → t.rd a = s.rd a) ∧
    t = { s with regs := t.regs, rej := t.rej } ∧
    (∀ q, q ∈ t.rej ↔ q = r.src.req ∨ q ∈ s.rej) ∧
    bitsOf e 35 28 = code ∧ bitsOf e 27 24 = r.src.req ∧ bitsOf e 19 4 = r.off + r.al.off ∧ bitsOf e 0 0 = 1 ∧
    bitsOf e 1 1 = 0 ∧ bitsOf e 23 20 = if bitsOf old 0 0 = 0 then 1 else min 15 (bitsOf old 23 20 + 1)

/-- An accepted write acts on each field by its access code.  RW, RUN and CFG fields take the written bits, RO and FOL fields stand, W1S fields gain the written ones, W1C fields lose them, and every bit no field names stands. -/
def Obligations.AcceptedWriteByAccessCode : Prop :=
  ∀ (d : RegDesc) (old w : Word), d.fields.Pairwise (fun f g => f.hi < g.lo ∨ g.hi < f.lo) →
    (∀ f ∈ d.fields, f.lo ≤ f.hi ∧ f.hi < 36) →
    (∀ f ∈ d.fields, f.readsZero = false →
      let o := bitsOf old f.hi f.lo
      let x := bitsOf w f.hi f.lo
      let n := bitsOf (commitWord d old w) f.hi f.lo
      (f.acc = .rw ∨ f.acc = .run ∨ f.acc = .cfg → n = x) ∧
      (f.acc = .ro ∨ f.acc = .fol → n = o) ∧
      (f.acc = .w1s → ∀ i, n.testBit i = (o.testBit i || x.testBit i)) ∧
      (f.acc = .w1c → ∀ i, n.testBit i = (o.testBit i && !x.testBit i))) ∧
    (∀ i, i < 36 → (∀ f ∈ d.fields, i < f.lo ∨ f.hi < i) → bitAt (commitWord d old w) i = bitAt old i)

/-- A write through an alias acts bitwise on RW, RUN and CFG fields alone.  Through the set alias each bit written 1 becomes 1, through the clear alias 0, through the toggle alias it is inverted; bits written 0, and every bit outside those fields, stand. -/
def Obligations.AliasWriteBits : Prop :=
  ∀ (d : RegDesc) (old w : Word) (al : Alias), al ≠ .plain → d.fields.Pairwise (fun f g => f.hi < g.lo ∨ g.hi < f.lo) →
    (∀ f ∈ d.fields, f.lo ≤ f.hi ∧ f.hi < 36) →
    let v := aliasWord al d old w
    (∀ f ∈ d.fields, f.acc = .rw ∨ f.acc = .run ∨ f.acc = .cfg → ∀ i, f.lo ≤ i → i ≤ f.hi →
      bitAt v i = match al with
        | .set => bitAt old i || bitAt w i
        | .clear => bitAt old i && !bitAt w i
        | .toggle => bitAt old i ^^ bitAt w i
        | .plain => bitAt w i) ∧
    (∀ i, i < 36 → (∀ f ∈ d.fields, f.acc = .rw ∨ f.acc = .run ∨ f.acc = .cfg → i < f.lo ∨ f.hi < i) →
      bitAt (commitWord d old v) i = bitAt old i)

/-- Each named register command is the write of its register.  Each of the 106 commands that write one register equals REGISTER_WRITE of the word with the fields it fixes. -/
def Obligations.NamedWrites : Prop :=
  (∀ (src : Src) (s : State),
    exec (.folioRefoldOwn src) s = exec (.registerWrite src .folio (4) (FOLIO_CMD_KEY.set 0xA5 (FOLIO_CMD_OP.set 1 0))) s) ∧
  (∀ (src : Src) (s : State),
    exec (.folioRefoldOther src) s = exec (.registerWrite src .folio (4) (FOLIO_CMD_KEY.set 0xA5 (FOLIO_CMD_OP.set 2 0))) s) ∧
  (∀ (src : Src) (s : State),
    exec (.folioVerifyOther src) s = exec (.registerWrite src .folio (4) (FOLIO_CMD_KEY.set 0xA5 (FOLIO_CMD_OP.set 3 0))) s) ∧
  (∀ (src : Src) (f : Fin 72) (w : Word) (s : State),
    exec (.pscModeOff src f w) s = exec (.registerWrite src (pscBlk f) (pscOff f) (PSC_CMD_MODE.set 0 w)) s) ∧
  (∀ (src : Src) (f : Fin 72) (w : Word) (s : State),
    exec (.pscModeOn src f w) s = exec (.registerWrite src (pscBlk f) (pscOff f) (PSC_CMD_MODE.set 1 w)) s) ∧
  (∀ (src : Src) (f : Fin 72) (w : Word) (s : State),
    exec (.pscModePwm src f w) s = exec (.registerWrite src (pscBlk f) (pscOff f) (PSC_CMD_MODE.set 2 w)) s) ∧
  (∀ (src : Src) (f : Fin 72) (w : Word) (s : State),
    exec (.pscModeLowon src f w) s = exec (.registerWrite src (pscBlk f) (pscOff f) (PSC_CMD_MODE.set 3 w)) s) ∧
  (∀ (src : Src) (f : Fin 72) (w : Word) (s : State),
    exec (.pscModePwmsync src f w) s = exec (.registerWrite src (pscBlk f) (pscOff f) (PSC_CMD_MODE.set 4 w)) s) ∧
  (∀ (src : Src) (f : Fin 72) (w : Word) (s : State),
    exec (.pscPwmWrite src f w) s = exec (.registerWrite src (pscBlk f) (pscOff f + 4) w) s) ∧
  (∀ (src : Src) (f : Fin 72) (w : Word) (s : State),
    exec (.channelUnlock src f w) s = exec (.registerWrite src (pscBlk f) (pscOff f + 0x28) (PSC_FAULT_LOCK.set 1 w)) s) ∧
  (∀ (src : Src) (w : Word) (s : State),
    exec (.heartbeatEnable src w) s = exec (.registerWrite src .psg (0) (PSG_CTRL_HBEN.set 1 w)) s) ∧
  (∀ (src : Src) (w : Word) (s : State),
    exec (.heartbeatRefresh src w) s = exec (.registerWrite src .psg (4) w) s) ∧
  (∀ (src : Src) (w : Word) (s : State),
    exec (.channelReclaim src w) s = exec (.registerWrite src .psg (0x18) w) s) ∧
  (∀ (src : Src) (k : Fin 6) (w : Word) (s : State),
    exec (.motCmdStop src k w) s = exec (.registerWrite src .mot (0x104 + k * 0x100) (MOT_CMD_OP.set 0 w)) s) ∧
  (∀ (src : Src) (k : Fin 6) (w : Word) (s : State),
    exec (.motCmdClose src k w) s = exec (.registerWrite src .mot (0x104 + k * 0x100) (MOT_CMD_OP.set 1 w)) s) ∧
  (∀ (src : Src) (k : Fin 6) (w : Word) (s : State),
    exec (.motCmdOpen src k w) s = exec (.registerWrite src .mot (0x104 + k * 0x100) (MOT_CMD_OP.set 2 w)) s) ∧
  (∀ (src : Src) (k : Fin 6) (w : Word) (s : State),
    exec (.motCmdGoto src k w) s = exec (.registerWrite src .mot (0x104 + k * 0x100) (MOT_CMD_OP.set 3 w)) s) ∧
  (∀ (src : Src) (k : Fin 6) (w : Word) (s : State),
    exec (.motCmdLearn src k w) s = exec (.registerWrite src .mot (0x104 + k * 0x100) (MOT_CMD_OP.set 4 w)) s) ∧
  (∀ (src : Src) (k : Fin 6) (w : Word) (s : State),
    exec (.motCmdWrun src k w) s = exec (.registerWrite src .mot (0x104 + k * 0x100) (MOT_CMD_OP.set 5 w)) s) ∧
  (∀ (src : Src) (k : Fin 6) (w : Word) (s : State),
    exec (.motCmdWint src k w) s = exec (.registerWrite src .mot (0x104 + k * 0x100) (MOT_CMD_OP.set 6 w)) s) ∧
  (∀ (src : Src) (k : Fin 6) (w : Word) (s : State),
    exec (.motCmdWsingle src k w) s = exec (.registerWrite src .mot (0x104 + k * 0x100) (MOT_CMD_OP.set 7 w)) s) ∧
  (∀ (src : Src) (k : Fin 6) (w : Word) (s : State),
    exec (.motCmdWpark src k w) s = exec (.registerWrite src .mot (0x104 + k * 0x100) (MOT_CMD_OP.set 8 w)) s) ∧
  (∀ (src : Src) (k : Fin 6) (w : Word) (s : State),
    exec (.motCmdDrive src k w) s = exec (.registerWrite src .mot (0x104 + k * 0x100) (MOT_CMD_OP.set 9 w)) s) ∧
  (∀ (src : Src) (k : Fin 6) (w : Word) (s : State),
    exec (.motEnableClear src k w) s = exec (.registerWrite src .mot (0x100 + k * 0x100) (MOT_CTRL_EN.set 0 w)) s) ∧
  (∀ (src : Src) (k : Fin 16) (w : Word) (s : State),
    exec (.stkFire src k w) s = exec (.registerWrite src .stk (0x108 + k * 0x100) (STK_CMD_OP.set 1 w)) s) ∧
  (∀ (src : Src) (k : Fin 16) (w : Word) (s : State),
    exec (.stkRelease src k w) s = exec (.registerWrite src .stk (0x108 + k * 0x100) (STK_CMD_OP.set 0 w)) s) ∧
  (∀ (src : Src) (k : Fin 16) (w : Word) (s : State),
    exec (.stkEnable src k w) s = exec (.registerWrite src .stk (0x100 + k * 0x100) (STK_CTRL_EN.set 1 w)) s) ∧
  (∀ (src : Src) (k : Fin 16) (w : Word) (s : State),
    exec (.stkEnableClear src k w) s = exec (.registerWrite src .stk (0x100 + k * 0x100) (STK_CTRL_EN.set 0 w)) s) ∧
  (∀ (src : Src) (n : Fin 8) (w : Word) (s : State),
    exec (.stModeOff src n w) s = exec (.registerWrite src .lgt (0x100 + n * 0x100) (LGT_STCMD_MODE.set 0 w)) s) ∧
  (∀ (src : Src) (n : Fin 8) (w : Word) (s : State),
    exec (.stModeOn src n w) s = exec (.registerWrite src .lgt (0x100 + n * 0x100) (LGT_STCMD_MODE.set 1 w)) s) ∧
  (∀ (src : Src) (n : Fin 8) (w : Word) (s : State),
    exec (.stModePwm src n w) s = exec (.registerWrite src .lgt (0x100 + n * 0x100) (LGT_STCMD_MODE.set 2 w)) s) ∧
  (∀ (src : Src) (n : Fin 48) (w : Word) (s : State),
    exec (.skModeOff src n w) s = exec (.registerWrite src .lgt (0xA00 + n * 0x20) (LGT_SKCMD_MODE.set 0 w)) s) ∧
  (∀ (src : Src) (n : Fin 48) (w : Word) (s : State),
    exec (.skModeOn src n w) s = exec (.registerWrite src .lgt (0xA00 + n * 0x20) (LGT_SKCMD_MODE.set 1 w)) s) ∧
  (∀ (src : Src) (n : Fin 48) (w : Word) (s : State),
    exec (.skModePwm src n w) s = exec (.registerWrite src .lgt (0xA00 + n * 0x20) (LGT_SKCMD_MODE.set 2 w)) s) ∧
  (∀ (src : Src) (n : Fin 8) (w : Word) (s : State),
    exec (.stringUnlock src n w) s = exec (.registerWrite src .lgt (0x11C + n * 0x100) (LGT_STFAULT_LOCK.set 1 w)) s) ∧
  (∀ (src : Src) (w : Word) (s : State),
    exec (.matrixEnable src w) s = exec (.registerWrite src .lgt (0x1000) (LGT_MXCTRL_EN.set 1 w)) s) ∧
  (∀ (src : Src) (w : Word) (s : State),
    exec (.matrixSwap src w) s = exec (.registerWrite src .lgt (0x1000) (LGT_MXCTRL_SWAP.set 1 w)) s) ∧
  (∀ (src : Src) (w : Word) (s : State),
    exec (.matrixRowUnlock src w) s = exec (.registerWrite src .lgt (0x1004) w) s) ∧
  (∀ (src : Src) (w : Word) (s : State),
    exec (.lightReclaim src w) s = exec (.registerWrite src .lgt (0xC) w) s) ∧
  (∀ (src : Src) (w : Word) (s : State),
    exec (.lchEnable src w) s = exec (.registerWrite src .lch (0) (LCH_CTRL_EN.set 1 w)) s) ∧
  (∀ (src : Src) (w : Word) (s : State),
    exec (.lchGo src w) s = exec (.registerWrite src .lch (0) (LCH_CTRL_GO.set 1 w)) s) ∧
  (∀ (src : Src) (w : Word) (s : State),
    exec (.lchSwap src w) s = exec (.registerWrite src .lch (0) (LCH_CTRL_SWAP.set 1 w)) s) ∧
  (∀ (src : Src) (n : Fin 64) (w : Word) (s : State),
    exec (.inputEnable src n w) s = exec (.registerWrite src .inp (0x100 + 4 * n) (INP_ICFG_ON.set 1 w)) s) ∧
  (∀ (src : Src) (w : Word) (s : State),
    exec (.adcEnable src w) s = exec (.registerWrite src .inp (0x200) (INP_ADCTRL_EN.set 1 w)) s) ∧
  (∀ (src : Src) (n : Fin 32) (w : Word) (s : State),
    exec (.timerEnable src n w) s = exec (.registerWrite src .tmr (0x100 + n * 0x40) (TMR_CTRL_EN.set 1 w)) s) ∧
  (∀ (src : Src) (n : Fin 32) (w : Word) (s : State),
    exec (.timerDisable src n w) s = exec (.registerWrite src .tmr (0x100 + n * 0x40) (TMR_CTRL_EN.set 0 w)) s) ∧
  (∀ (src : Src) (n : Fin 32) (w : Word) (s : State),
    exec (.timerCmdStart src n w) s = exec (.registerWrite src .tmr (0x110 + n * 0x40) (TMR_CMD_OP.set 1 w)) s) ∧
  (∀ (src : Src) (n : Fin 32) (w : Word) (s : State),
    exec (.timerCmdStop src n w) s = exec (.registerWrite src .tmr (0x110 + n * 0x40) (TMR_CMD_OP.set 2 w)) s) ∧
  (∀ (src : Src) (w : Word) (s : State),
    exec (.timerGlobalStart src w) s = exec (.registerWrite src .tmr (0) w) s) ∧
  (∀ (src : Src) (w : Word) (s : State),
    exec (.ruleSoftwarePulse src w) s = exec (.registerWrite src .rule (0) w) s) ∧
  (∀ (src : Src) (n : Fin 8) (w : Word) (s : State),
    exec (.canEnable src n w) s = exec (.registerWrite src (.can n) (0) (CAN_CTRL_EN.set 1 w)) s) ∧
  (∀ (src : Src) (n : Fin 8) (w : Word) (s : State),
    exec (.canDisable src n w) s = exec (.registerWrite src (.can n) (0) (CAN_CTRL_EN.set 0 w)) s) ∧
  (∀ (src : Src) (n : Fin 8) (w : Word) (s : State),
    exec (.canRxRelease src n w) s = exec (.registerWrite src (.can n) (0x20) w) s) ∧
  (∀ (src : Src) (n : Fin 8) (k : Fin 8) (w : Word) (s : State),
    exec (.canTxRequest src n k w) s = exec (.registerWrite src (.can n) (0x60 + 4 * k) w) s) ∧
  (∀ (src : Src) (n : Fin 8) (w : Word) (s : State),
    exec (.canTxCancel src n w) s = exec (.registerWrite src (.can n) (0x24) w) s) ∧
  (∀ (src : Src) (n : Fin 8) (w : Word) (s : State),
    exec (.canSealWrite src n w) s = exec (.registerWrite src (.can n) (0x30) w) s) ∧
  (∀ (src : Src) (n : Fin 8) (w : Word) (s : State),
    exec (.canRecover src n w) s = exec (.registerWrite src (.can n) (0) (CAN_CTRL_RECOVER.set 1 w)) s) ∧
  (∀ (src : Src) (n : Fin 12) (w : Word) (s : State),
    exec (.linGosleep src n w) s = exec (.registerWrite src (.lin n) (0) (LIN_CTRL_GOSLEEP.set 1 w)) s) ∧
  (∀ (src : Src) (n : Fin 12) (w : Word) (s : State),
    exec (.linWakeSend src n w) s = exec (.registerWrite src (.lin n) (0) (LIN_CTRL_WAKE.set 1 w)) s) ∧
  (∀ (src : Src) (p : Fin 6) (w : Word) (s : State),
    exec (.ethTxKick src p w) s = exec (.registerWrite src (ethBlk p.val) (0x20) (ETH_TXKICK_GO.set 1 w)) s) ∧
  (∀ (src : Src) (w : Word) (s : State),
    exec (.ringEnable src w) s = exec (.registerWrite src .ring (0) (RING_CTRL_EN.set 1 w)) s) ∧
  (∀ (src : Src) (w : Word) (s : State),
    exec (.ringTxgo src w) s = exec (.registerWrite src .ring (0x20) w) s) ∧
  (∀ (src : Src) (w : Word) (s : State),
    exec (.ringRxRelease src w) s = exec (.registerWrite src .ring (0x28) w) s) ∧
  (∀ (src : Src) (w : Word) (s : State),
    exec (.ringWakeTone src w) s = exec (.registerWrite src .ring (0) (RING_CTRL_WAKE.set 1 w)) s) ∧
  (∀ (src : Src) (w : Word) (s : State),
    exec (.ringCryptConfig src w) s = exec (.registerWrite src .ring (0x38) w) s) ∧
  (∀ (src : Src) (c : Fin 12) (w : Word) (s : State),
    exec (.nmgEnable src c w) s = exec (.registerWrite src .nmg (0x100 + c * 0x40) (NMG_CTRL_EN.set 1 w)) s) ∧
  (∀ (src : Src) (c : Fin 12) (w : Word) (s : State),
    exec (.nmgDisable src c w) s = exec (.registerWrite src .nmg (0x100 + c * 0x40) (NMG_CTRL_EN.set 0 w)) s) ∧
  (∀ (src : Src) (c : Fin 12) (w : Word) (s : State),
    exec (.nmgRequest src c w) s = exec (.registerWrite src .nmg (0x100 + c * 0x40) (NMG_CTRL_REQ.set 1 w)) s) ∧
  (∀ (src : Src) (c : Fin 12) (w : Word) (s : State),
    exec (.nmgRelease src c w) s = exec (.registerWrite src .nmg (0x100 + c * 0x40) (NMG_CTRL_REQ.set 0 w)) s) ∧
  (∀ (src : Src) (w : Word) (s : State),
    exec (.nmgLogClear src w) s = exec (.registerWrite src .nmg (4) (NMG_LOGCTL_CLR.set 1 w)) s) ∧
  (∀ (src : Src) (w : Word) (s : State),
    exec (.lcEnroll src w) s = exec (.registerWrite src .vault (4) (VAULT_LCCMD_OP.set 1 w)) s) ∧
  (∀ (src : Src) (w : Word) (s : State),
    exec (.lcOwner src w) s = exec (.registerWrite src .vault (4) (VAULT_LCCMD_OP.set 2 w)) s) ∧
  (∀ (src : Src) (w : Word) (s : State),
    exec (.lcField src w) s = exec (.registerWrite src .vault (4) (VAULT_LCCMD_OP.set 3 w)) s) ∧
  (∀ (src : Src) (w : Word) (s : State),
    exec (.lcNewchal src w) s = exec (.registerWrite src .vault (4) (VAULT_LCCMD_OP.set 4 w)) s) ∧
  (∀ (src : Src) (w : Word) (s : State),
    exec (.lcService src w) s = exec (.registerWrite src .vault (4) (VAULT_LCCMD_OP.set 5 w)) s) ∧
  (∀ (src : Src) (w : Word) (s : State),
    exec (.lcEndsvc src w) s = exec (.registerWrite src .vault (4) (VAULT_LCCMD_OP.set 6 w)) s) ∧
  (∀ (src : Src) (w : Word) (s : State),
    exec (.lcReturn src w) s = exec (.registerWrite src .vault (4) (VAULT_LCCMD_OP.set 7 w)) s) ∧
  (∀ (src : Src) (w : Word) (s : State),
    exec (.lcVoid src w) s = exec (.registerWrite src .vault (4) (VAULT_LCCMD_OP.set 8 w)) s) ∧
  (∀ (src : Src) (w : Word) (s : State),
    exec (.keyLoad src w) s = exec (.registerWrite src .vault (8) (VAULT_KCMD_OP.set 1 w)) s) ∧
  (∀ (src : Src) (w : Word) (s : State),
    exec (.keyClear src w) s = exec (.registerWrite src .vault (8) (VAULT_KCMD_OP.set 2 w)) s) ∧
  (∀ (src : Src) (w : Word) (s : State),
    exec (.keyRestrict src w) s = exec (.registerWrite src .vault (8) (VAULT_KCMD_OP.set 3 w)) s) ∧
  (∀ (src : Src) (c : Fin 4) (w : Word) (s : State),
    exec (.sealReply src c w) s = exec (.registerWrite src .vault (0x818 + 0x20 * c) w) s) ∧
  (∀ (src : Src) (w : Word) (s : State),
    exec (.cryptJobStart src w) s = exec (.registerWrite src .crypt (0) (CRYPT_JOB_GO.set 1 w)) s) ∧
  (∀ (src : Src) (w : Word) (s : State),
    exec (.accEnable src w) s = exec (.registerWrite src .acc (0) (ACC_CTRL_EN.set 1 w)) s) ∧
  (∀ (src : Src) (w : Word) (s : State),
    exec (.accDisable src w) s = exec (.registerWrite src .acc (0) (ACC_CTRL_EN.set 0 w)) s) ∧
  (∀ (src : Src) (s : State),
    exec (.accLearn src) s = exec (.registerWrite src .acc (0x1C) (ACC_LEARN_OP.set 1 0)) s) ∧
  (∀ (src : Src) (s : State),
    exec (.accImport src) s = exec (.registerWrite src .acc (0x1C) (ACC_LEARN_OP.set 2 0)) s) ∧
  (∀ (src : Src) (t : Fin 5) (w : Word) (s : State),
    exec (.interruptEoi src t w) s = exec (.registerWrite src .icu (0x104 + 0x40 * t) w) s) ∧
  (∀ (src : Src) (n : Fin 384) (w : Word) (s : State),
    exec (.icuSourceConfig src n w) s = exec (.registerWrite src .icu (0x400 + 4 * n) w) s) ∧
  (∀ (src : Src) (cls : Fin 15) (w : Word) (s : State),
    exec (.safeReactionConfig src cls w) s = exec (.registerWrite src .safe (0x40 + 4 * cls) w) s) ∧
  (∀ (src : Src) (w : Word) (s : State),
    exec (.updBegin src w) s = exec (.registerWrite src .sys (0x80) (SYS_UPDCMD_OP.set 1 w)) s) ∧
  (∀ (src : Src) (w : Word) (s : State),
    exec (.updData src w) s = exec (.registerWrite src .sys (0x80) (SYS_UPDCMD_OP.set 2 w)) s) ∧
  (∀ (src : Src) (w : Word) (s : State),
    exec (.updEnd src w) s = exec (.registerWrite src .sys (0x80) (SYS_UPDCMD_OP.set 3 w)) s) ∧
  (∀ (src : Src) (w : Word) (s : State),
    exec (.updAbort src w) s = exec (.registerWrite src .sys (0x80) (SYS_UPDCMD_OP.set 4 w)) s) ∧
  (∀ (src : Src) (w : Word) (s : State),
    exec (.updDkimport src w) s = exec (.registerWrite src .sys (0x80) (SYS_UPDCMD_OP.set 5 w)) s) ∧
  (∀ (src : Src) (s : State),
    exec (.edArm src) s = exec (.registerWrite src .sys (0x60) (SYS_EDCMD_KEY.set 0x3C (SYS_EDCMD_OP.set 1 0))) s) ∧
  (∀ (src : Src) (s : State),
    exec (.edArmnow src) s = exec (.registerWrite src .sys (0x60) (SYS_EDCMD_KEY.set 0x3C (SYS_EDCMD_OP.set 2 0))) s) ∧
  (∀ (src : Src) (s : State),
    exec (.edDisarm src) s = exec (.registerWrite src .sys (0x60) (SYS_EDCMD_KEY.set 0x3C (SYS_EDCMD_OP.set 3 0))) s) ∧
  (∀ (src : Src) (s : State),
    exec (.edConfirm src) s = exec (.registerWrite src .sys (0x60) (SYS_EDCMD_KEY.set 0x3C (SYS_EDCMD_OP.set 4 0))) s) ∧
  (∀ (src : Src) (s : State),
    exec (.edRevert src) s = exec (.registerWrite src .sys (0x60) (SYS_EDCMD_KEY.set 0x3C (SYS_EDCMD_OP.set 5 0))) s) ∧
  (∀ (src : Src) (s : State),
    exec (.edRetryisl src) s = exec (.registerWrite src .sys (0x60) (SYS_EDCMD_KEY.set 0x3C (SYS_EDCMD_OP.set 6 0))) s) ∧
  (∀ (src : Src) (s : State),
    exec (.edRecover src) s = exec (.registerWrite src .sys (0x60) (SYS_EDCMD_KEY.set 0x3C (SYS_EDCMD_OP.set 7 0))) s) ∧
  (∀ (src : Src) (s : State),
    exec (.nvRowWrite src) s = exec (.registerWrite src .sys (0x74) (SYS_NVCMD_KEY.set 0x69 (SYS_NVCMD_OP.set 1 0))) s) ∧
  (∀ (src : Src) (w : Word) (s : State),
    exec (.padRelease src w) s = exec (.registerWrite src .aon (0x14) w) s) ∧
  (∀ (src : Src) (w : Word) (s : State),
    exec (.rtcSet src w) s = exec (.registerWrite src .aon (8) w) s) ∧
  (∀ (src : Src) (w : Word) (s : State),
    exec (.rtcAlarmSet src w) s = exec (.registerWrite src .aon (0x10) w) s)

/-- The frame of the commands that store nothing.  Each of the commands that Instr.storesNothing lists, and a write of a register of a block that Blk.storesNothing lists, leaves every nib of memory, the posted writes, the journal, the boot, update and recovery state, the vault, the count and the queue as they were. -/
def Obligations.CommandsThatStoreNothing : Prop :=
  (∀ (i : Instr) (s t : State), i.storesNothing = true → exec i s = .next t →
    (∀ a, t.nib a = s.nib a) ∧ Untouched s t) ∧
  (∀ (src : Src) (blk : Blk) (off : Nat) (w : Word) (s t : State), blk.storesNothing = true →
    exec (.registerWrite src blk off w) s = .next t → (∀ a, t.nib a = s.nib a) ∧ Untouched s t)

/-- A write to the always-on block waits for a 32.768 kHz edge.  With no earlier write of its requester on the way to the block, such a write joins the waiting writes and changes nothing else; the next edge hands it to the block, empties the list and refreshes the copies. -/
def Obligations.AlwaysOnWritesWait : Prop :=
  (∀ (src : Src) (off : Nat) (w : Word) (s : State), off < 0x10000 → noneAhead s src.req (some .aon) = true →
    s.ready .aon = true → testDriven ⟨src, .aon, (aliasAt off).2, (aliasAt off).1, w⟩ s = false →
    exec (.registerWrite src .aon off w) s = .next { s with aonPend := s.aonPend ++ [⟨src, .aon, off, w, false⟩] }) ∧
  (∀ (src : Src) (off : Nat) (w : Word) (s : State), off < 0x4000 → s.tbRun = true → s.rej.contains src.req = false →
    s.aonPend = [⟨src, .aon, off, w, false⟩] → s.get aonB AON_RTCSUB_SUB ≠ 32767 →
    let t := { s with edge := s.edge.filter (fun p => !(isStl p.1 || p.1 == Blk.aon.lasterr)) }
    let u := aonBlkWrite ⟨src, .aon, off, .plain, w⟩
      { t.put aonB AON_RTCSUB_SUB (s.get aonB AON_RTCSUB_SUB + 1) with aonPend := [] }
    exec .aonWriteEffect s = .next (if u.rej.contains src.req then u.mark Blk.aon.lasterr 1 else u).refresh)

/-- Deadlines are compared modulo 2^36.  A deadline T is reached at count C exactly when (C - T) mod 2^36 is below 2^35; so it stays reached for 2^35 ticks, and a deadline up to 2^35 ticks ahead is not reached. -/
def Obligations.DeadlineWindow : Prop :=
  (∀ c t : Word, reachedAt c t = true ↔ (c.toNat + 2 ^ 36 - t.toNat) % 2 ^ 36 < 2 ^ 35) ∧
  (∀ (t : Word) (n : Nat), n < 2 ^ 35 → reachedAt (t + BitVec.ofNat 36 n) t = true) ∧
  (∀ (c : Word) (n : Nat), 1 ≤ n → n ≤ 2 ^ 35 → reachedAt c (c + BitVec.ofNat 36 n) = false)

/-- w0 reads 0 and takes no write; every other register holds what was written.  Each core has 32 registers; reading w0 gives 0, writing it changes nothing; a write of another register is read back and leaves the rest. -/
def Obligations.ZeroRegister : Prop :=
  (∀ (s : State) (c : CoreId), Invariant s → (s.core c.val).regs.length = 32) ∧
  (∀ (s : State) (c : CoreId), s.reg c 0 = 0) ∧
  (∀ (k : Core) (v : Word), k.setReg 0 v = k) ∧
  (∀ (k : Core) (r q : Reg) (v : Word), k.regs.length = 32 → r ≠ 0 →
    (k.setReg r v).reg r = v ∧ (q ≠ r → (k.setReg r v).reg q = k.reg q))

/-- What an integer instruction changes.  The result of every integer instruction (aluDone, the next state of their completion statements) reaches wd unless wd is w0, the four flags follow the result, C and V, PC advances by 4, and no other register, core or part of the state changes. -/
def Obligations.ResultFrame : Prop :=
  ∀ (s : State) (c : CoreId) (wd : Reg) (a : Alu), Invariant s →
    let t := s.aluDone c wd a
    t = { s with cores := t.cores } ∧
    (∀ c' : CoreId, c' ≠ c → t.core c'.val = s.core c'.val) ∧
    (wd ≠ 0 → t.reg c wd = a.val) ∧ (∀ r : Reg, r ≠ wd → t.reg c r = s.reg c r) ∧
    t.core c.val = { s.core c.val with
      regs := (t.core c.val).regs, pc := (s.core c.val).pc + 4,
      flg := packFlags (a.val.getLsbD 35) (a.val == 0) a.c a.v }

/-- The sixteen conditions.  Each condition code holds for the flags its row gives; after SUB of y from x it holds exactly when the row's comparison of x and y does; code 0xF is illegal. -/
def Obligations.ConditionsAfterCompare : Prop :=
  (∀ f : BitVec 4, condHolds 0 f = flagZ f ∧ condHolds 1 f = !flagZ f ∧ condHolds 2 f = flagC f ∧ condHolds 3 f = !flagC f ∧
    condHolds 4 f = flagN f ∧ condHolds 5 f = !flagN f ∧ condHolds 6 f = flagV f ∧ condHolds 7 f = !flagV f ∧
    condHolds 8 f = (flagC f && !flagZ f) ∧ condHolds 9 f = (!flagC f || flagZ f) ∧ condHolds 10 f = (flagN f == flagV f) ∧
    condHolds 11 f = (flagN f != flagV f) ∧ condHolds 12 f = (!flagZ f && flagN f == flagV f) ∧
    condHolds 13 f = (flagZ f || flagN f != flagV f) ∧ condHolds 14 f = true) ∧
  (∀ (c : CoreId) (off : BitVec 24) (s : State), Issues s c → exec (.br c 15 off) s = .next (s.trap c .illegal)) ∧
  (
  ∀ x y : Word, let f := (opSub x y).flags
    (condHolds 0 f = true ↔ x = y) ∧ (condHolds 1 f = true ↔ x ≠ y) ∧
    (condHolds 2 f = true ↔ y.toNat ≤ x.toNat) ∧ (condHolds 3 f = true ↔ x.toNat < y.toNat) ∧
    (condHolds 4 f = true ↔ (x - y).toInt < 0) ∧ (condHolds 5 f = true ↔ 0 ≤ (x - y).toInt) ∧
    (condHolds 6 f = true ↔ (x - y).toInt ≠ x.toInt - y.toInt) ∧ (condHolds 7 f = true ↔ (x - y).toInt = x.toInt - y.toInt) ∧
    (condHolds 8 f = true ↔ y.toNat < x.toNat) ∧ (condHolds 9 f = true ↔ x.toNat ≤ y.toNat) ∧
    (condHolds 10 f = true ↔ y.toInt ≤ x.toInt) ∧ (condHolds 11 f = true ↔ x.toInt < y.toInt) ∧
    (condHolds 12 f = true ↔ y.toInt < x.toInt) ∧ (condHolds 13 f = true ↔ x.toInt ≤ y.toInt) ∧
    condHolds 14 f = true)

/-- Shifts and rotates, with their flags.  On a core that issues, each shift writes what its operation gives on the sources as they stood; for every amount from 0 to 255: the result of SHL, SHR, SAR, ROL and ROR, C as the last bit shifted out by the cases of the rule, and V 0. -/
def Obligations.Shifts : Prop :=
  (∀ (c : CoreId) (wd wa wb : Reg) (s : State), Issues s c →
    exec (.shl c wd wa wb) s = .next (s.aluDone c wd (opShl (s.reg c wa) (bitsOf (s.reg c wb) 7 0))) ∧
    exec (.shr c wd wa wb) s = .next (s.aluDone c wd (opShr (s.reg c wa) (bitsOf (s.reg c wb) 7 0))) ∧
    exec (.sar c wd wa wb) s = .next (s.aluDone c wd (opSar (s.reg c wa) (bitsOf (s.reg c wb) 7 0))) ∧
    exec (.rol c wd wa wb) s = .next (s.aluDone c wd (opRol (s.reg c wa) (bitsOf (s.reg c wb) 7 0))) ∧
    exec (.ror c wd wa wb) s = .next (s.aluDone c wd (opRor (s.reg c wa) (bitsOf (s.reg c wb) 7 0)))) ∧
  (
  ∀ (x : Word) (n : Nat), n < 256 →
    (opShl x n).val.toNat = x.toNat * 2 ^ n % 2 ^ 36 ∧
    ((opShl x n).c = true ↔ 1 ≤ n ∧ n ≤ 36 ∧ x.toNat / 2 ^ (36 - n) % 2 = 1) ∧
    (opShr x n).val.toNat = x.toNat / 2 ^ n ∧
    ((opShr x n).c = true ↔ 1 ≤ n ∧ n ≤ 36 ∧ x.toNat / 2 ^ (n - 1) % 2 = 1) ∧
    (opSar x n).val.toInt = x.toInt / 2 ^ n ∧
    ((opSar x n).c = true ↔ 1 ≤ n ∧ x.toInt / 2 ^ (n - 1) % 2 = 1) ∧
    (∀ i, i < 36 → bitAt (opRol x n).val ((i + n) % 36) = bitAt x i ∧ bitAt (opRor x n).val i = bitAt x ((i + n) % 36)) ∧
    ((opRol x n).c = true ↔ n % 36 ≠ 0 ∧ bitAt (opRol x n).val 0 = true) ∧
    ((opRor x n).c = true ↔ n % 36 ≠ 0 ∧ bitAt (opRor x n).val 35 = true) ∧
    (opShl x n).v = false ∧ (opShr x n).v = false ∧ (opSar x n).v = false ∧ (opRol x n).v = false ∧ (opRor x n).v = false)

/-- Multiplication and division, with their flags.  On a core that issues, each instruction writes what its operation gives; C and V of MUL, MULH and MULHU; division by 0 and of -2^35 by -1; in every other case quotient and remainder rebuild x with the remainder smaller than the divisor and of the sign of x. -/
def Obligations.MultiplyAndDivide : Prop :=
  (∀ (c : CoreId) (wd wa wb : Reg) (s : State), Issues s c →
    exec (.mul c wd wa wb) s = .next (s.aluDone c wd (opMul (s.reg c wa) (s.reg c wb))) ∧
    exec (.mulh c wd wa wb) s = .next (s.aluDone c wd (opMulh (s.reg c wa) (s.reg c wb))) ∧
    exec (.mulhu c wd wa wb) s = .next (s.aluDone c wd (opMulhu (s.reg c wa) (s.reg c wb))) ∧
    exec (.div c wd wa wb) s = .next (s.aluDone c wd (opDiv (s.reg c wa) (s.reg c wb))) ∧
    exec (.divu c wd wa wb) s = .next (s.aluDone c wd (opDivu (s.reg c wa) (s.reg c wb))) ∧
    exec (.rem c wd wa wb) s = .next (s.aluDone c wd (opRem (s.reg c wa) (s.reg c wb))) ∧
    exec (.remu c wd wa wb) s = .next (s.aluDone c wd (opRemu (s.reg c wa) (s.reg c wb)))) ∧
  (
  ∀ x y : Word,
    ((opMul x y).c = true ↔ 2 ^ 36 - 1 < x.toNat * y.toNat) ∧
    ((opMul x y).v = true ↔ x.toInt * y.toInt < -2 ^ 35 ∨ 2 ^ 35 - 1 < x.toInt * y.toInt) ∧
    (opMulh x y).c = false ∧ (opMulh x y).v = false ∧ (opMulhu x y).c = false ∧ (opMulhu x y).v = false ∧
    (y = 0 → opDiv x y = ⟨0, false, true⟩ ∧ opDivu x y = ⟨0, false, true⟩ ∧ opRem x y = ⟨x, false, true⟩ ∧
      opRemu x y = ⟨x, false, true⟩) ∧
    (x.toInt = -2 ^ 35 → y.toInt = -1 → (opDiv x y).val.toInt = -2 ^ 35 ∧ (opDiv x y).v = true ∧ (opDiv x y).c = false ∧
      opRem x y = ⟨0, false, false⟩) ∧
    (y ≠ 0 → (opDivu x y).val.toNat * y.toNat + (opRemu x y).val.toNat = x.toNat ∧ (opRemu x y).val.toNat < y.toNat ∧
      (opDivu x y).c = false ∧ (opDivu x y).v = false ∧ (opRemu x y).c = false ∧ (opRemu x y).v = false) ∧
    (y ≠ 0 → ¬ (x.toInt = -2 ^ 35 ∧ y.toInt = -1) →
      (opDiv x y).val.toInt * y.toInt + (opRem x y).val.toInt = x.toInt ∧
      (opRem x y).val.toInt.natAbs < y.toInt.natAbs ∧
      ((opRem x y).val.toInt = 0 ∨ ((opRem x y).val.toInt < 0 ↔ x.toInt < 0)) ∧
      (opDiv x y).c = false ∧ (opDiv x y).v = false ∧ (opRem x y).c = false ∧ (opRem x y).v = false))

/-- NPRM moves whole nibs.  NPRM and NPRMI write what the operation gives: result nib k is nib s[2k + 1 : 2k] of x. -/
def Obligations.NibPermute : Prop :=
  (∀ (c : CoreId) (wd wa wb : Reg) (s : State), Issues s c →
    exec (.nprm c wd wa wb) s = .next (s.aluDone c wd (opNprm (s.reg c wa) (bitsOf (s.reg c wb) 7 0)))) ∧
  (∀ (c : CoreId) (wd wa : Reg) (imm : BitVec 18) (s : State), Issues s c → imm.toNat < 256 →
    exec (.nprmi c wd wa imm) s = .next (s.aluDone c wd (opNprm (s.reg c wa) imm.toNat))) ∧
  (
  ∀ (x : Word) (sel k : Nat), sel < 256 → k < 4 → nibOf (opNprm x sel).val k = nibOf x (sel / 4 ^ k % 4))

/-- OPK, OPKL, OUPK and OUPKL.  On a core that issues, each instruction writes what its operation gives: each result by the table's bits, and unpacking what was packed gives the word back. -/
def Obligations.PackAndUnpack : Prop :=
  (∀ (c : CoreId) (wd wa : Reg) (s : State), Issues s c →
    exec (.opk c wd wa) s = .next (s.aluDone c wd (opOpk (s.reg c wa))) ∧
    exec (.opkl c wd wa) s = .next (s.aluDone c wd (opOpkl (s.reg c wa))) ∧
    exec (.oupk c wd wa) s = .next (s.aluDone c wd (opOupk (s.reg c wa))) ∧
    exec (.oupkl c wd wa) s = .next (s.aluDone c wd (opOupkl (s.reg c wa)))) ∧
  (
  ∀ x : Word,
    (∀ k, k < 4 → bitsOf (opOpk x).val (31 - 8 * k) (24 - 8 * k) = (octOf x k).toNat ∧
      bitsOf (opOpk x).val (35 - k) (35 - k) = (markOf x k).toNat ∧
      bitsOf (opOpkl x).val (8 * k + 7) (8 * k) = (octOf x k).toNat ∧
      bitsOf (opOpkl x).val (32 + k) (32 + k) = (markOf x k).toNat ∧
      (nibOf (opOupk x).val k).toNat = bitsOf x (35 - k) (35 - k) * 256 + bitsOf x (31 - 8 * k) (24 - 8 * k) ∧
      (nibOf (opOupkl x).val k).toNat = bitsOf x (32 + k) (32 + k) * 256 + bitsOf x (8 * k + 7) (8 * k)) ∧
    (opOupk (opOpk x).val).val = x ∧ (opOupkl (opOpkl x).val).val = x)

/-- Entering an exception or an interrupt.  An exception saves FLG, WORLD, IE and SRES in ESAVE, writes EPC, ECAUSE and EADDR, clears the reservation, enters TRUST with IE 0 and EXL 1, and goes on at VBASE + 0x00 from TRUST and + 0x40 from OPEN; a presented interrupt that the core takes does the same at VBASE + 0x80 with cause INT; every register, every other core and the rest of the state stand. -/
def Obligations.ExceptionAndInterruptEntry : Prop :=
  (
  ∀ (s : State) (c : CoreId) (e : Exc) (sub info : Nat) (epc eaddr : Word), Invariant s → (s.core c.val).exl = false →
    let k := s.core c.val
    let t := raiseExc s c e sub info epc eaddr
    let k' := t.core c.val
    t = { s with cores := t.cores } ∧ (∀ c' : CoreId, c' ≠ c → t.core c'.val = s.core c'.val) ∧ k'.regs = k.regs ∧
    bitsOf k'.esave 35 32 = k.flg.toNat ∧ bitAt k'.esave 31 = (k.world == .opn) ∧ bitAt k'.esave 30 = k.ie ∧
    bitAt k'.esave 29 = false ∧ k'.epc = epc ∧ k'.eaddr = eaddr ∧
    (sub < 256 → info < 2 ^ 18 → bitsOf k'.ecause 35 28 = e.code ∧ bitsOf k'.ecause 27 20 = sub ∧ bitsOf k'.ecause 17 0 = info) ∧
    k'.resv = none ∧ k'.world = (if c.val = 4 then .seal else .trust) ∧ k'.ie = false ∧ k'.exl = true ∧
    k'.pc = k.vbase + (if k.world = .opn then 0x40 else 0)) ∧
  (
  ∀ (s : State) (c : CoreId), Invariant s →
    let k := s.core c.val
    k.running = true → k.stopped = false → k.ie = true → k.exl = false → (s.icu.presented.getD c.val none).isSome = true →
    ∃ t, exec (.interruptTaken c) s = .next t ∧ t = { s with cores := t.cores } ∧
      let k' := t.core c.val
      k'.regs = k.regs ∧ k'.epc = k.pc ∧ k'.eaddr = 0 ∧ bitsOf k'.ecause 35 28 = 0 ∧ bitsOf k'.ecause 17 0 = 0 ∧
      bitsOf k'.esave 35 32 = k.flg.toNat ∧ bitAt k'.esave 31 = (k.world == .opn) ∧ bitAt k'.esave 30 = true ∧
      bitAt k'.esave 29 = k.sealing ∧ k'.resv = none ∧ k'.world = (if c.val = 4 then .seal else .trust) ∧
      k'.ie = false ∧ k'.exl = true ∧ k'.pc = k.vbase + 0x80)

/-- RFE restores what the entry saved.  On a core that issues outside OPEN, RFE takes FLG, IE and the world from ESAVE, clears EXL and the reservation and continues at EPC; with SRES set it resumes the SEAL wait, or delivers an outcome that fell during the handler. Named: RFE. -/
def Obligations.ReturnFromException : Prop :=
  (∀ (c : CoreId) (s : State), Issues s c → (s.core c.val).world ≠ .opn →
    let k := s.core c.val
    let e := k.esave
    let t := s.setCore c.val (fun k => { k with
      flg := BitVec.ofNat 4 (bitsOf e 35 32), world := if c.val = 4 then .seal else if bitAt e 31 then .opn else .trust,
      ie := bitAt e 30, exl := false, resv := none, pc := k.epc })
    let u := t.setCore c.val (fun k => { k with sealHeld := k.sealHeld.tail })
    (bitAt e 29 = false → exec (.rfe c) s = .next t) ∧
    (bitAt e 29 = true → (∀ w z, k.sealHeld.head? ≠ some (some (w, z))) →
      exec (.rfe c) s = .next (u.setCore c.val (fun k => { k with sealing := true }))) ∧
    (∀ w z, bitAt e 29 = true → k.sealHeld.head? = some (some (w, z)) →
      exec (.rfe c) s = .next (sealDeliver u c.val w z)))

/-- RFE right after an entry gives back what was interrupted.  Flags, world, IE and registers are those before the exception, EXL is 0, the reservation is gone, and the core continues at EPC; nothing else differs. -/
def Obligations.ReturnUndoesEntry : Prop :=
  ∀ (s : State) (c : CoreId) (e : Exc) (sub info : Nat) (epc eaddr : Word), Invariant s →
    let k := s.core c.val
    let t := raiseExc s c e sub info epc eaddr
    k.exl = false → ((k.world = .seal) ↔ c.val = 4) → Issues t c →
    ∃ u, exec (.rfe c) t = .next u ∧ u = { s with cores := u.cores } ∧
      let k' := u.core c.val
      k'.regs = k.regs ∧ k'.flg = k.flg ∧ k'.world = k.world ∧ k'.ie = k.ie ∧ k'.exl = false ∧ k'.resv = none ∧ k'.pc = epc

/-- A double fault stops the core.  An exception while EXL is 1 stops the core with EPC unchanged, no instruction issues on it, and the fault manager takes a fault of class 4 for a Quill core. -/
def Obligations.DoubleFaultStops : Prop :=
  ∀ (s : State) (c : CoreId) (e : Exc) (sub info : Nat) (epc eaddr : Word), Invariant s → (s.core c.val).exl = true →
    let t := raiseExc s c e sub info epc eaddr
    (t.core c.val).stopped = true ∧ (t.core c.val).epc = (s.core c.val).epc ∧ canIssue t c = false ∧
      (c.val < 4 → t = safeDetect (haltCore s c.val) 4 c.val) ∧ (c.val = 4 → t = haltCore s 4)

/-- A store writes its own nibs and no other.  STW, STH and STN put the low 4, 2 or 1 nibs of ws at the address wa + sext(imm18), the lowest first; every other nib, every register of the blocks and every general register stands; a store that a check refuses changes no nib. -/
def Obligations.StoreWritesItsNibsAlone : Prop :=
  ∀ (c : CoreId) (ws wa : Reg) (imm : BitVec 18) (s : State), Issues s c → Invariant s →
    let a := s.reg c wa + imm.signExtend 36
    let w := s.reg c ws
    regionOf s a.toNat ≠ some .device → storeSealed s c a.toNat = false →
    (memFault s c a 4 true false = none → ∃ t, exec (.stw c ws wa imm) s = .next t ∧ t.word a.toNat = w ∧
      (∀ b, b < a.toNat ∨ a.toNat + 4 ≤ b → t.nib b = s.nib b) ∧ t.regs = s.regs ∧
      ∀ (c' : CoreId) (r : Reg), t.reg c' r = s.reg c' r) ∧
    (memFault s c a 2 true false = none → ∃ t, exec (.sth c ws wa imm) s = .next t ∧
      t.half a.toNat = w.extractLsb' 0 18 ∧
      (∀ b, b < a.toNat ∨ a.toNat + 2 ≤ b → t.nib b = s.nib b) ∧ t.regs = s.regs ∧
      ∀ (c' : CoreId) (r : Reg), t.reg c' r = s.reg c' r) ∧
    (memFault s c a 1 true false = none → ∃ t, exec (.stn c ws wa imm) s = .next t ∧
      t.nib a.toNat = w.extractLsb' 0 9 ∧
      (∀ b, b ≠ a.toNat → t.nib b = s.nib b) ∧ t.regs = s.regs ∧
      ∀ (c' : CoreId) (r : Reg), t.reg c' r = s.reg c' r) ∧
    (∀ e, memFault s c a 4 true false = some e → ∃ t, exec (.stw c ws wa imm) s = .next t ∧ ∀ b, t.nib b = s.nib b)

/-- A store ends every reservation on its granule.  After an STW to normal memory a core still holds a reservation exactly when it held it and its 16-nib granule lies apart from the stored word. -/
def Obligations.StoreEndsReservations : Prop :=
  ∀ (c : CoreId) (ws wa : Reg) (imm : BitVec 18) (s : State), Issues s c → Invariant s →
    let a := s.reg c wa + imm.signExtend 36
    regionOf s a.toNat ≠ some .device → storeSealed s c a.toNat = false → memFault s c a 4 true false = none →
    ∃ t, exec (.stw c ws wa imm) s = .next t ∧ ∀ (c' : CoreId) (g : Nat),
      (t.core c'.val).resv = some g ↔ (s.core c'.val).resv = some g ∧ (g + 16 ≤ a.toNat ∨ a.toNat + 4 ≤ g)

/-- A claim takes the highest deliverable source.  A read of ICU_CLAIM by its target answers the deliverable source of highest priority, the lowest number among equals, sets its ACT and pushes its priority; with none deliverable, by another requester, from OPEN or for an idle odd core it answers 511 and changes nothing. -/
def Obligations.ClaimTakesTheHighest : Prop :=
  ∀ (t : Fin 5) (src : Src) (s : State), Registers.wf s.regs = true →
    noneAhead s src.req (some .icu) = true → s.ready Blk.icu.island = true →
    (src.req = t.val → src.world ≠ .opn → coreIdle s t.val = false → ∀ n, n < 135 → srcListed n = true →
      0 < deliverPrio s t.val n →
      (∀ m, m < 135 → srcListed m = true → deliverPrio s t.val m < deliverPrio s t.val n ∨
        (deliverPrio s t.val m = deliverPrio s t.val n ∧ n ≤ m)) →
      ∃ u, exec (.interruptClaim t src) s = .next u ∧ (claimRead s t.val src).2 = n ∧
        bitAt (u.rd (icuSrc n)) 26 = true ∧
        u.icu.levels = s.icu.levels.set t.val ((n, bitsOf (s.rd (icuSrc n)) 34 31) :: icuStack s t.val)) ∧
    ((src.req ≠ t.val ∨ src.world = .opn ∨ coreIdle s t.val = true ∨
      ∀ m, m < 135 → srcListed m = true → deliverPrio s t.val m = 0) →
      exec (.interruptClaim t src) s = .next s ∧ (claimRead s t.val src).2 = 511)

/-- A low reservoir and a tamper erase every key.  When the reservoir runs low no slot holds a key and no load is under way; a detected tamper outside VOID also erases root and activation cells, holds VOID and stops Signet; the end of the erase clears Signet private memory alone and makes a WARM reset due. -/
def Obligations.LostKeysAreGone : Prop :=
  (∀ s t : State, exec .reservoirLow s = .next t → (∀ n, n < 32 → slotKey t n = []) ∧ t.vault.load = none) ∧
  (∀ (k : Fin 6) (s : State), k ≠ 0 → Cores.wf s.cores → tamperArmed s k.val = true → lcState s ≠ 5 →
    ∃ t, exec (.tamperDetect k) s = .next t ∧ (∀ n, n < 32 → slotKey t n = []) ∧ t.vault.load = none ∧
      t.vault.root = false ∧ t.vault.cells = false ∧ t.vault.lc = 5 ∧ t.vault.erasing = true ∧
      (t.core 4).stopped = true) ∧
  (∀ s : State, Memory.wf s.mem = true → s.vault.erasing = true →
    ∃ t, exec .tamperEraseDone s = .next t ∧ t.vault.erasing = false ∧ t.warmDue = some .tamper ∧
      ∀ a, t.nib a = if 0x03000000 ≤ a ∧ a < 0x03040000 then 0 else s.nib a)

/-- A frame that finds the receive ring full is dropped.  Memory, WPOS and LEVEL stand, DROP advances saturating at 65535, DRP is set, and the frame still advances the frame count. -/
def Obligations.FullReceiveRingDrops : Prop :=
  ∀ (s : State) (n : Fin 8) (w0 : Word) (dlc : Nat) (data : List Nat) (stamp : Word), Registers.wf s.regs = true →
    n.val < s.cans.length →
    (rxObjs s n.val).length ≤ s.get (canB n.val) CAN_RXRING_LEVEL →
    let t := canReceive s n.val w0 dlc data stamp
    t.mem = s.mem ∧ t.get (canB n.val) CAN_RXRING_WPOS = s.get (canB n.val) CAN_RXRING_WPOS ∧
    t.get (canB n.val) CAN_RXRING_LEVEL = s.get (canB n.val) CAN_RXRING_LEVEL ∧
    t.get (canB n.val) CAN_RXDROP_DROP = min 65535 (s.get (canB n.val) CAN_RXDROP_DROP + 1) ∧
    t.flag (canB n.val) CAN_IR_DRP = true ∧
    (t.cn n.val).count = ((s.cn n.val).count + 1) % 256

/-- Reads of the capture queue.  A read of an empty queue removes nothing; a read by a Quill core or Signet removes the oldest entry and leaves the other channels; a read by another requester removes nothing. -/
def Obligations.CaptureQueueRead : Prop :=
  ∀ (src : Src) (n : Fin 32) (s : State), s.tmrs.length = 32 → noneAhead s src.req (some .tmr) = true →
    s.ready Blk.tmr.island = true →
    ((s.tm n.val).queue = [] → exec (.timerCapRead src n) s = .next s) ∧
    (4 < src.req → exec (.timerCapRead src n) s = .next s) ∧
    (∀ e q, (s.tm n.val).queue = e :: q → src.req ≤ 4 → ∃ t, exec (.timerCapRead src n) s = .next t ∧
      (t.tm n.val).queue = q ∧ (∀ m, m ≠ n.val → t.tm m = s.tm m))

/-- Debounce of an input.  The first sample after ON is taken directly, with no edge bit and no ruling pulse; after it an equal sample clears the count, a different one advances it, and the debounced value follows when the count reaches DEB. -/
def Obligations.InputSampling : Prop :=
  ∀ (s : State) (n v : Nat), n < s.inp.ins.length → n < 64 → Registers.wf s.regs = true →
    let i := s.ip n
    let t := inpTake s n v
    let j := t.ip n
    (i.first = true → j.deb = v ∧ j.first = false ∧ t.flights = s.flights ∧
      t.rd (inpB + 0xC) = s.rd (inpB + 0xC) ∧ t.rd (inpB + 0x10) = s.rd (inpB + 0x10)) ∧
    (i.first = false → v = i.deb → j.deb = i.deb ∧ j.cnt = 0) ∧
    (i.first = false → v ≠ i.deb → i.cnt + 1 < s.get (inpI n) INP_ICFG_DEB → j.deb = i.deb ∧ j.cnt = i.cnt + 1) ∧
    (i.first = false → v ≠ i.deb → s.get (inpI n) INP_ICFG_DEB ≤ i.cnt + 1 → j.deb = v ∧ j.cnt = 0)

/-- The timebase over REST, PARK and CAPPED.  At the commit of an entry that every island still admits (that another ends the entry is the model's reading, log entry 104) the count is recorded, the timebase and both PLLs stop and no island but AON, and POWER where REST keeps it, is ready; the exit restores the recorded count plus floor(N * 390625 / 128), sets RESTORED and shows N. -/
def Obligations.TimebaseAcrossPark : Prop :=
  (∀ (s : State) (st : PState) (e : Word), Invariant s → s.pwr.entry = some (st, e) → s.reached e = true →
    (e = s.now → exec .parkEntryCommit s = .next (s.waits .parkEntryCommit)) ∧
    (st.code ≤ (islandCaps s).foldl min 5 →
      let t := endOne .parkEntryCommit s
      (e ≠ s.now → exec .parkEntryCommit s = .next t) ∧
      t.tbRun = false ∧ t.tbRec = s.now ∧ t.now = s.now ∧ t.rtcN = 0 ∧
      t.pwr.state = st ∧ t.pwr.entry = none ∧ t.pwr.pll1 = false ∧ t.pwr.pll2 = false ∧
      (∀ i : Island, i ≠ .power → i ≠ .aon → t.ready i = false))) ∧
  (∀ s : State, Invariant s →
    let t := wakeClock s
    t.now = s.tbRec + BitVec.ofNat 36 (s.rtcN * 390625 / 128) ∧ t.tbRun = true ∧ t.get sysB SYS_TBSTAT_RESTORED = 1 ∧
    t.get aonB AON_PARKDUR_N = min (2 ^ 32 - 1) s.rtcN)

/-- Check values of the CRCs and the octets of a word.  CRC-32 and CRC-16 of the digits 1 to 9 are the published check values (that these are the named CRCs is the model's presumption, log entry 7), and a word is five octets, the highest holding its top four bits. -/
def Obligations.CheckValues : Prop :=
  crc32 [0x31, 0x32, 0x33, 0x34, 0x35, 0x36, 0x37, 0x38, 0x39] = 0xCBF43926 ∧
  crc16Run 0xFFFF [0x31, 0x32, 0x33, 0x34, 0x35, 0x36, 0x37, 0x38, 0x39] = 0x29B1 ∧
  wordOctets 0xFEDCBA987 = [15, 0xED, 0xCB, 0xA9, 0x87]

/-- No row of the table gives bits.  decodeTableWord answers none on every word, as no row of the opcode table gives its command bits. -/
def Obligations.NoTableWords : Prop :=
 ∀ nbits w : Nat, decodeTableWord nbits w = none

/-- The words of Valnen-36: decoding and encoding agree.  For every instruction with every operand at every value, the word of the instruction decodes to it; and a word that decodes to an instruction is that instruction's word, so no bit is dropped and no two words spell one instruction. -/
def Obligations.DecodeAndEncodeAgree : Prop :=
  (∀ (i : Instr) (w : Word), encodeWord i = some w → ∃ c, decodeWord c w = some i) ∧
  (∀ (c : CoreId) (w : Word) (i : Instr), decodeWord c w = some i → encodeWord i = some w)

/-- A core runs what the word at its PC spells.  coreStep is exec of the decoded instruction; a word that spells none raises ILLEGAL; outside the cached regions, or with nothing cached, the word is the four nibs at PC. That the instruction a command names is the one at PC is the model's choice (log entry 101). -/
def Obligations.CoreRunsTheWordAtItsPc : Prop :=
  (∀ (c : CoreId) (s : State) (i : Instr), decodeWord c (fetchWord s c).2 = some i → coreStep c s = exec i (fetchWord s c).1) ∧
  (∀ (c : CoreId) (s : State), decodeWord c (fetchWord s c).2 = none → Issues (fetchWord s c).1 c →
    coreStep c s = .next ((fetchWord s c).1.trap c .illegal)) ∧
  (∀ (c : CoreId) (s : State), icached (regionOf s (s.core c.val).pc.toNat) = false ∨ (s.core c.val).icache = [] →
    (fetchWord s c).2 = BitVec.ofNat 36 (s.readNibs (s.core c.val).pc.toNat 4))

/-- The end of a tick, a counting edge and a delivery.  What alone waited for the end of its tick acts there (that it waits is the model's reading, log entry 31); a counting edge advances COUNT or returns it to 0 and sets PER, sets CMPF where COUNT reaches CMP outside capture mode, and ends a one-shot with RUNNING 0 and DONE 1; a line with one destination acts on it and shows its event. -/
def Obligations.WhatATickBrings : Prop :=
  (∀ (s : State) (i : Instr), s.ending = [i] → endTick s = fsafeServe (endOne i { s with ending := [] })) ∧
  (∀ (s : State) (n : Nat), Registers.wf s.regs = true → n < 32 →
    let p := tmrP n
    let t := tmrEdge1 s n
    t.get p TMR_COUNT_COUNT = (if tmrEnds s n then 0 else s.get p TMR_COUNT_COUNT + 1) ∧
    (tmrEnds s n = true → t.get p TMR_STAT_PER = 1) ∧
    (tmrEnds s n = false → t.get p TMR_STAT_PER = s.get p TMR_STAT_PER) ∧
    (tmrMeets s n = true → t.get p TMR_STAT_CMPF = 1) ∧
    (tmrMeets s n = false → t.get p TMR_STAT_CMPF = s.get p TMR_STAT_CMPF) ∧
    (tmrEnds s n = true → tmrMode s n = 1 → t.get p TMR_STAT_RUNNING = 0 ∧ t.get p TMR_STAT_DONE = 1)) ∧
  (∀ (s : State) (l d : Nat), Registers.wf s.regs = true → l < 128 → lineDsts s l = [d] → s.ready (dstIsland d) = true →
    let a := ruleB + 4 + 4 * (l / 32)
    deliver s [l] = ruleAct ((s.setBit a (l % 32) true).mark a (maskOf (l % 32) (l % 32))) d)

/-- Register commands of the channels, the power stage, motion and strokes take effect.  When the write passes every check of its block, the command answers the next state in which the register holds the value its access codes commit and the block has acted on it. Named: PSC_MODE_OFF, PSC_MODE_ON, PSC_MODE_PWM, PSC_MODE_LOWON, PSC_MODE_PWMSYNC, PSC_PWM_WRITE, CHANNEL_UNLOCK, HEARTBEAT_ENABLE, HEARTBEAT_REFRESH, CHANNEL_RECLAIM, MOT_CMD_STOP, MOT_CMD_CLOSE, MOT_CMD_OPEN, MOT_CMD_GOTO, MOT_CMD_LEARN, MOT_CMD_WRUN, MOT_CMD_WINT, MOT_CMD_WSINGLE, MOT_CMD_WPARK, MOT_CMD_DRIVE, MOT_ENABLE_CLEAR, STK_FIRE, STK_RELEASE, STK_ENABLE, STK_ENABLE_CLEAR. -/
def Obligations.ChannelAndMotionWritesComplete : Prop :=
  (∀ (src : Src) (f : Fin 72) (w : Word) (s : State) (d : RegDesc),
    let r : WriteReq := ⟨src, (pscBlk f), pscOff f, .plain, (PSC_CMD_MODE.set 0 w)⟩
    Passes r (pscChk f 0) (s.get (pscP f) PSC_CMD_MODE != 0) s d →
      exec (.pscModeOff src f w) s = .next (Taken r d (pscWritten f 0) s)) ∧
  (∀ (src : Src) (f : Fin 72) (w : Word) (s : State) (d : RegDesc),
    let r : WriteReq := ⟨src, (pscBlk f), pscOff f, .plain, (PSC_CMD_MODE.set 1 w)⟩
    Passes r (pscChk f 0) (s.get (pscP f) PSC_CMD_MODE != 0) s d →
      exec (.pscModeOn src f w) s = .next (Taken r d (pscWritten f 0) s)) ∧
  (∀ (src : Src) (f : Fin 72) (w : Word) (s : State) (d : RegDesc),
    let r : WriteReq := ⟨src, (pscBlk f), pscOff f, .plain, (PSC_CMD_MODE.set 2 w)⟩
    Passes r (pscChk f 0) (s.get (pscP f) PSC_CMD_MODE != 0) s d →
      exec (.pscModePwm src f w) s = .next (Taken r d (pscWritten f 0) s)) ∧
  (∀ (src : Src) (f : Fin 72) (w : Word) (s : State) (d : RegDesc),
    let r : WriteReq := ⟨src, (pscBlk f), pscOff f, .plain, (PSC_CMD_MODE.set 3 w)⟩
    Passes r (pscChk f 0) (s.get (pscP f) PSC_CMD_MODE != 0) s d →
      exec (.pscModeLowon src f w) s = .next (Taken r d (pscWritten f 0) s)) ∧
  (∀ (src : Src) (f : Fin 72) (w : Word) (s : State) (d : RegDesc),
    let r : WriteReq := ⟨src, (pscBlk f), pscOff f, .plain, (PSC_CMD_MODE.set 4 w)⟩
    Passes r (pscChk f 0) (s.get (pscP f) PSC_CMD_MODE != 0) s d →
      exec (.pscModePwmsync src f w) s = .next (Taken r d (pscWritten f 0) s)) ∧
  (∀ (src : Src) (f : Fin 72) (w : Word) (s : State) (d : RegDesc),
    let r : WriteReq := ⟨src, (pscBlk f), pscOff f + 4, .plain, w⟩
    Passes r (pscChk f 4) (s.get (pscP f) PSC_CMD_MODE != 0) s d →
      exec (.pscPwmWrite src f w) s = .next (Taken r d (pscWritten f 4) s)) ∧
  (∀ (src : Src) (f : Fin 72) (w : Word) (s : State) (d : RegDesc),
    let r : WriteReq := ⟨src, (pscBlk f), pscOff f + 0x28, .plain, (PSC_FAULT_LOCK.set 1 w)⟩
    Passes r (pscChk f 0x28) (s.get (pscP f) PSC_CMD_MODE != 0) s d →
      exec (.channelUnlock src f w) s = .next (Taken r d (pscWritten f 0x28) s)) ∧
  (∀ (src : Src) (w : Word) (s : State) (d : RegDesc),
    let r : WriteReq := ⟨src, .psg, 0, .plain, (PSG_CTRL_HBEN.set 1 w)⟩
    Passes r (psgChk src 0) false s d →
      exec (.heartbeatEnable src w) s = .next (Taken r d (psgWritten src 0) s)) ∧
  (∀ (src : Src) (w : Word) (s : State) (d : RegDesc),
    let r : WriteReq := ⟨src, .psg, 4, .plain, w⟩
    Passes r (psgChk src 4) false s d →
      exec (.heartbeatRefresh src w) s = .next (Taken r d (psgWritten src 4) s)) ∧
  (∀ (src : Src) (w : Word) (s : State) (d : RegDesc),
    let r : WriteReq := ⟨src, .psg, 0x18, .plain, w⟩
    Passes r (psgChk src 0x18) false s d →
      exec (.channelReclaim src w) s = .next (Taken r d (psgWritten src 0x18) s)) ∧
  (∀ (src : Src) (k : Fin 6) (w : Word) (s : State) (d : RegDesc),
    let r : WriteReq := ⟨src, .mot, 0x104 + k * 0x100, .plain, (MOT_CMD_OP.set 0 w)⟩
    Passes r (motChk k 4) (s.flag (motP k) MOT_CTRL_EN || (s.mo k).counting) s d →
      exec (.motCmdStop src k w) s = .next (Taken r d (motWritten k 4) s)) ∧
  (∀ (src : Src) (k : Fin 6) (w : Word) (s : State) (d : RegDesc),
    let r : WriteReq := ⟨src, .mot, 0x104 + k * 0x100, .plain, (MOT_CMD_OP.set 1 w)⟩
    Passes r (motChk k 4) (s.flag (motP k) MOT_CTRL_EN || (s.mo k).counting) s d →
      exec (.motCmdClose src k w) s = .next (Taken r d (motWritten k 4) s)) ∧
  (∀ (src : Src) (k : Fin 6) (w : Word) (s : State) (d : RegDesc),
    let r : WriteReq := ⟨src, .mot, 0x104 + k * 0x100, .plain, (MOT_CMD_OP.set 2 w)⟩
    Passes r (motChk k 4) (s.flag (motP k) MOT_CTRL_EN || (s.mo k).counting) s d →
      exec (.motCmdOpen src k w) s = .next (Taken r d (motWritten k 4) s)) ∧
  (∀ (src : Src) (k : Fin 6) (w : Word) (s : State) (d : RegDesc),
    let r : WriteReq := ⟨src, .mot, 0x104 + k * 0x100, .plain, (MOT_CMD_OP.set 3 w)⟩
    Passes r (motChk k 4) (s.flag (motP k) MOT_CTRL_EN || (s.mo k).counting) s d →
      exec (.motCmdGoto src k w) s = .next (Taken r d (motWritten k 4) s)) ∧
  (∀ (src : Src) (k : Fin 6) (w : Word) (s : State) (d : RegDesc),
    let r : WriteReq := ⟨src, .mot, 0x104 + k * 0x100, .plain, (MOT_CMD_OP.set 4 w)⟩
    Passes r (motChk k 4) (s.flag (motP k) MOT_CTRL_EN || (s.mo k).counting) s d →
      exec (.motCmdLearn src k w) s = .next (Taken r d (motWritten k 4) s)) ∧
  (∀ (src : Src) (k : Fin 6) (w : Word) (s : State) (d : RegDesc),
    let r : WriteReq := ⟨src, .mot, 0x104 + k * 0x100, .plain, (MOT_CMD_OP.set 5 w)⟩
    Passes r (motChk k 4) (s.flag (motP k) MOT_CTRL_EN || (s.mo k).counting) s d →
      exec (.motCmdWrun src k w) s = .next (Taken r d (motWritten k 4) s)) ∧
  (∀ (src : Src) (k : Fin 6) (w : Word) (s : State) (d : RegDesc),
    let r : WriteReq := ⟨src, .mot, 0x104 + k * 0x100, .plain, (MOT_CMD_OP.set 6 w)⟩
    Passes r (motChk k 4) (s.flag (motP k) MOT_CTRL_EN || (s.mo k).counting) s d →
      exec (.motCmdWint src k w) s = .next (Taken r d (motWritten k 4) s)) ∧
  (∀ (src : Src) (k : Fin 6) (w : Word) (s : State) (d : RegDesc),
    let r : WriteReq := ⟨src, .mot, 0x104 + k * 0x100, .plain, (MOT_CMD_OP.set 7 w)⟩
    Passes r (motChk k 4) (s.flag (motP k) MOT_CTRL_EN || (s.mo k).counting) s d →
      exec (.motCmdWsingle src k w) s = .next (Taken r d (motWritten k 4) s)) ∧
  (∀ (src : Src) (k : Fin 6) (w : Word) (s : State) (d : RegDesc),
    let r : WriteReq := ⟨src, .mot, 0x104 + k * 0x100, .plain, (MOT_CMD_OP.set 8 w)⟩
    Passes r (motChk k 4) (s.flag (motP k) MOT_CTRL_EN || (s.mo k).counting) s d →
      exec (.motCmdWpark src k w) s = .next (Taken r d (motWritten k 4) s)) ∧
  (∀ (src : Src) (k : Fin 6) (w : Word) (s : State) (d : RegDesc),
    let r : WriteReq := ⟨src, .mot, 0x104 + k * 0x100, .plain, (MOT_CMD_OP.set 9 w)⟩
    Passes r (motChk k 4) (s.flag (motP k) MOT_CTRL_EN || (s.mo k).counting) s d →
      exec (.motCmdDrive src k w) s = .next (Taken r d (motWritten k 4) s)) ∧
  (∀ (src : Src) (k : Fin 6) (w : Word) (s : State) (d : RegDesc),
    let r : WriteReq := ⟨src, .mot, 0x100 + k * 0x100, .plain, (MOT_CTRL_EN.set 0 w)⟩
    Passes r (motChk k 0) (s.flag (motP k) MOT_CTRL_EN || (s.mo k).counting) s d →
      exec (.motEnableClear src k w) s = .next (Taken r d (motWritten k 0) s)) ∧
  (∀ (src : Src) (k : Fin 16) (w : Word) (s : State) (d : RegDesc),
    let r : WriteReq := ⟨src, .stk, 0x108 + k * 0x100, .plain, (STK_CMD_OP.set 1 w)⟩
    Passes r (stkChk k 8) (s.flag (stkP k) STK_CTRL_EN) s d →
      exec (.stkFire src k w) s = .next (Taken r d (stkWritten k 8) s)) ∧
  (∀ (src : Src) (k : Fin 16) (w : Word) (s : State) (d : RegDesc),
    let r : WriteReq := ⟨src, .stk, 0x108 + k * 0x100, .plain, (STK_CMD_OP.set 0 w)⟩
    Passes r (stkChk k 8) (s.flag (stkP k) STK_CTRL_EN) s d →
      exec (.stkRelease src k w) s = .next (Taken r d (stkWritten k 8) s)) ∧
  (∀ (src : Src) (k : Fin 16) (w : Word) (s : State) (d : RegDesc),
    let r : WriteReq := ⟨src, .stk, 0x100 + k * 0x100, .plain, (STK_CTRL_EN.set 1 w)⟩
    Passes r (stkChk k 0) (s.flag (stkP k) STK_CTRL_EN) s d →
      exec (.stkEnable src k w) s = .next (Taken r d (stkWritten k 0) s)) ∧
  (∀ (src : Src) (k : Fin 16) (w : Word) (s : State) (d : RegDesc),
    let r : WriteReq := ⟨src, .stk, 0x100 + k * 0x100, .plain, (STK_CTRL_EN.set 0 w)⟩
    Passes r (stkChk k 0) (s.flag (stkP k) STK_CTRL_EN) s d →
      exec (.stkEnableClear src k w) s = .next (Taken r d (stkWritten k 0) s))

/-- Register commands of lighting, inputs, timers and ruling take effect.  When the write passes every check of its block, the command answers the next state in which the register holds the value its access codes commit and the block has acted on it. Named: ST_MODE_OFF, ST_MODE_ON, ST_MODE_PWM, SK_MODE_OFF, SK_MODE_ON, SK_MODE_PWM, STRING_UNLOCK, MATRIX_ENABLE, MATRIX_SWAP, MATRIX_ROW_UNLOCK, LIGHT_RECLAIM, LCH_ENABLE, LCH_GO, LCH_SWAP, INPUT_ENABLE, ADC_ENABLE, TIMER_ENABLE, TIMER_DISABLE, TIMER_CMD_START, TIMER_CMD_STOP, TIMER_GLOBAL_START, RULE_SOFTWARE_PULSE. -/
def Obligations.LightInputTimerWritesComplete : Prop :=
  (∀ (src : Src) (n : Fin 8) (w : Word) (s : State) (d : RegDesc),
    let r : WriteReq := ⟨src, .lgt, 0x100 + n * 0x100, .plain, (LGT_STCMD_MODE.set 0 w)⟩
    Passes r (strChk n 0) (s.get (stP n) LGT_STCMD_MODE != 0) s d →
      exec (.stModeOff src n w) s = .next (Taken r d (strWritten n 0) s)) ∧
  (∀ (src : Src) (n : Fin 8) (w : Word) (s : State) (d : RegDesc),
    let r : WriteReq := ⟨src, .lgt, 0x100 + n * 0x100, .plain, (LGT_STCMD_MODE.set 1 w)⟩
    Passes r (strChk n 0) (s.get (stP n) LGT_STCMD_MODE != 0) s d →
      exec (.stModeOn src n w) s = .next (Taken r d (strWritten n 0) s)) ∧
  (∀ (src : Src) (n : Fin 8) (w : Word) (s : State) (d : RegDesc),
    let r : WriteReq := ⟨src, .lgt, 0x100 + n * 0x100, .plain, (LGT_STCMD_MODE.set 2 w)⟩
    Passes r (strChk n 0) (s.get (stP n) LGT_STCMD_MODE != 0) s d →
      exec (.stModePwm src n w) s = .next (Taken r d (strWritten n 0) s)) ∧
  (∀ (src : Src) (n : Fin 48) (w : Word) (s : State) (d : RegDesc),
    let r : WriteReq := ⟨src, .lgt, 0xA00 + n * 0x20, .plain, (LGT_SKCMD_MODE.set 0 w)⟩
    Passes r (sinkChk n 0) (s.get (skP n) LGT_SKCMD_MODE != 0) s d →
      exec (.skModeOff src n w) s = .next (Taken r d (sinkWritten n 0) s)) ∧
  (∀ (src : Src) (n : Fin 48) (w : Word) (s : State) (d : RegDesc),
    let r : WriteReq := ⟨src, .lgt, 0xA00 + n * 0x20, .plain, (LGT_SKCMD_MODE.set 1 w)⟩
    Passes r (sinkChk n 0) (s.get (skP n) LGT_SKCMD_MODE != 0) s d →
      exec (.skModeOn src n w) s = .next (Taken r d (sinkWritten n 0) s)) ∧
  (∀ (src : Src) (n : Fin 48) (w : Word) (s : State) (d : RegDesc),
    let r : WriteReq := ⟨src, .lgt, 0xA00 + n * 0x20, .plain, (LGT_SKCMD_MODE.set 2 w)⟩
    Passes r (sinkChk n 0) (s.get (skP n) LGT_SKCMD_MODE != 0) s d →
      exec (.skModePwm src n w) s = .next (Taken r d (sinkWritten n 0) s)) ∧
  (∀ (src : Src) (n : Fin 8) (w : Word) (s : State) (d : RegDesc),
    let r : WriteReq := ⟨src, .lgt, 0x11C + n * 0x100, .plain, (LGT_STFAULT_LOCK.set 1 w)⟩
    Passes r (strChk n 0x1C) (s.get (stP n) LGT_STCMD_MODE != 0) s d →
      exec (.stringUnlock src n w) s = .next (Taken r d (strWritten n 0x1C) s)) ∧
  (∀ (src : Src) (w : Word) (s : State) (d : RegDesc),
    let r : WriteReq := ⟨src, .lgt, 0x1000, .plain, (LGT_MXCTRL_EN.set 1 w)⟩
    Passes r (mxChk 0x1000) (s.flag lgt LGT_MXCTRL_EN) s d →
      exec (.matrixEnable src w) s = .next (Taken r d (mxWritten 0x1000) s)) ∧
  (∀ (src : Src) (w : Word) (s : State) (d : RegDesc),
    let r : WriteReq := ⟨src, .lgt, 0x1000, .plain, (LGT_MXCTRL_SWAP.set 1 w)⟩
    Passes r (mxChk 0x1000) (s.flag lgt LGT_MXCTRL_EN) s d →
      exec (.matrixSwap src w) s = .next (Taken r d (mxWritten 0x1000) s)) ∧
  (∀ (src : Src) (w : Word) (s : State) (d : RegDesc),
    let r : WriteReq := ⟨src, .lgt, 0x1004, .plain, w⟩
    Passes r (mxChk 0x1004) (s.flag lgt LGT_MXCTRL_EN) s d →
      exec (.matrixRowUnlock src w) s = .next (Taken r d (mxWritten 0x1004) s)) ∧
  (∀ (src : Src) (w : Word) (s : State) (d : RegDesc),
    let r : WriteReq := ⟨src, .lgt, 0xC, .plain, w⟩
    Passes r (lgtChk 0xC) false s d →
      exec (.lightReclaim src w) s = .next (Taken r d (lgtWritten 0xC) s)) ∧
  (∀ (src : Src) (w : Word) (s : State) (d : RegDesc),
    let r : WriteReq := ⟨src, .lch, 0, .plain, (LCH_CTRL_EN.set 1 w)⟩
    Passes r (lchChk 0) (s.flag lch LCH_CTRL_EN) s d →
      exec (.lchEnable src w) s = .next (Taken r d (lchWritten 0) s)) ∧
  (∀ (src : Src) (w : Word) (s : State) (d : RegDesc),
    let r : WriteReq := ⟨src, .lch, 0, .plain, (LCH_CTRL_GO.set 1 w)⟩
    Passes r (lchChk 0) (s.flag lch LCH_CTRL_EN) s d →
      exec (.lchGo src w) s = .next (Taken r d (lchWritten 0) s)) ∧
  (∀ (src : Src) (w : Word) (s : State) (d : RegDesc),
    let r : WriteReq := ⟨src, .lch, 0, .plain, (LCH_CTRL_SWAP.set 1 w)⟩
    Passes r (lchChk 0) (s.flag lch LCH_CTRL_EN) s d →
      exec (.lchSwap src w) s = .next (Taken r d (lchWritten 0) s)) ∧
  (∀ (src : Src) (n : Fin 64) (w : Word) (s : State) (d : RegDesc),
    let r : WriteReq := ⟨src, .inp, 0x100 + 4 * n, .plain, (INP_ICFG_ON.set 1 w)⟩
    Passes r (inpChk (0x100 + 4 * n)) (inpLocked (0x100 + 4 * n) s) s d →
      exec (.inputEnable src n w) s = .next (Taken r d (inpWritten (0x100 + 4 * n)) s)) ∧
  (∀ (src : Src) (w : Word) (s : State) (d : RegDesc),
    let r : WriteReq := ⟨src, .inp, 0x200, .plain, (INP_ADCTRL_EN.set 1 w)⟩
    Passes r (inpChk (0x200)) (inpLocked (0x200) s) s d →
      exec (.adcEnable src w) s = .next (Taken r d (inpWritten (0x200)) s)) ∧
  (∀ (src : Src) (n : Fin 32) (w : Word) (s : State) (d : RegDesc),
    let r : WriteReq := ⟨src, .tmr, 0x100 + n * 0x40, .plain, (TMR_CTRL_EN.set 1 w)⟩
    Passes r (tmrChk n 0) (tmrEn s n) s d →
      exec (.timerEnable src n w) s = .next (Taken r d (tmrWritten n 0) s)) ∧
  (∀ (src : Src) (n : Fin 32) (w : Word) (s : State) (d : RegDesc),
    let r : WriteReq := ⟨src, .tmr, 0x100 + n * 0x40, .plain, (TMR_CTRL_EN.set 0 w)⟩
    Passes r (tmrChk n 0) (tmrEn s n) s d →
      exec (.timerDisable src n w) s = .next (Taken r d (tmrWritten n 0) s)) ∧
  (∀ (src : Src) (n : Fin 32) (w : Word) (s : State) (d : RegDesc),
    let r : WriteReq := ⟨src, .tmr, 0x110 + n * 0x40, .plain, (TMR_CMD_OP.set 1 w)⟩
    Passes r (tmrChk n 0x10) (tmrEn s n) s d →
      exec (.timerCmdStart src n w) s = .next (Taken r d (tmrWritten n 0x10) s)) ∧
  (∀ (src : Src) (n : Fin 32) (w : Word) (s : State) (d : RegDesc),
    let r : WriteReq := ⟨src, .tmr, 0x110 + n * 0x40, .plain, (TMR_CMD_OP.set 2 w)⟩
    Passes r (tmrChk n 0x10) (tmrEn s n) s d →
      exec (.timerCmdStop src n w) s = .next (Taken r d (tmrWritten n 0x10) s)) ∧
  (∀ (src : Src) (w : Word) (s : State) (d : RegDesc),
    let r : WriteReq := ⟨src, .tmr, 0, .plain, w⟩
    Passes r (tmrGoChk 0) false s d →
      exec (.timerGlobalStart src w) s = .next (Taken r d (tmrGoWritten 0) s)) ∧
  (∀ (src : Src) (w : Word) (s : State) (d : RegDesc),
    let r : WriteReq := ⟨src, .rule, 0, .plain, w⟩
    Passes r (ruleChk 0) false s d →
      exec (.ruleSoftwarePulse src w) s = .next (Taken r d (ruleWritten 0) s))

/-- Register commands of CAN, LIN, Ethernet, the ring and network management take effect.  When the write passes every check of its block, the command answers the next state in which the register holds the value its access codes commit and the block has acted on it. Named: CAN_ENABLE, CAN_DISABLE, CAN_RX_RELEASE, CAN_TX_REQUEST, CAN_TX_CANCEL, CAN_SEAL_WRITE, CAN_RECOVER, LIN_GOSLEEP, LIN_WAKE_SEND, ETH_TX_KICK, RING_ENABLE, RING_TXGO, RING_RX_RELEASE, RING_WAKE_TONE, RING_CRYPT_CONFIG, NMG_ENABLE, NMG_DISABLE, NMG_REQUEST, NMG_RELEASE, NMG_LOG_CLEAR. -/
def Obligations.NetworkWritesComplete : Prop :=
  (∀ (src : Src) (n : Fin 8) (w : Word) (s : State) (d : RegDesc),
    let r : WriteReq := ⟨src, .can n, 0, .plain, (CAN_CTRL_EN.set 1 w)⟩
    Passes r (fun s x => canChk s n src (0) x) (canLocked s n) s d →
      exec (.canEnable src n w) s = .next (Taken r d (fun s old x => canWritten s n (0) old x) s)) ∧
  (∀ (src : Src) (n : Fin 8) (w : Word) (s : State) (d : RegDesc),
    let r : WriteReq := ⟨src, .can n, 0, .plain, (CAN_CTRL_EN.set 0 w)⟩
    Passes r (fun s x => canChk s n src (0) x) (canLocked s n) s d →
      exec (.canDisable src n w) s = .next (Taken r d (fun s old x => canWritten s n (0) old x) s)) ∧
  (∀ (src : Src) (n : Fin 8) (w : Word) (s : State) (d : RegDesc),
    let r : WriteReq := ⟨src, .can n, 0x20, .plain, w⟩
    Passes r (fun s x => canChk s n src (0x20) x) (canLocked s n) s d →
      exec (.canRxRelease src n w) s = .next (Taken r d (fun s old x => canWritten s n (0x20) old x) s)) ∧
  (∀ (src : Src) (n : Fin 8) (k : Fin 8) (w : Word) (s : State) (d : RegDesc),
    let r : WriteReq := ⟨src, .can n, 0x60 + 4 * k, .plain, w⟩
    Passes r (fun s x => canChk s n src (0x60 + 4 * k) x) (canLocked s n) s d →
      exec (.canTxRequest src n k w) s = .next (Taken r d (fun s old x => canWritten s n (0x60 + 4 * k) old x) s)) ∧
  (∀ (src : Src) (n : Fin 8) (w : Word) (s : State) (d : RegDesc),
    let r : WriteReq := ⟨src, .can n, 0x24, .plain, w⟩
    Passes r (fun s x => canChk s n src (0x24) x) (canLocked s n) s d →
      exec (.canTxCancel src n w) s = .next (Taken r d (fun s old x => canWritten s n (0x24) old x) s)) ∧
  (∀ (src : Src) (n : Fin 8) (w : Word) (s : State) (d : RegDesc),
    let r : WriteReq := ⟨src, .can n, 0x30, .plain, w⟩
    Passes r (fun s x => canChk s n src (0x30) x) (canLocked s n) s d →
      exec (.canSealWrite src n w) s = .next (Taken r d (fun s old x => canWritten s n (0x30) old x) s)) ∧
  (∀ (src : Src) (n : Fin 8) (w : Word) (s : State) (d : RegDesc),
    let r : WriteReq := ⟨src, .can n, 0, .plain, (CAN_CTRL_RECOVER.set 1 w)⟩
    Passes r (fun s x => canChk s n src (0) x) (canLocked s n) s d →
      exec (.canRecover src n w) s = .next (Taken r d (fun s old x => canWritten s n (0) old x) s)) ∧
  (∀ (src : Src) (n : Fin 12) (w : Word) (s : State) (d : RegDesc),
    let r : WriteReq := ⟨src, .lin n, 0, .plain, (LIN_CTRL_GOSLEEP.set 1 w)⟩
    Passes r (fun s x => linChk s n 0 x) (s.flag (linB n) LIN_CTRL_EN) s d →
      exec (.linGosleep src n w) s = .next (Taken r d (fun s old x => linWritten s n 0 old x) s)) ∧
  (∀ (src : Src) (n : Fin 12) (w : Word) (s : State) (d : RegDesc),
    let r : WriteReq := ⟨src, .lin n, 0, .plain, (LIN_CTRL_WAKE.set 1 w)⟩
    Passes r (fun s x => linChk s n 0 x) (s.flag (linB n) LIN_CTRL_EN) s d →
      exec (.linWakeSend src n w) s = .next (Taken r d (fun s old x => linWritten s n 0 old x) s)) ∧
  (∀ (src : Src) (p : Fin 6) (w : Word) (s : State) (d : RegDesc),
    let r : WriteReq := ⟨src, (ethBlk p.val), 0x20, .plain, (ETH_TXKICK_GO.set 1 w)⟩
    Passes r (fun s x => ethChk s p 0x20 x) (s.flag (ethB p) ETH_CTRL_EN) s d →
      exec (.ethTxKick src p w) s = .next (Taken r d (fun s old x => ethWritten s p 0x20 old x) s)) ∧
  (∀ (src : Src) (w : Word) (s : State) (d : RegDesc),
    let r : WriteReq := ⟨src, .ring, 0, .plain, (RING_CTRL_EN.set 1 w)⟩
    Passes r (fun s x => ringChk s src 0 x) (s.flag ringB RING_CTRL_EN) s d →
      exec (.ringEnable src w) s = .next (Taken r d (fun s old x => ringWritten s 0 old x) s)) ∧
  (∀ (src : Src) (w : Word) (s : State) (d : RegDesc),
    let r : WriteReq := ⟨src, .ring, 0x20, .plain, w⟩
    Passes r (fun s x => ringChk s src 0x20 x) (s.flag ringB RING_CTRL_EN) s d →
      exec (.ringTxgo src w) s = .next (Taken r d (fun s old x => ringWritten s 0x20 old x) s)) ∧
  (∀ (src : Src) (w : Word) (s : State) (d : RegDesc),
    let r : WriteReq := ⟨src, .ring, 0x28, .plain, w⟩
    Passes r (fun s x => ringChk s src 0x28 x) (s.flag ringB RING_CTRL_EN) s d →
      exec (.ringRxRelease src w) s = .next (Taken r d (fun s old x => ringWritten s 0x28 old x) s)) ∧
  (∀ (src : Src) (w : Word) (s : State) (d : RegDesc),
    let r : WriteReq := ⟨src, .ring, 0, .plain, (RING_CTRL_WAKE.set 1 w)⟩
    Passes r (fun s x => ringChk s src 0 x) (s.flag ringB RING_CTRL_EN) s d →
      exec (.ringWakeTone src w) s = .next (Taken r d (fun s old x => ringWritten s 0 old x) s)) ∧
  (∀ (src : Src) (w : Word) (s : State) (d : RegDesc),
    let r : WriteReq := ⟨src, .ring, 0x38, .plain, w⟩
    Passes r (fun s x => ringChk s src 0x38 x) (s.flag ringB RING_CTRL_EN) s d →
      exec (.ringCryptConfig src w) s = .next (Taken r d (fun s old x => ringWritten s 0x38 old x) s)) ∧
  (∀ (src : Src) (c : Fin 12) (w : Word) (s : State) (d : RegDesc),
    let r : WriteReq := ⟨src, .nmg, 0x100 + c * 0x40, .plain, (NMG_CTRL_EN.set 1 w)⟩
    Passes r (fun s x => nmgChk s c 0 x) (s.flag (nmgP c) NMG_CTRL_EN) s d →
      exec (.nmgEnable src c w) s = .next (Taken r d (nmgWritten c 0) s)) ∧
  (∀ (src : Src) (c : Fin 12) (w : Word) (s : State) (d : RegDesc),
    let r : WriteReq := ⟨src, .nmg, 0x100 + c * 0x40, .plain, (NMG_CTRL_EN.set 0 w)⟩
    Passes r (fun s x => nmgChk s c 0 x) (s.flag (nmgP c) NMG_CTRL_EN) s d →
      exec (.nmgDisable src c w) s = .next (Taken r d (nmgWritten c 0) s)) ∧
  (∀ (src : Src) (c : Fin 12) (w : Word) (s : State) (d : RegDesc),
    let r : WriteReq := ⟨src, .nmg, 0x100 + c * 0x40, .plain, (NMG_CTRL_REQ.set 1 w)⟩
    Passes r (fun s x => nmgChk s c 0 x) (s.flag (nmgP c) NMG_CTRL_EN) s d →
      exec (.nmgRequest src c w) s = .next (Taken r d (nmgWritten c 0) s)) ∧
  (∀ (src : Src) (c : Fin 12) (w : Word) (s : State) (d : RegDesc),
    let r : WriteReq := ⟨src, .nmg, 0x100 + c * 0x40, .plain, (NMG_CTRL_REQ.set 0 w)⟩
    Passes r (fun s x => nmgChk s c 0 x) (s.flag (nmgP c) NMG_CTRL_EN) s d →
      exec (.nmgRelease src c w) s = .next (Taken r d (nmgWritten c 0) s)) ∧
  (∀ (src : Src) (w : Word) (s : State) (d : RegDesc),
    let r : WriteReq := ⟨src, .nmg, 4, .plain, (NMG_LOGCTL_CLR.set 1 w)⟩
    Passes r (fun _ _ => []) false s d →
      exec (.nmgLogClear src w) s = .next (Taken r d (nmgLogHook 4) s))

/-- Register commands of the vault, CRYPT and the access unit take effect.  When the write passes every check of its block, the command answers the next state in which the register holds the value its access codes commit and the block has acted on it. Named: LC_ENROLL, LC_OWNER, LC_FIELD, LC_NEWCHAL, LC_SERVICE, LC_ENDSVC, LC_RETURN, LC_VOID, KEY_LOAD, KEY_CLEAR, KEY_RESTRICT, SEAL_REPLY, CRYPT_JOB_START, ACC_ENABLE, ACC_DISABLE, ACC_LEARN, ACC_IMPORT. -/
def Obligations.VaultAndAccessWritesComplete : Prop :=
  (∀ (src : Src) (w : Word) (s : State) (d : RegDesc),
    let r : WriteReq := ⟨src, .vault, 4, .plain, (VAULT_LCCMD_OP.set 1 w)⟩
    Passes r (vaultChk r) false s d →
      exec (.lcEnroll src w) s = .next (Taken r d (vaultWritten r) s)) ∧
  (∀ (src : Src) (w : Word) (s : State) (d : RegDesc),
    let r : WriteReq := ⟨src, .vault, 4, .plain, (VAULT_LCCMD_OP.set 2 w)⟩
    Passes r (vaultChk r) false s d →
      exec (.lcOwner src w) s = .next (Taken r d (vaultWritten r) s)) ∧
  (∀ (src : Src) (w : Word) (s : State) (d : RegDesc),
    let r : WriteReq := ⟨src, .vault, 4, .plain, (VAULT_LCCMD_OP.set 3 w)⟩
    Passes r (vaultChk r) false s d →
      exec (.lcField src w) s = .next (Taken r d (vaultWritten r) s)) ∧
  (∀ (src : Src) (w : Word) (s : State) (d : RegDesc),
    let r : WriteReq := ⟨src, .vault, 4, .plain, (VAULT_LCCMD_OP.set 4 w)⟩
    Passes r (vaultChk r) false s d →
      exec (.lcNewchal src w) s = .next (Taken r d (vaultWritten r) s)) ∧
  (∀ (src : Src) (w : Word) (s : State) (d : RegDesc),
    let r : WriteReq := ⟨src, .vault, 4, .plain, (VAULT_LCCMD_OP.set 5 w)⟩
    Passes r (vaultChk r) false s d →
      exec (.lcService src w) s = .next (Taken r d (vaultWritten r) s)) ∧
  (∀ (src : Src) (w : Word) (s : State) (d : RegDesc),
    let r : WriteReq := ⟨src, .vault, 4, .plain, (VAULT_LCCMD_OP.set 6 w)⟩
    Passes r (vaultChk r) false s d →
      exec (.lcEndsvc src w) s = .next (Taken r d (vaultWritten r) s)) ∧
  (∀ (src : Src) (w : Word) (s : State) (d : RegDesc),
    let r : WriteReq := ⟨src, .vault, 4, .plain, (VAULT_LCCMD_OP.set 7 w)⟩
    Passes r (vaultChk r) false s d →
      exec (.lcReturn src w) s = .next (Taken r d (vaultWritten r) s)) ∧
  (∀ (src : Src) (w : Word) (s : State) (d : RegDesc),
    let r : WriteReq := ⟨src, .vault, 4, .plain, (VAULT_LCCMD_OP.set 8 w)⟩
    Passes r (vaultChk r) false s d →
      exec (.lcVoid src w) s = .next (Taken r d (vaultWritten r) s)) ∧
  (∀ (src : Src) (w : Word) (s : State) (d : RegDesc),
    let r : WriteReq := ⟨src, .vault, 8, .plain, (VAULT_KCMD_OP.set 1 w)⟩
    Passes r (vaultChk r) false s d →
      exec (.keyLoad src w) s = .next (Taken r d (vaultWritten r) s)) ∧
  (∀ (src : Src) (w : Word) (s : State) (d : RegDesc),
    let r : WriteReq := ⟨src, .vault, 8, .plain, (VAULT_KCMD_OP.set 2 w)⟩
    Passes r (vaultChk r) false s d →
      exec (.keyClear src w) s = .next (Taken r d (vaultWritten r) s)) ∧
  (∀ (src : Src) (w : Word) (s : State) (d : RegDesc),
    let r : WriteReq := ⟨src, .vault, 8, .plain, (VAULT_KCMD_OP.set 3 w)⟩
    Passes r (vaultChk r) false s d →
      exec (.keyRestrict src w) s = .next (Taken r d (vaultWritten r) s)) ∧
  (∀ (src : Src) (c : Fin 4) (w : Word) (s : State) (d : RegDesc),
    let r : WriteReq := ⟨src, .vault, 0x818 + 0x20 * c, .plain, w⟩
    Passes r (vaultChk r) false s d →
      exec (.sealReply src c w) s = .next (Taken r d (vaultWritten r) s)) ∧
  (∀ (src : Src) (w : Word) (s : State) (d : RegDesc),
    let r : WriteReq := ⟨src, .crypt, 0, .plain, (CRYPT_JOB_GO.set 1 w)⟩
    Passes r (cryptChk r) (cryptBusy s) s d →
      exec (.cryptJobStart src w) s = .next (Taken r d (cryptWritten 0) s)) ∧
  (∀ (src : Src) (w : Word) (s : State) (d : RegDesc),
    let r : WriteReq := ⟨src, .acc, 0, .plain, (ACC_CTRL_EN.set 1 w)⟩
    Passes r (accChk src 0) (s.flag accB ACC_CTRL_EN) s d →
      exec (.accEnable src w) s = .next (Taken r d (accWritten 0) s)) ∧
  (∀ (src : Src) (w : Word) (s : State) (d : RegDesc),
    let r : WriteReq := ⟨src, .acc, 0, .plain, (ACC_CTRL_EN.set 0 w)⟩
    Passes r (accChk src 0) (s.flag accB ACC_CTRL_EN) s d →
      exec (.accDisable src w) s = .next (Taken r d (accWritten 0) s)) ∧
  (∀ (src : Src) (s : State) (d : RegDesc),
    let r : WriteReq := ⟨src, .acc, 0x1C, .plain, (ACC_LEARN_OP.set 1 0)⟩
    Passes r (accChk src 0x1C) (s.flag accB ACC_CTRL_EN) s d →
      exec (.accLearn src) s = .next (Taken r d (accWritten 0x1C) s)) ∧
  (∀ (src : Src) (s : State) (d : RegDesc),
    let r : WriteReq := ⟨src, .acc, 0x1C, .plain, (ACC_LEARN_OP.set 2 0)⟩
    Passes r (accChk src 0x1C) (s.flag accB ACC_CTRL_EN) s d →
      exec (.accImport src) s = .next (Taken r d (accWritten 0x1C) s))

/-- Register commands of the folio, the interrupt controller, the safety manager and the system take effect.  When the write passes every check of its block, the command answers the next state in which the register holds the value its access codes commit and the block has acted on it. A write to the always-on block waits for the next 32.768 kHz edge. Named: FOLIO_REFOLD_OWN, FOLIO_REFOLD_OTHER, FOLIO_VERIFY_OTHER, INTERRUPT_EOI, ICU_SOURCE_CONFIG, SAFE_REACTION_CONFIG, UPD_BEGIN, UPD_DATA, UPD_END, UPD_ABORT, UPD_DKIMPORT, ED_ARM, ED_ARMNOW, ED_DISARM, ED_CONFIRM, ED_REVERT, ED_RETRYISL, ED_RECOVER, NV_ROW_WRITE, PAD_RELEASE, RTC_SET, RTC_ALARM_SET. -/
def Obligations.SystemWritesComplete : Prop :=
  (∀ (src : Src) (s : State) (d : RegDesc),
    let r : WriteReq := ⟨src, .folio, 4, .plain, (FOLIO_CMD_KEY.set 0xA5 (FOLIO_CMD_OP.set 1 0))⟩
    Passes r (folioChk r) false s d →
      exec (.folioRefoldOwn src) s = .next (Taken r d (folioWritten r) s)) ∧
  (∀ (src : Src) (s : State) (d : RegDesc),
    let r : WriteReq := ⟨src, .folio, 4, .plain, (FOLIO_CMD_KEY.set 0xA5 (FOLIO_CMD_OP.set 2 0))⟩
    Passes r (folioChk r) false s d →
      exec (.folioRefoldOther src) s = .next (Taken r d (folioWritten r) s)) ∧
  (∀ (src : Src) (s : State) (d : RegDesc),
    let r : WriteReq := ⟨src, .folio, 4, .plain, (FOLIO_CMD_KEY.set 0xA5 (FOLIO_CMD_OP.set 3 0))⟩
    Passes r (folioChk r) false s d →
      exec (.folioVerifyOther src) s = .next (Taken r d (folioWritten r) s)) ∧
  (∀ (src : Src) (t : Fin 5) (w : Word) (s : State) (d : RegDesc),
    let r : WriteReq := ⟨src, .icu, 0x104 + 0x40 * t, .plain, w⟩
    Passes r (icuChk r) false s d →
      exec (.interruptEoi src t w) s = .next (Taken r d (icuWritten (0x104 + 0x40 * t)) s)) ∧
  (∀ (src : Src) (n : Fin 384) (w : Word) (s : State) (d : RegDesc),
    let r : WriteReq := ⟨src, .icu, 0x400 + 4 * n, .plain, w⟩
    Passes r (icuChk r) false s d →
      exec (.icuSourceConfig src n w) s = .next (Taken r d (icuWritten (0x400 + 4 * n)) s)) ∧
  (∀ (src : Src) (cls : Fin 15) (w : Word) (s : State) (d : RegDesc),
    let r : WriteReq := ⟨src, .safe, 0x40 + 4 * cls, .plain, w⟩
    Passes r (safeChk r) false s d →
      exec (.safeReactionConfig src cls w) s = .next (Taken r d (safeWritten (0x40 + 4 * cls)) s)) ∧
  (∀ (src : Src) (w : Word) (s : State) (d : RegDesc),
    let r : WriteReq := ⟨src, .sys, 0x80, .plain, (SYS_UPDCMD_OP.set 1 w)⟩
    Passes r (sysBlkChk r) false s d →
      exec (.updBegin src w) s = .next (Taken r d (fun s _ x => sysBlkDone true 0x80 s x) s)) ∧
  (∀ (src : Src) (w : Word) (s : State) (d : RegDesc),
    let r : WriteReq := ⟨src, .sys, 0x80, .plain, (SYS_UPDCMD_OP.set 2 w)⟩
    Passes r (sysBlkChk r) false s d →
      exec (.updData src w) s = .next (Taken r d (fun s _ x => sysBlkDone true 0x80 s x) s)) ∧
  (∀ (src : Src) (w : Word) (s : State) (d : RegDesc),
    let r : WriteReq := ⟨src, .sys, 0x80, .plain, (SYS_UPDCMD_OP.set 3 w)⟩
    Passes r (sysBlkChk r) false s d →
      exec (.updEnd src w) s = .next (Taken r d (fun s _ x => sysBlkDone true 0x80 s x) s)) ∧
  (∀ (src : Src) (w : Word) (s : State) (d : RegDesc),
    let r : WriteReq := ⟨src, .sys, 0x80, .plain, (SYS_UPDCMD_OP.set 4 w)⟩
    Passes r (sysBlkChk r) false s d →
      exec (.updAbort src w) s = .next (Taken r d (fun s _ x => sysBlkDone true 0x80 s x) s)) ∧
  (∀ (src : Src) (w : Word) (s : State) (d : RegDesc),
    let r : WriteReq := ⟨src, .sys, 0x80, .plain, (SYS_UPDCMD_OP.set 5 w)⟩
    Passes r (sysBlkChk r) false s d →
      exec (.updDkimport src w) s = .next (Taken r d (fun s _ x => sysBlkDone true 0x80 s x) s)) ∧
  (∀ (src : Src) (s : State) (d : RegDesc),
    let r : WriteReq := ⟨src, .sys, 0x60, .plain, (SYS_EDCMD_KEY.set 0x3C (SYS_EDCMD_OP.set 1 0))⟩
    Passes r (sysBlkChk r) false s d →
      exec (.edArm src) s = .next (Taken r d (fun s _ x => sysBlkDone true 0x60 s x) s)) ∧
  (∀ (src : Src) (s : State) (d : RegDesc),
    let r : WriteReq := ⟨src, .sys, 0x60, .plain, (SYS_EDCMD_KEY.set 0x3C (SYS_EDCMD_OP.set 2 0))⟩
    Passes r (sysBlkChk r) false s d →
      exec (.edArmnow src) s = .next (Taken r d (fun s _ x => sysBlkDone true 0x60 s x) s)) ∧
  (∀ (src : Src) (s : State) (d : RegDesc),
    let r : WriteReq := ⟨src, .sys, 0x60, .plain, (SYS_EDCMD_KEY.set 0x3C (SYS_EDCMD_OP.set 3 0))⟩
    Passes r (sysBlkChk r) false s d →
      exec (.edDisarm src) s = .next (Taken r d (fun s _ x => sysBlkDone true 0x60 s x) s)) ∧
  (∀ (src : Src) (s : State) (d : RegDesc),
    let r : WriteReq := ⟨src, .sys, 0x60, .plain, (SYS_EDCMD_KEY.set 0x3C (SYS_EDCMD_OP.set 4 0))⟩
    Passes r (sysBlkChk r) false s d →
      exec (.edConfirm src) s = .next (Taken r d (fun s _ x => sysBlkDone true 0x60 s x) s)) ∧
  (∀ (src : Src) (s : State) (d : RegDesc),
    let r : WriteReq := ⟨src, .sys, 0x60, .plain, (SYS_EDCMD_KEY.set 0x3C (SYS_EDCMD_OP.set 5 0))⟩
    Passes r (sysBlkChk r) false s d →
      exec (.edRevert src) s = .next (Taken r d (fun s _ x => sysBlkDone true 0x60 s x) s)) ∧
  (∀ (src : Src) (s : State) (d : RegDesc),
    let r : WriteReq := ⟨src, .sys, 0x60, .plain, (SYS_EDCMD_KEY.set 0x3C (SYS_EDCMD_OP.set 6 0))⟩
    Passes r (sysBlkChk r) false s d →
      exec (.edRetryisl src) s = .next (Taken r d (fun s _ x => sysBlkDone true 0x60 s x) s)) ∧
  (∀ (src : Src) (s : State) (d : RegDesc),
    let r : WriteReq := ⟨src, .sys, 0x60, .plain, (SYS_EDCMD_KEY.set 0x3C (SYS_EDCMD_OP.set 7 0))⟩
    Passes r (sysBlkChk r) false s d →
      exec (.edRecover src) s = .next (Taken r d (fun s _ x => sysBlkDone true 0x60 s x) s)) ∧
  (∀ (src : Src) (s : State) (d : RegDesc),
    let r : WriteReq := ⟨src, .sys, 0x74, .plain, (SYS_NVCMD_KEY.set 0x69 (SYS_NVCMD_OP.set 1 0))⟩
    Passes r (sysBlkChk r) false s d →
      exec (.nvRowWrite src) s = .next (Taken r d (fun s _ x => sysBlkDone true 0x74 s x) s)) ∧
  (∀ (src : Src) (w : Word) (s : State), noneAhead s src.req (some .aon) = true → s.ready .aon = true →
    testDriven ⟨src, .aon, 0x14, .plain, w⟩ s = false →
    exec (.padRelease src w) s = .next { s with aonPend := s.aonPend ++ [⟨src, .aon, 0x14, w, false⟩] }) ∧
  (∀ (src : Src) (w : Word) (s : State), noneAhead s src.req (some .aon) = true → s.ready .aon = true →
    testDriven ⟨src, .aon, 8, .plain, w⟩ s = false →
    exec (.rtcSet src w) s = .next { s with aonPend := s.aonPend ++ [⟨src, .aon, 8, w, false⟩] }) ∧
  (∀ (src : Src) (w : Word) (s : State), noneAhead s src.req (some .aon) = true → s.ready .aon = true →
    testDriven ⟨src, .aon, 0x10, .plain, w⟩ s = false →
    exec (.rtcAlarmSet src w) s = .next { s with aonPend := s.aonPend ++ [⟨src, .aon, 0x10, w, false⟩] })

/-- A device write reaches its block.  REGISTER_WRITE, ALIAS_SET_WRITE, ALIAS_CLEAR_WRITE and ALIAS_TOGGLE_WRITE answer a next state: rejected by the fabric with code 0x06 where the island is not ready, kept for the 32.768 kHz edge where the register waits for it, else handed to the block; an alias of an offset past the window of plain registers is rejected with code 0x10. -/
def Obligations.WritesReachTheirBlock : Prop :=
  (∀ (src : Src) (blk : Blk) (off : Nat) (w : Word) (s : State),
    exec (.registerWrite src blk off w) s = andThen (drainOwn src.req (some blk) s) (devPut true src blk off w)) ∧
  (∀ (src : Src) (blk : Blk) (off : Nat) (w : Word) (s : State), off < 0x10000 →
    let r : WriteReq := ⟨src, blk, (aliasAt off).2, (aliasAt off).1, w⟩
    noneAhead s src.req (some blk) = true → testDriven r s = false →
    (s.ready blk.island = false →
      exec (.registerWrite src blk off w) s = .next (s.fabReject src 0x06 (blk.base + off))) ∧
    (s.ready blk.island = true → aonHeld blk r.off = true →
      exec (.registerWrite src blk off w) s = .next { s with aonPend := s.aonPend ++ [⟨src, blk, off, w, false⟩] }) ∧
    (s.ready blk.island = true → aonHeld blk r.off = false →
      exec (.registerWrite src blk off w) s = .next (blkWriteAt true r s))) ∧
  (∀ (src : Src) (blk : Blk) (off : Nat) (w : Word) (s : State), off < 0x4000 →
    noneAhead s src.req (some blk) = true → s.ready blk.island = true → aonHeld blk off = false →
    exec (.aliasSetWrite src blk off w) s = .next (blkWriteAt true ⟨src, blk, off, .set, w⟩ s) ∧
    exec (.aliasClearWrite src blk off w) s = .next (blkWriteAt true ⟨src, blk, off, .clear, w⟩ s) ∧
    exec (.aliasToggleWrite src blk off w) s = .next (blkWriteAt true ⟨src, blk, off, .toggle, w⟩ s)) ∧
  (∀ (src : Src) (blk : Blk) (off : Nat) (w : Word) (s : State), 0x4000 ≤ off →
    exec (.aliasSetWrite src blk off w) s = .next (s.fabReject src 0x10 (blk.base + off + 0x4000)) ∧
    exec (.aliasClearWrite src blk off w) s = .next (s.fabReject src 0x10 (blk.base + off + 0x8000)) ∧
    exec (.aliasToggleWrite src blk off w) s = .next (s.fabReject src 0x10 (blk.base + off + 0xC000)))

/-- Reset requests and SAFE_CLR take effect.  A SYS_RESET_WARM that passes its checks makes the warm reset of R47 in the same step; SYS_RESET_CORE_A and SYS_RESET_CORE_B restart their pair; SAFE_CLEAR drops the ended causes of feeds, clocks and supplies and then is an accepted write of SAFE_CLR. The choice to make the warm reset in the same step is the model's (log entry 40). -/
def Obligations.ResetAndClearRequestsComplete : Prop :=
  (∀ (src : Src) (b : BootIn) (s : State) (d : RegDesc),
    let r : WriteReq := ⟨src, .sys, 0x10, .plain, setBits (setBits 0 35 28 0x5A) 1 0 0⟩
    let u : State := { s with warmDue := none }
    Passes r (sysBlkChk r) false u d →
      let t := Taken r d (fun s _ x => sysBlkDone true 0x10 s x) u
      t.warmDue = some .software ∧ exec (.sysResetWarm src b) s = .next (warmFrom t .software 0 b)) ∧
  (∀ (src : Src) (ok : Bool) (s : State) (d : RegDesc),
    let r : WriteReq := ⟨src, .sys, 0x10, .plain, setBits (setBits 0 35 28 0x5A) 1 0 1⟩
    Passes r (sysBlkChk r) false s d →
      exec (.sysResetCoreA src ok) s = .next (Taken r d (fun s _ x => sysBlkDone ok 0x10 s x) s)) ∧
  (∀ (src : Src) (ok : Bool) (s : State) (d : RegDesc),
    let r : WriteReq := ⟨src, .sys, 0x10, .plain, setBits (setBits 0 35 28 0x5A) 1 0 2⟩
    Passes r (sysBlkChk r) false s d →
      exec (.sysResetCoreB src ok) s = .next (Taken r d (fun s _ x => sysBlkDone ok 0x10 s x) s)) ∧
  (∀ (src : Src) (w : Word) (ended : List (Nat × Nat)) (s : State) (d : RegDesc),
    let r : WriteReq := ⟨src, .safe, 0x10, .plain, w⟩
    let u : State := { s with safe := { s.safe with causes := s.safe.causes.filter (fun c =>
      !(ended.contains (c.cls, c.idx) && (c.cls == 10 || (c.cls == 9 && (c.idx == 1 || c.idx == 3) &&
        decide (ms 1 ≤ (s.now - c.seen).toNat))))) } }
    Passes r (safeChk r) false u d →
      exec (.safeClear src w ended) s = .next (Taken r d (safeWritten 0x10) u))

/-- Two-source integer instructions write their result, flags and pc.  On a core that issues, each instruction answers the next state with the result and C and V that its row gives. Named: ADD, ADC, SUB, SBC, AND, OR, XOR, ANDN, SHL, SHR, SAR, ROL, ROR, MUL, MULH, MULHU, DIV, DIVU, REM, REMU, NPRM. -/
def Obligations.TwoSourceInstructionsComplete : Prop :=
  ∀ (c : CoreId) (wd wa wb : Reg) (s : State), Issues s c →
    let x := s.reg c wa
    let y := s.reg c wb
    let cin := flagC (s.core c.val).flg
    exec (.add c wd wa wb) s = .next (s.aluDone c wd ⟨x + y, decide (2 ^ 36 ≤ x.toNat + y.toNat), outside (x.toInt + y.toInt)⟩) ∧
    exec (.adc c wd wa wb) s = .next (s.aluDone c wd ⟨x + y + BitVec.ofNat 36 cin.toNat, decide (2 ^ 36 ≤ x.toNat + y.toNat + cin.toNat), outside (x.toInt + y.toInt + cin.toNat)⟩) ∧
    exec (.sub c wd wa wb) s = .next (s.aluDone c wd ⟨x - y, decide (y.toNat ≤ x.toNat), outside (x.toInt - y.toInt)⟩) ∧
    exec (.sbc c wd wa wb) s = .next (s.aluDone c wd ⟨x - y - BitVec.ofNat 36 (!cin).toNat, decide (y.toNat + (!cin).toNat ≤ x.toNat), outside (x.toInt - y.toInt - (!cin).toNat)⟩) ∧
    exec (.and_ c wd wa wb) s = .next (s.aluDone c wd ⟨x &&& y, false, false⟩) ∧
    exec (.or_ c wd wa wb) s = .next (s.aluDone c wd ⟨x ||| y, false, false⟩) ∧
    exec (.xor c wd wa wb) s = .next (s.aluDone c wd ⟨x ^^^ y, false, false⟩) ∧
    exec (.andn c wd wa wb) s = .next (s.aluDone c wd ⟨x &&& ~~~y, false, false⟩) ∧
    exec (.shl c wd wa wb) s = .next (s.aluDone c wd (opShl x (bitsOf y 7 0))) ∧
    exec (.shr c wd wa wb) s = .next (s.aluDone c wd (opShr x (bitsOf y 7 0))) ∧
    exec (.sar c wd wa wb) s = .next (s.aluDone c wd (opSar x (bitsOf y 7 0))) ∧
    exec (.rol c wd wa wb) s = .next (s.aluDone c wd (opRol x (bitsOf y 7 0))) ∧
    exec (.ror c wd wa wb) s = .next (s.aluDone c wd (opRor x (bitsOf y 7 0))) ∧
    exec (.mul c wd wa wb) s = .next (s.aluDone c wd ⟨x * y, decide (2 ^ 36 ≤ x.toNat * y.toNat), outside (x.toInt * y.toInt)⟩) ∧
    exec (.mulh c wd wa wb) s = .next (s.aluDone c wd ⟨BitVec.ofInt 36 (x.toInt * y.toInt / 2 ^ 36), false, false⟩) ∧
    exec (.mulhu c wd wa wb) s = .next (s.aluDone c wd ⟨BitVec.ofNat 36 (x.toNat * y.toNat / 2 ^ 36), false, false⟩) ∧
    exec (.div c wd wa wb) s = .next (s.aluDone c wd (opDiv x y)) ∧
    exec (.divu c wd wa wb) s = .next (s.aluDone c wd (opDivu x y)) ∧
    exec (.rem c wd wa wb) s = .next (s.aluDone c wd (opRem x y)) ∧
    exec (.remu c wd wa wb) s = .next (s.aluDone c wd (opRemu x y)) ∧
    exec (.nprm c wd wa wb) s = .next (s.aluDone c wd (opNprm x (bitsOf y 7 0)))

/-- One-source integer instructions write their result, flags and pc.  On a core that issues, each instruction answers the next state with the result its operation gives. Named: CLZ, CTZ, POPC, OPK, OPKL, OUPK, OUPKL. -/
def Obligations.OneSourceInstructionsComplete : Prop :=
  ∀ (c : CoreId) (wd wa : Reg) (s : State), Issues s c →
    let x := s.reg c wa
    exec (.clz c wd wa) s = .next (s.aluDone c wd (opClz x)) ∧
    exec (.ctz c wd wa) s = .next (s.aluDone c wd (opCtz x)) ∧
    exec (.popc c wd wa) s = .next (s.aluDone c wd (opPopc x)) ∧
    exec (.opk c wd wa) s = .next (s.aluDone c wd (opOpk x)) ∧
    exec (.opkl c wd wa) s = .next (s.aluDone c wd (opOpkl x)) ∧
    exec (.oupk c wd wa) s = .next (s.aluDone c wd (opOupk x)) ∧
    exec (.oupkl c wd wa) s = .next (s.aluDone c wd (opOupkl x))

/-- Immediate and bit-field instructions write their result, flags and pc.  On a core that issues and for a legal immediate, each instruction answers the next state with the result its row gives. Named: ADDI, SUBI, ANDI, ORI, XORI, LUI, NPRMI, SHI, BFX, BFXS, BFI. -/
def Obligations.ImmediateInstructionsComplete : Prop :=
  (
  ∀ (c : CoreId) (wd wa : Reg) (imm : BitVec 18) (s : State), Issues s c →
    let x := s.reg c wa
    let i : Word := imm.signExtend 36
    let u : Word := imm.zeroExtend 36
    exec (.addi c wd wa imm) s = .next (s.aluDone c wd ⟨x + i, decide (2 ^ 36 ≤ x.toNat + i.toNat), outside (x.toInt + i.toInt)⟩) ∧
    exec (.subi c wd wa imm) s = .next (s.aluDone c wd ⟨x - i, decide (i.toNat ≤ x.toNat), outside (x.toInt - i.toInt)⟩) ∧
    exec (.andi c wd wa imm) s = .next (s.aluDone c wd ⟨x &&& u, false, false⟩) ∧
    exec (.ori c wd wa imm) s = .next (s.aluDone c wd ⟨x ||| u, false, false⟩) ∧
    exec (.xori c wd wa imm) s = .next (s.aluDone c wd ⟨x ^^^ u, false, false⟩) ∧
    exec (.lui c wd imm) s = .next (s.aluDone c wd ⟨u <<< 18, false, false⟩) ∧
    (imm.toNat < 256 → exec (.nprmi c wd wa imm) s = .next (s.aluDone c wd (opNprm x imm.toNat))) ∧
    (imm.toNat < 36 → exec (.shi c wd wa imm) s = .next (s.aluDone c wd (opShl x imm.toNat))) ∧
    (∀ n, n < 36 → imm.toNat = 2 ^ 15 + n → exec (.shi c wd wa imm) s = .next (s.aluDone c wd (opShr x n))) ∧
    (∀ n, n < 36 → imm.toNat = 2 * 2 ^ 15 + n → exec (.shi c wd wa imm) s = .next (s.aluDone c wd (opSar x n))) ∧
    (∀ n, n < 36 → imm.toNat = 3 * 2 ^ 15 + n → exec (.shi c wd wa imm) s = .next (s.aluDone c wd (opRol x n))) ∧
    (∀ n, n < 36 → imm.toNat = 4 * 2 ^ 15 + n → exec (.shi c wd wa imm) s = .next (s.aluDone c wd (opRor x n)))) ∧
  (
  ∀ (c : CoreId) (wd wa : Reg) (pos len : BitVec 6) (s : State), Issues s c →
    pos.toNat ≤ 35 → 1 ≤ len.toNat → pos.toNat + len.toNat ≤ 36 →
    let x := s.reg c wa
    let p := pos.toNat
    let l := len.toNat
    exec (.bfx c wd wa pos len) s = .next (s.aluDone c wd ⟨BitVec.ofNat 36 (bitsOf x (p + l - 1) p), false, false⟩) ∧
    exec (.bfxs c wd wa pos len) s = .next (s.aluDone c wd ⟨BitVec.ofInt 36 (signed l (bitsOf x (p + l - 1) p)), false, false⟩) ∧
    exec (.bfi c wd wa pos len) s = .next (s.aluDone c wd ⟨setBits (s.reg c wd) (p + l - 1) p x.toNat, false, false⟩))

/-- Branches, calls, system instructions and user extensions have their effect.  On a core that issues, in the world and for the operands each admits, the instruction answers the next state its row gives; JALR to a misaligned target takes the alignment exception. Named: BR, JAL, JALR, NOP, SYS, WAIT, MFS, MTS, UX. -/
def Obligations.ControlInstructionsComplete : Prop :=
  (∀ (c : CoreId) (cond : BitVec 4) (off : BitVec 24) (s : State), Issues s c → cond ≠ 15 →
    let pc := (s.core c.val).pc
    exec (.br c cond off) s = .next (s.jump c
      (if condHolds cond.toNat (s.core c.val).flg then pc + 4 * off.signExtend 36 else pc + 4))) ∧
  (∀ (c : CoreId) (wl : Reg) (off : BitVec 23) (s : State), Issues s c →
    let pc := (s.core c.val).pc
    exec (.jal c wl off) s = .next ((s.setReg c wl (pc + 4)).jump c (pc + 4 * off.signExtend 36))) ∧
  (∀ (c : CoreId) (wd wa : Reg) (imm : BitVec 18) (s : State), Issues s c →
    let t := s.reg c wa + imm.signExtend 36
    (t.toNat % 4 = 0 → exec (.jalr c wd wa imm) s = .next ((s.setReg c wd ((s.core c.val).pc + 4)).jump c t)) ∧
    (t.toNat % 4 ≠ 0 → exec (.jalr c wd wa imm) s = .next (s.trap c .align))) ∧
  (∀ (c : CoreId) (s : State), Issues s c → exec (.nop c) s = .next (s.advance c)) ∧
  (∀ (c : CoreId) (imm : BitVec 18) (s : State), Issues s c →
    exec (.sys c imm) s = .next (raiseExc s c .sys 0 imm.toNat ((s.core c.val).pc + 4) 0)) ∧
  (∀ (c : CoreId) (s : State), Issues s c → (s.core c.val).world ≠ .opn →
    let t := { s with pwr := { s.pwr with bound := bitsOf (sectWord s 11 0) 23 21 } }
    exec (.wait c) s = .next ((t.setCore c.val (fun k => { k with
      resv := none, waiting := (s.icu.presented.getD c.val none).isNone })).advance c)) ∧
  (∀ (c : CoreId) (wd : Reg) (num : BitVec 18) (s : State), Issues s c → sysKnown c num.toNat = true →
    ((s.core c.val).world ≠ .opn ∨ sysOpenRead num.toNat = true) →
      exec (.mfs c wd num) s = .next (s.regDone c wd (sysRead s c num.toNat))) ∧
  (∀ (c : CoreId) (wa : Reg) (num : BitVec 18) (s : State), Issues s c → sysKnown c num.toNat = true →
    sysRo num.toNat = false → ((s.core c.val).world ≠ .opn ∨ num = 0) →
      exec (.mts c wa num) s = .next ((s.setCore c.val (fun k => sysWrite k num.toNat (s.reg c wa))).advance c)) ∧
  (∀ (c : CoreId) (n : Fin 16) (wd wa wb : Reg) (fn : BitVec 13) (s : State), Issues s c → c.val ≠ 4 →
    let k := s.core c.val
    let e := uxEntry k n.val
    let h := e.getD 0 0
    uxLegal h wd wa wb fn.toNat = true →
      let u := (((e.drop 1).take (bitsOf h 34 31)).zipIdx).foldl (fun u p =>
        uxStep (k.reg wa) (k.reg wb) (fn.zeroExtend 36) (bitAt h 30 && p.2 == bitsOf h 29 27) u p.1)
        ⟨[0, 0, 0, 0], k.reg wd, false, k.flg, k.flg⟩
      exec (.ux c n wd wa wb fn) s = .next ((s.setCore c.val (fun k => { (if u.written then k.setReg wd u.r else k) with
        flg := if bitAt h 30 then u.saved else k.flg })).advance c))

/-- Cache commands, fences and SEAL have their effect.  On a core that issues, cache commands drop the lines they name, a fence carries every earlier write of its core to its end, then reports the reject flag in Z and clears it, and SEAL with no pending call posts one. Named: CACHE_INVALIDATE_I_RANGE, CACHE_INVALIDATE_D_RANGE, CACHE_INVALIDATE_I_ALL, CACHE_INVALIDATE_D_ALL, FENCE_MEM, FENCE_DEV, FENCE_ALL, SEAL. -/
def Obligations.FencesCachesAndSealComplete : Prop :=
  (∀ (c : CoreId) (wa wb : Reg) (s : State), Issues s c → (s.core c.val).world ≠ .opn →
    let a := (s.reg c wa).toNat
    let b := (s.reg c wb).toNat
    let out := fun l : List (Nat × List Word) =>
      l.filter (fun l => !(decide (a ≤ b) && decide (a / 256 ≤ l.1) && decide (l.1 ≤ b / 256)))
    exec (.cacheInvalidateIRange c wa wb) s =
      .next ((s.setCore c.val (fun k => { k with icache := out k.icache })).advance c) ∧
    exec (.cacheInvalidateDRange c wa wb) s =
      .next ((s.setCore c.val (fun k => { k with dcache := out k.dcache })).advance c) ∧
    exec (.cacheInvalidateIAll c) s = .next ((s.setCore c.val (fun k => { k with icache := [] })).advance c) ∧
    exec (.cacheInvalidateDAll c) s = .next ((s.setCore c.val (fun k => { k with dcache := [] })).advance c)) ∧
  (∀ (c : CoreId) (s : State), Issues s c → exec (.fenceMem c) s = .next (s.advance c)) ∧
  (∀ (c : CoreId) (s t : State), Issues s c →
    drainPosted (s.posted.filter (fun p => p.src.req == c.val))
      { s with posted := s.posted.filter (fun p => p.src.req != c.val) } = .next t →
    (t.core c.val = s.core c.val) → (∀ p ∈ t.aonPend, p.src.req ≠ c.val) →
    let u := .next (((t.clearRej c.val).setCore c.val (fun k => { k with flg := setZ k.flg (!t.rej.contains c.val) })).advance c)
    exec (.fenceDev c) s = u ∧ exec (.fenceAll c) s = u) ∧
  (∀ (c : CoreId) (imm : BitVec 18) (s : State), Issues s c → c.val ≠ 4 → imm.toNat < 256 →
    s.flag (cstatP c.val) VAULT_CSTAT_PEND = false → exec (.seal_ c imm) s = .next (sealCall s c.val imm.toNat))

/-- Coprocessor instructions and their completions have their effect.  On a core that issues outside OPEN and is granted the port, each instruction with a legal index answers the next state its row gives; a finished compression or AES pass leaves its result. Named: CRC32, CRC32O, CRC16, SHAINIT, SHAW, SHARD, AESKEY, AESIN, AESENC, AESDEC, AESOUT, KSET, KRD, LAG, SQMAC, PSET, PCLR, MATCH, MAPLO, MAPHI, SHA_COMPRESSION_DONE, AES_DONE. -/
def Obligations.CoprocessorInstructionsComplete : Prop :=
  (
  ∀ (c : CoreId) (wd wa wb : Reg) (idx : BitVec 8) (s : State), Issues s c → (s.core c.val).world ≠ .opn →
    cpGranted s c 0 = true →
    let t := cpWait s c
    (idx = 0 → exec (.crc32 c wd wa wb idx) s = .next (t.regDone c wd (wordN (crc32Run (bitsOf (t.reg c wa) 31 0) (wordOctets (t.reg c wb)))))) ∧
    (idx = 0 → exec (.crc32o c wd wa wb idx) s = .next (t.regDone c wd (wordN (crc32Run (bitsOf (t.reg c wa) 31 0) [bitsOf (t.reg c wb) 7 0])))) ∧
    (idx = 0 → exec (.crc16 c wd wa wb idx) s = .next (t.regDone c wd (wordN (crc16Run (bitsOf (t.reg c wa) 15 0) (wordOctets (t.reg c wb)))))) ∧
    (idx = 0 → exec (.shainit c idx) s = .next ((t.setCp c (fun p => { p with h := shaInit, msg := [] })).advance c)) ∧
    (idx = 0 → exec (.shaw c wa idx) s = .next ((t.setCp c (fun p => { p with msg := p.msg ++ [wordN (bitsOf (t.reg c wa) 31 0)], shaBusy := decide (16 ≤ p.msg.length + 1) })).advance c)) ∧
    (idx.toNat < 8 → exec (.shard c wd idx) s = .next (t.regDone c wd (wordN ((t.cp c).h.getD idx.toNat 0)))) ∧
    (idx.toNat < 8 → exec (.aeskey c wa idx) s = .next ((t.setCp c (fun p => { p with key := p.key.set idx.toNat (wordN (bitsOf (t.reg c wa) 31 0)) })).advance c)) ∧
    (idx.toNat < 4 → exec (.aesin c wa idx) s = .next ((t.setCp c (fun p => { p with aes := p.aes.set idx.toNat (wordN (bitsOf (t.reg c wa) 31 0)) })).advance c)) ∧
    (idx.toNat < 2 → exec (.aesenc c idx) s = .next ((t.setCp c (fun p => { p with aesBusy := some (false, idx == 1) })).advance c)) ∧
    (idx.toNat < 2 → exec (.aesdec c idx) s = .next ((t.setCp c (fun p => { p with aesBusy := some (true, idx == 1) })).advance c)) ∧
    (idx.toNat < 4 → exec (.aesout c wd idx) s = .next (t.regDone c wd ((t.cp c).aes.getD idx.toNat 0)))) ∧
  (
  ∀ (c : CoreId) (wd wa wb : Reg) (idx : BitVec 8) (s : State), Issues s c → (s.core c.val).world ≠ .opn →
    cpGranted s c 1 = true →
    (idx.toNat < 8 → exec (.kset c wa idx) s = .next ((s.setCp c (fun p => { p with k := p.k.set idx.toNat (bitsOf (s.reg c wa) 23 0) })).advance c)) ∧
    (idx.toNat < 8 → exec (.krd c wd idx) s = .next (s.regDone c wd (wordN ((s.cp c).k.getD idx.toNat 0)))) ∧
    (idx.toNat < 8 → exec (.lag c wd wa wb idx) s = .next ((roundK s (((s.reg c wb).toInt - (s.reg c wa).toInt) * ((s.cp c).k.getD idx.toNat 0 : Int))).2.regDone c wd
        (BitVec.ofInt 36 (sat36 ((s.reg c wa).toInt + (roundK s (((s.reg c wb).toInt - (s.reg c wa).toInt) * ((s.cp c).k.getD idx.toNat 0 : Int))).1))))) ∧
    (idx.toNat < 8 → exec (.sqmac c wd wa wb idx) s = .next ((roundK s (((s.reg c wb).toInt * (s.reg c wb).toInt) * ((s.cp c).k.getD idx.toNat 0 : Int))).2.regDone c wd
        (BitVec.ofInt 36 (sat36 ((s.reg c wa).toInt + (roundK s (((s.reg c wb).toInt * (s.reg c wb).toInt) * ((s.cp c).k.getD idx.toNat 0 : Int))).1)))))) ∧
  (
  ∀ (c : CoreId) (wd wa wb : Reg) (idx : BitVec 8) (s : State), Issues s c → (s.core c.val).world ≠ .opn →
    cpGranted s c 2 = true →
    (idx.toNat < 64 → exec (.pset c wa wb idx) s = .next ((s.setCp c (fun p => { p with pats := p.pats.set idx.toNat (s.reg c wa, s.reg c wb, true) })).advance c)) ∧
    (idx = 0 → exec (.pclr c idx) s = .next ((s.setCp c (fun p => { p with pats := p.pats.map (fun e => (e.1, e.2.1, false)) })).advance c)) ∧
    (idx = 0 → exec (.match_ c wd wa idx) s = .next ((s.setCp c (fun p => { p with map := matchMap (s.cp c).pats (s.reg c wa) })).regDone c wd (setBits (wordN (lowest (matchMap (s.cp c).pats (s.reg c wa)))) 35 35 (matchMap (s.cp c).pats (s.reg c wa) != 0).toNat))) ∧
    (idx = 0 → exec (.maplo c wd idx) s = .next (s.regDone c wd (wordN ((s.cp c).map % 2 ^ 32)))) ∧
    (idx = 0 → exec (.maphi c wd idx) s = .next (s.regDone c wd (wordN ((s.cp c).map / 2 ^ 32))))) ∧
  (
  ∀ (c : CoreId) (s : State),
    exec (.shaCompressionDone c) s = .next (s.setCp c (fun p =>
      if p.shaBusy then { p with h := shaCompress p.h (p.msg.map (·.toNat)), msg := [], shaBusy := false } else p)) ∧
    exec (.aesDone c) s = .next (s.setCp c (fun p =>
      match p.aesBusy with
      | some (dec, big) =>
        let key := keyOctets (if big then p.key else p.key.take 4)
        { p with aes := octetWords (if dec then aesDec key (keyOctets p.aes) else aesEnc key (keyOctets p.aes)), aesBusy := none }
      | none => p)))

/-- Loads write the value they read.  On a core that issues, a load that no check of the core refuses answers the next state with the value of its nibs, extended as its row says; LRES also takes the reservation; a word load of a device answers what the device read answers. Named: LDW, LDH, LDHS, LDN, LDNS, LRES. -/
def Obligations.LoadsComplete : Prop :=
  (
  ∀ (c : CoreId) (wd wa : Reg) (imm : BitVec 18) (s : State), Issues s c →
    let a := s.reg c wa + imm.signExtend 36
    a.toNat < 0x10000000 → regionOf s a.toNat ≠ some .device → s.safe.badWords.contains (a.toNat / 4 * 4) = false →
    (memFault s c a 4 false false = none →
      let v := s.readNibs a.toNat 4
      exec (.ldw c wd wa imm) s = .next (s.regDone c wd (BitVec.ofNat 36 v))) ∧
    (memFault s c a 2 false false = none →
      let v := s.readNibs a.toNat 2
      exec (.ldh c wd wa imm) s = .next (s.regDone c wd (BitVec.ofNat 36 v))) ∧
    (memFault s c a 2 false false = none →
      let v := s.readNibs a.toNat 2
      exec (.ldhs c wd wa imm) s = .next (s.regDone c wd ((BitVec.ofNat 18 v).signExtend 36))) ∧
    (memFault s c a 1 false false = none →
      let v := s.readNibs a.toNat 1
      exec (.ldn c wd wa imm) s = .next (s.regDone c wd (BitVec.ofNat 36 v))) ∧
    (memFault s c a 1 false false = none →
      let v := s.readNibs a.toNat 1
      exec (.ldns c wd wa imm) s = .next (s.regDone c wd ((BitVec.ofNat 9 v).signExtend 36))) ∧
    (memFault s c a 4 false true = none →
      exec (.lres c wd wa imm) s = .next ((s.setCore c.val (fun k => { k with resv := some (a.toNat / 16 * 16) })).regDone c wd
        (BitVec.ofNat 36 (s.readNibs a.toNat 4))))) ∧
  (
  ∀ (c : CoreId) (wd wa : Reg) (imm : BitVec 18) (s t : State), Issues s c →
    let a := s.reg c wa + imm.signExtend 36
    memFault s c a 4 false false = none → regionOf s a.toNat = some .device → noneAhead s c.val (blkAt a.toNat) = true →
    (∀ p ∈ s.aonPend, p.src.req ≠ c.val) →
    (∀ v, deviceRead s ⟨c.val, (s.core c.val).world⟩ a.toNat = (t, .word v) →
      exec (.ldw c wd wa imm) s = .next (t.regDone c wd v)) ∧
    (∀ code, deviceRead s ⟨c.val, (s.core c.val).world⟩ a.toNat = (t, .err code) →
      exec (.ldw c wd wa imm) s = .next (t.fault c .load code a)))

/-- Stores write memory or post a device write.  On a core that issues, a store that no check of the core refuses answers the next state with its nibs in memory, or with its write posted; SCOND stores and writes 1 with the reservation, else writes 0 and stores nothing. Named: STW, STH, STN, SCOND. -/
def Obligations.StoresComplete : Prop :=
  (
  ∀ (c : CoreId) (ws wa : Reg) (imm : BitVec 18) (s : State), Issues s c →
    let a := s.reg c wa + imm.signExtend 36
    let w := s.reg c ws
    (storeSealed s c a.toNat = false → regionOf s a.toNat ≠ some .device →
      (memFault s c a 4 true false = none → exec (.stw c ws wa imm) s = .next ((memStore s a.toNat 4 w).advance c)) ∧
      (memFault s c a 2 true false = none → exec (.sth c ws wa imm) s = .next ((memStore s a.toNat 2 w).advance c)) ∧
      (memFault s c a 1 true false = none → exec (.stn c ws wa imm) s = .next ((memStore s a.toNat 1 w).advance c))) ∧
    (regionOf s a.toNat = some .device → memFault s c a 4 true false = none →
      exec (.stw c ws wa imm) s =
        .next (State.advance { s with posted := s.posted ++ [⟨⟨c.val, (s.core c.val).world⟩, a.toNat, w, false⟩] } c))) ∧
  (
  ∀ (c : CoreId) (wd wa wb : Reg) (s : State), Issues s c →
    let a := s.reg c wa
    memFault s c a 4 true true = none →
    ((s.core c.val).resv = some (a.toNat / 16 * 16) →
      exec (.scond c wd wa wb) s =
        .next (((memStore s a.toNat 4 (s.reg c wb)).setCore c.val (fun k => { k with resv := none })).regDone c wd 1)) ∧
    ((s.core c.val).resv ≠ some (a.toNat / 16 * 16) →
      exec (.scond c wd wa wb) s = .next ((s.setCore c.val (fun k => { k with resv := none })).regDone c wd 0)))

/-- Events of the channels, their protection and the feeds have their effect.  For every state and operands that meet the condition named (the event's precondition), the command answers the next state with the effect. The model's own readings: what the condition stands for (log entry 32), and that a timeout served in its own tick waits for the tick's end (log entry 31). Named: PWM_ON_TIME_END, CURRENT_LIMIT_REACHED, ILIM_TIME_TRIP, REGULATION_TIME_CLEAR, SHORT_CIRCUIT_TRIP, INRUSH_WINDOW_END, CLAMP_ENERGY_EXCEEDED, CLAMP_LEAK_TICK, PARKON_LIMIT_FAULT, THERMAL_LATCH, THERMAL_RELEASE, RETRY_DELAY_EXPIRY, RETRY_RESTORE_TIMEOUT, MISMATCH_DETECT, MISMATCH_PERSIST_SAFE, SECOND_PATH_SHUTDOWN, OPEN_LOAD_ON_DETECT, OFF_STATE_TEST_START, OFF_STATE_TEST_PHASE_END, PAIR_IMBALANCE, WIRE_MODEL_EVALUATION, ARBITER_CYCLE, FEED_OVERCURRENT, FEED_UNDERVOLTAGE, FEED_OVERVOLTAGE_HOLD, FEED_VOLTAGE_RECOVERY, REVERSE_BATTERY, HEARTBEAT_EXPIRY, HOLD_EXPIRY, CURRENT_SENSE_CROSS_CHECK. -/
def Obligations.ProtectionEventsComplete : Prop :=
  (∀ (f : Nat) (s : State),
    (served s f) = true →
      exec (.pwmOnTimeEnd f) s = .next (endPulse s (lead s f))) ∧
  (∀ (f : Nat) (at_ : Bool) (s : State),
    (served s f && driven (chState s (lead s f)) && conducts s f) = true →
      exec (.currentLimitReached f at_) s = .next (setOnLimit s f (fun r => r.reach s.now at_))) ∧
  (∀ (f : Nat) (also : List TripCause) (s : State),
    let g := lead s f
    (served s f && conducts s f && decide (us (10 * s.get (pscP g) PSC_LIMIT_TLIM) ≤ (onLimit s f).total s.now)) = true →
      exec (.ilimTimeTrip f also) s = .next (trip s g (.ilimt :: also) (isOddOf s f))) ∧
  (∀ (f : Nat) (s : State),
    (served s f && conducts s f) = true →
      exec (.regulationTimeClear f) s = .next (setOnLimit s f (fun r => r.settled s.now))) ∧
  (∀ (f : Nat) (also : List TripCause) (s : State),
    (served s f) = true →
      exec (.shortCircuitTrip f also) s = .next (trip s (lead s f) (.sc :: also) (isOddOf s f))) ∧
  (∀ (f : Nat) (s : State),
    ((s.ch (lead s f)).winEnd = some s.now → exec (.inrushWindowEnd f) s = .next (s.waits (.inrushWindowEnd f))) ∧
    ((served s f && s.due (s.ch (lead s f)).winEnd) = true →
      let t := s.setCh (lead s f) (fun c => { c with winEnd := none })
      endOne (.inrushWindowEnd f) s = t ∧ ((s.ch (lead s f)).winEnd ≠ some s.now → exec (.inrushWindowEnd f) s = .next t))) ∧
  (∀ (f current : Nat) (low : Bool) (s : State),
    (served s f) = true →
      exec (.clampEnergyExceeded f current low) s = .next (clampEnergyExceededEffect f current low s)) ∧
  (∀ (s : State),
    (s.ready .power) = true →
      exec .clampLeakTick s = .next (s.each (usedFuncs s) (fun s f => showBucket (s.setCh f (fun c => { c with bucket := c.bucket - s.get (pscP f) PSC_CLAMP_LEAK })) f))) ∧
  (∀ (f : Nat) (s : State),
    (carried s f && chState s (lead s f) == stParkon) = true →
      exec (.parkonLimitFault f) s = .next (parkonLimitFaultEffect f s)) ∧
  (∀ (f : Nat) (second : Bool) (also : List TripCause) (s : State),
    (carried s f) = true →
      exec (.thermalLatch f second also) s = .next (thermalLatchEffect f second also s)) ∧
  (∀ (f : Nat) (second : Bool) (s : State),
    (carried s f) = true →
      exec (.thermalRelease f second) s = .next (setLatch s f second false)) ∧
  (∀ (f : Nat) (s : State),
    (beatDue s = some s.now → exec (.retryDelayExpiry f) s = .next (s.waits (.retryDelayExpiry f))) ∧
    ((served s f && chState s (lead s f) == stRetry && restartOk s (lead s f)) = true →
      let t := restart s (lead s f)
      endOne (.retryDelayExpiry f) s = t ∧ (beatDue s ≠ some s.now → exec (.retryDelayExpiry f) s = .next t))) ∧
  (∀ (f : Nat) (s : State),
    let g := lead s f
    (served s f && chState s g != stRetry && chState s g != stLocked && !latched s g && decide (sec 10 ≤ (s.now - (s.ch g).quiet).toNat)) = true →
      exec (.retryRestoreTimeout f) s = .next (s.put (pscP g) PSC_PROT_RLEFT (s.get (pscP g) PSC_RETRY_RMAX))) ∧
  (∀ (f : Nat) (hs ls : Bool) (s : State),
    (served s f) = true →
      exec (.mismatchDetect f hs ls) s = .next (mismatchDetectEffect f hs ls s)) ∧
  (∀ (f : Nat) (s : State),
    (served s f) = true →
      exec (.mismatchPersistSafe f) s = .next (mismatchPersistSafeEffect f s)) ∧
  (∀ (f : Nat) (s : State),
    (served s f) = true →
      exec (.secondPathShutdown f) s = .next (secondPathShutdownEffect f s)) ∧
  (∀ (f : Nat) (s : State),
    (served s f && s.get (pscP (lead s f)) PSC_DIAG_OLON != 0 && decide (ms (s.get (pscP (lead s f)) PSC_DIAG_OLT) ≤ (s.ch (lead s f)).olTime)) = true →
      exec (.openLoadOnDetect f) s = .next (settle (setFault s (lead s f) PSC_FAULT_OLON) (lead s f))) ∧
  (∀ (f : Nat) (s : State),
    (served s f) = true →
      exec (.offStateTestStart f) s = .next (offStateTestStartEffect f s)) ∧
  (∀ (f vout vfeed : Nat) (s : State),
    (served s f) = true →
      exec (.offStateTestPhaseEnd f vout vfeed) s = .next (offStateTestPhaseEndEffect f vout vfeed s)) ∧
  (∀ (f : Nat) (s : State),
    (served s f && isEven s (lead s f) && decide (ms 10 ≤ (s.ch (lead s f)).imbTime)) = true →
      exec (.pairImbalance f) s = .next (let g := lead s f; let s := s.put (pscP g) PSC_FAULT_IMBAL 1; settle s g)) ∧
  (∀ (sense : List ChanSense) (feeds : List Int) (light : Nat) (s : State),
    (s.ready .power) = true →
      exec (.wireModelEvaluation sense feeds light) s = .next (wireEvaluation sense feeds light s)) ∧
  (∀ (tbp : Int) (sinks : List (Nat × Nat × Nat)) (rowLoss : Nat) (strNow : List Nat) (s : State),
    (s.ready .power) = true →
      exec (.arbiterCycle tbp sinks rowLoss strNow) s = .next (arbiterCycle tbp sinks rowLoss strNow s)) ∧
  (∀ (feed avg : Nat) (s : State),
    s.ready .power = true →
    (decide (feed < 5)) = true →
      exec (.feedOvercurrent feed avg) s = .next (feedOvercurrentEffect feed avg s)) ∧
  (∀ (feed : Nat) (volt : Int) (s : State),
    s.ready .power = true →
    (decide (feed < 5) && decide (volt < 6000)) = true →
      exec (.feedUndervoltage feed volt) s = .next (setHold (showFeed s feed volt) feed (fun h => (true, h.2)))) ∧
  (∀ (feed : Nat) (volt : Int) (s : State),
    s.ready .power = true →
    (decide (feed < 5) && decide (36000 < volt)) = true →
      exec (.feedOvervoltageHold feed volt) s = .next (setHold (showFeed s feed volt) feed (fun h => (h.1, true)))) ∧
  (∀ (feed : Nat) (volt : Int) (s : State),
    s.ready .power = true →
    (decide (feed < 5)) = true →
      exec (.feedVoltageRecovery feed volt) s = .next (setHold (showFeed s feed volt) feed (fun h => (h.1 && decide (volt ≤ 6300), h.2 && decide (34000 ≤ volt))))) ∧
  (∀ (feed : Nat) (volt : Int) (s : State),
    s.ready .power = true →
    (decide (feed < 5) && decide (volt < -2000)) = true →
      exec (.reverseBattery feed volt) s = .next (reverseBatteryEffect feed s)) ∧
  (∀ (s : State),
    (s.beat.deadline = some s.now → exec .heartbeatExpiry s = .next (s.waits .heartbeatExpiry)) ∧
    ((s.flag Blk.psg.base PSG_STAT_HBRUN && s.due s.beat.deadline) = true →
      let t := beatExpire s
      endOne .heartbeatExpiry s = t ∧ (s.beat.deadline ≠ some s.now → exec .heartbeatExpiry s = .next t))) ∧
  (∀ (s : State),
    (s.beat.holdEnd = some s.now → exec .holdExpiry s = .next (s.waits .holdExpiry)) ∧
    ((s.flag Blk.psg.base PSG_STAT_HOLDACT && s.tbRun && s.due s.beat.holdEnd) = true →
      let t := holdEnd s
      endOne .holdExpiry s = t ∧ (s.beat.holdEnd ≠ some s.now → exec .holdExpiry s = .next t))) ∧
  (∀ (pairs : List (Nat × Nat × Nat)) (s : State),
    (s.ready .power) = true →
      exec (.currentSenseCrossCheck pairs) s = .next (crossCheck pairs s))

/-- Events of bridges, motion and strokes have their effect.  For every state and operands that meet the condition named (the event's precondition), the command answers the next state with the effect. The model's own readings: what the condition stands for (log entry 32), and that a timeout served in its own tick waits for the tick's end (log entry 31). Named: PWM_PERIOD_BOUNDARY, SOFT_START_END, RIPPLE_DETECT, RIPPLE_GAP_CORRECTION, RIPPLE_COUNT_END, FORCE_ESTIMATE, PINCH_BRAKE_END, PINCH_REVERSAL_END, STALL_DETECT, BRAKE_TIME_END, GOTO_TARGET_REACHED, MOVE_TIMEOUT, WIPER_PARK_EDGE, WIPER_START_PULSE, WIPER_CYCLE_TIMEOUT, STK_RULE_FIRE, STK_RULE_RELEASE, PEAK_ARRIVAL, BOOST_TIMEOUT, LATE_WINDOW_FAULT, STK_PEAK_TIME_END, STK_HOLD_TIME_END, QUENCH_END, CHOP_CURRENT_REACHED, CHOP_OFF_TIME_END, DUTY_LIMIT_REACHED, DUTY_SEGMENT_ROLL. -/
def Obligations.MotionAndStrokeEventsComplete : Prop :=
  (∀ (s : State),
    ((usedFuncs s).any (fun f => pwmRuns s f && (s.ch f).boundary == some s.now) = true →
      exec .pwmPeriodBoundary s = .next (s.waits .pwmPeriodBoundary)) ∧
    endOne .pwmPeriodBoundary s = pwmBoundaries s ∧
    ((usedFuncs s).any (fun f => pwmRuns s f && (s.ch f).boundary == some s.now) = false →
      exec .pwmPeriodBoundary s = .next (pwmBoundaries s))) ∧
  (∀ (k current rate : Nat) (s : State),
    (motThere s k && motState s k == 1 && s.due (s.mo k).softEnd) = true →
      exec (.softStartEnd k current rate) s = .next (showFree (s.setMo k (fun m => { m with softEnd := none, ifree := (current : Rat) / 1000, wfree := (rate : Rat) / 1000 })) k)) ∧
  (∀ (k : Nat) (s : State),
    (motThere s k && (s.mo k).counting) = true →
      exec (.rippleDetect k) s = .next (rippleDetectEffect k s)) ∧
  (∀ (k : Nat) (s : State),
    (motThere s k && (s.mo k).counting) = true →
      exec (.rippleGapCorrection k) s = .next (rippleGapCorrectionEffect k s)) ∧
  (∀ (k : Nat) (s : State),
    (motThere s k && (s.mo k).counting && (motState s k == 2 || motState s k == 4) && (s.mo k).reverse.isNone && decide (5000000 < (s.now - (s.mo k).lastDip).toNat)) = true →
      exec (.rippleCountEnd k) s = .next (rippleCountEndEffect k s)) ∧
  (∀ (k current : Nat) (s : State),
    (motThere s k && decide (motKind s k ≤ 1) && motState s k == 1 && !motDir s k && (s.mo k).softEnd.isNone) = true →
      exec (.forceEstimate k current) s = .next (forceEstimateEffect k current s)) ∧
  (∀ (k : Nat) (s : State),
    (motThere s k && motState s k == 3 && (s.mo k).brakeEnd.isSome && (s.due (s.mo k).brakeEnd || decide (motRate s k * 10 < (s.mo k).wfree))) = true →
      exec (.pinchBrakeEnd k) s = .next (pinchBrakeEndEffect k s)) ∧
  (∀ (k : Nat) (endStop : Bool) (s : State),
    (motThere s k && motState s k == 3 && (s.mo k).brakeEnd.isNone && (match (s.mo k).revTo with | some p => decide (p ≤ motPos s k) | none => endStop)) = true →
      exec (.pinchReversalEnd k endStop) s = .next (motStop s k 4 true)) ∧
  (∀ (k current : Nat) (s : State) (t : Word),
    (motThere s k && (motState s k == 1 || (motState s k == 3 && (s.mo k).brakeEnd.isNone))) = true →
    stalled s k current = true →
    ((s.mo k).stallAt = some t → ms (s.get (motP k) MOT_LIMIT_STALLT) ≤ (s.now - t).toNat →
      exec (.stallDetect k current) s = .next (stallDetectEffect k (s.setMo k (fun m => { m with stallAt := none })))) ∧
    ((s.mo k).stallAt = some t → (s.now - t).toNat < ms (s.get (motP k) MOT_LIMIT_STALLT) →
      exec (.stallDetect k current) s = .next (s.setMo k (fun m => { m with stallAt := some t })))) ∧
  (∀ (k : Nat) (s : State),
    (motThere s k && motState s k == 2 && s.due (s.mo k).brakeEnd) = true →
      exec (.brakeTimeEnd k) s = .next (match (s.mo k).reverse with | some o => motBegin s k o | none => motRelease s k)) ∧
  (∀ (k : Nat) (s : State),
    (motThere s k && motState s k == 1 && (s.mo k).op == 3 && (if motDir s k then decide ((s.mo k).target ≤ motPos s k) else decide (motPos s k ≤ (s.mo k).target))) = true →
      exec (.gotoTargetReached k) s = .next (motStop (motCoincident s k) k 2 false)) ∧
  (∀ (k : Nat) (s : State),
    ((s.mo k).moveEnd = some s.now → exec (.moveTimeout k) s = .next (s.waits (.moveTimeout k))) ∧
    ((motThere s k && motKind s k != 2 && motMoving s k && !(motState s k == 3 && (s.mo k).brakeEnd.isSome) && s.due (s.mo k).moveEnd) = true →
      let t := motStop s k 6 (motState s k == 3)
      endOne (.moveTimeout k) s = t ∧ ((s.mo k).moveEnd ≠ some s.now → exec (.moveTimeout k) s = .next t))) ∧
  (∀ (k : Nat) (s : State),
    s.ready .power = true →
    (exec (.wiperParkEdge k) s = .next (s.waits (.wiperParkEdge k))) ∧
    ((motThere s k && motKind s k == 2) = true →
      let t := wiperParkEdgeEffect k s
      endOne (.wiperParkEdge k) s = t)) ∧
  (∀ (k : Nat) (s : State),
    s.ready .power = true →
    exec (.wiperStartPulse k) s = .next (wiperStart s k)) ∧
  (∀ (k : Nat) (s : State),
    ((s.mo k).moveEnd = some s.now → exec (.wiperCycleTimeout k) s = .next (s.waits (.wiperCycleTimeout k))) ∧
    ((motThere s k && motKind s k == 2 && (s.mo k).cycle && s.due (s.mo k).moveEnd) = true →
      let t := motStop s k 10 false
      endOne (.wiperCycleTimeout k) s = t ∧ ((s.mo k).moveEnd ≠ some s.now → exec (.wiperCycleTimeout k) s = .next t))) ∧
  (∀ (k : Nat) (s : State),
    s.ready .power = true →
    exec (.stkRuleFire k) s = .next (stkRuleFire s k)) ∧
  (∀ (k : Nat) (s : State),
    s.ready .power = true →
    exec (.stkRuleRelease k) s = .next (stkRuleRelease s k)) ∧
  (∀ (k : Nat) (s : State),
    (stkThere s k && stkLead s k == k && (stkPhase s k == 2 || stkReleased s k)) = true →
    (phaseActive (stkPhase s k) && dutyReached s k) = false →
      exec (.peakArrival k) s = .next (peakArrivalEffect k s)) ∧
  (∀ (k : Nat) (s : State),
    ((s.sk k).phaseEnd = some s.now → exec (.boostTimeout k) s = .next (s.waits (.boostTimeout k))) ∧
    ((stkThere s k && stkLead s k == k && stkPhase s k == 2 && s.due (s.sk k).phaseEnd && !(phaseActive (stkPhase s k) && dutyReached s k)) = true →
      let t := stkPeak (s.put (stkP k) STK_MEAS_TTP 65535) k false
      endOne (.boostTimeout k) s = t ∧ ((s.sk k).phaseEnd ≠ some s.now → exec (.boostTimeout k) s = .next t))) ∧
  (∀ (k : Nat) (s : State),
    (stkThere s k && stkLead s k == k && phaseActive (stkPhase s k) && (s.sk k).fresh && s.flag (stkP k) STK_CFG_WINEN && !(s.sk k).judged && decide (us (s.get (stkP k) STK_WIN_TPMAX) < (s.now - (s.sk k).boostAt).toNat)) = true →
      exec (.lateWindowFault k) s = .next (lateWindowFaultEffect k s)) ∧
  (∀ (k current : Nat) (s : State),
    ((s.sk k).phaseEnd = some s.now → exec (.stkPeakTimeEnd k current) s = .next (s.waits (.stkPeakTimeEnd k current))) ∧
    ((stkThere s k && stkLead s k == k && stkPhase s k == 3 && s.due (s.sk k).phaseEnd && !(phaseActive (stkPhase s k) && dutyReached s k)) = true →
      let t := stkPeakTimeEndEffect k current s
      endOne (.stkPeakTimeEnd k current) s = t ∧ ((s.sk k).phaseEnd ≠ some s.now → exec (.stkPeakTimeEnd k current) s = .next t))) ∧
  (∀ (k : Nat) (s : State),
    ((s.sk k).phaseEnd = some s.now → exec (.stkHoldTimeEnd k) s = .next (s.waits (.stkHoldTimeEnd k))) ∧
    ((stkThere s k && stkLead s k == k && stkPhase s k == 4 && s.due (s.sk k).phaseEnd && !(phaseActive (stkPhase s k) && dutyReached s k)) = true →
      let t := stkQuench s k 1
      endOne (.stkHoldTimeEnd k) s = t ∧ ((s.sk k).phaseEnd ≠ some s.now → exec (.stkHoldTimeEnd k) s = .next t))) ∧
  (∀ (k : Nat) (s : State),
    ((s.sk k).phaseEnd = some s.now → exec (.quenchEnd k) s = .next (s.waits (.quenchEnd k))) ∧
    ((stkThere s k && stkLead s k == k && stkPhase s k == 5 && s.due (s.sk k).phaseEnd && !(phaseActive (stkPhase s k) && dutyReached s k)) = true →
      let t := (let s := s.setSk k (fun e => { e with phaseEnd := none }); raiseSrc (setPhase (s.put (stkP k) STK_STAT_DONE 1) k 0) (0x190 + k))
      endOne (.quenchEnd k) s = t ∧ ((s.sk k).phaseEnd ≠ some s.now → exec (.quenchEnd k) s = .next t))) ∧
  (∀ (k : Nat) (s : State),
    (stkThere s k && stkLead s k == k && (stkPhase s k == 3 || stkPhase s k == 4) && (s.sk k).chopEnd.isNone) = true →
      exec (.chopCurrentReached k) s = .next (chopCurrentReachedEffect k s)) ∧
  (∀ (k : Nat) (s : State),
    (stkThere s k && stkLead s k == k && (stkPhase s k == 3 || stkPhase s k == 4) && s.due (s.sk k).chopEnd) = true →
      exec (.chopOffTimeEnd k) s = .next (stkApply (s.setSk k (fun e => { e with chopEnd := none, regOn := s.now })) k)) ∧
  (∀ (k : Nat) (s : State),
    (stkThere s k && stkLead s k == k) = true →
      exec (.dutyLimitReached k) s = .next (stkDuty s k)) ∧
  (∀ (k : Nat) (s : State),
    let len := s.get (stkP k) STK_DUTY_DWIN * 156250
    (stkThere s k && stkLead s k == k && s.reached ((s.sk k).segAt + BitVec.ofNat 36 len)) = true →
      exec (.dutySegmentRoll k) s = .next (dutySegmentRollEffect k s))

/-- Events of strings, sinks, matrix and latch chain have their effect.  For every state and operands that meet the condition named (the event's precondition), the command answers the next state with the effect. The model's own readings: what the condition stands for (log entry 32), and that a timeout served in its own tick waits for the tick's end (log entry 31). Named: STRING_FREQ_UPDATE, STRING_PWM_BOUNDARY, STRING_OPEN, STRING_OPEN_RETEST, STRING_SHORT, STRING_OUTPUT_SHORT, STRING_THERMAL, SINK_PWM_BOUNDARY, SINK_OPEN, SINK_SHORT, SINK_BANK_THERMAL, DIAG_AGE_EXPIRY, OFFTEST_START, OFFTEST_END, MATRIX_ROW_SLOT, MATRIX_ROW_TRIP, LCH_REFRESH, LCH_FRAME_END. -/
def Obligations.LightingEventsComplete : Prop :=
  (∀ (n istr vstr vfeed loss : Nat) (tj : Int) (maxDuty : Bool) (s : State),
    s.ready .light = true →
    (decide (n < 8) && tgtUsed s (.str n)) = true →
      exec (.stringFreqUpdate n istr vstr vfeed loss tj maxDuty) s = .next (stringFreqUpdateEffect n istr vstr vfeed loss tj maxDuty s)) ∧
  (∀ (n : Nat) (s : State),
    s.ready .light = true →
    ((s.st n).boundary = some s.now → exec (.stringPwmBoundary n) s = .next (s.waits (.stringPwmBoundary n))) ∧
    ((decide (n < 8) && strRuns s n && s.due (s.st n).boundary) = true →
      let t := (let v := strNext s n; strBegin s n v.1 v.2)
      endOne (.stringPwmBoundary n) s = t ∧ ((s.st n).boundary ≠ some s.now → exec (.stringPwmBoundary n) s = .next t))) ∧
  (∀ (n : Nat) (s : State),
    s.ready .light = true →
    (strMeasurable s n) = true →
      exec (.stringOpen n) s = .next (stFault (s.setSt n (fun e => { e with stopped := true, retestAt := s.now, meas := strMeas s n })) n LGT_STFAULT_OPEN)) ∧
  (∀ (n : Nat) (closed : Bool) (s : State), s.ready .light = true → (decide (n < 8) && retestDue s n) = true →
    let t := (strDiagnosed s n).setSt n (fun e => { e with retestAt := s.now })
    exec (.stringOpenRetest n closed) s =
      .next (if closed then t.setSt n (fun e => { e with stopped := false, edge := t.now }) else stFault t n LGT_STFAULT_OPEN)) ∧
  (∀ (n : Nat) (s : State),
    s.ready .light = true →
    (strMeasurable s n && decide (us 50 ≤ strMeas s n) && s.get (stP n) LGT_STDIAG_SHV != 0) = true →
      exec (.stringShort n) s = .next (stFault s n LGT_STFAULT_SHORT)) ∧
  (∀ (n : Nat) (s : State),
    s.ready .light = true →
    (strMeasurable s n && (stState s n == 1 || stState s n == 2 || stState s n == 3)) = true →
      exec (.stringOutputShort n) s = .next (let s := strWant (strStop s n) n false; let s := s.put (stP n) LGT_STSTAT_STATE 4; stFault (stFault s n LGT_STFAULT_OUTSC) n LGT_STFAULT_LOCK)) ∧
  (∀ (n : Nat) (hot : Bool) (s : State),
    s.ready .light = true →
    (decide (n < 8) && tgtUsed s (.str n)) = true →
      exec (.stringThermal n hot) s = .next (stringThermalEffect n hot s)) ∧
  (∀ (s : State),
    s.ready .light = true →
    (s.light.skNext = some s.now → exec .sinkPwmBoundary s = .next (s.waits .sinkPwmBoundary)) ∧
    ((s.due s.light.skNext) = true →
      let t := sinkPwmBoundaryEffect s
      endOne .sinkPwmBoundary s = t ∧ (s.light.skNext ≠ some s.now → exec .sinkPwmBoundary s = .next t))) ∧
  (∀ (n : Nat) (s : State),
    s.ready .light = true →
    (sinkMeasurable s n) = true →
      exec (.sinkOpen n) s = .next (sinkOpenEffect n s)) ∧
  (∀ (n : Nat) (s : State),
    s.ready .light = true →
    (sinkMeasurable s n) = true →
      exec (.sinkShort n) s = .next (skFault s n LGT_SKSTAT_SHORT)) ∧
  (∀ (n : Nat) (hot : Bool) (s : State),
    s.ready .light = true →
    (decide (n < 6)) = true →
      exec (.sinkBankThermal n hot) s = .next (sinkBankThermalEffect n hot s)) ∧
  (∀ (isSink : Bool) (n : Nat) (s : State),
    s.ready .light = true →
    (ageEnd s isSink n = s.now → exec (.diagAgeExpiry isSink n) s = .next (s.waits (.diagAgeExpiry isSink n))) ∧
    ((diagIdx isSink n && tgtUsed s (diagTgt isSink n) && !diagNow s isSink n && s.reached (ageEnd s isSink n) && diagAt s isSink n != s.now) = true →
      let t := if isSink then s.put (skP n) LGT_SKSTAT_UNDIAG 1 else s.put (stP n) LGT_STSTAT_UNDIAG 1
      endOne (.diagAgeExpiry isSink n) s = t ∧ (ageEnd s isSink n ≠ s.now → exec (.diagAgeExpiry isSink n) s = .next t))) ∧
  (∀ (isSink : Bool) (n : Nat) (s : State),
    s.ready .light = true →
    (diagIdx isSink n && tgtUsed s (diagTgt isSink n) && diagMode s isSink n == 2 && offTestOk s isSink n) = true →
      exec (.offtestStart isSink n) s = .next (offtestStartEffect isSink n s)) ∧
  (∀ (isSink : Bool) (n volt vfeed : Nat) (s : State),
    s.ready .light = true →
    (diagIdx isSink n && s.due (if isSink then (s.sn n).testEnd else (s.st n).testEnd)) = true →
      exec (.offtestEnd isSink n volt vfeed) s = .next (offtestEndEffect isSink n volt vfeed s)) ∧
  (∀ (s : State),
    s.ready .light = true →
    (s.light.matrix.nextSlot = some s.now → exec .matrixRowSlot s = .next (s.waits .matrixRowSlot)) ∧
    ((hasMatrix s && s.due s.light.matrix.nextSlot) = true →
      let t := mxSlot s ((s.get lgt LGT_MXSTAT_ROW + 1) % max 1 (mxRows s))
      endOne .matrixRowSlot s = t ∧ (s.light.matrix.nextSlot ≠ some s.now → exec .matrixRowSlot s = .next t))) ∧
  (∀ (s : State),
    s.ready .light = true →
    (rowOn s) = true →
      exec .matrixRowTrip s = .next (matrixRowTripEffect s)) ∧
  (∀ (s : State),
    s.ready .light = true →
    let r := s.get lch LCH_CTRL_REFR
    (s.flag lch LCH_CTRL_EN && r != 0 && s.reached (s.light.chain.started + BitVec.ofNat 36 (ms r)) && s.light.chain.started != s.now) = true →
      exec .lchRefresh s = .next (chainRequest s)) ∧
  (∀ (s : State),
    s.ready .light = true →
    (s.due s.light.chain.frameEnd) = true →
      exec .lchFrameEnd s = .next (let s := (s.incField lch LCH_STAT_FRAMES).put lch LCH_STAT_BUSY 0; raiseSrc (s.setChain (fun c => { c with frameEnd := none })) 0x1D0))

/-- Events of inputs, timers, ruling, interrupts and the safety manager have their effect.  For every state and operands that meet the condition named (the event's precondition), the command answers the next state with the effect. The model's own readings: what the condition stands for (log entry 32), and that a timeout served in its own tick waits for the tick's end (log entry 31). That the four rows of a tick are that tick is log entry 20. Named: COMPARATOR_CROSSING, ADC_SCAN_PERIOD, ADC_RULE_START, ADC_CONVERSION_DONE, ADC_SCAN_DONE, TIMER_RULE_START, TIMER_RULE_STOP, TIMER_CAPTURE_RULE, TIMER_CAPTURE_EDGE, RULE_EVENT, INTERRUPT_PRESENT, INTERRUPT_TAKEN, SAFE_FAULT_DETECT, LOCKSTEP_MISMATCH, VOTER_SELF_TEST, SRAM_SCRUB, NVM_SCRUB, SELFTEST_OVERDUE, OPERATING_RANGE_CHANGE, TIMER_PERIOD_END, TIMER_COMPARE_MATCH, CAPTURE_TIMEOUT, RULE_DELIVERY, INPUT_SCAN, INTERRUPT_CLAIM, ADC_RESULT_READ, TIMER_CAP_READ, TIMER_COUNT_SNAPSHOT. -/
def Obligations.InputTimerAndSafetyEventsComplete : Prop :=
  (∀ (n : Nat) (volt : Int) (s : State),
    s.ready .tbase = true →
    (decide (n < 8) && s.flag (inpI n) INP_ACFG_USE && (s.pwr.state == .run || s.pwr.state == .lift)) = true →
      exec (.comparatorCrossing n volt) s = .next (comparatorCrossingEffect n volt s)) ∧
  (∀ (s : State),
    s.ready .tbase = true →
    (s.flag inpB INP_ADCTRL_EN && !s.flag inpB INP_ADCTRL_TRIG && s.due s.inp.adNext) = true →
      exec .adcScanPeriod s = .next (adDue { s with inp := { s.inp with adNext := s.inp.adNext.map (fun t => t + BitVec.ofNat 36 (us (s.get inpB INP_ADCTRL_PER))) } })) ∧
  (∀ (s : State),
    s.ready .tbase = true →
    exec .adcRuleStart s = .next (adPulse s)) ∧
  (∀ (volt : Int) (s : State) (k : Nat) (t : Word), s.ready .tbase = true → s.inp.adPos = some k → s.inp.adEnd = some t →
    s.reached t = true →
    let p := inpI (adEntry s k)
    let d := s.drawn
    let at_ := t - BitVec.ofNat 36 (d.free.toNat % (us 1 + 1))
    let u := ((d.drawn.put p INP_ADRES_VAL (adResult s (adEntry s k) volt)).put p INP_ADRES_STAMP (at_.toNat % 2 ^ 23)).put p INP_ADRES_NEW 1
    exec (.adcConversionDone volt) s = .next { u with inp := { u.inp with
      adPos := some (k + 1), adEnd := if u.get inpB INP_ADCTRL_NSEQ ≤ k + 1 then none else some (u.after (us 1)) } }) ∧
  (∀ (s : State),
    s.ready .tbase = true →
    (match s.inp.adPos with | some k => decide (s.get inpB INP_ADCTRL_NSEQ ≤ k) | none => false) = true →
      exec .adcScanDone s = .next (let s := (s.incField inpB INP_ADSTAT_SCANS).put inpB INP_ADSTAT_BUSY 0; let again := s.inp.adAgain; let s := raiseSrc { s with inp := { s.inp with adPos := none, adEnd := none, adAgain := false } } 0x180; s.when again adStart)) ∧
  (∀ (n : Nat) (s : State),
    s.ready .tbase = true →
    exec (.timerRuleStart n) s = .next (tmrRuled s n true)) ∧
  (∀ (n : Nat) (s : State),
    s.ready .tbase = true →
    exec (.timerRuleStop n) s = .next (tmrRuled s n false)) ∧
  (∀ (n : Nat) (s : State),
    s.ready .tbase = true →
    (tmrTakes s n 0) = true →
      exec (.timerCaptureRule n) s = .next (tmrCapMark s n)) ∧
  (∀ (n : Nat) (rising : Bool) (s : State),
    s.ready .tbase = true →
    let e := s.get (tmrP n) TMR_CTRL_CEDGE
    (tmrTakes s n 1 && termFunc s (241 + n) (16 + n) && (e == 2 || (e == 0) == rising)) = true →
      exec (.timerCaptureEdge n rising) s = .next (tmrCapMark s n)) ∧
  (∀ (code : Nat) (rising : Bool) (s : State), s.ready .tbase = true →
    ((0x70 ≤ code ∧ code < 0x90) ∨ (0x188 ≤ code ∧ code < 0x190) →
      exec (.ruleEvent code rising) s = .next (raiseLevel s code rising)) ∧
    (¬ ((0x70 ≤ code ∧ code < 0x90) ∨ (0x188 ≤ code ∧ code < 0x190)) →
      exec (.ruleEvent code rising) s = .next (raiseSrc s code))) ∧
  (∀ (t : Fin 5) (s : State), isDown s = false → bestSource s t.val = none →
    exec (.interruptPresent t) s = .next (setIcu s.drawn (fun i => { i with presented := i.presented.set t.val none }))) ∧
  (∀ (t : Fin 5) (s : State), isDown s = false → (bestSource s t.val).isSome = true →
    let r := setIcu s.drawn (fun i => { i with presented := i.presented.set t.val (bestSource s t.val) })
    let u := setPwr (r.setCore t.val (fun k => { k with waiting := false })) (fun p => { p with state := .run })
    exec (.interruptPresent t) s = .next (if (s.core t.val).waiting then entryAbort u else u)) ∧
  (∀ (c : CoreId) (s : State),
    let k := s.core c.val
    k.running = true → k.stopped = false → k.ie = true → k.exl = false → (s.icu.presented.getD c.val none).isSome = true →
      exec (.interruptTaken c) s = .next (enterExc s c.val k.pc (ecauseOf 0 0 3 0) 0 true k.sealing)) ∧
  (∀ (cls : Fin 16) (idx : BitVec 7) (a : Nat) (s : State),
    (cls != 0) = true →
      exec (.safeFaultDetect cls idx a) s = .next (classFault s cls.val idx.toNat a)) ∧
  (∀ (who : Fin 3) (s : State),
    exec (.lockstepMismatch who) s = .next (classFault s (who.val + 1) who.val 0)) ∧
  (∀ (s : State), exec (.voterSelfTest none) s = .next (dropCause (testPassed s 0) (fun c => c.cls == 7))) ∧
  (∀ (b : Fin 128) (s : State), exec (.voterSelfTest (some b)) s = .next (testFailed (safeDetect s 7 b.val) 0)) ∧
  (∀ (fixed : Nat) (bad : List (Nat × Nat)) (s : State),
    exec (.sramScrub fixed bad) s = .next (testPassed ((countEcc s SAFE_ECC_SRAMC fixed).each bad (fun s x => eccFault s 5 x.1 x.2)) 1)) ∧
  (∀ (fixed : Nat) (bad : List (Nat × Nat)) (s : State),
    exec (.nvmScrub fixed bad) s = .next (testPassed ((countEcc s SAFE_ECC_NVMC fixed).each bad (fun s x => eccFault s 6 x.1 x.2)) 2)) ∧
  (∀ (t : Fin 4) (s : State),
    (!isDown s && s.hasSect 15 && decide (testPeriod s t.val < testElapsed s t.val) && !bitAt (s.rd (safeB + 0x20)) (35 - t.val)) = true →
      exec (.selftestOverdue t) s = .next (testFailed s t.val)) ∧
  (∀ (kl30 : Int) (feeds : List Int) (tbp : Int) (s : State),
    let inside (v : Int) : Bool := decide (6000 ≤ v ∧ v ≤ 32000)
    exec (.operatingRangeChange kl30 feeds tbp) s = .next (updateGact (s.put safeB SAFE_STAT_RANGE (!(inside kl30 && feeds.all inside && decide (-40 ≤ tbp ∧ tbp ≤ 105))).toNat))) ∧
  (∀ (n : Nat) (s : State),
    s.tbRun = true → (s.ready .tbase && tmrNext tmrPerNext tmrEnds s n) = true →
    let t := tmrTickEnd (endTick s)
    let u := tickOver t
    t.tbRun = true → u.posted = [] → exec (.timerPeriodEnd n) s = .next u) ∧
  (∀ (n : Nat) (s : State),
    s.tbRun = true → (s.ready .tbase && tmrNext tmrCmpNext tmrMeets s n) = true →
    let t := tmrTickEnd (endTick s)
    let u := tickOver t
    t.tbRun = true → u.posted = [] → exec (.timerCompareMatch n) s = .next u) ∧
  (∀ (n : Nat) (s : State),
    s.tbRun = true → (decide (n < 32) && (s.tm n).toDue && !((s.tm n).capDue && tmrRun s n && tmrMode s n == 2)) = true →
    let t := tmrTickEnd (endTick s)
    let u := tickOver t
    t.tbRun = true → u.posted = [] → exec (.captureTimeout n) s = .next u) ∧
  (∀ (line : Nat) (s : State),
    s.tbRun = true → (s.flights.any (fun e => e.line == line && e.tick == s.now + 1)) = true →
    let t := tmrTickEnd (endTick s)
    let u := tickOver t
    t.tbRun = true → u.posted = [] → exec (.ruleDelivery line) s = .next u) ∧
  (∀ (kl30 : Int) (pins : List (Nat × Int)) (s : State),
    s.ready .tbase = true →
    (scanDue s) = true →
      exec (.inputScan kl30 pins) s = .next (inputScanEffect kl30 pins s)) ∧
  (∀ (t : Fin 5) (src : Src) (s : State), s.ready Blk.icu.island = true → noneAhead s src.req (some .icu) = true →
    exec (.interruptClaim t src) s = .next (claimRead s t.val src).1) ∧
  (∀ (src : Src) (n : Fin 16) (s : State), s.ready Blk.inp.island = true → noneAhead s src.req (some .inp) = true →
    exec (.adcResultRead src n) s = .next (s.put (inpI n.val) INP_ADRES_NEW 0)) ∧
  (∀ (src : Src) (n : Fin 32) (s : State), s.ready Blk.tmr.island = true → noneAhead s src.req (some .tmr) = true →
    exec (.timerCapRead src n) s = .next (tmrCapRead s src n.val)) ∧
  (∀ (src : Src) (n : Fin 32) (s : State), s.ready Blk.tmr.island = true → noneAhead s src.req (some .tmr) = true →
    exec (.timerCountSnapshot src n) s = .next (tmrSnapshot s n.val))

/-- Events of CAN and LIN have their effect.  For every state and operands that meet the condition named (the event's precondition), the command answers the next state with the effect. The model's own readings: what the condition stands for (log entry 32), and that a timeout served in its own tick waits for the tick's end (log entry 31). Named: CAN_ERROR_DETECTED, CAN_PROTOCOL_EXCEPTION, CAN_RECOVERY_DONE, CAN_TX_SELECTION, CAN_ARBITRATION_START, CAN_TX_SUCCESS, CAN_TX_LOST, CAN_DISABLE_EFFECT, LIN_SLOT_START, LIN_HEADER_RECEIVED, LIN_RESPONSE_RECEIVED, LIN_RESPONSE_TIMEOUT, LIN_SLEEP_ENTRY, LIN_IDLE_TIMEOUT, LIN_WAKEUP_DETECT, LIN_SCHEDULE_RESUME. -/
def Obligations.CanAndLinEventsComplete : Prop :=
  (∀ (n : Fin 8) (kind : Fin 7) (dataPhase tx : Bool) (step : CanStep) (delay : Option Nat) (s : State),
    s.ready .net = true →
    (canErrorMeets n.val kind.val dataPhase tx step s) = true →
      exec (.canErrorDetected n kind dataPhase tx step delay) s = .next (canErrorDetectedEffect n kind dataPhase tx step delay s)) ∧
  (∀ (n : Fin 8) (s : State),
    s.ready .net = true →
    let b := canB n.val
    (s.flag b CAN_STAT_ACTIVE && s.flag b CAN_CTRL_FDE && !s.flag b CAN_STAT_TXING) = true →
      exec (.canProtocolException n) s = .next ((s.setCn n.val (fun c => { c with integ := true, txBuf := none })).put b CAN_ERRLOG_PXE 1)) ∧
  (∀ (n : Fin 8) (s : State),
    s.ready .net = true →
    let b := canB n.val
    (s.flag b CAN_STAT_RECOV) = true →
      exec (.canRecoveryDone n) s = .next (let s := canShow (s.setCn n.val (fun k => { k with txe := 0, rxe := 0 })) n.val; (s.put b CAN_STAT_RECOV 0).put b CAN_STAT_ACTIVE (s.get b CAN_CTRL_EN))) ∧
  (∀ (n : Fin 8) (s : State), s.ready .net = true → s.flag (canB n.val) CAN_STAT_ACTIVE = true →
    s.flag (canB n.val) CAN_STAT_TXING = false →
    let t := s.setCn n.val (fun c => { c with integ := false })
    exec (.canTxSelection n) s =
      .next (if !(t.cn n.val).leaving && canMode t n.val != 1 then canTxSelectionEffect n.val t else t)) ∧
  (∀ (n : Fin 8) (s : State) (k : Nat) (ws : List Word), s.ready .net = true → (s.cn n.val).txBuf = some (k, ws) →
    s.flag (canB n.val) CAN_STAT_ACTIVE = true → s.flag (canB n.val) CAN_STAT_TXING = false → (s.cn n.val).leaving = false →
      let t := (s.setCn n.val (fun c => { c with sof := s.now, onBus := some (frameOf s n.val ws) })).put (canB n.val) CAN_STAT_TXING 1
      exec (.canArbitrationStart n) s = .next (if k < 256 then setTxst t n.val k 2 else t)) ∧
  (∀ (n : Fin 8) (stamp : Word) (delay : Nat) (s : State) (k : Nat) (ws : List Word), s.ready .net = true →
    (s.cn n.val).txBuf = some (k, ws) → s.flag (canB n.val) CAN_STAT_TXING = true → near stamp (s.cn n.val).sof = true →
    ((s.flag (canB n.val) CAN_TDC_TDCEN && txBrs s n.val && decide (127 < delay)) = false →
      exec (.canTxSuccess n stamp delay) s = .next (canSent n.val k stamp (tdcMeasured s n.val (some delay)))) ∧
    ((s.flag (canB n.val) CAN_TDC_TDCEN && txBrs s n.val && decide (127 < delay)) = true →
      exec (.canTxSuccess n stamp delay) s = .next (canDelayError n delay s))) ∧
  (∀ (n : Fin 8) (s : State),
    s.ready .net = true →
    (s.flag (canB n.val) CAN_STAT_TXING) = true →
      exec (.canTxLost n) s = .next (txLost s n.val)) ∧
  (∀ (n : Fin 8) (s : State),
    s.ready .net = true →
    ((s.cn n.val).leaving && !s.flag (canB n.val) CAN_STAT_TXING) = true →
      exec (.canDisableEffect n) s = .next (canLeave s n.val)) ∧
  (∀ (n : Fin 12) (s : State),
    s.ready .net = true →
    let b := linB n.val
    let k := s.ln n.val
    let go := linState s n.val == 1 && !isResponder s n.val && s.flag b LIN_CTRL_SCHED && k.resume.isNone && !k.sleepHdr && !linBusy s n.val && (match k.slotEnd with | none => true | some t => s.reached t)
    go = true →
      exec (.linSlotStart n) s = .next (linSlotStartEffect n.val s)) ∧
  (∀ (n : Fin 12) (id : Fin 64) (brk : Word) (rate : Nat) (s : State),
    s.ready .net = true →
    let comes := if isResponder s n.val then linFollows s n.val rate else (s.ln n.val).cur == some id.val && s.reached (linHdrEnd s n.val)
    (linState s n.val == 1 && !(s.ln n.val).sleepHdr && comes) = true →
      exec (.linHeaderReceived n id brk rate) s = .next (linHeaderReceivedEffect n.val id brk rate s)) ∧
  (∀ (n : Fin 12) (data : List Nat) (sum : Nat) (s : State) (h : _), s.ready .net = true → (s.ln n.val).hdr = some h →
    linState s n.val = 1 → s.get (linF n.val h.id) LIN_FCFG_DIR = 2 → (s.now - h.fin).toNat ≤ linTimeout s n.val h →
    let os := (List.range (s.get (linF n.val h.id) LIN_FCFG_LEN)).map (fun i => data.getD i 0)
    (sum = linChecksum s n.val h.id os →
      exec (.linResponseReceived n data sum) s =
        .next (linReceived n.val h.id ((s.now - h.fin).toNat == linTimeout s n.val h) os s)) ∧
    (sum ≠ linChecksum s n.val h.id os →
      exec (.linResponseReceived n data sum) s = .next (linFault n.val h.id 2 s))) ∧
  (∀ (n : Fin 12) (err : Fin 6) (s : State) (h : _), s.ready .net = true → (s.ln n.val).hdr = some h → linState s n.val = 1 →
    err.val ≠ 0 → err.val ≠ 1 → exec (.linResponseTimeout n err) s = .next (linFault n.val h.id err.val s)) ∧
  (∀ (n : Fin 12) (s : State) (h : _), s.ready .net = true → (s.ln n.val).hdr = some h → linState s n.val = 1 →
    s.get (linF n.val h.id) LIN_FCFG_DIR = 2 →
    let dl := h.fin + BitVec.ofNat 36 (linTimeout s n.val h)
    (dl = s.now → exec (.linResponseTimeout n 1) s = .next (s.waits (.linResponseTimeout n 1))) ∧
    (linTimeout s n.val h ≤ (s.now - h.fin).toNat →
      endOne (.linResponseTimeout n 1) s = linFault n.val h.id 1 s ∧
      (dl ≠ s.now → exec (.linResponseTimeout n 1) s = .next (linFault n.val h.id 1 s)))) ∧
  (∀ (n : Fin 12) (s : State),
    s.ready .net = true →
    let ends := isResponder s n.val || ((s.ln n.val).sleepHdr && s.reached (linSleepEnd s n.val))
    (linState s n.val == 1 && ends) = true →
      exec (.linSleepEntry n) s = .next (linSleepEntryEffect n.val s)) ∧
  (∀ (n : Fin 12) (s : State),
    s.ready .net = true →
    (linIdleEnd s n.val = s.now → exec (.linIdleTimeout n) s = .next (s.waits (.linIdleTimeout n))) ∧
    ((linState s n.val == 1 && isResponder s n.val && s.reached (linIdleEnd s n.val)) = true →
      let t := (s.setLn n.val (fun k => { k with hdr := none })).put (linB n.val) LIN_STAT_STATE 2
      endOne (.linIdleTimeout n) s = t ∧ (linIdleEnd s n.val ≠ s.now → exec (.linIdleTimeout n) s = .next t))) ∧
  (∀ (n : Fin 12) (fin : Word) (s : State), linState s n.val = 2 → (s.pwr.state = .run ∨ s.pwr.state = .lift) →
    s.flag (linB n.val) LIN_CTRL_WKEN = false → (s.ln n.val).sleepAt ≠ some fin →
      exec (.linWakeupDetect n fin) s = .next (linWake s n.val fin)) ∧
  (∀ (n : Fin 12) (fin : Word) (s : State), linState s n.val = 1 → (s.pwr.state = .run ∨ s.pwr.state = .lift) → isDown s = false →
      exec (.linWakeupDetect n fin) s = .next (s.setLn n.val (fun k => { k with wakeAt := some fin, lastAct := s.now }))) ∧
  (∀ (n : Fin 12) (fin : Word) (s : State), s.flag (linB n.val) LIN_CTRL_WKEN = true → isDown s = true →
    let t := wakeDetect s 28
    (t.pwr.state = .park ∨ t.pwr.state = .capped) → t.flag (linB n.val) LIN_CTRL_WKEN = true →
      exec (.linWakeupDetect n fin) s = .next (t.setLn n.val (fun k => { k with wakeAt := some t.now }))) ∧
  (∀ (n : Fin 12) (s : State),
    s.ready .net = true →
    (s.due (s.ln n.val).resume) = true →
      exec (.linScheduleResume n) s = .next (s.setLn n.val (fun k => { k with resume := none, nextEnt := 0, slotEnd := none })))

/-- Events of Ethernet, the ring and network management have their effect.  For every state and operands that meet the condition named (the event's precondition), the command answers the next state with the effect. The model's own readings: what the condition stands for (log entry 32), and that a timeout served in its own tick waits for the tick's end (log entry 31). Named: ETH_FRAME_RECEIVED, ETH_FRAME_SENT, ETH_LINK_CHANGE, ETH_DISABLE, RING_FRAME_RECEIVED, RING_FRAME_RETURN, RING_ACK_TIMEOUT, RING_LINK_TRAINED, RING_LOCK_LOSS, RING_SYMBOL_LOCK, WAKE_TONE_RECEIVED, RING_BREAK_DETECT, RING_BREAK_SEND, RING_RELOCK, RING_CLAIM_SEND, RING_TIME_TIMEOUT, RING_TIME_SEND, RING_TIME_RETURN_TIMEOUT, RING_CENSUS_SEND, NMG_KEEPALIVE_RECEIVED, NMG_SLEEP_ABORT, NMG_KEEPALIVE_DUE, NMG_IDLE_TIMEOUT, NMG_REPEAT_END, NMG_DETECTOR_ARM, NMG_SLEEP_COMMIT, TRANSCEIVER_WAKE, WAKE_FRAME_DECODE, NMG_CONFIRM_TIMEOUT, TRANSCEIVER_SERVICE, TRANSCEIVER_SERVICE_TIMEOUT. -/
def Obligations.EthernetRingAndNmgEventsComplete : Prop :=
  (∀ (p : Fin 6) (octets : List Nat) (fcsOk : Bool) (stamp : Word) (s : State),
    s.ready .net = true →
    let b := ethB p.val
    (s.flag b ETH_STAT_ACTIVE && !(s.et p.val).rxStop && pastCount s stamp) = true →
      exec (.ethFrameReceived p octets fcsOk stamp) s = .next (ethFrameReceivedEffect p.val octets fcsOk stamp s)) ∧
  (∀ (p : Fin 6) (stamp : Word) (excess : Bool) (s : State), s.ready .net = true → pastCount s stamp = true →
    s.flag (ethB p.val) ETH_STAT_TXRUN = true → bitAt (s.word (txDesc s p.val)) 35 = true →
    (p.val < 4 ∨ s.flag (ethB p.val) TX_PHY_LINK = true) →
      exec (.ethFrameSent p stamp excess false) s = .next (ethSent p.val stamp excess s)) ∧
  (∀ (p : Fin 6) (stamp : Word) (s : State), s.ready .net = true → pastCount s stamp = true →
    p.val < 4 → kaReady s (8 + p.val) = true →
      exec (.ethFrameSent p stamp false true) s =
        .next (kaSent (s.setEt p.val (fun k => { k with sent := ethPad (kaFrame s (8 + p.val)) })) (8 + p.val) stamp)) ∧
  (∀ (n : Fin 2) (up : Bool) (sqi : BitVec 3) (s : State),
    s.ready .net = true →
    let p := 4 + n.val
    let b := ethB p
    (s.flag b ETH_STAT_ACTIVE) = true →
      exec (.ethLinkChange n up sqi) s = .next (ethLinkChangeEffect n up sqi s)) ∧
  (∀ (p : Fin 6) (s : State),
    s.ready .net = true →
    ((s.et p.val).closing) = true →
      exec (.ethDisable p) s = .next (ethStop s p.val)) ∧
  (∀ (h0 h1 : Word) (pay : List Word) (check : Word) (fin : RingEnd) (stamp : Word) (codeErr : Bool) (s : State),
    s.ready .ring = true →
    (decide (2 ≤ ringState s) && pastCount s stamp) = true →
      exec (.ringFrameReceived h0 h1 pay check fin stamp codeErr) s = .next (ringReceive s ⟨h0, h1, pay, check, fin⟩ stamp codeErr)) ∧
  (∀ (h0 h1 : Word) (pay : List Word) (check : Word) (fin : RingEnd) (stamp : Word) (s : State),
    s.ready .ring = true →
    let f : RingFrame := ⟨h0, h1, pay, check, fin⟩
    (decide (2 ≤ ringState s) && pastCount s stamp && hdrGood f && fSrc h0 == ringAddr s) = true →
      exec (.ringFrameReturn h0 h1 pay check fin stamp) s = .next (ringReceive s f stamp false)) ∧
  (∀ (i : Fin 4) (s : State),
    s.ready .ring = true →
    (ackEnd s i.val = s.now → exec (.ringAckTimeout i) s = .next (s.waits (.ringAckTimeout i))) ∧
    ((slotState s i.val == 2 && s.reached (ackEnd s i.val)) = true →
      let t := slotRetry s i.val 5
      endOne (.ringAckTimeout i) s = t ∧ (ackEnd s i.val ≠ s.now → exec (.ringAckTimeout i) s = .next t))) ∧
  (∀ (eq : Nat) (s : State),
    s.ready .ring = true →
    (ringTrained s) = true →
      exec (.ringLinkTrained eq) s = .next (ringLinkTrainedEffect eq s)) ∧
  (∀ (errs : Nat) (s : State),
    s.ready .ring = true →
    (ringState s != 0 && s.ring.lock) = true →
      exec (.ringLockLoss errs) s = .next (let s := s.put ringB RING_CNT_CRCERR (min 4095 (s.get ringB RING_CNT_CRCERR + errs)); setRing s (fun r => { r with lock := false, lossAt := s.now }))) ∧
  (∀ (s : State),
    s.ready .ring = true →
    (ringState s != 0 && !s.ring.lock) = true →
      exec .ringSymbolLock s = .next (setRing s (fun r => { r with lock := true, tone := false, lockAt := s.now }))) ∧
  (∀ (s : State),
    let t := if s.flag ringB RING_CTRL_WKEN then wakeDetect s 27 else s
    t.ready .ring = true → ringState t = 3 →
      exec .wakeToneReceived s =
        .next (setRing (t.put ringB RING_STAT_WAKESEEN 1) (fun r => { r with tone := true, wakeEnd := some (t.after (us 100)) }))) ∧
  (∀ (s : State),
    s.ready .ring = true →
    (decide (2 ≤ ringState s) && !s.ring.lock && !s.ring.tone && s.reached (s.ring.lossAt + BitVec.ofNat 36 (us 10))) = true →
      exec .ringBreakDetect s = .next (ringBreakDetectEffect s)) ∧
  (∀ (s : State),
    s.ready .ring = true →
    (ringState s == 4 && s.ring.brk && !s.ring.dup && s.reached s.ring.nextBreak) = true →
      exec .ringBreakSend s = .next (ringBreakSendEffect s)) ∧
  (∀ (s : State),
    s.ready .ring = true →
    (ringState s == 4 && s.ring.lock && s.reached (s.ring.lockAt + BitVec.ofNat 36 (us 100))) = true →
      exec .ringRelock s = .next (ringClaim s)) ∧
  (∀ (s : State),
    s.ready .ring = true →
    (ringState s == 2 && s.ring.claiming && s.reached s.ring.nextClaim) = true →
      exec .ringClaimSend s = .next (ringClaimSendEffect s)) ∧
  (∀ (s : State),
    s.ready .ring = true →
    (timeMissAt s = s.now → exec .ringTimeTimeout s = .next (s.waits .ringTimeTimeout)) ∧
    ((ringState s == 3 && s.reached (timeMissAt s)) = true →
      let t := ringClaim s
      endOne .ringTimeTimeout s = t ∧ (timeMissAt s ≠ s.now → exec .ringTimeTimeout s = .next t))) ∧
  (∀ (s : State),
    s.ready .ring = true →
    (ringState s == 3 && isKeeper s && s.ring.timeOut.isNone && s.reached s.ring.nextTime) = true →
      exec .ringTimeSend s = .next (timeSend s)) ∧
  (∀ (s : State),
    s.ready .ring = true →
    (timeReturnBy s = some s.now → exec .ringTimeReturnTimeout s = .next (s.waits .ringTimeReturnTimeout)) ∧
    ((ringState s == 3 && isKeeper s && s.due (timeReturnBy s)) = true →
      let t := ringBroken s
      endOne .ringTimeReturnTimeout s = t ∧ (timeReturnBy s ≠ some s.now → exec .ringTimeReturnTimeout s = .next t))) ∧
  (∀ (s : State),
    s.ready .ring = true →
    (ringState s == 3 && isKeeper s && s.reached s.ring.nextCensus) = true →
      exec .ringCensusSend s = .next (ringCensusSendEffect s)) ∧
  (∀ (c : Fin 12) (fr : NetFrame) (stamp : Word) (s : State) (nmid : Nat), s.ready .net = true →
    s.flag (nmgP c.val) NMG_CTRL_EN = true → portActive s c.val = true → pastCount s stamp = true → kaMatch s c.val fr = some nmid →
      exec (.nmgKeepaliveReceived c fr stamp) s = .next (kaReceived s c.val nmid stamp)) ∧
  (∀ (c : Fin 12) (s : State),
    s.ready .net = true →
    (nmgState s c.val == 3) = true →
      exec (.nmgSleepAbort c) s = .next (nmgAbort s c.val)) ∧
  (∀ (c : Fin 12) (s : State),
    s.ready .net = true →
    let k := s.nm c.val
    let past := s.due k.repEnd && !s.flag (nmgP c.val) NMG_CTRL_REQ
    (kaDue s c.val = s.now → exec (.nmgKeepaliveDue c) s = .next (s.waits (.nmgKeepaliveDue c))) ∧
    ((nmgState s c.val == 1 && !past && s.reached (kaDue s c.val)) = true →
      let t := kaMake s c.val (k.repEnd.isSome && !s.due k.repEnd)
      endOne (.nmgKeepaliveDue c) s = t ∧ (kaDue s c.val ≠ s.now → exec (.nmgKeepaliveDue c) s = .next t))) ∧
  (∀ (c : Fin 12) (s : State),
    s.ready .net = true →
    (idleEnd s c.val = s.now → exec (.nmgIdleTimeout c) s = .next (s.waits (.nmgIdleTimeout c))) ∧
    ((nmgState s c.val == 2 && s.reached (idleEnd s c.val)) = true →
      let t := nmgIrq (nmgTo (s.setNm c.val (fun k => { k with commit := some (s.after (ms (10 * s.get (nmgP c.val) NMG_TIME_PREP))), armed := false })) c.val 3) c.val 5
      endOne (.nmgIdleTimeout c) s = t ∧ (idleEnd s c.val ≠ s.now → exec (.nmgIdleTimeout c) s = .next t))) ∧
  (∀ (c : Fin 12) (s : State), s.ready .net = true → s.due (s.nm c.val).repEnd = true →
    let t := nmgSettle (s.setNm c.val (fun k => { k with repEnd := none })) c.val
    ((s.nm c.val).repEnd = some s.now → exec (.nmgRepeatEnd c) s = .next (s.waits (.nmgRepeatEnd c))) ∧
    endOne (.nmgRepeatEnd c) s = t ∧ ((s.nm c.val).repEnd ≠ some s.now → exec (.nmgRepeatEnd c) s = .next t)) ∧
  (∀ (c : Fin 12) (s : State) (t : Word), s.ready .net = true → (s.nm c.val).commit = some t → nmgState s c.val = 3 →
    s.reached (t - BitVec.ofNat 36 (us 100)) = true →
      exec (.nmgDetectorArm c) s = .next (s.setNm c.val (fun k => { k with armed := true, det := nmgDet s c.val }))) ∧
  (∀ (c : Fin 12) (s : State),
    s.ready .net = true →
    ((s.nm c.val).commit = some s.now → exec (.nmgSleepCommit c) s = .next (s.waits (.nmgSleepCommit c))) ∧
    ((nmgState s c.val == 3 && s.due (s.nm c.val).commit) = true →
      let t := nmgIrq (nmgTo (s.setNm c.val (fun k => { k with commit := none, armed := false })) c.val 4) c.val 4
      endOne (.nmgSleepCommit c) s = t ∧ ((s.nm c.val).commit ≠ some s.now → exec (.nmgSleepCommit c) s = .next t))) ∧
  (∀ (c : Fin 12) (ev : XcvrEvent) (s : State),
    ((s.nm c.val).xmode == 1) = true →
      exec (.transceiverWake c ev) s = .next (nmgSees s c.val ev)) ∧
  (∀ (c : Fin 12) (ev : XcvrEvent) (s : State),
    ((s.nm c.val).xmode == 1) = true →
      exec (.wakeFrameDecode c ev) s = .next (wakeFrameDecodeEffect c ev s)) ∧
  (∀ (c : Fin 12) (s : State),
    s.ready .net = true →
    ((s.nm c.val).confEnd = some s.now → exec (.nmgConfirmTimeout c) s = .next (s.waits (.nmgConfirmTimeout c))) ∧
    ((s.due (s.nm c.val).confEnd) = true →
      let t := nmgConfirmTimeoutEffect c s
      endOne (.nmgConfirmTimeout c) s = t ∧ ((s.nm c.val).confEnd ≠ some s.now → exec (.nmgConfirmTimeout c) s = .next t))) ∧
  (∀ (s : State),
    (s.ready .net) = true →
      exec .transceiverService s = .next (s.each (List.range 12) nmgServe)) ∧
  (∀ (c : Fin 12) (s : State),
    (unservedAt s c.val = s.now → exec (.transceiverServiceTimeout c) s = .next (s.waits (.transceiverServiceTimeout c))) ∧
    ((((s.nm c.val).xmode == 0 || (s.nm c.val).xmode == 2) && reachedAt s.clock (unservedAt s c.val)) = true →
      let t := xLow (s.setNm c.val (fun k => { k with det := if k.det == .none then .wup else k.det })) c.val
      endOne (.transceiverServiceTimeout c) s = t ∧ (unservedAt s c.val ≠ s.now → exec (.transceiverServiceTimeout c) s = .next t)))

/-- Events of the vault and the access unit have their effect.  For every state and operands that meet the condition named (the event's precondition), the command answers the next state with the effect. The model's own readings: what the condition stands for (log entry 32), and that a timeout served in its own tick waits for the tick's end (log entry 31). Named: CRYPT_JOB_DONE, KEY_LOAD_DONE, TAMPER_DETECT, TAMPER_ERASE_DONE, RESERVOIR_CHARGED, RESERVOIR_LOW, LC_SIGNATURE_VERIFIED, CHALLENGE_EXPIRY, SERVICE_TIME_END, SEAL_CALL_TIMEOUT, GRANT_FRAME_SEND, SESSION_TIMEOUT, GRACE_TIMEOUT, ACC_LOADING_DONE, ATTENTION_ASSERT, TOKEN_READ_END, TOKEN_READ_REPEAT, ACC_BACKOFF_END, EVAL_FRAME_END, ACC_COMMAND_ACT, ACC_LEARN_DONE. -/
def Obligations.VaultAndAccessEventsComplete : Prop :=
  (∀ (s : State),
    s.ready .signet = true →
    (cryptBusy s) = true →
      exec .cryptJobDone s = .next (let key := slotKey1 s (cryptSlot s); cryptEnd (if s.get cryptB CRYPT_JOB_ENG = 0 then cryptGcm s key else cryptMac s key))) ∧
  (∀ (s : State) (n node : Nat), s.ready .signet = true → s.vault.load = some (n, node) → kpolNode s node = none →
    exec .keyLoadDone s = .next (dropLoad s 0x07)) ∧
  (∀ (s : State) (n node : Nat) (e : _), s.ready .signet = true → s.vault.load = some (n, node) → kpolNode s node = some e →
    let r := if jobUses s n then cryptAbort s else s
    let t := if bitAt (slotReg r n) 35 && bitsOf (slotReg r n) 34 27 != node && accUses r n then accKeyLost r else r
    exec .keyLoadDone s =
      .next (vaultDone (setVault (fillSlot t n (nodeKey t 8 node) (slotAttrs e)) (fun v => { v with load := none })) 0)) ∧
  (∀ (t : Fin 6) (s : State),
    (t != 0 && tamperArmed s t.val && lcState s != 5) = true →
      exec (.tamperDetect t) s = .next (tamper s t.val)) ∧
  (∀ (s : State),
    s.vault.erasing = true →
      exec .tamperEraseDone s = .next ({ setVault (signetMemClear s) (fun v => { v with erasing := false, warmAt := s.after (us 100) }) with warmDue := some .tamper })) ∧
  (∀ (s : State),
    exec .reservoirCharged s = .next (s.put vaultB VAULT_LC_RSVOK 1)) ∧
  (∀ (s : State),
    exec .reservoirLow s = .next (clearSlots (s.put vaultB VAULT_LC_RSVOK 0) 0x14)) ∧
  (∀ (s : State) (op : Nat) (dur : _) (src : _), s.ready .signet = true → s.vault.verify = some (op, dur, false, src) →
    exec .lcSignatureVerified s =
      .next (vaultDone ((setVault s (fun v => { v with verify := none })).reject .vault src 4 0x12) 0x12)) ∧
  (∀ (s : State) (dur : _) (src : _), s.ready .signet = true → s.vault.verify = some (5, dur, true, src) →
    let t := (setLc (setVault s (fun v => { v with verify := none })) 3).put vaultB VAULT_LC_SVCLEFT dur
    exec .lcSignatureVerified s =
      .next (vaultDone (setVault t (fun v => { v with svcMin := some (t.after (sec 60)) })) 0)) ∧
  (∀ (s : State) (op : Nat) (dur : _) (src : _), s.ready .signet = true → op ≠ 5 → s.vault.verify = some (op, dur, true, src) →
    exec .lcSignatureVerified s = .next (vaultDone (setLc (setVault s (fun v => { v with verify := none })) 4) 0)) ∧
  (∀ (s : State),
    s.ready .signet = true →
    (s.vault.chalEnd = some s.now → exec .challengeExpiry s = .next (s.waits .challengeExpiry)) ∧
    ((s.due s.vault.chalEnd) = true →
      let t := setVault s (fun v => { v with chalEnd := none })
      endOne .challengeExpiry s = t ∧ (s.vault.chalEnd ≠ some s.now → exec .challengeExpiry s = .next t))) ∧
  (∀ (s : State),
    (serviceOver s) = true →
      exec .serviceTimeEnd s = .next (setLc s 2)) ∧
  (∀ (c : Fin 4) (s : State),
    s.ready .signet = true →
    let k := s.core c.val
    (callEnd s c.val = s.now → exec (.sealCallTimeout c) s = .next (s.waits (.sealCallTimeout c))) ∧
    (((k.sealing || k.sealHeld.head? == some none) && s.reached (callEnd s c.val)) = true →
      let t := sealAnswer ((s.put (cstatP c.val) VAULT_CSTAT_PEND 0).put (cstatP c.val) VAULT_CSTAT_TOUT 1) c.val 0x10 false
      endOne (.sealCallTimeout c) s = t ∧ (callEnd s c.val ≠ s.now → exec (.sealCallTimeout c) s = .next t))) ∧
  (∀ (s : State),
    s.ready .signet = true →
    (s.due s.acc.grantAt) = true →
      exec .grantFrameSend s = .next (grantFrameSendEffect s)) ∧
  (∀ (s : State),
    s.ready .signet = true →
    (s.acc.timer = some s.now → exec .sessionTimeout s = .next (s.waits .sessionTimeout)) ∧
    ((sessState s == 1 && s.due s.acc.timer) = true →
      let t := sessEnd (lockAct s false) 2
      endOne .sessionTimeout s = t ∧ (s.acc.timer ≠ some s.now → exec .sessionTimeout s = .next t))) ∧
  (∀ (s : State),
    s.ready .signet = true →
    (s.acc.timer = some s.now → exec .graceTimeout s = .next (s.waits .graceTimeout)) ∧
    ((sessState s == 2 && s.due s.acc.timer) = true →
      let t := sessEnd s 4
      endOne .graceTimeout s = t ∧ (s.acc.timer ≠ some s.now → exec .graceTimeout s = .next t))) ∧
  (∀ (s : State),
    s.ready .signet = true →
    (accState s == 1) = true →
      exec .accLoadingDone s = .next (accLoadingDoneEffect s)) ∧
  (∀ (ch : Fin 2) (s : State), accPresent s = true → s.ready .signet = true →
    let t := s.put (accB + 4 * ch.val) ACC_CH_ATTN 1
    exec (.attentionAssert ch) s =
      .next (wakeDetect (if accReady s && !s.acc.reading.getD ch.val false then startRead t ch.val else t) (25 - ch.val))) ∧
  (∀ (ch : Fin 2) (octets : List Nat) (asserted : Bool) (s : State),
    s.ready .signet = true →
    let least := 12000 / s.get (accB + 4 * ch.val) ACC_CH_CLK
    (s.acc.reading.getD ch.val false && octets.length == 14 && s.reached (s.acc.readAt.getD ch.val 0 + BitVec.ofNat 36 least)) = true →
      exec (.tokenReadEnd ch octets asserted) s = .next (tokenReadEndEffect ch.val octets asserted s)) ∧
  (∀ (ch : Fin 2) (s : State),
    s.ready .signet = true →
    (accReady s && attn s ch.val && !s.acc.reading.getD ch.val false && s.reached (s.acc.readEnd.getD ch.val 0 + BitVec.ofNat 36 (ms 1))) = true →
      exec (.tokenReadRepeat ch) s = .next (startRead s ch.val)) ∧
  (∀ (ch : Fin 2) (s : State),
    s.ready .signet = true →
    (s.acc.boff.getD ch.val none = some s.now → exec (.accBackoffEnd ch) s = .next (s.waits (.accBackoffEnd ch))) ∧
    ((s.due (s.acc.boff.getD ch.val none)) = true →
      let t := releaseHeld (setAcc s (fun a => { a with boff := a.boff.set ch.val none })) ch.val
      endOne (.accBackoffEnd ch) s = t ∧ (s.acc.boff.getD ch.val none ≠ some s.now → exec (.accBackoffEnd ch) s = .next t))) ∧
  (∀ (s : State),
    s.ready .signet = true →
    (s.acc.frameEnd = some s.now → exec .evalFrameEnd s = .next (s.waits .evalFrameEnd)) ∧
    ((accReady s && s.due s.acc.frameEnd) = true →
      let t := evalFrameEndEffect s
      endOne .evalFrameEnd s = t ∧ (s.acc.frameEnd ≠ some s.now → exec .evalFrameEnd s = .next t))) ∧
  (∀ (s : State) (n cmd : Nat), s.ready .signet = true → s.acc.exec = some (n, cmd) →
    let t := setAcc s (fun a => { a with ctrs := accCtrs s, exec := none, recVer := a.recVer + 1 })
    exec .accCommandAct s = .next (
      if cmd = 1 then sessIgnition (sessUnlock t n)
      else if cmd = 2 then sessLock t
      else accIrq (((t.put accB ACC_FWCMD_PEND 1).put accB ACC_FWCMD_SLOT n).put accB ACC_FWCMD_CMD cmd) 7)) ∧
  (∀ (s : State) (cand : _) (ctrs : _), s.ready .signet = true → s.acc.learn = some (cand, ctrs) →
    let b := if s.acc.commit = some 0 then 1 else 0
    let t := setAcc s (fun a => { a with
      banks := a.banks.set b (some cand), commit := some b, ctrs := ctrs, learn := none, recVer := a.recVer + 1,
      set := if a.set.isSome || accReady s then some cand else none })
    exec .accLearnDone s =
      .next (accIrq (((showSet t cand ctrs).put accB ACC_LSTAT_BUSY 0).put accB ACC_LSTAT_DONE 1) 1))

/-- Resets, power states and wakes have their effect.  For every state and operands that meet the condition named (the event's precondition), the command answers the next state with the effect. The model's own readings: what the condition stands for (log entry 32), and that a timeout served in its own tick waits for the tick's end (log entry 31). Named: POWER_STATE_CHOICE, PARK_ENTRY_COMMIT, PARK_INPUT_SAMPLE, WAKE_STAGE_READY, WAKE_STAGE_FAILURE, WAKE_RETRY, AON_WRITE_EFFECT, WAKE_DETECT, RTC_SECOND, POWER_ON_RESET, RESET_N_ASSERT, WARM_RESET, CORE_RESET, BOOT_WATCHDOG_EXPIRY, SAFE_RESET_ASSERT, PLL1_LOSS, FABRIC_TIMEOUT, VOTE_CORRECTION. -/
def Obligations.PowerAndResetEventsComplete : Prop :=
  (∀ (save : Nat) (s : State), isRunning s = true → s.pwr.entry = none → s.pwr.stage = none →
    (s.pwr.state = .run ∨ s.pwr.state = .lift) → (requesters s).all (fun k => (s.core k).waiting) = true →
    s.pwr.state.code < chosenState s → 2 ≤ chosenState s →
      exec (.powerStateChoice save) s = .next (
        if chosenState s = 2 then setPwr s (fun p => { p with state := .lift })
        else setPwr (s.put pwrB PWR_STAT_ENTRY 1) (fun p => { p with
          state := .run, entry := some (.ofCode (chosenState s), s.after (min save 4000 + 1)) }))) ∧
  (∀ (s : State) (st : PState) (t : Word), s.pwr.entry = some (st, t) → s.reached t = true →
    let u := s.put pwrB PWR_STAT_ENTRY 0
    let v := if st.code ≤ (islandCaps s).foldl min 5 then downAt u st else setPwr u (fun p => { p with entry := none })
    (t = s.now → exec .parkEntryCommit s = .next (s.waits .parkEntryCommit)) ∧
    endOne .parkEntryCommit s = v ∧ (t ≠ s.now → exec .parkEntryCommit s = .next v)) ∧
  (∀ (kl30 : Int) (pins ans : List (Nat × Int)) (s : State),
    (isDown s && !s.tbRun && decide (parkAtEnd s ≤ s.rtcN * 390625 / 128)) = true →
      exec (.parkInputSample kl30 pins ans) s = .next (parkInputSampleEffect kl30 pins ans s)) ∧
  (∀ (n : Nat) (tbp : Int) (b : BootIn) (s : State), s.pwr.stage = some .logic → stageInTime s.pwr.from_ .logic n = true →
    let t := wakeLog s .logic n
    exec (.wakeStageReady n tbp b) s =
      .next (if t.pwr.from_ = .rest then restExit t else parkExit t (t.pwr.from_ == PState.capped) tbp)) ∧
  (∀ (n : Nat) (tbp : Int) (b : BootIn) (s : State), s.pwr.stage = some .boot →
    let t := wakeLog s .boot n
    exec (.wakeStageReady n tbp b) s =
      .next (wakeEnd (if t.pwr.from_ = .capped then cappedStart t b else parkStart t b))) ∧
  (∀ (n : Nat) (tbp : Int) (b : BootIn) (s : State), s.pwr.stage = some .pll → stageInTime s.pwr.from_ .pll n = true →
    exec (.wakeStageReady n tbp b) s = .next (setPwr (wakeLog s .pll n) (fun p => { p with
      pll1 := true, pll2 := true, pll1Lost := false, stage := some (nextStage p.from_ .pll) }))) ∧
  (∀ (n : Nat) (tbp : Int) (b : BootIn) (s : State), s.pwr.stage = some .regulator → stageInTime s.pwr.from_ .regulator n = true →
    exec (.wakeStageReady n tbp b) s = .next (setPwr (wakeLog s .regulator n) (fun p => { p with
      stage := some (nextStage p.from_ .regulator) }))) ∧
  (∀ (s : State) (st : _), s.pwr.stage = some st → st ≠ .boot →
    let t := setPwr (s.putNat pwrB PWR_LAT_LAT (s.get pwrB PWR_LAT_LAT + 4 * st.limit s.pwr.from_))
      (fun p => { p with failedAny := true, pll1 := false, pll2 := false })
    exec .wakeStageFailure s = .next (
      if t.pwr.retried = false then setPwr t (fun p => { p with stage := some .regulator, retried := true })
      else forcedCapped ((t.satField aonB AON_WAKEFLT_CNT).put aonB AON_WAKEFLT_STAGE st.code))) ∧
  (∀ (s : State),
    (s.pwr.retryDue && s.reached (s.pwr.wakeTick + BitVec.ofNat 36 (ms 100))) = true →
      exec .wakeRetry s = .next (wakeRetryEffect s)) ∧
  (∀ (s : State),
    exec .aonWriteEffect s = .next (rtcEdge s)) ∧
  (∀ (src : Fin 9) (s : State), src ≠ 5 → unitOn s src = true →
    exec (.wakeDetect src) s = .next (wakeDetect s (wakeBit src))) ∧
  (∀ (s : State), alarmNext s = true → exec (.wakeDetect 5) s = .next (rtcEdge s)) ∧
  (∀ (s : State),
    let t := rtcCycles s (32767 - s.get aonB AON_RTCSUB_SUB)
    exec .rtcSecond s = .next (rtcEdge (aonTake (t.put aonB AON_RTCSUB_SUB 32767)))) ∧
  (∀ (cause : PorCause) (b : BootIn) (s : State),
    exec (.powerOnReset cause b) s = .next (
      if s.boot.ext && s.boot.began == s.now then (porStart s cause b).put sysB SYS_RSTCAUSE_EXT 1 else porStart s cause b)) ∧
  (∀ (ns : Nat) (tbp : Int) (b : BootIn) (s : State), 1000 ≤ ns → resetPinOff s = false →
    ¬ (s.boot.path = .por ∧ s.boot.began = s.now) →
      exec (.resetNAssert ns tbp b) s = .next (setBoot (warmFrom s .external tbp b) (fun x => { x with ext := true }))) ∧
  (∀ (ns : Nat) (tbp : Int) (b : BootIn) (s : State), 1000 ≤ ns → resetPinOff s = false →
    s.boot.path = .por → s.boot.began = s.now →
      exec (.resetNAssert ns tbp b) s = .next (s.put sysB SYS_RSTCAUSE_EXT 1)) ∧
  (∀ (ns : Nat) (tbp : Int) (b : BootIn) (s : State), 200 ≤ ns → ns < 1000 → resetPinOff s = false →
    ¬ (s.boot.path = .por ∧ s.boot.began = s.now) →
      exec (.resetNAssert ns tbp b) s = .next (
        if s.freeBit then setBoot (warmFrom s.drawn .external tbp b) (fun x => { x with ext := true }) else s.drawn)) ∧
  (∀ (ns : Nat) (tbp : Int) (b : BootIn) (s : State), ns < 200 → exec (.resetNAssert ns tbp b) s = .next s) ∧
  (∀ (tbp : Int) (b : BootIn) (s : State), ¬ (s.warmDue = some .tamper ∧ s.reached s.vault.warmAt = false) →
    exec (.warmReset tbp b) s = .next (warmFrom s (s.warmDue.getD .bootFail) tbp b)) ∧
  (∀ (tbp : Int) (b : BootIn) (s : State), s.warmDue = some .tamper → s.reached s.vault.warmAt = false →
    exec (.warmReset tbp b) s = .next s) ∧
  (∀ (pairB s8ok : Bool) (s : State),
    exec (.coreReset pairB s8ok) s = .next (coreStart s pairB.toNat false s8ok)) ∧
  (∀ (b : BootIn) (s : State) (k : _), s.boot.mode = .hung k → s.reached (s.boot.began + BitVec.ofNat 36 (sec 1)) = true →
    exec (.bootWatchdogExpiry b) s = .next (warmStart (setBoot s (fun x => { x with hungAt := some k })) .watchdog b)) ∧
  (∀ (s8ok : Bool) (b : BootIn) (s : State),
    let due := s.safe.resetDue.filter (fun d => s.reached d.2.2)
    let t := { s with safe := { s.safe with resetDue := s.safe.resetDue.filter (fun d => !s.reached d.2.2) } }
    exec (.safeResetAssert s8ok b) s = .next (
      if due.any (fun d => d.1 == 2) then warmFrom t .safe 0 b
      else t.each (due.map (fun d => d.2.1)).eraseDups (fun s p => coreStart s p true s8ok))) ∧
  (∀ (crystal : Bool) (s : State),
    s.pwr.pll1 = true →
      exec (.pll1Loss crystal) s = .next (pll1LossEffect crystal s)) ∧
  (∀ (ecc : Bool) (req addr : Nat) (s : State),
    exec (.fabricTimeout ecc req addr true) s =
      .next ((safeDetect (s.fabErr (if ecc then 0x12 else 0x11) req addr) 8 req).setRej req)) ∧
  (∀ (ecc : Bool) (c : CoreId) (addr : Nat) (s : State),
    let code := if ecc then 0x12 else 0x11
    let t := safeDetect (s.fabErr code c.val addr) 8 c.val
    canIssue t c = true →
      exec (.fabricTimeout ecc c.val addr false) s = .next (t.fault c .load code (BitVec.ofNat 36 addr))) ∧
  (∀ (blk : Blk) (off : Nat) (s : State) (d : RegDesc), regDesc blk off = some d → s.ready blk.island = true →
    d.fields.any (fun f => f.voted) = true →
      let t := (s.satField safeB SAFE_VOTE_VCNT).put safeB SAFE_VOTE_BLK ((blk.base - 0x40000000) / 0x10000)
      exec (.voteCorrection blk off) s =
        .next ((t.put safeB SAFE_STAT_INFO 1).wr blk.lasterr (lasterrInfo (t.rd blk.lasterr) 0x08 off)))

/-- Events of updates, editions, the folio and recovery have their effect.  For every state and operands that meet the condition named (the event's precondition), the command answers the next state with the effect. The model's own readings: what the condition stands for (log entry 32), and that a timeout served in its own tick waits for the tick's end (log entry 31). Named: UPD_COMMAND_DONE, TRIAL_TIME_RECORD, TRIAL_EXPIRY, NV_ROW_WRITE_DONE, FOLIO_VERIFY_END, REFOLD_DONE, RECOVERY_HELLO, RECOVERY_ATTN, RECOVERY_RECOVER, RECOVERY_MANIFEST, RECOVERY_DATA, RECOVERY_END, RECOVERY_OWNER, RECOVERY_DKIMPORT, RECOVERY_WINDOW_END, RECOVERY_SEGMENT_TIMEOUT, DBG_TRANSFER, DBG_LINK_TIMEOUT, CAN_FRAME_RECEIVED. -/
def Obligations.UpdateAndRecoveryEventsComplete : Prop :=
  (∀ (s : State) (op : Nat), s.ready .store = true → s.upd.cmd = some op →
    let t := setUpd (s.put sysB SYS_UPDSTAT_BUSY 0) (fun u => { u with cmd := none })
    exec .updCommandDone s = .next (
      if op = 2 then updData t s.upd.nw else if op = 3 then (updEnd t (pieces (updBufs s 0 4))).1 else t)) ∧
  (∀ (s : State),
    (s.ecr.trial && decide (sec 10 ≤ s.upd.trialTicks)) = true →
      exec .trialTimeRecord s = .next (setEcr (setUpd s (fun u => { u with trialTicks := u.trialTicks - sec 10 })) (fun e => { e with trun := min 600 (e.trun + 10) }))) ∧
  (∀ (s : State),
    (trialRun s = sec 600 → exec .trialExpiry s = .next (s.waits .trialExpiry)) ∧
    ((s.ecr.trial && decide (sec 600 ≤ trialRun s)) = true →
      endOne .trialExpiry s = trialExpiryEffect s ∧
      (trialRun s ≠ sec 600 → exec .trialExpiry s = .next (trialExpiryEffect s)))) ∧
  (∀ (s : State) (a : Nat) (ws : List Word), s.ready .store = true → s.nvRow = some (a, ws) →
    exec .nvRowWriteDone s = .next (((healBad ({ s.putWords a ws with nvRow := none }) a 256).put sysB SYS_NVSTAT_BUSY 0).put
      sysB SYS_NVSTAT_DONE 1)) ∧
  (∀ (s : State), s.folio.cmd = some .verifyOnly →
    exec .folioVerifyEnd s = .next (match verifyFolio s (!s.ecr.act) (!s.ecr.act) with
      | .error e => folioEnd s (some e)
      | .ok _ => folioEnd s none)) ∧
  (∀ (s : State) (other : Bool) (req : Nat), s.folio.cmd = some (.refold other req) →
    exec .folioVerifyEnd s = .next (match verifyFolio s (s.ecr.act != other) s.ecr.act with
      | .error e => folioEnd s (some e)
      | .ok f => refoldStep3 s other req f.loaded)) ∧
  (∀ (s : State) (other : Bool) (req : Nat) (fs cans : List Nat) (isls : List Island) (h : List Word) (l : List (Nat × List Word)),
    s.folio.cmd = some (.rewritten other req fs cans isls) → s.folio.next = some (h, l) →
      exec .refoldDone s = .next (folioEnd (refoldRewrite s other req cans isls ⟨h, l, none, none⟩) none)) ∧
  (∀ (s : State), s.due s.rcv.helloAt = true → s.boot.mode = .window →
    exec .recoveryHello s = .next (setRcv (helloSend s.drawn (s.free.toNat % 256)) (fun r => { r with helloAt := none }))) ∧
  (∀ (s : State) (reason : _), s.due s.rcv.helloAt = true → s.boot.mode = .recovery reason → s.rcv.gotManifest = false →
    exec .recoveryHello s = .next (setRcv (helloSend s reason) (fun r => { r with helloAt := some (s.after (sec 1)) }))) ∧
  (∀ (dbg : Bool) (body : List Nat) (s : State),
    exec (.recoveryAttn dbg body) s = .next (recMessage s 0x02 dbg body)) ∧
  (∀ (dbg : Bool) (body : List Nat) (s : State),
    exec (.recoveryRecover dbg body) s = .next (recMessage s 0x03 dbg body)) ∧
  (∀ (dbg : Bool) (body : List Nat) (s : State),
    exec (.recoveryManifest dbg body) s = .next (recMessage s 0x10 dbg body)) ∧
  (∀ (dbg : Bool) (body : List Nat) (s : State),
    exec (.recoveryData dbg body) s = .next (recMessage s 0x11 dbg body)) ∧
  (∀ (dbg : Bool) (body : List Nat) (s : State),
    exec (.recoveryEnd dbg body) s = .next (recMessage s 0x12 dbg body)) ∧
  (∀ (dbg : Bool) (body : List Nat) (s : State),
    exec (.recoveryOwner dbg body) s = .next (recMessage s 0x30 dbg body)) ∧
  (∀ (dbg : Bool) (body : List Nat) (s : State),
    exec (.recoveryDkimport dbg body) s = .next (recMessage s 0x31 dbg body)) ∧
  (∀ (s : State),
    (s.boot.winEnd = some s.now → exec .recoveryWindowEnd s = .next (s.waits .recoveryWindowEnd)) ∧
    ((s.boot.mode == .window && s.due s.boot.winEnd) = true →
      let t := recoveryWindowEndEffect s
      endOne .recoveryWindowEnd s = t ∧ (s.boot.winEnd ≠ some s.now → exec .recoveryWindowEnd s = .next t))) ∧
  (∀ (s : State),
    (s.rcv.partEnd = some s.now → exec .recoverySegmentTimeout s = .next (s.waits .recoverySegmentTimeout)) ∧
    ((s.due s.rcv.partEnd) = true →
      let t := recDiscard s
      endOne .recoverySegmentTimeout s = t ∧ (s.rcv.partEnd ≠ some s.now → exec .recoverySegmentTimeout s = .next t))) ∧
  (∀ (octets : List Nat) (s : State), octets.length = 64 →
    let t := setRcv (setRcv s (fun r => { r with dbgEnd := some (s.after (sec 1)) })) (fun r => { r with dbgOut := r.dbgOut.drop 1 })
    exec (.dbgTransfer octets) s = .next (if octets.all (· == 0) then t else recFrame t true octets)) ∧
  (∀ (octets : List Nat) (s : State), octets.length ≠ 64 →
    exec (.dbgTransfer octets) s = .next (setRcv s (fun r => { r with dbgEnd := some (s.after (sec 1)) }))) ∧
  (∀ (s : State),
    (s.rcv.dbgEnd = some s.now → exec .dbgLinkTimeout s = .next (s.waits .dbgLinkTimeout)) ∧
    ((s.due s.rcv.dbgEnd) = true →
      let t := setRcv s (fun r => { r with dbgEnd := none })
      endOne .dbgLinkTimeout s = t ∧ (s.rcv.dbgEnd ≠ some s.now → exec .dbgLinkTimeout s = .next t))) ∧
  (∀ (n : Fin 8) (w0 : Word) (dlc : BitVec 4) (data : List Nat) (stamp : Word) (s : State), romListens s = false →
    s.ready .net = true → pastCount s stamp = true → canTakes s n.val false (bitAt w0 34) = true →
      exec (.canFrameReceived n w0 dlc data stamp false) s =
        .next (canReceive (rxGood s n.val) n.val w0 dlc.toNat data stamp)) ∧
  (∀ (n : Fin 8) (w0 : Word) (dlc : BitVec 4) (data : List Nat) (stamp : Word) (s : State) (f : CanFrame),
    s.ready .net = true → near stamp (s.cn n.val).sof = true → (s.cn n.val).onBus = some f →
    canTakes s n.val true (bitAt f.w0 34) = true →
      exec (.canFrameReceived n w0 dlc data stamp true) s = .next (canReceive s n.val f.w0 f.dlc f.data stamp)) ∧
  (∀ (w0 : Word) (data : List Nat) (stamp : Word) (s : State), romListens s = true → bitsOf w0 35 34 = 1 →
    bitsOf w0 10 0 = 0x7E0 → (∀ o ∈ data, o < 256) → data.length = 64 →
      exec (.canFrameReceived 0 w0 15 data stamp false) s = .next (recFrame s false data))
end

