-- ==== Sys2Proof/Laws/Bits.lean ====
section
/-! SUPPORT. Bit fields: what is read after a field is set. -/

namespace Sys2Proof.Laws
open Machine

/-- A bit after a field is set. -/
theorem bitAt_setBits {w : Word} {hi lo x i : Nat} (hi36 : hi < 36) (hlo : lo ≤ hi) (h : i < 36) :
    bitAt (setBits w hi lo x) i = if lo ≤ i ∧ i ≤ hi then x.testBit (i - lo) else bitAt w i := by
  unfold bitAt setBits maskOf
  simp only [BitVec.getLsbD_or, BitVec.getLsbD_and, BitVec.getLsbD_not, BitVec.getLsbD_shiftLeft, BitVec.getLsbD_ofNat, Nat.testBit_two_pow_sub_one]
  by_cases h1 : lo ≤ i
  · by_cases h2 : i ≤ hi
    · have : i - lo < hi + 1 - lo := by omega
      have h3 : i - lo < 36 := by omega
      simp [h, h1, h2, Nat.not_lt.mpr h1, this, h3]
    · have : ¬ i - lo < hi + 1 - lo := by omega
      simp [h, h1, h2, Nat.not_lt.mpr h1, this]
  · simp [h, h1, Nat.lt_of_not_le h1]

/-- The field that was set. -/
theorem bitsOf_setBits_same {w : Word} {hi lo x : Nat} (hi36 : hi < 36) (hlo : lo ≤ hi) (hx : x < 2 ^ (hi + 1 - lo)) :
    bitsOf (setBits w hi lo x) hi lo = x := by
  unfold bitsOf
  apply Nat.eq_of_testBit_eq; intro i
  rw [BitVec.testBit_toNat, BitVec.getLsbD_extractLsb']
  by_cases h : i < hi + 1 - lo
  · have := @bitAt_setBits w hi lo x (lo + i) hi36 hlo (by omega)
    unfold bitAt at this
    rw [this, if_pos (by omega)]; simp [h]
  · rw [Nat.testBit_lt_two_pow (Nat.lt_of_lt_of_le hx (Nat.pow_le_pow_right (by decide) (Nat.le_of_not_lt h)))]; simp [h]

/-- A field that shares no bit with the one set. -/
theorem bitsOf_setBits_other {w : Word} {hi lo x hi' lo' : Nat} (hi36 : hi < 36) (hlo : lo ≤ hi) (h36 : hi' < 36) (hd : hi' < lo ∨ hi < lo') :
    bitsOf (setBits w hi lo x) hi' lo' = bitsOf w hi' lo' := by
  unfold bitsOf
  apply Nat.eq_of_testBit_eq; intro i
  rw [BitVec.testBit_toNat, BitVec.getLsbD_extractLsb', BitVec.testBit_toNat, BitVec.getLsbD_extractLsb']
  by_cases h : i < hi' + 1 - lo'
  · have := @bitAt_setBits w hi lo x (lo' + i) hi36 hlo (by omega)
    unfold bitAt at this
    rw [this, if_neg (by omega)]
  · simp [h]

end Sys2Proof.Laws
end

