-- ==== Sys2Proof/Laws/Cells.lean ====
section
/-! SUPPORT. The laws of sparse cells: what a write leaves to be read, and that every operation keeps the canonical form. -/

namespace Sys2Proof.Laws
open Machine

variable {n : Nat}

/-- The least key of a list of cells is above `k`. -/
def above (k : Nat) : Cells n → Prop
  | [] => True
  | (k', _) :: _ => k < k'

theorem above_of_lt {j k : Nat} {c : Cells n} (hj : j < k) (h : above k c) : above j c := by
  cases c with
  | nil => trivial
  | cons p t => exact Nat.lt_trans hj h

theorem wf_cons {d : Nat → BitVec n} {k : Nat} {v : BitVec n} {t : Cells n} :
    Cells.wf d ((k, v) :: t) = true ↔ v ≠ d k ∧ above k t ∧ Cells.wf d t = true := by
  cases t with
  | nil => simp [Cells.wf, above]
  | cons p t => simp [Cells.wf, above, and_assoc]

theorem wf_erase {d : Nat → BitVec n} {c : Cells n} {k : Nat} (h : Cells.wf d c = true) :
    Cells.wf d (Cells.erase c k) = true ∧ ∀ j, above j c → above j (Cells.erase c k) := by
  induction c with
  | nil => exact ⟨h, fun _ hj => hj⟩
  | cons p t ih =>
    obtain ⟨k', v⟩ := p
    obtain ⟨hv, ha, ht⟩ := wf_cons.mp h
    obtain ⟨iw, ia⟩ := ih ht
    simp only [Cells.erase]
    split
    · exact ⟨ht, fun j hj => above_of_lt hj ha⟩
    · split
      · exact ⟨h, fun _ hj => hj⟩
      · exact ⟨wf_cons.mpr ⟨hv, ia _ ha, iw⟩, fun _ hj => hj⟩

theorem wf_insert {d : Nat → BitVec n} {c : Cells n} {k : Nat} {v : BitVec n} (hv : v ≠ d k) (h : Cells.wf d c = true) :
    Cells.wf d (Cells.insert c k v) = true ∧ ∀ j, j < k → above j c → above j (Cells.insert c k v) := by
  induction c with
  | nil => exact ⟨wf_cons.mpr ⟨hv, trivial, rfl⟩, fun _ hj _ => hj⟩
  | cons p t ih =>
    obtain ⟨k', v'⟩ := p
    obtain ⟨hv', ha, ht⟩ := wf_cons.mp h
    obtain ⟨iw, ia⟩ := ih ht
    simp only [Cells.insert]
    split
    · next e => subst e; exact ⟨wf_cons.mpr ⟨hv, ha, ht⟩, fun _ hj _ => hj⟩
    · split
      · next hk => exact ⟨wf_cons.mpr ⟨hv, hk, h⟩, fun _ hj _ => hj⟩
      · exact ⟨wf_cons.mpr ⟨hv', ia _ (by omega) ha, iw⟩, fun _ _ hj => hj⟩

/-- A write keeps the canonical form. -/
theorem wf_write {d : Nat → BitVec n} {c : Cells n} {k : Nat} {v : BitVec n} (h : Cells.wf d c = true) :
    Cells.wf d (Cells.write (d k) c k v) = true := by
  unfold Cells.write
  split
  · exact (wf_erase h).1
  · next hv => exact (wf_insert hv h).1

theorem wf_filter {d : Nat → BitVec n} {c : Cells n} (p : Nat × BitVec n → Bool) (h : Cells.wf d c = true) :
    Cells.wf d (c.filter p) = true ∧ ∀ j, above j c → above j (c.filter p) := by
  induction c with
  | nil => exact ⟨h, fun _ hj => hj⟩
  | cons q t ih =>
    obtain ⟨k', v⟩ := q
    obtain ⟨hv, ha, ht⟩ := wf_cons.mp h
    obtain ⟨iw, ia⟩ := ih ht
    rw [List.filter_cons]
    split
    · exact ⟨wf_cons.mpr ⟨hv, ia _ ha, iw⟩, fun _ hj => hj⟩
    · exact ⟨iw, fun j hj => ia j (above_of_lt hj ha)⟩

/-- Clearing a range keeps the canonical form. -/
theorem wf_clear {d : Nat → BitVec n} {c : Cells n} {a b : Nat} (h : Cells.wf d c = true) :
    Cells.wf d (Cells.clear c a b) = true := (wf_filter _ h).1

theorem read_above {d : BitVec n} {c : Cells n} {k : Nat} {w : Nat → BitVec n} (h : Cells.wf w c = true) (ha : above k c) :
    Cells.read d c k = d := by
  induction c with
  | nil => rfl
  | cons p t ih =>
    obtain ⟨k', v⟩ := p
    obtain ⟨_, hb, ht⟩ := wf_cons.mp h
    have hk : k < k' := ha
    simp only [Cells.read]
    rw [if_neg (by omega)]
    exact ih ht (above_of_lt hk hb)

theorem read_insert {d : BitVec n} {c : Cells n} {k j : Nat} {v : BitVec n} :
    Cells.read d (Cells.insert c k v) j = if j = k then v else Cells.read d c j := by
  induction c with
  | nil => simp only [Cells.insert, Cells.read, eq_comm (a := k)]
  | cons p t ih =>
    obtain ⟨k', v'⟩ := p
    simp only [Cells.insert]
    split
    · next e => subst e; simp only [Cells.read]; (repeat' split) <;> first | rfl | (exfalso; omega)
    · split
      · simp only [Cells.read]; (repeat' split) <;> first | rfl | (exfalso; omega)
      · simp only [Cells.read, ih]; (repeat' split) <;> first | rfl | (exfalso; omega)

theorem read_erase {d : BitVec n} {c : Cells n} {k j : Nat} {w : Nat → BitVec n} (h : Cells.wf w c = true) :
    Cells.read d (Cells.erase c k) j = if j = k then d else Cells.read d c j := by
  induction c with
  | nil => simp [Cells.erase, Cells.read]
  | cons p t ih =>
    obtain ⟨k', v'⟩ := p
    obtain ⟨_, ha, ht⟩ := wf_cons.mp h
    simp only [Cells.erase]
    split
    · next e =>
      subst e; simp only [Cells.read]
      split
      · next e' => subst e'; exact read_above ht ha
      · rw [if_neg (by omega)]
    · split
      · next hk =>
        split
        · next e' => subst e'; exact read_above h hk
        · rfl
      · simp only [Cells.read, ih ht]; (repeat' split) <;> first | rfl | (exfalso; omega)

/-- What is read after a write. -/
theorem read_write {d : BitVec n} {c : Cells n} {k j : Nat} {v : BitVec n} {w : Nat → BitVec n} (h : Cells.wf w c = true) :
    Cells.read d (Cells.write d c k v) j = if j = k then v else Cells.read d c j := by
  unfold Cells.write
  split
  · next e => subst e; exact read_erase h
  · exact read_insert

/-! ### Registers and memory -/

theorem rd_wr {s : State} {a b : Nat} {v : Word} (h : Registers.wf s.regs = true) :
    (s.wr a v).rd b = if b = a then v else s.rd b := by
  show Cells.read (regReset b) (Cells.write (regReset a) s.regs a v) b = _
  by_cases e : b = a
  · subst e; rw [read_write h, if_pos rfl, if_pos rfl]
  · unfold Cells.write State.rd
    split
    · rw [read_erase h, if_neg e]
    · rw [read_insert, if_neg e]

theorem nib_putNib {s : State} {a b : Nat} {v : Nib} (h : Memory.wf s.mem = true) :
    (s.putNib a v).nib b = if b = a then v else s.nib b := read_write (w := fun _ => 0) h

end Sys2Proof.Laws
end

