-- ==== Sys2Proof/Laws/Keep.lean ====
section
/-! SUPPORT. What every meaning keeps, and how it is shown: the canonical form of memory and registers, the five cores
with their 32 registers, and the queue. -/

namespace Sys2Proof.Laws
open Machine

/-- The queue is `q`, and the invariant of the model holds. -/
def Kept (q : List Instr) (s : State) : Prop := s.pending = q ∧ Invariant s

variable {q : List Instr} {s t : State}

theorem Kept.of_eq (h : Kept q s) (hp : t.pending = s.pending) (hm : t.mem = s.mem) (hr : t.regs = s.regs)
    (hs : t.copies = s.copies) (hc : t.cores = s.cores) : Kept q t := by
  unfold Kept Invariant Canonical Cores.wf at *; rw [hp, hm, hr, hs, hc]; exact h

/-- Any other part of the state may change. -/
theorem Kept.upd {now : Word} {tbRun : Bool} {tbRec : Word} {rtcN : Nat} {posted : List Posted} {aonPend : List
    AonWrite} {rej : List Nat} {warmDue : Option WarmCause} {folio : FolioSt} {ecr : Ecr} {boot : BootSt} {upd : UpdSt}
    {nvRow : Option (Nat × List Word)} {rcv : RecSt} {pwr : PwrSt} {safe : SafeSt} {chans : List Chan} {beat : BeatSt}
    {mots : List Mot} {stks : List Stk} {light : Light} {flights : List Flight} {tmrs : List Tmr} {prescale : List Nat}
    {inp : InpSt} {cans : List CanSt} {lins : List LinSt} {eths : List EthSt} {nmgs : List NmgCh} {ring : RingSt} {vault :
    VaultSt} {acc : AccSt} {icu : IcuSt} {edge : List (Nat × Word)} {ending : List Instr} {fresh : Nat}
    (h : Kept q s) :
    Kept q ⟨now, tbRun, tbRec, rtcN, s.regs, s.copies, s.mem, posted, aonPend, rej, warmDue, folio, ecr, boot, upd, nvRow, rcv,
    pwr, safe, chans, beat, mots, stks, light, flights, tmrs, prescale, inp, cans, lins, eths, nmgs, ring, vault, acc,
    s.cores, icu, edge, ending, fresh, s.pending⟩ := h

theorem reset_cores : Cores.wf State.reset.cores := ⟨rfl, by decide⟩

theorem Kept.reset (h : Kept q s) : Kept q { State.reset with pending := s.pending } := ⟨h.1, ⟨rfl, rfl, rfl⟩, reset_cores⟩

theorem Kept.ite {c : Prop} [Decidable c] {a b : State} (ha : Kept q a) (hb : Kept q b) : Kept q (if c then a else b) := by
  split <;> assumption

theorem Kept.when {c : Bool} {f : State → State} (h : Kept q s) (hf : ∀ s, Kept q s → Kept q (f s)) : Kept q (s.when c f) := by
  unfold State.when; split
  · exact hf s h
  · exact h

theorem Kept.foldl {α : Type} {l : List α} {f : State → α → State} (h : Kept q s) (hf : ∀ s a, Kept q s → Kept q (f s a)) :
    Kept q (l.foldl f s) := by
  induction l generalizing s with
  | nil => exact h
  | cons a l ih => exact ih (hf s a h)

theorem Kept.foldl1 {α β : Type} {l : List α} {r : State × β} {f : State × β → α → State × β} (h : Kept q r.1)
    (hf : ∀ r a, Kept q r.1 → Kept q (f r a).1) : Kept q (l.foldl f r).1 := by
  induction l generalizing r with
  | nil => exact h
  | cons a l ih => exact ih (hf r a h)

theorem Kept.foldl2 {α β : Type} {l : List α} {r : β × State} {f : β × State → α → β × State} (h : Kept q r.2)
    (hf : ∀ r a, Kept q r.2 → Kept q (f r a).2) : Kept q (l.foldl f r).2 := by
  induction l generalizing r with
  | nil => exact h
  | cons a l ih => exact ih (hf r a h)

theorem Kept.each {α : Type} {l : List α} {f : State → α → State} (h : Kept q s) (hf : ∀ s a, Kept q s → Kept q (f s a)) :
    Kept q (s.each l f) := Kept.foldl h hf

theorem Kept.wr {a : Nat} {v : Word} (h : Kept q s) : Kept q (s.wr a v) :=
  ⟨h.1, ⟨h.2.1.1, wf_write h.2.1.2.1, h.2.1.2.2⟩, h.2.2⟩

theorem Kept.put {b : Nat} {f : Fld} {x : Nat} (h : Kept q s) : Kept q (s.put b f x) :=
  ⟨h.1, ⟨h.2.1.1, wf_write h.2.1.2.1, h.2.1.2.2⟩, h.2.2⟩

theorem Kept.refresh (h : Kept q s) : Kept q s.refresh :=
  ⟨h.1, ⟨h.2.1.1, h.2.1.2.1, (wf_filter (d := regReset) _ h.2.1.2.1).1⟩, h.2.2⟩

theorem Kept.resetRange {a b : Nat} (h : Kept q s) : Kept q (s.resetRange a b) :=
  ⟨h.1, ⟨h.2.1.1, wf_clear h.2.1.2.1, h.2.1.2.2⟩, h.2.2⟩

theorem Kept.putNib {a : Nat} {v : Nib} (h : Kept q s) : Kept q (s.putNib a v) :=
  ⟨h.1, ⟨wf_write (d := fun _ => 0) h.2.1.1, h.2.1.2⟩, h.2.2⟩

theorem Kept.clearMem {a b : Nat} (h : Kept q s) : Kept q (s.clearMem a b) :=
  ⟨h.1, ⟨wf_clear (d := fun _ => 0) h.2.1.1, h.2.1.2⟩, h.2.2⟩

theorem Kept.filterMem {p : Nat × Nib → Bool} (h : Kept q s) : Kept q { State.reset with mem := s.mem.filter p, pending := s.pending } :=
  ⟨h.1, ⟨(wf_filter (d := fun _ => 0) p h.2.1.1).1, rfl, rfl⟩, reset_cores⟩

/-- A change of cores that keeps the number of each one's registers. -/
def KeepsRegs (g : Core → Core) : Prop := ∀ k : Core, (g k).regs.length = k.regs.length ∨ (g k).regs.length = 32

theorem core_regs {c : Nat} (h : Cores.wf s.cores) : (s.core c).regs.length = 32 := by
  unfold State.core
  by_cases hc : c < s.cores.length
  · simp [List.getD_eq_getElem?_getD, hc, h.2]
  · simp only [List.getD_eq_getElem?_getD, List.getElem?_eq_none (Nat.le_of_not_lt hc)]; rfl

theorem Kept.setCore {c : Nat} {g : Core → Core} (h : Kept q s) (hg : KeepsRegs g) : Kept q (s.setCore c g) := by
  refine ⟨h.1, h.2.1, by simp [State.setCore, h.2.2.1], fun k hk => ?_⟩
  rcases List.mem_or_eq_of_mem_set hk with hk | hk
  · exact h.2.2.2 k hk
  · subst hk; rcases hg (s.core c) with e | e
    · rw [e]; exact core_regs h.2.2
    · exact e

theorem Kept.mapCores {g : Core → Core} (h : Kept q s) (hg : KeepsRegs g) : Kept q (s.mapCores g) := by
  refine ⟨h.1, h.2.1, by simp [State.mapCores, h.2.2.1], fun k hk => ?_⟩
  obtain ⟨k', hk', rfl⟩ := List.mem_map.mp hk
  rcases hg k' with e | e
  · rw [e]; exact h.2.2.2 k' hk'
  · exact e

theorem Core.setReg_length {k : Core} {r : Reg} {v : Word} : (k.setReg r v).regs.length = k.regs.length := by
  unfold Core.setReg; split <;> simp

/-- A state answered with something beside it. -/
structure KeptP (q : List Instr) {α : Type} (p : State × α) : Prop where
  fst : Kept q p.1

theorem KeptP.pair {α : Type} {a : α} (h : Kept q s) : KeptP q (s, a) := ⟨h⟩

/-- An answer that goes on keeps it. -/
structure KeptA (q : List Instr) (a : Answer) : Prop where
  out : ∀ t, a = .next t → Kept q t

theorem KeptA.next (h : Kept q s) : KeptA q s.next := ⟨fun _ e => by injection e with e; exact e ▸ h⟩
theorem KeptA.go (h : Kept q s) : KeptA q (.next s) := KeptA.next h
theorem KeptA.fault {f : Fault} : KeptA q (.fault f) := ⟨fun _ e => nomatch e⟩
theorem KeptA.refused {f : Refusal} : KeptA q (.refused f) := ⟨fun _ e => nomatch e⟩
theorem KeptA.ite {c : Prop} [Decidable c] {a b : Answer} (ha : KeptA q a) (hb : KeptA q b) : KeptA q (if c then a else b) := by
  split <;> assumption

end Sys2Proof.Laws
end

