-- ==== Sys2Proof/Laws/Writes.lean ====
section
/-! SUPPORT. What a device write does, said once: an accepted write is the register's new value and the block's effect, a
rejected one is its record. -/

namespace Sys2Proof.Laws
open Machine

theorem aliasAt_plain {off : Nat} (h : off < 0x4000) : aliasAt off = (.plain, off) := by simp [aliasAt, h]

/-- Outside FACTORY and RETURN no write drives a test control. -/
theorem testDriven_off {r : WriteReq} {s : State} (h : testControls s = false) : testDriven r s = false := by
  simp [testDriven, h]

/-- R33: with no earlier write of the requester to the block on its way, none is let past. -/
theorem drainOwn_clear {req : Nat} {blk : Option Blk} {s : State} (h : noneAhead s req blk = true) : drainOwn req blk s = .next s := by
  have hf : ∀ p ∈ s.posted, (p.src.req == req && blkAt p.addr == blk) = false := fun p hp =>
    (Bool.not_eq_true' _).mp (List.all_eq_true.mp h p hp)
  have h1 : s.posted.filter (fun p => p.src.req == req && blkAt p.addr == blk) = [] :=
    List.filter_eq_nil_iff.mpr fun p hp => by simp [hf p hp]
  have h2 : s.posted.filter (fun p => !(p.src.req == req && blkAt p.addr == blk)) = s.posted :=
    List.filter_eq_self.mpr fun p hp => by simp [hf p hp]
  simp only [drainOwn, h1, h2, drainPosted]

/-- A device write that drives no test control goes on, with what its crossing and its block make of it. -/
theorem devWrite_next {b : Bool} {src : Src} {blk : Blk} {off : Nat} {w : Word} {s : State}
    (h : testDriven ⟨src, blk, (aliasAt off).2, (aliasAt off).1, w⟩ s = false) (hn : noneAhead s src.req (some blk) = true) :
    devWrite b src blk off w s = .next (toBlock b ⟨src, blk, (aliasAt off).2, (aliasAt off).1, w⟩ s) := by
  simp [devWrite, drainOwn_clear hn, andThen, devPut, h]

/-- A plain write to a ready island that no 32.768 kHz edge holds back is the block's to answer. -/
theorem devWrite_block {b : Bool} {src : Src} {blk : Blk} {off : Nat} {w : Word} {s : State}
    (hoff : off < 0x4000) (h : testDriven ⟨src, blk, off, .plain, w⟩ s = false) (hr : s.ready blk.island = true) (ha : aonHeld blk off = false)
    (hn : noneAhead s src.req (some blk) = true) :
    devWrite b src blk off w s = .next (blkWriteAt b ⟨src, blk, off, .plain, w⟩ s) := by
  rw [devWrite_next (by rw [aliasAt_plain hoff]; exact h) hn, aliasAt_plain hoff]; simp [toBlock, hr, ha]

/-- A write that passes every check takes effect (R35). -/
theorem blockWrite_taken {r : WriteReq} {fails : State → Word → Fails} {locked : Bool} {s : State} {d : RegDesc}
    {hook : State → Word → Word → State} {rej : State → Nat → State} (h : Passes r fails locked s d) (ho : r.off ≠ 0x3C) :
    blockWrite r fails locked hook rej s = Taken r d hook s := by
  obtain ⟨_, _, _, hd, hf⟩ := h
  simp only [WriteReq.plainWord, WriteReq.old] at hf
  simp [blockWrite, hd, hf, Taken, WriteReq.plainWord, WriteReq.old, ho]

/-- A write that fails a check leaves its record, and what the block adds to it (R36, R95, R111). -/
theorem blockWrite_rejected {r : WriteReq} {fails : State → Word → Fails} {locked : Bool} {s : State} {d : RegDesc} {c : Nat}
    {hook : State → Word → Word → State} {rej : State → Nat → State} (hd : regDesc r.blk r.off = some d)
    (hf : firstFail (fails s (r.plainWord d s) ++ sharedFails s r d (r.old s) (r.plainWord d s) locked) = some c) :
    blockWrite r fails locked hook rej s = rej (rejectWrite s r c) c := by
  simp only [WriteReq.plainWord, WriteReq.old] at hf
  simp [blockWrite, hd, hf]

/-! ### Pages: the unit whose page a write names, and the offset in it -/

variable {r : WriteReq} {s : State} {o : Nat}

theorem pscWrite_page {f : Fin 72} (ho : o < 0x100) (hb : r.blk = pscBlk f) (hr : r.off = pscOff f + o) :
    pscWrite r s =
      blockWrite r (pscChk f.val o) (s.get (pscP f.val) PSC_CMD_MODE != 0) (pscWritten f.val o) noRej s := by
  have h1 : (pscOff f + o) % 0x100 = o := by unfold pscOff; omega
  have h2 : ¬ pscOff f + o < 0x100 := by unfold pscOff; omega
  have h3 : (pscOff f + o) / 0x100 - 1 + (if pscBlk f = .psc1 then 36 else 0) = f.val := by
    have := f.isLt
    unfold pscOff pscBlk; split
    · rw [if_neg (by decide)]; omega
    · rw [if_pos rfl]; omega
  unfold pscWrite; dsimp only; rw [hr, hb, if_neg h2, h1, h3]

theorem blkWriteAt_psc {b : Bool} {f : Fin 72} (hb : r.blk = pscBlk f) : blkWriteAt b r s = pscWrite r s := by
  unfold pscBlk at hb; unfold blkWriteAt
  split at hb <;> rw [hb]

theorem motWrite_page {k : Fin 6} (ho : o < 0x100) (hr : r.off = 0x100 + o + k.val * 0x100) :
    motWrite r s = blockWrite r (motChk k.val o) (s.flag (motP k.val) MOT_CTRL_EN || (s.mo k.val).counting)
      (motWritten k.val o) noRej s := by
  have h1 : (0x100 + o + k.val * 0x100) % 0x100 = o := by omega
  have h2 : ¬ 0x100 + o + k.val * 0x100 < 0x100 := by omega
  have h3 : (0x100 + o + k.val * 0x100) / 0x100 - 1 = k.val := by omega
  unfold motWrite; dsimp only; rw [hr, if_neg h2, h1, h3]

theorem stkWrite_page {k : Fin 16} (ho : o < 0x100) (hr : r.off = 0x100 + o + k.val * 0x100) :
    stkWrite r s = blockWrite r (stkChk k.val o) (s.flag (stkP k.val) STK_CTRL_EN) (stkWritten k.val o) noRej s := by
  have h1 : (0x100 + o + k.val * 0x100) % 0x100 = o := by omega
  have h2 : ¬ 0x100 + o + k.val * 0x100 < 0x100 := by omega
  have h3 : (0x100 + o + k.val * 0x100) / 0x100 - 1 = k.val := by omega
  unfold stkWrite; dsimp only; rw [hr, if_neg h2, h1, h3]

theorem lgtWrite_string {n : Fin 8} (ho : o < 0x100) (hr : r.off = 0x100 + o + n.val * 0x100) :
    lgtWrite r s =
      blockWrite r (strChk n.val o) (s.get (stP n.val) LGT_STCMD_MODE != 0) (strWritten n.val o) noRej s := by
  have h1 : (0x100 + o + n.val * 0x100) % 0x100 = o := by omega
  have h2 : ¬ 0x100 + o + n.val * 0x100 < 0x100 := by omega
  have h3 : (0x100 + o + n.val * 0x100) / 0x100 - 1 = n.val := by omega
  have h4 : 0x100 + o + n.val * 0x100 < 0x900 := by omega
  unfold lgtWrite; dsimp only; rw [hr, if_neg h2, if_pos h4, h1, h3]

theorem lgtWrite_sink {n : Fin 48} (ho : o < 0x20) (hr : r.off = 0xA00 + o + n.val * 0x20) :
    lgtWrite r s =
      blockWrite r (sinkChk n.val o) (s.get (skP n.val) LGT_SKCMD_MODE != 0) (sinkWritten n.val o) noRej s := by
  have h1 : (0xA00 + o + n.val * 0x20) % 0x20 = o := by omega
  have h2 : ¬ 0xA00 + o + n.val * 0x20 < 0x100 := by omega
  have h3 : ¬ 0xA00 + o + n.val * 0x20 < 0x900 := by omega
  have h4 : (0xA00 + o + n.val * 0x20 - 0xA00) / 0x20 = n.val := by omega
  have h5 : (decide (0xA00 ≤ 0xA00 + o + n.val * 0x20) && decide (0xA00 + o + n.val * 0x20 < 0x1000)) = true := by
    simp; omega
  unfold lgtWrite; dsimp only; rw [hr, if_neg h2, if_neg h3, h1, h4, if_pos h5]

theorem tmrWrite_page {n : Fin 32} (ho : o < 0x40) (hr : r.off = 0x100 + o + n.val * 0x40) :
    tmrWrite r s = blockWrite r (tmrChk n.val o) (tmrEn s n.val) (tmrWritten n.val o) noRej s := by
  have h1 : (0x100 + o + n.val * 0x40 - 0x100) % 0x40 = o := by omega
  have h2 : ¬ 0x100 + o + n.val * 0x40 < 0x100 := by omega
  have h3 : (0x100 + o + n.val * 0x40 - 0x100) / 0x40 = n.val := by omega
  unfold tmrWrite; dsimp only; rw [hr, if_neg h2, h1, h3]

theorem nmgWrite_page {c : Fin 12} (ho : o < 0x40) (hr : r.off = 0x100 + o + c.val * 0x40) :
    nmgWrite r s = blockWrite r (fun s w => nmgChk s c.val o w) (s.flag (nmgP c.val) NMG_CTRL_EN)
      (nmgWritten c.val o) noRej s := by
  have h1 : (0x100 + o + c.val * 0x40 - 0x100) % 0x40 = o := by omega
  have h2 : (decide (0x100 ≤ 0x100 + o + c.val * 0x40) && decide (0x100 + o + c.val * 0x40 < 0x400)) = true := by
    simp; omega
  have h3 : (0x100 + o + c.val * 0x40 - 0x100) / 0x40 = c.val := by omega
  unfold nmgWrite; dsimp only; rw [hr, if_pos h2, h1, h3]

end Sys2Proof.Laws
end

