-- ==== Sys2Proof/Laws/Cpu.lean ====
section
/-! SUPPORT. Cores: what is read of a core after a change to one, its registers, and an instruction that issues. -/

namespace Sys2Proof.Laws
open Machine

variable {s : State} {c : CoreId}

/-! ### One core changed -/

theorem core_setCore {n m : Nat} {g : Core → Core} (hl : n < s.cores.length) :
    (s.setCore n g).core m = if m = n then g (s.core n) else s.core m := by
  simp only [State.setCore, State.core, List.getD_eq_getElem?_getD, List.getElem?_set]
  by_cases h : m = n
  · subst h; simp [hl]
  · simp [h, Ne.symm h]

theorem core_lt (h : Cores.wf s.cores) : c.val < s.cores.length := by rw [h.1]; exact c.isLt

theorem core_setCore_same {g : Core → Core} (h : Cores.wf s.cores) : (s.setCore c.val g).core c.val = g (s.core c.val) := by
  rw [core_setCore (core_lt h), if_pos rfl]

theorem core_setCore_ne {n m : Nat} {g : Core → Core} (h : m ≠ n) : (s.setCore n g).core m = s.core m := by
  simp [State.setCore, State.core, List.getD_eq_getElem?_getD, Ne.symm h]

theorem setCore_frame {n : Nat} {g : Core → Core} : s.setCore n g = { s with cores := (s.setCore n g).cores } := rfl

/-- A change of each core is seen in each core, where the core that stands for none is unchanged. -/
theorem core_mapCores {n : Nat} {g : Core → Core} (hl : n < s.cores.length) : (s.mapCores g).core n = g (s.core n) := by
  simp [State.mapCores, State.core, List.getD_eq_getElem?_getD, hl]

/-! ### Registers (R450) -/

theorem reg_zero {k : Core} : k.reg 0 = 0 := by simp [Core.reg]
theorem setReg_zero {k : Core} {v : Word} : k.setReg 0 v = k := by simp [Core.setReg]

theorem reg_setReg {k : Core} {r q : Reg} {v : Word} (h : k.regs.length = 32) (hr : r ≠ 0) :
    (k.setReg r v).reg q = if q = r then v else k.reg q := by
  unfold Core.setReg Core.reg
  rw [if_neg hr]
  by_cases hq : q = r
  · subst hq; simp [hr, List.getD_eq_getElem?_getD, h]
  · have : r.val ≠ q.val := fun e => hq (Fin.ext e.symm)
    simp [hq, List.getD_eq_getElem?_getD, this]

theorem setReg_rest {k : Core} {r : Reg} {v : Word} : k.setReg r v = { k with regs := (k.setReg r v).regs } := by
  unfold Core.setReg; split <;> rfl

/-! ### Exceptions (R466) -/

/-- The fields of ESAVE. -/
theorem esave_flg (k : Core) (b : Bool) : bitsOf (esaveOf k b) 35 32 = k.flg.toNat := by
  unfold esaveOf
  rw [bitsOf_setBits_other, bitsOf_setBits_other, bitsOf_setBits_other, bitsOf_setBits_same] <;> first | omega | exact k.flg.isLt
theorem esave_bits (k : Core) (b : Bool) : bitAt (esaveOf k b) 31 = (k.world == .opn) ∧ bitAt (esaveOf k b) 30 = k.ie ∧ bitAt (esaveOf k b) 29 = b := by
  have e : ∀ x : Bool, Nat.testBit x.toNat 0 = x := by decide
  unfold esaveOf
  refine ⟨?_,?_,?_⟩ <;> rw [bitAt_setBits (by omega) (by omega) (by omega)] <;> simp [e]
  all_goals rw [bitAt_setBits (by omega) (by omega) (by omega)] <;> simp [e]
  rw [bitAt_setBits (by omega) (by omega) (by omega)] <;> simp [e]

/-- The fields of ECAUSE. -/
theorem ecause_bits {code sub acc info : Nat} (h1 : code < 256) (h2 : sub < 256) (h3 : info < 2 ^ 18) :
    bitsOf (ecauseOf code sub acc info) 35 28 = code ∧ bitsOf (ecauseOf code sub acc info) 27 20 = sub ∧ bitsOf (ecauseOf code sub acc info) 17 0 = info := by
  unfold ecauseOf
  refine ⟨?_,?_,?_⟩
  · rw [bitsOf_setBits_other, bitsOf_setBits_other, bitsOf_setBits_other, bitsOf_setBits_same] <;> omega
  · rw [bitsOf_setBits_other, bitsOf_setBits_other, bitsOf_setBits_same] <;> omega
  · rw [bitsOf_setBits_same] <;> omega

/-! ### Issue (R485) -/

theorem issue_next {f : State → State} (h : Issues s c) : issue c s f = .next (f s) := by
  simp [issue, h.1, h.2, State.next]

theorem issueA_eq {f : State → Answer} (h : Issues s c) : issueA c s f = f s := by simp [issueA, h.1, h.2]

/-! ### Loads and stores (R496, R497) -/

variable {n : Nat} {at_ : Bool} {a w : Word}

theorem memLoad_normal {f : State → Nat → State} (hm : memFault s c a n false at_ = none)
    (hr : regionOf s a.toNat ≠ some .device) (hb : s.safe.badWords.contains (a.toNat / 4 * 4) = false)
    (ha : a.toNat < 0x10000000) : memLoad n at_ c a s f = .next (f s (s.readNibs a.toNat n)) := by
  have hs : slotSealed s a.toNat = false := by simp [slotSealed]; intro; omega
  have h1 : ¬ (0x10000000 ≤ a.toNat) := by omega
  have h2 : ¬ (0x12E00000 ≤ a.toNat) := by omega
  simp only [memLoad, hm, hr, if_false, badLoad, hb]
  simp [memValue, hs, h1, h2]

theorem memLoad_device {f : State → Nat → State} {t : State} {r : ReadOut} (hm : memFault s c a n false at_ = none)
    (hr : regionOf s a.toNat = some .device) (hp : noneAhead s c.val (blkAt a.toNat) = true) (hq : s.aonPend = [])
    (hd : deviceRead s ⟨c.val, (s.core c.val).world⟩ a.toNat = (t, r)) :
    memLoad n at_ c a s f = .next (match r with | .err code => t.fault c .load code a | .word w => f t w.toNat) := by
  simp only [memLoad, hm, hr, if_true, devLoad, drainOwn_clear hp, andThen]
  simp [State.when, hq, hd]
  cases r <;> rfl

theorem storeTo_normal {f : State → State} (hm : memFault s c a n true at_ = none)
    (hr : regionOf s a.toNat ≠ some .device) (hs : storeSealed s c a.toNat = false) :
    storeTo n c a w at_ s f = f (memStore s a.toNat n w) := by simp [storeTo, hm, hr, hs]

theorem storeTo_device {f : State → State} (hm : memFault s c a n true at_ = none)
    (hr : regionOf s a.toNat = some .device) : storeTo n c a w at_ s f =
      f { s with posted := s.posted ++ [⟨⟨c.val, (s.core c.val).world⟩, a.toNat, w, false⟩] } := by simp [storeTo, hm, hr]

end Sys2Proof.Laws
end

