-- ==== Sys2Proof/Laws/KeepOps.lean ====
section
/-! SUPPORT. What every meaning keeps (`Kept` and `KeptA` of Laws/Keep.lean), one lemma per definition: the named operations, the channels, engines and lights as operations, and the fault manager. -/

namespace Sys2Proof.Laws
open Machine

variable {q : List Instr}

/-! ### Ops -/

theorem State.put_kept {s : State} {base : Nat} {f : Fld} {x : Nat} (hK : Kept q s) : Kept q (s.put base f x) := Kept.put hK

theorem State.mark_kept {s : State} {a : Nat} {m : Word} (hK : Kept q s) : Kept q (State.mark s a m) := by
  unfold State.mark
  with_reducible repeat' (first | assumption | apply Kept.upd)

theorem State.resetBlk_kept {s : State} {b : Blk} (hK : Kept q s) : Kept q (State.resetBlk s b) := by
  unfold State.resetBlk
  with_reducible repeat' (first | assumption | apply Kept.resetRange)

theorem State.setReady_kept {s : State} {i : Island} {b : Bool} (hK : Kept q s) : Kept q (State.setReady s i b) := by
  unfold State.setReady
  with_reducible repeat' (first | assumption | apply Kept.wr)

theorem State.putWord_kept {s : State} {a : Nat} {w : Word} (hK : Kept q s) : Kept q (State.putWord s a w) := by
  unfold State.putWord
  with_reducible repeat' (first | assumption | apply Kept.putNib)

theorem State.putHalf_kept {s : State} {a : Nat} {h : Half} (hK : Kept q s) : Kept q (State.putHalf s a h) := by
  unfold State.putHalf
  with_reducible repeat' (first | assumption | apply Kept.putNib)

theorem State.putWords_kept {s : State} {a : Nat} {ws : List Word} (hK : Kept q s) : Kept q (State.putWords s a ws) := by
  unfold State.putWords
  with_reducible repeat' (first
    | assumption | (intro x a hx; guard_hyp hx : Kept q x) | apply State.putWord_kept | apply Kept.foldl)

theorem State.putNibs_kept {s : State} {a : Nat} {ns : List Nib} (hK : Kept q s) : Kept q (State.putNibs s a ns) := by
  unfold State.putNibs
  with_reducible repeat' (first
    | assumption | (intro x a hx; guard_hyp hx : Kept q x) | apply Kept.putNib | apply Kept.foldl)

theorem State.drawn_kept {s : State} (hK : Kept q s) : Kept q (State.drawn s) := by
  unfold State.drawn
  with_reducible repeat' (first | assumption | apply Kept.upd)

theorem State.setRej_kept {s : State} {r : Nat} (hK : Kept q s) : Kept q (State.setRej s r) := by
  unfold State.setRej
  with_reducible repeat' (first | assumption | apply Kept.upd)

theorem State.clearRej_kept {s : State} {r : Nat} (hK : Kept q s) : Kept q (State.clearRej s r) := by
  unfold State.clearRej
  with_reducible repeat' (first | assumption | apply Kept.upd)

theorem State.reject_kept {s : State} {b : Blk} {src : Src} {off : Nat} {code : Nat} (hK : Kept q s) : Kept q
    (State.reject s b src off code) := by
  unfold State.reject
  with_reducible repeat' (first | assumption | apply Kept.wr | apply State.setRej_kept)

theorem State.fabErr_kept {s : State} {code : Nat} {req : Nat} {addr : Nat} (hK : Kept q s) : Kept q (State.fabErr
    s code req addr) := by
  unfold State.fabErr
  with_reducible repeat' (first | assumption | apply Kept.wr | apply Kept.ite)

theorem State.fabReject_kept {s : State} {src : Src} {code : Nat} {addr : Nat} (hK : Kept q s) : Kept q
    (State.fabReject s src code addr) := by
  unfold State.fabReject
  with_reducible repeat' (first | assumption | apply State.setRej_kept | apply State.fabErr_kept)

theorem State.satField_kept {s : State} {base : Nat} {f : Fld} (hK : Kept q s) : Kept q (State.satField s base f) := by
  unfold State.satField
  with_reducible repeat' (first | assumption | apply State.put_kept)

theorem State.incField_kept {s : State} {base : Nat} {f : Fld} (hK : Kept q s) : Kept q (State.incField s base f) := by
  unfold State.incField
  with_reducible repeat' (first | assumption | apply State.put_kept)

theorem State.putInt_kept {s : State} {base : Nat} {f : Fld} {x : Int} (hK : Kept q s) : Kept q (State.putInt s
    base f x) := by
  unfold State.putInt
  with_reducible repeat' (first | assumption | apply State.put_kept | apply State.drawn_kept | apply Kept.ite)

theorem State.putNat_kept {s : State} {base : Nat} {f : Fld} {x : Nat} (hK : Kept q s) : Kept q (State.putNat s
    base f x) := by
  unfold State.putNat
  with_reducible repeat' (first | assumption | apply State.put_kept | apply State.drawn_kept | apply Kept.ite)

theorem State.setBit_kept {s : State} {a : Nat} {i : Nat} {b : Bool} (hK : Kept q s) : Kept q (State.setBit s a i
    b) := by
  unfold State.setBit
  with_reducible repeat' (first | assumption | apply Kept.wr)

theorem State.raise_kept {s : State} {a : Nat} {i : Nat} (hK : Kept q s) : Kept q (State.raise s a i) := by
  unfold State.raise
  with_reducible repeat' (first | assumption | apply State.mark_kept | apply State.setBit_kept)

theorem State.refresh_kept {s : State} (hK : Kept q s) : Kept q s.refresh := Kept.refresh hK

theorem State.expire_kept {s : State} {d : Option Word} {i : Instr} {act : State → State} (hK : Kept q s) (hF_act :
    ∀ v0, Kept q v0 → Kept q (act v0)) : Kept q (State.expire s d i act) := by
  unfold State.expire
  with_reducible repeat' (first | assumption | apply hF_act | apply Kept.ite | apply Kept.upd)

theorem State.on_kept {s : State} {i : Island} {a : Answer} (hK : Kept q s) (ha : KeptA q a) : KeptA q (s.on i a) :=
  KeptA.ite ha (KeptA.go hK)

/-! ### RegCheck -/

theorem rejectWrite_kept {s : State} {r : WriteReq} {code : Nat} (hK : Kept q s) : Kept q (rejectWrite s r code) := by
  unfold rejectWrite
  with_reducible repeat' (first | assumption | apply State.reject_kept)

theorem blockWrite_kept {r : WriteReq} {fails : State → Word → Fails} {locked : Bool} {hook : State → Word → Word → State}
    {rej : State → Nat → State} {s : State} (hK : Kept q s) (hh : ∀ s a b, Kept q s → Kept q (hook s a b))
    (hr : ∀ s n, Kept q s → Kept q (rej s n)) : Kept q (blockWrite r fails locked hook rej s) := by
  unfold blockWrite
  split
  · split
    · exact State.fabReject_kept hK
    · split
      · exact hr _ _ (rejectWrite_kept hK)
      · exact hK
  · dsimp only
    split
    · exact hr _ _ (rejectWrite_kept hK)
    · exact hh _ _ _ (Kept.wr hK)

theorem noHook_kept {s : State} {u1 : Word} {u2 : Word} (hK : Kept q s) : Kept q (noHook s u1 u2) := by
  unfold noHook
  with_reducible repeat' assumption

theorem noRej_kept {s : State} {u1 : Nat} (hK : Kept q s) : Kept q (noRej s u1) := by
  unfold noRej
  with_reducible repeat' assumption

/-! ### ChanOps -/

theorem raiseLine_kept {s : State} {l : Nat} (hK : Kept q s) : Kept q (raiseLine s l) := by
  unfold raiseLine
  with_reducible repeat' (first | assumption | apply State.incField_kept | apply Kept.ite | apply Kept.upd)

theorem raiseSrc_kept {s : State} {code : Nat} (hK : Kept q s) : Kept q (raiseSrc s code) := by
  unfold raiseSrc
  with_reducible repeat' (first | assumption | apply raiseLine_kept | apply Kept.each)

theorem raiseLevel_kept {s : State} {code : Nat} {rising : Bool} (hK : Kept q s) : Kept q (raiseLevel s code
    rising) := by
  unfold raiseLevel
  with_reducible repeat' (first
    | assumption | (extract_lets +onlyGivenNames x; clear_value x) | apply raiseLine_kept | apply Kept.each)

theorem State.setCh_kept {s : State} {f : Nat} {g : Chan → Chan} (hK : Kept q s) : Kept q (State.setCh s f g) := by
  unfold State.setCh
  with_reducible repeat' (first | assumption | apply Kept.upd)

theorem showDer_kept {s : State} (hK : Kept q s) : Kept q (showDer s) := by
  unfold showDer
  with_reducible repeat' (first | assumption | apply State.put_kept)

theorem setDerated_kept {s : State} {base : Nat} {f : Fld} {b : Bool} (hK : Kept q s) : Kept q (setDerated s base f
    b) := by
  unfold setDerated
  with_reducible repeat' (first | assumption | apply State.put_kept | apply showDer_kept | apply Kept.ite)

theorem setChState_kept {s : State} {f : Nat} {st : Nat} (hK : Kept q s) : Kept q (setChState s f st) := by
  unfold setChState
  with_reducible repeat' (first
    | assumption | (intro x a hx; guard_hyp hx : Kept q x) | apply State.put_kept | apply State.setCh_kept
    | apply setDerated_kept | apply Kept.ite | apply Kept.each)

theorem setFault_kept {s : State} {f : Nat} {b : Fld} (hK : Kept q s) : Kept q (setFault s f b) := by
  unfold setFault
  with_reducible repeat' (first
    | assumption | (intro x a hx; guard_hyp hx : Kept q x) | apply State.put_kept | apply State.setBit_kept
    | apply Kept.each)

theorem setUnclaimed_kept {s : State} {f : Nat} {b : Bool} (hK : Kept q s) : Kept q (setUnclaimed s f b) := by
  unfold setUnclaimed
  with_reducible repeat' (first
    | assumption | (intro x a hx; guard_hyp hx : Kept q x) | apply State.put_kept | apply State.setBit_kept
    | apply Kept.each)

theorem showDp_kept {s : State} {f : Nat} (hK : Kept q s) : Kept q (showDp s f) := by
  unfold showDp
  with_reducible repeat' (first
    | assumption | (intro x hx; guard_hyp hx : Kept q x) | (intro x a hx; guard_hyp hx : Kept q x)
    | apply State.put_kept | apply State.setCh_kept | apply Kept.when | apply Kept.each)

theorem openWindow_kept {s : State} {f : Nat} (hK : Kept q s) : Kept q (openWindow s f) := by
  unfold openWindow
  with_reducible repeat' (first | assumption | apply State.put_kept | apply State.setCh_kept)

theorem setSw_kept {s : State} {f : Nat} {hs : Bool} {ls : Bool} {pwm : Bool} (hK : Kept q s) : Kept q (setSw s f
    hs ls pwm) := by
  unfold setSw
  with_reducible repeat' (first
    | assumption | (intro x a hx; guard_hyp hx : Kept q x) | apply State.setCh_kept | apply showDp_kept
    | apply openWindow_kept | apply Kept.ite | apply Kept.each)

theorem drive_kept {s : State} {f : Nat} {hs : Bool} {ls : Bool} {pwm : Bool} (hK : Kept q s) : Kept q (drive s f
    hs ls pwm) := by
  unfold drive
  with_reducible repeat' (first
    | assumption | (extract_lets +onlyGivenNames x; clear_value x) | apply State.setCh_kept | apply setSw_kept | split)

theorem driveSync_kept {s : State} {f : Nat} {hs : Bool} {ls : Bool} (hK : Kept q s) : Kept q (driveSync s f hs ls) := by
  unfold driveSync
  with_reducible repeat' (first | assumption | apply State.setCh_kept | apply setSw_kept | apply Kept.ite)

theorem serveDead_kept {s : State} {f : Nat} (hK : Kept q s) : Kept q (serveDead s f) := by
  unfold serveDead
  with_reducible repeat' (first
    | assumption | (extract_lets +onlyGivenNames x; clear_value x) | apply State.setCh_kept | apply setSw_kept | split)

theorem stopGen_kept {s : State} {f : Nat} (hK : Kept q s) : Kept q (stopGen s f) := by
  unfold stopGen
  with_reducible repeat' (first | assumption | apply State.setCh_kept)

theorem allOff_kept {s : State} {f : Nat} (hK : Kept q s) : Kept q (allOff s f) := by
  unfold allOff
  with_reducible repeat' (first | assumption | apply setSw_kept | apply stopGen_kept)

theorem beginPulse_kept {s : State} {f : Nat} {p : Word × Nat} (hK : Kept q s) : Kept q (beginPulse s f p) := by
  unfold beginPulse
  with_reducible repeat' (first
    | assumption | apply State.setCh_kept | apply drive_kept | apply driveSync_kept | apply Kept.ite)

theorem beginPulses_kept {s : State} {f : Nat} (hK : Kept q s) : Kept q (beginPulses s f) := by
  unfold beginPulses
  with_reducible repeat' (first
    | assumption | (intro x a hx; guard_hyp hx : Kept q x) | apply beginPulse_kept | apply Kept.each)

theorem endPulse_kept {s : State} {f : Nat} (hK : Kept q s) : Kept q (endPulse s f) := by
  unfold endPulse
  with_reducible repeat' (first
    | assumption
    | (extract_lets +onlyGivenNames x; refine (fun hx : Kept q x => ?_) ?_; rotate_left; subst x; rotate_left; clear_value x)
    | apply State.setCh_kept | apply drive_kept | apply driveSync_kept | split)

theorem periodSwitches_kept {s : State} {f : Nat} {e : Option Word} {isFirst : Bool} (hK : Kept q s) : Kept q
    (periodSwitches s f e isFirst) := by
  unfold periodSwitches
  with_reducible repeat' (first
    | assumption | apply setSw_kept | apply drive_kept | apply driveSync_kept | apply Kept.ite)

theorem beginPeriod_kept {s : State} {f : Nat} {mode : Nat} {per : Nat} {duty : Nat} {isFirst : Bool} (hK : Kept q
    s) : Kept q (beginPeriod s f mode per duty isFirst) := by
  unfold beginPeriod
  with_reducible repeat' (first
    | assumption | apply State.put_kept | apply State.setCh_kept | apply setDerated_kept | apply beginPulses_kept
    | apply endPulse_kept | apply periodSwitches_kept)

theorem periodBoundary_kept {s : State} {f : Nat} (hK : Kept q s) : Kept q (periodBoundary s f) := by
  unfold periodBoundary
  with_reducible repeat' (first | assumption | apply beginPeriod_kept | apply Kept.ite)

/-! ### EngOps -/

theorem State.setMo_kept {s : State} {k : Nat} {g : Mot → Mot} (hK : Kept q s) : Kept q (State.setMo s k g) := by
  unfold State.setMo
  with_reducible repeat' (first | assumption | apply Kept.upd)

theorem setMotState_kept {s : State} {k : Nat} {st : Nat} (hK : Kept q s) : Kept q (setMotState s k st) := by
  unfold setMotState
  with_reducible repeat' (first | assumption | apply State.put_kept)

theorem setPos_kept {s : State} {k : Nat} {x : Int} (hK : Kept q s) : Kept q (setPos s k x) := by
  unfold setPos
  with_reducible repeat' (first
    | assumption
    | (extract_lets +onlyGivenNames x; refine (fun hx : Kept q x => ?_) ?_; rotate_left; subst x; rotate_left; clear_value x)
    | apply State.put_kept | apply State.putInt_kept | split)

theorem engSwitch_kept {s : State} {f : Nat} {st : Nat} {hs : Bool} {ls : Bool} (hK : Kept q s) : Kept q (engSwitch
    s f st hs ls) := by
  unfold engSwitch
  with_reducible repeat' (first | assumption | apply drive_kept | apply stopGen_kept | apply Kept.ite)

theorem bridgeBrake_kept {s : State} {e : Nat} (hK : Kept q s) : Kept q (bridgeBrake s e) := by
  unfold bridgeBrake
  with_reducible repeat' (first | assumption | apply engSwitch_kept)

theorem bridgeOff_kept {s : State} {e : Nat} (hK : Kept q s) : Kept q (bridgeOff s e) := by
  unfold bridgeOff
  with_reducible repeat' (first | assumption | apply engSwitch_kept)

theorem motIdleLoop_kept {s : State} {k : Nat} (hK : Kept q s) : Kept q (motIdleLoop s k) := by
  unfold motIdleLoop
  with_reducible repeat' (first | assumption | apply State.put_kept)

theorem motRelease_kept {s : State} {k : Nat} (hK : Kept q s) : Kept q (motRelease s k) := by
  unfold motRelease
  with_reducible repeat' (first
    | assumption | apply State.setMo_kept | apply setMotState_kept | apply bridgeOff_kept | apply motIdleLoop_kept)

theorem motStop_kept {s : State} {k : Nat} {cause : Nat} {force : Bool} (hK : Kept q s) : Kept q (motStop s k cause
    force) := by
  unfold motStop
  with_reducible repeat' (first
    | assumption | apply State.put_kept | apply State.setMo_kept | apply setMotState_kept | apply bridgeBrake_kept
    | apply motIdleLoop_kept | apply motRelease_kept | apply Kept.ite)

theorem motKill_kept {s : State} {k : Nat} {cause : Nat} (hK : Kept q s) : Kept q (motKill s k cause) := by
  unfold motKill
  with_reducible repeat' (first
    | assumption | apply State.put_kept | apply State.setMo_kept | apply motRelease_kept | apply Kept.ite)

theorem State.setSk_kept {s : State} {k : Nat} {g : Stk → Stk} (hK : Kept q s) : Kept q (State.setSk s k g) := by
  unfold State.setSk
  with_reducible repeat' (first | assumption | apply Kept.upd)

theorem stkApply_kept {s : State} {k : Nat} (hK : Kept q s) : Kept q (stkApply s k) := by
  unfold stkApply
  with_reducible repeat' (first | assumption | apply engSwitch_kept | split)

theorem stkMirror_kept {s : State} {k : Nat} (hK : Kept q s) : Kept q (stkMirror s k) := by
  unfold stkMirror
  with_reducible repeat' (first | assumption | apply Kept.wr | split)

theorem showAct_kept {s : State} {k : Nat} (hK : Kept q s) : Kept q (showAct s k) := by
  unfold showAct
  with_reducible repeat' (first | assumption | apply State.put_kept)

theorem setPhase_kept {s : State} {k : Nat} {ph : Nat} (hK : Kept q s) : Kept q (setPhase s k ph) := by
  unfold setPhase
  with_reducible repeat' (first
    | assumption | apply State.put_kept | apply State.setSk_kept | apply stkApply_kept | apply stkMirror_kept
    | apply showAct_kept)

theorem stkBoost_kept {s : State} {k : Nat} {isFresh : Bool} (hK : Kept q s) : Kept q (stkBoost s k isFresh) := by
  unfold stkBoost
  with_reducible repeat' (first | assumption | apply State.put_kept | apply State.setSk_kept | apply setPhase_kept)

theorem stkServeWait_kept {s : State} {j : Nat} (hK : Kept q s) : Kept q (stkServeWait s j) := by
  unfold stkServeWait
  with_reducible repeat' (first | assumption | apply State.put_kept | apply stkBoost_kept | apply Kept.ite)

theorem stkSettle_kept {s : State} {k : Nat} (hK : Kept q s) : Kept q (stkSettle s k) := by
  unfold stkSettle
  with_reducible repeat' (first | assumption | apply stkServeWait_kept | apply Kept.each)

theorem stkQuench_kept {s : State} {k : Nat} {cause : Nat} (hK : Kept q s) : Kept q (stkQuench s k cause) := by
  unfold stkQuench
  with_reducible repeat' (first
    | assumption | apply State.put_kept | apply State.setSk_kept | apply setPhase_kept | apply stkSettle_kept)

theorem stkHalt_kept {cause : Nat} {s : State} {k : Nat} (hK : Kept q s) : Kept q (stkHalt cause s k) := by
  unfold stkHalt
  with_reducible repeat' (first
    | assumption | apply State.put_kept | apply State.setSk_kept | apply setPhase_kept | apply Kept.ite)

theorem stkStops_kept {s : State} {ks : List Nat} {cause : Nat} (hK : Kept q s) : Kept q (stkStops s ks cause) := by
  unfold stkStops
  with_reducible repeat' (first | assumption | apply stkSettle_kept | apply stkHalt_kept | apply Kept.each)

theorem stkStop_kept {s : State} {k : Nat} {cause : Nat} (hK : Kept q s) : Kept q (stkStop s k cause) := by
  unfold stkStop
  with_reducible repeat' (first | assumption | apply stkStops_kept)

theorem stopOwner_kept {s : State} {f : Nat} {why : StopWhy} (hK : Kept q s) : Kept q (stopOwner s f why) := by
  unfold stopOwner
  with_reducible repeat' (first
    | assumption | (intro x a hx; guard_hyp hx : Kept q x) | apply motKill_kept | apply stkStops_kept | apply Kept.each
    | split)

/-! ### LightOps -/

theorem State.setSt_kept {s : State} {n : Nat} {g : StrDrv → StrDrv} (hK : Kept q s) : Kept q (State.setSt s n g) := by
  unfold State.setSt
  with_reducible repeat' (first | assumption | apply Kept.upd)

theorem State.setSn_kept {s : State} {n : Nat} {g : Sink → Sink} (hK : Kept q s) : Kept q (State.setSn s n g) := by
  unfold State.setSn
  with_reducible repeat' (first | assumption | apply Kept.upd)

theorem State.setMx_kept {s : State} {g : Matrix → Matrix} (hK : Kept q s) : Kept q (State.setMx s g) := by
  unfold State.setMx
  with_reducible repeat' (first | assumption | apply Kept.upd)

theorem State.setChain_kept {s : State} {g : Chain → Chain} (hK : Kept q s) : Kept q (State.setChain s g) := by
  unfold State.setChain
  with_reducible repeat' (first | assumption | apply Kept.upd)

theorem tgtUncl_kept {s : State} {t : Target} {b : Bool} (hK : Kept q s) : Kept q (tgtUncl s t b) := by
  unfold tgtUncl
  with_reducible repeat' (first | assumption | apply State.put_kept | apply State.setBit_kept | split)

theorem tgtCoincident_kept {s : State} {zz : Target} (hK : Kept q s) : Kept q (tgtCoincident s zz) := by
  unfold tgtCoincident
  with_reducible repeat' (first | assumption | apply State.put_kept | split)

theorem lgtRefreshFlt_kept {s : State} {zz : Target} (hK : Kept q s) : Kept q (lgtRefreshFlt s zz) := by
  unfold lgtRefreshFlt
  with_reducible repeat' (first | assumption | apply State.setBit_kept | split)

theorem mxRefreshFlt_kept {s : State} (hK : Kept q s) : Kept q (mxRefreshFlt s) := by
  unfold mxRefreshFlt
  with_reducible repeat' (first | assumption | apply State.setBit_kept)

theorem stFault_kept {s : State} {n : Nat} {b : Fld} (hK : Kept q s) : Kept q (stFault s n b) := by
  unfold stFault
  with_reducible repeat' (first | assumption | apply State.put_kept | apply lgtRefreshFlt_kept)

theorem skFault_kept {s : State} {n : Nat} {b : Fld} (hK : Kept q s) : Kept q (skFault s n b) := by
  unfold skFault
  with_reducible repeat' (first | assumption | apply State.put_kept | apply lgtRefreshFlt_kept)

theorem strWant_kept {s : State} {n : Nat} {on : Bool} (hK : Kept q s) : Kept q (strWant s n on) := by
  unfold strWant
  with_reducible repeat' (first | assumption | apply State.setSt_kept)

theorem strDiagnosed_kept {s : State} {n : Nat} (hK : Kept q s) : Kept q (strDiagnosed s n) := by
  unfold strDiagnosed
  with_reducible repeat' (first
    | assumption | (intro x hx; guard_hyp hx : Kept q x) | apply State.put_kept | apply State.setSt_kept
    | apply Kept.when)

theorem strAged_kept {s : State} {n : Nat} (hK : Kept q s) : Kept q (strAged s n) := by
  unfold strAged
  with_reducible repeat' (first | assumption | apply State.setSt_kept | apply Kept.ite)

theorem strBegin_kept {s : State} {n : Nat} {per : Nat} {duty : Nat} (hK : Kept q s) : Kept q (strBegin s n per
    duty) := by
  unfold strBegin
  with_reducible repeat' (first
    | assumption | apply State.put_kept | apply setDerated_kept | apply State.setSt_kept | apply strWant_kept
    | apply strAged_kept)

theorem strStop_kept {s : State} {n : Nat} (hK : Kept q s) : Kept q (strStop s n) := by
  unfold strStop
  with_reducible repeat' (first | assumption | apply State.put_kept | apply State.setSt_kept | apply strAged_kept)

theorem strServe_kept {s : State} {n : Nat} (hK : Kept q s) : Kept q (strServe s n) := by
  unfold strServe
  with_reducible repeat' (first
    | assumption | apply State.setSt_kept | apply strWant_kept | apply strDiagnosed_kept | apply Kept.ite)

theorem strMode_kept {s : State} {n : Nat} {m : Nat} (hK : Kept q s) : Kept q (strMode s n m) := by
  unfold strMode
  with_reducible repeat' (first
    | assumption | (intro x hx; guard_hyp hx : Kept q x) | apply State.put_kept | apply setDerated_kept
    | apply State.setSt_kept | apply strWant_kept | apply strBegin_kept | apply strStop_kept | apply Kept.when | split)

theorem sinkWant_kept {s : State} {n : Nat} {on : Bool} (hK : Kept q s) : Kept q (sinkWant s n on) := by
  unfold sinkWant
  with_reducible repeat' (first | assumption | apply State.setSn_kept)

theorem sinkDiagnosed_kept {s : State} {n : Nat} (hK : Kept q s) : Kept q (sinkDiagnosed s n) := by
  unfold sinkDiagnosed
  with_reducible repeat' (first
    | assumption | (intro x hx; guard_hyp hx : Kept q x) | apply State.put_kept | apply State.setSn_kept
    | apply Kept.when)

theorem sinkAged_kept {s : State} {n : Nat} (hK : Kept q s) : Kept q (sinkAged s n) := by
  unfold sinkAged
  with_reducible repeat' (first | assumption | apply State.setSn_kept | apply Kept.ite)

theorem sinkPlace_kept {s : State} {n : Nat} {t : Nat} {edge : Word} (hK : Kept q s) : Kept q (sinkPlace s n t
    edge) := by
  unfold sinkPlace
  with_reducible repeat' (first | assumption | apply State.put_kept | apply State.setSn_kept)

theorem sinkBegin_kept {s : State} {n : Nat} {per : Nat} {d : Nat} (hK : Kept q s) : Kept q (sinkBegin s n per d) := by
  unfold sinkBegin
  with_reducible repeat' (first | assumption | apply sinkAged_kept | apply sinkPlace_kept)

theorem sinkEnd_kept {s : State} {n : Nat} (hK : Kept q s) : Kept q (sinkEnd s n) := by
  unfold sinkEnd
  with_reducible repeat' (first | assumption | apply State.setSn_kept | apply sinkWant_kept | apply Kept.ite)

theorem sinkServe_kept {s : State} {n : Nat} (hK : Kept q s) : Kept q (sinkServe s n) := by
  unfold sinkServe
  with_reducible repeat' (first
    | assumption
    | (extract_lets +onlyGivenNames x; refine (fun hx : Kept q x => ?_) ?_; rotate_left; subst x; rotate_left; clear_value x)
    | apply State.setSn_kept | apply sinkWant_kept | apply sinkDiagnosed_kept | apply sinkEnd_kept | split)

theorem sinkStop_kept {s : State} {n : Nat} (hK : Kept q s) : Kept q (sinkStop s n) := by
  unfold sinkStop
  with_reducible repeat' (first | assumption | apply State.put_kept | apply State.setSn_kept | apply sinkAged_kept)

theorem sinkJoin_kept {s : State} {n : Nat} {duty : Nat} (hK : Kept q s) : Kept q (sinkJoin s n duty) := by
  unfold sinkJoin
  with_reducible repeat' (first
    | assumption | apply State.setSn_kept | apply sinkWant_kept | apply sinkBegin_kept | apply sinkServe_kept
    | apply sinkStop_kept | split | apply Kept.upd)

theorem sinkMode_kept {s : State} {n : Nat} {m : Nat} (hK : Kept q s) : Kept q (sinkMode s n m) := by
  unfold sinkMode
  with_reducible repeat' (first
    | assumption | apply State.put_kept | apply State.setSn_kept | apply sinkWant_kept | apply sinkStop_kept
    | apply sinkJoin_kept | split)

theorem chainPin_kept {s : State} (hK : Kept q s) : Kept q (chainPin s) := by
  unfold chainPin
  with_reducible repeat' (first | assumption | apply State.put_kept)

theorem chainStart_kept {s : State} (hK : Kept q s) : Kept q (chainStart s) := by
  unfold chainStart
  with_reducible repeat' (first | assumption | apply State.put_kept | apply State.setChain_kept | apply Kept.ite)

theorem chainRequest_kept {s : State} (hK : Kept q s) : Kept q (chainRequest s) := by
  unfold chainRequest
  with_reducible repeat' (first | assumption | apply State.setChain_kept | apply chainStart_kept | apply Kept.ite)

theorem lightSafe_kept {s : State} {t : Target} (hK : Kept q s) : Kept q (lightSafe s t) := by
  unfold lightSafe
  with_reducible repeat' (first
    | assumption
    | (extract_lets +onlyGivenNames x; refine (fun hx : Kept q x => ?_) ?_; rotate_left; subst x; rotate_left; clear_value x)
    | (extract_lets +onlyGivenNames x; clear_value x) | apply State.put_kept | apply State.setSt_kept
    | apply State.setSn_kept | apply strWant_kept | apply strBegin_kept | apply strStop_kept | apply sinkWant_kept
    | apply sinkStop_kept | apply sinkJoin_kept | apply chainPin_kept | split)

theorem mxBlank_kept {s : State} (hK : Kept q s) : Kept q (mxBlank s) := by
  unfold mxBlank
  with_reducible repeat' (first
    | assumption | (intro x a hx; guard_hyp hx : Kept q x) | apply State.setSn_kept | apply sinkWant_kept
    | apply Kept.each)

theorem mxStop_kept {s : State} (hK : Kept q s) : Kept q (mxStop s) := by
  unfold mxStop
  with_reducible repeat' (first | assumption | apply State.setMx_kept | apply mxBlank_kept)

theorem mxReclaimed_kept {s : State} (hK : Kept q s) : Kept q (mxReclaimed s) := by
  unfold mxReclaimed
  with_reducible repeat' (first | assumption | apply mxStop_kept | apply Kept.ite)

theorem lightReclaim_kept {s : State} {t : Target} (hK : Kept q s) : Kept q (lightReclaim s t) := by
  unfold lightReclaim
  with_reducible repeat' (first
    | assumption | (intro x hx; guard_hyp hx : Kept q x)
    | (extract_lets +onlyGivenNames x; refine (fun hx : Kept q x => ?_) ?_; rotate_left; subst x; rotate_left; clear_value x)
    | (extract_lets +onlyGivenNames x; clear_value x) | apply State.put_kept | apply State.setSt_kept
    | apply State.setSn_kept | apply State.setChain_kept | apply tgtUncl_kept | apply tgtCoincident_kept
    | apply strMode_kept | apply sinkMode_kept | apply chainPin_kept | apply chainRequest_kept | apply mxReclaimed_kept
    | apply Kept.when | split)

theorem lightAllSafe_kept {s : State} (hK : Kept q s) : Kept q (lightAllSafe s) := by
  unfold lightAllSafe
  with_reducible repeat' (first | assumption | apply lightSafe_kept | apply Kept.each)

theorem lightHold_kept {s : State} (hK : Kept q s) : Kept q (lightHold s) := by
  unfold lightHold
  with_reducible repeat' (first
    | assumption | (intro x a hx; guard_hyp hx : Kept q x) | apply tgtUncl_kept | apply Kept.each)

theorem lightHoldEnd_kept {s : State} (hK : Kept q s) : Kept q (lightHoldEnd s) := by
  unfold lightHoldEnd
  with_reducible repeat' (first | assumption | apply lightSafe_kept | apply Kept.each)

/-! ### ChanState -/

theorem syncTests_kept {s : State} {f : Nat} (hK : Kept q s) : Kept q (syncTests s f) := by
  unfold syncTests
  with_reducible repeat' (first | assumption | apply State.setCh_kept | apply Kept.ite)

theorem restartTests_kept {s : State} {f : Nat} (hK : Kept q s) : Kept q (restartTests s f) := by
  unfold restartTests
  with_reducible repeat' (first | assumption | apply State.setCh_kept | apply syncTests_kept)

theorem refreshFlt_kept {s : State} {f : Nat} (hK : Kept q s) : Kept q (refreshFlt s f) := by
  unfold refreshFlt
  with_reducible repeat' (first | assumption | apply State.setBit_kept)

theorem mirrorPair_kept {s : State} {f : Nat} (hK : Kept q s) : Kept q (mirrorPair s f) := by
  unfold mirrorPair
  with_reducible repeat' (first | assumption | apply Kept.wr | apply refreshFlt_kept | apply Kept.ite)

theorem settle_kept {s : State} {f : Nat} (hK : Kept q s) : Kept q (settle s f) := by
  unfold settle
  with_reducible repeat' (first | assumption | apply syncTests_kept | apply refreshFlt_kept | apply mirrorPair_kept)

theorem dropGrant_kept {s : State} {f : Nat} (hK : Kept q s) : Kept q (dropGrant s f) := by
  unfold dropGrant
  with_reducible repeat' (first | assumption | apply State.setCh_kept | apply setDerated_kept)

theorem safeValue_kept {s : State} {f : Nat} {window : Bool} (hK : Kept q s) : Kept q (safeValue s f window) := by
  unfold safeValue
  with_reducible repeat' (first
    | assumption
    | (extract_lets +onlyGivenNames x; refine (fun hx : Kept q x => ?_) ?_; rotate_left; subst x; rotate_left; clear_value x)
    | (extract_lets +onlyGivenNames x; clear_value x) | apply State.setCh_kept | apply openWindow_kept
    | apply setSw_kept | apply drive_kept | apply stopGen_kept | apply allOff_kept | apply beginPeriod_kept
    | apply dropGrant_kept | split)

theorem enterSafe_kept {s : State} {f : Nat} (hK : Kept q s) : Kept q (enterSafe s f) := by
  unfold enterSafe
  with_reducible repeat' (first
    | assumption | apply setChState_kept | apply stopOwner_kept | apply settle_kept | apply safeValue_kept)

theorem expireToSafe_kept {s : State} {f : Nat} (hK : Kept q s) : Kept q (expireToSafe s f) := by
  unfold expireToSafe
  with_reducible repeat' (first | assumption | apply State.setCh_kept | apply enterSafe_kept | apply Kept.ite)

theorem chanSafe_kept {s : State} {f : Nat} (hK : Kept q s) : Kept q (chanSafe s f) := by
  unfold chanSafe
  with_reducible repeat' (first | assumption | apply expireToSafe_kept | apply Kept.ite)

theorem toMode_kept {s : State} {f : Nat} {m : Nat} (hK : Kept q s) : Kept q (toMode s f m) := by
  unfold toMode
  with_reducible repeat' (first
    | assumption | apply State.setCh_kept | apply setChState_kept | apply openWindow_kept | apply drive_kept
    | apply stopGen_kept | apply allOff_kept | apply beginPeriod_kept | apply settle_kept | apply Kept.ite)

theorem modeWritten_kept {s : State} {f : Nat} {old : Nat} {new : Nat} (hK : Kept q s) : Kept q (modeWritten s f
    old new) := by
  unfold modeWritten
  with_reducible repeat' (first | assumption | apply State.setCh_kept | apply toMode_kept | apply Kept.ite)

theorem limReset_kept {s : State} {f : Nat} (hK : Kept q s) : Kept q (limReset s f) := by
  unfold limReset
  with_reducible repeat' (first
    | assumption | (intro x a hx; guard_hyp hx : Kept q x) | apply State.setCh_kept | apply Kept.each)

theorem enterLocked_kept {s : State} {f : Nat} {cause : Nat} (hK : Kept q s) : Kept q (enterLocked s f cause) := by
  unfold enterLocked
  with_reducible repeat' (first
    | assumption | apply State.put_kept | apply State.setCh_kept | apply setChState_kept | apply setFault_kept
    | apply allOff_kept | apply stopOwner_kept | apply settle_kept | apply limReset_kept)

theorem enterRetry_kept {s : State} {f : Nat} {st : Nat} {delay : Nat} (hK : Kept q s) : Kept q (enterRetry s f st
    delay) := by
  unfold enterRetry
  with_reducible repeat' (first
    | assumption | apply State.setCh_kept | apply setChState_kept | apply allOff_kept | apply stopOwner_kept
    | apply settle_kept | apply limReset_kept)

theorem trip_kept {s : State} {f : Nat} {causes : List TripCause} {odd : Bool} (hK : Kept q s) : Kept q (trip s f
    causes odd) := by
  unfold trip
  with_reducible repeat' (first
    | assumption | (intro x hx; guard_hyp hx : Kept q x) | (intro x a hx; guard_hyp hx : Kept q x)
    | apply State.put_kept | apply State.setCh_kept | apply setFault_kept | apply enterLocked_kept
    | apply enterRetry_kept | apply Kept.ite | apply Kept.when | apply Kept.each)

theorem restart_kept {s : State} {f : Nat} (hK : Kept q s) : Kept q (restart s f) := by
  unfold restart
  with_reducible repeat' (first
    | assumption | (intro x a hx; guard_hyp hx : Kept q x) | apply State.setCh_kept | apply setChState_kept
    | apply drive_kept | apply beginPeriod_kept | apply settle_kept | apply safeValue_kept | apply Kept.ite
    | apply Kept.each)

theorem unlock_kept {s : State} {f : Nat} (hK : Kept q s) : Kept q (unlock s f) := by
  unfold unlock
  with_reducible repeat' (first
    | assumption | apply State.put_kept | apply State.setCh_kept | apply setChState_kept | apply settle_kept)

theorem conductChanged_kept {s : State} {f : Nat} (hK : Kept q s) : Kept q (conductChanged s f) := by
  unfold conductChanged
  with_reducible repeat' (first
    | assumption | (intro x a hx; guard_hyp hx : Kept q x) | apply State.setCh_kept | apply showDp_kept
    | apply Kept.each)

theorem applyHolds_kept {s : State} {feed : Nat} (hK : Kept q s) : Kept q (applyHolds s feed) := by
  unfold applyHolds
  with_reducible repeat' (first
    | assumption | (intro x a hx; guard_hyp hx : Kept q x) | apply State.setCh_kept | apply stopOwner_kept
    | apply conductChanged_kept | apply Kept.ite | apply Kept.each)

theorem reholds_kept {s : State} (hK : Kept q s) : Kept q (reholds s) := by
  unfold reholds
  with_reducible repeat' (first | assumption | apply applyHolds_kept | apply Kept.each)

theorem beatStart_kept {s : State} (hK : Kept q s) : Kept q (beatStart s) := by
  unfold beatStart
  with_reducible repeat' (first | assumption | apply State.put_kept | apply Kept.upd)

theorem beatStop_kept {s : State} (hK : Kept q s) : Kept q (beatStop s) := by
  unfold beatStop
  with_reducible repeat' (first | assumption | apply State.put_kept | apply Kept.upd)

theorem beatExpire_kept {s : State} (hK : Kept q s) : Kept q (beatExpire s) := by
  unfold beatExpire
  with_reducible repeat' (first
    | assumption | apply State.put_kept | apply lightAllSafe_kept | apply expireToSafe_kept | apply beatStop_kept
    | apply Kept.each)

theorem holdStart_kept {s : State} {src : Nat} (hK : Kept q s) : Kept q (holdStart s src) := by
  unfold holdStart
  with_reducible repeat' (first
    | assumption | (intro x a hx; guard_hyp hx : Kept q x) | apply State.put_kept | apply setUnclaimed_kept
    | apply lightHold_kept | apply beatStop_kept | apply Kept.ite | apply Kept.each | apply Kept.upd)

theorem holdEnd_kept {s : State} (hK : Kept q s) : Kept q (holdEnd s) := by
  unfold holdEnd
  with_reducible repeat' (first
    | assumption | apply State.put_kept | apply lightHoldEnd_kept | apply expireToSafe_kept | apply beatStart_kept
    | apply Kept.ite | apply Kept.each | apply Kept.upd)

theorem reclaim_kept {s : State} {f : Nat} (hK : Kept q s) : Kept q (reclaim s f) := by
  unfold reclaim
  with_reducible repeat' (first
    | assumption | (intro x hx; guard_hyp hx : Kept q x) | apply State.put_kept | apply State.setCh_kept
    | apply setChState_kept | apply setUnclaimed_kept | apply allOff_kept | apply mirrorPair_kept | apply settle_kept
    | apply toMode_kept | apply modeWritten_kept | apply Kept.ite | apply Kept.when)

/-! ### SafeOps -/

theorem loseResv_kept {s : State} {a n : Nat} (hK : Kept q s) : Kept q (loseResv s a n) :=
  Kept.mapCores hK fun k => Or.inl (by cases k.resv <;> simp only [] <;> (try split) <;> rfl)

theorem State.dmaPut_kept {s : State} {a : Nat} {ns : List Nib} (hK : Kept q s) : Kept q (State.dmaPut s a ns) := by
  unfold State.dmaPut
  with_reducible repeat' (first | assumption | apply State.putNibs_kept | apply loseResv_kept)

theorem updateGact_kept {s : State} (hK : Kept q s) : Kept q (updateGact s) := by
  unfold updateGact
  with_reducible repeat' (first | assumption | apply State.put_kept)

theorem addCause_kept {s : State} {cls : Nat} {idx : Nat} (hK : Kept q s) : Kept q (addCause s cls idx) := by
  unfold addCause
  with_reducible repeat' (first | assumption | apply Kept.ite | apply Kept.upd)

theorem dropCause_kept {s : State} {p : Cause → Bool} (hK : Kept q s) : Kept q (dropCause s p) := by
  unfold dropCause
  with_reducible repeat' (first | assumption | apply Kept.upd)

theorem recordFault_kept {s : State} {cls : Nat} {idx : Nat} (hK : Kept q s) : Kept q (recordFault s cls idx) := by
  unfold recordFault
  with_reducible repeat' (first
    | assumption | apply Kept.wr | apply State.put_kept | apply State.satField_kept | apply State.setBit_kept
    | apply Kept.ite)

theorem fsafe_kept {s : State} (hK : Kept q s) : Kept q (fsafe s) := by
  unfold fsafe
  with_reducible repeat' (first | assumption | apply State.put_kept | apply beatExpire_kept)

theorem fsafeDue_kept {s : State} (hK : Kept q s) : Kept q (fsafeDue s) := by
  unfold fsafeDue
  with_reducible repeat' (first | assumption | apply Kept.upd)

theorem fsafeServe_kept {s : State} (hK : Kept q s) : Kept q (fsafeServe s) := by
  unfold fsafeServe
  with_reducible repeat' (first
    | assumption | (intro x hx; guard_hyp hx : Kept q x) | apply fsafe_kept | apply Kept.when | apply Kept.upd)

theorem haltCore_kept {s : State} {c : Nat} (hK : Kept q s) : Kept q (haltCore s c) := by
  unfold haltCore
  with_reducible repeat' (first | assumption | with_unfolding_all exact fun _ => Or.inl rfl | apply Kept.setCore)

theorem safeDetect_kept {s : State} {cls : Nat} {idx : Nat} (hK : Kept q s) : Kept q (safeDetect s cls idx) := by
  unfold safeDetect
  with_reducible repeat' (first
    | assumption | (intro x hx; guard_hyp hx : Kept q x)
    | (extract_lets +onlyGivenNames x; refine (fun hx : Kept q x => ?_) ?_; rotate_left; subst x; rotate_left; clear_value x)
    | (extract_lets +onlyGivenNames x; clear_value x) | apply State.put_kept | apply updateGact_kept
    | apply addCause_kept | apply recordFault_kept | apply fsafeDue_kept | apply haltCore_kept | apply Kept.when
    | apply Kept.each | split | apply Kept.upd)

theorem setBad_kept {s : State} {a : Nat} (hK : Kept q s) : Kept q (setBad s a) := by
  unfold setBad
  with_reducible repeat' (first | assumption | apply Kept.ite | apply Kept.upd)

theorem eccFault_kept {s : State} {cls : Nat} {idx : Nat} {a : Nat} (hK : Kept q s) : Kept q (eccFault s cls idx a) := by
  unfold eccFault
  with_reducible repeat' (first
    | assumption | apply State.put_kept | apply safeDetect_kept | apply setBad_kept | apply Kept.upd)

/-! ### Wake -/

theorem setPwr_kept {s : State} {g : PwrSt → PwrSt} (hK : Kept q s) : Kept q (setPwr s g) := by
  unfold setPwr
  with_reducible repeat' (first | assumption | apply Kept.upd)

theorem entryAbort_kept {s : State} (hK : Kept q s) : Kept q (entryAbort s) := by
  unfold entryAbort
  with_reducible repeat' (first
    | assumption | (intro x hx; guard_hyp hx : Kept q x) | apply State.put_kept | apply setPwr_kept | apply Kept.when
    | split)

theorem wakeStart_kept {s : State} (hK : Kept q s) : Kept q (wakeStart s) := by
  unfold wakeStart
  with_reducible repeat' (first
    | assumption | apply Kept.wr | apply State.drawn_kept | apply setPwr_kept | apply Kept.ite | apply Kept.when)

theorem wakeDetect_kept {s : State} {i : Nat} (hK : Kept q s) : Kept q (wakeDetect s i) := by
  unfold wakeDetect
  with_reducible repeat' (first
    | assumption | (intro x hx; guard_hyp hx : Kept q x) | apply State.raise_kept | apply entryAbort_kept
    | apply wakeStart_kept | apply Kept.ite | apply Kept.when)

end Sys2Proof.Laws
end

