-- ==== Sys2Proof/Laws/KeepNet.lean ====
section
/-! SUPPORT. What every meaning keeps (`Kept` and `KeptA` of Laws/Keep.lean), one lemma per definition: the networks: NMG, CAN FD, LIN, Ethernet and the ring. -/

namespace Sys2Proof.Laws
open Machine

variable {q : List Instr}

/-! ### Nmg -/

theorem State.setNm_kept {s : State} {c : Nat} {g : NmgCh → NmgCh} (hK : Kept q s) : Kept q (State.setNm s c g) := by
  unfold State.setNm
  with_reducible repeat' (first | assumption | apply Kept.upd)

theorem nmgIrq_kept {s : State} {c : Nat} {i : Nat} (hK : Kept q s) : Kept q (nmgIrq s c i) := by
  unfold nmgIrq
  with_reducible repeat' (first | assumption | apply State.raise_kept)

theorem setXmode_kept {s : State} {c : Nat} {m : Nat} (hK : Kept q s) : Kept q (setXmode s c m) := by
  unfold setXmode
  with_reducible repeat' (first | assumption | apply State.put_kept | apply State.setNm_kept)

theorem xLow_kept {s : State} {c : Nat} (hK : Kept q s) : Kept q (xLow s c) := by
  unfold xLow
  with_reducible repeat' (first | assumption | apply State.put_kept | apply setXmode_kept | apply Kept.ite)

theorem nmgServe_kept {s : State} {c : Nat} (hK : Kept q s) : Kept q (nmgServe s c) := by
  unfold nmgServe
  with_reducible repeat' (first
    | assumption | apply State.setNm_kept | apply setXmode_kept | apply xLow_kept | apply Kept.ite)

theorem nmgTo_kept {s : State} {c : Nat} {st : Nat} (hK : Kept q s) : Kept q (nmgTo s c st) := by
  unfold nmgTo
  with_reducible repeat' (first | assumption | apply State.put_kept | apply nmgServe_kept)

theorem kaMake_kept {s : State} {c : Nat} {rep : Bool} (hK : Kept q s) : Kept q (kaMake s c rep) := by
  unfold kaMake
  with_reducible repeat' (first | assumption | apply State.setNm_kept)

theorem kaSent_kept {s : State} {c : Nat} {t : Word} (hK : Kept q s) : Kept q (kaSent s c t) := by
  unfold kaSent
  with_reducible repeat' (first | assumption | apply State.incField_kept | apply State.setNm_kept)

theorem nmgAbort_kept {s : State} {c : Nat} (hK : Kept q s) : Kept q (nmgAbort s c) := by
  unfold nmgAbort
  with_reducible repeat' (first
    | assumption | apply State.put_kept | apply State.setNm_kept | apply nmgIrq_kept | apply nmgTo_kept
    | apply kaMake_kept | apply Kept.ite)

theorem nmgSettle_kept {s : State} {c : Nat} (hK : Kept q s) : Kept q (nmgSettle s c) := by
  unfold nmgSettle
  with_reducible repeat' (first | assumption | apply nmgTo_kept | apply Kept.ite)

theorem nmgRepeatEnd_kept {s : State} {c : Nat} (hK : Kept q s) : Kept q (nmgRepeatEnd s c) := by
  unfold nmgRepeatEnd
  with_reducible repeat' (first | assumption | apply State.setNm_kept | apply nmgSettle_kept | apply Kept.ite)

theorem nmgLog_kept {s : State} {c : Nat} {nmid : Nat} {stamp : Word} (hK : Kept q s) : Kept q (nmgLog s c nmid
    stamp) := by
  unfold nmgLog
  with_reducible repeat' (first
    | assumption | (extract_lets +onlyGivenNames x) | apply Kept.wr | apply State.put_kept | apply State.satField_kept
    | split)

theorem kaReceived_kept {s : State} {c : Nat} {nmid : Nat} {stamp : Word} (hK : Kept q s) : Kept q (kaReceived s c
    nmid stamp) := by
  unfold kaReceived
  with_reducible repeat' (first
    | assumption
    | (extract_lets +onlyGivenNames x; refine (fun hx : Kept q x => ?_) ?_; rotate_left; subst x; rotate_left; clear_value x)
    | (extract_lets +onlyGivenNames x; clear_value x) | apply State.put_kept | apply State.incField_kept
    | apply State.setNm_kept | apply nmgAbort_kept | apply nmgLog_kept | split)

theorem execNmgKeepaliveReceived_kept {c : Fin 12} {fr : NetFrame} {stamp : Word} {s : State} (hK : Kept q s) :
    KeptA q (execNmgKeepaliveReceived c fr stamp s) := by
  unfold execNmgKeepaliveReceived
  with_reducible repeat' (first | assumption | apply State.on_kept | apply kaReceived_kept | apply KeptA.next | split)

theorem execNmgSleepAbort_kept {c : Fin 12} {s : State} (hK : Kept q s) : KeptA q (execNmgSleepAbort c s) := by
  unfold execNmgSleepAbort
  with_reducible repeat' (first
    | assumption | (intro x hx; guard_hyp hx : Kept q x) | apply State.on_kept | apply nmgAbort_kept | apply KeptA.next
    | apply Kept.when)

theorem kaDueServe_kept {c : Nat} {s : State} (hK : Kept q s) : Kept q (kaDueServe c s) := by
  unfold kaDueServe
  with_reducible repeat' (first
    | assumption | (intro x hx; guard_hyp hx : Kept q x) | apply kaMake_kept | apply Kept.when)

theorem execNmgKeepaliveDue_kept {c : Fin 12} {s : State} (hK : Kept q s) : KeptA q (execNmgKeepaliveDue c s) := by
  unfold execNmgKeepaliveDue
  with_reducible repeat' (first
    | assumption | apply State.expire_kept | apply State.on_kept | apply kaDueServe_kept | apply KeptA.next)

theorem nmgIdleServe_kept {c : Nat} {s : State} (hK : Kept q s) : Kept q (nmgIdleServe c s) := by
  unfold nmgIdleServe
  with_reducible repeat' (first
    | assumption | (intro x hx; guard_hyp hx : Kept q x) | apply State.setNm_kept | apply nmgIrq_kept
    | apply nmgTo_kept | apply Kept.when)

theorem execNmgIdleTimeout_kept {c : Fin 12} {s : State} (hK : Kept q s) : KeptA q (execNmgIdleTimeout c s) := by
  unfold execNmgIdleTimeout
  with_reducible repeat' (first
    | assumption | apply State.expire_kept | apply State.on_kept | apply nmgIdleServe_kept | apply KeptA.next)

theorem execNmgRepeatEnd_kept {c : Fin 12} {s : State} (hK : Kept q s) : KeptA q (execNmgRepeatEnd c s) := by
  unfold execNmgRepeatEnd
  with_reducible repeat' (first
    | assumption | (intro x hx; guard_hyp hx : Kept q x) | apply State.expire_kept | apply State.on_kept
    | apply nmgRepeatEnd_kept | apply KeptA.next)

theorem execNmgDetectorArm_kept {c : Fin 12} {s : State} (hK : Kept q s) : KeptA q (execNmgDetectorArm c s) := by
  unfold execNmgDetectorArm
  with_reducible repeat' (first
    | assumption | (intro x hx; guard_hyp hx : Kept q x) | apply State.on_kept | apply State.setNm_kept
    | apply KeptA.next | apply Kept.when | split)

theorem commitServe_kept {c : Nat} {s : State} (hK : Kept q s) : Kept q (commitServe c s) := by
  unfold commitServe
  with_reducible repeat' (first
    | assumption | (intro x hx; guard_hyp hx : Kept q x) | apply State.setNm_kept | apply nmgIrq_kept
    | apply nmgTo_kept | apply Kept.when)

theorem execNmgSleepCommit_kept {c : Fin 12} {s : State} (hK : Kept q s) : KeptA q (execNmgSleepCommit c s) := by
  unfold execNmgSleepCommit
  with_reducible repeat' (first
    | assumption | apply State.expire_kept | apply State.on_kept | apply commitServe_kept | apply KeptA.next)

theorem confOpen_kept {s : State} {c : Nat} {t : Word} (hK : Kept q s) : Kept q (confOpen s c t) := by
  unfold confOpen
  with_reducible repeat' (first | assumption | apply State.put_kept | apply State.setNm_kept)

theorem nmgWoken_kept {s : State} {c : Nat} (hK : Kept q s) : Kept q (nmgWoken s c) := by
  unfold nmgWoken
  with_reducible repeat' (first
    | assumption | apply State.setNm_kept | apply nmgIrq_kept | apply nmgTo_kept | apply confOpen_kept | apply Kept.ite)

theorem nmgDetect_kept {s : State} {c : Nat} {cause : Nat} (hK : Kept q s) : Kept q (nmgDetect s c cause) := by
  unfold nmgDetect
  with_reducible repeat' (first
    | assumption | apply State.put_kept | apply wakeDetect_kept | apply State.setNm_kept | apply setXmode_kept
    | apply nmgWoken_kept | apply Kept.ite)

theorem nmgSees_kept {s : State} {c : Nat} {zz : XcvrEvent} (hK : Kept q s) : Kept q (nmgSees s c zz) := by
  unfold nmgSees
  with_reducible repeat' (first
    | assumption
    | (extract_lets +onlyGivenNames x; refine (fun hx : Kept q x => ?_) ?_; rotate_left; subst x; rotate_left; clear_value x)
    | (extract_lets +onlyGivenNames x; clear_value x) | apply State.put_kept | apply State.drawn_kept
    | apply nmgDetect_kept | split)

theorem execTransceiverWake_kept {c : Fin 12} {ev : XcvrEvent} {s : State} (hK : Kept q s) : KeptA q
    (execTransceiverWake c ev s) := by
  unfold execTransceiverWake
  with_reducible repeat' (first
    | assumption | (intro x hx; guard_hyp hx : Kept q x) | apply nmgSees_kept | apply KeptA.next | apply Kept.when)

theorem wakeFrameDecodeEffect_kept {c : Fin 12} {ev : XcvrEvent} {s : State} (hK : Kept q s) : Kept q
    (wakeFrameDecodeEffect c ev s) := by
  unfold wakeFrameDecodeEffect
  with_reducible repeat' (first | assumption | apply nmgSees_kept | split)

theorem execWakeFrameDecode_kept {c : Fin 12} {ev : XcvrEvent} {s : State} (hK : Kept q s) : KeptA q
    (execWakeFrameDecode c ev s) := by
  unfold execWakeFrameDecode
  with_reducible repeat' (first | assumption | apply wakeFrameDecodeEffect_kept | apply KeptA.next | apply Kept.when)

theorem nmgConfirmTimeoutEffect_kept {c : Fin 12} {s : State} (hK : Kept q s) : Kept q (nmgConfirmTimeoutEffect c
    s) := by
  unfold nmgConfirmTimeoutEffect
  with_reducible repeat' (first
    | assumption | apply State.put_kept | apply State.satField_kept | apply State.setNm_kept | apply nmgIrq_kept
    | apply Kept.ite)

theorem confServe_kept {c : Fin 12} {s : State} (hK : Kept q s) : Kept q (confServe c s) := by
  unfold confServe
  with_reducible repeat' (first | assumption | apply nmgConfirmTimeoutEffect_kept | apply Kept.when)

theorem execNmgConfirmTimeout_kept {c : Fin 12} {s : State} (hK : Kept q s) : KeptA q (execNmgConfirmTimeout c s) := by
  unfold execNmgConfirmTimeout
  with_reducible repeat' (first
    | assumption | apply State.expire_kept | apply State.on_kept | apply confServe_kept | apply KeptA.next)

theorem execTransceiverService_kept {s : State} (hK : Kept q s) : KeptA q (execTransceiverService s) := by
  unfold execTransceiverService
  with_reducible repeat' (first
    | assumption | (intro x hx; guard_hyp hx : Kept q x) | apply nmgServe_kept | apply KeptA.next | apply Kept.when
    | apply Kept.each)

theorem unservedServe_kept {c : Nat} {s : State} (hK : Kept q s) : Kept q (unservedServe c s) := by
  unfold unservedServe
  with_reducible repeat' (first
    | assumption | (intro x hx; guard_hyp hx : Kept q x) | apply State.setNm_kept | apply xLow_kept | apply Kept.when)

theorem execTransceiverServiceTimeout_kept {c : Fin 12} {s : State} (hK : Kept q s) : KeptA q
    (execTransceiverServiceTimeout c s) := by
  unfold execTransceiverServiceTimeout
  with_reducible repeat' (first | assumption | apply State.expire_kept | apply unservedServe_kept | apply KeptA.next)

theorem nmgCtrlWritten_kept {s : State} {c : Nat} {old : Word} {w : Word} (hK : Kept q s) : Kept q (nmgCtrlWritten
    s c old w) := by
  unfold nmgCtrlWritten
  with_reducible repeat' (first
    | assumption
    | (extract_lets +onlyGivenNames x; refine (fun hx : Kept q x => ?_) ?_; rotate_left; subst x; rotate_left; clear_value x)
    | (extract_lets +onlyGivenNames x; clear_value x) | apply State.put_kept | apply State.setNm_kept
    | apply nmgServe_kept | apply nmgTo_kept | apply kaMake_kept | apply nmgAbort_kept | apply nmgSettle_kept
    | apply confOpen_kept | split)

theorem nmgLogWritten_kept {s : State} {w : Word} (hK : Kept q s) : Kept q (nmgLogWritten s w) := by
  unfold nmgLogWritten
  with_reducible repeat' (first
    | assumption | (intro x a hx; guard_hyp hx : Kept q x) | apply State.put_kept | apply Kept.ite | apply Kept.each)

theorem nmgFwakeWritten_kept {s : State} {c : Nat} {w : Word} (hK : Kept q s) : Kept q (nmgFwakeWritten s c w) := by
  unfold nmgFwakeWritten
  with_reducible repeat' (first | assumption | apply State.put_kept | apply Kept.ite)

theorem nmgReset_kept {s : State} (hK : Kept q s) : Kept q (nmgReset s) := by
  unfold nmgReset
  with_reducible repeat' (first
    | assumption | (intro x a hx; guard_hyp hx : Kept q x) | apply Kept.wr | apply State.resetBlk_kept
    | apply Kept.each | apply Kept.upd)

theorem nmgRest_kept {s : State} (hK : Kept q s) : Kept q (nmgRest s) := by
  unfold nmgRest
  with_reducible repeat' (first
    | assumption | (intro x a hx; guard_hyp hx : Kept q x) | apply State.setNm_kept | apply nmgWoken_kept
    | apply Kept.ite | apply Kept.each)

theorem nmgReady_kept {s : State} (hK : Kept q s) : Kept q (nmgReady s) := by
  unfold nmgReady
  with_reducible repeat' (first | assumption | apply Kept.upd)

theorem nmgPark_kept {s : State} {capped : Bool} (hK : Kept q s) : Kept q (nmgPark s capped) := by
  unfold nmgPark
  with_reducible repeat' (first
    | assumption | (intro x a hx; guard_hyp hx : Kept q x) | apply State.setNm_kept | apply setXmode_kept
    | apply xLow_kept | apply Kept.ite | apply Kept.each)

theorem nmgUnpark_kept {s : State} (hK : Kept q s) : Kept q (nmgUnpark s) := by
  unfold nmgUnpark
  with_reducible repeat' (first
    | assumption | (intro x a hx; guard_hyp hx : Kept q x) | apply State.setBit_kept | apply State.setNm_kept
    | apply setXmode_kept | apply Kept.each | split)

/-! ### Can -/

theorem State.setCn_kept {s : State} {n : Nat} {g : CanSt → CanSt} (hK : Kept q s) : Kept q (State.setCn s n g) := by
  unfold State.setCn
  with_reducible repeat' (first | assumption | apply Kept.upd)

theorem setObjSt_kept {s : State} {n : Nat} {k : Nat} {hi : Nat} {lo : Nat} {x : Nat} (hK : Kept q s) : Kept q
    (setObjSt s n k hi lo x) := by
  unfold setObjSt
  with_reducible repeat' (first | assumption | apply State.putWord_kept | apply State.setCn_kept)

theorem setTxst_kept {s : State} {n : Nat} {k : Nat} {x : Nat} (hK : Kept q s) : Kept q (setTxst s n k x) := by
  unfold setTxst
  with_reducible repeat' (first | assumption | apply setObjSt_kept)

theorem objGen_kept {s : State} {n : Nat} {k : Nat} (hK : Kept q s) : Kept q (objGen s n k) := by
  unfold objGen
  with_reducible repeat' (first | assumption | apply setObjSt_kept)

theorem setPending_kept {s : State} {n : Nat} {k : Nat} {b : Bool} (hK : Kept q s) : Kept q (setPending s n k b) := by
  unfold setPending
  with_reducible repeat' (first | assumption | apply State.setBit_kept)

theorem canIrq_kept {s : State} {n : Nat} {i : Nat} (hK : Kept q s) : Kept q (canIrq s n i) := by
  unfold canIrq
  with_reducible repeat' (first | assumption | apply State.raise_kept)

theorem canShow_kept {s : State} {n : Nat} (hK : Kept q s) : Kept q (canShow s n) := by
  unfold canShow
  with_reducible repeat' (first | assumption | apply State.put_kept | apply canIrq_kept | apply Kept.ite)

theorem canCount_kept {s : State} {n : Nat} {g : CanSt → CanSt} (hK : Kept q s) : Kept q (canCount s n g) := by
  unfold canCount
  with_reducible repeat' (first | assumption | apply State.setCn_kept | apply canShow_kept | apply Kept.ite)

theorem rxGood_kept {s : State} {n : Nat} (hK : Kept q s) : Kept q (rxGood s n) := by
  unfold rxGood
  with_reducible repeat' (first | assumption | apply State.drawn_kept | apply canCount_kept | apply Kept.ite)

theorem txLost_kept {s : State} {n : Nat} (hK : Kept q s) : Kept q (txLost s n) := by
  unfold txLost
  with_reducible repeat' (first
    | assumption
    | (extract_lets +onlyGivenNames x; refine (fun hx : Kept q x => ?_) ?_; rotate_left; subst x; rotate_left; clear_value x)
    | apply State.put_kept | apply State.setCn_kept | apply setTxst_kept | apply setPending_kept | split)

theorem tdcMeasured_kept {s : State} {n : Nat} {d : Option Nat} (hK : Kept q s) : Kept q (tdcMeasured s n d) := by
  unfold tdcMeasured
  with_reducible repeat' (first
    | assumption | (intro x hx; guard_hyp hx : Kept q x) | apply State.put_kept | apply Kept.when | split)

theorem canErrorDetectedEffect_kept {n : Fin 8} {kind : Fin 7} {dataPhase : Bool} {tx : Bool} {step : CanStep}
    {delay : Option Nat} {s : State} (hK : Kept q s) : Kept q (canErrorDetectedEffect n kind dataPhase tx step
    delay s) := by
  unfold canErrorDetectedEffect
  with_reducible repeat' (first
    | assumption | (intro x hx; guard_hyp hx : Kept q x) | apply State.put_kept | apply State.incField_kept
    | apply canIrq_kept | apply canCount_kept | apply txLost_kept | apply tdcMeasured_kept | apply Kept.ite
    | apply Kept.when)

theorem execCanErrorDetected_kept {n : Fin 8} {kind : Fin 7} {dataPhase : Bool} {tx : Bool} {step : CanStep} {delay
    : Option Nat} {s : State} (hK : Kept q s) : KeptA q (execCanErrorDetected n kind dataPhase tx step delay s) := by
  unfold execCanErrorDetected
  with_reducible repeat' (first
    | assumption | apply State.on_kept | apply canErrorDetectedEffect_kept | apply KeptA.next | apply Kept.when)

theorem execCanProtocolException_kept {n : Fin 8} {s : State} (hK : Kept q s) : KeptA q (execCanProtocolException n
    s) := by
  unfold execCanProtocolException
  with_reducible repeat' (first
    | assumption | (intro x hx; guard_hyp hx : Kept q x) | apply State.put_kept | apply State.on_kept
    | apply State.setCn_kept | apply KeptA.next | apply Kept.when)

theorem execCanRecoveryDone_kept {n : Fin 8} {s : State} (hK : Kept q s) : KeptA q (execCanRecoveryDone n s) := by
  unfold execCanRecoveryDone
  with_reducible repeat' (first
    | assumption | (intro x hx; guard_hyp hx : Kept q x) | apply State.put_kept | apply State.on_kept
    | apply State.setCn_kept | apply canShow_kept | apply KeptA.next | apply Kept.when)

theorem canStore_kept {s : State} {n : Nat} {k : Nat} {w0 : Word} {dlc : Nat} {data : List Nat} {stamp : Word} (hK
    : Kept q s) : Kept q (canStore s n k w0 dlc data stamp) := by
  unfold canStore
  with_reducible repeat' (first
    | assumption | apply State.putWord_kept | apply State.putNibs_kept | apply setObjSt_kept | apply objGen_kept)

theorem canReceive_kept {s : State} {n : Nat} {w0 : Word} {dlc : Nat} {data : List Nat} {stamp : Word} (hK : Kept q
    s) : Kept q (canReceive s n w0 dlc data stamp) := by
  unfold canReceive
  with_reducible repeat' (first
    | assumption | apply State.put_kept | apply State.satField_kept | apply raiseSrc_kept | apply State.setCn_kept
    | apply canIrq_kept | apply canStore_kept | apply Kept.ite)

theorem canFrameIn_kept {n : Nat} {f : CanFrame} {stamp : Word} {s : State} (hK : Kept q s) : Kept q (canFrameIn n
    f stamp s) := by
  unfold canFrameIn
  with_reducible repeat' (first
    | assumption | (intro x hx; guard_hyp hx : Kept q x) | apply rxGood_kept | apply canReceive_kept | apply Kept.when)

theorem canOwnIn_kept {n : Nat} {stamp : Word} {s : State} (hK : Kept q s) : Kept q (canOwnIn n stamp s) := by
  unfold canOwnIn
  with_reducible repeat' (first
    | assumption | (intro x hx; guard_hyp hx : Kept q x) | apply canReceive_kept | apply Kept.when | split)

theorem canTxSelectionEffect_kept {n : Nat} {s : State} (hK : Kept q s) : Kept q (canTxSelectionEffect n s) := by
  unfold canTxSelectionEffect
  with_reducible repeat' (first
    | assumption | (extract_lets +onlyGivenNames x; clear_value x) | apply State.setCn_kept | apply setTxst_kept
    | apply setPending_kept | apply canIrq_kept | split)

theorem execCanTxSelection_kept {n : Fin 8} {s : State} (hK : Kept q s) : KeptA q (execCanTxSelection n s) := by
  unfold execCanTxSelection
  with_reducible repeat' (first
    | assumption | (intro x hx; guard_hyp hx : Kept q x) | apply State.on_kept | apply State.setCn_kept
    | apply canTxSelectionEffect_kept | apply KeptA.next | apply Kept.when)

theorem canStart_kept {n : Nat} {k : Nat} {ws : List Word} {s : State} (hK : Kept q s) : Kept q (canStart n k ws s) := by
  unfold canStart
  with_reducible repeat' (first
    | assumption | (intro x hx; guard_hyp hx : Kept q x) | apply State.put_kept | apply State.setCn_kept
    | apply setTxst_kept | apply Kept.when)

theorem execCanArbitrationStart_kept {n : Fin 8} {s : State} (hK : Kept q s) : KeptA q (execCanArbitrationStart n
    s) := by
  unfold execCanArbitrationStart
  with_reducible repeat' (first
    | assumption | apply State.on_kept | apply canStart_kept | apply KeptA.next | apply Kept.when | split)

theorem canSent_kept {n : Nat} {k : Nat} {stamp : Word} {s : State} (hK : Kept q s) : Kept q (canSent n k stamp s) := by
  unfold canSent
  with_reducible repeat' (first
    | assumption | apply State.put_kept | apply State.putWord_kept | apply State.setBit_kept | apply raiseSrc_kept
    | apply kaSent_kept | apply State.setCn_kept | apply setTxst_kept | apply objGen_kept | apply setPending_kept
    | apply canIrq_kept | apply canCount_kept | apply Kept.ite)

theorem canDelayError_kept {n : Fin 8} {delay : Nat} {s : State} (hK : Kept q s) : Kept q (canDelayError n delay s) := by
  unfold canDelayError
  with_reducible repeat' (first
    | assumption | apply State.drawn_kept | apply txLost_kept | apply canErrorDetectedEffect_kept)

theorem execCanTxSuccess_kept {n : Fin 8} {stamp : Word} {delay : Nat} {s : State} (hK : Kept q s) : KeptA q
    (execCanTxSuccess n stamp delay s) := by
  unfold execCanTxSuccess
  with_reducible repeat' (first
    | assumption | (intro x hx; guard_hyp hx : Kept q x) | apply State.on_kept | apply tdcMeasured_kept
    | apply canSent_kept | apply canDelayError_kept | apply KeptA.next | apply Kept.when | split)

theorem execCanTxLost_kept {n : Fin 8} {s : State} (hK : Kept q s) : KeptA q (execCanTxLost n s) := by
  unfold execCanTxLost
  with_reducible repeat' (first
    | assumption | (intro x hx; guard_hyp hx : Kept q x) | apply State.on_kept | apply txLost_kept | apply KeptA.next
    | apply Kept.when)

theorem canLeave_kept {s : State} {n : Nat} (hK : Kept q s) : Kept q (canLeave s n) := by
  unfold canLeave
  with_reducible repeat' (first
    | assumption | (intro x a hx; guard_hyp hx : Kept q x) | apply State.put_kept | apply State.setCn_kept
    | apply setTxst_kept | apply setPending_kept | apply Kept.each)

theorem execCanDisableEffect_kept {n : Fin 8} {s : State} (hK : Kept q s) : KeptA q (execCanDisableEffect n s) := by
  unfold execCanDisableEffect
  with_reducible repeat' (first
    | assumption | (intro x hx; guard_hyp hx : Kept q x) | apply State.on_kept | apply canLeave_kept | apply KeptA.next
    | apply Kept.when)

theorem canEnable_kept {s : State} {n : Nat} (hK : Kept q s) : Kept q (canEnable s n) := by
  unfold canEnable
  with_reducible repeat' (first
    | assumption | (intro x hx; guard_hyp hx : Kept q x) | (intro x a hx; guard_hyp hx : Kept q x)
    | apply State.put_kept | apply nmgServe_kept | apply State.setCn_kept | apply setObjSt_kept | apply Kept.when
    | apply Kept.each)

theorem canCtrlWritten_kept {s : State} {n : Nat} {old : Word} {w : Word} (hK : Kept q s) : Kept q (canCtrlWritten
    s n old w) := by
  unfold canCtrlWritten
  with_reducible repeat' (first
    | assumption | apply State.put_kept | apply State.setCn_kept | apply canLeave_kept | apply canEnable_kept
    | apply Kept.ite)

theorem canRelease_kept {s : State} {n m : Nat} (hK : Kept q s) : Kept q (canRelease s n m) := by
  induction m with
  | zero => exact hK
  | succ m ih =>
  unfold canRelease
  repeat' (first
    | with_reducible assumption
    | (intro x hx; guard_hyp hx : Kept q x)
    | (intro x a hx; guard_hyp hx : Kept q x)
    | (extract_lets +onlyGivenNames x; refine (fun hx : Kept q x => ?_) ?_; rotate_left; subst x; rotate_left; clear_value x)
    | (extract_lets +onlyGivenNames x; clear_value x)
    | intro _
    | with_reducible first | apply State.put_kept | apply setObjSt_kept
    | with_reducible apply Kept.ite
    | split
    | with_reducible apply Kept.upd)

theorem canCancel_kept {s : State} {n : Nat} {k : Nat} (hK : Kept q s) : Kept q (canCancel s n k) := by
  unfold canCancel
  with_reducible repeat' (first
    | assumption | apply State.setCn_kept | apply setTxst_kept | apply setPending_kept | apply Kept.ite)

theorem canRejected_kept {s : State} {n : Nat} {o : Nat} {code : Nat} {w : Word} (hK : Kept q s) : Kept q
    (canRejected s n o code w) := by
  unfold canRejected
  with_reducible repeat' (first | assumption | apply State.put_kept | apply Kept.ite)

theorem canWritten_kept {s : State} {n : Nat} {o : Nat} {old : Word} {w : Word} (hK : Kept q s) : Kept q
    (canWritten s n o old w) := by
  unfold canWritten
  with_reducible repeat' (first
    | assumption | (intro x a hx; guard_hyp hx : Kept q x) | apply State.put_kept | apply setTxst_kept
    | apply canCtrlWritten_kept | apply canRelease_kept | apply canCancel_kept | apply Kept.ite | apply Kept.each)

theorem canReset1_kept {s : State} {n : Nat} (hK : Kept q s) : Kept q (canReset1 s n) := by
  unfold canReset1
  with_reducible repeat' (first | assumption | apply State.resetBlk_kept | apply State.setCn_kept)

theorem canMemClear_kept {s : State} {a : Nat} {b : Nat} (hK : Kept q s) : Kept q (canMemClear s a b) := by
  unfold canMemClear
  with_reducible repeat' (first | assumption | apply Kept.clearMem | apply Kept.upd)

theorem canReset_kept {s : State} (hK : Kept q s) : Kept q (canReset s) := by
  unfold canReset
  with_reducible repeat' (first | assumption | apply canReset1_kept | apply canMemClear_kept | apply Kept.each)

/-! ### Lin -/

theorem State.setLn_kept {s : State} {n : Nat} {g : LinSt → LinSt} (hK : Kept q s) : Kept q (State.setLn s n g) := by
  unfold State.setLn
  with_reducible repeat' (first | assumption | apply Kept.upd)

theorem linSlotStartEffect_kept {n : Nat} {s : State} (hK : Kept q s) : Kept q (linSlotStartEffect n s) := by
  unfold linSlotStartEffect
  with_reducible repeat' (first | assumption | apply State.put_kept | apply State.setLn_kept | apply Kept.ite)

theorem execLinSlotStart_kept {n : Fin 12} {s : State} (hK : Kept q s) : KeptA q (execLinSlotStart n s) := by
  unfold execLinSlotStart
  with_reducible repeat' (first
    | assumption | apply State.on_kept | apply linSlotStartEffect_kept | apply KeptA.next | apply Kept.when)

theorem linHeaderReceivedEffect_kept {n : Nat} {id : Fin 64} {brk : Word} {rate : Nat} {s : State} (hK : Kept q s)
    : Kept q (linHeaderReceivedEffect n id brk rate s) := by
  unfold linHeaderReceivedEffect
  with_reducible repeat' (first
    | assumption | (intro x hx; guard_hyp hx : Kept q x) | apply State.put_kept | apply State.setLn_kept
    | apply Kept.when)

theorem execLinHeaderReceived_kept {n : Fin 12} {id : Fin 64} {brk : Word} {rate : Nat} {s : State} (hK : Kept q s)
    : KeptA q (execLinHeaderReceived n id brk rate s) := by
  unfold execLinHeaderReceived
  with_reducible repeat' (first
    | assumption | apply State.on_kept | apply linHeaderReceivedEffect_kept | apply KeptA.next | apply Kept.when)

theorem linFault_kept {n : Nat} {id : Nat} {err : Nat} {s : State} (hK : Kept q s) : Kept q (linFault n id err s) := by
  unfold linFault
  with_reducible repeat' (first
    | assumption | apply State.put_kept | apply State.incField_kept | apply State.setLn_kept)

theorem linReceived_kept {n : Nat} {id : Nat} {last : Bool} {os : List Nat} {s : State} (hK : Kept q s) : Kept q
    (linReceived n id last os s) := by
  unfold linReceived
  with_reducible repeat' (first
    | assumption | (intro x hx; guard_hyp hx : Kept q x) | apply Kept.wr | apply State.put_kept
    | apply State.incField_kept | apply State.setLn_kept | apply Kept.when)

theorem execLinResponseReceived_kept {n : Fin 12} {data : List Nat} {sum : Nat} {s : State} (hK : Kept q s) : KeptA
    q (execLinResponseReceived n data sum s) := by
  unfold execLinResponseReceived
  with_reducible repeat' (first
    | assumption | (intro x hx; guard_hyp hx : Kept q x) | apply State.on_kept | apply linFault_kept
    | apply linReceived_kept | apply KeptA.next | apply Kept.when | split)

theorem linMissServe_kept {n : Fin 12} {s : State} (hK : Kept q s) : Kept q (linMissServe n s) := by
  unfold linMissServe
  with_reducible repeat' (first | assumption | apply linFault_kept | apply Kept.when | split)

theorem execLinResponseTimeout_kept {n : Fin 12} {err : Fin 6} {s : State} (hK : Kept q s) : KeptA q
    (execLinResponseTimeout n err s) := by
  unfold execLinResponseTimeout
  with_reducible repeat' (first
    | assumption | apply State.expire_kept | apply State.on_kept | apply linFault_kept | apply linMissServe_kept
    | apply KeptA.next | apply Kept.when | split)

theorem linWake_kept {s : State} {n : Nat} {t : Word} (hK : Kept q s) : Kept q (linWake s n t) := by
  unfold linWake
  with_reducible repeat' (first | assumption | apply State.put_kept | apply State.setLn_kept)

theorem linSleepEntryEffect_kept {n : Nat} {s : State} (hK : Kept q s) : Kept q (linSleepEntryEffect n s) := by
  unfold linSleepEntryEffect
  with_reducible repeat' (first
    | assumption | apply State.put_kept | apply State.setLn_kept | apply linWake_kept | apply Kept.ite)

theorem execLinSleepEntry_kept {n : Fin 12} {s : State} (hK : Kept q s) : KeptA q (execLinSleepEntry n s) := by
  unfold execLinSleepEntry
  with_reducible repeat' (first
    | assumption | apply State.on_kept | apply linSleepEntryEffect_kept | apply KeptA.next | apply Kept.when)

theorem linIdleServe_kept {n : Fin 12} {s : State} (hK : Kept q s) : Kept q (linIdleServe n s) := by
  unfold linIdleServe
  with_reducible repeat' (first
    | assumption | (intro x hx; guard_hyp hx : Kept q x) | apply State.put_kept | apply State.setLn_kept
    | apply Kept.when)

theorem execLinIdleTimeout_kept {n : Fin 12} {s : State} (hK : Kept q s) : KeptA q (execLinIdleTimeout n s) := by
  unfold execLinIdleTimeout
  with_reducible repeat' (first
    | assumption | apply State.expire_kept | apply State.on_kept | apply linIdleServe_kept | apply KeptA.next)

theorem execLinWakeupDetect_kept {n : Fin 12} {fin : Word} {s : State} (hK : Kept q s) : KeptA q
    (execLinWakeupDetect n fin s) := by
  unfold execLinWakeupDetect
  with_reducible repeat' (first
    | assumption | (intro x hx; guard_hyp hx : Kept q x) | apply State.put_kept | apply wakeDetect_kept
    | apply State.setLn_kept | apply linWake_kept | apply Kept.ite | apply KeptA.next | apply Kept.when)

theorem execLinScheduleResume_kept {n : Fin 12} {s : State} (hK : Kept q s) : KeptA q (execLinScheduleResume n s) := by
  unfold execLinScheduleResume
  with_reducible repeat' (first
    | assumption | (intro x hx; guard_hyp hx : Kept q x) | apply State.on_kept | apply State.setLn_kept
    | apply KeptA.next | apply Kept.when)

theorem linWritten_kept {s : State} {n : Nat} {o : Nat} {old : Word} {w : Word} (hK : Kept q s) : Kept q
    (linWritten s n o old w) := by
  unfold linWritten
  with_reducible repeat' (first | assumption | apply State.put_kept | apply State.setLn_kept | apply Kept.ite)

theorem linReset1_kept {s : State} {n : Nat} (hK : Kept q s) : Kept q (linReset1 s n) := by
  unfold linReset1
  with_reducible repeat' (first | assumption | apply State.resetBlk_kept | apply State.setLn_kept)

theorem linReset_kept {s : State} (hK : Kept q s) : Kept q (linReset s) := by
  unfold linReset
  with_reducible repeat' (first | assumption | apply linReset1_kept | apply Kept.each)

theorem linUnpark_kept {s : State} (hK : Kept q s) : Kept q (linUnpark s) := by
  unfold linUnpark
  with_reducible repeat' (first
    | assumption | (intro x a hx; guard_hyp hx : Kept q x) | apply State.put_kept | apply linReset_kept
    | apply Kept.each)

theorem linPark_kept {s : State} (hK : Kept q s) : Kept q (linPark s) := by
  unfold linPark
  with_reducible repeat' (first
    | assumption | (intro x a hx; guard_hyp hx : Kept q x) | apply State.setLn_kept | apply Kept.each)

/-! ### VaultOps -/

theorem signetMemClear_kept {s : State} (hK : Kept q s) : Kept q (signetMemClear s) := by
  unfold signetMemClear
  with_reducible repeat' (first | assumption | apply Kept.clearMem | apply Kept.upd)

theorem setVault_kept {s : State} {g : VaultSt → VaultSt} (hK : Kept q s) : Kept q (setVault s g) := by
  unfold setVault
  with_reducible repeat' (first | assumption | apply Kept.upd)

theorem fillSlot_kept {s : State} {n : Nat} {key : List Nat} {attrs : Word} (hK : Kept q s) : Kept q (fillSlot s n
    key attrs) := by
  unfold fillSlot
  with_reducible repeat' (first | assumption | apply Kept.wr | apply setVault_kept)

/-! ### Eth -/

theorem State.setEt_kept {s : State} {p : Nat} {g : EthSt → EthSt} (hK : Kept q s) : Kept q (State.setEt s p g) := by
  unfold State.setEt
  with_reducible repeat' (first | assumption | apply Kept.upd)

theorem ethIrq_kept {s : State} {p : Nat} {i : Nat} (hK : Kept q s) : Kept q (ethIrq s p i) := by
  unfold ethIrq
  with_reducible repeat' (first | assumption | apply State.raise_kept)

theorem dmaWord_kept {s : State} {a : Nat} {w : Word} (hK : Kept q s) : Kept q (dmaWord s a w) := by
  unfold dmaWord
  with_reducible repeat' (first | assumption | apply State.putWord_kept | apply loseResv_kept)

theorem ethDerr_kept {s : State} {p : Nat} {d : Nat} {rx : Bool} (hK : Kept q s) : Kept q (ethDerr s p d rx) := by
  unfold ethDerr
  with_reducible repeat' (first
    | assumption | apply State.put_kept | apply State.setEt_kept | apply dmaWord_kept | apply Kept.ite)

theorem ethStore_kept {s : State} {p : Nat} {octets : List Nat} {stamp : Word} (hK : Kept q s) : Kept q (ethStore s
    p octets stamp) := by
  unfold ethStore
  with_reducible repeat' (first
    | assumption | apply State.put_kept | apply State.satField_kept | apply State.dmaPut_kept | apply State.setEt_kept
    | apply ethIrq_kept | apply dmaWord_kept | apply ethDerr_kept | apply Kept.ite)

theorem ethFrameReceivedEffect_kept {p : Nat} {octets : List Nat} {fcsOk : Bool} {stamp : Word} {s : State} (hK :
    Kept q s) : Kept q (ethFrameReceivedEffect p octets fcsOk stamp s) := by
  unfold ethFrameReceivedEffect
  with_reducible repeat' (first
    | assumption | apply State.satField_kept | apply ethIrq_kept | apply ethStore_kept | apply Kept.ite)

theorem execEthFrameReceived_kept {p : Fin 6} {octets : List Nat} {fcsOk : Bool} {stamp : Word} {s : State} (hK :
    Kept q s) : KeptA q (execEthFrameReceived p octets fcsOk stamp s) := by
  unfold execEthFrameReceived
  with_reducible repeat' (first
    | assumption | apply State.on_kept | apply ethFrameReceivedEffect_kept | apply KeptA.next | apply Kept.when)

theorem ethLenErr_kept {s : State} {p : Nat} {d : Nat} (hK : Kept q s) : Kept q (ethLenErr s p d) := by
  unfold ethLenErr
  with_reducible repeat' (first
    | assumption | apply State.put_kept | apply State.drawn_kept | apply State.setEt_kept | apply dmaWord_kept)

theorem ethTxCheck_kept {s : State} {p : Nat} (hK : Kept q s) : Kept q (ethTxCheck s p) := by
  unfold ethTxCheck
  with_reducible repeat' (first
    | assumption | apply State.put_kept | apply ethDerr_kept | apply ethLenErr_kept | apply Kept.ite)

theorem ethKick_kept {s : State} {p : Nat} (hK : Kept q s) : Kept q (ethKick s p) := by
  unfold ethKick
  with_reducible repeat' (first | assumption | apply State.put_kept | apply ethTxCheck_kept | apply Kept.ite)

theorem ethSent_kept {p : Nat} {stamp : Word} {excess : Bool} {s : State} (hK : Kept q s) : Kept q (ethSent p stamp
    excess s) := by
  unfold ethSent
  with_reducible repeat' (first
    | assumption | apply State.put_kept | apply State.setEt_kept | apply ethIrq_kept | apply dmaWord_kept
    | apply ethTxCheck_kept)

theorem execEthFrameSent_kept {p : Fin 6} {stamp : Word} {excess : Bool} {ka : Bool} {s : State} (hK : Kept q s) :
    KeptA q (execEthFrameSent p stamp excess ka s) := by
  unfold execEthFrameSent
  with_reducible repeat' (first
    | assumption | (intro x hx; guard_hyp hx : Kept q x) | apply State.on_kept | apply kaSent_kept
    | apply State.setEt_kept | apply ethSent_kept | apply Kept.ite | apply KeptA.next | apply Kept.when)

theorem ethLinkChangeEffect_kept {n : Fin 2} {up : Bool} {sqi : BitVec 3} {s : State} (hK : Kept q s) : Kept q
    (ethLinkChangeEffect n up sqi s) := by
  unfold ethLinkChangeEffect
  with_reducible repeat' (first
    | assumption | apply State.put_kept | apply State.incField_kept | apply ethIrq_kept | apply ethTxCheck_kept
    | apply Kept.ite)

theorem execEthLinkChange_kept {n : Fin 2} {up : Bool} {sqi : BitVec 3} {s : State} (hK : Kept q s) : KeptA q
    (execEthLinkChange n up sqi s) := by
  unfold execEthLinkChange
  with_reducible repeat' (first
    | assumption | apply State.on_kept | apply ethLinkChangeEffect_kept | apply KeptA.next | apply Kept.when)

theorem ethStop_kept {s : State} {p : Nat} (hK : Kept q s) : Kept q (ethStop s p) := by
  unfold ethStop
  with_reducible repeat' (first | assumption | apply State.put_kept | apply State.setEt_kept | apply Kept.ite)

theorem execEthDisable_kept {p : Fin 6} {s : State} (hK : Kept q s) : KeptA q (execEthDisable p s) := by
  unfold execEthDisable
  with_reducible repeat' (first
    | assumption | (intro x hx; guard_hyp hx : Kept q x) | apply State.on_kept | apply ethStop_kept | apply KeptA.next
    | apply Kept.when)

theorem ethWritten_kept {s : State} {p : Nat} {o : Nat} {old : Word} {w : Word} (hK : Kept q s) : Kept q
    (ethWritten s p o old w) := by
  unfold ethWritten
  with_reducible repeat' (first
    | assumption | apply State.put_kept | apply nmgServe_kept | apply State.setEt_kept | apply ethKick_kept
    | apply Kept.ite)

theorem ethReset_kept {s : State} (hK : Kept q s) : Kept q (ethReset s) := by
  unfold ethReset
  with_reducible repeat' (first
    | assumption | (intro x a hx; guard_hyp hx : Kept q x) | apply State.resetBlk_kept | apply State.setEt_kept
    | apply Kept.each)

/-! ### Ring -/

theorem setRing_kept {s : State} {g : RingSt → RingSt} (hK : Kept q s) : Kept q (setRing s g) := by
  unfold setRing
  with_reducible repeat' (first | assumption | apply Kept.upd)

theorem ringIrq_kept {s : State} {i : Nat} (hK : Kept q s) : Kept q (ringIrq s i) := by
  unfold ringIrq
  with_reducible repeat' (first | assumption | apply State.raise_kept)

theorem ringPut_kept {s : State} {f : RingFrame} (hK : Kept q s) : Kept q (ringPut s f) := by
  unfold ringPut
  with_reducible repeat' (first | assumption | apply setRing_kept)

theorem ringForward_kept {s : State} {f : RingFrame} (hK : Kept q s) : Kept q (ringForward s f) := by
  unfold ringForward
  with_reducible repeat' (first | assumption | apply setRing_kept)

theorem ringClaim_kept {s : State} (hK : Kept q s) : Kept q (ringClaim s) := by
  unfold ringClaim
  with_reducible repeat' (first | assumption | apply State.put_kept | apply setRing_kept)

theorem ringBroken_kept {s : State} (hK : Kept q s) : Kept q (ringBroken s) := by
  unfold ringBroken
  with_reducible repeat' (first
    | assumption | apply State.put_kept | apply State.satField_kept | apply setRing_kept | apply ringIrq_kept
    | apply Kept.ite)

theorem setKeeper_kept {s : State} {a : Nat} (hK : Kept q s) : Kept q (setKeeper s a) := by
  unfold setKeeper
  with_reducible repeat' (first | assumption | apply State.put_kept | apply ringIrq_kept | apply Kept.ite)

theorem ownStart_kept {s : State} {o : RingOwn} (hK : Kept q s) : Kept q (ownStart s o) := by
  unfold ownStart
  with_reducible repeat' (first | assumption | apply setRing_kept | apply ringPut_kept)

theorem ownSend_kept {s : State} {o : RingOwn} (hK : Kept q s) : Kept q (ownSend s o) := by
  unfold ownSend
  with_reducible repeat' (first | assumption | apply setRing_kept | apply ownStart_kept | apply Kept.ite)

theorem timeSend_kept {s : State} (hK : Kept q s) : Kept q (timeSend s) := by
  unfold timeSend
  with_reducible repeat' (first | assumption | apply setRing_kept | apply ownSend_kept)

theorem becomeKeeper_kept {s : State} (hK : Kept q s) : Kept q (becomeKeeper s) := by
  unfold becomeKeeper
  with_reducible repeat' (first
    | assumption | apply Kept.wr | apply State.put_kept | apply setRing_kept | apply setKeeper_kept
    | apply timeSend_kept)

theorem slotServe4_kept {s : State} (hK : Kept q s) : Kept q (slotServe4 s) := by
  unfold slotServe4
  with_reducible repeat' (first | assumption | apply State.put_kept | apply setRing_kept | apply ringPut_kept | split)

theorem ringServe_kept {s : State} (hK : Kept q s) : Kept q (ringServe s) := by
  unfold ringServe
  with_reducible repeat' (first
    | assumption
    | (extract_lets +onlyGivenNames x; refine (fun hx : Kept q x => ?_) ?_; rotate_left; subst x; rotate_left; clear_value x)
    | apply State.put_kept | apply setRing_kept | apply ringPut_kept | apply ownStart_kept | apply slotServe4_kept
    | split)

theorem slotDone_kept {s : State} {i : Nat} {st : Nat} (hK : Kept q s) : Kept q (slotDone s i st) := by
  unfold slotDone
  with_reducible repeat' (first | assumption | apply State.put_kept | apply ringIrq_kept)

theorem slotRetry_kept {s : State} {i : Nat} {st : Nat} (hK : Kept q s) : Kept q (slotRetry s i st) := by
  unfold slotRetry
  with_reducible repeat' (first
    | assumption | apply State.put_kept | apply State.incField_kept | apply slotDone_kept | apply Kept.ite)

theorem dataReturn_kept {s : State} {f : RingFrame} (hK : Kept q s) : Kept q (dataReturn s f) := by
  unfold dataReturn
  with_reducible repeat' (first
    | assumption | apply State.put_kept | apply slotDone_kept | apply slotRetry_kept | split)

theorem timeReturn_kept {s : State} {f : RingFrame} {stamp : Word} (hK : Kept q s) : Kept q (timeReturn s f stamp) := by
  unfold timeReturn
  with_reducible repeat' (first
    | assumption | apply State.drawn_kept | apply State.putInt_kept | apply State.putNat_kept | apply setRing_kept
    | split)

theorem censusReturn_kept {s : State} {f : RingFrame} (hK : Kept q s) : Kept q (censusReturn s f) := by
  unfold censusReturn
  with_reducible repeat' (first | assumption | apply setRing_kept | apply Kept.ite)

theorem ringDup_kept {s : State} (hK : Kept q s) : Kept q (ringDup s) := by
  unfold ringDup
  with_reducible repeat' (first
    | assumption | apply State.put_kept | apply setRing_kept | apply ringClaim_kept | apply Kept.ite)

theorem claimReturn_kept {s : State} {f : RingFrame} (hK : Kept q s) : Kept q (claimReturn s f) := by
  unfold claimReturn
  with_reducible repeat' (first
    | assumption | apply setRing_kept | apply ringClaim_kept | apply becomeKeeper_kept | apply ringDup_kept
    | apply Kept.ite)

theorem ringReturn_kept {s : State} {f : RingFrame} {stamp : Word} (hK : Kept q s) : Kept q (ringReturn s f stamp) := by
  unfold ringReturn
  with_reducible repeat' (first
    | assumption | apply dataReturn_kept | apply timeReturn_kept | apply censusReturn_kept | apply claimReturn_kept
    | split)

theorem ringStore_kept {s : State} {f : RingFrame} {stamp : Word} (hK : Kept q s) : Kept q (ringStore s f stamp) := by
  unfold ringStore
  with_reducible repeat' (first
    | assumption | (intro x a hx; guard_hyp hx : Kept q x)
    | (extract_lets +onlyGivenNames x; refine (fun hx : Kept q x => ?_) ?_; rotate_left; subst x; rotate_left; clear_value x)
    | (extract_lets +onlyGivenNames x; clear_value x) | apply Kept.wr | apply State.put_kept | apply ringIrq_kept
    | apply Kept.each | split)

theorem ringData_kept {s : State} {f : RingFrame} {stamp : Word} (hK : Kept q s) : Kept q (ringData s f stamp) := by
  unfold ringData
  with_reducible repeat' (first
    | assumption | apply State.satField_kept | apply setRing_kept | apply ringForward_kept | apply ringStore_kept
    | apply Kept.ite)

theorem ringTime_kept {s : State} {f : RingFrame} {stamp : Word} (hK : Kept q s) : Kept q (ringTime s f stamp) := by
  unfold ringTime
  with_reducible repeat' (first
    | assumption | apply Kept.wr | apply State.put_kept | apply State.drawn_kept | apply setRing_kept
    | apply ringForward_kept | apply setKeeper_kept)

theorem ringClaimSeen_kept {s : State} {f : RingFrame} (hK : Kept q s) : Kept q (ringClaimSeen s f) := by
  unfold ringClaimSeen
  with_reducible repeat' (first
    | assumption | apply setRing_kept | apply ringForward_kept | apply ringClaim_kept | apply Kept.ite)

theorem mapCopy_kept {s : State} {m : List Word} (hK : Kept q s) : Kept q (mapCopy s m) := by
  unfold mapCopy
  with_reducible repeat' (first
    | assumption | (intro x a hx; guard_hyp hx : Kept q x) | apply State.put_kept | apply ringIrq_kept | apply Kept.ite
    | apply Kept.each)

theorem ringCensus_kept {s : State} {f : RingFrame} (hK : Kept q s) : Kept q (ringCensus s f) := by
  unfold ringCensus
  with_reducible repeat' (first | assumption | apply ringForward_kept | apply mapCopy_kept | apply Kept.ite)

theorem ringBreakSeen_kept {s : State} {f : RingFrame} (hK : Kept q s) : Kept q (ringBreakSeen s f) := by
  unfold ringBreakSeen
  with_reducible repeat' (first | assumption | apply State.put_kept | apply ringForward_kept | apply ringBroken_kept)

theorem ringReceive_kept {s : State} {f : RingFrame} {stamp : Word} {codeErr : Bool} (hK : Kept q s) : Kept q
    (ringReceive s f stamp codeErr) := by
  unfold ringReceive
  with_reducible repeat' (first
    | assumption
    | (extract_lets +onlyGivenNames x; refine (fun hx : Kept q x => ?_) ?_; rotate_left; subst x; rotate_left; clear_value x)
    | (extract_lets +onlyGivenNames x; clear_value x) | apply State.satField_kept | apply ringForward_kept
    | apply ringReturn_kept | apply ringData_kept | apply ringTime_kept | apply ringClaimSeen_kept
    | apply ringCensus_kept | apply ringBreakSeen_kept | split)

theorem execRingFrameReceived_kept {h0 : Word} {h1 : Word} {pay : List Word} {check : Word} {fin : RingEnd} {stamp
    : Word} {codeErr : Bool} {s : State} (hK : Kept q s) : KeptA q (execRingFrameReceived h0 h1 pay check fin stamp
    codeErr s) := by
  unfold execRingFrameReceived
  with_reducible repeat' (first
    | assumption | (intro x hx; guard_hyp hx : Kept q x) | apply State.on_kept | apply ringReceive_kept
    | apply KeptA.next | apply Kept.when)

theorem execRingFrameReturn_kept {h0 : Word} {h1 : Word} {pay : List Word} {check : Word} {fin : RingEnd} {stamp :
    Word} {s : State} (hK : Kept q s) : KeptA q (execRingFrameReturn h0 h1 pay check fin stamp s) := by
  unfold execRingFrameReturn
  with_reducible repeat' (first
    | assumption | (intro x hx; guard_hyp hx : Kept q x) | apply State.on_kept | apply ringReceive_kept
    | apply KeptA.next | apply Kept.when)

theorem ackServe_kept {i : Nat} {s : State} (hK : Kept q s) : Kept q (ackServe i s) := by
  unfold ackServe
  with_reducible repeat' (first
    | assumption | (intro x hx; guard_hyp hx : Kept q x) | apply slotRetry_kept | apply Kept.when)

theorem execRingAckTimeout_kept {i : Fin 4} {s : State} (hK : Kept q s) : KeptA q (execRingAckTimeout i s) := by
  unfold execRingAckTimeout
  with_reducible repeat' (first
    | assumption | apply State.expire_kept | apply State.on_kept | apply ackServe_kept | apply KeptA.next)

theorem ringLinkTrainedEffect_kept {eq : Nat} {s : State} (hK : Kept q s) : Kept q (ringLinkTrainedEffect eq s) := by
  unfold ringLinkTrainedEffect
  with_reducible repeat' (first | assumption | apply State.put_kept | apply ringClaim_kept)

theorem execRingLinkTrained_kept {eq : Nat} {s : State} (hK : Kept q s) : KeptA q (execRingLinkTrained eq s) := by
  unfold execRingLinkTrained
  with_reducible repeat' (first
    | assumption | apply State.on_kept | apply ringLinkTrainedEffect_kept | apply KeptA.next | apply Kept.when)

theorem execRingLockLoss_kept {errs : Nat} {s : State} (hK : Kept q s) : KeptA q (execRingLockLoss errs s) := by
  unfold execRingLockLoss
  with_reducible repeat' (first
    | assumption | (intro x hx; guard_hyp hx : Kept q x) | apply State.put_kept | apply State.on_kept
    | apply setRing_kept | apply KeptA.next | apply Kept.when)

theorem execRingSymbolLock_kept {s : State} (hK : Kept q s) : KeptA q (execRingSymbolLock s) := by
  unfold execRingSymbolLock
  with_reducible repeat' (first
    | assumption | (intro x hx; guard_hyp hx : Kept q x) | apply State.on_kept | apply setRing_kept | apply KeptA.next
    | apply Kept.when)

theorem execWakeToneReceived_kept {s : State} (hK : Kept q s) : KeptA q (execWakeToneReceived s) := by
  unfold execWakeToneReceived
  with_reducible repeat' (first
    | assumption | (intro x hx; guard_hyp hx : Kept q x) | apply State.put_kept | apply wakeDetect_kept
    | apply setRing_kept | apply KeptA.next | apply Kept.when)

theorem ringBreakDetectEffect_kept {s : State} (hK : Kept q s) : Kept q (ringBreakDetectEffect s) := by
  unfold ringBreakDetectEffect
  with_reducible repeat' (first | assumption | apply setRing_kept | apply ringBroken_kept)

theorem execRingBreakDetect_kept {s : State} (hK : Kept q s) : KeptA q (execRingBreakDetect s) := by
  unfold execRingBreakDetect
  with_reducible repeat' (first
    | assumption | apply State.on_kept | apply ringBreakDetectEffect_kept | apply KeptA.next | apply Kept.when)

theorem ringBreakSendEffect_kept {s : State} (hK : Kept q s) : Kept q (ringBreakSendEffect s) := by
  unfold ringBreakSendEffect
  with_reducible repeat' (first | assumption | apply setRing_kept | apply ownSend_kept)

theorem execRingBreakSend_kept {s : State} (hK : Kept q s) : KeptA q (execRingBreakSend s) := by
  unfold execRingBreakSend
  with_reducible repeat' (first
    | assumption | apply State.on_kept | apply ringBreakSendEffect_kept | apply KeptA.next | apply Kept.when)

theorem execRingRelock_kept {s : State} (hK : Kept q s) : KeptA q (execRingRelock s) := by
  unfold execRingRelock
  with_reducible repeat' (first
    | assumption | apply State.on_kept | apply ringClaim_kept | apply KeptA.next | apply Kept.when)

theorem ringClaimSendEffect_kept {s : State} (hK : Kept q s) : Kept q (ringClaimSendEffect s) := by
  unfold ringClaimSendEffect
  with_reducible repeat' (first | assumption | apply setRing_kept | apply ownSend_kept)

theorem execRingClaimSend_kept {s : State} (hK : Kept q s) : KeptA q (execRingClaimSend s) := by
  unfold execRingClaimSend
  with_reducible repeat' (first
    | assumption | apply State.on_kept | apply ringClaimSendEffect_kept | apply KeptA.next | apply Kept.when)

theorem timeMissServe_kept {s : State} (hK : Kept q s) : Kept q (timeMissServe s) := by
  unfold timeMissServe
  with_reducible repeat' (first | assumption | apply ringClaim_kept | apply Kept.when)

theorem execRingTimeTimeout_kept {s : State} (hK : Kept q s) : KeptA q (execRingTimeTimeout s) := by
  unfold execRingTimeTimeout
  with_reducible repeat' (first
    | assumption | apply State.expire_kept | apply State.on_kept | apply timeMissServe_kept | apply KeptA.next)

theorem execRingTimeSend_kept {s : State} (hK : Kept q s) : KeptA q (execRingTimeSend s) := by
  unfold execRingTimeSend
  with_reducible repeat' (first
    | assumption | apply State.on_kept | apply timeSend_kept | apply KeptA.next | apply Kept.when)

theorem timeReturnServe_kept {s : State} (hK : Kept q s) : Kept q (timeReturnServe s) := by
  unfold timeReturnServe
  with_reducible repeat' (first | assumption | apply ringBroken_kept | apply Kept.when)

theorem execRingTimeReturnTimeout_kept {s : State} (hK : Kept q s) : KeptA q (execRingTimeReturnTimeout s) := by
  unfold execRingTimeReturnTimeout
  with_reducible repeat' (first
    | assumption | apply State.expire_kept | apply State.on_kept | apply timeReturnServe_kept | apply KeptA.next)

theorem ringCensusSendEffect_kept {s : State} (hK : Kept q s) : Kept q (ringCensusSendEffect s) := by
  unfold ringCensusSendEffect
  with_reducible repeat' (first | assumption | apply setRing_kept | apply ownSend_kept | apply mapCopy_kept)

theorem execRingCensusSend_kept {s : State} (hK : Kept q s) : KeptA q (execRingCensusSend s) := by
  unfold execRingCensusSend
  with_reducible repeat' (first
    | assumption | apply State.on_kept | apply ringCensusSendEffect_kept | apply KeptA.next | apply Kept.when)

theorem slotGo_kept {s : State} {i : Nat} (hK : Kept q s) : Kept q (slotGo s i) := by
  unfold slotGo
  with_reducible repeat' (first
    | assumption | apply Kept.wr | apply State.put_kept | apply setRing_kept | apply Kept.ite)

theorem ringWritten_kept {s : State} {o : Nat} {old : Word} {w : Word} (hK : Kept q s) : Kept q (ringWritten s o
    old w) := by
  unfold ringWritten
  with_reducible repeat' (first
    | assumption | apply State.put_kept | apply setRing_kept | apply slotGo_kept | apply Kept.ite | apply Kept.each)

theorem ringReset_kept {s : State} (hK : Kept q s) : Kept q (ringReset s) := by
  unfold ringReset
  with_reducible repeat' (first | assumption | apply State.resetBlk_kept | apply setRing_kept)

/-! ### NetRegs -/

theorem canWrite_kept {n : Nat} {r : WriteReq} {s : State} (hK : Kept q s) : Kept q (canWrite n r s) := by
  unfold canWrite
  with_reducible repeat' (first
    | assumption | intro _ | apply blockWrite_kept | apply canRejected_kept | apply canWritten_kept)

theorem linWrite_kept {n : Nat} {r : WriteReq} {s : State} (hK : Kept q s) : Kept q (linWrite n r s) := by
  unfold linWrite
  with_reducible repeat' (first
    | assumption | intro _ | apply blockWrite_kept | apply noRej_kept | apply linWritten_kept)

theorem spicWrite_kept {n : Nat} {r : WriteReq} {s : State} (hK : Kept q s) : Kept q (spicWrite n r s) := by
  unfold spicWrite
  with_reducible repeat' (first | assumption | apply blockWrite_kept | apply noHook_kept | apply noRej_kept)

theorem ethWrite_kept {p : Nat} {r : WriteReq} {s : State} (hK : Kept q s) : Kept q (ethWrite p r s) := by
  unfold ethWrite
  with_reducible repeat' (first
    | assumption | intro _ | apply blockWrite_kept | apply noRej_kept | apply ethWritten_kept)

theorem ringWrite_kept {r : WriteReq} {s : State} (hK : Kept q s) : Kept q (ringWrite r s) := by
  unfold ringWrite
  with_reducible repeat' (first
    | assumption | intro _ | apply blockWrite_kept | apply noRej_kept | apply ringWritten_kept)

theorem nmgWritten_kept {c : Nat} {o : Nat} {s : State} {old : Word} {w : Word} (hK : Kept q s) : Kept q
    (nmgWritten c o s old w) := by
  unfold nmgWritten
  with_reducible repeat' (first | assumption | apply nmgCtrlWritten_kept | apply nmgFwakeWritten_kept | apply Kept.ite)

theorem nmgLogHook_kept {o : Nat} {s : State} {u2 : Word} {w : Word} (hK : Kept q s) : Kept q (nmgLogHook o s u2 w) := by
  unfold nmgLogHook
  with_reducible repeat' (first | assumption | apply nmgLogWritten_kept | apply Kept.ite)

theorem nmgWrite_kept {r : WriteReq} {s : State} (hK : Kept q s) : Kept q (nmgWrite r s) := by
  unfold nmgWrite
  with_reducible repeat' (first
    | assumption | apply blockWrite_kept | apply noHook_kept | apply noRej_kept | apply nmgWritten_kept
    | apply nmgLogHook_kept | apply Kept.ite)

end Sys2Proof.Laws
end

