-- ==== Sys2Proof/Laws/KeepBody.lean ====
section
/-! SUPPORT. What every meaning keeps (`Kept` and `KeptA` of Laws/Keep.lean), one lemma per definition: protection, motion, strokes, inputs, access, timers, lighting and ruling. -/

namespace Sys2Proof.Laws
open Machine

variable {q : List Instr}

/-! ### Protection -/

theorem execPwmOnTimeEnd_kept {f : Nat} {s : State} (hK : Kept q s) : KeptA q (execPwmOnTimeEnd f s) := by
  unfold execPwmOnTimeEnd
  with_reducible repeat' (first
    | assumption | (intro x hx; guard_hyp hx : Kept q x) | apply endPulse_kept | apply KeptA.next | apply Kept.when)

theorem setOnLimit_kept {s : State} {f : Nat} {g : Limit → Limit} (hK : Kept q s) : Kept q (setOnLimit s f g) := by
  unfold setOnLimit
  with_reducible repeat' (first | assumption | apply State.setCh_kept | apply Kept.ite)

theorem execCurrentLimitReached_kept {f : Nat} {at_ : Bool} {s : State} (hK : Kept q s) : KeptA q
    (execCurrentLimitReached f at_ s) := by
  unfold execCurrentLimitReached
  with_reducible repeat' (first
    | assumption | (intro x hx; guard_hyp hx : Kept q x) | apply setOnLimit_kept | apply KeptA.next | apply Kept.when)

theorem execIlimTimeTrip_kept {f : Nat} {also : List TripCause} {s : State} (hK : Kept q s) : KeptA q
    (execIlimTimeTrip f also s) := by
  unfold execIlimTimeTrip
  with_reducible repeat' (first
    | assumption | (intro x hx; guard_hyp hx : Kept q x) | apply trip_kept | apply KeptA.next | apply Kept.when)

theorem execRegulationTimeClear_kept {f : Nat} {s : State} (hK : Kept q s) : KeptA q (execRegulationTimeClear f s) := by
  unfold execRegulationTimeClear
  with_reducible repeat' (first
    | assumption | (intro x hx; guard_hyp hx : Kept q x) | apply setOnLimit_kept | apply KeptA.next | apply Kept.when)

theorem execShortCircuitTrip_kept {f : Nat} {also : List TripCause} {s : State} (hK : Kept q s) : KeptA q
    (execShortCircuitTrip f also s) := by
  unfold execShortCircuitTrip
  with_reducible repeat' (first
    | assumption | (intro x hx; guard_hyp hx : Kept q x) | apply trip_kept | apply KeptA.next | apply Kept.when)

theorem inrushServe_kept {f : Nat} {s : State} (hK : Kept q s) : Kept q (inrushServe f s) := by
  unfold inrushServe
  with_reducible repeat' (first
    | assumption | (intro x hx; guard_hyp hx : Kept q x) | apply State.setCh_kept | apply Kept.when)

theorem execInrushWindowEnd_kept {f : Nat} {s : State} (hK : Kept q s) : KeptA q (execInrushWindowEnd f s) := by
  unfold execInrushWindowEnd
  with_reducible repeat' (first | assumption | apply State.expire_kept | apply inrushServe_kept | apply KeptA.next)

theorem showBucket_kept {s : State} {f : Nat} (hK : Kept q s) : Kept q (showBucket s f) := by
  unfold showBucket
  with_reducible repeat' (first | assumption | apply State.put_kept)

theorem unspend_kept {s : State} {f : Nat} (hK : Kept q s) : Kept q (unspend s f) := by
  unfold unspend
  with_reducible repeat' (first | assumption | apply State.put_kept | split)

theorem clampLock_kept {s : State} {f : Nat} (hK : Kept q s) : Kept q (clampLock s f) := by
  unfold clampLock
  with_reducible repeat' (first
    | assumption | apply setFault_kept | apply settle_kept | apply enterLocked_kept | apply unspend_kept
    | apply Kept.ite)

theorem quant_kept {s : State} {x : Rat} (hK : Kept q s) : Kept q (quant s x).2 := by
  unfold quant
  with_reducible repeat' (first
    | assumption | (extract_lets +onlyGivenNames x; clear_value x) | apply State.drawn_kept | split)

theorem clampEnergyExceededEffect_kept {f : Nat} {current : Nat} {low : Bool} {s : State} (hK : Kept q s) : Kept q
    (clampEnergyExceededEffect f current low s) := by
  unfold clampEnergyExceededEffect
  with_reducible repeat' (first
    | assumption | apply State.setCh_kept | apply showBucket_kept | apply clampLock_kept | apply quant_kept)

theorem execClampEnergyExceeded_kept {f : Nat} {current : Nat} {low : Bool} {s : State} (hK : Kept q s) : KeptA q
    (execClampEnergyExceeded f current low s) := by
  unfold execClampEnergyExceeded
  with_reducible repeat' (first
    | assumption | apply clampEnergyExceededEffect_kept | apply KeptA.next | apply Kept.when)

theorem execClampLeakTick_kept {s : State} (hK : Kept q s) : KeptA q (execClampLeakTick s) := by
  unfold execClampLeakTick
  with_reducible repeat' (first
    | assumption | (intro x hx; guard_hyp hx : Kept q x) | (intro x a hx; guard_hyp hx : Kept q x)
    | apply State.setCh_kept | apply showBucket_kept | apply KeptA.next | apply Kept.when | apply Kept.each)

theorem parkonLimitFaultEffect_kept {f : Nat} {s : State} (hK : Kept q s) : Kept q (parkonLimitFaultEffect f s) := by
  unfold parkonLimitFaultEffect
  with_reducible repeat' (first
    | assumption | apply State.setCh_kept | apply setChState_kept | apply setFault_kept | apply allOff_kept
    | apply settle_kept | apply wakeDetect_kept)

theorem execParkonLimitFault_kept {f : Nat} {s : State} (hK : Kept q s) : KeptA q (execParkonLimitFault f s) := by
  unfold execParkonLimitFault
  with_reducible repeat' (first | assumption | apply parkonLimitFaultEffect_kept | apply KeptA.next | apply Kept.when)

theorem setLatch_kept {s : State} {f : Nat} {second : Bool} {b : Bool} (hK : Kept q s) : Kept q (setLatch s f
    second b) := by
  unfold setLatch
  with_reducible repeat' (first | assumption | apply State.setCh_kept | apply conductChanged_kept)

theorem thermalLatchEffect_kept {f : Nat} {second : Bool} {also : List TripCause} {s : State} (hK : Kept q s) :
    Kept q (thermalLatchEffect f second also s) := by
  unfold thermalLatchEffect
  with_reducible repeat' (first
    | assumption | apply trip_kept | apply parkonLimitFaultEffect_kept | apply setLatch_kept | apply Kept.ite)

theorem execThermalLatch_kept {f : Nat} {second : Bool} {also : List TripCause} {s : State} (hK : Kept q s) : KeptA
    q (execThermalLatch f second also s) := by
  unfold execThermalLatch
  with_reducible repeat' (first | assumption | apply thermalLatchEffect_kept | apply KeptA.next | apply Kept.when)

theorem execThermalRelease_kept {f : Nat} {second : Bool} {s : State} (hK : Kept q s) : KeptA q (execThermalRelease
    f second s) := by
  unfold execThermalRelease
  with_reducible repeat' (first
    | assumption | (intro x hx; guard_hyp hx : Kept q x) | apply setLatch_kept | apply KeptA.next | apply Kept.when)

theorem retryServe_kept {f : Nat} {s : State} (hK : Kept q s) : Kept q (retryServe f s) := by
  unfold retryServe
  with_reducible repeat' (first
    | assumption | (intro x hx; guard_hyp hx : Kept q x) | apply restart_kept | apply Kept.when)

theorem execRetryDelayExpiry_kept {f : Nat} {s : State} (hK : Kept q s) : KeptA q (execRetryDelayExpiry f s) := by
  unfold execRetryDelayExpiry
  with_reducible repeat' (first | assumption | apply State.expire_kept | apply retryServe_kept | apply KeptA.next)

theorem execRetryRestoreTimeout_kept {f : Nat} {s : State} (hK : Kept q s) : KeptA q (execRetryRestoreTimeout f s) := by
  unfold execRetryRestoreTimeout
  with_reducible repeat' (first
    | assumption | (intro x hx; guard_hyp hx : Kept q x) | apply State.put_kept | apply KeptA.next | apply Kept.when)

theorem mismatchDetectEffect_kept {f : Nat} {hs : Bool} {ls : Bool} {s : State} (hK : Kept q s) : Kept q
    (mismatchDetectEffect f hs ls s) := by
  unfold mismatchDetectEffect
  with_reducible repeat' (first
    | assumption | apply State.setCh_kept | apply setFault_kept | apply showDp_kept | apply settle_kept
    | apply dropCause_kept | apply safeDetect_kept | apply Kept.ite)

theorem execMismatchDetect_kept {f : Nat} {hs : Bool} {ls : Bool} {s : State} (hK : Kept q s) : KeptA q
    (execMismatchDetect f hs ls s) := by
  unfold execMismatchDetect
  with_reducible repeat' (first | assumption | apply mismatchDetectEffect_kept | apply KeptA.next | apply Kept.when)

theorem mismatchPersistSafeEffect_kept {f : Nat} {s : State} (hK : Kept q s) : Kept q (mismatchPersistSafeEffect f
    s) := by
  unfold mismatchPersistSafeEffect
  with_reducible repeat' (first
    | assumption | (extract_lets +onlyGivenNames x; clear_value x) | apply State.setCh_kept | apply chanSafe_kept
    | split)

theorem execMismatchPersistSafe_kept {f : Nat} {s : State} (hK : Kept q s) : KeptA q (execMismatchPersistSafe f s) := by
  unfold execMismatchPersistSafe
  with_reducible repeat' (first
    | assumption | apply mismatchPersistSafeEffect_kept | apply KeptA.next | apply Kept.when)

theorem secondPathShutdownEffect_kept {f : Nat} {s : State} (hK : Kept q s) : Kept q (secondPathShutdownEffect f s) := by
  unfold secondPathShutdownEffect
  with_reducible repeat' (first
    | assumption
    | (extract_lets +onlyGivenNames x; refine (fun hx : Kept q x => ?_) ?_; rotate_left; subst x; rotate_left; clear_value x)
    | (extract_lets +onlyGivenNames x; clear_value x) | apply State.put_kept | apply setFault_kept
    | apply enterLocked_kept | apply unspend_kept | split)

theorem execSecondPathShutdown_kept {f : Nat} {s : State} (hK : Kept q s) : KeptA q (execSecondPathShutdown f s) := by
  unfold execSecondPathShutdown
  with_reducible repeat' (first | assumption | apply secondPathShutdownEffect_kept | apply KeptA.next | apply Kept.when)

theorem execOpenLoadOnDetect_kept {f : Nat} {s : State} (hK : Kept q s) : KeptA q (execOpenLoadOnDetect f s) := by
  unfold execOpenLoadOnDetect
  with_reducible repeat' (first
    | assumption | (intro x hx; guard_hyp hx : Kept q x) | apply setFault_kept | apply settle_kept | apply KeptA.next
    | apply Kept.when)

theorem offStateTestStartEffect_kept {f : Nat} {s : State} (hK : Kept q s) : Kept q (offStateTestStartEffect f s) := by
  unfold offStateTestStartEffect
  with_reducible repeat' (first | assumption | apply State.setCh_kept | apply Kept.ite)

theorem execOffStateTestStart_kept {f : Nat} {s : State} (hK : Kept q s) : KeptA q (execOffStateTestStart f s) := by
  unfold execOffStateTestStart
  with_reducible repeat' (first | assumption | apply offStateTestStartEffect_kept | apply KeptA.next | apply Kept.when)

theorem offStateTestPhaseEndEffect_kept {f : Nat} {vout : Nat} {vfeed : Nat} {s : State} (hK : Kept q s) : Kept q
    (offStateTestPhaseEndEffect f vout vfeed s) := by
  unfold offStateTestPhaseEndEffect
  with_reducible repeat' (first
    | assumption | apply State.setCh_kept | apply setFault_kept | apply settle_kept | apply Kept.ite)

theorem execOffStateTestPhaseEnd_kept {f : Nat} {vout : Nat} {vfeed : Nat} {s : State} (hK : Kept q s) : KeptA q
    (execOffStateTestPhaseEnd f vout vfeed s) := by
  unfold execOffStateTestPhaseEnd
  with_reducible repeat' (first
    | assumption | apply offStateTestPhaseEndEffect_kept | apply KeptA.next | apply Kept.when)

theorem execPairImbalance_kept {f : Nat} {s : State} (hK : Kept q s) : KeptA q (execPairImbalance f s) := by
  unfold execPairImbalance
  with_reducible repeat' (first
    | assumption | (intro x hx; guard_hyp hx : Kept q x) | apply State.put_kept | apply settle_kept | apply KeptA.next
    | apply Kept.when)

theorem wireStep_kept {s : State} {f : Nat} {i2 : Nat} (hK : Kept q s) : Kept q (wireStep s f i2) := by
  unfold wireStep
  with_reducible repeat' (first
    | assumption
    | (extract_lets +onlyGivenNames x; refine (fun hx : Kept q x => ?_) ?_; rotate_left; subst x; rotate_left; clear_value x)
    | (extract_lets +onlyGivenNames x) | apply State.putInt_kept | apply State.setCh_kept | apply trip_kept
    | apply quant_kept | split)

theorem senseMember_kept {s : State} {x : ChanSense} {clamp : Nat} (hK : Kept q s) : Kept q (senseMember s x clamp) := by
  unfold senseMember
  with_reducible repeat' (first
    | assumption | (intro x hx; guard_hyp hx : Kept q x) | apply State.put_kept | apply State.putInt_kept
    | apply State.setCh_kept | apply Kept.when)

theorem senseSum_kept {s : State} {f : Nat} {e : ChanSense} {o : ChanSense} (hK : Kept q s) : Kept q (senseSum s f
    e o) := by
  unfold senseSum
  with_reducible repeat' (first
    | assumption | (intro x hx; guard_hyp hx : Kept q x) | apply State.put_kept | apply State.putInt_kept
    | apply State.setCh_kept | apply Kept.when)

theorem olSample_kept {s : State} {f : Nat} {on : Nat} (hK : Kept q s) : Kept q (olSample s f on) := by
  unfold olSample
  with_reducible repeat' (first
    | assumption | (intro x hx; guard_hyp hx : Kept q x) | apply State.put_kept | apply State.setCh_kept
    | apply Kept.when)

theorem imbSample_kept {s : State} {f : Nat} {on : Nat} {e : ChanSense} {o : ChanSense} (hK : Kept q s) : Kept q
    (imbSample s f on e o) := by
  unfold imbSample
  with_reducible repeat' (first
    | assumption | (intro x hx; guard_hyp hx : Kept q x) | apply State.setCh_kept | apply Kept.when)

theorem showFeed_kept {s : State} {feed : Nat} {volt : Int} (hK : Kept q s) : Kept q (showFeed s feed volt) := by
  unfold showFeed
  with_reducible repeat' (first | assumption | apply State.put_kept)

theorem showFeedCurrents_kept {s : State} {sense : List ChanSense} {light : Nat} (hK : Kept q s) : Kept q
    (showFeedCurrents s sense light) := by
  unfold showFeedCurrents
  with_reducible repeat' (first
    | assumption | (intro x a hx; guard_hyp hx : Kept q x) | apply State.put_kept | apply Kept.each)

theorem wireEvaluation_kept {sense : List ChanSense} {feeds : List Int} {light : Nat} {s : State} (hK : Kept q s) :
    Kept q (wireEvaluation sense feeds light s) := by
  unfold wireEvaluation
  with_reducible repeat' (first
    | assumption | (intro x a hx; guard_hyp hx : Kept q x) | apply State.put_kept | apply State.setCh_kept
    | apply mirrorPair_kept | apply wireStep_kept | apply senseMember_kept | apply senseSum_kept | apply olSample_kept
    | apply imbSample_kept | apply showFeed_kept | apply showFeedCurrents_kept | apply Kept.ite | apply Kept.each)

theorem execWireModelEvaluation_kept {sense : List ChanSense} {feeds : List Int} {light : Nat} {s : State} (hK :
    Kept q s) : KeptA q (execWireModelEvaluation sense feeds light s) := by
  unfold execWireModelEvaluation
  with_reducible repeat' (first | assumption | apply wireEvaluation_kept | apply KeptA.next | apply Kept.when)

theorem setGrant_kept {s : State} {es : List ArbEntry} {p : Nat × Nat} (hK : Kept q s) : Kept q (setGrant s es p) := by
  unfold setGrant
  with_reducible repeat' (first
    | assumption | apply State.setCh_kept | apply setDerated_kept | apply State.setSt_kept | apply mirrorPair_kept
    | apply Kept.ite)

theorem clearGrants_kept {s : State} (hK : Kept q s) : Kept q (clearGrants s) := by
  unfold clearGrants
  with_reducible repeat' (first
    | assumption | (intro x a hx; guard_hyp hx : Kept q x) | apply setDerated_kept | apply State.setSt_kept
    | apply mirrorPair_kept | apply dropGrant_kept | apply Kept.each)

theorem arbiterCycle_kept {tbp : Int} {sinks : List (Nat × Nat × Nat)} {rowLoss : Nat} {strNow : List Nat} {s :
    State} (hK : Kept q s) : Kept q (arbiterCycle tbp sinks rowLoss strNow s) := by
  unfold arbiterCycle
  with_reducible repeat' (first
    | assumption | (intro x a hx; guard_hyp hx : Kept q x) | apply State.put_kept | apply State.putInt_kept
    | apply State.setSt_kept | apply setGrant_kept | apply clearGrants_kept | apply Kept.each | apply Kept.upd)

theorem execArbiterCycle_kept {tbp : Int} {sinks : List (Nat × Nat × Nat)} {rowLoss : Nat} {strNow : List Nat} {s :
    State} (hK : Kept q s) : KeptA q (execArbiterCycle tbp sinks rowLoss strNow s) := by
  unfold execArbiterCycle
  with_reducible repeat' (first
    | assumption | apply arbiterCycle_kept | apply KeptA.next | apply KeptA.go | apply Kept.when | apply Kept.upd)

theorem feedOvercurrentEffect_kept {feed : Nat} {avg : Nat} {s : State} (hK : Kept q s) : Kept q
    (feedOvercurrentEffect feed avg s) := by
  unfold feedOvercurrentEffect
  with_reducible repeat' (first | assumption | apply State.put_kept | apply Kept.upd)

theorem execFeedOvercurrent_kept {feed : Nat} {avg : Nat} {s : State} (hK : Kept q s) : KeptA q
    (execFeedOvercurrent feed avg s) := by
  unfold execFeedOvercurrent
  with_reducible repeat' (first
    | assumption | apply State.on_kept | apply feedOvercurrentEffect_kept | apply KeptA.next | apply Kept.when)

theorem setHold_kept {s : State} {feed : Nat} {g : Bool × Bool → Bool × Bool} (hK : Kept q s) : Kept q (setHold s
    feed g) := by
  unfold setHold
  with_reducible repeat' (first | assumption | apply applyHolds_kept | apply Kept.upd)

theorem execFeedUndervoltage_kept {feed : Nat} {volt : Int} {s : State} (hK : Kept q s) : KeptA q
    (execFeedUndervoltage feed volt s) := by
  unfold execFeedUndervoltage
  with_reducible repeat' (first
    | assumption | (intro x hx; guard_hyp hx : Kept q x) | apply State.on_kept | apply showFeed_kept
    | apply setHold_kept | apply KeptA.next | apply Kept.when)

theorem execFeedOvervoltageHold_kept {feed : Nat} {volt : Int} {s : State} (hK : Kept q s) : KeptA q
    (execFeedOvervoltageHold feed volt s) := by
  unfold execFeedOvervoltageHold
  with_reducible repeat' (first
    | assumption | (intro x hx; guard_hyp hx : Kept q x) | apply State.on_kept | apply showFeed_kept
    | apply setHold_kept | apply KeptA.next | apply Kept.when)

theorem execFeedVoltageRecovery_kept {feed : Nat} {volt : Int} {s : State} (hK : Kept q s) : KeptA q
    (execFeedVoltageRecovery feed volt s) := by
  unfold execFeedVoltageRecovery
  with_reducible repeat' (first
    | assumption | (intro x hx; guard_hyp hx : Kept q x) | apply State.on_kept | apply showFeed_kept
    | apply setHold_kept | apply KeptA.next | apply Kept.when)

theorem reverseBatteryEffect_kept {feed : Nat} {s : State} (hK : Kept q s) : Kept q (reverseBatteryEffect feed s) := by
  unfold reverseBatteryEffect
  with_reducible repeat' (first
    | assumption | with_unfolding_all exact fun _ => Or.inl rfl | (intro x a hx; guard_hyp hx : Kept q x)
    | apply State.put_kept | apply State.setReady_kept | apply State.setCh_kept | apply Kept.each | apply Kept.mapCores
    | apply Kept.upd)

theorem execReverseBattery_kept {feed : Nat} {volt : Int} {s : State} (hK : Kept q s) : KeptA q (execReverseBattery
    feed volt s) := by
  unfold execReverseBattery
  with_reducible repeat' (first
    | assumption | apply State.on_kept | apply reverseBatteryEffect_kept | apply KeptA.next | apply Kept.when)

theorem heartbeatServe_kept {s : State} (hK : Kept q s) : Kept q (heartbeatServe s) := by
  unfold heartbeatServe
  with_reducible repeat' (first | assumption | apply beatExpire_kept | apply Kept.when)

theorem execHeartbeatExpiry_kept {s : State} (hK : Kept q s) : KeptA q (execHeartbeatExpiry s) := by
  unfold execHeartbeatExpiry
  with_reducible repeat' (first | assumption | apply State.expire_kept | apply heartbeatServe_kept | apply KeptA.next)

theorem holdServe_kept {s : State} (hK : Kept q s) : Kept q (holdServe s) := by
  unfold holdServe
  with_reducible repeat' (first | assumption | apply holdEnd_kept | apply Kept.when)

theorem execHoldExpiry_kept {s : State} (hK : Kept q s) : KeptA q (execHoldExpiry s) := by
  unfold execHoldExpiry
  with_reducible repeat' (first | assumption | apply State.expire_kept | apply holdServe_kept | apply KeptA.next)

theorem testPassed_kept {s : State} {t : Nat} (hK : Kept q s) : Kept q (testPassed s t) := by
  unfold testPassed
  with_reducible repeat' (first
    | assumption | apply State.setBit_kept | apply updateGact_kept | apply dropCause_kept | apply Kept.ite
    | apply Kept.upd)

theorem crossCheck_kept {pairs : List (Nat × Nat × Nat)} {s : State} (hK : Kept q s) : Kept q (crossCheck pairs s) := by
  unfold crossCheck
  with_reducible repeat' (first
    | assumption | (intro x a hx; guard_hyp hx : Kept q x) | apply State.setCh_kept | apply chanSafe_kept
    | apply dropCause_kept | apply safeDetect_kept | apply testPassed_kept | apply Kept.ite | apply Kept.each)

theorem execCurrentSenseCrossCheck_kept {pairs : List (Nat × Nat × Nat)} {s : State} (hK : Kept q s) : KeptA q
    (execCurrentSenseCrossCheck pairs s) := by
  unfold execCurrentSenseCrossCheck
  with_reducible repeat' (first | assumption | apply crossCheck_kept | apply KeptA.next | apply Kept.when)

/-! ### Motion -/

theorem motDemand_kept {s : State} {k : Nat} (hK : Kept q s) : Kept q (motDemand s k).2 := by
  unfold motDemand
  with_reducible repeat' (first
    | assumption
    | (extract_lets +onlyGivenNames x; refine (fun hx : Kept q x => ?_) ?_; rotate_left; subst x; rotate_left; clear_value x)
    | (extract_lets +onlyGivenNames x; clear_value x) | apply State.put_kept | apply State.drawn_kept | split)

theorem motDuty_kept {s : State} {k : Nat} (hK : Kept q s) : Kept q (motDuty s k).2 := by
  unfold motDuty
  with_reducible repeat' (first | assumption | (extract_lets +onlyGivenNames x) | apply motDemand_kept | split)

theorem motDrive_kept {s : State} {k : Nat} {isOpen : Bool} (hK : Kept q s) : Kept q (motDrive s k isOpen) := by
  unfold motDrive
  with_reducible repeat' (first
    | assumption | apply State.put_kept | apply State.setCh_kept | apply stopGen_kept | apply beginPeriod_kept
    | apply engSwitch_kept | apply motDuty_kept | apply Kept.ite)

theorem motArm_kept {s : State} {k : Nat} (hK : Kept q s) : Kept q (motArm s k) := by
  unfold motArm
  with_reducible repeat' (first | assumption | apply State.put_kept | apply State.setMo_kept)

theorem motBegin_kept {s : State} {k : Nat} {isOpen : Bool} (hK : Kept q s) : Kept q (motBegin s k isOpen) := by
  unfold motBegin
  with_reducible repeat' (first
    | assumption | apply State.setMo_kept | apply setMotState_kept | apply motDrive_kept | apply motArm_kept)

theorem motMove_kept {s : State} {k : Nat} {isOpen : Bool} (hK : Kept q s) : Kept q (motMove s k isOpen) := by
  unfold motMove
  with_reducible repeat' (first
    | assumption | apply State.setMo_kept | apply setMotState_kept | apply bridgeBrake_kept | apply motIdleLoop_kept
    | apply motArm_kept | apply motBegin_kept | apply Kept.ite)

theorem motStart_kept {s : State} {k : Nat} {w : Word} (hK : Kept q s) : Kept q (motStart s k w) := by
  unfold motStart
  with_reducible repeat' (first
    | assumption
    | (extract_lets +onlyGivenNames x; refine (fun hx : Kept q x => ?_) ?_; rotate_left; subst x; rotate_left; clear_value x)
    | (extract_lets +onlyGivenNames x; clear_value x) | apply State.put_kept | apply State.setMo_kept
    | apply motStop_kept | apply motMove_kept | split)

theorem motCommanded_kept {s : State} {k : Nat} {w : Word} (hK : Kept q s) : Kept q (motCommanded s k w) := by
  unfold motCommanded
  with_reducible repeat' (first | assumption | apply State.setMo_kept | apply motStart_kept | apply Kept.ite)

theorem motReclaimed_kept {s : State} {k : Nat} (hK : Kept q s) : Kept q (motReclaimed s k) := by
  unfold motReclaimed
  with_reducible repeat' (first | assumption | apply motStart_kept | split)

theorem motDisabled_kept {s : State} {k : Nat} (hK : Kept q s) : Kept q (motDisabled s k) := by
  unfold motDisabled
  with_reducible repeat' (first | assumption | apply State.setMo_kept | apply motStop_kept | apply Kept.ite)

theorem motCoincident_kept {s : State} {k : Nat} (hK : Kept q s) : Kept q (motCoincident s k) := by
  unfold motCoincident
  with_reducible repeat' (first
    | assumption | (intro x hx; guard_hyp hx : Kept q x) | apply State.put_kept | apply Kept.when)

theorem pwmBoundaries_kept {s : State} (hK : Kept q s) : Kept q (pwmBoundaries s) := by
  unfold pwmBoundaries
  with_reducible repeat' (first
    | assumption | (intro x a hx; guard_hyp hx : Kept q x) | apply State.setCh_kept | apply periodBoundary_kept
    | apply mirrorPair_kept | apply motDuty_kept | apply Kept.each | split)

theorem execPwmPeriodBoundary_kept {s : State} (hK : Kept q s) : KeptA q (execPwmPeriodBoundary s) := by
  unfold execPwmPeriodBoundary
  with_reducible repeat' (first | assumption | apply State.expire_kept | apply pwmBoundaries_kept | apply KeptA.next)

theorem showFree_kept {s : State} {k : Nat} (hK : Kept q s) : Kept q (showFree s k) := by
  unfold showFree
  with_reducible repeat' (first | assumption | apply State.putNat_kept)

theorem execSoftStartEnd_kept {k : Nat} {current : Nat} {rate : Nat} {s : State} (hK : Kept q s) : KeptA q
    (execSoftStartEnd k current rate s) := by
  unfold execSoftStartEnd
  with_reducible repeat' (first
    | assumption | (intro x hx; guard_hyp hx : Kept q x) | apply State.setMo_kept | apply showFree_kept
    | apply KeptA.next | apply Kept.when)

theorem countRipple_kept {s : State} {k : Nat} (hK : Kept q s) : Kept q (countRipple s k) := by
  unfold countRipple
  with_reducible repeat' (first | assumption | apply State.putNat_kept | apply State.setMo_kept | apply setPos_kept)

theorem countCorr_kept {s : State} {k : Nat} (hK : Kept q s) : Kept q (countCorr s k) := by
  unfold countCorr
  with_reducible repeat' (first
    | assumption | apply State.put_kept | apply State.satField_kept | apply motStop_kept | apply Kept.ite)

theorem rippleDetectEffect_kept {k : Nat} {s : State} (hK : Kept q s) : Kept q (rippleDetectEffect k s) := by
  unfold rippleDetectEffect
  with_reducible repeat' (first
    | assumption | (extract_lets +onlyGivenNames x; clear_value x) | apply countRipple_kept | apply countCorr_kept
    | split)

theorem execRippleDetect_kept {k : Nat} {s : State} (hK : Kept q s) : KeptA q (execRippleDetect k s) := by
  unfold execRippleDetect
  with_reducible repeat' (first | assumption | apply rippleDetectEffect_kept | apply KeptA.next | apply Kept.when)

theorem rippleGapCorrectionEffect_kept {k : Nat} {s : State} (hK : Kept q s) : Kept q (rippleGapCorrectionEffect k
    s) := by
  unfold rippleGapCorrectionEffect
  with_reducible repeat' (first
    | assumption | (extract_lets +onlyGivenNames x; clear_value x) | apply countRipple_kept | apply countCorr_kept
    | split)

theorem execRippleGapCorrection_kept {k : Nat} {s : State} (hK : Kept q s) : KeptA q (execRippleGapCorrection k s) := by
  unfold execRippleGapCorrection
  with_reducible repeat' (first
    | assumption | apply rippleGapCorrectionEffect_kept | apply KeptA.next | apply Kept.when)

theorem rippleCountEndEffect_kept {k : Nat} {s : State} (hK : Kept q s) : Kept q (rippleCountEndEffect k s) := by
  unfold rippleCountEndEffect
  with_reducible repeat' (first
    | assumption | apply State.put_kept | apply State.setMo_kept | apply setMotState_kept | apply Kept.ite)

theorem execRippleCountEnd_kept {k : Nat} {s : State} (hK : Kept q s) : KeptA q (execRippleCountEnd k s) := by
  unfold execRippleCountEnd
  with_reducible repeat' (first | assumption | apply rippleCountEndEffect_kept | apply KeptA.next | apply Kept.when)

theorem motPinch_kept {s : State} {k : Nat} (hK : Kept q s) : Kept q (motPinch s k) := by
  unfold motPinch
  with_reducible repeat' (first
    | assumption | apply State.put_kept | apply raiseSrc_kept | apply State.setMo_kept | apply setMotState_kept
    | apply bridgeBrake_kept | apply motIdleLoop_kept)

theorem forceEstimateEffect_kept {k : Nat} {current : Nat} {s : State} (hK : Kept q s) : Kept q
    (forceEstimateEffect k current s) := by
  unfold forceEstimateEffect
  with_reducible repeat' (first
    | assumption
    | (extract_lets +onlyGivenNames x; refine (fun hx : Kept q x => ?_) ?_; rotate_left; subst x; rotate_left; clear_value x)
    | (extract_lets +onlyGivenNames x) | apply State.drawn_kept | apply State.putNat_kept | apply State.setMo_kept
    | apply showFree_kept | apply motPinch_kept | split)

theorem execForceEstimate_kept {k : Nat} {current : Nat} {s : State} (hK : Kept q s) : KeptA q (execForceEstimate k
    current s) := by
  unfold execForceEstimate
  with_reducible repeat' (first | assumption | apply forceEstimateEffect_kept | apply KeptA.next | apply Kept.when)

theorem pinchBrakeEndEffect_kept {k : Nat} {s : State} (hK : Kept q s) : Kept q (pinchBrakeEndEffect k s) := by
  unfold pinchBrakeEndEffect
  with_reducible repeat' (first | assumption | apply State.setMo_kept | apply motDrive_kept)

theorem execPinchBrakeEnd_kept {k : Nat} {s : State} (hK : Kept q s) : KeptA q (execPinchBrakeEnd k s) := by
  unfold execPinchBrakeEnd
  with_reducible repeat' (first | assumption | apply pinchBrakeEndEffect_kept | apply KeptA.next | apply Kept.when)

theorem execPinchReversalEnd_kept {k : Nat} {endStop : Bool} {s : State} (hK : Kept q s) : KeptA q
    (execPinchReversalEnd k endStop s) := by
  unfold execPinchReversalEnd
  with_reducible repeat' (first
    | assumption | (intro x hx; guard_hyp hx : Kept q x) | apply motStop_kept | apply KeptA.next | apply Kept.when)

theorem stallDetectEffect_kept {k : Nat} {s : State} (hK : Kept q s) : Kept q (stallDetectEffect k s) := by
  unfold stallDetectEffect
  with_reducible repeat' (first
    | assumption | apply State.put_kept | apply setPos_kept | apply motStop_kept | apply motCoincident_kept
    | apply motPinch_kept | apply Kept.ite | split)

theorem stallSample_kept {k : Nat} {current : Nat} {s : State} (hK : Kept q s) : Kept q (stallSample k current s) := by
  unfold stallSample
  with_reducible repeat' (first | assumption | apply State.setMo_kept | apply stallDetectEffect_kept | apply Kept.ite)

theorem execStallDetect_kept {k : Nat} {current : Nat} {s : State} (hK : Kept q s) : KeptA q (execStallDetect k
    current s) := by
  unfold execStallDetect
  with_reducible repeat' (first | assumption | apply stallSample_kept | apply KeptA.next | apply Kept.when)

theorem execBrakeTimeEnd_kept {k : Nat} {s : State} (hK : Kept q s) : KeptA q (execBrakeTimeEnd k s) := by
  unfold execBrakeTimeEnd
  with_reducible repeat' (first
    | assumption | (intro x hx; guard_hyp hx : Kept q x) | apply motRelease_kept | apply motBegin_kept
    | apply KeptA.next | apply Kept.when | split)

theorem execGotoTargetReached_kept {k : Nat} {s : State} (hK : Kept q s) : KeptA q (execGotoTargetReached k s) := by
  unfold execGotoTargetReached
  with_reducible repeat' (first
    | assumption | (intro x hx; guard_hyp hx : Kept q x) | apply motStop_kept | apply motCoincident_kept
    | apply KeptA.next | apply Kept.when)

theorem moveServe_kept {k : Nat} {s : State} (hK : Kept q s) : Kept q (moveServe k s) := by
  unfold moveServe
  with_reducible repeat' (first
    | assumption | (intro x hx; guard_hyp hx : Kept q x) | apply motStop_kept | apply Kept.when)

theorem execMoveTimeout_kept {k : Nat} {s : State} (hK : Kept q s) : KeptA q (execMoveTimeout k s) := by
  unfold execMoveTimeout
  with_reducible repeat' (first | assumption | apply State.expire_kept | apply moveServe_kept | apply KeptA.next)

theorem wiperParkEdgeEffect_kept {k : Nat} {s : State} (hK : Kept q s) : Kept q (wiperParkEdgeEffect k s) := by
  unfold wiperParkEdgeEffect
  with_reducible repeat' (first
    | assumption | (intro x hx; guard_hyp hx : Kept q x) | apply State.put_kept | apply State.drawn_kept
    | apply raiseSrc_kept | apply State.setMo_kept | apply setPos_kept | apply motStop_kept | apply motCoincident_kept
    | apply Kept.ite | apply Kept.when)

theorem parkEdgeServe_kept {k : Nat} {s : State} (hK : Kept q s) : Kept q (parkEdgeServe k s) := by
  unfold parkEdgeServe
  with_reducible repeat' (first | assumption | apply wiperParkEdgeEffect_kept | apply Kept.when)

theorem execWiperParkEdge_kept {k : Nat} {s : State} (hK : Kept q s) : KeptA q (execWiperParkEdge k s) := by
  unfold execWiperParkEdge
  with_reducible repeat' (first
    | assumption | apply State.expire_kept | apply State.on_kept | apply parkEdgeServe_kept | apply KeptA.next)

theorem wiperStart_kept {s : State} {k : Nat} (hK : Kept q s) : Kept q (wiperStart s k) := by
  unfold wiperStart
  with_reducible repeat' (first
    | assumption | apply State.put_kept | apply State.setMo_kept | apply motMove_kept | apply Kept.ite)

theorem execWiperStartPulse_kept {k : Nat} {s : State} (hK : Kept q s) : KeptA q (execWiperStartPulse k s) := by
  unfold execWiperStartPulse
  with_reducible repeat' (first | assumption | apply State.on_kept | apply wiperStart_kept | apply KeptA.next)

theorem cycleServe_kept {k : Nat} {s : State} (hK : Kept q s) : Kept q (cycleServe k s) := by
  unfold cycleServe
  with_reducible repeat' (first
    | assumption | (intro x hx; guard_hyp hx : Kept q x) | apply motStop_kept | apply Kept.when)

theorem execWiperCycleTimeout_kept {k : Nat} {s : State} (hK : Kept q s) : KeptA q (execWiperCycleTimeout k s) := by
  unfold execWiperCycleTimeout
  with_reducible repeat' (first | assumption | apply State.expire_kept | apply cycleServe_kept | apply KeptA.next)

/-! ### Stroke -/

theorem stkWait_kept {s : State} {k : Nat} (hK : Kept q s) : Kept q (stkWait s k) := by
  unfold stkWait
  with_reducible repeat' (first | assumption | apply State.put_kept | apply State.setSk_kept | apply setPhase_kept)

theorem stkYield_kept {s : State} {k : Nat} {j : Nat} (hK : Kept q s) : Kept q (stkYield s k j) := by
  unfold stkYield
  with_reducible repeat' (first
    | assumption | apply State.put_kept | apply State.setSk_kept | apply stkWait_kept | split)

theorem stkFire_kept {s : State} {k : Nat} (hK : Kept q s) : Kept q (stkFire s k) := by
  unfold stkFire
  with_reducible repeat' (first
    | assumption | (intro x a hx; guard_hyp hx : Kept q x) | apply State.setSk_kept | apply stkBoost_kept
    | apply stkWait_kept | apply stkYield_kept | apply Kept.ite | apply Kept.each)

theorem stkFired_kept {s : State} {k : Nat} (hK : Kept q s) : Kept q (stkFired s k) := by
  unfold stkFired
  with_reducible repeat' (first | assumption | apply State.setSk_kept | apply stkFire_kept | apply Kept.ite)

theorem stkReclaimed_kept {s : State} {k : Nat} (hK : Kept q s) : Kept q (stkReclaimed s k) := by
  unfold stkReclaimed
  with_reducible repeat' (first | assumption | apply State.setSk_kept | apply stkFire_kept | apply Kept.ite)

theorem stkDuty_kept {s : State} {k : Nat} (hK : Kept q s) : Kept q (stkDuty s k) := by
  unfold stkDuty
  with_reducible repeat' (first | assumption | apply State.put_kept | apply stkQuench_kept | apply Kept.ite)

theorem stkRelease_kept {s : State} {k : Nat} (hK : Kept q s) : Kept q (stkRelease s k) := by
  unfold stkRelease
  with_reducible repeat' (first
    | assumption
    | (extract_lets +onlyGivenNames x; refine (fun hx : Kept q x => ?_) ?_; rotate_left; subst x; rotate_left; clear_value x)
    | apply State.setSk_kept | apply stkQuench_kept | apply stkStop_kept | apply stkDuty_kept | split)

theorem stkRuleFire_kept {s : State} {k : Nat} (hK : Kept q s) : Kept q (stkRuleFire s k) := by
  unfold stkRuleFire
  with_reducible repeat' (first
    | assumption | (extract_lets +onlyGivenNames x; clear_value x) | apply State.satField_kept | apply stkFired_kept
    | split)

theorem stkRuleRelease_kept {s : State} {k : Nat} (hK : Kept q s) : Kept q (stkRuleRelease s k) := by
  unfold stkRuleRelease
  with_reducible repeat' (first | assumption | apply stkRelease_kept | apply Kept.ite)

theorem execStkRuleFire_kept {k : Nat} {s : State} (hK : Kept q s) : KeptA q (execStkRuleFire k s) := by
  unfold execStkRuleFire
  with_reducible repeat' (first | assumption | apply State.on_kept | apply stkRuleFire_kept | apply KeptA.next)

theorem execStkRuleRelease_kept {k : Nat} {s : State} (hK : Kept q s) : KeptA q (execStkRuleRelease k s) := by
  unfold execStkRuleRelease
  with_reducible repeat' (first | assumption | apply State.on_kept | apply stkRuleRelease_kept | apply KeptA.next)

theorem stkWindowFault_kept {s : State} {k : Nat} {b : Fld} (hK : Kept q s) : Kept q (stkWindowFault s k b) := by
  unfold stkWindowFault
  with_reducible repeat' (first | assumption | apply State.put_kept | apply raiseSrc_kept)

theorem stkPeak_kept {s : State} {k : Nat} {arrived : Bool} (hK : Kept q s) : Kept q (stkPeak s k arrived) := by
  unfold stkPeak
  with_reducible repeat' (first | assumption | apply State.setSk_kept | apply setPhase_kept | apply stkSettle_kept)

theorem peakArrivalEffect_kept {k : Nat} {s : State} (hK : Kept q s) : Kept q (peakArrivalEffect k s) := by
  unfold peakArrivalEffect
  with_reducible repeat' (first
    | assumption | (intro x hx; guard_hyp hx : Kept q x) | apply State.put_kept | apply State.setSk_kept
    | apply stkMirror_kept | apply stkQuench_kept | apply stkWindowFault_kept | apply stkPeak_kept | apply Kept.ite
    | apply Kept.when)

theorem execPeakArrival_kept {k : Nat} {s : State} (hK : Kept q s) : KeptA q (execPeakArrival k s) := by
  unfold execPeakArrival
  with_reducible repeat' (first
    | assumption | (intro x hx; guard_hyp hx : Kept q x) | apply stkDuty_kept | apply peakArrivalEffect_kept
    | apply KeptA.next | apply Kept.when)

theorem phaseServe_kept {k : Nat} {ph : Nat} {act : State → State} {s : State} (hF_act : ∀ v0, Kept q v0 → Kept q
    (act v0)) (hK : Kept q s) : Kept q (phaseServe k ph act s) := by
  unfold phaseServe
  with_reducible repeat' (first
    | assumption | (intro x hx; guard_hyp hx : Kept q x) | apply stkDuty_kept | apply Kept.when)

theorem boostServe_kept {k : Nat} {s : State} (hK : Kept q s) : Kept q (boostServe k s) := by
  unfold boostServe
  with_reducible repeat' (first
    | assumption | (intro x hx; guard_hyp hx : Kept q x) | apply State.put_kept | apply stkPeak_kept
    | apply phaseServe_kept)

theorem execBoostTimeout_kept {k : Nat} {s : State} (hK : Kept q s) : KeptA q (execBoostTimeout k s) := by
  unfold execBoostTimeout
  with_reducible repeat' (first | assumption | apply State.expire_kept | apply boostServe_kept | apply KeptA.next)

theorem lateWindowFaultEffect_kept {k : Nat} {s : State} (hK : Kept q s) : Kept q (lateWindowFaultEffect k s) := by
  unfold lateWindowFaultEffect
  with_reducible repeat' (first
    | assumption | apply State.setSk_kept | apply stkMirror_kept | apply stkQuench_kept | apply stkWindowFault_kept
    | apply Kept.ite)

theorem execLateWindowFault_kept {k : Nat} {s : State} (hK : Kept q s) : KeptA q (execLateWindowFault k s) := by
  unfold execLateWindowFault
  with_reducible repeat' (first | assumption | apply lateWindowFaultEffect_kept | apply KeptA.next | apply Kept.when)

theorem stkPeakTimeEndEffect_kept {k : Nat} {current : Nat} {s : State} (hK : Kept q s) : Kept q
    (stkPeakTimeEndEffect k current s) := by
  unfold stkPeakTimeEndEffect
  with_reducible repeat' (first
    | assumption | apply State.setSk_kept | apply setPhase_kept | apply stkSettle_kept | apply Kept.ite)

theorem peakServe_kept {k : Nat} {current : Nat} {s : State} (hK : Kept q s) : Kept q (peakServe k current s) := by
  unfold peakServe
  with_reducible repeat' (first | assumption | apply phaseServe_kept | apply stkPeakTimeEndEffect_kept)

theorem execStkPeakTimeEnd_kept {k : Nat} {current : Nat} {s : State} (hK : Kept q s) : KeptA q (execStkPeakTimeEnd
    k current s) := by
  unfold execStkPeakTimeEnd
  with_reducible repeat' (first | assumption | apply State.expire_kept | apply peakServe_kept | apply KeptA.next)

theorem holdTimeServe_kept {k : Nat} {s : State} (hK : Kept q s) : Kept q (holdTimeServe k s) := by
  unfold holdTimeServe
  with_reducible repeat' (first
    | assumption | (intro x hx; guard_hyp hx : Kept q x) | apply stkQuench_kept | apply phaseServe_kept)

theorem execStkHoldTimeEnd_kept {k : Nat} {s : State} (hK : Kept q s) : KeptA q (execStkHoldTimeEnd k s) := by
  unfold execStkHoldTimeEnd
  with_reducible repeat' (first | assumption | apply State.expire_kept | apply holdTimeServe_kept | apply KeptA.next)

theorem quenchServe_kept {k : Nat} {s : State} (hK : Kept q s) : Kept q (quenchServe k s) := by
  unfold quenchServe
  with_reducible repeat' (first
    | assumption | (intro x hx; guard_hyp hx : Kept q x) | apply State.put_kept | apply raiseSrc_kept
    | apply State.setSk_kept | apply setPhase_kept | apply phaseServe_kept)

theorem execQuenchEnd_kept {k : Nat} {s : State} (hK : Kept q s) : KeptA q (execQuenchEnd k s) := by
  unfold execQuenchEnd
  with_reducible repeat' (first | assumption | apply State.expire_kept | apply quenchServe_kept | apply KeptA.next)

theorem stkChop_kept {s : State} {k : Nat} (hK : Kept q s) : Kept q (stkChop s k) := by
  unfold stkChop
  with_reducible repeat' (first | assumption | apply State.setSk_kept | apply stkApply_kept)

theorem chopCurrentReachedEffect_kept {k : Nat} {s : State} (hK : Kept q s) : Kept q (chopCurrentReachedEffect k s) := by
  unfold chopCurrentReachedEffect
  with_reducible repeat' (first | assumption | apply State.setSk_kept | apply stkChop_kept | apply Kept.ite)

theorem execChopCurrentReached_kept {k : Nat} {s : State} (hK : Kept q s) : KeptA q (execChopCurrentReached k s) := by
  unfold execChopCurrentReached
  with_reducible repeat' (first | assumption | apply chopCurrentReachedEffect_kept | apply KeptA.next | apply Kept.when)

theorem serveChop_kept {s : State} {k : Nat} (hK : Kept q s) : Kept q (serveChop s k) := by
  unfold serveChop
  with_reducible repeat' (first | assumption | apply stkChop_kept | apply Kept.ite)

theorem execChopOffTimeEnd_kept {k : Nat} {s : State} (hK : Kept q s) : KeptA q (execChopOffTimeEnd k s) := by
  unfold execChopOffTimeEnd
  with_reducible repeat' (first
    | assumption | (intro x hx; guard_hyp hx : Kept q x) | apply State.setSk_kept | apply stkApply_kept
    | apply KeptA.next | apply Kept.when)

theorem execDutyLimitReached_kept {k : Nat} {s : State} (hK : Kept q s) : KeptA q (execDutyLimitReached k s) := by
  unfold execDutyLimitReached
  with_reducible repeat' (first
    | assumption | (intro x hx; guard_hyp hx : Kept q x) | apply stkDuty_kept | apply KeptA.next | apply Kept.when)

theorem dutySegmentRollEffect_kept {k : Nat} {s : State} (hK : Kept q s) : Kept q (dutySegmentRollEffect k s) := by
  unfold dutySegmentRollEffect
  with_reducible repeat' (first | assumption | apply State.setSk_kept | apply showAct_kept)

theorem execDutySegmentRoll_kept {k : Nat} {s : State} (hK : Kept q s) : KeptA q (execDutySegmentRoll k s) := by
  unfold execDutySegmentRoll
  with_reducible repeat' (first | assumption | apply dutySegmentRollEffect_kept | apply KeptA.next | apply Kept.when)

/-! ### PowerRegs -/

theorem pscWritten_kept {f : Nat} {o : Nat} {s : State} {old : Word} {w : Word} (hK : Kept q s) : Kept q
    (pscWritten f o s old w) := by
  unfold pscWritten
  with_reducible repeat' (first
    | assumption | apply State.put_kept | apply State.setCh_kept | apply restartTests_kept | apply refreshFlt_kept
    | apply mirrorPair_kept | apply modeWritten_kept | apply unlock_kept | apply Kept.ite)

theorem pscWrite_kept {r : WriteReq} {s : State} (hK : Kept q s) : Kept q (pscWrite r s) := by
  unfold pscWrite
  with_reducible repeat' (first
    | assumption | apply blockWrite_kept | apply noHook_kept | apply noRej_kept | apply pscWritten_kept
    | apply Kept.ite)

theorem beatRefresh_kept {s : State} (hK : Kept q s) : Kept q (beatRefresh s) := by
  unfold beatRefresh
  with_reducible repeat' (first
    | assumption | (intro x hx; guard_hyp hx : Kept q x) | apply State.put_kept | apply beatStart_kept
    | apply Kept.when)

theorem psgWritten_kept {src : Src} {o : Nat} {s : State} {old : Word} {w : Word} (hK : Kept q s) : Kept q
    (psgWritten src o s old w) := by
  unfold psgWritten
  with_reducible repeat' (first
    | assumption | apply State.put_kept | apply beatStart_kept | apply reclaim_kept | apply motReclaimed_kept
    | apply stkReclaimed_kept | apply beatRefresh_kept | apply Kept.ite | apply Kept.each)

theorem psgWrite_kept {r : WriteReq} {s : State} (hK : Kept q s) : Kept q (psgWrite r s) := by
  unfold psgWrite
  with_reducible repeat' (first | assumption | apply blockWrite_kept | apply noRej_kept | apply psgWritten_kept)

theorem motWritten_kept {k : Nat} {o : Nat} {s : State} {old : Word} {w : Word} (hK : Kept q s) : Kept q
    (motWritten k o s old w) := by
  unfold motWritten
  with_reducible repeat' (first
    | assumption | apply setPos_kept | apply motCommanded_kept | apply motDisabled_kept | apply Kept.ite)

theorem motWrite_kept {r : WriteReq} {s : State} (hK : Kept q s) : Kept q (motWrite r s) := by
  unfold motWrite
  with_reducible repeat' (first
    | assumption | apply blockWrite_kept | apply noHook_kept | apply noRej_kept | apply motWritten_kept
    | apply Kept.ite)

theorem stkWritten_kept {k : Nat} {o : Nat} {s : State} {old : Word} {w : Word} (hK : Kept q s) : Kept q
    (stkWritten k o s old w) := by
  unfold stkWritten
  with_reducible repeat' (first
    | assumption | apply State.put_kept | apply State.setSk_kept | apply stkMirror_kept | apply stkStop_kept
    | apply stkFired_kept | apply stkRelease_kept | apply Kept.ite)

theorem stkWrite_kept {r : WriteReq} {s : State} (hK : Kept q s) : Kept q (stkWrite r s) := by
  unfold stkWrite
  with_reducible repeat' (first
    | assumption | apply blockWrite_kept | apply noHook_kept | apply noRej_kept | apply stkWritten_kept
    | apply Kept.ite)

/-! ### Inputs -/

theorem State.setIp_kept {s : State} {n : Nat} {g : Inp → Inp} (hK : Kept q s) : Kept q (State.setIp s n g) := by
  unfold State.setIp
  with_reducible repeat' (first | assumption | apply Kept.upd)

theorem plainSample_kept {s : State} {n : Nat} {v : Int} (hK : Kept q s) : Kept q (plainSample s n v).2 := by
  unfold plainSample
  with_reducible repeat' (first
    | assumption | (extract_lets +onlyGivenNames x; clear_value x) | apply State.drawn_kept | split)

theorem sampleOf_kept {s : State} {n : Nat} {kl30 : Int} {v : Int} (hK : Kept q s) : Kept q (sampleOf s n kl30 v).2 := by
  unfold sampleOf
  with_reducible repeat' (first | assumption | apply plainSample_kept | split)

theorem showInp_kept {s : State} {n : Nat} (hK : Kept q s) : Kept q (showInp s n) := by
  unfold showInp
  with_reducible repeat' (first | assumption | apply Kept.wr | apply State.setBit_kept)

theorem inpChange_kept {s : State} {n : Nat} {v : Nat} {pulse : Bool} (hK : Kept q s) : Kept q (inpChange s n v
    pulse) := by
  unfold inpChange
  with_reducible repeat' (first
    | assumption | (intro x hx; guard_hyp hx : Kept q x) | apply State.setBit_kept | apply raiseSrc_kept
    | apply State.setIp_kept | apply showInp_kept | apply Kept.when)

theorem inpTake_kept {s : State} {n : Nat} {v : Nat} (hK : Kept q s) : Kept q (inpTake s n v) := by
  unfold inpTake
  with_reducible repeat' (first
    | assumption | apply State.setIp_kept | apply showInp_kept | apply inpChange_kept | apply Kept.ite)

theorem inputScan_kept {s : State} {kl30 : Int} {pins : List (Nat × Int)} (hK : Kept q s) : Kept q (inputScan s
    kl30 pins) := by
  unfold inputScan
  with_reducible repeat' (first
    | assumption | (intro x a hx; guard_hyp hx : Kept q x) | apply sampleOf_kept | apply inpTake_kept | apply Kept.each)

theorem comparatorCrossingEffect_kept {n : Nat} {volt : Int} {s : State} (hK : Kept q s) : Kept q
    (comparatorCrossingEffect n volt s) := by
  unfold comparatorCrossingEffect
  with_reducible repeat' (first | assumption | apply State.put_kept | apply raiseLevel_kept | apply Kept.ite)

theorem execComparatorCrossing_kept {n : Nat} {volt : Int} {s : State} (hK : Kept q s) : KeptA q
    (execComparatorCrossing n volt s) := by
  unfold execComparatorCrossing
  with_reducible repeat' (first
    | assumption | apply State.on_kept | apply comparatorCrossingEffect_kept | apply KeptA.next | apply Kept.when)

theorem adStart_kept {s : State} (hK : Kept q s) : Kept q (adStart s) := by
  unfold adStart
  with_reducible repeat' (first | assumption | apply State.put_kept | apply Kept.upd)

theorem adDue_kept {s : State} (hK : Kept q s) : Kept q (adDue s) := by
  unfold adDue
  with_reducible repeat' (first
    | assumption | apply State.put_kept | apply adStart_kept | apply Kept.ite | apply Kept.upd)

theorem adEnable_kept {s : State} (hK : Kept q s) : Kept q (adEnable s) := by
  unfold adEnable
  with_reducible repeat' (first | assumption | apply adDue_kept | apply Kept.ite | apply Kept.upd)

theorem adDisable_kept {s : State} (hK : Kept q s) : Kept q (adDisable s) := by
  unfold adDisable
  with_reducible repeat' (first | assumption | apply State.put_kept | apply Kept.upd)

theorem execAdcScanPeriod_kept {s : State} (hK : Kept q s) : KeptA q (execAdcScanPeriod s) := by
  unfold execAdcScanPeriod
  with_reducible repeat' (first
    | assumption | (intro x hx; guard_hyp hx : Kept q x) | apply State.on_kept | apply adDue_kept | apply KeptA.next
    | apply Kept.when | apply Kept.upd)

theorem adPulse_kept {s : State} (hK : Kept q s) : Kept q (adPulse s) := by
  unfold adPulse
  with_reducible repeat' (first | assumption | apply State.put_kept | apply adStart_kept | split | apply Kept.upd)

theorem execAdcRuleStart_kept {s : State} (hK : Kept q s) : KeptA q (execAdcRuleStart s) := by
  unfold execAdcRuleStart
  with_reducible repeat' (first
    | assumption | apply State.on_kept | apply adPulse_kept | apply KeptA.next | apply KeptA.go)

theorem execAdcConversionDone_kept {volt : Int} {s : State} (hK : Kept q s) : KeptA q (execAdcConversionDone volt
    s) := by
  unfold execAdcConversionDone
  with_reducible repeat' (first
    | assumption | apply State.put_kept | apply State.drawn_kept | apply State.on_kept | apply KeptA.next | split
    | apply Kept.upd)

theorem execAdcScanDone_kept {s : State} (hK : Kept q s) : KeptA q (execAdcScanDone s) := by
  unfold execAdcScanDone
  with_reducible repeat' (first
    | assumption | (intro x hx; guard_hyp hx : Kept q x) | apply State.put_kept | apply State.incField_kept
    | apply State.on_kept | apply raiseSrc_kept | apply adStart_kept | apply KeptA.next | apply Kept.when
    | apply Kept.upd)

theorem adServe_kept {s : State} (hK : Kept q s) : Kept q (adServe s) := by
  unfold adServe
  with_reducible repeat' (first | assumption | apply adStart_kept | apply Kept.ite)

theorem adRead_kept {s : State} {n : Nat} (hK : Kept q s) : Kept q (adRead s n) := by
  unfold adRead
  with_reducible repeat' (first | assumption | apply State.put_kept)

theorem inpOnWritten_kept {s : State} {n : Nat} {old : Bool} {new : Bool} (hK : Kept q s) : Kept q (inpOnWritten s
    n old new) := by
  unfold inpOnWritten
  with_reducible repeat' (first | assumption | apply State.setIp_kept | apply showInp_kept | apply Kept.ite)

theorem inpEdgeWritten_kept {s : State} (hK : Kept q s) : Kept q (inpEdgeWritten s) := by
  unfold inpEdgeWritten
  with_reducible repeat' (first
    | assumption | (intro x a hx; guard_hyp hx : Kept q x) | apply State.setIp_kept | apply Kept.each)

theorem inpPark_kept {s : State} (hK : Kept q s) : Kept q (inpPark s) := by
  unfold inpPark
  with_reducible repeat' (first
    | assumption | apply Kept.wr | apply State.drawn_kept | apply adDisable_kept | apply Kept.upd)

theorem inpRestore_kept {s : State} (hK : Kept q s) : Kept q (inpRestore s) := by
  unfold inpRestore
  with_reducible repeat' (first
    | assumption | (intro x a hx; guard_hyp hx : Kept q x)
    | (extract_lets +onlyGivenNames x; refine (fun hx : Kept q x => ?_) ?_; rotate_left; subst x; rotate_left; clear_value x)
    | apply Kept.wr | apply Kept.resetRange | apply State.setIp_kept | apply showInp_kept | apply inpChange_kept
    | apply Kept.each | split)

theorem parkTake_kept {s : State} {n : Nat} {v : Nat} (hK : Kept q s) : Kept q (parkTake s n v).1 := by
  unfold parkTake
  with_reducible repeat' (first
    | assumption
    | (extract_lets +onlyGivenNames x; refine (fun hx : Kept q x => ?_) ?_; rotate_left; subst x; rotate_left; clear_value x)
    | (extract_lets +onlyGivenNames x; clear_value x) | apply State.setBit_kept | apply State.setIp_kept | split)

theorem parkCmp_kept {s : State} {n : Nat} {v : Int} (hK : Kept q s) : Kept q (parkCmp s n v).1 := by
  unfold parkCmp
  with_reducible repeat' (first
    | assumption
    | (extract_lets +onlyGivenNames x; refine (fun hx : Kept q x => ?_) ?_; rotate_left; subst x; rotate_left; clear_value x)
    | (extract_lets +onlyGivenNames x; clear_value x) | apply State.setBit_kept | split | apply Kept.upd)

theorem parkSample_kept {s : State} {kl30 : Int} {pins ans : List (Nat × Int)} (hK : Kept q s) : Kept q (parkSample s kl30 pins ans).1 := by
  unfold parkSample
  extract_lets g mine r r2 last
  have h : Kept q r2.1 := Kept.foldl1 (Kept.foldl1 hK fun _ _ h => parkTake_kept (sampleOf_kept h)) fun _ _ h => parkCmp_kept h
  clear_value r2
  exact Kept.upd h

/-! ### Access -/

theorem setAcc_kept {s : State} {g : AccSt → AccSt} (hK : Kept q s) : Kept q (setAcc s g) := by
  unfold setAcc
  with_reducible repeat' (first | assumption | apply Kept.upd)

theorem accIrq_kept {s : State} {i : Nat} (hK : Kept q s) : Kept q (accIrq s i) := by
  unfold accIrq
  with_reducible repeat' (first | assumption | apply State.raise_kept)

theorem unitWrite_kept {s : State} {r : WriteReq} {f : WriteReq → State → State} (hK : Kept q s)
    (hf : ∀ r s, Kept q s → Kept q (f r s)) : Kept q (unitWrite s r f).1 := by
  have h0 : Kept q (s.clearRej 4) := State.clearRej_kept hK
  have h1 : Kept q (if s.ready r.blk.island then f r (s.clearRej 4)
      else (s.clearRej 4).fabReject r.src 0x06 (r.blk.base + r.off)) :=
    Kept.ite (hf _ _ h0) (State.fabReject_kept h0)
  exact Kept.ite (State.setRej_kept h1) (State.clearRej_kept h1)

theorem lockWrite_kept {s : State} {r : WriteReq} {f : WriteReq → State → State} (hK : Kept q s)
    (hf : ∀ r s, Kept q s → Kept q (f r s)) : Kept q (lockWrite s r f) :=
  Kept.ite (accIrq_kept (State.put_kept (unitWrite_kept hK hf))) (unitWrite_kept hK hf)

theorem lockAct_kept {s : State} {unlock : Bool} (hK : Kept q s) : Kept q (lockAct s unlock) := by
  unfold lockAct
  with_reducible repeat' (first
    | assumption | (intro x a hx; guard_hyp hx : Kept q x) | apply motWrite_kept | apply stkWrite_kept
    | apply lockWrite_kept | apply Kept.each)

theorem grantSend_kept {s : State} {st : Nat} (hK : Kept q s) : Kept q (grantSend s st) := by
  unfold grantSend
  extract_lets n k os s1 s2 w0 s3 ok p s4 s5
  have h2 : Kept q s2 := Kept.ite (setAcc_kept (State.drawn_kept hK)) (State.drawn_kept hK)
  have h3 : Kept q s3 := Kept.ite
    (State.putWord_kept (State.putWord_kept (State.putWord_kept (State.putWord_kept h2)))) h2
  have hp : Kept q p.1 := by
    clear_value s3
    by_cases h : ok = true
    · simp only [p, h, if_true]; exact unitWrite_kept h3 fun _ _ h => canWrite_kept h
    · simp only [p, h]; exact h3
  have h4 : Kept q s4 := Kept.ite (accIrq_kept hp) hp
  exact setAcc_kept (State.put_kept h4)

theorem grantWithdraw_kept {s : State} (hK : Kept q s) : Kept q (grantWithdraw s) := by
  unfold grantWithdraw
  with_reducible repeat' (first | assumption | apply State.put_kept | apply setAcc_kept | apply Kept.ite)

theorem grantFrameSendEffect_kept {s : State} (hK : Kept q s) : Kept q (grantFrameSendEffect s) := by
  unfold grantFrameSendEffect
  with_reducible repeat' (first | assumption | apply setAcc_kept | apply grantSend_kept | apply Kept.ite)

theorem execGrantFrameSend_kept {s : State} (hK : Kept q s) : KeptA q (execGrantFrameSend s) := by
  unfold execGrantFrameSend
  with_reducible repeat' (first
    | assumption | apply State.on_kept | apply grantFrameSendEffect_kept | apply KeptA.next | apply Kept.when)

theorem sessTo_kept {s : State} {st : Nat} (hK : Kept q s) : Kept q (sessTo s st) := by
  unfold sessTo
  with_reducible repeat' (first | assumption | apply State.put_kept | apply accIrq_kept | apply Kept.ite)

theorem sessEnd_kept {s : State} {outcome : Nat} (hK : Kept q s) : Kept q (sessEnd s outcome) := by
  unfold sessEnd
  with_reducible repeat' (first
    | assumption | apply State.put_kept | apply setAcc_kept | apply grantWithdraw_kept | apply sessTo_kept)

theorem sessIgnition_kept {s : State} (hK : Kept q s) : Kept q (sessIgnition s) := by
  unfold sessIgnition
  with_reducible repeat' (first
    | assumption | (intro x hx; guard_hyp hx : Kept q x) | apply State.put_kept | apply setAcc_kept | apply sessTo_kept
    | apply sessEnd_kept | apply Kept.when | split)

theorem sessDoor_kept {s : State} {t : Word} (hK : Kept q s) : Kept q (sessDoor s t) := by
  unfold sessDoor
  with_reducible repeat' (first
    | assumption | (intro x hx; guard_hyp hx : Kept q x) | apply State.put_kept | apply setAcc_kept
    | apply grantSend_kept | apply sessTo_kept | apply Kept.ite | apply Kept.when)

theorem restInputs_kept {s : State} (hK : Kept q s) : Kept q (restInputs s) := by
  unfold restInputs
  with_reducible repeat' (first
    | assumption | (intro x hx; guard_hyp hx : Kept q x) | apply inpRestore_kept | apply sessIgnition_kept
    | apply sessDoor_kept | apply Kept.ite | apply Kept.when)

theorem doorIgnition_kept {s : State} {opened : Bool} (hK : Kept q s) : Kept q (doorIgnition s opened) := by
  unfold doorIgnition
  with_reducible repeat' (first
    | assumption | (intro x hx; guard_hyp hx : Kept q x) | apply setAcc_kept | apply sessIgnition_kept
    | apply sessDoor_kept | apply Kept.when)

theorem inputScanEffect_kept {kl30 : Int} {pins : List (Nat × Int)} {s : State} (hK : Kept q s) : Kept q
    (inputScanEffect kl30 pins s) := by
  unfold inputScanEffect
  with_reducible repeat' (first
    | assumption | (intro x hx; guard_hyp hx : Kept q x) | apply inputScan_kept | apply doorIgnition_kept
    | apply Kept.when | apply Kept.upd)

theorem execInputScan_kept {kl30 : Int} {pins : List (Nat × Int)} {s : State} (hK : Kept q s) : KeptA q
    (execInputScan kl30 pins s) := by
  unfold execInputScan
  with_reducible repeat' (first
    | assumption | apply State.on_kept | apply inputScanEffect_kept | apply KeptA.next | apply KeptA.go
    | apply Kept.when)

theorem sessUnlock_kept {s : State} {n : Nat} (hK : Kept q s) : Kept q (sessUnlock s n) := by
  unfold sessUnlock
  with_reducible repeat' (first
    | assumption | (intro x hx; guard_hyp hx : Kept q x) | apply State.put_kept | apply setAcc_kept
    | apply lockAct_kept | apply sessTo_kept | apply sessDoor_kept | apply Kept.when | split)

theorem sessLock_kept {s : State} (hK : Kept q s) : Kept q (sessLock s) := by
  unfold sessLock
  with_reducible repeat' (first
    | assumption
    | (extract_lets +onlyGivenNames x; refine (fun hx : Kept q x => ?_) ?_; rotate_left; subst x; rotate_left; clear_value x)
    | apply lockAct_kept | apply sessEnd_kept | split)

theorem sessionServe_kept {s : State} (hK : Kept q s) : Kept q (sessionServe s) := by
  unfold sessionServe
  with_reducible repeat' (first
    | assumption | (intro x hx; guard_hyp hx : Kept q x) | apply lockAct_kept | apply sessEnd_kept | apply Kept.when)

theorem execSessionTimeout_kept {s : State} (hK : Kept q s) : KeptA q (execSessionTimeout s) := by
  unfold execSessionTimeout
  with_reducible repeat' (first
    | assumption | apply State.expire_kept | apply State.on_kept | apply sessionServe_kept | apply KeptA.next)

theorem graceServe_kept {s : State} (hK : Kept q s) : Kept q (graceServe s) := by
  unfold graceServe
  with_reducible repeat' (first
    | assumption | (intro x hx; guard_hyp hx : Kept q x) | apply sessEnd_kept | apply Kept.when)

theorem execGraceTimeout_kept {s : State} (hK : Kept q s) : KeptA q (execGraceTimeout s) := by
  unfold execGraceTimeout
  with_reducible repeat' (first
    | assumption | apply State.expire_kept | apply State.on_kept | apply graceServe_kept | apply KeptA.next)

theorem accStop_kept {s : State} (hK : Kept q s) : Kept q (accStop s) := by
  unfold accStop
  with_reducible repeat' (first | assumption | apply setAcc_kept)

theorem accDisable_kept {s : State} (hK : Kept q s) : Kept q (accDisable s) := by
  unfold accDisable
  with_reducible repeat' (first
    | assumption | apply State.put_kept | apply setAcc_kept | apply sessEnd_kept | apply accStop_kept | apply Kept.ite)

theorem accKeyLost_kept {s : State} (hK : Kept q s) : Kept q (accKeyLost s) := by
  unfold accKeyLost
  with_reducible repeat' (first
    | assumption | apply State.put_kept | apply setAcc_kept | apply accIrq_kept | apply sessEnd_kept
    | apply accStop_kept | apply Kept.ite)

theorem showSet_kept {s : State} {t : TokSet} {ctrs : List Nat} (hK : Kept q s) : Kept q (showSet s t ctrs) := by
  unfold showSet
  with_reducible repeat' (first
    | assumption | (intro x a hx; guard_hyp hx : Kept q x) | apply State.put_kept | apply Kept.each)

theorem startRead_kept {s : State} {ch : Nat} (hK : Kept q s) : Kept q (startRead s ch) := by
  unfold startRead
  with_reducible repeat' (first | assumption | apply setAcc_kept)

theorem accLoadingDoneEffect_kept {s : State} (hK : Kept q s) : Kept q (accLoadingDoneEffect s) := by
  unfold accLoadingDoneEffect
  with_reducible repeat' (first
    | assumption | apply State.put_kept | apply setAcc_kept | apply showSet_kept | apply startRead_kept
    | apply Kept.each | split)

theorem execAccLoadingDone_kept {s : State} (hK : Kept q s) : KeptA q (execAccLoadingDone s) := by
  unfold execAccLoadingDone
  with_reducible repeat' (first
    | assumption | apply State.on_kept | apply accLoadingDoneEffect_kept | apply KeptA.next | apply Kept.when)

theorem execAttentionAssert_kept {ch : Fin 2} {s : State} (hK : Kept q s) : KeptA q (execAttentionAssert ch s) := by
  unfold execAttentionAssert
  with_reducible repeat' (first
    | assumption | (intro x hx; guard_hyp hx : Kept q x) | apply State.put_kept | apply wakeDetect_kept
    | apply startRead_kept | apply KeptA.next | apply Kept.when)

theorem accLog_kept {s : State} {c : Code} {result : Nat} {coin : Bool} (hK : Kept q s) : Kept q (accLog s c result
    coin) := by
  unfold accLog
  with_reducible repeat' (first | assumption | apply Kept.wr | apply State.put_kept)

theorem joinFrame_kept {s : State} {c : Code} (hK : Kept q s) : Kept q (joinFrame s c) := by
  unfold joinFrame
  with_reducible repeat' (first | assumption | apply setAcc_kept)

theorem tokenReadEndEffect_kept {ch : Nat} {octets : List Nat} {asserted : Bool} {s : State} (hK : Kept q s) : Kept
    q (tokenReadEndEffect ch octets asserted s) := by
  unfold tokenReadEndEffect
  with_reducible repeat' (first
    | assumption
    | (extract_lets +onlyGivenNames x; refine (fun hx : Kept q x => ?_) ?_; rotate_left; subst x; rotate_left; clear_value x)
    | (extract_lets +onlyGivenNames x; clear_value x) | apply State.put_kept | apply setAcc_kept | apply accLog_kept
    | apply joinFrame_kept | split)

theorem execTokenReadEnd_kept {ch : Fin 2} {octets : List Nat} {asserted : Bool} {s : State} (hK : Kept q s) :
    KeptA q (execTokenReadEnd ch octets asserted s) := by
  unfold execTokenReadEnd
  with_reducible repeat' (first
    | assumption | apply State.on_kept | apply tokenReadEndEffect_kept | apply KeptA.next | apply Kept.when)

theorem execTokenReadRepeat_kept {ch : Fin 2} {s : State} (hK : Kept q s) : KeptA q (execTokenReadRepeat ch s) := by
  unfold execTokenReadRepeat
  with_reducible repeat' (first
    | assumption | (intro x hx; guard_hyp hx : Kept q x) | apply State.on_kept | apply startRead_kept
    | apply KeptA.next | apply Kept.when)

theorem releaseHeld_kept {s : State} {ch : Nat} (hK : Kept q s) : Kept q (releaseHeld s ch) := by
  unfold releaseHeld
  with_reducible repeat' (first | assumption | apply State.put_kept | apply setAcc_kept | apply joinFrame_kept | split)

theorem backoffServe_kept {ch : Nat} {s : State} (hK : Kept q s) : Kept q (backoffServe ch s) := by
  unfold backoffServe
  with_reducible repeat' (first
    | assumption | (intro x hx; guard_hyp hx : Kept q x) | apply setAcc_kept | apply releaseHeld_kept | apply Kept.when)

theorem execAccBackoffEnd_kept {ch : Fin 2} {s : State} (hK : Kept q s) : KeptA q (execAccBackoffEnd ch s) := by
  unfold execAccBackoffEnd
  with_reducible repeat' (first
    | assumption | apply State.expire_kept | apply State.on_kept | apply backoffServe_kept | apply KeptA.next)

theorem codeInvalid_kept {s : State} {ch : Nat} (hK : Kept q s) : Kept q (codeInvalid s ch) := by
  unfold codeInvalid
  with_reducible repeat' (first
    | assumption | apply State.put_kept | apply setAcc_kept | apply accIrq_kept | apply Kept.ite)

theorem codeValid_kept {s : State} {ch : Nat} (hK : Kept q s) : Kept q (codeValid s ch) := by
  unfold codeValid
  with_reducible repeat' (first | assumption | apply State.put_kept | apply setAcc_kept | apply releaseHeld_kept)

theorem codeAccept_kept {s : State} {c : Code} (hK : Kept q s) : Kept q (codeAccept s c) := by
  unfold codeAccept
  with_reducible repeat' (first | assumption | apply State.put_kept | apply setAcc_kept | apply codeValid_kept)

theorem codeCandidate_kept {s : State} {c : Code} (hK : Kept q s) : Kept q (codeCandidate s c) := by
  unfold codeCandidate
  with_reducible repeat' (first | assumption | apply setAcc_kept)

theorem counterAct_kept {s : State} {c : Code} {result : Option Nat} (hK : Kept q s) : Kept q (counterAct s c
    result) := by
  unfold counterAct
  with_reducible repeat' (first
    | assumption | apply codeInvalid_kept | apply codeAccept_kept | apply codeCandidate_kept | split)

theorem codeResult_kept {s : State} {c : Code} (hK : Kept q s) : Kept q (codeResult s c).1 := by
  unfold codeResult
  generalize codeCheck s c = k
  cases k with
  | some r => exact Kept.ite hK (codeInvalid_kept hK)
  | none => exact counterAct_kept hK

theorem checkCodes_kept {s : State} {l : List Code} (hK : Kept q s) : Kept q (checkCodes s l).1 := by
  induction l generalizing s with
  | nil => exact hK
  | cons c t ih => exact ih (codeResult_kept hK)

theorem evalFrameEndEffect_kept {s : State} (hK : Kept q s) : Kept q (evalFrameEndEffect s) := by
  unfold evalFrameEndEffect
  extract_lets stop codes s1 r win s2
  have h2 : Kept q s2 := Kept.each (checkCodes_kept (setAcc_kept hK)) fun _ _ h => accLog_kept h
  clear_value s2 win r
  cases win with
  | none => exact h2
  | some i =>
    dsimp only
    cases r.2[i]? with
    | none => exact h2
    | some p => exact setAcc_kept h2

theorem frameServe_kept {s : State} (hK : Kept q s) : Kept q (frameServe s) := by
  unfold frameServe
  with_reducible repeat' (first | assumption | apply evalFrameEndEffect_kept | apply Kept.when)

theorem execEvalFrameEnd_kept {s : State} (hK : Kept q s) : KeptA q (execEvalFrameEnd s) := by
  unfold execEvalFrameEnd
  with_reducible repeat' (first
    | assumption | apply State.expire_kept | apply State.on_kept | apply frameServe_kept | apply KeptA.next)

theorem candTick_kept {s : State} (hK : Kept q s) : Kept q (candTick s) := by
  unfold candTick
  with_reducible repeat' (first | assumption | apply setAcc_kept)

theorem execAccCommandAct_kept {s : State} (hK : Kept q s) : KeptA q (execAccCommandAct s) := by
  unfold execAccCommandAct
  with_reducible repeat' (first
    | assumption | apply State.put_kept | apply State.on_kept | apply setAcc_kept | apply accIrq_kept
    | apply sessIgnition_kept | apply sessUnlock_kept | apply sessLock_kept | apply KeptA.next | split)

theorem accImport_kept {s : State} (hK : Kept q s) : Kept q (accImport s) := by
  unfold accImport
  with_reducible repeat' (first | assumption | apply State.put_kept | apply setAcc_kept | apply accIrq_kept)

theorem accLearn_kept {s : State} (hK : Kept q s) : Kept q (accLearn s) := by
  unfold accLearn
  with_reducible repeat' (first | assumption | apply State.put_kept | apply setAcc_kept | apply accIrq_kept | split)

theorem execAccLearnDone_kept {s : State} (hK : Kept q s) : KeptA q (execAccLearnDone s) := by
  unfold execAccLearnDone
  with_reducible repeat' (first
    | assumption | apply State.put_kept | apply State.on_kept | apply setAcc_kept | apply accIrq_kept
    | apply showSet_kept | apply KeptA.next | split)

theorem accWritten_kept {o : Nat} {s : State} {old : Word} {w : Word} (hK : Kept q s) : Kept q (accWritten o s old
    w) := by
  unfold accWritten
  with_reducible repeat' (first
    | assumption | apply State.put_kept | apply setAcc_kept | apply accDisable_kept | apply accImport_kept
    | apply accLearn_kept | split)

theorem accWrite_kept {r : WriteReq} {s : State} (hK : Kept q s) : Kept q (accWrite r s) := by
  unfold accWrite
  with_reducible repeat' (first | assumption | apply blockWrite_kept | apply noRej_kept | apply accWritten_kept)

theorem accReset_kept {s : State} (hK : Kept q s) : Kept q (accReset s) := by
  unfold accReset
  with_reducible repeat' (first | assumption | apply State.resetBlk_kept | apply setAcc_kept)

/-! ### Timers -/

theorem State.setTm_kept {s : State} {n : Nat} {g : Tmr → Tmr} (hK : Kept q s) : Kept q (State.setTm s n g) := by
  unfold State.setTm
  with_reducible repeat' (first | assumption | apply Kept.upd)

theorem tmrOut_kept {s : State} {n : Nat} {v : Bool} (hK : Kept q s) : Kept q (tmrOut s n v) := by
  unfold tmrOut
  with_reducible repeat' (first | assumption | apply State.put_kept | apply raiseLevel_kept | apply Kept.ite)

theorem tmrIdleOut_kept {s : State} {n : Nat} (hK : Kept q s) : Kept q (tmrIdleOut s n) := by
  unfold tmrIdleOut
  with_reducible repeat' (first | assumption | apply tmrOut_kept | apply Kept.ite)

theorem tmrSetRun_kept {s : State} {n : Nat} {b : Bool} (hK : Kept q s) : Kept q (tmrSetRun s n b) := by
  unfold tmrSetRun
  with_reducible repeat' (first | assumption | apply State.put_kept | apply State.setBit_kept)

theorem tmrStart1_kept {s : State} {n : Nat} (hK : Kept q s) : Kept q (tmrStart1 s n) := by
  unfold tmrStart1
  with_reducible repeat' (first
    | assumption | apply State.put_kept | apply State.setTm_kept | apply tmrOut_kept | apply tmrSetRun_kept
    | apply Kept.ite)

theorem tmrStop1_kept {s : State} {n : Nat} (hK : Kept q s) : Kept q (tmrStop1 s n) := by
  unfold tmrStop1
  with_reducible repeat' (first | assumption | apply tmrIdleOut_kept | apply tmrSetRun_kept)

theorem tmrPair_kept {f : State → Nat → State} {s : State} {n : Nat} (hF_f : ∀ v0 v1, Kept q v0 → Kept q (f v0 v1))
    (hK : Kept q s) : Kept q (tmrPair f s n) := by
  unfold tmrPair
  with_reducible repeat' (first | assumption | apply hF_f | apply Kept.ite)

theorem tmrStart_kept {s : State} {n : Nat} (hK : Kept q s) : Kept q (tmrStart s n) := by
  unfold tmrStart
  with_reducible repeat' (first | assumption | apply tmrStart1_kept | apply tmrPair_kept)

theorem tmrStop_kept {s : State} {n : Nat} (hK : Kept q s) : Kept q (tmrStop s n) := by
  unfold tmrStop
  with_reducible repeat' (first | assumption | apply tmrStop1_kept | apply tmrPair_kept)

theorem tmrWrote_kept {s : State} {n : Nat} {en : Bool} (hK : Kept q s) : Kept q (tmrWrote s n en) := by
  unfold tmrWrote
  with_reducible repeat' (first | assumption | apply State.setTm_kept)

theorem tmrZero_kept {s : State} {n : Nat} (hK : Kept q s) : Kept q (tmrZero s n) := by
  unfold tmrZero
  with_reducible repeat' (first | assumption | apply State.put_kept | apply State.setTm_kept)

theorem tmrEdge1_kept {s : State} {n : Nat} (hK : Kept q s) : Kept q (tmrEdge1 s n) := by
  unfold tmrEdge1
  with_reducible repeat' (first
    | assumption
    | (extract_lets +onlyGivenNames x; refine (fun hx : Kept q x => ?_) ?_; rotate_left; subst x; rotate_left; clear_value x)
    | (extract_lets +onlyGivenNames x; clear_value x) | apply State.put_kept | apply raiseSrc_kept
    | apply State.setTm_kept | apply tmrOut_kept | apply tmrIdleOut_kept | apply tmrSetRun_kept | split)

theorem tmrPulseEnd_kept {s : State} {n : Nat} (hK : Kept q s) : Kept q (tmrPulseEnd s n) := by
  unfold tmrPulseEnd
  with_reducible repeat' (first | assumption | apply tmrOut_kept | apply Kept.ite)

theorem tmrEdge_kept {s : State} {n : Nat} (hK : Kept q s) : Kept q (tmrEdge s n) := by
  unfold tmrEdge
  with_reducible repeat' (first | assumption | apply tmrEdge1_kept | apply tmrPulseEnd_kept | apply Kept.ite)

theorem tmrNoEdge_kept {s : State} {n : Nat} (hK : Kept q s) : Kept q (tmrNoEdge s n) := by
  unfold tmrNoEdge
  with_reducible repeat' (first | assumption | apply tmrPulseEnd_kept | apply Kept.ite)

theorem preCount_kept {s : State} (hK : Kept q s) : Kept q (preCount s) := by
  unfold preCount
  with_reducible repeat' (first | assumption | apply Kept.upd)

theorem tmrTick_kept {s : State} (hK : Kept q s) : Kept q (tmrTick s) := by
  unfold tmrTick
  with_reducible repeat' (first
    | assumption | (intro x a hx; guard_hyp hx : Kept q x) | apply tmrEdge_kept | apply tmrNoEdge_kept
    | apply preCount_kept | apply Kept.ite | apply Kept.each)

theorem tmrCapture_kept {s : State} {n : Nat} (hK : Kept q s) : Kept q (tmrCapture s n) := by
  unfold tmrCapture
  with_reducible repeat' (first
    | assumption | apply State.put_kept | apply State.satField_kept | apply State.setTm_kept | apply Kept.ite)

theorem tmrTimeout_kept {s : State} {n : Nat} (hK : Kept q s) : Kept q (tmrTimeout s n) := by
  unfold tmrTimeout
  with_reducible repeat' (first
    | assumption | apply State.put_kept | apply raiseSrc_kept | apply State.setTm_kept | apply Kept.ite)

theorem tmrTickEnd_kept {s : State} (hK : Kept q s) : Kept q (tmrTickEnd s) := by
  unfold tmrTickEnd
  with_reducible repeat' (first
    | assumption | (intro x a hx; guard_hyp hx : Kept q x) | apply State.setTm_kept | apply tmrCapture_kept
    | apply tmrTimeout_kept | apply Kept.ite | apply Kept.each)

theorem tmrCapRead_kept {s : State} {src : Src} {n : Nat} (hK : Kept q s) : Kept q (tmrCapRead s src n) := by
  unfold tmrCapRead
  with_reducible repeat' (first
    | assumption
    | (extract_lets +onlyGivenNames x; refine (fun hx : Kept q x => ?_) ?_; rotate_left; subst x; rotate_left; clear_value x)
    | apply Kept.wr | apply State.put_kept | apply State.setTm_kept | split)

theorem tmrSnapshot_kept {s : State} {n : Nat} (hK : Kept q s) : Kept q (tmrSnapshot s n) := by
  unfold tmrSnapshot
  with_reducible repeat' (first | assumption | apply Kept.wr | apply Kept.ite)

theorem tmrRuled_kept {s : State} {n : Nat} {start : Bool} (hK : Kept q s) : Kept q (tmrRuled s n start) := by
  unfold tmrRuled
  with_reducible repeat' (first
    | assumption | apply State.setTm_kept | apply tmrPair_kept | apply tmrStart_kept | apply tmrStop_kept
    | apply tmrZero_kept | apply Kept.ite)

theorem execTimerRuleStart_kept {n : Nat} {s : State} (hK : Kept q s) : KeptA q (execTimerRuleStart n s) := by
  unfold execTimerRuleStart
  with_reducible repeat' (first | assumption | apply State.on_kept | apply tmrRuled_kept | apply KeptA.next)

theorem execTimerRuleStop_kept {n : Nat} {s : State} (hK : Kept q s) : KeptA q (execTimerRuleStop n s) := by
  unfold execTimerRuleStop
  with_reducible repeat' (first | assumption | apply State.on_kept | apply tmrRuled_kept | apply KeptA.next)

theorem tmrCapMark_kept {s : State} {n : Nat} (hK : Kept q s) : Kept q (tmrCapMark s n) := by
  unfold tmrCapMark
  with_reducible repeat' (first | assumption | apply State.setTm_kept)

theorem execTimerCaptureRule_kept {n : Nat} {s : State} (hK : Kept q s) : KeptA q (execTimerCaptureRule n s) := by
  unfold execTimerCaptureRule
  with_reducible repeat' (first
    | assumption | (intro x hx; guard_hyp hx : Kept q x) | apply State.on_kept | apply tmrCapMark_kept
    | apply KeptA.next | apply Kept.when)

theorem execTimerCaptureEdge_kept {n : Nat} {rising : Bool} {s : State} (hK : Kept q s) : KeptA q
    (execTimerCaptureEdge n rising s) := by
  unfold execTimerCaptureEdge
  with_reducible repeat' (first
    | assumption | (intro x hx; guard_hyp hx : Kept q x) | apply State.on_kept | apply tmrCapMark_kept
    | apply KeptA.next | apply Kept.when)

theorem tmrGo_kept {s : State} {mask : Word} (hK : Kept q s) : Kept q (tmrGo s mask) := by
  unfold tmrGo
  with_reducible repeat' (first
    | assumption | (intro x a hx; guard_hyp hx : Kept q x) | apply tmrStart_kept | apply tmrWrote_kept
    | apply Kept.each | apply Kept.upd)

theorem tmrCmdWritten_kept {s : State} {n : Nat} {op : Nat} (hK : Kept q s) : Kept q (tmrCmdWritten s n op) := by
  unfold tmrCmdWritten
  with_reducible repeat' (first | assumption | apply tmrStart_kept | apply tmrStop_kept | apply tmrWrote_kept | split)

theorem tmrUnlinked_kept {s : State} {n : Nat} (hK : Kept q s) : Kept q (tmrUnlinked s n) := by
  unfold tmrUnlinked
  with_reducible repeat' (first | assumption | (intro x hx; guard_hyp hx : Kept q x) | apply Kept.wr | apply Kept.when)

theorem tmrCtrlWritten_kept {s : State} {n : Nat} {old : Word} (hK : Kept q s) : Kept q (tmrCtrlWritten s n old) := by
  unfold tmrCtrlWritten
  with_reducible repeat' (first
    | assumption | (intro x hx; guard_hyp hx : Kept q x) | apply tmrIdleOut_kept | apply tmrStart_kept
    | apply tmrStop_kept | apply tmrWrote_kept | apply tmrUnlinked_kept | apply Kept.ite | apply Kept.when)

theorem tmrStatWritten_kept {s : State} {n : Nat} (hK : Kept q s) : Kept q (tmrStatWritten s n) := by
  unfold tmrStatWritten
  with_reducible repeat' (first | assumption | apply State.put_kept | apply Kept.ite)

/-! ### Lighting -/

theorem stringFreqUpdateEffect_kept {n : Nat} {istr : Nat} {vstr : Nat} {vfeed : Nat} {loss : Nat} {tj : Int}
    {maxDuty : Bool} {s : State} (hK : Kept q s) : Kept q (stringFreqUpdateEffect n istr vstr vfeed loss tj maxDuty
    s) := by
  unfold stringFreqUpdateEffect
  with_reducible repeat' (first
    | assumption | apply State.put_kept | apply State.drawn_kept | apply State.putInt_kept | apply Kept.ite)

theorem execStringFreqUpdate_kept {n : Nat} {istr : Nat} {vstr : Nat} {vfeed : Nat} {loss : Nat} {tj : Int}
    {maxDuty : Bool} {s : State} (hK : Kept q s) : KeptA q (execStringFreqUpdate n istr vstr vfeed loss tj maxDuty
    s) := by
  unfold execStringFreqUpdate
  with_reducible repeat' (first
    | assumption | apply State.on_kept | apply stringFreqUpdateEffect_kept | apply KeptA.next | apply Kept.when)

theorem stringServe_kept {n : Nat} {s : State} (hK : Kept q s) : Kept q (stringServe n s) := by
  unfold stringServe
  with_reducible repeat' (first
    | assumption | (intro x hx; guard_hyp hx : Kept q x) | apply strBegin_kept | apply Kept.when)

theorem execStringPwmBoundary_kept {n : Nat} {s : State} (hK : Kept q s) : KeptA q (execStringPwmBoundary n s) := by
  unfold execStringPwmBoundary
  with_reducible repeat' (first
    | assumption | apply State.expire_kept | apply State.on_kept | apply stringServe_kept | apply KeptA.next)

theorem execStringOpen_kept {n : Nat} {s : State} (hK : Kept q s) : KeptA q (execStringOpen n s) := by
  unfold execStringOpen
  with_reducible repeat' (first
    | assumption | (intro x hx; guard_hyp hx : Kept q x) | apply State.on_kept | apply State.setSt_kept
    | apply stFault_kept | apply KeptA.next | apply Kept.when)

theorem stringOpenRetestEffect_kept {n : Nat} {closed : Bool} {s : State} (hK : Kept q s) : Kept q
    (stringOpenRetestEffect n closed s) := by
  unfold stringOpenRetestEffect
  with_reducible repeat' (first
    | assumption | apply State.setSt_kept | apply stFault_kept | apply strDiagnosed_kept | apply Kept.ite)

theorem execStringOpenRetest_kept {n : Nat} {closed : Bool} {s : State} (hK : Kept q s) : KeptA q
    (execStringOpenRetest n closed s) := by
  unfold execStringOpenRetest
  with_reducible repeat' (first
    | assumption | apply State.on_kept | apply stringOpenRetestEffect_kept | apply KeptA.next | apply Kept.when)

theorem execStringShort_kept {n : Nat} {s : State} (hK : Kept q s) : KeptA q (execStringShort n s) := by
  unfold execStringShort
  with_reducible repeat' (first
    | assumption | (intro x hx; guard_hyp hx : Kept q x) | apply State.on_kept | apply stFault_kept | apply KeptA.next
    | apply Kept.when)

theorem execStringOutputShort_kept {n : Nat} {s : State} (hK : Kept q s) : KeptA q (execStringOutputShort n s) := by
  unfold execStringOutputShort
  with_reducible repeat' (first
    | assumption | (intro x hx; guard_hyp hx : Kept q x) | apply State.put_kept | apply State.on_kept
    | apply stFault_kept | apply strWant_kept | apply strStop_kept | apply KeptA.next | apply Kept.when)

theorem stringThermalEffect_kept {n : Nat} {hot : Bool} {s : State} (hK : Kept q s) : Kept q (stringThermalEffect n
    hot s) := by
  unfold stringThermalEffect
  with_reducible repeat' (first | assumption | apply State.setSt_kept | apply stFault_kept | apply Kept.ite)

theorem execStringThermal_kept {n : Nat} {hot : Bool} {s : State} (hK : Kept q s) : KeptA q (execStringThermal n
    hot s) := by
  unfold execStringThermal
  with_reducible repeat' (first
    | assumption | apply State.on_kept | apply stringThermalEffect_kept | apply KeptA.next | apply Kept.when)

theorem sinkPwmBoundaryEffect_kept {s : State} (hK : Kept q s) : Kept q (sinkPwmBoundaryEffect s) := by
  unfold sinkPwmBoundaryEffect
  with_reducible repeat' (first
    | assumption | (intro x a hx; guard_hyp hx : Kept q x) | apply State.setSn_kept | apply sinkBegin_kept
    | apply sinkServe_kept | apply Kept.ite | apply Kept.each | apply Kept.upd)

theorem sinkBoundaryServe_kept {s : State} (hK : Kept q s) : Kept q (sinkBoundaryServe s) := by
  unfold sinkBoundaryServe
  with_reducible repeat' (first | assumption | apply sinkPwmBoundaryEffect_kept | apply Kept.when | apply Kept.upd)

theorem execSinkPwmBoundary_kept {s : State} (hK : Kept q s) : KeptA q (execSinkPwmBoundary s) := by
  unfold execSinkPwmBoundary
  with_reducible repeat' (first
    | assumption | apply State.expire_kept | apply State.on_kept | apply sinkBoundaryServe_kept | apply KeptA.next
    | apply KeptA.go | apply Kept.upd)

theorem sinkOpenEffect_kept {n : Nat} {s : State} (hK : Kept q s) : Kept q (sinkOpenEffect n s) := by
  unfold sinkOpenEffect
  with_reducible repeat' (first
    | assumption | apply State.setBit_kept | apply mxRefreshFlt_kept | apply skFault_kept | apply Kept.ite)

theorem execSinkOpen_kept {n : Nat} {s : State} (hK : Kept q s) : KeptA q (execSinkOpen n s) := by
  unfold execSinkOpen
  with_reducible repeat' (first
    | assumption | apply State.on_kept | apply sinkOpenEffect_kept | apply KeptA.next | apply Kept.when)

theorem execSinkShort_kept {n : Nat} {s : State} (hK : Kept q s) : KeptA q (execSinkShort n s) := by
  unfold execSinkShort
  with_reducible repeat' (first
    | assumption | (intro x hx; guard_hyp hx : Kept q x) | apply State.on_kept | apply skFault_kept | apply KeptA.next
    | apply Kept.when)

theorem sinkBankThermalEffect_kept {n : Nat} {hot : Bool} {s : State} (hK : Kept q s) : Kept q
    (sinkBankThermalEffect n hot s) := by
  unfold sinkBankThermalEffect
  with_reducible repeat' (first
    | assumption | (intro x a hx; guard_hyp hx : Kept q x) | apply State.setBit_kept | apply State.setSn_kept
    | apply skFault_kept | apply Kept.ite | apply Kept.each)

theorem execSinkBankThermal_kept {n : Nat} {hot : Bool} {s : State} (hK : Kept q s) : KeptA q (execSinkBankThermal
    n hot s) := by
  unfold execSinkBankThermal
  with_reducible repeat' (first
    | assumption | apply State.on_kept | apply sinkBankThermalEffect_kept | apply KeptA.next | apply Kept.when)

theorem ageServe_kept {isSink : Bool} {n : Nat} {s : State} (hK : Kept q s) : Kept q (ageServe isSink n s) := by
  unfold ageServe
  with_reducible repeat' (first
    | assumption | (intro x hx; guard_hyp hx : Kept q x) | apply State.put_kept | apply Kept.ite | apply Kept.when)

theorem execDiagAgeExpiry_kept {isSink : Bool} {n : Nat} {s : State} (hK : Kept q s) : KeptA q (execDiagAgeExpiry
    isSink n s) := by
  unfold execDiagAgeExpiry
  with_reducible repeat' (first
    | assumption | apply State.expire_kept | apply State.on_kept | apply ageServe_kept | apply KeptA.next)

theorem offtestStartEffect_kept {isSink : Bool} {n : Nat} {s : State} (hK : Kept q s) : Kept q (offtestStartEffect
    isSink n s) := by
  unfold offtestStartEffect
  with_reducible repeat' (first | assumption | apply State.setSt_kept | apply State.setSn_kept | apply Kept.ite)

theorem execOfftestStart_kept {isSink : Bool} {n : Nat} {s : State} (hK : Kept q s) : KeptA q (execOfftestStart
    isSink n s) := by
  unfold execOfftestStart
  with_reducible repeat' (first
    | assumption | apply State.on_kept | apply offtestStartEffect_kept | apply KeptA.next | apply Kept.when)

theorem offtestEndEffect_kept {isSink : Bool} {n : Nat} {volt : Nat} {vfeed : Nat} {s : State} (hK : Kept q s) :
    Kept q (offtestEndEffect isSink n volt vfeed s) := by
  unfold offtestEndEffect
  with_reducible repeat' (first
    | assumption | apply State.setSt_kept | apply State.setSn_kept | apply stFault_kept | apply skFault_kept
    | apply strDiagnosed_kept | apply sinkDiagnosed_kept | apply Kept.ite)

theorem execOfftestEnd_kept {isSink : Bool} {n : Nat} {volt : Nat} {vfeed : Nat} {s : State} (hK : Kept q s) :
    KeptA q (execOfftestEnd isSink n volt vfeed s) := by
  unfold execOfftestEnd
  with_reducible repeat' (first
    | assumption | apply State.on_kept | apply offtestEndEffect_kept | apply KeptA.next | apply Kept.when)

theorem mxFrame_kept {s : State} (hK : Kept q s) : Kept q (mxFrame s) := by
  unfold mxFrame
  with_reducible repeat' (first
    | assumption | apply State.put_kept | apply raiseSrc_kept | apply State.setMx_kept | apply Kept.ite)

theorem mxSlot_kept {s : State} {r : Nat} (hK : Kept q s) : Kept q (mxSlot s r) := by
  unfold mxSlot
  with_reducible repeat' (first
    | assumption | (intro x a hx; guard_hyp hx : Kept q x) | apply State.put_kept | apply State.setMx_kept
    | apply sinkPlace_kept | apply sinkServe_kept | apply mxFrame_kept | apply Kept.ite | apply Kept.each)

theorem mxServe_kept {s : State} (hK : Kept q s) : Kept q (mxServe s) := by
  unfold mxServe
  with_reducible repeat' (first | assumption | apply State.setMx_kept | apply mxBlank_kept | apply Kept.ite)

theorem mxStart_kept {s : State} (hK : Kept q s) : Kept q (mxStart s) := by
  unfold mxStart
  with_reducible repeat' (first | assumption | apply mxSlot_kept)

theorem slotServe_kept {s : State} (hK : Kept q s) : Kept q (slotServe s) := by
  unfold slotServe
  with_reducible repeat' (first
    | assumption | (intro x hx; guard_hyp hx : Kept q x) | apply mxSlot_kept | apply Kept.when)

theorem execMatrixRowSlot_kept {s : State} (hK : Kept q s) : KeptA q (execMatrixRowSlot s) := by
  unfold execMatrixRowSlot
  with_reducible repeat' (first
    | assumption | apply State.expire_kept | apply State.on_kept | apply slotServe_kept | apply KeptA.next)

theorem matrixRowTripEffect_kept {s : State} (hK : Kept q s) : Kept q (matrixRowTripEffect s) := by
  unfold matrixRowTripEffect
  with_reducible repeat' (first
    | assumption | apply State.setBit_kept | apply State.setMx_kept | apply mxRefreshFlt_kept | apply Kept.ite)

theorem execMatrixRowTrip_kept {s : State} (hK : Kept q s) : KeptA q (execMatrixRowTrip s) := by
  unfold execMatrixRowTrip
  with_reducible repeat' (first
    | assumption | apply State.on_kept | apply matrixRowTripEffect_kept | apply KeptA.next | apply Kept.when)

theorem execLchRefresh_kept {s : State} (hK : Kept q s) : KeptA q (execLchRefresh s) := by
  unfold execLchRefresh
  with_reducible repeat' (first
    | assumption | apply State.on_kept | apply chainRequest_kept | apply KeptA.next | apply Kept.when)

theorem execLchFrameEnd_kept {s : State} (hK : Kept q s) : KeptA q (execLchFrameEnd s) := by
  unfold execLchFrameEnd
  with_reducible repeat' (first
    | assumption | (intro x hx; guard_hyp hx : Kept q x) | apply State.put_kept | apply State.incField_kept
    | apply State.on_kept | apply raiseSrc_kept | apply State.setChain_kept | apply KeptA.next | apply Kept.when)

theorem chainServe_kept {s : State} (hK : Kept q s) : Kept q (chainServe s) := by
  unfold chainServe
  with_reducible repeat' (first | assumption | apply chainStart_kept | apply Kept.ite)

/-! ### Ruling -/

theorem ruleAct_kept {s : State} {d : Nat} (hK : Kept q s) : Kept q (ruleAct s d) := by
  unfold ruleAct
  with_reducible repeat' (first
    | assumption | (intro x hx; guard_hyp hx : Kept q x) | apply State.put_kept | apply chainRequest_kept
    | apply wiperStart_kept | apply stkRuleFire_kept | apply stkRuleRelease_kept | apply adPulse_kept
    | apply tmrRuled_kept | apply tmrCapMark_kept | apply Kept.ite | apply Kept.when)

theorem deliver_kept {s : State} {ls : List Nat} (hK : Kept q s) : Kept q (deliver s ls) := by
  unfold deliver
  with_reducible repeat' (first
    | assumption | (intro x a hx; guard_hyp hx : Kept q x) | apply State.put_kept | apply State.mark_kept
    | apply State.setBit_kept | apply ruleAct_kept | apply Kept.ite | apply Kept.each)

theorem deliverDue_kept {s : State} {sel : Flight → Bool} (hK : Kept q s) : Kept q (deliverDue s sel) := by
  unfold deliverDue
  with_reducible repeat' (first | assumption | apply deliver_kept | apply Kept.upd)

theorem execRuleEvent_kept {code : Nat} {rising : Bool} {s : State} (hK : Kept q s) : KeptA q (execRuleEvent code
    rising s) := by
  unfold execRuleEvent
  with_reducible repeat' (first
    | assumption | apply State.on_kept | apply raiseSrc_kept | apply raiseLevel_kept | apply Kept.ite
    | apply KeptA.next)

theorem ruleSwp_kept {s : State} {w : Word} (hK : Kept q s) : Kept q (ruleSwp s w) := by
  unfold ruleSwp
  with_reducible repeat' (first | assumption | apply raiseLine_kept)

theorem ruleMuted_kept {s : State} (hK : Kept q s) : Kept q (ruleMuted s) := by
  unfold ruleMuted
  with_reducible repeat' (first | assumption | apply Kept.upd)

/-! ### MiscRegs -/

theorem tmrWritten_kept {n : Nat} {o : Nat} {s : State} {old : Word} {w : Word} (hK : Kept q s) : Kept q
    (tmrWritten n o s old w) := by
  unfold tmrWritten
  with_reducible repeat' (first
    | assumption | apply tmrCmdWritten_kept | apply tmrCtrlWritten_kept | apply tmrStatWritten_kept | apply Kept.ite)

theorem tmrGoWritten_kept {o : Nat} {s : State} {u2 : Word} {w : Word} (hK : Kept q s) : Kept q (tmrGoWritten o s
    u2 w) := by
  unfold tmrGoWritten
  with_reducible repeat' (first | assumption | apply tmrGo_kept | apply Kept.ite)

theorem tmrWrite_kept {r : WriteReq} {s : State} (hK : Kept q s) : Kept q (tmrWrite r s) := by
  unfold tmrWrite
  with_reducible repeat' (first
    | assumption | apply blockWrite_kept | apply noRej_kept | apply tmrWritten_kept | apply tmrGoWritten_kept
    | apply Kept.ite)

theorem ruleWritten_kept {o : Nat} {s : State} {u2 : Word} {w : Word} (hK : Kept q s) : Kept q (ruleWritten o s u2
    w) := by
  unfold ruleWritten
  with_reducible repeat' (first | assumption | apply ruleSwp_kept | apply ruleMuted_kept | apply Kept.ite)

theorem ruleWrite_kept {r : WriteReq} {s : State} (hK : Kept q s) : Kept q (ruleWrite r s) := by
  unfold ruleWrite
  with_reducible repeat' (first | assumption | apply blockWrite_kept | apply noRej_kept | apply ruleWritten_kept)

theorem inpWritten_kept {o : Nat} {s : State} {old : Word} {w : Word} (hK : Kept q s) : Kept q (inpWritten o s old
    w) := by
  unfold inpWritten
  with_reducible repeat' (first
    | assumption | apply adEnable_kept | apply adDisable_kept | apply inpOnWritten_kept | apply inpEdgeWritten_kept
    | apply Kept.ite)

theorem inpWrite_kept {r : WriteReq} {s : State} (hK : Kept q s) : Kept q (inpWrite r s) := by
  unfold inpWrite
  with_reducible repeat' (first | assumption | apply blockWrite_kept | apply noRej_kept | apply inpWritten_kept)

end Sys2Proof.Laws
end

