-- ==== Sys2Proof/Laws/KeepCore.lean ====
section
/-! SUPPORT. What every meaning keeps (`Kept` and `KeptA` of Laws/Keep.lean), one lemma per definition: the cores' control, the vault, folio loading, safety, resets and boot. -/

namespace Sys2Proof.Laws
open Machine

variable {q : List Instr}

/-! ### Operands -/

theorem State.setReg_kept {s : State} {c : CoreId} {r : Reg} {v : Word} (hK : Kept q s) : Kept q (State.setReg s c
    r v) := by
  unfold State.setReg
  with_reducible repeat' (first
    | assumption | with_unfolding_all exact fun _ => Or.inl Core.setReg_length | apply Kept.setCore)

theorem State.advance_kept {s : State} {c : CoreId} (hK : Kept q s) : Kept q (State.advance s c) := by
  unfold State.advance
  with_reducible repeat' (first | assumption | with_unfolding_all exact fun _ => Or.inl rfl | apply Kept.setCore)

theorem State.aluDone_kept {s : State} {c : CoreId} {wd : Reg} {a : Alu} (hK : Kept q s) : Kept q (State.aluDone s
    c wd a) := by
  unfold State.aluDone
  with_reducible repeat' (first
    | assumption | with_unfolding_all exact fun _ => Or.inl Core.setReg_length | apply Kept.setCore)

theorem State.regDone_kept {s : State} {c : CoreId} {wd : Reg} {v : Word} (hK : Kept q s) : Kept q (State.regDone s
    c wd v) := by
  unfold State.regDone
  with_reducible repeat' (first
    | assumption | with_unfolding_all exact fun _ => Or.inl Core.setReg_length | apply Kept.setCore)

theorem enterExc_kept {s : State} {c : Nat} {epc : Word} {ecause : Word} {eaddr : Word} {isInt : Bool} {sres :
    Bool} (hK : Kept q s) : Kept q (enterExc s c epc ecause eaddr isInt sres) := by
  unfold enterExc
  with_reducible repeat' (first | assumption | with_unfolding_all exact fun _ => Or.inl rfl | apply Kept.setCore)

theorem raiseExc_kept {s : State} {c : CoreId} {e : Exc} {sub : Nat} {info : Nat} {epc : Word} {eaddr : Word} (hK :
    Kept q s) : Kept q (raiseExc s c e sub info epc eaddr) := by
  unfold raiseExc
  with_reducible repeat' (first
    | assumption | apply haltCore_kept | apply safeDetect_kept | apply enterExc_kept | apply Kept.ite)

theorem State.trap_kept {s : State} {c : CoreId} {e : Exc} (hK : Kept q s) : Kept q (State.trap s c e) := by
  unfold State.trap
  with_reducible repeat' (first | assumption | apply raiseExc_kept)

theorem State.fault_kept {s : State} {c : CoreId} {e : Exc} {sub : Nat} {a : Word} (hK : Kept q s) : Kept q
    (State.fault s c e sub a) := by
  unfold State.fault
  with_reducible repeat' (first | assumption | apply raiseExc_kept)

theorem fetchRaise_kept {s : State} {c : CoreId} {f : Exc × Nat} (hK : Kept q s) : Kept q (fetchRaise s c f) := by
  unfold fetchRaise
  with_reducible repeat' (first
    | assumption | apply State.fabErr_kept | apply eccFault_kept | apply State.trap_kept | apply State.fault_kept
    | split)

theorem issue_kept {c : CoreId} {s : State} {f : State → State} (hK : Kept q s) (hF_f : ∀ v0, Kept q v0 → Kept q (f
    v0)) : KeptA q (issue c s f) := by
  unfold issue
  with_reducible repeat' (first | assumption | apply hF_f | apply fetchRaise_kept | apply KeptA.next | split)

theorem issueIf_kept {c : CoreId} {legal : Bool} {s : State} {f : State → State} (hK : Kept q s) (hF_f : ∀ v0, Kept
    q v0 → Kept q (f v0)) : KeptA q (issueIf c legal s f) := by
  unfold issueIf
  with_reducible repeat' (first
    | assumption | (intro x hx; guard_hyp hx : Kept q x) | apply hF_f | apply State.trap_kept | apply issue_kept
    | apply Kept.ite)

theorem issuePriv_kept {c : CoreId} {legal : Bool} {s : State} {f : State → State} (hK : Kept q s) (hF_f : ∀ v0,
    Kept q v0 → Kept q (f v0)) : KeptA q (issuePriv c legal s f) := by
  unfold issuePriv
  with_reducible repeat' (first
    | assumption | (intro x hx; guard_hyp hx : Kept q x) | apply hF_f | apply State.trap_kept | apply issueIf_kept
    | apply Kept.ite)

theorem alu2_kept {op : Word → Word → Bool → Alu} {c : CoreId} {wd : Reg} {wa : Reg} {wb : Reg} {s : State} (hK :
    Kept q s) : KeptA q (alu2 op c wd wa wb s) := by
  unfold alu2
  with_reducible repeat' (first
    | assumption | (intro x hx; guard_hyp hx : Kept q x) | apply State.aluDone_kept | apply issue_kept)

theorem alu1_kept {legal : Bool} {op : Word → Alu} {c : CoreId} {wd : Reg} {wa : Reg} {s : State} (hK : Kept q s) :
    KeptA q (alu1 legal op c wd wa s) := by
  unfold alu1
  with_reducible repeat' (first
    | assumption | (intro x hx; guard_hyp hx : Kept q x) | apply State.aluDone_kept | apply issueIf_kept)

/-! ### Control -/

theorem State.jump_kept {s : State} {c : CoreId} {t : Word} (hK : Kept q s) : Kept q (State.jump s c t) := by
  unfold State.jump
  with_reducible repeat' (first | assumption | with_unfolding_all exact fun _ => Or.inl rfl | apply Kept.setCore)

theorem execBr_kept {c : CoreId} {cond : BitVec 4} {off : BitVec 24} {s : State} (hK : Kept q s) : KeptA q (execBr
    c cond off s) := by
  unfold execBr
  with_reducible repeat' (first
    | assumption | (intro x hx; guard_hyp hx : Kept q x) | apply issueIf_kept | apply State.jump_kept)

theorem execJal_kept {c : CoreId} {wl : Reg} {off : BitVec 23} {s : State} (hK : Kept q s) : KeptA q (execJal c wl
    off s) := by
  unfold execJal
  with_reducible repeat' (first
    | assumption | (intro x hx; guard_hyp hx : Kept q x) | apply State.setReg_kept | apply issue_kept
    | apply State.jump_kept)

theorem execJalr_kept {c : CoreId} {wd : Reg} {wa : Reg} {imm : BitVec 18} {s : State} (hK : Kept q s) : KeptA q
    (execJalr c wd wa imm s) := by
  unfold execJalr
  with_reducible repeat' (first
    | assumption | (intro x hx; guard_hyp hx : Kept q x) | apply State.setReg_kept | apply State.trap_kept
    | apply issue_kept | apply State.jump_kept | apply Kept.ite)

theorem execNop_kept {c : CoreId} {s : State} (hK : Kept q s) : KeptA q (execNop c s) := by
  unfold execNop
  with_reducible repeat' (first
    | assumption | (intro x hx; guard_hyp hx : Kept q x) | apply State.advance_kept | apply issue_kept)

theorem execWait_kept {c : CoreId} {s : State} (hK : Kept q s) : KeptA q (execWait c s) := by
  unfold execWait
  with_reducible repeat' (first
    | assumption | with_unfolding_all exact fun _ => Or.inl rfl | (intro x hx; guard_hyp hx : Kept q x)
    | apply State.advance_kept | apply issuePriv_kept | apply Kept.setCore | apply Kept.upd)

theorem execSys_kept {c : CoreId} {imm : BitVec 18} {s : State} (hK : Kept q s) : KeptA q (execSys c imm s) := by
  unfold execSys
  with_reducible repeat' (first
    | assumption | (intro x hx; guard_hyp hx : Kept q x) | apply raiseExc_kept | apply issue_kept)

theorem sealDeliver_kept {s : State} {c : Nat} {w1 : Word} {z : Bool} (hK : Kept q s) : Kept q (sealDeliver s c w1
    z) := by
  unfold sealDeliver
  with_reducible repeat' (first
    | assumption | with_unfolding_all exact fun _ => Or.inl Core.setReg_length | apply Kept.setCore)

theorem execRfe_kept {c : CoreId} {s : State} (hK : Kept q s) : KeptA q (execRfe c s) := by
  unfold execRfe
  with_reducible repeat' (first
    | assumption | with_unfolding_all exact fun _ => Or.inl rfl | (intro x hx; guard_hyp hx : Kept q x)
    | (extract_lets +onlyGivenNames x; refine (fun hx : Kept q x => ?_) ?_; rotate_left; subst x; rotate_left; clear_value x)
    | (extract_lets +onlyGivenNames x; clear_value x) | apply issuePriv_kept | apply sealDeliver_kept
    | apply Kept.setCore | split)

theorem execMfs_kept {c : CoreId} {wd : Reg} {num : BitVec 18} {s : State} (hK : Kept q s) : KeptA q (execMfs c wd
    num s) := by
  unfold execMfs
  with_reducible repeat' (first
    | assumption | (intro x hx; guard_hyp hx : Kept q x) | apply State.regDone_kept | apply State.trap_kept
    | apply issueIf_kept | apply Kept.ite)

theorem sysWrite_length {k : Core} {n : Nat} {v : Word} : (sysWrite k n v).regs.length = k.regs.length := by
  unfold sysWrite; split <;> (repeat' split) <;> rfl
theorem execMts_kept {c : CoreId} {wa : Reg} {num : BitVec 18} {s : State} (hK : Kept q s) : KeptA q (execMts c wa num s) :=
  issueIf_kept hK fun _ h => Kept.ite (State.trap_kept h) (Kept.ite (State.trap_kept h)
    (State.advance_kept (Kept.setCore h fun _ => Or.inl sysWrite_length)))

theorem execCacheInvalidateIRange_kept {c : CoreId} {wa : Reg} {wb : Reg} {s : State} (hK : Kept q s) : KeptA q
    (execCacheInvalidateIRange c wa wb s) := by
  unfold execCacheInvalidateIRange
  with_reducible repeat' (first
    | assumption | with_unfolding_all exact fun _ => Or.inl rfl | (intro x hx; guard_hyp hx : Kept q x)
    | apply State.advance_kept | apply issuePriv_kept | apply Kept.setCore)

theorem execCacheInvalidateDRange_kept {c : CoreId} {wa : Reg} {wb : Reg} {s : State} (hK : Kept q s) : KeptA q
    (execCacheInvalidateDRange c wa wb s) := by
  unfold execCacheInvalidateDRange
  with_reducible repeat' (first
    | assumption | with_unfolding_all exact fun _ => Or.inl rfl | (intro x hx; guard_hyp hx : Kept q x)
    | apply State.advance_kept | apply issuePriv_kept | apply Kept.setCore)

theorem execCacheInvalidateIAll_kept {c : CoreId} {s : State} (hK : Kept q s) : KeptA q (execCacheInvalidateIAll c
    s) := by
  unfold execCacheInvalidateIAll
  with_reducible repeat' (first
    | assumption | with_unfolding_all exact fun _ => Or.inl rfl | (intro x hx; guard_hyp hx : Kept q x)
    | apply State.advance_kept | apply issuePriv_kept | apply Kept.setCore)

theorem execCacheInvalidateDAll_kept {c : CoreId} {s : State} (hK : Kept q s) : KeptA q (execCacheInvalidateDAll c
    s) := by
  unfold execCacheInvalidateDAll
  with_reducible repeat' (first
    | assumption | with_unfolding_all exact fun _ => Or.inl rfl | (intro x hx; guard_hyp hx : Kept q x)
    | apply State.advance_kept | apply issuePriv_kept | apply Kept.setCore)

theorem execUx_kept {c : CoreId} {n : Fin 16} {wd wa wb : Reg} {fn : BitVec 13} {s : State} (hK : Kept q s) :
    KeptA q (execUx c n wd wa wb fn s) :=
  issueIf_kept hK fun _ h => State.advance_kept (Kept.setCore h fun k => Or.inl (by
    dsimp only; split
    · exact Core.setReg_length
    · rfl))

/-! ### Vault -/

theorem putTag_kept {s : State} {os : List Nat} (hK : Kept q s) : Kept q (putTag s os) := by
  unfold putTag
  with_reducible repeat' (first
    | assumption | (intro x a hx; guard_hyp hx : Kept q x) | apply State.put_kept | apply Kept.each)

theorem cryptOut_kept {s : State} {os : List Nat} (hK : Kept q s) : Kept q (cryptOut s os) := by
  unfold cryptOut
  with_reducible repeat' (first | assumption | apply State.dmaPut_kept | apply Kept.upd)

theorem cryptAbort_kept {s : State} (hK : Kept q s) : Kept q (cryptAbort s) := by
  unfold cryptAbort
  with_reducible repeat' (first
    | assumption | apply State.put_kept | apply State.drawn_kept | apply cryptOut_kept | apply Kept.ite)

theorem cryptEnd_kept {s : State} (hK : Kept q s) : Kept q (cryptEnd s) := by
  unfold cryptEnd
  with_reducible repeat' (first | assumption | apply State.put_kept)

theorem cryptGcm_kept {s : State} {key : List Nat} (hK : Kept q s) : Kept q (cryptGcm s key) := by
  unfold cryptGcm
  with_reducible repeat' (first
    | assumption | apply State.put_kept | apply State.dmaPut_kept | apply putTag_kept | apply cryptOut_kept
    | apply Kept.ite)

theorem cryptMac_kept {s : State} {key : List Nat} (hK : Kept q s) : Kept q (cryptMac s key) := by
  unfold cryptMac
  with_reducible repeat' (first
    | assumption | apply State.put_kept | apply putTag_kept | apply Kept.ite | apply Kept.upd)

theorem execCryptJobDone_kept {s : State} (hK : Kept q s) : KeptA q (execCryptJobDone s) := by
  unfold execCryptJobDone
  with_reducible repeat' (first
    | assumption | (intro x hx; guard_hyp hx : Kept q x) | apply State.on_kept | apply cryptEnd_kept
    | apply cryptGcm_kept | apply cryptMac_kept | apply Kept.ite | apply KeptA.next | apply Kept.when)

theorem cryptWritten_kept {o : Nat} {s : State} {u2 : Word} {w : Word} (hK : Kept q s) : Kept q (cryptWritten o s
    u2 w) := by
  unfold cryptWritten
  with_reducible repeat' (first | assumption | apply State.put_kept | apply Kept.ite)

theorem cryptWrite_kept {r : WriteReq} {s : State} (hK : Kept q s) : Kept q (cryptWrite r s) := by
  unfold cryptWrite
  with_reducible repeat' (first | assumption | apply blockWrite_kept | apply noRej_kept | apply cryptWritten_kept)

theorem vaultDone_kept {s : State} {err : Nat} (hK : Kept q s) : Kept q (vaultDone s err) := by
  unfold vaultDone
  with_reducible repeat' (first | assumption | apply State.put_kept | apply Kept.ite)

theorem clearSlot_kept {s : State} {n : Nat} (hK : Kept q s) : Kept q (clearSlot s n) := by
  unfold clearSlot
  with_reducible repeat' (first
    | assumption | apply Kept.wr | apply setVault_kept | apply accKeyLost_kept | apply cryptAbort_kept
    | apply Kept.when)

theorem dropLoad_kept {s : State} {code : Nat} (hK : Kept q s) : Kept q (dropLoad s code) := by
  unfold dropLoad
  with_reducible repeat' (first | assumption | apply setVault_kept | apply vaultDone_kept | split)

theorem clearSlots_kept {s : State} {code : Nat} (hK : Kept q s) : Kept q (clearSlots s code) := by
  unfold clearSlots
  with_reducible repeat' (first
    | assumption | (intro x a hx; guard_hyp hx : Kept q x) | apply clearSlot_kept | apply dropLoad_kept
    | apply Kept.each)

theorem setLc_kept {s : State} {st : Nat} (hK : Kept q s) : Kept q (setLc s st) := by
  unfold setLc
  with_reducible repeat' (first
    | assumption | (intro x hx; guard_hyp hx : Kept q x) | (intro x a hx; guard_hyp hx : Kept q x)
    | (extract_lets +onlyGivenNames x; refine (fun hx : Kept q x => ?_) ?_; rotate_left; subst x; rotate_left; clear_value x)
    | apply State.put_kept | apply setVault_kept | apply cryptAbort_kept | apply clearSlot_kept | apply dropLoad_kept
    | apply Kept.when | apply Kept.each | split)

theorem execKeyLoadDone_kept {s : State} (hK : Kept q s) : KeptA q (execKeyLoadDone s) := by
  unfold execKeyLoadDone
  with_reducible repeat' (first
    | assumption | apply State.on_kept | apply setVault_kept | apply fillSlot_kept | apply accKeyLost_kept
    | apply cryptAbort_kept | apply vaultDone_kept | apply dropLoad_kept | apply KeptA.next | apply Kept.when | split)

theorem tamper_kept {s : State} {t : Nat} (hK : Kept q s) : Kept q (tamper s t) := by
  unfold tamper
  with_reducible repeat' (first
    | assumption | apply State.put_kept | apply updateGact_kept | apply haltCore_kept | apply setVault_kept
    | apply setAcc_kept | apply clearSlots_kept | apply setLc_kept | apply Kept.upd)

theorem execTamperDetect_kept {t : Fin 6} {s : State} (hK : Kept q s) : KeptA q (execTamperDetect t s) := by
  unfold execTamperDetect
  with_reducible repeat' (first
    | assumption | (intro x hx; guard_hyp hx : Kept q x) | apply tamper_kept | apply KeptA.next | apply KeptA.go
    | apply Kept.when | apply Kept.upd)

theorem execTamperEraseDone_kept {s : State} (hK : Kept q s) : KeptA q (execTamperEraseDone s) := by
  unfold execTamperEraseDone
  with_reducible repeat' (first
    | assumption | (intro x hx; guard_hyp hx : Kept q x) | apply signetMemClear_kept | apply setVault_kept
    | apply KeptA.next | apply Kept.when | apply Kept.upd)

theorem execReservoirCharged_kept {s : State} (hK : Kept q s) : KeptA q (execReservoirCharged s) := by
  unfold execReservoirCharged
  with_reducible repeat' (first | assumption | apply State.put_kept | apply KeptA.next)

theorem execReservoirLow_kept {s : State} (hK : Kept q s) : KeptA q (execReservoirLow s) := by
  unfold execReservoirLow
  with_reducible repeat' (first | assumption | apply State.put_kept | apply clearSlots_kept | apply KeptA.next)

theorem lcCommand_kept {s : State} {src : Src} {op : Nat} {dur : Nat} (hK : Kept q s) : Kept q (lcCommand s src op
    dur) := by
  unfold lcCommand
  with_reducible repeat' (first
    | assumption | (intro x a hx; guard_hyp hx : Kept q x) | apply State.put_kept | apply State.drawn_kept
    | apply setVault_kept | apply vaultDone_kept | apply setLc_kept | apply tamper_kept | apply Kept.each | split)

theorem execLcSignatureVerified_kept {s : State} (hK : Kept q s) : KeptA q (execLcSignatureVerified s) := by
  unfold execLcSignatureVerified
  with_reducible repeat' (first
    | assumption | apply State.put_kept | apply State.reject_kept | apply State.on_kept | apply setVault_kept
    | apply vaultDone_kept | apply setLc_kept | apply KeptA.next | split)

theorem chalServe_kept {s : State} (hK : Kept q s) : Kept q (chalServe s) := by
  unfold chalServe
  with_reducible repeat' (first
    | assumption | (intro x hx; guard_hyp hx : Kept q x) | apply setVault_kept | apply Kept.when)

theorem execChallengeExpiry_kept {s : State} (hK : Kept q s) : KeptA q (execChallengeExpiry s) := by
  unfold execChallengeExpiry
  with_reducible repeat' (first
    | assumption | apply State.expire_kept | apply State.on_kept | apply chalServe_kept | apply KeptA.next)

theorem execServiceTimeEnd_kept {s : State} (hK : Kept q s) : KeptA q (execServiceTimeEnd s) := by
  unfold execServiceTimeEnd
  with_reducible repeat' (first
    | assumption | (intro x hx; guard_hyp hx : Kept q x) | apply setLc_kept | apply KeptA.next | apply Kept.when)

theorem serviceTick_kept {s : State} (hK : Kept q s) : Kept q (serviceTick s) := by
  unfold serviceTick
  with_reducible repeat' (first | assumption | apply State.put_kept | apply setVault_kept | apply Kept.ite)

theorem keyCommand_kept {s : State} {w : Word} (hK : Kept q s) : Kept q (keyCommand s w) := by
  unfold keyCommand
  with_reducible repeat' (first
    | assumption | apply Kept.wr | apply State.put_kept | apply setVault_kept | apply vaultDone_kept
    | apply clearSlot_kept | split)

theorem sealAnswer_kept {s : State} {c : Nat} {w : Word} {z : Bool} (hK : Kept q s) : Kept q (sealAnswer s c w z) := by
  unfold sealAnswer
  with_reducible repeat' (first
    | assumption | with_unfolding_all exact fun _ => Or.inl rfl | apply sealDeliver_kept | apply Kept.ite
    | apply Kept.setCore)

theorem sealReply_kept {s : State} {c : Nat} (hK : Kept q s) : Kept q (sealReply s c) := by
  unfold sealReply
  with_reducible repeat' (first
    | assumption | (intro x hx; guard_hyp hx : Kept q x) | apply State.put_kept | apply sealAnswer_kept
    | apply Kept.when)

theorem callServe_kept {c : Nat} {s : State} (hK : Kept q s) : Kept q (callServe c s) := by
  unfold callServe
  with_reducible repeat' (first
    | assumption | (intro x hx; guard_hyp hx : Kept q x) | apply State.put_kept | apply sealAnswer_kept
    | apply Kept.when)

theorem execSealCallTimeout_kept {c : Fin 4} {s : State} (hK : Kept q s) : KeptA q (execSealCallTimeout c s) := by
  unfold execSealCallTimeout
  with_reducible repeat' (first
    | assumption | apply State.expire_kept | apply State.on_kept | apply callServe_kept | apply KeptA.next)

theorem abandonCalls_kept {s : State} {cs : List Nat} (hK : Kept q s) : Kept q (abandonCalls s cs) := by
  unfold abandonCalls
  with_reducible repeat' (first
    | assumption | (intro x hx; guard_hyp hx : Kept q x) | (intro x a hx; guard_hyp hx : Kept q x)
    | apply State.put_kept | apply Kept.when | apply Kept.each)

theorem vaultWritten_kept {r : WriteReq} {s : State} {u2 : Word} {w : Word} (hK : Kept q s) : Kept q (vaultWritten
    r s u2 w) := by
  unfold vaultWritten
  with_reducible repeat' (first
    | assumption | apply lcCommand_kept | apply keyCommand_kept | apply sealReply_kept | apply Kept.ite)

theorem vaultWrite_kept {r : WriteReq} {s : State} (hK : Kept q s) : Kept q (vaultWrite r s) := by
  unfold vaultWrite
  with_reducible repeat' (first
    | assumption | (intro x a hx; guard_hyp hx : Kept q x) | apply State.put_kept | apply blockWrite_kept
    | apply vaultWritten_kept | apply Kept.ite)

theorem vaultPages_kept {s : State} (hK : Kept q s) : Kept q (vaultPages s) := by
  unfold vaultPages
  with_reducible repeat' (first | assumption | apply Kept.resetRange | apply State.resetBlk_kept | apply setVault_kept)

theorem vaultReset_kept {s : State} {por : Bool} (hK : Kept q s) : Kept q (vaultReset s por) := by
  unfold vaultReset
  with_reducible repeat' (first
    | assumption | (intro x hx; guard_hyp hx : Kept q x) | (intro x a hx; guard_hyp hx : Kept q x)
    | apply State.put_kept | apply signetMemClear_kept | apply setVault_kept | apply cryptAbort_kept
    | apply clearSlots_kept | apply setLc_kept | apply vaultPages_kept | apply Kept.ite | apply Kept.when
    | apply Kept.each)

theorem loadSlot31_kept {s : State} (hK : Kept q s) : Kept q (loadSlot31 s) := by
  unfold loadSlot31
  with_reducible repeat' (first | assumption | apply fillSlot_kept)

theorem vaultRefold_kept {s : State} (hK : Kept q s) : Kept q (vaultRefold s) := by
  unfold vaultRefold
  with_reducible repeat' (first
    | assumption | (intro x a hx; guard_hyp hx : Kept q x) | apply cryptAbort_kept | apply clearSlot_kept
    | apply dropLoad_kept | apply vaultPages_kept | apply loadSlot31_kept | apply Kept.when | apply Kept.each)

/-! ### FolioLoad -/

theorem loadHeader_kept {s : State} (hK : Kept q s) : Kept q (loadHeader s) := by
  unfold loadHeader
  with_reducible repeat' (first
    | assumption | (intro x a hx; guard_hyp hx : Kept q x) | apply Kept.wr | apply Kept.each)

theorem loadChan_kept {s : State} {f : Nat} (hK : Kept q s) : Kept q (loadChan s f) := by
  unfold loadChan
  with_reducible repeat' (first
    | assumption
    | (extract_lets +onlyGivenNames x; refine (fun hx : Kept q x => ?_) ?_; rotate_left; subst x; rotate_left; clear_value x)
    | (extract_lets +onlyGivenNames x; clear_value x) | apply Kept.wr | apply State.put_kept | split)

theorem loadLight_kept {s : State} (hK : Kept q s) : Kept q (loadLight s) := by
  unfold loadLight
  with_reducible repeat' (first
    | assumption | (intro x a hx; guard_hyp hx : Kept q x) | apply State.put_kept | apply Kept.ite | apply Kept.each)

theorem loadStrings_kept {s : State} (hK : Kept q s) : Kept q (loadStrings s) := by
  unfold loadStrings
  with_reducible repeat' (first
    | assumption | (intro x a hx; guard_hyp hx : Kept q x) | apply State.put_kept | apply Kept.each)

theorem loadInputs_kept {s : State} (hK : Kept q s) : Kept q (loadInputs s) := by
  unfold loadInputs
  with_reducible repeat' (first
    | assumption | (intro x a hx; guard_hyp hx : Kept q x) | apply Kept.wr | apply Kept.each)

theorem loadRules_kept {s : State} (hK : Kept q s) : Kept q (loadRules s) := by
  unfold loadRules
  with_reducible repeat' (first
    | assumption | (intro x a hx; guard_hyp hx : Kept q x) | apply Kept.wr | apply State.put_kept | apply Kept.each
    | split)

theorem loadNet_kept {s : State} (hK : Kept q s) : Kept q (loadNet s) := by
  unfold loadNet
  with_reducible repeat' (first
    | assumption | (intro x a hx; guard_hyp hx : Kept q x) | apply State.put_kept | apply Kept.each)

theorem loadStruct_kept {s : State} (hK : Kept q s) : Kept q (loadStruct s) := by
  unfold loadStruct
  with_reducible repeat' (first
    | assumption | apply State.put_kept | apply updateGact_kept | apply loadHeader_kept | apply loadChan_kept
    | apply loadLight_kept | apply loadInputs_kept | apply loadRules_kept | apply loadNet_kept | apply Kept.each)

theorem chanBefore_kept {new : Sects} {s : State} {f : Nat} (hK : Kept q s) : Kept q (chanBefore new s f) := by
  unfold chanBefore
  with_reducible repeat' (first
    | assumption | (intro x hx; guard_hyp hx : Kept q x) | apply State.setCh_kept | apply setChState_kept
    | apply showDp_kept | apply allOff_kept | apply stopOwner_kept | apply safeValue_kept | apply enterSafe_kept
    | apply Kept.ite | apply Kept.when)

theorem pageReset_kept {s : State} {f : Nat} (hK : Kept q s) : Kept q (pageReset s f) := by
  unfold pageReset
  with_reducible repeat' (first | assumption | apply Kept.resetRange)

theorem pageUnused_kept {s : State} {f : Nat} (hK : Kept q s) : Kept q (pageUnused s f) := by
  unfold pageUnused
  with_reducible repeat' (first | assumption | apply Kept.resetRange | apply State.setCh_kept | apply setUnclaimed_kept)

theorem chanAfter_kept {old : Sects} {s : State} {f : Nat} (hK : Kept q s) : Kept q (chanAfter old s f) := by
  unfold chanAfter
  with_reducible repeat' (first
    | assumption | (intro x hx; guard_hyp hx : Kept q x) | apply Kept.wr | apply State.put_kept
    | apply State.setCh_kept | apply setChState_kept | apply setUnclaimed_kept | apply showDp_kept
    | apply refreshFlt_kept | apply settle_kept | apply safeValue_kept | apply Kept.ite | apply Kept.when)

theorem enginesAfter_kept {old : Sects} {s : State} (hK : Kept q s) : Kept q (enginesAfter old s) := by
  unfold enginesAfter
  with_reducible repeat' (first
    | assumption | (intro x a hx; guard_hyp hx : Kept q x) | apply Kept.resetRange | apply State.setMo_kept
    | apply State.setSk_kept | apply Kept.each)

theorem lightBefore_kept {s : State} {ts : List Target} (hK : Kept q s) : Kept q (lightBefore s ts) := by
  unfold lightBefore
  with_reducible repeat' (first | assumption | apply lightSafe_kept | apply Kept.each)

theorem lightUnused_kept {s : State} {t : Target} (hK : Kept q s) : Kept q (lightUnused s t) := by
  unfold lightUnused
  with_reducible repeat' (first
    | assumption | apply Kept.resetRange | apply State.resetBlk_kept | apply State.setBit_kept | apply State.setSt_kept
    | apply State.setSn_kept | apply State.setChain_kept | apply lgtRefreshFlt_kept | split)

theorem lightPage_kept {s : State} {t : Target} (hK : Kept q s) : Kept q (lightPage s t) := by
  unfold lightPage
  with_reducible repeat' (first
    | assumption | apply Kept.resetRange | apply State.resetBlk_kept | apply State.setSt_kept | apply State.setSn_kept
    | apply State.setChain_kept | apply lightUnused_kept | split)

theorem lightAfter_kept {s : State} {t : Target} (hK : Kept q s) : Kept q (lightAfter s t) := by
  unfold lightAfter
  with_reducible repeat' (first
    | assumption | apply State.put_kept | apply tgtUncl_kept | apply lgtRefreshFlt_kept | apply lightSafe_kept | split)

theorem lightRelite_kept {s : State} (hK : Kept q s) : Kept q (lightRelite s) := by
  unfold lightRelite
  with_reducible repeat' (first
    | assumption | (intro x a hx; guard_hyp hx : Kept q x) | apply Kept.wr | apply State.put_kept
    | apply State.resetBlk_kept | apply lgtRefreshFlt_kept | apply Kept.each | apply Kept.upd)

theorem loadBefore_kept {s : State} {new : Sects} {relight : Bool} (hK : Kept q s) : Kept q (loadBefore s new
    relight) := by
  unfold loadBefore
  with_reducible repeat' (first | assumption | apply chanBefore_kept | apply lightBefore_kept | apply Kept.each)

theorem loadRewrite_kept {s : State} {new : FolioSt} {relight : Bool} (hK : Kept q s) : Kept q (loadRewrite s new
    relight) := by
  unfold loadRewrite
  with_reducible repeat' (first
    | assumption | (intro x hx; guard_hyp hx : Kept q x) | (intro x a hx; guard_hyp hx : Kept q x)
    | apply State.incField_kept | apply reholds_kept | apply loadStrings_kept | apply loadStruct_kept
    | apply pageReset_kept | apply pageUnused_kept | apply chanAfter_kept | apply enginesAfter_kept
    | apply lightPage_kept | apply lightAfter_kept | apply lightRelite_kept | apply Kept.ite | apply Kept.when
    | apply Kept.each | apply Kept.upd)

theorem loadCold_kept {s : State} {new : FolioSt} (hK : Kept q s) : Kept q (loadCold s new) := by
  unfold loadCold
  with_reducible repeat' (first
    | assumption | (intro x hx; guard_hyp hx : Kept q x) | (intro x a hx; guard_hyp hx : Kept q x)
    | apply State.incField_kept | apply setChState_kept | apply settle_kept | apply reholds_kept
    | apply loadStrings_kept | apply loadStruct_kept | apply pageUnused_kept | apply Kept.when | apply Kept.each
    | apply Kept.upd)

/-! ### Safe -/

theorem healBad_kept {s : State} {a : Nat} {n : Nat} (hK : Kept q s) : Kept q (healBad s a n) := by
  unfold healBad
  with_reducible repeat' (first | assumption | apply Kept.upd)

theorem lightDark_kept {s : State} (hK : Kept q s) : Kept q (lightDark s) := by
  unfold lightDark
  with_reducible repeat' (first | assumption | apply Kept.upd)

theorem pll1LossEffect_kept {crystal : Bool} {s : State} (hK : Kept q s) : Kept q (pll1LossEffect crystal s) := by
  unfold pll1LossEffect
  with_reducible repeat' (first
    | assumption | with_unfolding_all exact fun _ => Or.inl rfl | (intro x a hx; guard_hyp hx : Kept q x)
    | apply State.put_kept | apply State.setReady_kept | apply safeDetect_kept | apply setPwr_kept
    | apply lightDark_kept | apply Kept.each | apply Kept.mapCores)

theorem testFailed_kept {s : State} {t : Nat} (hK : Kept q s) : Kept q (testFailed s t) := by
  unfold testFailed
  with_reducible repeat' (first | assumption | apply State.setBit_kept | apply updateGact_kept | apply safeDetect_kept)

theorem classFault_kept {s : State} {cls : Nat} {idx : Nat} {a : Nat} (hK : Kept q s) : Kept q (classFault s cls
    idx a) := by
  unfold classFault
  with_reducible repeat' (first
    | assumption | (intro x hx; guard_hyp hx : Kept q x) | apply State.put_kept | apply State.setCh_kept
    | apply chanSafe_kept | apply haltCore_kept | apply safeDetect_kept | apply eccFault_kept | apply accDisable_kept
    | apply pll1LossEffect_kept | apply testFailed_kept | apply Kept.when | split)

theorem execSafeFaultDetect_kept {cls : Fin 16} {idx : BitVec 7} {a : Nat} {s : State} (hK : Kept q s) : KeptA q
    (execSafeFaultDetect cls idx a s) := by
  unfold execSafeFaultDetect
  with_reducible repeat' (first
    | assumption | (intro x hx; guard_hyp hx : Kept q x) | apply classFault_kept | apply KeptA.next | apply Kept.when)

theorem execLockstepMismatch_kept {who : Fin 3} {s : State} (hK : Kept q s) : KeptA q (execLockstepMismatch who s) := by
  unfold execLockstepMismatch
  with_reducible repeat' (first | assumption | apply classFault_kept | apply KeptA.next)

theorem execVoterSelfTest_kept {failed : Option (Fin 128)} {s : State} (hK : Kept q s) : KeptA q (execVoterSelfTest
    failed s) := by
  unfold execVoterSelfTest
  with_reducible repeat' (first
    | assumption | apply dropCause_kept | apply safeDetect_kept | apply testPassed_kept | apply testFailed_kept
    | apply KeptA.next | split)

theorem countEcc_kept {s : State} {f : Fld} {n : Nat} (hK : Kept q s) : Kept q (countEcc s f n) := by
  unfold countEcc
  with_reducible repeat' (first | assumption | apply State.put_kept | apply Kept.ite)

theorem execSramScrub_kept {fixed : Nat} {bad : List (Nat × Nat)} {s : State} (hK : Kept q s) : KeptA q
    (execSramScrub fixed bad s) := by
  unfold execSramScrub
  with_reducible repeat' (first
    | assumption | (intro x a hx; guard_hyp hx : Kept q x) | apply eccFault_kept | apply testPassed_kept
    | apply countEcc_kept | apply KeptA.next | apply Kept.each)

theorem execNvmScrub_kept {fixed : Nat} {bad : List (Nat × Nat)} {s : State} (hK : Kept q s) : KeptA q
    (execNvmScrub fixed bad s) := by
  unfold execNvmScrub
  with_reducible repeat' (first
    | assumption | (intro x a hx; guard_hyp hx : Kept q x) | apply eccFault_kept | apply testPassed_kept
    | apply countEcc_kept | apply KeptA.next | apply Kept.each)

theorem execSelftestOverdue_kept {t : Fin 4} {s : State} (hK : Kept q s) : KeptA q (execSelftestOverdue t s) := by
  unfold execSelftestOverdue
  with_reducible repeat' (first
    | assumption | (intro x hx; guard_hyp hx : Kept q x) | apply testFailed_kept | apply KeptA.next | apply Kept.when)

theorem execOperatingRangeChange_kept {kl30 : Int} {feeds : List Int} {tbp : Int} {s : State} (hK : Kept q s) :
    KeptA q (execOperatingRangeChange kl30 feeds tbp s) := by
  unfold execOperatingRangeChange
  with_reducible repeat' (first | assumption | apply State.put_kept | apply updateGact_kept | apply KeptA.next)

theorem clearFaults_kept {s : State} (hK : Kept q s) : Kept q (clearFaults s) := by
  unfold clearFaults
  with_reducible repeat' (first | assumption | apply Kept.wr | apply State.put_kept)

theorem safeWritten_kept {o : Nat} {s : State} {u2 : Word} {w : Word} (hK : Kept q s) : Kept q (safeWritten o s u2
    w) := by
  unfold safeWritten
  with_reducible repeat' (first | assumption | apply State.put_kept | apply clearFaults_kept | apply Kept.ite)

theorem safeWrite_kept {r : WriteReq} {s : State} (hK : Kept q s) : Kept q (safeWrite r s) := by
  unfold safeWrite
  with_reducible repeat' (first | assumption | apply blockWrite_kept | apply noRej_kept | apply safeWritten_kept)

theorem safeResetKeep_kept {s : State} (hK : Kept q s) : Kept q (safeResetKeep s) := by
  unfold safeResetKeep
  with_reducible repeat' (first | assumption | apply State.put_kept | apply Kept.resetRange)

/-! ### Icu -/

theorem setIcu_kept {s : State} {g : IcuSt → IcuSt} (hK : Kept q s) : Kept q (setIcu s g) := by
  unfold setIcu
  with_reducible repeat' (first | assumption | apply Kept.upd)

theorem setStack_kept {s : State} {t : Nat} {l : List (Nat × Nat)} (hK : Kept q s) : Kept q (setStack s t l) := by
  unfold setStack
  with_reducible repeat' (first | assumption | apply State.put_kept | apply setIcu_kept)

theorem execInterruptPresent_kept {t : Fin 5} {s : State} (hK : Kept q s) : KeptA q (execInterruptPresent t s) := by
  unfold execInterruptPresent
  with_reducible repeat' (first
    | assumption | with_unfolding_all exact fun _ => Or.inl rfl | (intro x hx; guard_hyp hx : Kept q x)
    | apply State.drawn_kept | apply setPwr_kept | apply entryAbort_kept | apply setIcu_kept | apply Kept.ite
    | apply KeptA.next | apply Kept.when | apply Kept.setCore)

theorem execInterruptTaken_kept {c : CoreId} {s : State} (hK : Kept q s) : KeptA q (execInterruptTaken c s) := by
  unfold execInterruptTaken
  with_reducible repeat' (first
    | assumption | (intro x hx; guard_hyp hx : Kept q x) | apply enterExc_kept | apply KeptA.next | apply Kept.when)

theorem claimRead_kept {s : State} {t : Nat} {src : Src} (hK : Kept q s) : Kept q (claimRead s t src).1 := by
  unfold claimRead
  with_reducible repeat' (first
    | assumption | apply State.drawn_kept | apply State.setBit_kept | apply setIcu_kept | apply setStack_kept | split)

theorem icuEoi_kept {s : State} {t : Nat} (hK : Kept q s) : Kept q (icuEoi s t) := by
  unfold icuEoi
  with_reducible repeat' (first | assumption | apply State.setBit_kept | apply setStack_kept | split)

theorem icuWritten_kept {o : Nat} {s : State} {u2 : Word} {u3 : Word} (hK : Kept q s) : Kept q (icuWritten o s u2
    u3) := by
  unfold icuWritten
  with_reducible repeat' (first | assumption | apply icuEoi_kept | apply Kept.ite)

theorem icuWrite_kept {r : WriteReq} {s : State} (hK : Kept q s) : Kept q (icuWrite r s) := by
  unfold icuWrite
  with_reducible repeat' (first | assumption | apply blockWrite_kept | apply noRej_kept | apply icuWritten_kept)

theorem icuResetTargets_kept {s : State} {ts : List Nat} (hK : Kept q s) : Kept q (icuResetTargets s ts) := by
  unfold icuResetTargets
  with_reducible repeat' (first
    | assumption | (intro x a hx; guard_hyp hx : Kept q x) | apply State.setBit_kept | apply setIcu_kept
    | apply setStack_kept | apply Kept.each)

/-! ### Islands -/

theorem powerRegs_kept {s : State} (hK : Kept q s) : Kept q (powerRegs s) := by
  unfold powerRegs
  with_reducible repeat' (first | assumption | apply State.resetBlk_kept | apply Kept.foldl)

theorem powerCold_kept {s : State} (hK : Kept q s) : Kept q (powerCold s) := by
  unfold powerCold
  with_reducible repeat' (first | assumption | apply powerRegs_kept | apply Kept.upd)

theorem lightCold_kept {s : State} (hK : Kept q s) : Kept q (lightCold s) := by
  unfold lightCold
  with_reducible repeat' (first | assumption | apply State.resetBlk_kept | apply Kept.upd)

theorem wireRest1_kept {f : Nat} {e : List Word} {tbp : Int} {s : State} (hK : Kept q s) : Kept q (wireRest1 f e
    tbp s) := by
  unfold wireRest1
  with_reducible repeat' (first | assumption | apply State.setCh_kept | apply quant_kept)

theorem wireRest_kept {f : Nat} {e : List Word} {tbp : Int} {n : Nat} {s : State} (hK : Kept q s) :
    Kept q (wireRest f e tbp n s) := by
  induction n generalizing s with
  | zero => exact hK
  | succ n ih => exact ih (wireRest1_kept hK)

theorem wireUnpark_kept {tbp : Int} {steps : Nat} {s : State} {f : Nat} (hK : Kept q s) : Kept q (wireUnpark tbp
    steps s f) := by
  unfold wireUnpark
  with_reducible repeat' (first | assumption | apply State.setCh_kept | apply quant_kept | apply wireRest_kept | split)

theorem bucketUnpark_kept {ticks : Nat} {s : State} {f : Nat} (hK : Kept q s) : Kept q (bucketUnpark ticks s f) := by
  unfold bucketUnpark
  with_reducible repeat' (first | assumption | apply State.setCh_kept)

theorem powerUnpark_kept {s : State} {capped : Bool} {tbp : Int} (hK : Kept q s) : Kept q (powerUnpark s capped
    tbp) := by
  unfold powerUnpark
  with_reducible repeat' (first
    | assumption | (intro x hx; guard_hyp hx : Kept q x) | (intro x a hx; guard_hyp hx : Kept q x) | apply Kept.wr
    | apply State.put_kept | apply Kept.resetRange | apply State.resetBlk_kept | apply State.setCh_kept
    | apply setChState_kept | apply setUnclaimed_kept | apply setPos_kept | apply refreshFlt_kept | apply settle_kept
    | apply reholds_kept | apply loadStruct_kept | apply wireUnpark_kept | apply bucketUnpark_kept | apply Kept.when
    | apply Kept.each | apply Kept.foldl | apply Kept.upd)

theorem powerPark_kept {s : State} {capped : Bool} (hK : Kept q s) : Kept q (powerPark s capped) := by
  unfold powerPark
  with_reducible repeat' (first
    | assumption | (intro x hx; guard_hyp hx : Kept q x) | (intro x a hx; guard_hyp hx : Kept q x)
    | apply State.setCh_kept | apply setChState_kept | apply stopGen_kept | apply allOff_kept | apply State.setMo_kept
    | apply Kept.ite | apply Kept.when | apply Kept.each)

theorem tmrReset_kept {s : State} (hK : Kept q s) : Kept q (tmrReset s) := by
  unfold tmrReset
  with_reducible repeat' (first | assumption | apply State.resetBlk_kept | apply Kept.upd)

theorem ruleReset_kept {s : State} (hK : Kept q s) : Kept q (ruleReset s) := by
  unfold ruleReset
  with_reducible repeat' (first | assumption | apply State.resetBlk_kept | apply Kept.upd)

theorem inpReset_kept {s : State} (hK : Kept q s) : Kept q (inpReset s) := by
  unfold inpReset
  with_reducible repeat' (first | assumption | apply State.resetBlk_kept | apply Kept.upd)

theorem tbaseReset_kept {s : State} (hK : Kept q s) : Kept q (tbaseReset s) := by
  unfold tbaseReset
  with_reducible repeat' (first | assumption | apply tmrReset_kept | apply ruleReset_kept | apply inpReset_kept)

theorem tbaseUnpark_kept {s : State} (hK : Kept q s) : Kept q (tbaseUnpark s) := by
  unfold tbaseUnpark
  with_reducible repeat' (first
    | assumption | (intro x a hx; guard_hyp hx : Kept q x) | apply Kept.wr | apply inpRestore_kept
    | apply tbaseReset_kept | apply Kept.foldl | apply Kept.upd)

theorem netReset_kept {s : State} (hK : Kept q s) : Kept q (netReset s) := by
  unfold netReset
  with_reducible repeat' (first
    | assumption | apply State.resetBlk_kept | apply nmgReset_kept | apply canReset_kept | apply linReset_kept
    | apply ethReset_kept | apply Kept.foldl)

theorem netCold_kept {s : State} (hK : Kept q s) : Kept q (netCold s) := by
  unfold netCold
  with_reducible repeat' (first | assumption | apply State.resetBlk_kept | apply netReset_kept | apply Kept.upd)

theorem netUnpark_kept {s : State} (hK : Kept q s) : Kept q (netUnpark s) := by
  unfold netUnpark
  with_reducible repeat' (first
    | assumption | apply State.resetBlk_kept | apply nmgReset_kept | apply nmgUnpark_kept | apply canReset_kept
    | apply linUnpark_kept | apply ethReset_kept | apply Kept.foldl)

theorem coresReset_kept {s : State} {cs : List Nat} {keepUx : Bool} (hK : Kept q s) : Kept q (coresReset s cs keepUx) :=
  Kept.each (dropCause_kept hK) fun _ _ h => State.clearRej_kept (Kept.setCore h fun _ => Or.inr (by simp [Core.reset]))

theorem callPages_kept {s : State} {cs : List Nat} (hK : Kept q s) : Kept q (callPages s cs) := by
  unfold callPages
  with_reducible repeat' (first
    | assumption | (intro x a hx; guard_hyp hx : Kept q x) | apply State.put_kept | apply Kept.resetRange
    | apply Kept.each)

theorem tcmClear_kept {s : State} {cs : List Nat} (hK : Kept q s) : Kept q (tcmClear s cs) := by
  unfold tcmClear
  with_reducible repeat' (first
    | assumption | (intro x a hx; guard_hyp hx : Kept q x) | apply Kept.clearMem | apply Kept.each | apply Kept.upd)

theorem inkwellClear_kept {s : State} (hK : Kept q s) : Kept q (inkwellClear s) := by
  unfold inkwellClear
  with_reducible repeat' (first | assumption | apply Kept.clearMem | apply Kept.upd)

theorem icuReset_kept {s : State} (hK : Kept q s) : Kept q (icuReset s) := by
  unfold icuReset
  with_reducible repeat' (first | assumption | apply State.resetBlk_kept | apply Kept.upd)

theorem pwrReset_kept {s : State} {keepMode : Bool} {keepLat : Bool} (hK : Kept q s) : Kept q (pwrReset s keepMode
    keepLat) := by
  unfold pwrReset
  with_reducible repeat' (first
    | assumption | (intro x hx; guard_hyp hx : Kept q x) | apply Kept.wr | apply State.put_kept
    | apply State.resetBlk_kept | apply Kept.when)

theorem sysReset_kept {s : State} (hK : Kept q s) : Kept q (sysReset s) := by
  unfold sysReset
  with_reducible repeat' (first
    | assumption | (intro x a hx; guard_hyp hx : Kept q x) | apply Kept.wr | apply State.put_kept
    | apply State.resetBlk_kept | apply Kept.foldl)

theorem folioReset_kept {s : State} (hK : Kept q s) : Kept q (folioReset s) := by
  unfold folioReset
  with_reducible repeat' (first
    | assumption | (intro x a hx; guard_hyp hx : Kept q x) | apply Kept.wr | apply State.put_kept
    | apply State.resetBlk_kept | apply Kept.foldl | apply Kept.upd)

theorem storeReset_kept {s : State} (hK : Kept q s) : Kept q (storeReset s) := by
  unfold storeReset
  with_reducible repeat' (first | assumption | apply Kept.upd)

theorem allNotReady_kept {s : State} (hK : Kept q s) : Kept q (allNotReady s) := by
  unfold allNotReady
  with_reducible repeat' (first
    | assumption | (intro x a hx; guard_hyp hx : Kept q x) | apply State.setReady_kept | apply Kept.each)

theorem porReset_kept {s : State} {cause : PorCause} (hK : Kept q s) : Kept q (porReset s cause) := by
  unfold porReset
  extract_lets v lcWord own tam nv badNv acc x0 x1 x2 x3 x4 x5 b
  have h : Kept q b := Kept.of_eq (Kept.filterMem (p := fun p => decide (0x10000000 ≤ p.1) && decide (p.1 < 0x13000000)) hK) rfl rfl rfl rfl rfl
  exact Kept.refresh (Kept.when (vaultReset_kept (Kept.foldl (Kept.wr h) fun _ _ h => Kept.wr h)) fun _ h => State.put_kept h)

theorem warmBit_kept {s : State} {c : WarmCause} (hK : Kept q s) : Kept q (warmBit s c) := by
  unfold warmBit
  with_reducible repeat' (first | assumption | apply State.put_kept | split)

theorem warmReset_kept {s : State} {cause : WarmCause} (hK : Kept q s) : Kept q (warmReset s cause) := by
  unfold warmReset
  with_reducible repeat' (first
    | assumption | apply State.setReady_kept | apply holdStart_kept | apply dropCause_kept | apply ringReset_kept
    | apply accReset_kept | apply vaultReset_kept | apply safeResetKeep_kept | apply tbaseReset_kept
    | apply netReset_kept | apply coresReset_kept | apply tcmClear_kept | apply inkwellClear_kept | apply icuReset_kept
    | apply pwrReset_kept | apply sysReset_kept | apply folioReset_kept | apply storeReset_kept
    | apply allNotReady_kept | apply warmBit_kept | apply Kept.upd)

/-! ### Boot -/

theorem showEcr_kept {s : State} (hK : Kept q s) : Kept q (showEcr s) := by
  unfold showEcr
  with_reducible repeat' (first
    | assumption | (intro x a hx; guard_hyp hx : Kept q x) | apply State.put_kept | apply Kept.each)

theorem setEcr_kept {s : State} {g : Ecr → Ecr} (hK : Kept q s) : Kept q (setEcr s g) := by
  unfold setEcr
  with_reducible repeat' (first | assumption | apply State.putWords_kept | apply showEcr_kept | apply Kept.upd)

theorem addOff_kept {s : State} {bits : List Nat} (hK : Kept q s) : Kept q (addOff s bits) := by
  unfold addOff
  with_reducible repeat' (first
    | assumption | (extract_lets +onlyGivenNames x; clear_value x) | apply setEcr_kept | apply Kept.ite)

theorem setBoot_kept {s : State} {g : BootSt → BootSt} (hK : Kept q s) : Kept q (setBoot s g) := by
  unfold setBoot
  with_reducible repeat' (first | assumption | apply Kept.upd)

theorem bootRecord_kept {s : State} (hK : Kept q s) : Kept q (bootRecord s) := by
  unfold bootRecord
  with_reducible repeat' (first
    | assumption | (intro x hx; guard_hyp hx : Kept q x) | apply State.put_kept | apply State.putWords_kept
    | apply Kept.when)

theorem bootMark_kept {s : State} {k : Nat} {v : Nat} (hK : Kept q s) : Kept q (bootMark s k v) := by
  unfold bootMark
  with_reducible repeat' (first | assumption | apply setBoot_kept)

theorem bootFail_kept {s : State} {k : Nat} {code : Nat} (hK : Kept q s) : Kept q (bootFail s k code) := by
  unfold bootFail
  with_reducible repeat' (first | assumption | apply State.put_kept | apply bootMark_kept)

theorem bootFailOpen_kept {s : State} {k : Nat} (hK : Kept q s) : Kept q (bootFailOpen s k) := by
  unfold bootFailOpen
  with_reducible repeat' (first | assumption | apply State.drawn_kept | apply bootFail_kept)

theorem bootStep_kept {k : Nat} {f : State → State} {s : State} (hF_f : ∀ v0, Kept q v0 → Kept q (f v0)) (hK : Kept
    q s) : Kept q (bootStep k f s) := by
  unfold bootStep
  with_reducible repeat' (first
    | assumption | apply hF_f | apply setBoot_kept | apply bootMark_kept | apply bootFailOpen_kept | apply Kept.ite)

theorem bootHalt_kept {s : State} {reason : Nat} (hK : Kept q s) : Kept q (bootHalt s reason) := by
  unfold bootHalt
  with_reducible repeat' (first | assumption | apply setBoot_kept)

theorem bootS2_kept {s : State} (hK : Kept q s) : Kept q (bootS2 s) := by
  unfold bootS2
  with_reducible repeat' (first | assumption | apply bootFailOpen_kept | apply bootHalt_kept | apply Kept.ite)

theorem writingGone_kept {s : State} (hK : Kept q s) : Kept q (writingGone s) := by
  unfold writingGone
  with_reducible repeat' (first
    | assumption | (intro x hx; guard_hyp hx : Kept q x) | (intro x a hx; guard_hyp hx : Kept q x) | apply setEcr_kept
    | apply Kept.when | apply Kept.each)

theorem bootS3_kept {s : State} (hK : Kept q s) : Kept q (bootS3 s) := by
  unfold bootS3
  with_reducible repeat' (first
    | assumption | (intro x hx; guard_hyp hx : Kept q x)
    | (extract_lets +onlyGivenNames x; refine (fun hx : Kept q x => ?_) ?_; rotate_left; subst x; rotate_left; clear_value x)
    | (extract_lets +onlyGivenNames x; clear_value x) | apply showEcr_kept | apply setEcr_kept | apply addOff_kept
    | apply bootFailOpen_kept | apply bootHalt_kept | apply writingGone_kept | apply Kept.ite | apply Kept.when
    | apply Kept.upd)

theorem bootS4_kept {s : State} (hK : Kept q s) : Kept q (bootS4 s) := by
  unfold bootS4
  with_reducible repeat' (first
    | assumption | (intro x hx; guard_hyp hx : Kept q x) | apply State.put_kept | apply setVault_kept
    | apply lcCommand_kept | apply loadSlot31_kept | apply bootFailOpen_kept | apply bootHalt_kept | apply Kept.ite
    | apply Kept.when | apply Kept.upd)

theorem bootS9_kept {s : State} (hK : Kept q s) : Kept q (bootS9 s) := by
  unfold bootS9
  with_reducible repeat' (first
    | assumption | (intro x hx; guard_hyp hx : Kept q x) | (intro x a hx; guard_hyp hx : Kept q x)
    | apply State.setReady_kept | apply nmgReady_kept | apply addOff_kept | apply bootFailOpen_kept | apply Kept.when
    | apply Kept.each)

theorem enterRecovery_kept {s : State} {reason : Nat} (hK : Kept q s) : Kept q (enterRecovery s reason) := by
  unfold enterRecovery
  with_reducible repeat' (first
    | assumption | (intro x hx; guard_hyp hx : Kept q x)
    | (extract_lets +onlyGivenNames x; refine (fun hx : Kept q x => ?_) ?_; rotate_left; subst x; rotate_left; clear_value x)
    | (extract_lets +onlyGivenNames x; clear_value x) | apply State.setReady_kept | apply setEcr_kept
    | apply setBoot_kept | apply bootS9_kept | apply Kept.when | apply Kept.upd)

theorem fallBack_kept {s : State} {cause : Option Nat} (hK : Kept q s) : Kept q (fallBack s cause) := by
  unfold fallBack
  extract_lets b s1 s2 s3 e e1 r
  have h2 : Kept q s2 := State.put_kept (setBoot_kept hK)
  have h3 : Kept q s3 := by
    cases cause with
    | none => exact State.drawn_kept (State.put_kept h2)
    | some c => exact State.put_kept h2
  exact Kept.ite (enterRecovery_kept hK) (Kept.ite (setEcr_kept h3) (enterRecovery_kept (setEcr_kept h3)))

theorem bootSelect_kept {s : State} (hK : Kept q s) : Kept q (bootSelect s) := by
  unfold bootSelect
  with_reducible repeat' (first
    | assumption | (intro x hx; guard_hyp hx : Kept q x)
    | (extract_lets +onlyGivenNames x; refine (fun hx : Kept q x => ?_) ?_; rotate_left; subst x; rotate_left; clear_value x)
    | (extract_lets +onlyGivenNames x; clear_value x) | apply setEcr_kept | apply fallBack_kept | apply Kept.ite
    | apply Kept.when)

theorem bootS5_kept {s : State} (hK : Kept q s) : Kept q (bootS5 s) := by
  unfold bootS5
  with_reducible repeat' (first
    | assumption | apply setEcr_kept | apply bootFailOpen_kept | apply enterRecovery_kept | apply fallBack_kept
    | apply bootSelect_kept | apply Kept.ite)

theorem folioErr_kept {s : State} {code : Nat} {word : Nat} (hK : Kept q s) : Kept q (folioErr s code word) := by
  unfold folioErr
  with_reducible repeat' (first | assumption | apply State.put_kept)

theorem bootLoad_kept {s : State} {slot : Bool} {f : Folio} (hK : Kept q s) : Kept q (bootLoad s slot f) := by
  unfold bootLoad
  with_reducible repeat' (first
    | assumption | apply State.put_kept | apply loadBefore_kept | apply loadRewrite_kept | apply loadCold_kept
    | apply Kept.ite | apply Kept.upd)

theorem bootFolio_kept {s : State} (hK : Kept q s) : Kept q (bootFolio s).1 := by
  unfold bootFolio
  with_reducible repeat' (first
    | assumption | (intro x hx; guard_hyp hx : Kept q x)
    | (extract_lets +onlyGivenNames x; refine (fun hx : Kept q x => ?_) ?_; rotate_left; subst x; rotate_left; clear_value x)
    | (extract_lets +onlyGivenNames x) | apply setEcr_kept | apply folioErr_kept | apply bootLoad_kept
    | apply Kept.when | split)

theorem bootManifest_keptP {s : State} (hK : Kept q s) : KeptP q (bootManifest s) := by
  unfold bootManifest
  by_cases h : s.boot.input.hang = some (if s.boot.fellBack then 17 else 7)
  · rw [if_pos h]; exact KeptP.pair (setBoot_kept hK)
  · rw [if_neg h]
    generalize manifestCheck s s.ecr.act = c
    cases c with
    | none => exact KeptP.pair (bootMark_kept hK)
    | some c => exact KeptP.pair (fallBack_kept (setEcr_kept (bootFail_kept hK)))

theorem bootRound_keptP {s : State} (hK : Kept q s) : KeptP q (bootRound s) := by
  unfold bootRound
  extract_lets s1 r
  have h1 : Kept q s1 := bootMark_kept hK
  clear_value s1
  by_cases h : s1.boot.input.hang = some (if s1.boot.fellBack then 16 else 6)
  · rw [if_pos h]; exact KeptP.pair (setBoot_kept h1)
  · rw [if_neg h]
    have hr : Kept q r.1 := bootFolio_kept h1
    clear_value r
    rcases r with ⟨t, _ | c⟩
    · exact bootManifest_keptP (bootMark_kept (bootMark_kept hr))
    · exact KeptP.pair (fallBack_kept (bootFail_kept hr))

theorem bootS67_kept {n : Nat} {s : State} (hK : Kept q s) : Kept q (bootS67 n s) := by
  induction n generalizing s with
  | zero => exact hK
  | succ n ih =>
    have hr := (bootRound_keptP hK).fst
    exact Kept.ite (ih hr) hr

theorem bootS8_kept {s : State} {pairs : List Nat} {bad : List Nat} (hK : Kept q s) : Kept q (bootS8 s pairs bad) := by
  unfold bootS8
  with_reducible repeat' (first
    | assumption | with_unfolding_all exact fun _ => Or.inl rfl | (intro x hx; guard_hyp hx : Kept q x)
    | (intro x a hx; guard_hyp hx : Kept q x) | apply addOff_kept | apply bootFailOpen_kept | apply Kept.when
    | apply Kept.each | apply Kept.setCore)

theorem release_kept {s : State} {c : Nat} {entry : Nat} (hK : Kept q s) : Kept q (release s c entry) := by
  unfold release
  with_reducible repeat' (first | assumption | with_unfolding_all exact fun _ => Or.inr rfl | apply Kept.setCore)

theorem bootS10_kept {s : State} {pairs : List Nat} {signet : Bool} (hK : Kept q s) : Kept q (bootS10 s pairs
    signet) := by
  unfold bootS10
  with_reducible repeat' (first
    | assumption | (intro x hx; guard_hyp hx : Kept q x) | (intro x a hx; guard_hyp hx : Kept q x) | apply release_kept
    | apply Kept.when | apply Kept.each)

theorem bootBegin_kept {s : State} {path : BootPath} {b : BootIn} (hK : Kept q s) : Kept q (bootBegin s path b) := by
  unfold bootBegin
  with_reducible repeat' (first | assumption | apply State.put_kept | apply setBoot_kept | apply Kept.upd)

theorem hungBefore_kept {s : State} {was : BootIn} (hK : Kept q s) : Kept q (hungBefore s was) := by
  unfold hungBefore
  with_reducible repeat' (first | assumption | apply addOff_kept | split)

theorem bootRest_kept {s : State} (hK : Kept q s) : Kept q (bootRest s) := by
  unfold bootRest
  with_reducible repeat' (first
    | assumption | (intro x hx; guard_hyp hx : Kept q x) | apply setBoot_kept | apply bootRecord_kept
    | apply bootStep_kept | apply bootS9_kept | apply bootS67_kept | apply bootS8_kept | apply bootS10_kept
    | apply Kept.ite)

theorem monTest_kept {s : State} (hK : Kept q s) : Kept q (monTest s) := by
  unfold monTest
  with_reducible repeat' (first
    | assumption | apply State.setBit_kept | apply updateGact_kept | apply dropCause_kept | apply testFailed_kept
    | apply Kept.ite)

theorem bootS1_kept {s : State} {por : Bool} (hK : Kept q s) : Kept q (bootS1 s por) := by
  unfold bootS1
  with_reducible repeat' (first
    | assumption | apply setPwr_kept | apply setBoot_kept | apply monTest_kept | apply Kept.ite)

theorem bootFull_kept {s : State} {path : BootPath} {b : BootIn} {window : Bool} (hK : Kept q s) :
    Kept q (bootFull s path b window) := by
  unfold bootFull
  extract_lets was s1 s2 s3 s4 s5 s6 s7
  have h1 : Kept q s1 := bootBegin_kept hK
  have h2 : Kept q s2 := bootStep_kept (hK := h1) fun _ h => h
  have h3 : Kept q s3 := bootStep_kept (hK := h2) fun _ h => bootS1_kept h
  have h4 : Kept q s4 := bootStep_kept (hK := bootStep_kept (hK := bootStep_kept (hK := h3) fun _ h => bootS2_kept h) fun _ h => bootS3_kept h)
    fun _ h => bootS4_kept h
  have h5 : Kept q s5 := Kept.ite (hungBefore_kept h4) h4
  have h6 : Kept q s6 := bootStep_kept (hK := h5) fun _ h => bootS5_kept h
  have h7 : Kept q s7 := setBoot_kept h6
  exact Kept.ite (bootRecord_kept h5) (Kept.ite (bootRecord_kept (setBoot_kept h6))
    (Kept.ite (bootRecord_kept (Kept.upd (State.drawn_kept h7))) (bootRest_kept h6)))

theorem warmStart_kept {s : State} {cause : WarmCause} {b : BootIn} (hK : Kept q s) : Kept q (warmStart s cause b) :=
  bootFull_kept (warmReset_kept hK)

theorem porStart_kept {s : State} {cause : PorCause} {b : BootIn} (hK : Kept q s) : Kept q (porStart s cause b) :=
  bootFull_kept (porReset_kept hK)

theorem cappedStart_kept {s : State} {b : BootIn} (hK : Kept q s) : Kept q (cappedStart s b) := by
  unfold cappedStart
  extract_lets was s1 s2 s3 s4 slot s5 s6 s7 s8
  have h1 : Kept q s1 := bootBegin_kept hK
  have h2 : Kept q s2 := bootStep_kept (hK := bootStep_kept (hK := h1) fun _ h => h) fun _ h => h
  have h3 : Kept q s3 := bootStep_kept (hK := bootStep_kept (hK := bootStep_kept (hK := bootStep_kept (hK := h2) fun _ h => bootS2_kept h)
    fun _ h => bootS3_kept h) fun _ h => bootS4_kept h) fun _ h => h
  have h4 : Kept q s4 := Kept.ite (hungBefore_kept h3) h3
  have h5 : Kept q s5 := bootStep_kept (hK := h4) fun _ h => bootLoad_kept h
  have h6 : Kept q s6 := bootStep_kept (hK := h5) fun _ h => bootS8_kept h
  have h7 : Kept q s7 := bootStep_kept (hK := h6) fun _ h => bootS9_kept h
  have h8 : Kept q s8 := bootStep_kept (hK := h7) fun _ h => bootS10_kept h
  exact Kept.ite (bootRecord_kept h4) (Kept.ite (warmStart_kept (bootRecord_kept (bootFailOpen_kept h4)))
    (bootRecord_kept (setBoot_kept h8)))

theorem parkStart_kept {s : State} {b : BootIn} (hK : Kept q s) : Kept q (parkStart s b) := by
  unfold parkStart
  extract_lets s1 s2 s3 s4 s5
  have h1 : Kept q s1 := writingGone_kept (bootBegin_kept hK)
  have h2 : Kept q s2 := bootStep_kept (hK := h1) fun _ h => h
  have h3 : Kept q s3 := bootStep_kept (hK := h2) fun _ h => bootS8_kept h
  have h4 : Kept q s4 := bootStep_kept (hK := h3) fun _ h => bootS9_kept h
  have h5 : Kept q s5 := bootStep_kept (hK := h4) fun _ h => bootS10_kept h
  exact bootRecord_kept (setBoot_kept h5)

theorem pairReset_kept {s : State} {p : Nat} {refold : Bool} (hK : Kept q s) : Kept q (pairReset s p refold) := by
  unfold pairReset
  with_reducible repeat' (first
    | assumption | (intro x hx; guard_hyp hx : Kept q x) | apply holdStart_kept | apply icuResetTargets_kept
    | apply coresReset_kept | apply callPages_kept | apply tcmClear_kept | apply Kept.when)

theorem pairStart_kept {s : State} {p : Nat} {s8ok : Bool} (hK : Kept q s) : Kept q (pairStart s p s8ok) := by
  unfold pairStart
  with_reducible repeat' (first
    | assumption | (intro x hx; guard_hyp hx : Kept q x) | apply State.setReady_kept | apply bootRecord_kept
    | apply bootStep_kept | apply bootS8_kept | apply bootS10_kept | apply bootBegin_kept | apply Kept.ite
    | apply Kept.when)

theorem coreStart_kept {s : State} {p : Nat} {bySafe : Bool} {s8ok : Bool} (hK : Kept q s) : Kept q (coreStart s p
    bySafe s8ok) := by
  unfold coreStart
  with_reducible repeat' (first
    | assumption | (intro x hx; guard_hyp hx : Kept q x) | apply State.put_kept | apply pwrReset_kept
    | apply pairReset_kept | apply pairStart_kept | apply Kept.when)

theorem refoldPair_kept {s : State} {p : Nat} {issuer : Bool} (hK : Kept q s) : Kept q (refoldPair s p issuer) := by
  unfold refoldPair
  with_reducible repeat' (first
    | assumption | (intro x hx; guard_hyp hx : Kept q x) | apply State.put_kept | apply pairReset_kept
    | apply pairStart_kept | apply Kept.when)

/-! ### Coproc -/

theorem State.setCp_kept {s : State} {c : CoreId} {g : CpSt → CpSt} (hK : Kept q s) : Kept q (State.setCp s c g) := by
  unfold State.setCp
  with_reducible repeat' (first | assumption | with_unfolding_all exact fun _ => Or.inl rfl | apply Kept.setCore)

theorem shaFinish_kept {s : State} {c : CoreId} (hK : Kept q s) : Kept q (shaFinish s c) := by
  unfold shaFinish
  with_reducible repeat' (first | assumption | apply State.setCp_kept)

theorem aesFinish_kept {s : State} {c : CoreId} (hK : Kept q s) : Kept q (aesFinish s c) := by
  unfold aesFinish
  with_reducible repeat' (first | assumption | apply State.setCp_kept)

theorem cpWait_kept {s : State} {c : CoreId} (hK : Kept q s) : Kept q (cpWait s c) := by
  unfold cpWait
  with_reducible repeat' (first | assumption | apply shaFinish_kept | apply aesFinish_kept)

theorem execShaCompressionDone_kept {c : CoreId} {s : State} (hK : Kept q s) : KeptA q (execShaCompressionDone c s) := by
  unfold execShaCompressionDone
  with_reducible repeat' (first | assumption | apply shaFinish_kept | apply KeptA.next)

theorem execAesDone_kept {c : CoreId} {s : State} (hK : Kept q s) : KeptA q (execAesDone c s) := by
  unfold execAesDone
  with_reducible repeat' (first | assumption | apply aesFinish_kept | apply KeptA.next)

theorem cpIssue_kept {c : CoreId} {port : Nat} {legal : Bool} {s : State} {f : State → State} (hK : Kept q s) (hF_f
    : ∀ v0, Kept q v0 → Kept q (f v0)) : KeptA q (cpIssue c port legal s f) := by
  unfold cpIssue
  with_reducible repeat' (first
    | assumption | (intro x hx; guard_hyp hx : Kept q x) | apply hF_f | apply State.trap_kept | apply issuePriv_kept
    | apply cpWait_kept | apply Kept.ite)

theorem cpRes_kept {c : CoreId} {port : Nat} {legal : Bool} {wd : Reg} {s : State} {v : State → Word} (hK : Kept q
    s) : KeptA q (cpRes c port legal wd s v) := by
  unfold cpRes
  with_reducible repeat' (first
    | assumption | (intro x hx; guard_hyp hx : Kept q x) | apply State.regDone_kept | apply cpIssue_kept)

theorem cpSet_kept {c : CoreId} {port : Nat} {legal : Bool} {s : State} {g : State → CpSt → CpSt} (hK : Kept q s) :
    KeptA q (cpSet c port legal s g) := by
  unfold cpSet
  with_reducible repeat' (first
    | assumption | (intro x hx; guard_hyp hx : Kept q x) | apply State.advance_kept | apply State.setCp_kept
    | apply cpIssue_kept)

theorem execCrc32_kept {c : CoreId} {wd : Reg} {wa : Reg} {wb : Reg} {idx : BitVec 8} {s : State} (hK : Kept q s) :
    KeptA q (execCrc32 c wd wa wb idx s) := by
  unfold execCrc32
  with_reducible repeat' (first | assumption | apply cpRes_kept)

theorem execCrc32o_kept {c : CoreId} {wd : Reg} {wa : Reg} {wb : Reg} {idx : BitVec 8} {s : State} (hK : Kept q s)
    : KeptA q (execCrc32o c wd wa wb idx s) := by
  unfold execCrc32o
  with_reducible repeat' (first | assumption | apply cpRes_kept)

theorem execCrc16_kept {c : CoreId} {wd : Reg} {wa : Reg} {wb : Reg} {idx : BitVec 8} {s : State} (hK : Kept q s) :
    KeptA q (execCrc16 c wd wa wb idx s) := by
  unfold execCrc16
  with_reducible repeat' (first | assumption | apply cpRes_kept)

theorem execShainit_kept {c : CoreId} {idx : BitVec 8} {s : State} (hK : Kept q s) : KeptA q (execShainit c idx s) := by
  unfold execShainit
  with_reducible repeat' (first | assumption | apply cpSet_kept)

theorem execShaw_kept {c : CoreId} {wa : Reg} {idx : BitVec 8} {s : State} (hK : Kept q s) : KeptA q (execShaw c wa
    idx s) := by
  unfold execShaw
  with_reducible repeat' (first | assumption | apply cpSet_kept)

theorem execShard_kept {c : CoreId} {wd : Reg} {idx : BitVec 8} {s : State} (hK : Kept q s) : KeptA q (execShard c
    wd idx s) := by
  unfold execShard
  with_reducible repeat' (first | assumption | apply cpRes_kept)

theorem execAeskey_kept {c : CoreId} {wa : Reg} {idx : BitVec 8} {s : State} (hK : Kept q s) : KeptA q (execAeskey
    c wa idx s) := by
  unfold execAeskey
  with_reducible repeat' (first | assumption | apply cpSet_kept)

theorem execAesin_kept {c : CoreId} {wa : Reg} {idx : BitVec 8} {s : State} (hK : Kept q s) : KeptA q (execAesin c
    wa idx s) := by
  unfold execAesin
  with_reducible repeat' (first | assumption | apply cpSet_kept)

theorem execAesenc_kept {c : CoreId} {idx : BitVec 8} {s : State} (hK : Kept q s) : KeptA q (execAesenc c idx s) := by
  unfold execAesenc
  with_reducible repeat' (first | assumption | apply cpSet_kept)

theorem execAesdec_kept {c : CoreId} {idx : BitVec 8} {s : State} (hK : Kept q s) : KeptA q (execAesdec c idx s) := by
  unfold execAesdec
  with_reducible repeat' (first | assumption | apply cpSet_kept)

theorem execAesout_kept {c : CoreId} {wd : Reg} {idx : BitVec 8} {s : State} (hK : Kept q s) : KeptA q (execAesout
    c wd idx s) := by
  unfold execAesout
  with_reducible repeat' (first | assumption | apply cpRes_kept)

theorem roundK_kept {s : State} {x : Int} (hK : Kept q s) : Kept q (roundK s x).2 := by
  unfold roundK
  generalize x / 2 ^ 24 = k, x % 2 ^ 24 = r
  dsimp only
  split
  · exact hK
  · split
    · exact hK
    · exact State.drawn_kept hK

theorem execKset_kept {c : CoreId} {wa : Reg} {idx : BitVec 8} {s : State} (hK : Kept q s) : KeptA q (execKset c wa
    idx s) := by
  unfold execKset
  with_reducible repeat' (first | assumption | apply cpSet_kept)

theorem macRes_kept {c : CoreId} {idx : BitVec 8} {wd : Reg} {wa : Reg} {s : State} {x : State → Int} (hK : Kept q
    s) : KeptA q (macRes c idx wd wa s x) := by
  unfold macRes
  with_reducible repeat' (first
    | assumption | (intro x hx; guard_hyp hx : Kept q x) | apply State.regDone_kept | apply cpIssue_kept
    | apply roundK_kept)

theorem execLag_kept {c : CoreId} {wd : Reg} {wa : Reg} {wb : Reg} {idx : BitVec 8} {s : State} (hK : Kept q s) :
    KeptA q (execLag c wd wa wb idx s) := by
  unfold execLag
  with_reducible repeat' (first | assumption | apply macRes_kept)

theorem execSqmac_kept {c : CoreId} {wd : Reg} {wa : Reg} {wb : Reg} {idx : BitVec 8} {s : State} (hK : Kept q s) :
    KeptA q (execSqmac c wd wa wb idx s) := by
  unfold execSqmac
  with_reducible repeat' (first | assumption | apply macRes_kept)

theorem execKrd_kept {c : CoreId} {wd : Reg} {idx : BitVec 8} {s : State} (hK : Kept q s) : KeptA q (execKrd c wd
    idx s) := by
  unfold execKrd
  with_reducible repeat' (first | assumption | apply cpRes_kept)

theorem execPset_kept {c : CoreId} {wa : Reg} {wb : Reg} {idx : BitVec 8} {s : State} (hK : Kept q s) : KeptA q
    (execPset c wa wb idx s) := by
  unfold execPset
  with_reducible repeat' (first | assumption | apply cpSet_kept)

theorem execPclr_kept {c : CoreId} {idx : BitVec 8} {s : State} (hK : Kept q s) : KeptA q (execPclr c idx s) := by
  unfold execPclr
  with_reducible repeat' (first | assumption | apply cpSet_kept)

theorem execMatch_kept {c : CoreId} {wd : Reg} {wa : Reg} {idx : BitVec 8} {s : State} (hK : Kept q s) : KeptA q
    (execMatch c wd wa idx s) := by
  unfold execMatch
  with_reducible repeat' (first
    | assumption | (intro x hx; guard_hyp hx : Kept q x) | apply State.regDone_kept | apply State.setCp_kept
    | apply cpIssue_kept)

theorem execMaplo_kept {c : CoreId} {wd : Reg} {idx : BitVec 8} {s : State} (hK : Kept q s) : KeptA q (execMaplo c
    wd idx s) := by
  unfold execMaplo
  with_reducible repeat' (first | assumption | apply cpRes_kept)

theorem execMaphi_kept {c : CoreId} {wd : Reg} {idx : BitVec 8} {s : State} (hK : Kept q s) : KeptA q (execMaphi c
    wd idx s) := by
  unfold execMaphi
  with_reducible repeat' (first | assumption | apply cpRes_kept)

end Sys2Proof.Laws
end

