-- ==== Sys2Proof/Laws/KeepSystem.lean ====
section
/-! SUPPORT. What every meaning keeps (`Kept` and `KeptA` of Laws/Keep.lean), one lemma per definition: updates, folio commands, power, recovery and register writes. -/

namespace Sys2Proof.Laws
open Machine

variable {q : List Instr}

/-! ### LightRegs -/

theorem lgtWritten_kept {o : Nat} {s : State} {u2 : Word} {w : Word} (hK : Kept q s) : Kept q (lgtWritten o s u2 w) := by
  unfold lgtWritten
  with_reducible repeat' (first | assumption | apply lightReclaim_kept | apply Kept.ite | apply Kept.each)

theorem strWritten_kept {n : Nat} {o : Nat} {s : State} {old : Word} {w : Word} (hK : Kept q s) : Kept q
    (strWritten n o s old w) := by
  unfold strWritten
  with_reducible repeat' (first
    | assumption | apply State.put_kept | apply State.setSt_kept | apply lgtRefreshFlt_kept | apply strMode_kept
    | apply Kept.ite)

theorem sinkWritten_kept {n : Nat} {o : Nat} {s : State} {old : Word} {w : Word} (hK : Kept q s) : Kept q
    (sinkWritten n o s old w) := by
  unfold sinkWritten
  with_reducible repeat' (first
    | assumption | apply State.setSn_kept | apply lgtRefreshFlt_kept | apply sinkMode_kept | apply Kept.ite)

theorem mxWritten_kept {o : Nat} {s : State} {old : Word} {w : Word} (hK : Kept q s) : Kept q (mxWritten o s old w) := by
  unfold mxWritten
  with_reducible repeat' (first
    | assumption | (intro x a hx; guard_hyp hx : Kept q x) | apply State.setMx_kept | apply mxRefreshFlt_kept
    | apply mxStop_kept | apply mxSlot_kept | apply mxStart_kept | apply Kept.ite | apply Kept.when | apply Kept.each)

theorem lgtWrite_kept {r : WriteReq} {s : State} (hK : Kept q s) : Kept q (lgtWrite r s) := by
  unfold lgtWrite
  with_reducible repeat' (first
    | assumption | apply blockWrite_kept | apply noHook_kept | apply noRej_kept | apply lgtWritten_kept
    | apply strWritten_kept | apply sinkWritten_kept | apply mxWritten_kept | apply Kept.ite)

theorem lchWritten_kept {o : Nat} {s : State} {old : Word} {w : Word} (hK : Kept q s) : Kept q (lchWritten o s old
    w) := by
  unfold lchWritten
  with_reducible repeat' (first
    | assumption | apply State.setChain_kept | apply chainPin_kept | apply chainRequest_kept | apply Kept.ite)

theorem lchWrite_kept {r : WriteReq} {s : State} (hK : Kept q s) : Kept q (lchWrite r s) := by
  unfold lchWrite
  with_reducible repeat' (first | assumption | apply blockWrite_kept | apply noRej_kept | apply lchWritten_kept)

/-! ### Update -/

theorem setUpd_kept {s : State} {g : UpdSt → UpdSt} (hK : Kept q s) : Kept q (setUpd s g) := by
  unfold setUpd
  with_reducible repeat' (first | assumption | apply Kept.upd)

theorem updBegin_kept {s : State} {slot : Bool} {m : List Word} (hK : Kept q s) : Kept q (updBegin s slot m) := by
  unfold updBegin
  with_reducible repeat' (first
    | assumption | apply Kept.wr | apply State.putWords_kept | apply setEcr_kept | apply setUpd_kept)

theorem updData_kept {s : State} {nw : Nat} (hK : Kept q s) : Kept q (updData s nw) := by
  unfold updData
  with_reducible repeat' (first | assumption | apply State.put_kept | apply State.putWords_kept)

theorem updEnd_kept {s : State} {tag : List Nat} (hK : Kept q s) : Kept q (updEnd s tag).1 := by
  unfold updEnd
  with_reducible repeat' (first
    | assumption
    | (extract_lets +onlyGivenNames x; refine (fun hx : Kept q x => ?_) ?_; rotate_left; subst x; rotate_left; clear_value x)
    | (extract_lets +onlyGivenNames x; clear_value x) | apply State.put_kept | apply setEcr_kept | apply setUpd_kept
    | split)

theorem updAbort_kept {s : State} (hK : Kept q s) : Kept q (updAbort s) := by
  unfold updAbort
  with_reducible repeat' (first
    | assumption | (intro x hx; guard_hyp hx : Kept q x) | apply State.put_kept | apply setEcr_kept | apply setUpd_kept
    | apply Kept.when)

theorem dkImport_kept {s : State} {dk : List Nat} (hK : Kept q s) : Kept q (dkImport s dk) := by
  unfold dkImport
  with_reducible repeat' (first | assumption | apply setUpd_kept)

theorem updCommand_kept {s : State} {w : Word} (hK : Kept q s) : Kept q (updCommand s w) := by
  unfold updCommand
  with_reducible repeat' (first
    | assumption | apply State.put_kept | apply setUpd_kept | apply updBegin_kept | apply updAbort_kept
    | apply dkImport_kept | split)

theorem execUpdCommandDone_kept {s : State} (hK : Kept q s) : KeptA q (execUpdCommandDone s) := by
  unfold execUpdCommandDone
  with_reducible repeat' (first
    | assumption | apply State.put_kept | apply State.on_kept | apply setUpd_kept | apply updData_kept
    | apply updEnd_kept | apply KeptA.next | split)

theorem edCommand_kept {s : State} {op : Nat} (hK : Kept q s) : Kept q (edCommand s op) := by
  unfold edCommand
  with_reducible repeat' (first
    | assumption | (intro x hx; guard_hyp hx : Kept q x) | apply State.put_kept | apply setEcr_kept | apply Kept.when
    | split | apply Kept.upd)

theorem execTrialTimeRecord_kept {s : State} (hK : Kept q s) : KeptA q (execTrialTimeRecord s) := by
  unfold execTrialTimeRecord
  with_reducible repeat' (first
    | assumption | (intro x hx; guard_hyp hx : Kept q x) | apply setEcr_kept | apply setUpd_kept | apply KeptA.next
    | apply Kept.when)

theorem trialExpiryEffect_kept {s : State} (hK : Kept q s) : Kept q (trialExpiryEffect s) := by
  unfold trialExpiryEffect
  with_reducible repeat' (first
    | assumption | apply State.put_kept | apply setEcr_kept | apply setUpd_kept | apply Kept.upd)

theorem trialServe_kept {s : State} (hK : Kept q s) : Kept q (trialServe s) := by
  unfold trialServe
  with_reducible repeat' (first | assumption | apply trialExpiryEffect_kept | apply Kept.when | apply Kept.upd)

theorem execTrialExpiry_kept {s : State} (hK : Kept q s) : KeptA q (execTrialExpiry s) := by
  unfold execTrialExpiry
  with_reducible repeat' (first | assumption | apply State.expire_kept | apply trialServe_kept | apply KeptA.next)

theorem rowStart_kept {s : State} (hK : Kept q s) : Kept q (rowStart s) := by
  unfold rowStart
  with_reducible repeat' (first | assumption | apply State.put_kept | apply Kept.upd)

theorem execNvRowWriteDone_kept {s : State} (hK : Kept q s) : KeptA q (execNvRowWriteDone s) := by
  unfold execNvRowWriteDone
  with_reducible repeat' (first
    | assumption | apply State.put_kept | apply State.putWords_kept | apply State.on_kept | apply healBad_kept
    | apply KeptA.next | split | apply Kept.upd)

theorem sysBlkDone_kept {s8ok : Bool} {o : Nat} {s : State} {w : Word} (hK : Kept q s) : Kept q (sysBlkDone s8ok o
    s w) := by
  unfold sysBlkDone
  with_reducible repeat' (first
    | assumption | apply State.put_kept | apply coreStart_kept | apply setUpd_kept | apply updCommand_kept
    | apply edCommand_kept | apply rowStart_kept | split | apply Kept.upd)

theorem sysBlkWrite_kept {s8ok : Bool} {r : WriteReq} {s : State} (hK : Kept q s) : Kept q (sysBlkWrite s8ok r s) := by
  unfold sysBlkWrite
  with_reducible repeat' (first
    | assumption | intro _ | apply blockWrite_kept | apply noRej_kept | apply sysBlkDone_kept)

/-! ### FolioCmds -/

theorem folioEnd_kept {s : State} {fail : Option (Nat × Nat)} (hK : Kept q s) : Kept q (folioEnd s fail) := by
  unfold folioEnd
  with_reducible repeat' (first | assumption | apply State.put_kept | apply folioErr_kept | split | apply Kept.upd)

theorem folioStart_kept {s : State} {src : Src} {op : Nat} (hK : Kept q s) : Kept q (folioStart s src op) := by
  unfold folioStart
  with_reducible repeat' (first
    | assumption | apply State.put_kept | apply folioEnd_kept | apply Kept.ite | apply Kept.upd)

theorem folioWritten_kept {r : WriteReq} {s : State} {u2 : Word} {w : Word} (hK : Kept q s) : Kept q (folioWritten
    r s u2 w) := by
  unfold folioWritten
  with_reducible repeat' (first | assumption | apply folioStart_kept | split | apply Kept.upd)

theorem folioWrite_kept {r : WriteReq} {s : State} (hK : Kept q s) : Kept q (folioWrite r s) := by
  unfold folioWrite
  with_reducible repeat' (first
    | assumption | (intro x hx; guard_hyp hx : Kept q x) | apply blockWrite_kept | apply noRej_kept
    | apply folioWritten_kept)

theorem refoldStep3_kept {s : State} {other : Bool} {req : Nat} {f : FolioSt} (hK : Kept q s) : Kept q (refoldStep3
    s other req f) := by
  unfold refoldStep3
  with_reducible repeat' (first
    | assumption | (intro x a hx; guard_hyp hx : Kept q x) | apply State.put_kept | apply State.setReady_kept
    | apply loadBefore_kept | apply Kept.each | apply Kept.upd)

theorem execFolioVerifyEnd_kept {s : State} (hK : Kept q s) : KeptA q (execFolioVerifyEnd s) := by
  unfold execFolioVerifyEnd
  with_reducible repeat' (first
    | assumption | apply folioEnd_kept | apply refoldStep3_kept | apply KeptA.next | apply KeptA.go | split)

theorem refoldRewrite_kept {s : State} {other : Bool} {req : Nat} {cans : List Nat} {isls : List Island} {new :
    FolioSt} (hK : Kept q s) : Kept q (refoldRewrite s other req cans isls new) := by
  unfold refoldRewrite
  with_reducible repeat' (first
    | assumption | (intro x hx; guard_hyp hx : Kept q x) | (intro x a hx; guard_hyp hx : Kept q x)
    | apply State.put_kept | apply State.setReady_kept | apply canReset1_kept | apply canMemClear_kept
    | apply ringReset_kept | apply accReset_kept | apply vaultRefold_kept | apply loadStruct_kept
    | apply loadRewrite_kept | apply icuResetTargets_kept | apply tbaseReset_kept | apply netReset_kept
    | apply coresReset_kept | apply pwrReset_kept | apply setEcr_kept | apply release_kept | apply refoldPair_kept
    | apply Kept.when | apply Kept.each)

theorem execRefoldDone_kept {s : State} (hK : Kept q s) : KeptA q (execRefoldDone s) := by
  unfold execRefoldDone
  with_reducible repeat' (first
    | assumption | apply folioEnd_kept | apply refoldRewrite_kept | apply KeptA.next | apply KeptA.go | split)

/-! ### Power -/

theorem execPowerStateChoice_kept {save : Nat} {s : State} (hK : Kept q s) : KeptA q (execPowerStateChoice save s) := by
  unfold execPowerStateChoice
  with_reducible repeat' (first
    | assumption | (intro x hx; guard_hyp hx : Kept q x) | apply State.put_kept | apply setPwr_kept | apply Kept.ite
    | apply KeptA.next | apply Kept.when)

theorem padLatch_kept {s : State} (hK : Kept q s) : Kept q (padLatch s) := by
  unfold padLatch
  with_reducible repeat' (first | assumption | apply State.put_kept | apply setPwr_kept)

theorem downAt_kept {s : State} {st : PState} (hK : Kept q s) : Kept q (downAt s st) := by
  unfold downAt
  with_reducible repeat' (first
    | assumption | (intro x hx; guard_hyp hx : Kept q x) | apply State.put_kept | apply State.setReady_kept
    | apply beatStop_kept | apply setPwr_kept | apply nmgPark_kept | apply linPark_kept | apply inpPark_kept
    | apply lightCold_kept | apply powerPark_kept | apply allNotReady_kept | apply padLatch_kept | apply Kept.when
    | apply Kept.upd)

theorem entryServe_kept {s : State} (hK : Kept q s) : Kept q (entryServe s) := by
  unfold entryServe
  with_reducible repeat' (first
    | assumption | (intro x hx; guard_hyp hx : Kept q x) | apply State.put_kept | apply setPwr_kept | apply downAt_kept
    | apply Kept.ite | apply Kept.when | apply Kept.foldl | apply Kept.foldl2 | split | apply Kept.upd)

theorem execParkEntryCommit_kept {s : State} (hK : Kept q s) : KeptA q (execParkEntryCommit s) := by
  unfold execParkEntryCommit
  with_reducible repeat' (first
    | assumption | apply State.expire_kept | apply entryServe_kept | apply KeptA.next | apply KeptA.go | apply Kept.upd)

theorem parkInputSampleEffect_kept {kl30 : Int} {pins : List (Nat × Int)} {ans : List (Nat × Int)} {s : State} (hK
    : Kept q s) : Kept q (parkInputSampleEffect kl30 pins ans s) := by
  unfold parkInputSampleEffect
  with_reducible repeat' (first
    | assumption | (intro x hx; guard_hyp hx : Kept q x) | apply wakeDetect_kept | apply parkSample_kept
    | apply Kept.when)

theorem execParkInputSample_kept {kl30 : Int} {pins : List (Nat × Int)} {ans : List (Nat × Int)} {s : State} (hK :
    Kept q s) : KeptA q (execParkInputSample kl30 pins ans s) := by
  unfold execParkInputSample
  with_reducible repeat' (first | assumption | apply parkInputSampleEffect_kept | apply KeptA.next | apply Kept.when)

theorem parkTime_kept {s : State} (hK : Kept q s) : Kept q (parkTime s) := by
  unfold parkTime
  with_reducible repeat' (first | assumption | apply Kept.upd)

theorem wakeLog_kept {s : State} {st : WakeStage} {n : Nat} (hK : Kept q s) : Kept q (wakeLog s st n) := by
  unfold wakeLog
  with_reducible repeat' (first | assumption | apply State.put_kept | apply State.putNat_kept | split)

theorem deadlinesPassed_kept {s : State} (hK : Kept q s) : Kept q (deadlinesPassed s) := by
  unfold deadlinesPassed
  with_reducible repeat' (first | assumption | apply Kept.ite | apply Kept.upd)

theorem serviceParked_kept {s : State} (hK : Kept q s) : Kept q (serviceParked s) := by
  unfold serviceParked
  with_reducible repeat' (first
    | assumption | (extract_lets +onlyGivenNames x; clear_value x) | apply State.put_kept | apply setVault_kept | split)

theorem wakeClock_kept {s : State} (hK : Kept q s) : Kept q (wakeClock s) := by
  unfold wakeClock
  with_reducible repeat' (first
    | assumption | apply State.put_kept | apply parkTime_kept | apply deadlinesPassed_kept | apply serviceParked_kept
    | apply Kept.upd)

theorem testsAnew_kept {s : State} (hK : Kept q s) : Kept q (testsAnew s) := by
  unfold testsAnew
  with_reducible repeat' (first | assumption | apply Kept.upd)

theorem wakeEnd_kept {s : State} (hK : Kept q s) : Kept q (wakeEnd s) := by
  unfold wakeEnd
  with_reducible repeat' (first
    | assumption | (intro x hx; guard_hyp hx : Kept q x) | apply State.put_kept | apply setPwr_kept
    | apply testsAnew_kept | apply Kept.when)

theorem readyAgain_kept {s : State} (hK : Kept q s) : Kept q (readyAgain s) := by
  unfold readyAgain
  with_reducible repeat' (first
    | assumption | (intro x a hx; guard_hyp hx : Kept q x) | apply State.setReady_kept | apply Kept.each)

theorem restExit_kept {s : State} (hK : Kept q s) : Kept q (restExit s) := by
  unfold restExit
  with_reducible repeat' (first
    | assumption | with_unfolding_all exact fun _ => Or.inl rfl
    | with_unfolding_all exact fun _ => Or.inl Core.setReg_length | (intro x hx; guard_hyp hx : Kept q x)
    | (intro x a hx; guard_hyp hx : Kept q x) | apply beatStart_kept | apply setPwr_kept | apply nmgRest_kept
    | apply restInputs_kept | apply tmrStop1_kept | apply wakeClock_kept | apply wakeEnd_kept | apply readyAgain_kept
    | apply Kept.when | apply Kept.each | apply Kept.mapCores | apply Kept.upd)

theorem parkExit_kept {s : State} {capped : Bool} {tbp : Int} (hK : Kept q s) : Kept q (parkExit s capped tbp) := by
  unfold parkExit
  with_reducible repeat' (first
    | assumption | (intro x hx; guard_hyp hx : Kept q x)
    | (extract_lets +onlyGivenNames x; refine (fun hx : Kept q x => ?_) ?_; rotate_left; subst x; rotate_left; clear_value x)
    | intro _ | apply State.put_kept | apply holdStart_kept | apply setPwr_kept | apply signetMemClear_kept
    | apply ringReset_kept | apply accReset_kept | apply vaultReset_kept | apply loadStrings_kept
    | apply loadStruct_kept | apply safeResetKeep_kept | apply lightCold_kept | apply powerUnpark_kept
    | apply tbaseUnpark_kept | apply netUnpark_kept | apply coresReset_kept | apply callPages_kept
    | apply tcmClear_kept | apply inkwellClear_kept | apply icuReset_kept | apply pwrReset_kept | apply sysReset_kept
    | apply folioReset_kept | apply storeReset_kept | apply wakeClock_kept | apply Kept.ite | apply Kept.when
    | apply Kept.upd)

theorem execWakeStageReady_kept {n : Nat} {tbp : Int} {b : BootIn} {s : State} (hK : Kept q s) : KeptA q
    (execWakeStageReady n tbp b s) := by
  unfold execWakeStageReady
  with_reducible repeat' (first
    | assumption | (intro x hx; guard_hyp hx : Kept q x)
    | (extract_lets +onlyGivenNames x; refine (fun hx : Kept q x => ?_) ?_; rotate_left; subst x; rotate_left; clear_value x)
    | intro _ | apply setPwr_kept | apply cappedStart_kept | apply parkStart_kept | apply wakeLog_kept
    | apply wakeEnd_kept | apply restExit_kept | apply parkExit_kept | apply Kept.ite | apply KeptA.next
    | apply KeptA.go | apply KeptA.ite | split | apply Kept.upd)

theorem forcedCapped_kept {s : State} (hK : Kept q s) : Kept q (forcedCapped s) := by
  unfold forcedCapped
  with_reducible repeat' (first
    | assumption | (intro x hx; guard_hyp hx : Kept q x) | apply State.put_kept | apply setPwr_kept
    | apply nmgPark_kept | apply linPark_kept | apply lightCold_kept | apply powerPark_kept | apply allNotReady_kept
    | apply padLatch_kept | apply Kept.when)

theorem execWakeStageFailure_kept {s : State} (hK : Kept q s) : KeptA q (execWakeStageFailure s) := by
  unfold execWakeStageFailure
  with_reducible repeat' (first
    | assumption
    | (extract_lets +onlyGivenNames x; refine (fun hx : Kept q x => ?_) ?_; rotate_left; subst x; rotate_left; clear_value x)
    | apply State.put_kept | apply State.satField_kept | apply State.putNat_kept | apply setPwr_kept
    | apply forcedCapped_kept | apply KeptA.next | split)

theorem wakeRetryEffect_kept {s : State} (hK : Kept q s) : Kept q (wakeRetryEffect s) := by
  unfold wakeRetryEffect
  with_reducible repeat' (first | assumption | apply State.put_kept | apply State.putNat_kept | apply setPwr_kept)

theorem execWakeRetry_kept {s : State} (hK : Kept q s) : KeptA q (execWakeRetry s) := by
  unfold execWakeRetry
  with_reducible repeat' (first | assumption | apply wakeRetryEffect_kept | apply KeptA.next | apply Kept.when)

theorem aonWritten_kept {o : Nat} {s : State} (hK : Kept q s) : Kept q (aonWritten o s) := by
  unfold aonWritten
  with_reducible repeat' (first | assumption | apply State.put_kept | apply setPwr_kept | apply Kept.ite)

theorem aonBlkWrite_kept {r : WriteReq} {s : State} (hK : Kept q s) : Kept q (aonBlkWrite r s) := by
  unfold aonBlkWrite
  with_reducible repeat' (first
    | assumption | intro _ | apply blockWrite_kept | apply noRej_kept | apply nmgWrite_kept | apply aonWritten_kept
    | split)

theorem alarmWake_kept {s : State} (hK : Kept q s) : Kept q (alarmWake s) := by
  unfold alarmWake
  with_reducible repeat' (first | assumption | apply setPwr_kept | apply wakeDetect_kept)

theorem secondEdge_kept {s : State} (hK : Kept q s) : Kept q (secondEdge s) := by
  unfold secondEdge
  with_reducible repeat' (first
    | assumption | apply State.put_kept | apply State.incField_kept | apply alarmWake_kept | apply Kept.when)

theorem aonTake1_kept {s : State} {w : AonWrite} (hK : Kept q s) : Kept q (aonTake1 s w) := by
  unfold aonTake1
  with_reducible repeat' (first
    | assumption | (intro x hx; guard_hyp hx : Kept q x) | apply State.mark_kept | apply State.setRej_kept
    | apply State.clearRej_kept | apply aonBlkWrite_kept | apply Kept.ite | apply Kept.when)

theorem aonTake_kept {s : State} (hK : Kept q s) : Kept q (aonTake s) := by
  unfold aonTake
  with_reducible repeat' (first | assumption | apply aonTake1_kept | apply Kept.each | apply Kept.upd)

theorem rtcCycles_kept {s : State} {n : Nat} (hK : Kept q s) : Kept q (rtcCycles s n) := by
  unfold rtcCycles
  with_reducible repeat' (first | assumption | apply parkTime_kept | apply Kept.ite | apply Kept.upd)

theorem rtcEdge_kept {s : State} (hK : Kept q s) : Kept q (rtcEdge s) := by
  unfold rtcEdge
  extract_lets s1 sub
  have h1 : Kept q s1 := rtcCycles_kept (Kept.upd hK)
  clear_value s1 sub
  exact Kept.refresh (aonTake_kept (Kept.ite (secondEdge_kept h1) (State.put_kept h1)))

theorem execAonWriteEffect_kept {s : State} (hK : Kept q s) : KeptA q (execAonWriteEffect s) := by
  unfold execAonWriteEffect
  with_reducible repeat' (first | assumption | apply rtcEdge_kept | apply KeptA.next)

theorem execWakeDetect_kept {src : Fin 9} {s : State} (hK : Kept q s) : KeptA q (execWakeDetect src s) := by
  unfold execWakeDetect
  with_reducible repeat' (first
    | assumption | (intro x hx; guard_hyp hx : Kept q x) | apply wakeDetect_kept | apply rtcEdge_kept | apply Kept.ite
    | apply KeptA.next | apply Kept.when)

theorem execRtcSecond_kept {s : State} (hK : Kept q s) : KeptA q (execRtcSecond s) := by
  unfold execRtcSecond
  with_reducible repeat' (first
    | assumption | apply State.put_kept | apply aonTake_kept | apply rtcCycles_kept | apply rtcEdge_kept
    | apply KeptA.next)

theorem pwrWrite_kept {r : WriteReq} {s : State} (hK : Kept q s) : Kept q (pwrWrite r s) := by
  unfold pwrWrite
  with_reducible repeat' (first | assumption | apply blockWrite_kept | apply noHook_kept | apply noRej_kept)

/-! ### Resets -/

theorem execPowerOnReset_kept {cause : PorCause} {b : BootIn} {s : State} (hK : Kept q s) : KeptA q
    (execPowerOnReset cause b s) := by
  unfold execPowerOnReset
  with_reducible repeat' (first
    | assumption | (intro x hx; guard_hyp hx : Kept q x) | apply State.put_kept | apply porStart_kept
    | apply KeptA.next | apply Kept.when)

theorem leaveDown_kept {s : State} {tbp : Int} (hK : Kept q s) : Kept q (leaveDown s tbp) := by
  unfold leaveDown
  with_reducible repeat' (first
    | assumption | apply setPwr_kept | apply restExit_kept | apply parkExit_kept | apply Kept.ite | apply Kept.upd)

theorem warmFrom_kept {s : State} {cause : WarmCause} {tbp : Int} {b : BootIn} (hK : Kept q s) : Kept q (warmFrom s
    cause tbp b) := by
  unfold warmFrom
  with_reducible repeat' (first
    | assumption | apply setPwr_kept | apply warmStart_kept | apply leaveDown_kept | apply Kept.upd)

theorem execResetNAssert_kept {ns : Nat} {tbp : Int} {b : BootIn} {s : State} (hK : Kept q s) : KeptA q
    (execResetNAssert ns tbp b s) := by
  unfold execResetNAssert
  with_reducible repeat' (first
    | assumption | apply State.put_kept | apply State.drawn_kept | apply setBoot_kept | apply warmFrom_kept
    | apply Kept.ite | apply KeptA.next | apply Kept.when)

theorem execWarmReset_kept {tbp : Int} {b : BootIn} {s : State} (hK : Kept q s) : KeptA q (execWarmReset tbp b s) := by
  unfold execWarmReset
  with_reducible repeat' (first
    | assumption | apply warmFrom_kept | apply Kept.ite | apply KeptA.next | apply KeptA.ite)

theorem execCoreReset_kept {pairB : Bool} {s8ok : Bool} {s : State} (hK : Kept q s) : KeptA q (execCoreReset pairB
    s8ok s) := by
  unfold execCoreReset
  with_reducible repeat' (first | assumption | apply coreStart_kept | apply KeptA.next)

theorem execBootWatchdogExpiry_kept {b : BootIn} {s : State} (hK : Kept q s) : KeptA q (execBootWatchdogExpiry b s) := by
  unfold execBootWatchdogExpiry
  with_reducible repeat' (first | assumption | apply setBoot_kept | apply warmStart_kept | apply KeptA.next | split)

theorem execSafeResetAssert_kept {s8ok : Bool} {b : BootIn} {s : State} (hK : Kept q s) : KeptA q
    (execSafeResetAssert s8ok b s) := by
  unfold execSafeResetAssert
  with_reducible repeat' (first
    | assumption | (intro x a hx; guard_hyp hx : Kept q x) | apply coreStart_kept | apply warmFrom_kept
    | apply Kept.ite | apply KeptA.next | apply Kept.each | apply Kept.upd)

theorem execPll1Loss_kept {crystal : Bool} {s : State} (hK : Kept q s) : KeptA q (execPll1Loss crystal s) := by
  unfold execPll1Loss
  with_reducible repeat' (first | assumption | apply pll1LossEffect_kept | apply KeptA.next | apply Kept.when)

theorem execFabricTimeout_kept {ecc : Bool} {req : Nat} {addr : Nat} {isWrite : Bool} {s : State} (hK : Kept q s) :
    KeptA q (execFabricTimeout ecc req addr isWrite s) := by
  unfold execFabricTimeout
  with_reducible repeat' (first
    | assumption
    | (extract_lets +onlyGivenNames x; refine (fun hx : Kept q x => ?_) ?_; rotate_left; subst x; rotate_left; clear_value x)
    | (extract_lets +onlyGivenNames x; clear_value x) | apply State.setRej_kept | apply State.fabErr_kept
    | apply safeDetect_kept | apply State.fault_kept | apply KeptA.next | split)

theorem execVoteCorrection_kept {blk : Blk} {off : Nat} {s : State} (hK : Kept q s) : KeptA q (execVoteCorrection
    blk off s) := by
  unfold execVoteCorrection
  with_reducible repeat' (first
    | assumption | (intro x hx; guard_hyp hx : Kept q x) | apply Kept.wr | apply State.put_kept
    | apply State.satField_kept | apply KeptA.next | apply Kept.when | split)

/-! ### Recovery -/

theorem setRcv_kept {s : State} {g : RecSt → RecSt} (hK : Kept q s) : Kept q (setRcv s g) := by
  unfold setRcv
  with_reducible repeat' (first | assumption | apply Kept.upd)

theorem recSend_kept {s : State} {dbg : Bool} {ty : Nat} {body : List Nat} (hK : Kept q s) : Kept q (recSend s dbg
    ty body) := by
  unfold recSend
  with_reducible repeat' (first | assumption | apply setRcv_kept | apply Kept.ite)

theorem recAck_kept {s : State} {dbg : Bool} {ty : Nat} {row : Nat} {code : Nat} (hK : Kept q s) : Kept q (recAck s
    dbg ty row code) := by
  unfold recAck
  with_reducible repeat' (first | assumption | apply recSend_kept)

theorem withChallenge_kept {s : State} (hK : Kept q s) : Kept q (withChallenge s) := by
  unfold withChallenge
  with_reducible repeat' (first
    | assumption | (intro x hx; guard_hyp hx : Kept q x) | apply State.drawn_kept | apply Kept.when | apply Kept.upd)

theorem helloSend_kept {s : State} {reason : Nat} (hK : Kept q s) : Kept q (helloSend s reason) := by
  unfold helloSend
  with_reducible repeat' (first | assumption | apply recSend_kept | apply withChallenge_kept)

theorem execRecoveryHello_kept {s : State} (hK : Kept q s) : KeptA q (execRecoveryHello s) := by
  unfold execRecoveryHello
  with_reducible repeat' (first
    | assumption | apply State.drawn_kept | apply setRcv_kept | apply helloSend_kept | apply KeptA.next | split)

theorem recAttn_kept {s : State} {dbg : Bool} (hK : Kept q s) : Kept q (recAttn s dbg) := by
  unfold recAttn
  with_reducible repeat' (first | assumption | apply setBoot_kept | apply recAck_kept | split)

theorem recRecover_kept {s : State} {dbg : Bool} {body : List Nat} (hK : Kept q s) : Kept q (recRecover s dbg body) := by
  unfold recRecover
  with_reducible repeat' (first
    | assumption | (extract_lets +onlyGivenNames x) | apply setRcv_kept | apply recAck_kept | split)

theorem recManifest_kept {s : State} {dbg : Bool} {body : List Nat} (hK : Kept q s) : Kept q (recManifest s dbg
    body) := by
  unfold recManifest
  with_reducible repeat' (first
    | assumption
    | (extract_lets +onlyGivenNames x; refine (fun hx : Kept q x => ?_) ?_; rotate_left; subst x; rotate_left; clear_value x)
    | (extract_lets +onlyGivenNames x; clear_value x) | apply State.put_kept | apply State.putWords_kept
    | apply setUpd_kept | apply updBegin_kept | apply setRcv_kept | apply recAck_kept | split)

theorem recData_kept {s : State} {dbg : Bool} {body : List Nat} (hK : Kept q s) : Kept q (recData s dbg body) := by
  unfold recData
  with_reducible repeat' (first
    | assumption | apply setUpd_kept | apply updData_kept | apply setRcv_kept | apply recAck_kept | apply Kept.ite)

theorem recEnd_kept {s : State} {dbg : Bool} {body : List Nat} (hK : Kept q s) : Kept q (recEnd s dbg body) := by
  unfold recEnd
  with_reducible repeat' (first
    | assumption | apply setEcr_kept | apply updEnd_kept | apply setRcv_kept | apply recAck_kept | apply Kept.ite
    | apply Kept.upd)

theorem recOwner_kept {s : State} {dbg : Bool} {body : List Nat} (hK : Kept q s) : Kept q (recOwner s dbg body) := by
  unfold recOwner
  with_reducible repeat' (first
    | assumption | (intro x a hx; guard_hyp hx : Kept q x) | apply State.put_kept | apply lcCommand_kept
    | apply recAck_kept | apply Kept.ite | apply Kept.each)

theorem recDkImport_kept {s : State} {dbg : Bool} {body : List Nat} (hK : Kept q s) : Kept q (recDkImport s dbg
    body) := by
  unfold recDkImport
  with_reducible repeat' (first | assumption | apply dkImport_kept | apply recAck_kept | apply Kept.ite)

theorem recMessage_kept {s : State} {ty : Nat} {dbg : Bool} {body : List Nat} (hK : Kept q s) : Kept q (recMessage
    s ty dbg body) := by
  unfold recMessage
  with_reducible repeat' (first
    | assumption | apply recSend_kept | apply withChallenge_kept | apply recAttn_kept | apply recRecover_kept
    | apply recManifest_kept | apply recData_kept | apply recEnd_kept | apply recOwner_kept | apply recDkImport_kept
    | split)

theorem execRecoveryAttn_kept {dbg : Bool} {body : List Nat} {s : State} (hK : Kept q s) : KeptA q
    (execRecoveryAttn dbg body s) := by
  unfold execRecoveryAttn
  with_reducible repeat' (first | assumption | apply recMessage_kept | apply KeptA.next)

theorem execRecoveryRecover_kept {dbg : Bool} {body : List Nat} {s : State} (hK : Kept q s) : KeptA q
    (execRecoveryRecover dbg body s) := by
  unfold execRecoveryRecover
  with_reducible repeat' (first | assumption | apply recMessage_kept | apply KeptA.next)

theorem execRecoveryManifest_kept {dbg : Bool} {body : List Nat} {s : State} (hK : Kept q s) : KeptA q
    (execRecoveryManifest dbg body s) := by
  unfold execRecoveryManifest
  with_reducible repeat' (first | assumption | apply recMessage_kept | apply KeptA.next)

theorem execRecoveryData_kept {dbg : Bool} {body : List Nat} {s : State} (hK : Kept q s) : KeptA q
    (execRecoveryData dbg body s) := by
  unfold execRecoveryData
  with_reducible repeat' (first | assumption | apply recMessage_kept | apply KeptA.next)

theorem execRecoveryEnd_kept {dbg : Bool} {body : List Nat} {s : State} (hK : Kept q s) : KeptA q (execRecoveryEnd
    dbg body s) := by
  unfold execRecoveryEnd
  with_reducible repeat' (first | assumption | apply recMessage_kept | apply KeptA.next)

theorem execRecoveryOwner_kept {dbg : Bool} {body : List Nat} {s : State} (hK : Kept q s) : KeptA q
    (execRecoveryOwner dbg body s) := by
  unfold execRecoveryOwner
  with_reducible repeat' (first | assumption | apply recMessage_kept | apply KeptA.next)

theorem execRecoveryDkimport_kept {dbg : Bool} {body : List Nat} {s : State} (hK : Kept q s) : KeptA q
    (execRecoveryDkimport dbg body s) := by
  unfold execRecoveryDkimport
  with_reducible repeat' (first | assumption | apply recMessage_kept | apply KeptA.next)

theorem recoveryWindowEndEffect_kept {s : State} (hK : Kept q s) : Kept q (recoveryWindowEndEffect s) := by
  unfold recoveryWindowEndEffect
  with_reducible repeat' (first
    | assumption | apply setBoot_kept | apply bootRecord_kept | apply enterRecovery_kept | apply bootRest_kept
    | apply Kept.ite)

theorem windowServe_kept {s : State} (hK : Kept q s) : Kept q (windowServe s) := by
  unfold windowServe
  with_reducible repeat' (first | assumption | apply recoveryWindowEndEffect_kept | apply Kept.when)

theorem execRecoveryWindowEnd_kept {s : State} (hK : Kept q s) : KeptA q (execRecoveryWindowEnd s) := by
  unfold execRecoveryWindowEnd
  with_reducible repeat' (first | assumption | apply State.expire_kept | apply windowServe_kept | apply KeptA.next)

theorem recDiscard_kept {s : State} (hK : Kept q s) : Kept q (recDiscard s) := by
  unfold recDiscard
  with_reducible repeat' (first
    | assumption | (intro x hx; guard_hyp hx : Kept q x) | apply setRcv_kept | apply recAck_kept | apply Kept.when)

theorem segmentServe_kept {s : State} (hK : Kept q s) : Kept q (segmentServe s) := by
  unfold segmentServe
  with_reducible repeat' (first | assumption | apply recDiscard_kept | apply Kept.when)

theorem execRecoverySegmentTimeout_kept {s : State} (hK : Kept q s) : KeptA q (execRecoverySegmentTimeout s) := by
  unfold execRecoverySegmentTimeout
  with_reducible repeat' (first | assumption | apply State.expire_kept | apply segmentServe_kept | apply KeptA.next)

theorem recFrame_kept {s : State} {dbg : Bool} {os : List Nat} (hK : Kept q s) : Kept q (recFrame s dbg os) := by
  unfold recFrame
  with_reducible repeat' (first
    | assumption | apply setRcv_kept | apply recMessage_kept | apply recDiscard_kept | apply Kept.ite)

theorem execDbgTransfer_kept {octets : List Nat} {s : State} (hK : Kept q s) : KeptA q (execDbgTransfer octets s) := by
  unfold execDbgTransfer
  with_reducible repeat' (first
    | assumption | apply setRcv_kept | apply recFrame_kept | apply Kept.ite | apply KeptA.next)

theorem linkServe_kept {s : State} (hK : Kept q s) : Kept q (linkServe s) := by
  unfold linkServe
  with_reducible repeat' (first
    | assumption | (intro x hx; guard_hyp hx : Kept q x) | apply setRcv_kept | apply Kept.when)

theorem execDbgLinkTimeout_kept {s : State} (hK : Kept q s) : KeptA q (execDbgLinkTimeout s) := by
  unfold execDbgLinkTimeout
  with_reducible repeat' (first | assumption | apply State.expire_kept | apply linkServe_kept | apply KeptA.next)

theorem execCanFrameReceived_kept {n : Fin 8} {w0 : Word} {dlc : BitVec 4} {data : List Nat} {stamp : Word} {own :
    Bool} {s : State} (hK : Kept q s) : KeptA q (execCanFrameReceived n w0 dlc data stamp own s) := by
  unfold execCanFrameReceived
  with_reducible repeat' (first
    | assumption | (intro x hx; guard_hyp hx : Kept q x) | apply State.on_kept | apply canFrameIn_kept
    | apply canOwnIn_kept | apply recFrame_kept | apply Kept.ite | apply KeptA.next | apply KeptA.ite | apply Kept.when)

/-! ### RegWrite -/

theorem blkWriteAt_kept {s8ok : Bool} {r : WriteReq} {s : State} (hK : Kept q s) : Kept q (blkWriteAt s8ok r s) := by
  unfold blkWriteAt
  with_reducible repeat' (first
    | assumption | apply blockWrite_kept | apply noHook_kept | apply noRej_kept | apply canWrite_kept
    | apply linWrite_kept | apply spicWrite_kept | apply ethWrite_kept | apply ringWrite_kept | apply nmgWrite_kept
    | apply pscWrite_kept | apply psgWrite_kept | apply motWrite_kept | apply stkWrite_kept | apply accWrite_kept
    | apply tmrWrite_kept | apply ruleWrite_kept | apply inpWrite_kept | apply cryptWrite_kept | apply vaultWrite_kept
    | apply safeWrite_kept | apply icuWrite_kept | apply lgtWrite_kept | apply lchWrite_kept | apply sysBlkWrite_kept
    | apply folioWrite_kept | apply aonBlkWrite_kept | apply pwrWrite_kept | split)

theorem toBlock_kept {s8ok : Bool} {r : WriteReq} {s : State} (hK : Kept q s) : Kept q (toBlock s8ok r s) := by
  unfold toBlock
  with_reducible repeat' (first
    | assumption | apply State.fabReject_kept | apply blkWriteAt_kept | apply Kept.ite | apply Kept.upd)

theorem devPut_kept {s8ok : Bool} {src : Src} {blk : Blk} {off : Nat} {w : Word} {s : State} (hK : Kept q s) :
    KeptA q (devPut s8ok src blk off w s) := by
  unfold devPut
  with_reducible repeat' (first
    | assumption | apply toBlock_kept | apply KeptA.go | apply KeptA.ite | apply KeptA.fault)

theorem deviceAt_kept {s8ok : Bool} {src : Src} {a : Nat} {w : Word} {s : State} (hK : Kept q s) : KeptA q
    (deviceAt s8ok src a w s) := by
  unfold deviceAt
  with_reducible repeat' (first
    | assumption | apply State.fabReject_kept | apply devPut_kept | apply KeptA.next | split)

theorem strayDone_kept {p : Posted} {had : Bool} {s : State} (hK : Kept q s) : Kept q (strayDone p had s) := by
  unfold strayDone
  with_reducible repeat' (first
    | assumption | (intro x hx; guard_hyp hx : Kept q x) | apply State.clearRej_kept | apply Kept.when)

theorem andThen_kept {x : Answer} {f : State → Answer} (hx : KeptA q x) (hf : ∀ s, Kept q s → KeptA q (f s)) :
    KeptA q (andThen x f) := by
  cases x with
  | next s => exact hf s (hx.out s rfl)
  | fault e => exact KeptA.fault
  | refused e => exact KeptA.refused
theorem drainPosted_kept {l : List Posted} {s : State} (hK : Kept q s) : KeptA q (drainPosted l s) := by
  induction l generalizing s with
  | nil => exact KeptA.next hK
  | cons p l ih => exact andThen_kept (deviceAt_kept hK) fun _ h => ih (strayDone_kept h)

theorem drainOwn_kept {req : Nat} {blk : Option Blk} {s : State} (hK : Kept q s) : KeptA q (drainOwn req blk s) :=
  drainPosted_kept (Kept.upd hK)

theorem devWrite_kept {s8ok : Bool} {src : Src} {blk : Blk} {off : Nat} {w : Word} {s : State} (hK : Kept q s) :
    KeptA q (devWrite s8ok src blk off w s) := by
  unfold devWrite
  with_reducible repeat' (first | assumption | apply andThen_kept | apply devPut_kept | apply drainOwn_kept)

theorem execRegisterWrite_kept {src : Src} {blk : Blk} {off : Nat} {w : Word} {s : State} (hK : Kept q s) : KeptA q
    (execRegisterWrite src blk off w s) := by
  unfold execRegisterWrite
  with_reducible repeat' (first | assumption | apply devWrite_kept)

theorem aliasWriteAt_kept {al : Alias} {src : Src} {blk : Blk} {off : Nat} {w : Word} {s : State} (hK : Kept q s) :
    KeptA q (aliasWriteAt al src blk off w s) := by
  unfold aliasWriteAt
  with_reducible repeat' (first
    | assumption | apply State.fabReject_kept | apply devWrite_kept | apply KeptA.next | apply KeptA.ite)

theorem execAliasSetWrite_kept {src : Src} {blk : Blk} {off : Nat} {w : Word} {s : State} (hK : Kept q s) : KeptA q
    (execAliasSetWrite src blk off w s) := by
  unfold execAliasSetWrite
  with_reducible repeat' (first | assumption | apply aliasWriteAt_kept)

theorem execAliasClearWrite_kept {src : Src} {blk : Blk} {off : Nat} {w : Word} {s : State} (hK : Kept q s) : KeptA
    q (execAliasClearWrite src blk off w s) := by
  unfold execAliasClearWrite
  with_reducible repeat' (first | assumption | apply aliasWriteAt_kept)

theorem execAliasToggleWrite_kept {src : Src} {blk : Blk} {off : Nat} {w : Word} {s : State} (hK : Kept q s) :
    KeptA q (execAliasToggleWrite src blk off w s) := by
  unfold execAliasToggleWrite
  with_reducible repeat' (first | assumption | apply aliasWriteAt_kept)

theorem execSysResetWarm_kept {src : Src} {b : BootIn} {s : State} (hK : Kept q s) : KeptA q (execSysResetWarm src
    b s) := by
  unfold execSysResetWarm
  with_reducible repeat' (first
    | assumption | (intro x hx; guard_hyp hx : Kept q x) | apply andThen_kept | apply warmFrom_kept
    | apply devWrite_kept | apply KeptA.next | split | apply Kept.upd)

theorem execSysResetCoreA_kept {src : Src} {s8ok : Bool} {s : State} (hK : Kept q s) : KeptA q (execSysResetCoreA
    src s8ok s) := by
  unfold execSysResetCoreA
  with_reducible repeat' (first | assumption | apply devWrite_kept)

theorem execSysResetCoreB_kept {src : Src} {s8ok : Bool} {s : State} (hK : Kept q s) : KeptA q (execSysResetCoreB
    src s8ok s) := by
  unfold execSysResetCoreB
  with_reducible repeat' (first | assumption | apply devWrite_kept)

theorem execSafeClear_kept {src : Src} {w : Word} {ended : List (Nat × Nat)} {s : State} (hK : Kept q s) : KeptA q
    (execSafeClear src w ended s) := by
  unfold execSafeClear
  with_reducible repeat' (first | assumption | apply devWrite_kept | apply Kept.upd)

theorem execFolioRefoldOwn_kept {src : Src} {s : State} (hK : Kept q s) : KeptA q (execFolioRefoldOwn src s) := by
  unfold execFolioRefoldOwn
  with_reducible repeat' (first | assumption | apply devWrite_kept)

theorem execFolioRefoldOther_kept {src : Src} {s : State} (hK : Kept q s) : KeptA q (execFolioRefoldOther src s) := by
  unfold execFolioRefoldOther
  with_reducible repeat' (first | assumption | apply devWrite_kept)

theorem execFolioVerifyOther_kept {src : Src} {s : State} (hK : Kept q s) : KeptA q (execFolioVerifyOther src s) := by
  unfold execFolioVerifyOther
  with_reducible repeat' (first | assumption | apply devWrite_kept)

theorem execPscModeOff_kept {src : Src} {f : Fin 72} {w : Word} {s : State} (hK : Kept q s) : KeptA q
    (execPscModeOff src f w s) := by
  unfold execPscModeOff
  with_reducible repeat' (first | assumption | apply devWrite_kept)

theorem execPscModeOn_kept {src : Src} {f : Fin 72} {w : Word} {s : State} (hK : Kept q s) : KeptA q (execPscModeOn
    src f w s) := by
  unfold execPscModeOn
  with_reducible repeat' (first | assumption | apply devWrite_kept)

theorem execPscModePwm_kept {src : Src} {f : Fin 72} {w : Word} {s : State} (hK : Kept q s) : KeptA q
    (execPscModePwm src f w s) := by
  unfold execPscModePwm
  with_reducible repeat' (first | assumption | apply devWrite_kept)

theorem execPscModeLowon_kept {src : Src} {f : Fin 72} {w : Word} {s : State} (hK : Kept q s) : KeptA q
    (execPscModeLowon src f w s) := by
  unfold execPscModeLowon
  with_reducible repeat' (first | assumption | apply devWrite_kept)

theorem execPscModePwmsync_kept {src : Src} {f : Fin 72} {w : Word} {s : State} (hK : Kept q s) : KeptA q
    (execPscModePwmsync src f w s) := by
  unfold execPscModePwmsync
  with_reducible repeat' (first | assumption | apply devWrite_kept)

theorem execPscPwmWrite_kept {src : Src} {f : Fin 72} {w : Word} {s : State} (hK : Kept q s) : KeptA q
    (execPscPwmWrite src f w s) := by
  unfold execPscPwmWrite
  with_reducible repeat' (first | assumption | apply devWrite_kept)

theorem execChannelUnlock_kept {src : Src} {f : Fin 72} {w : Word} {s : State} (hK : Kept q s) : KeptA q
    (execChannelUnlock src f w s) := by
  unfold execChannelUnlock
  with_reducible repeat' (first | assumption | apply devWrite_kept)

theorem execHeartbeatEnable_kept {src : Src} {w : Word} {s : State} (hK : Kept q s) : KeptA q (execHeartbeatEnable
    src w s) := by
  unfold execHeartbeatEnable
  with_reducible repeat' (first | assumption | apply devWrite_kept)

theorem execHeartbeatRefresh_kept {src : Src} {w : Word} {s : State} (hK : Kept q s) : KeptA q
    (execHeartbeatRefresh src w s) := by
  unfold execHeartbeatRefresh
  with_reducible repeat' (first | assumption | apply devWrite_kept)

theorem execChannelReclaim_kept {src : Src} {w : Word} {s : State} (hK : Kept q s) : KeptA q (execChannelReclaim
    src w s) := by
  unfold execChannelReclaim
  with_reducible repeat' (first | assumption | apply devWrite_kept)

theorem execMotCmdStop_kept {src : Src} {k : Fin 6} {w : Word} {s : State} (hK : Kept q s) : KeptA q
    (execMotCmdStop src k w s) := by
  unfold execMotCmdStop
  with_reducible repeat' (first | assumption | apply devWrite_kept)

theorem execMotCmdClose_kept {src : Src} {k : Fin 6} {w : Word} {s : State} (hK : Kept q s) : KeptA q
    (execMotCmdClose src k w s) := by
  unfold execMotCmdClose
  with_reducible repeat' (first | assumption | apply devWrite_kept)

theorem execMotCmdOpen_kept {src : Src} {k : Fin 6} {w : Word} {s : State} (hK : Kept q s) : KeptA q
    (execMotCmdOpen src k w s) := by
  unfold execMotCmdOpen
  with_reducible repeat' (first | assumption | apply devWrite_kept)

theorem execMotCmdGoto_kept {src : Src} {k : Fin 6} {w : Word} {s : State} (hK : Kept q s) : KeptA q
    (execMotCmdGoto src k w s) := by
  unfold execMotCmdGoto
  with_reducible repeat' (first | assumption | apply devWrite_kept)

theorem execMotCmdLearn_kept {src : Src} {k : Fin 6} {w : Word} {s : State} (hK : Kept q s) : KeptA q
    (execMotCmdLearn src k w s) := by
  unfold execMotCmdLearn
  with_reducible repeat' (first | assumption | apply devWrite_kept)

theorem execMotCmdWrun_kept {src : Src} {k : Fin 6} {w : Word} {s : State} (hK : Kept q s) : KeptA q
    (execMotCmdWrun src k w s) := by
  unfold execMotCmdWrun
  with_reducible repeat' (first | assumption | apply devWrite_kept)

theorem execMotCmdWint_kept {src : Src} {k : Fin 6} {w : Word} {s : State} (hK : Kept q s) : KeptA q
    (execMotCmdWint src k w s) := by
  unfold execMotCmdWint
  with_reducible repeat' (first | assumption | apply devWrite_kept)

theorem execMotCmdWsingle_kept {src : Src} {k : Fin 6} {w : Word} {s : State} (hK : Kept q s) : KeptA q
    (execMotCmdWsingle src k w s) := by
  unfold execMotCmdWsingle
  with_reducible repeat' (first | assumption | apply devWrite_kept)

theorem execMotCmdWpark_kept {src : Src} {k : Fin 6} {w : Word} {s : State} (hK : Kept q s) : KeptA q
    (execMotCmdWpark src k w s) := by
  unfold execMotCmdWpark
  with_reducible repeat' (first | assumption | apply devWrite_kept)

theorem execMotCmdDrive_kept {src : Src} {k : Fin 6} {w : Word} {s : State} (hK : Kept q s) : KeptA q
    (execMotCmdDrive src k w s) := by
  unfold execMotCmdDrive
  with_reducible repeat' (first | assumption | apply devWrite_kept)

theorem execMotEnableClear_kept {src : Src} {k : Fin 6} {w : Word} {s : State} (hK : Kept q s) : KeptA q
    (execMotEnableClear src k w s) := by
  unfold execMotEnableClear
  with_reducible repeat' (first | assumption | apply devWrite_kept)

theorem execStkFire_kept {src : Src} {k : Fin 16} {w : Word} {s : State} (hK : Kept q s) : KeptA q (execStkFire src
    k w s) := by
  unfold execStkFire
  with_reducible repeat' (first | assumption | apply devWrite_kept)

theorem execStkRelease_kept {src : Src} {k : Fin 16} {w : Word} {s : State} (hK : Kept q s) : KeptA q
    (execStkRelease src k w s) := by
  unfold execStkRelease
  with_reducible repeat' (first | assumption | apply devWrite_kept)

theorem execStkEnable_kept {src : Src} {k : Fin 16} {w : Word} {s : State} (hK : Kept q s) : KeptA q (execStkEnable
    src k w s) := by
  unfold execStkEnable
  with_reducible repeat' (first | assumption | apply devWrite_kept)

theorem execStkEnableClear_kept {src : Src} {k : Fin 16} {w : Word} {s : State} (hK : Kept q s) : KeptA q
    (execStkEnableClear src k w s) := by
  unfold execStkEnableClear
  with_reducible repeat' (first | assumption | apply devWrite_kept)

theorem execStModeOff_kept {src : Src} {n : Fin 8} {w : Word} {s : State} (hK : Kept q s) : KeptA q (execStModeOff
    src n w s) := by
  unfold execStModeOff
  with_reducible repeat' (first | assumption | apply devWrite_kept)

theorem execStModeOn_kept {src : Src} {n : Fin 8} {w : Word} {s : State} (hK : Kept q s) : KeptA q (execStModeOn
    src n w s) := by
  unfold execStModeOn
  with_reducible repeat' (first | assumption | apply devWrite_kept)

theorem execStModePwm_kept {src : Src} {n : Fin 8} {w : Word} {s : State} (hK : Kept q s) : KeptA q (execStModePwm
    src n w s) := by
  unfold execStModePwm
  with_reducible repeat' (first | assumption | apply devWrite_kept)

theorem execSkModeOff_kept {src : Src} {n : Fin 48} {w : Word} {s : State} (hK : Kept q s) : KeptA q (execSkModeOff
    src n w s) := by
  unfold execSkModeOff
  with_reducible repeat' (first | assumption | apply devWrite_kept)

theorem execSkModeOn_kept {src : Src} {n : Fin 48} {w : Word} {s : State} (hK : Kept q s) : KeptA q (execSkModeOn
    src n w s) := by
  unfold execSkModeOn
  with_reducible repeat' (first | assumption | apply devWrite_kept)

theorem execSkModePwm_kept {src : Src} {n : Fin 48} {w : Word} {s : State} (hK : Kept q s) : KeptA q (execSkModePwm
    src n w s) := by
  unfold execSkModePwm
  with_reducible repeat' (first | assumption | apply devWrite_kept)

theorem execStringUnlock_kept {src : Src} {n : Fin 8} {w : Word} {s : State} (hK : Kept q s) : KeptA q
    (execStringUnlock src n w s) := by
  unfold execStringUnlock
  with_reducible repeat' (first | assumption | apply devWrite_kept)

theorem execMatrixEnable_kept {src : Src} {w : Word} {s : State} (hK : Kept q s) : KeptA q (execMatrixEnable src w
    s) := by
  unfold execMatrixEnable
  with_reducible repeat' (first | assumption | apply devWrite_kept)

theorem execMatrixSwap_kept {src : Src} {w : Word} {s : State} (hK : Kept q s) : KeptA q (execMatrixSwap src w s) := by
  unfold execMatrixSwap
  with_reducible repeat' (first | assumption | apply devWrite_kept)

theorem execMatrixRowUnlock_kept {src : Src} {w : Word} {s : State} (hK : Kept q s) : KeptA q (execMatrixRowUnlock
    src w s) := by
  unfold execMatrixRowUnlock
  with_reducible repeat' (first | assumption | apply devWrite_kept)

theorem execLightReclaim_kept {src : Src} {w : Word} {s : State} (hK : Kept q s) : KeptA q (execLightReclaim src w
    s) := by
  unfold execLightReclaim
  with_reducible repeat' (first | assumption | apply devWrite_kept)

theorem execLchEnable_kept {src : Src} {w : Word} {s : State} (hK : Kept q s) : KeptA q (execLchEnable src w s) := by
  unfold execLchEnable
  with_reducible repeat' (first | assumption | apply devWrite_kept)

theorem execLchGo_kept {src : Src} {w : Word} {s : State} (hK : Kept q s) : KeptA q (execLchGo src w s) := by
  unfold execLchGo
  with_reducible repeat' (first | assumption | apply devWrite_kept)

theorem execLchSwap_kept {src : Src} {w : Word} {s : State} (hK : Kept q s) : KeptA q (execLchSwap src w s) := by
  unfold execLchSwap
  with_reducible repeat' (first | assumption | apply devWrite_kept)

theorem execInputEnable_kept {src : Src} {n : Fin 64} {w : Word} {s : State} (hK : Kept q s) : KeptA q
    (execInputEnable src n w s) := by
  unfold execInputEnable
  with_reducible repeat' (first | assumption | apply devWrite_kept)

theorem execAdcEnable_kept {src : Src} {w : Word} {s : State} (hK : Kept q s) : KeptA q (execAdcEnable src w s) := by
  unfold execAdcEnable
  with_reducible repeat' (first | assumption | apply devWrite_kept)

theorem execTimerEnable_kept {src : Src} {n : Fin 32} {w : Word} {s : State} (hK : Kept q s) : KeptA q
    (execTimerEnable src n w s) := by
  unfold execTimerEnable
  with_reducible repeat' (first | assumption | apply devWrite_kept)

theorem execTimerDisable_kept {src : Src} {n : Fin 32} {w : Word} {s : State} (hK : Kept q s) : KeptA q
    (execTimerDisable src n w s) := by
  unfold execTimerDisable
  with_reducible repeat' (first | assumption | apply devWrite_kept)

theorem execTimerCmdStart_kept {src : Src} {n : Fin 32} {w : Word} {s : State} (hK : Kept q s) : KeptA q
    (execTimerCmdStart src n w s) := by
  unfold execTimerCmdStart
  with_reducible repeat' (first | assumption | apply devWrite_kept)

theorem execTimerCmdStop_kept {src : Src} {n : Fin 32} {w : Word} {s : State} (hK : Kept q s) : KeptA q
    (execTimerCmdStop src n w s) := by
  unfold execTimerCmdStop
  with_reducible repeat' (first | assumption | apply devWrite_kept)

theorem execTimerGlobalStart_kept {src : Src} {w : Word} {s : State} (hK : Kept q s) : KeptA q
    (execTimerGlobalStart src w s) := by
  unfold execTimerGlobalStart
  with_reducible repeat' (first | assumption | apply devWrite_kept)

theorem execRuleSoftwarePulse_kept {src : Src} {w : Word} {s : State} (hK : Kept q s) : KeptA q
    (execRuleSoftwarePulse src w s) := by
  unfold execRuleSoftwarePulse
  with_reducible repeat' (first | assumption | apply devWrite_kept)

theorem execCanEnable_kept {src : Src} {n : Fin 8} {w : Word} {s : State} (hK : Kept q s) : KeptA q (execCanEnable
    src n w s) := by
  unfold execCanEnable
  with_reducible repeat' (first | assumption | apply devWrite_kept)

theorem execCanDisable_kept {src : Src} {n : Fin 8} {w : Word} {s : State} (hK : Kept q s) : KeptA q
    (execCanDisable src n w s) := by
  unfold execCanDisable
  with_reducible repeat' (first | assumption | apply devWrite_kept)

theorem execCanRxRelease_kept {src : Src} {n : Fin 8} {w : Word} {s : State} (hK : Kept q s) : KeptA q
    (execCanRxRelease src n w s) := by
  unfold execCanRxRelease
  with_reducible repeat' (first | assumption | apply devWrite_kept)

theorem execCanTxRequest_kept {src : Src} {n : Fin 8} {k : Fin 8} {w : Word} {s : State} (hK : Kept q s) : KeptA q
    (execCanTxRequest src n k w s) := by
  unfold execCanTxRequest
  with_reducible repeat' (first | assumption | apply devWrite_kept)

theorem execCanTxCancel_kept {src : Src} {n : Fin 8} {w : Word} {s : State} (hK : Kept q s) : KeptA q
    (execCanTxCancel src n w s) := by
  unfold execCanTxCancel
  with_reducible repeat' (first | assumption | apply devWrite_kept)

theorem execCanSealWrite_kept {src : Src} {n : Fin 8} {w : Word} {s : State} (hK : Kept q s) : KeptA q
    (execCanSealWrite src n w s) := by
  unfold execCanSealWrite
  with_reducible repeat' (first | assumption | apply devWrite_kept)

theorem execCanRecover_kept {src : Src} {n : Fin 8} {w : Word} {s : State} (hK : Kept q s) : KeptA q
    (execCanRecover src n w s) := by
  unfold execCanRecover
  with_reducible repeat' (first | assumption | apply devWrite_kept)

theorem execLinGosleep_kept {src : Src} {n : Fin 12} {w : Word} {s : State} (hK : Kept q s) : KeptA q
    (execLinGosleep src n w s) := by
  unfold execLinGosleep
  with_reducible repeat' (first | assumption | apply devWrite_kept)

theorem execLinWakeSend_kept {src : Src} {n : Fin 12} {w : Word} {s : State} (hK : Kept q s) : KeptA q
    (execLinWakeSend src n w s) := by
  unfold execLinWakeSend
  with_reducible repeat' (first | assumption | apply devWrite_kept)

theorem execEthTxKick_kept {src : Src} {p : Fin 6} {w : Word} {s : State} (hK : Kept q s) : KeptA q (execEthTxKick
    src p w s) := by
  unfold execEthTxKick
  with_reducible repeat' (first | assumption | apply devWrite_kept)

theorem execRingEnable_kept {src : Src} {w : Word} {s : State} (hK : Kept q s) : KeptA q (execRingEnable src w s) := by
  unfold execRingEnable
  with_reducible repeat' (first | assumption | apply devWrite_kept)

theorem execRingTxgo_kept {src : Src} {w : Word} {s : State} (hK : Kept q s) : KeptA q (execRingTxgo src w s) := by
  unfold execRingTxgo
  with_reducible repeat' (first | assumption | apply devWrite_kept)

theorem execRingRxRelease_kept {src : Src} {w : Word} {s : State} (hK : Kept q s) : KeptA q (execRingRxRelease src
    w s) := by
  unfold execRingRxRelease
  with_reducible repeat' (first | assumption | apply devWrite_kept)

theorem execRingWakeTone_kept {src : Src} {w : Word} {s : State} (hK : Kept q s) : KeptA q (execRingWakeTone src w
    s) := by
  unfold execRingWakeTone
  with_reducible repeat' (first | assumption | apply devWrite_kept)

theorem execRingCryptConfig_kept {src : Src} {w : Word} {s : State} (hK : Kept q s) : KeptA q (execRingCryptConfig
    src w s) := by
  unfold execRingCryptConfig
  with_reducible repeat' (first | assumption | apply devWrite_kept)

theorem execNmgEnable_kept {src : Src} {c : Fin 12} {w : Word} {s : State} (hK : Kept q s) : KeptA q (execNmgEnable
    src c w s) := by
  unfold execNmgEnable
  with_reducible repeat' (first | assumption | apply devWrite_kept)

theorem execNmgDisable_kept {src : Src} {c : Fin 12} {w : Word} {s : State} (hK : Kept q s) : KeptA q
    (execNmgDisable src c w s) := by
  unfold execNmgDisable
  with_reducible repeat' (first | assumption | apply devWrite_kept)

theorem execNmgRequest_kept {src : Src} {c : Fin 12} {w : Word} {s : State} (hK : Kept q s) : KeptA q
    (execNmgRequest src c w s) := by
  unfold execNmgRequest
  with_reducible repeat' (first | assumption | apply devWrite_kept)

theorem execNmgRelease_kept {src : Src} {c : Fin 12} {w : Word} {s : State} (hK : Kept q s) : KeptA q
    (execNmgRelease src c w s) := by
  unfold execNmgRelease
  with_reducible repeat' (first | assumption | apply devWrite_kept)

theorem execNmgLogClear_kept {src : Src} {w : Word} {s : State} (hK : Kept q s) : KeptA q (execNmgLogClear src w s) := by
  unfold execNmgLogClear
  with_reducible repeat' (first | assumption | apply devWrite_kept)

theorem execLcEnroll_kept {src : Src} {w : Word} {s : State} (hK : Kept q s) : KeptA q (execLcEnroll src w s) := by
  unfold execLcEnroll
  with_reducible repeat' (first | assumption | apply devWrite_kept)

theorem execLcOwner_kept {src : Src} {w : Word} {s : State} (hK : Kept q s) : KeptA q (execLcOwner src w s) := by
  unfold execLcOwner
  with_reducible repeat' (first | assumption | apply devWrite_kept)

theorem execLcField_kept {src : Src} {w : Word} {s : State} (hK : Kept q s) : KeptA q (execLcField src w s) := by
  unfold execLcField
  with_reducible repeat' (first | assumption | apply devWrite_kept)

theorem execLcNewchal_kept {src : Src} {w : Word} {s : State} (hK : Kept q s) : KeptA q (execLcNewchal src w s) := by
  unfold execLcNewchal
  with_reducible repeat' (first | assumption | apply devWrite_kept)

theorem execLcService_kept {src : Src} {w : Word} {s : State} (hK : Kept q s) : KeptA q (execLcService src w s) := by
  unfold execLcService
  with_reducible repeat' (first | assumption | apply devWrite_kept)

theorem execLcEndsvc_kept {src : Src} {w : Word} {s : State} (hK : Kept q s) : KeptA q (execLcEndsvc src w s) := by
  unfold execLcEndsvc
  with_reducible repeat' (first | assumption | apply devWrite_kept)

theorem execLcReturn_kept {src : Src} {w : Word} {s : State} (hK : Kept q s) : KeptA q (execLcReturn src w s) := by
  unfold execLcReturn
  with_reducible repeat' (first | assumption | apply devWrite_kept)

theorem execLcVoid_kept {src : Src} {w : Word} {s : State} (hK : Kept q s) : KeptA q (execLcVoid src w s) := by
  unfold execLcVoid
  with_reducible repeat' (first | assumption | apply devWrite_kept)

theorem execKeyLoad_kept {src : Src} {w : Word} {s : State} (hK : Kept q s) : KeptA q (execKeyLoad src w s) := by
  unfold execKeyLoad
  with_reducible repeat' (first | assumption | apply devWrite_kept)

theorem execKeyClear_kept {src : Src} {w : Word} {s : State} (hK : Kept q s) : KeptA q (execKeyClear src w s) := by
  unfold execKeyClear
  with_reducible repeat' (first | assumption | apply devWrite_kept)

theorem execKeyRestrict_kept {src : Src} {w : Word} {s : State} (hK : Kept q s) : KeptA q (execKeyRestrict src w s) := by
  unfold execKeyRestrict
  with_reducible repeat' (first | assumption | apply devWrite_kept)

theorem execSealReply_kept {src : Src} {c : Fin 4} {w : Word} {s : State} (hK : Kept q s) : KeptA q (execSealReply
    src c w s) := by
  unfold execSealReply
  with_reducible repeat' (first | assumption | apply devWrite_kept)

theorem execCryptJobStart_kept {src : Src} {w : Word} {s : State} (hK : Kept q s) : KeptA q (execCryptJobStart src
    w s) := by
  unfold execCryptJobStart
  with_reducible repeat' (first | assumption | apply devWrite_kept)

theorem execAccEnable_kept {src : Src} {w : Word} {s : State} (hK : Kept q s) : KeptA q (execAccEnable src w s) := by
  unfold execAccEnable
  with_reducible repeat' (first | assumption | apply devWrite_kept)

theorem execAccDisable_kept {src : Src} {w : Word} {s : State} (hK : Kept q s) : KeptA q (execAccDisable src w s) := by
  unfold execAccDisable
  with_reducible repeat' (first | assumption | apply devWrite_kept)

theorem execAccLearn_kept {src : Src} {s : State} (hK : Kept q s) : KeptA q (execAccLearn src s) := by
  unfold execAccLearn
  with_reducible repeat' (first | assumption | apply devWrite_kept)

theorem execAccImport_kept {src : Src} {s : State} (hK : Kept q s) : KeptA q (execAccImport src s) := by
  unfold execAccImport
  with_reducible repeat' (first | assumption | apply devWrite_kept)

theorem execInterruptEoi_kept {src : Src} {t : Fin 5} {w : Word} {s : State} (hK : Kept q s) : KeptA q
    (execInterruptEoi src t w s) := by
  unfold execInterruptEoi
  with_reducible repeat' (first | assumption | apply devWrite_kept)

theorem execIcuSourceConfig_kept {src : Src} {n : Fin 384} {w : Word} {s : State} (hK : Kept q s) : KeptA q
    (execIcuSourceConfig src n w s) := by
  unfold execIcuSourceConfig
  with_reducible repeat' (first | assumption | apply devWrite_kept)

theorem execSafeReactionConfig_kept {src : Src} {cls : Fin 15} {w : Word} {s : State} (hK : Kept q s) : KeptA q
    (execSafeReactionConfig src cls w s) := by
  unfold execSafeReactionConfig
  with_reducible repeat' (first | assumption | apply devWrite_kept)

theorem execUpdBegin_kept {src : Src} {w : Word} {s : State} (hK : Kept q s) : KeptA q (execUpdBegin src w s) := by
  unfold execUpdBegin
  with_reducible repeat' (first | assumption | apply devWrite_kept | apply KeptA.next | apply KeptA.go | apply Kept.upd)

theorem execUpdData_kept {src : Src} {w : Word} {s : State} (hK : Kept q s) : KeptA q (execUpdData src w s) := by
  unfold execUpdData
  with_reducible repeat' (first | assumption | apply devWrite_kept | apply KeptA.next | apply KeptA.go | apply Kept.upd)

theorem execUpdEnd_kept {src : Src} {w : Word} {s : State} (hK : Kept q s) : KeptA q (execUpdEnd src w s) := by
  unfold execUpdEnd
  with_reducible repeat' (first | assumption | apply devWrite_kept | apply KeptA.next | apply KeptA.go | apply Kept.upd)

theorem execUpdAbort_kept {src : Src} {w : Word} {s : State} (hK : Kept q s) : KeptA q (execUpdAbort src w s) := by
  unfold execUpdAbort
  with_reducible repeat' (first | assumption | apply devWrite_kept | apply KeptA.next | apply KeptA.go | apply Kept.upd)

theorem execUpdDkimport_kept {src : Src} {w : Word} {s : State} (hK : Kept q s) : KeptA q (execUpdDkimport src w s) := by
  unfold execUpdDkimport
  with_reducible repeat' (first | assumption | apply devWrite_kept | apply KeptA.next | apply KeptA.go | apply Kept.upd)

theorem execEdArm_kept {src : Src} {s : State} (hK : Kept q s) : KeptA q (execEdArm src s) := by
  unfold execEdArm
  with_reducible repeat' (first | assumption | apply devWrite_kept | apply KeptA.next | apply KeptA.go | apply Kept.upd)

theorem execEdArmnow_kept {src : Src} {s : State} (hK : Kept q s) : KeptA q (execEdArmnow src s) := by
  unfold execEdArmnow
  with_reducible repeat' (first | assumption | apply devWrite_kept | apply KeptA.next | apply KeptA.go | apply Kept.upd)

theorem execEdDisarm_kept {src : Src} {s : State} (hK : Kept q s) : KeptA q (execEdDisarm src s) := by
  unfold execEdDisarm
  with_reducible repeat' (first | assumption | apply devWrite_kept | apply KeptA.next | apply KeptA.go | apply Kept.upd)

theorem execEdConfirm_kept {src : Src} {s : State} (hK : Kept q s) : KeptA q (execEdConfirm src s) := by
  unfold execEdConfirm
  with_reducible repeat' (first | assumption | apply devWrite_kept | apply KeptA.next | apply KeptA.go | apply Kept.upd)

theorem execEdRevert_kept {src : Src} {s : State} (hK : Kept q s) : KeptA q (execEdRevert src s) := by
  unfold execEdRevert
  with_reducible repeat' (first | assumption | apply devWrite_kept | apply KeptA.next | apply KeptA.go | apply Kept.upd)

theorem execEdRetryisl_kept {src : Src} {s : State} (hK : Kept q s) : KeptA q (execEdRetryisl src s) := by
  unfold execEdRetryisl
  with_reducible repeat' (first | assumption | apply devWrite_kept | apply KeptA.next | apply KeptA.go | apply Kept.upd)

theorem execEdRecover_kept {src : Src} {s : State} (hK : Kept q s) : KeptA q (execEdRecover src s) := by
  unfold execEdRecover
  with_reducible repeat' (first | assumption | apply devWrite_kept | apply KeptA.next | apply KeptA.go | apply Kept.upd)

theorem execNvRowWrite_kept {src : Src} {s : State} (hK : Kept q s) : KeptA q (execNvRowWrite src s) := by
  unfold execNvRowWrite
  with_reducible repeat' (first | assumption | apply devWrite_kept | apply KeptA.next | apply KeptA.go | apply Kept.upd)

theorem execPadRelease_kept {src : Src} {w : Word} {s : State} (hK : Kept q s) : KeptA q (execPadRelease src w s) := by
  unfold execPadRelease
  with_reducible repeat' (first | assumption | apply devWrite_kept | apply KeptA.next | apply KeptA.go | apply Kept.upd)

theorem execRtcSet_kept {src : Src} {w : Word} {s : State} (hK : Kept q s) : KeptA q (execRtcSet src w s) := by
  unfold execRtcSet
  with_reducible repeat' (first | assumption | apply devWrite_kept | apply KeptA.next | apply KeptA.go | apply Kept.upd)

theorem execRtcAlarmSet_kept {src : Src} {w : Word} {s : State} (hK : Kept q s) : KeptA q (execRtcAlarmSet src w s) := by
  unfold execRtcAlarmSet
  with_reducible repeat' (first | assumption | apply devWrite_kept | apply KeptA.next | apply KeptA.go | apply Kept.upd)

end Sys2Proof.Laws
end

