-- ==== Sys2Proof/Laws/KeepCpu.lean ====
section
/-! SUPPORT. What every meaning keeps (`Kept` and `KeptA` of Laws/Keep.lean), one lemma per definition: device reads, loads, stores, the integer commands and the idle tick. -/

namespace Sys2Proof.Laws
open Machine

variable {q : List Instr}

/-! ### DevRead -/

theorem readActs_kept {s : State} {src : Src} {b : Blk} {o : Nat} {w : Word} (hK : Kept q s) : Kept q (readActs s
    src b o w).1 := by
  unfold readActs
  with_reducible repeat' (first
    | assumption | apply State.drawn_kept | apply adRead_kept | apply tmrCapRead_kept | apply tmrSnapshot_kept
    | apply claimRead_kept | split)

theorem deviceRead_kept {s : State} {src : Src} {a : Nat} (hK : Kept q s) : Kept q (deviceRead s src a).1 := by
  unfold deviceRead
  with_reducible repeat' (first
    | assumption | (extract_lets +onlyGivenNames x) | apply State.fabErr_kept | apply readActs_kept | split)

theorem readCmd_kept {src : Src} {b : Blk} {off : Nat} {s : State} (hK : Kept q s) : KeptA q (readCmd src b off s) := by
  unfold readCmd
  with_reducible repeat' (first
    | assumption | (intro x hx; guard_hyp hx : Kept q x) | apply andThen_kept | apply drainOwn_kept
    | apply deviceRead_kept | apply KeptA.next)

theorem execInterruptClaim_kept {t : Fin 5} {src : Src} {s : State} (hK : Kept q s) : KeptA q (execInterruptClaim t
    src s) := by
  unfold execInterruptClaim
  with_reducible repeat' (first | assumption | apply readCmd_kept)

theorem execAdcResultRead_kept {src : Src} {n : Fin 16} {s : State} (hK : Kept q s) : KeptA q (execAdcResultRead
    src n s) := by
  unfold execAdcResultRead
  with_reducible repeat' (first | assumption | apply readCmd_kept)

theorem execTimerCapRead_kept {src : Src} {n : Fin 32} {s : State} (hK : Kept q s) : KeptA q (execTimerCapRead src
    n s) := by
  unfold execTimerCapRead
  with_reducible repeat' (first | assumption | apply readCmd_kept)

theorem execTimerCountSnapshot_kept {src : Src} {n : Fin 32} {s : State} (hK : Kept q s) : KeptA q
    (execTimerCountSnapshot src n s) := by
  unfold execTimerCountSnapshot
  with_reducible repeat' (first | assumption | apply readCmd_kept)

/-! ### CpuMem -/

theorem memRaise_kept {s : State} {c : CoreId} {f : Exc × Nat} {a : Word} (hK : Kept q s) : Kept q (memRaise s c f
    a) := by
  unfold memRaise
  with_reducible repeat' (first | assumption | apply State.trap_kept | apply State.fault_kept | split)

theorem issueA_kept {c : CoreId} {s : State} {f : State → Answer} (hK : Kept q s) (hF_f : ∀ v0, Kept q v0 → KeptA q
    (f v0)) : KeptA q (issueA c s f) := by
  unfold issueA
  with_reducible repeat' (first | assumption | apply hF_f | apply fetchRaise_kept | apply KeptA.go | split)

theorem vellumLoad_kept {s : State} {c : Nat} {a : Nat} {n : Nat} (hK : Kept q s) : Kept q (vellumLoad s c a n).1 := by
  unfold vellumLoad
  with_reducible repeat' (first
    | assumption | with_unfolding_all exact fun _ => Or.inl rfl | (extract_lets +onlyGivenNames x)
    | apply State.drawn_kept | apply Kept.setCore | split)

theorem memValue_kept {s : State} {c : Nat} {a : Nat} {n : Nat} (hK : Kept q s) : Kept q (memValue s c a n).1 := by
  unfold memValue
  with_reducible repeat' (first | assumption | apply State.drawn_kept | apply vellumLoad_kept | split)

theorem badLoad_kept {s t : State} {c : CoreId} {a : Word} (hK : Kept q s) (h : badLoad s c a = some t) : Kept q t := by
  unfold badLoad at h
  extract_lets w p s1 at h
  have h1 : Kept q s1 := eccFault_kept hK
  clear_value s1 p w
  split at h
  · injection h with h; exact h ▸ Kept.ite (State.trap_kept h1) (State.fault_kept (State.fabErr_kept h1))
  · cases h

theorem devLoad_kept {c : CoreId} {a : Word} {s : State} {f : State → Word → State} (hK : Kept q s)
    (hf : ∀ s w, Kept q s → Kept q (f s w)) : KeptA q (devLoad c a s f) := by
  unfold devLoad
  extract_lets k
  refine andThen_kept (drainOwn_kept hK) fun s h => ?_
  extract_lets s1
  have h1 : Kept q s1 := Kept.when h fun _ h => rtcEdge_kept h
  refine KeptA.ite (KeptA.go h1) ?_
  have hr := deviceRead_kept (src := ⟨c.val, k.world⟩) (a := a.toNat) h1
  generalize deviceRead s1 ⟨c.val, k.world⟩ a.toNat = r at hr
  rcases r with ⟨t, w | e⟩
  · exact KeptA.go (hf _ _ hr)
  · exact KeptA.go (State.fault_kept hr)

theorem memLoad_kept {n : Nat} {atomic : Bool} {c : CoreId} {a : Word} {s : State} {f : State → Nat → State}
    (hK : Kept q s) (hf : ∀ s w, Kept q s → Kept q (f s w)) : KeptA q (memLoad n atomic c a s f) := by
  unfold memLoad
  generalize memFault s c a n false atomic = e
  cases e with
  | some e => exact KeptA.go (memRaise_kept hK)
  | none =>
    refine KeptA.ite (devLoad_kept hK fun _ _ h => hf _ _ h) ?_
    have hb := fun t => badLoad_kept (t := t) (c := c) (a := a) hK
    generalize badLoad s c a = b at hb
    cases b with
    | some t => exact KeptA.go (hb t rfl)
    | none => exact KeptA.go (hf _ _ (memValue_kept hK))

theorem loadInto_kept {n : Nat} {sgn : Bool} {c : CoreId} {wd : Reg} {wa : Reg} {imm : BitVec 18} {s : State} (hK :
    Kept q s) : KeptA q (loadInto n sgn c wd wa imm s) := by
  unfold loadInto
  with_reducible repeat' (first
    | assumption | (intro x hx; guard_hyp hx : Kept q x) | (intro x a hx; guard_hyp hx : Kept q x)
    | apply State.regDone_kept | apply issueA_kept | apply memLoad_kept)

theorem execLdw_kept {c : CoreId} {wd : Reg} {wa : Reg} {imm : BitVec 18} {s : State} (hK : Kept q s) : KeptA q
    (execLdw c wd wa imm s) := by
  unfold execLdw
  with_reducible repeat' (first | assumption | apply loadInto_kept)

theorem execLdh_kept {c : CoreId} {wd : Reg} {wa : Reg} {imm : BitVec 18} {s : State} (hK : Kept q s) : KeptA q
    (execLdh c wd wa imm s) := by
  unfold execLdh
  with_reducible repeat' (first | assumption | apply loadInto_kept)

theorem execLdhs_kept {c : CoreId} {wd : Reg} {wa : Reg} {imm : BitVec 18} {s : State} (hK : Kept q s) : KeptA q
    (execLdhs c wd wa imm s) := by
  unfold execLdhs
  with_reducible repeat' (first | assumption | apply loadInto_kept)

theorem execLdn_kept {c : CoreId} {wd : Reg} {wa : Reg} {imm : BitVec 18} {s : State} (hK : Kept q s) : KeptA q
    (execLdn c wd wa imm s) := by
  unfold execLdn
  with_reducible repeat' (first | assumption | apply loadInto_kept)

theorem execLdns_kept {c : CoreId} {wd : Reg} {wa : Reg} {imm : BitVec 18} {s : State} (hK : Kept q s) : KeptA q
    (execLdns c wd wa imm s) := by
  unfold execLdns
  with_reducible repeat' (first | assumption | apply loadInto_kept)

theorem execLres_kept {c : CoreId} {wd : Reg} {wa : Reg} {imm : BitVec 18} {s : State} (hK : Kept q s) : KeptA q
    (execLres c wd wa imm s) := by
  unfold execLres
  with_reducible repeat' (first
    | assumption | with_unfolding_all exact fun _ => Or.inl rfl | (intro x hx; guard_hyp hx : Kept q x)
    | (intro x a hx; guard_hyp hx : Kept q x) | apply State.regDone_kept | apply issueA_kept | apply memLoad_kept
    | apply Kept.setCore)

theorem memStore_kept {s : State} {a : Nat} {n : Nat} {w : Word} (hK : Kept q s) : Kept q (memStore s a n w) := by
  unfold memStore
  with_reducible repeat' (first
    | assumption | apply State.putNibs_kept | apply loseResv_kept | apply healBad_kept | apply Kept.ite)

theorem storeTo_kept {n : Nat} {c : CoreId} {a : Word} {w : Word} {atomic : Bool} {s : State} {f : State → State}
    (hK : Kept q s) (hF_f : ∀ v0, Kept q v0 → Kept q (f v0)) : Kept q (storeTo n c a w atomic s f) := by
  unfold storeTo
  with_reducible repeat' (first
    | assumption | apply hF_f | apply State.fault_kept | apply memRaise_kept | apply memStore_kept | split
    | apply Kept.upd)

theorem storeFrom_kept {n : Nat} {c : CoreId} {ws : Reg} {wa : Reg} {imm : BitVec 18} {s : State} (hK : Kept q s) :
    KeptA q (storeFrom n c ws wa imm s) := by
  unfold storeFrom
  with_reducible repeat' (first
    | assumption | (intro x hx; guard_hyp hx : Kept q x) | (intro x a hx; guard_hyp hx : Kept q x)
    | apply State.advance_kept | apply issue_kept | apply storeTo_kept)

theorem execStw_kept {c : CoreId} {ws : Reg} {wa : Reg} {imm : BitVec 18} {s : State} (hK : Kept q s) : KeptA q
    (execStw c ws wa imm s) := by
  unfold execStw
  with_reducible repeat' (first | assumption | apply storeFrom_kept)

theorem execSth_kept {c : CoreId} {ws : Reg} {wa : Reg} {imm : BitVec 18} {s : State} (hK : Kept q s) : KeptA q
    (execSth c ws wa imm s) := by
  unfold execSth
  with_reducible repeat' (first | assumption | apply storeFrom_kept)

theorem execStn_kept {c : CoreId} {ws : Reg} {wa : Reg} {imm : BitVec 18} {s : State} (hK : Kept q s) : KeptA q
    (execStn c ws wa imm s) := by
  unfold execStn
  with_reducible repeat' (first | assumption | apply storeFrom_kept)

theorem execScond_kept {c : CoreId} {wd : Reg} {wa : Reg} {wb : Reg} {s : State} (hK : Kept q s) : KeptA q
    (execScond c wd wa wb s) := by
  unfold execScond
  with_reducible repeat' (first
    | assumption | with_unfolding_all exact fun _ => Or.inl rfl | (intro x hx; guard_hyp hx : Kept q x)
    | (extract_lets +onlyGivenNames x; refine (fun hx : Kept q x => ?_) ?_; rotate_left; subst x; rotate_left; clear_value x)
    | (extract_lets +onlyGivenNames x; clear_value x) | apply State.regDone_kept | apply issue_kept
    | apply memRaise_kept | apply memStore_kept | apply Kept.when | apply Kept.setCore | split)

theorem execFenceMem_kept {c : CoreId} {s : State} (hK : Kept q s) : KeptA q (execFenceMem c s) := by
  unfold execFenceMem
  with_reducible repeat' (first
    | assumption | (intro x hx; guard_hyp hx : Kept q x) | apply State.advance_kept | apply issue_kept)

theorem fenceDev_kept {c : CoreId} {s : State} (hK : Kept q s) : KeptA q (fenceDev c s) := by
  unfold fenceDev
  with_reducible repeat' (first
    | assumption | with_unfolding_all exact fun _ => Or.inl rfl | (intro x hx; guard_hyp hx : Kept q x)
    | apply andThen_kept | apply State.clearRej_kept | apply State.advance_kept | apply rtcEdge_kept
    | apply drainPosted_kept | apply issueA_kept | apply KeptA.go | apply KeptA.ite | apply Kept.when
    | apply Kept.setCore | apply Kept.upd)

theorem execFenceDev_kept {c : CoreId} {s : State} (hK : Kept q s) : KeptA q (execFenceDev c s) := by
  unfold execFenceDev
  with_reducible repeat' (first | assumption | apply fenceDev_kept)

theorem execFenceAll_kept {c : CoreId} {s : State} (hK : Kept q s) : KeptA q (execFenceAll c s) := by
  unfold execFenceAll
  with_reducible repeat' (first | assumption | apply fenceDev_kept)

theorem sealCall_kept {s : State} {c : Nat} {svc : Nat} (hK : Kept q s) : Kept q (sealCall s c svc) := by
  unfold sealCall
  with_reducible repeat' (first
    | assumption | with_unfolding_all exact fun _ => Or.inl rfl | (intro x a hx; guard_hyp hx : Kept q x)
    | apply Kept.wr | apply State.put_kept | apply Kept.each | apply Kept.setCore | apply Kept.upd)

theorem execSeal_kept {c : CoreId} {imm : BitVec 18} {s : State} (hK : Kept q s) : KeptA q (execSeal c imm s) := by
  unfold execSeal
  with_reducible repeat' (first
    | assumption | (intro x hx; guard_hyp hx : Kept q x) | apply State.trap_kept | apply issueIf_kept
    | apply sealCall_kept | apply Kept.ite | apply KeptA.ite | apply Kept.upd)

/-! ### Integer -/

theorem execAdd_kept {c : CoreId} {wd : Reg} {wa : Reg} {wb : Reg} {s : State} (hK : Kept q s) : KeptA q (execAdd c
    wd wa wb s) := by
  unfold execAdd
  with_reducible repeat' (first | assumption | apply alu2_kept)

theorem execAdc_kept {c : CoreId} {wd : Reg} {wa : Reg} {wb : Reg} {s : State} (hK : Kept q s) : KeptA q (execAdc c
    wd wa wb s) := by
  unfold execAdc
  with_reducible repeat' (first | assumption | apply alu2_kept)

theorem execSub_kept {c : CoreId} {wd : Reg} {wa : Reg} {wb : Reg} {s : State} (hK : Kept q s) : KeptA q (execSub c
    wd wa wb s) := by
  unfold execSub
  with_reducible repeat' (first | assumption | apply alu2_kept)

theorem execSbc_kept {c : CoreId} {wd : Reg} {wa : Reg} {wb : Reg} {s : State} (hK : Kept q s) : KeptA q (execSbc c
    wd wa wb s) := by
  unfold execSbc
  with_reducible repeat' (first | assumption | apply alu2_kept)

theorem execAnd_kept {c : CoreId} {wd : Reg} {wa : Reg} {wb : Reg} {s : State} (hK : Kept q s) : KeptA q (execAnd c
    wd wa wb s) := by
  unfold execAnd
  with_reducible repeat' (first | assumption | apply alu2_kept)

theorem execOr_kept {c : CoreId} {wd : Reg} {wa : Reg} {wb : Reg} {s : State} (hK : Kept q s) : KeptA q (execOr c
    wd wa wb s) := by
  unfold execOr
  with_reducible repeat' (first | assumption | apply alu2_kept)

theorem execXor_kept {c : CoreId} {wd : Reg} {wa : Reg} {wb : Reg} {s : State} (hK : Kept q s) : KeptA q (execXor c
    wd wa wb s) := by
  unfold execXor
  with_reducible repeat' (first | assumption | apply alu2_kept)

theorem execAndn_kept {c : CoreId} {wd : Reg} {wa : Reg} {wb : Reg} {s : State} (hK : Kept q s) : KeptA q (execAndn
    c wd wa wb s) := by
  unfold execAndn
  with_reducible repeat' (first | assumption | apply alu2_kept)

theorem execShl_kept {c : CoreId} {wd : Reg} {wa : Reg} {wb : Reg} {s : State} (hK : Kept q s) : KeptA q (execShl c
    wd wa wb s) := by
  unfold execShl
  with_reducible repeat' (first | assumption | apply alu2_kept)

theorem execShr_kept {c : CoreId} {wd : Reg} {wa : Reg} {wb : Reg} {s : State} (hK : Kept q s) : KeptA q (execShr c
    wd wa wb s) := by
  unfold execShr
  with_reducible repeat' (first | assumption | apply alu2_kept)

theorem execSar_kept {c : CoreId} {wd : Reg} {wa : Reg} {wb : Reg} {s : State} (hK : Kept q s) : KeptA q (execSar c
    wd wa wb s) := by
  unfold execSar
  with_reducible repeat' (first | assumption | apply alu2_kept)

theorem execRol_kept {c : CoreId} {wd : Reg} {wa : Reg} {wb : Reg} {s : State} (hK : Kept q s) : KeptA q (execRol c
    wd wa wb s) := by
  unfold execRol
  with_reducible repeat' (first | assumption | apply alu2_kept)

theorem execRor_kept {c : CoreId} {wd : Reg} {wa : Reg} {wb : Reg} {s : State} (hK : Kept q s) : KeptA q (execRor c
    wd wa wb s) := by
  unfold execRor
  with_reducible repeat' (first | assumption | apply alu2_kept)

theorem execMul_kept {c : CoreId} {wd : Reg} {wa : Reg} {wb : Reg} {s : State} (hK : Kept q s) : KeptA q (execMul c
    wd wa wb s) := by
  unfold execMul
  with_reducible repeat' (first | assumption | apply alu2_kept)

theorem execMulh_kept {c : CoreId} {wd : Reg} {wa : Reg} {wb : Reg} {s : State} (hK : Kept q s) : KeptA q (execMulh
    c wd wa wb s) := by
  unfold execMulh
  with_reducible repeat' (first | assumption | apply alu2_kept)

theorem execMulhu_kept {c : CoreId} {wd : Reg} {wa : Reg} {wb : Reg} {s : State} (hK : Kept q s) : KeptA q
    (execMulhu c wd wa wb s) := by
  unfold execMulhu
  with_reducible repeat' (first | assumption | apply alu2_kept)

theorem execDiv_kept {c : CoreId} {wd : Reg} {wa : Reg} {wb : Reg} {s : State} (hK : Kept q s) : KeptA q (execDiv c
    wd wa wb s) := by
  unfold execDiv
  with_reducible repeat' (first | assumption | apply alu2_kept)

theorem execDivu_kept {c : CoreId} {wd : Reg} {wa : Reg} {wb : Reg} {s : State} (hK : Kept q s) : KeptA q (execDivu
    c wd wa wb s) := by
  unfold execDivu
  with_reducible repeat' (first | assumption | apply alu2_kept)

theorem execRem_kept {c : CoreId} {wd : Reg} {wa : Reg} {wb : Reg} {s : State} (hK : Kept q s) : KeptA q (execRem c
    wd wa wb s) := by
  unfold execRem
  with_reducible repeat' (first | assumption | apply alu2_kept)

theorem execRemu_kept {c : CoreId} {wd : Reg} {wa : Reg} {wb : Reg} {s : State} (hK : Kept q s) : KeptA q (execRemu
    c wd wa wb s) := by
  unfold execRemu
  with_reducible repeat' (first | assumption | apply alu2_kept)

theorem execNprm_kept {c : CoreId} {wd : Reg} {wa : Reg} {wb : Reg} {s : State} (hK : Kept q s) : KeptA q (execNprm
    c wd wa wb s) := by
  unfold execNprm
  with_reducible repeat' (first | assumption | apply alu2_kept)

theorem execClz_kept {c : CoreId} {wd : Reg} {wa : Reg} {s : State} (hK : Kept q s) : KeptA q (execClz c wd wa s) := by
  unfold execClz
  with_reducible repeat' (first | assumption | apply alu1_kept)

theorem execCtz_kept {c : CoreId} {wd : Reg} {wa : Reg} {s : State} (hK : Kept q s) : KeptA q (execCtz c wd wa s) := by
  unfold execCtz
  with_reducible repeat' (first | assumption | apply alu1_kept)

theorem execPopc_kept {c : CoreId} {wd : Reg} {wa : Reg} {s : State} (hK : Kept q s) : KeptA q (execPopc c wd wa s) := by
  unfold execPopc
  with_reducible repeat' (first | assumption | apply alu1_kept)

theorem execOpk_kept {c : CoreId} {wd : Reg} {wa : Reg} {s : State} (hK : Kept q s) : KeptA q (execOpk c wd wa s) := by
  unfold execOpk
  with_reducible repeat' (first | assumption | apply alu1_kept)

theorem execOpkl_kept {c : CoreId} {wd : Reg} {wa : Reg} {s : State} (hK : Kept q s) : KeptA q (execOpkl c wd wa s) := by
  unfold execOpkl
  with_reducible repeat' (first | assumption | apply alu1_kept)

theorem execOupk_kept {c : CoreId} {wd : Reg} {wa : Reg} {s : State} (hK : Kept q s) : KeptA q (execOupk c wd wa s) := by
  unfold execOupk
  with_reducible repeat' (first | assumption | apply alu1_kept)

theorem execOupkl_kept {c : CoreId} {wd : Reg} {wa : Reg} {s : State} (hK : Kept q s) : KeptA q (execOupkl c wd wa
    s) := by
  unfold execOupkl
  with_reducible repeat' (first | assumption | apply alu1_kept)

theorem execAddi_kept {c : CoreId} {wd : Reg} {wa : Reg} {imm : BitVec 18} {s : State} (hK : Kept q s) : KeptA q
    (execAddi c wd wa imm s) := by
  unfold execAddi
  with_reducible repeat' (first | assumption | apply alu1_kept)

theorem execSubi_kept {c : CoreId} {wd : Reg} {wa : Reg} {imm : BitVec 18} {s : State} (hK : Kept q s) : KeptA q
    (execSubi c wd wa imm s) := by
  unfold execSubi
  with_reducible repeat' (first | assumption | apply alu1_kept)

theorem execAndi_kept {c : CoreId} {wd : Reg} {wa : Reg} {imm : BitVec 18} {s : State} (hK : Kept q s) : KeptA q
    (execAndi c wd wa imm s) := by
  unfold execAndi
  with_reducible repeat' (first | assumption | apply alu1_kept)

theorem execOri_kept {c : CoreId} {wd : Reg} {wa : Reg} {imm : BitVec 18} {s : State} (hK : Kept q s) : KeptA q
    (execOri c wd wa imm s) := by
  unfold execOri
  with_reducible repeat' (first | assumption | apply alu1_kept)

theorem execXori_kept {c : CoreId} {wd : Reg} {wa : Reg} {imm : BitVec 18} {s : State} (hK : Kept q s) : KeptA q
    (execXori c wd wa imm s) := by
  unfold execXori
  with_reducible repeat' (first | assumption | apply alu1_kept)

theorem execShi_kept {c : CoreId} {wd : Reg} {wa : Reg} {imm : BitVec 18} {s : State} (hK : Kept q s) : KeptA q
    (execShi c wd wa imm s) := by
  unfold execShi
  with_reducible repeat' (first | assumption | apply alu1_kept)

theorem execNprmi_kept {c : CoreId} {wd : Reg} {wa : Reg} {imm : BitVec 18} {s : State} (hK : Kept q s) : KeptA q
    (execNprmi c wd wa imm s) := by
  unfold execNprmi
  with_reducible repeat' (first | assumption | apply alu1_kept)

theorem execLui_kept {c : CoreId} {wd : Reg} {imm : BitVec 18} {s : State} (hK : Kept q s) : KeptA q (execLui c wd
    imm s) := by
  unfold execLui
  with_reducible repeat' (first | assumption | apply alu1_kept)

theorem execBfx_kept {c : CoreId} {wd : Reg} {wa : Reg} {pos : BitVec 6} {len : BitVec 6} {s : State} (hK : Kept q
    s) : KeptA q (execBfx c wd wa pos len s) := by
  unfold execBfx
  with_reducible repeat' (first | assumption | apply alu1_kept)

theorem execBfxs_kept {c : CoreId} {wd : Reg} {wa : Reg} {pos : BitVec 6} {len : BitVec 6} {s : State} (hK : Kept q
    s) : KeptA q (execBfxs c wd wa pos len s) := by
  unfold execBfxs
  with_reducible repeat' (first | assumption | apply alu1_kept)

theorem execBfi_kept {c : CoreId} {wd : Reg} {wa : Reg} {pos : BitVec 6} {len : BitVec 6} {s : State} (hK : Kept q
    s) : KeptA q (execBfi c wd wa pos len s) := by
  unfold execBfi
  with_reducible repeat' (first | assumption | apply alu1_kept)

/-! ### Tick -/

theorem cyclesTick_kept {s : State} (hK : Kept q s) : Kept q (cyclesTick s) := by
  unfold cyclesTick
  with_reducible repeat' (first
    | assumption | with_unfolding_all exact fun _ => Or.inl rfl | (intro x hx; guard_hyp hx : Kept q x)
    | (intro x a hx; guard_hyp hx : Kept q x) | apply Kept.when | apply Kept.each | apply Kept.setCore)

theorem endOne_kept {i : Instr} {s : State} (hK : Kept q s) : Kept q (endOne i s) := by
  unfold endOne
  with_reducible repeat' (first
    | assumption | apply nmgRepeatEnd_kept | apply kaDueServe_kept | apply nmgIdleServe_kept | apply commitServe_kept
    | apply confServe_kept | apply unservedServe_kept | apply linMissServe_kept | apply linIdleServe_kept
    | apply ackServe_kept | apply timeMissServe_kept | apply timeReturnServe_kept | apply inrushServe_kept
    | apply retryServe_kept | apply heartbeatServe_kept | apply holdServe_kept | apply pwmBoundaries_kept
    | apply moveServe_kept | apply parkEdgeServe_kept | apply cycleServe_kept | apply boostServe_kept
    | apply peakServe_kept | apply holdTimeServe_kept | apply quenchServe_kept | apply sessionServe_kept
    | apply graceServe_kept | apply backoffServe_kept | apply frameServe_kept | apply stringServe_kept
    | apply sinkBoundaryServe_kept | apply ageServe_kept | apply slotServe_kept | apply chalServe_kept
    | apply callServe_kept | apply trialServe_kept | apply entryServe_kept | apply windowServe_kept
    | apply segmentServe_kept | apply linkServe_kept | split)

theorem endTick_kept {s : State} (hK : Kept q s) : Kept q (endTick s) := by
  unfold endTick
  with_reducible repeat' (first
    | assumption | (intro x a hx; guard_hyp hx : Kept q x) | apply fsafeServe_kept | apply endOne_kept
    | apply Kept.each | apply Kept.upd)

theorem powerTick_kept {s : State} (hK : Kept q s) : Kept q (powerTick s) := by
  unfold powerTick
  with_reducible repeat' (first
    | assumption | (intro x a hx; guard_hyp hx : Kept q x) | apply serveDead_kept | apply beginPulses_kept
    | apply serveChop_kept | apply Kept.each)

theorem serveTick_kept {s : State} (hK : Kept q s) : Kept q (serveTick s) := by
  unfold serveTick
  with_reducible repeat' (first
    | assumption | (intro x hx; guard_hyp hx : Kept q x) | apply strServe_kept | apply sinkServe_kept
    | apply ringServe_kept | apply adServe_kept | apply candTick_kept | apply mxServe_kept | apply chainServe_kept
    | apply serviceTick_kept | apply powerTick_kept | apply Kept.when | apply Kept.each)

theorem tickOver_kept {s : State} (hK : Kept q s) : Kept q (tickOver s) := by
  unfold tickOver
  with_reducible repeat' (first
    | assumption | apply tmrTick_kept | apply deliverDue_kept | apply cyclesTick_kept | apply serveTick_kept
    | apply Kept.when | apply Kept.upd)

theorem clockTick_kept {s : State} (hK : Kept q s) : KeptA q (clockTick s) := by
  unfold clockTick
  with_reducible repeat' (first
    | assumption
    | (extract_lets +onlyGivenNames x; refine (fun hx : Kept q x => ?_) ?_; rotate_left; subst x; rotate_left; clear_value x)
    | apply tmrTickEnd_kept | apply drainPosted_kept | apply endTick_kept | apply tickOver_kept | apply Kept.ite
    | apply KeptA.next | apply KeptA.go | split | apply Kept.upd)

theorem parkTick_kept {s : State} (hK : Kept q s) : Kept q (parkTick s) := by
  unfold parkTick
  with_reducible repeat' (first
    | assumption | apply rtcEdge_kept | apply endTick_kept | apply powerTick_kept | apply Kept.when | apply Kept.upd)

theorem idleTick_kept {s : State} (hK : Kept q s) : KeptA q (idleTick s) := by
  unfold idleTick
  with_reducible repeat' (first
    | assumption | apply clockTick_kept | apply parkTick_kept | apply KeptA.next | apply KeptA.ite | split
    | apply Kept.upd)

/-! ### TickRows -/

theorem tickIf_kept {due : Bool} {s : State} (hK : Kept q s) : KeptA q (tickIf due s) := by
  unfold tickIf
  with_reducible repeat' (first | assumption | apply idleTick_kept | apply KeptA.go | apply KeptA.ite)

theorem execTimerPeriodEnd_kept {n : Nat} {s : State} (hK : Kept q s) : KeptA q (execTimerPeriodEnd n s) := by
  unfold execTimerPeriodEnd
  with_reducible repeat' (first | assumption | apply tickIf_kept)

theorem execTimerCompareMatch_kept {n : Nat} {s : State} (hK : Kept q s) : KeptA q (execTimerCompareMatch n s) := by
  unfold execTimerCompareMatch
  with_reducible repeat' (first | assumption | apply tickIf_kept)

theorem execCaptureTimeout_kept {n : Nat} {s : State} (hK : Kept q s) : KeptA q (execCaptureTimeout n s) := by
  unfold execCaptureTimeout
  with_reducible repeat' (first | assumption | apply tickIf_kept)

theorem execRuleDelivery_kept {line : Nat} {s : State} (hK : Kept q s) : KeptA q (execRuleDelivery line s) := by
  unfold execRuleDelivery
  with_reducible repeat' (first | assumption | apply tickIf_kept)

end Sys2Proof.Laws
end

