-- ==== Sys2Proof/Laws/Quiet.lean ====
section
/-! SUPPORT. What a command that stores nothing leaves as it was: memory, the posted writes, the journal, the boot and
update state, the vault, the count and the queue; and how it is shown. -/

namespace Sys2Proof.Laws
open Machine

/-- Memory and the rest of what a command that stores nothing leaves alone stand as in `q`. -/
def Quiet (q s : State) : Prop := Untouched q s

variable {q s : State}

/-- Any part of the state may change but those. -/
theorem Quiet.upd {tbRun : Bool} {tbRec : Word} {rtcN : Nat} {regs copies : Cells 36} {aonPend : List AonWrite} {rej : List Nat}
    {folio : FolioSt} {pwr : PwrSt} {safe : SafeSt} {chans : List Chan} {beat : BeatSt} {mots : List Mot}
    {stks : List Stk} {light : Light} {flights : List Flight} {tmrs : List Tmr} {prescale : List Nat} {inp : InpSt}
    {cans : List CanSt} {lins : List LinSt} {eths : List EthSt} {nmgs : List NmgCh} {ring : RingSt} {acc : AccSt}
    {cores : List Core} {icu : IcuSt} {edge : List (Nat × Word)} {ending : List Instr}
    {fresh : Nat} (h : Quiet q s) :
    Quiet q ⟨s.now, tbRun, tbRec, rtcN, regs, copies, s.mem, s.posted, aonPend, rej, s.warmDue, folio, s.ecr, s.boot, s.upd,
    s.nvRow, s.rcv, pwr, safe, chans, beat, mots, stks, light, flights, tmrs, prescale, inp, cans, lins, eths, nmgs, ring,
    s.vault, acc, cores, icu, edge, ending, fresh, s.pending⟩ := h

theorem Quiet.ite {c : Prop} [Decidable c] {a b : State} (ha : Quiet q a) (hb : Quiet q b) : Quiet q (if c then a else b) := by
  split <;> assumption

theorem Quiet.when {c : Bool} {f : State → State} (h : Quiet q s) (hf : ∀ s, Quiet q s → Quiet q (f s)) : Quiet q (s.when c f) := by
  unfold State.when; split
  · exact hf s h
  · exact h

theorem Quiet.foldl {α : Type} {l : List α} {f : State → α → State} (h : Quiet q s) (hf : ∀ s a, Quiet q s → Quiet q (f s a)) :
    Quiet q (l.foldl f s) := by
  induction l generalizing s with
  | nil => exact h
  | cons a l ih => exact ih (hf s a h)

theorem Quiet.foldl1 {α β : Type} {l : List α} {r : State × β} {f : State × β → α → State × β} (h : Quiet q r.1)
    (hf : ∀ r a, Quiet q r.1 → Quiet q (f r a).1) : Quiet q (l.foldl f r).1 := by
  induction l generalizing r with
  | nil => exact h
  | cons a l ih => exact ih (hf r a h)

theorem Quiet.foldl2 {α β : Type} {l : List α} {r : β × State} {f : β × State → α → β × State} (h : Quiet q r.2)
    (hf : ∀ r a, Quiet q r.2 → Quiet q (f r a).2) : Quiet q (l.foldl f r).2 := by
  induction l generalizing r with
  | nil => exact h
  | cons a l ih => exact ih (hf r a h)

theorem Quiet.each {α : Type} {l : List α} {f : State → α → State} (h : Quiet q s) (hf : ∀ s a, Quiet q s → Quiet q (f s a)) :
    Quiet q (s.each l f) := Quiet.foldl h hf

theorem Quiet.put {b : Nat} {f : Fld} {x : Nat} (h : Quiet q s) : Quiet q (s.put b f x) := h
theorem Quiet.refresh (h : Quiet q s) : Quiet q s.refresh := h
theorem Quiet.wr {a : Nat} {v : Word} (h : Quiet q s) : Quiet q (s.wr a v) := h
theorem Quiet.resetRange {a b : Nat} (h : Quiet q s) : Quiet q (s.resetRange a b) := h
theorem Quiet.setCore {c : Nat} {g : Core → Core} (h : Quiet q s) (_ : KeepsRegs g) : Quiet q (s.setCore c g) := h
theorem Quiet.mapCores {g : Core → Core} (h : Quiet q s) (_ : KeepsRegs g) : Quiet q (s.mapCores g) := h

/-- An answer that goes on leaves them alone. -/
structure QuietA (q : State) (a : Answer) : Prop where
  out : ∀ t, a = .next t → Quiet q t

theorem QuietA.next (h : Quiet q s) : QuietA q s.next := ⟨fun _ e => by injection e with e; exact e ▸ h⟩
theorem QuietA.go (h : Quiet q s) : QuietA q (.next s) := QuietA.next h
theorem QuietA.fault {f : Fault} : QuietA q (.fault f) := ⟨fun _ e => nomatch e⟩
theorem QuietA.ite {c : Prop} [Decidable c] {a b : Answer} (ha : QuietA q a) (hb : QuietA q b) : QuietA q (if c then a else b) := by
  split <;> assumption

end Sys2Proof.Laws
end

