-- ==== Sys2Proof/Laws/QuietOps.lean ====
section
/-! SUPPORT. What stores nothing (`Quiet` and `QuietA` of Laws/Quiet.lean), one lemma per definition: the named operations, channels, engines and lights as operations, and the fault manager. -/

namespace Sys2Proof.Laws
open Machine

variable {q : State}

theorem State.put_quiet {s : State} {base : Nat} {f : Fld} {x : Nat} (hK : Quiet q s) : Quiet q (s.put base f x) := Quiet.put hK

theorem State.mark_quiet {s : State} {a : Nat} {m : Word} (hK : Quiet q s) : Quiet q (State.mark s a m) := by
  unfold State.mark
  with_reducible repeat' (first | assumption | apply Quiet.upd)

theorem State.resetBlk_quiet {s : State} {b : Blk} (hK : Quiet q s) : Quiet q (State.resetBlk s b) := by
  unfold State.resetBlk
  with_reducible repeat' (first | assumption | apply Quiet.resetRange)

theorem State.setReady_quiet {s : State} {i : Island} {b : Bool} (hK : Quiet q s) : Quiet q (State.setReady s i b) := by
  unfold State.setReady
  with_reducible repeat' (first | assumption | apply Quiet.wr)

theorem State.drawn_quiet {s : State} (hK : Quiet q s) : Quiet q (State.drawn s) := by
  unfold State.drawn
  with_reducible repeat' (first | assumption | apply Quiet.upd)

theorem State.setRej_quiet {s : State} {r : Nat} (hK : Quiet q s) : Quiet q (State.setRej s r) := by
  unfold State.setRej
  with_reducible repeat' (first | assumption | apply Quiet.upd)

theorem State.clearRej_quiet {s : State} {r : Nat} (hK : Quiet q s) : Quiet q (State.clearRej s r) := by
  unfold State.clearRej
  with_reducible repeat' (first | assumption | apply Quiet.upd)

theorem State.reject_quiet {s : State} {b : Blk} {src : Src} {off : Nat} {code : Nat} (hK : Quiet q s) : Quiet q
    (State.reject s b src off code) := by
  unfold State.reject
  with_reducible repeat' (first | assumption | apply Quiet.wr | apply State.setRej_quiet)

theorem State.fabErr_quiet {s : State} {code : Nat} {req : Nat} {addr : Nat} (hK : Quiet q s) : Quiet q (State.fabErr
    s code req addr) := by
  unfold State.fabErr
  with_reducible repeat' (first | assumption | apply Quiet.wr | apply Quiet.ite)

theorem State.fabReject_quiet {s : State} {src : Src} {code : Nat} {addr : Nat} (hK : Quiet q s) : Quiet q
    (State.fabReject s src code addr) := by
  unfold State.fabReject
  with_reducible repeat' (first | assumption | apply State.setRej_quiet | apply State.fabErr_quiet)

theorem State.satField_quiet {s : State} {base : Nat} {f : Fld} (hK : Quiet q s) : Quiet q (State.satField s base f) := by
  unfold State.satField
  with_reducible repeat' (first | assumption | apply State.put_quiet)

theorem State.incField_quiet {s : State} {base : Nat} {f : Fld} (hK : Quiet q s) : Quiet q (State.incField s base f) := by
  unfold State.incField
  with_reducible repeat' (first | assumption | apply State.put_quiet)

theorem State.putInt_quiet {s : State} {base : Nat} {f : Fld} {x : Int} (hK : Quiet q s) : Quiet q (State.putInt s
    base f x) := by
  unfold State.putInt
  with_reducible repeat' (first | assumption | apply State.put_quiet | apply State.drawn_quiet | apply Quiet.ite)

theorem State.putNat_quiet {s : State} {base : Nat} {f : Fld} {x : Nat} (hK : Quiet q s) : Quiet q (State.putNat s
    base f x) := by
  unfold State.putNat
  with_reducible repeat' (first | assumption | apply State.put_quiet | apply State.drawn_quiet | apply Quiet.ite)

theorem State.setBit_quiet {s : State} {a : Nat} {i : Nat} {b : Bool} (hK : Quiet q s) : Quiet q (State.setBit s a i
    b) := by
  unfold State.setBit
  with_reducible repeat' (first | assumption | apply Quiet.wr)

theorem State.raise_quiet {s : State} {a : Nat} {i : Nat} (hK : Quiet q s) : Quiet q (State.raise s a i) := by
  unfold State.raise
  with_reducible repeat' (first | assumption | apply State.mark_quiet | apply State.setBit_quiet)

theorem State.expire_quiet {s : State} {d : Option Word} {i : Instr} {act : State → State} (hK : Quiet q s) (hF_act :
    ∀ v0, Quiet q v0 → Quiet q (act v0)) : Quiet q (State.expire s d i act) := by
  unfold State.expire
  with_reducible repeat' (first | assumption | apply hF_act | apply Quiet.ite | apply Quiet.upd)

theorem State.on_quiet {s : State} {i : Island} {a : Answer} (hK : Quiet q s) (ha : QuietA q a) : QuietA q (s.on i a) :=
  QuietA.ite ha (QuietA.go hK)

theorem rejectWrite_quiet {s : State} {r : WriteReq} {code : Nat} (hK : Quiet q s) : Quiet q (rejectWrite s r code) := by
  unfold rejectWrite
  with_reducible repeat' (first | assumption | apply State.reject_quiet)

theorem blockWrite_quiet {r : WriteReq} {fails : State → Word → Fails} {locked : Bool} {hook : State → Word → Word → State}
    {rej : State → Nat → State} {s : State} (hK : Quiet q s) (hh : ∀ s a b, Quiet q s → Quiet q (hook s a b))
    (hr : ∀ s n, Quiet q s → Quiet q (rej s n)) : Quiet q (blockWrite r fails locked hook rej s) := by
  unfold blockWrite
  split
  · split
    · exact State.fabReject_quiet hK
    · split
      · exact hr _ _ (rejectWrite_quiet hK)
      · exact hK
  · dsimp only
    split
    · exact hr _ _ (rejectWrite_quiet hK)
    · exact hh _ _ _ (Quiet.wr hK)

theorem noHook_quiet {s : State} {u1 : Word} {u2 : Word} (hK : Quiet q s) : Quiet q (noHook s u1 u2) := by
  unfold noHook
  with_reducible repeat' assumption

theorem noRej_quiet {s : State} {u1 : Nat} (hK : Quiet q s) : Quiet q (noRej s u1) := by
  unfold noRej
  with_reducible repeat' assumption

theorem raiseLine_quiet {s : State} {l : Nat} (hK : Quiet q s) : Quiet q (raiseLine s l) := by
  unfold raiseLine
  with_reducible repeat' (first | assumption | apply State.incField_quiet | apply Quiet.ite | apply Quiet.upd)

theorem raiseSrc_quiet {s : State} {code : Nat} (hK : Quiet q s) : Quiet q (raiseSrc s code) := by
  unfold raiseSrc
  with_reducible repeat' (first | assumption | apply raiseLine_quiet | apply Quiet.each)

theorem raiseLevel_quiet {s : State} {code : Nat} {rising : Bool} (hK : Quiet q s) : Quiet q (raiseLevel s code
    rising) := by
  unfold raiseLevel
  with_reducible repeat' (first
    | assumption | (extract_lets +onlyGivenNames x; clear_value x) | apply raiseLine_quiet | apply Quiet.each)

theorem State.setCh_quiet {s : State} {f : Nat} {g : Chan → Chan} (hK : Quiet q s) : Quiet q (State.setCh s f g) := by
  unfold State.setCh
  with_reducible repeat' (first | assumption | apply Quiet.upd)

theorem showDer_quiet {s : State} (hK : Quiet q s) : Quiet q (showDer s) := by
  unfold showDer
  with_reducible repeat' (first | assumption | apply State.put_quiet)

theorem setDerated_quiet {s : State} {base : Nat} {f : Fld} {b : Bool} (hK : Quiet q s) : Quiet q (setDerated s base f
    b) := by
  unfold setDerated
  with_reducible repeat' (first | assumption | apply State.put_quiet | apply showDer_quiet | apply Quiet.ite)

theorem setChState_quiet {s : State} {f : Nat} {st : Nat} (hK : Quiet q s) : Quiet q (setChState s f st) := by
  unfold setChState
  with_reducible repeat' (first
    | assumption | (intro x a hx; guard_hyp hx : Quiet q x) | apply State.put_quiet | apply State.setCh_quiet
    | apply setDerated_quiet | apply Quiet.ite | apply Quiet.each)

theorem setFault_quiet {s : State} {f : Nat} {b : Fld} (hK : Quiet q s) : Quiet q (setFault s f b) := by
  unfold setFault
  with_reducible repeat' (first
    | assumption | (intro x a hx; guard_hyp hx : Quiet q x) | apply State.put_quiet | apply State.setBit_quiet
    | apply Quiet.each)

theorem setUnclaimed_quiet {s : State} {f : Nat} {b : Bool} (hK : Quiet q s) : Quiet q (setUnclaimed s f b) := by
  unfold setUnclaimed
  with_reducible repeat' (first
    | assumption | (intro x a hx; guard_hyp hx : Quiet q x) | apply State.put_quiet | apply State.setBit_quiet
    | apply Quiet.each)

theorem showDp_quiet {s : State} {f : Nat} (hK : Quiet q s) : Quiet q (showDp s f) := by
  unfold showDp
  with_reducible repeat' (first
    | assumption | (intro x hx; guard_hyp hx : Quiet q x) | (intro x a hx; guard_hyp hx : Quiet q x)
    | apply State.put_quiet | apply State.setCh_quiet | apply Quiet.when | apply Quiet.each)

theorem openWindow_quiet {s : State} {f : Nat} (hK : Quiet q s) : Quiet q (openWindow s f) := by
  unfold openWindow
  with_reducible repeat' (first | assumption | apply State.put_quiet | apply State.setCh_quiet)

theorem setSw_quiet {s : State} {f : Nat} {hs : Bool} {ls : Bool} {pwm : Bool} (hK : Quiet q s) : Quiet q (setSw s f
    hs ls pwm) := by
  unfold setSw
  with_reducible repeat' (first
    | assumption | (intro x a hx; guard_hyp hx : Quiet q x) | apply State.setCh_quiet | apply showDp_quiet
    | apply openWindow_quiet | apply Quiet.ite | apply Quiet.each)

theorem drive_quiet {s : State} {f : Nat} {hs : Bool} {ls : Bool} {pwm : Bool} (hK : Quiet q s) : Quiet q (drive s f
    hs ls pwm) := by
  unfold drive
  with_reducible repeat' (first
    | assumption | (extract_lets +onlyGivenNames x; clear_value x) | apply State.setCh_quiet | apply setSw_quiet | split)

theorem driveSync_quiet {s : State} {f : Nat} {hs : Bool} {ls : Bool} (hK : Quiet q s) : Quiet q (driveSync s f hs ls) := by
  unfold driveSync
  with_reducible repeat' (first | assumption | apply State.setCh_quiet | apply setSw_quiet | apply Quiet.ite)

theorem stopGen_quiet {s : State} {f : Nat} (hK : Quiet q s) : Quiet q (stopGen s f) := by
  unfold stopGen
  with_reducible repeat' (first | assumption | apply State.setCh_quiet)

theorem allOff_quiet {s : State} {f : Nat} (hK : Quiet q s) : Quiet q (allOff s f) := by
  unfold allOff
  with_reducible repeat' (first | assumption | apply setSw_quiet | apply stopGen_quiet)

theorem beginPulse_quiet {s : State} {f : Nat} {p : Word × Nat} (hK : Quiet q s) : Quiet q (beginPulse s f p) := by
  unfold beginPulse
  with_reducible repeat' (first
    | assumption | apply State.setCh_quiet | apply drive_quiet | apply driveSync_quiet | apply Quiet.ite)

theorem beginPulses_quiet {s : State} {f : Nat} (hK : Quiet q s) : Quiet q (beginPulses s f) := by
  unfold beginPulses
  with_reducible repeat' (first
    | assumption | (intro x a hx; guard_hyp hx : Quiet q x) | apply beginPulse_quiet | apply Quiet.each)

theorem endPulse_quiet {s : State} {f : Nat} (hK : Quiet q s) : Quiet q (endPulse s f) := by
  unfold endPulse
  with_reducible repeat' (first
    | assumption
    | (extract_lets +onlyGivenNames x; refine (fun hx : Quiet q x => ?_) ?_; rotate_left; subst x; rotate_left; clear_value x)
    | apply State.setCh_quiet | apply drive_quiet | apply driveSync_quiet | split)

theorem periodSwitches_quiet {s : State} {f : Nat} {e : Option Word} {isFirst : Bool} (hK : Quiet q s) : Quiet q
    (periodSwitches s f e isFirst) := by
  unfold periodSwitches
  with_reducible repeat' (first
    | assumption | apply setSw_quiet | apply drive_quiet | apply driveSync_quiet | apply Quiet.ite)

theorem beginPeriod_quiet {s : State} {f : Nat} {mode : Nat} {per : Nat} {duty : Nat} {isFirst : Bool} (hK : Quiet q
    s) : Quiet q (beginPeriod s f mode per duty isFirst) := by
  unfold beginPeriod
  with_reducible repeat' (first
    | assumption | apply State.put_quiet | apply State.setCh_quiet | apply setDerated_quiet | apply beginPulses_quiet
    | apply endPulse_quiet | apply periodSwitches_quiet)

theorem periodBoundary_quiet {s : State} {f : Nat} (hK : Quiet q s) : Quiet q (periodBoundary s f) := by
  unfold periodBoundary
  with_reducible repeat' (first | assumption | apply beginPeriod_quiet | apply Quiet.ite)

theorem State.setMo_quiet {s : State} {k : Nat} {g : Mot → Mot} (hK : Quiet q s) : Quiet q (State.setMo s k g) := by
  unfold State.setMo
  with_reducible repeat' (first | assumption | apply Quiet.upd)

theorem setMotState_quiet {s : State} {k : Nat} {st : Nat} (hK : Quiet q s) : Quiet q (setMotState s k st) := by
  unfold setMotState
  with_reducible repeat' (first | assumption | apply State.put_quiet)

theorem setPos_quiet {s : State} {k : Nat} {x : Int} (hK : Quiet q s) : Quiet q (setPos s k x) := by
  unfold setPos
  with_reducible repeat' (first
    | assumption
    | (extract_lets +onlyGivenNames x; refine (fun hx : Quiet q x => ?_) ?_; rotate_left; subst x; rotate_left; clear_value x)
    | apply State.put_quiet | apply State.putInt_quiet | split)

theorem engSwitch_quiet {s : State} {f : Nat} {st : Nat} {hs : Bool} {ls : Bool} (hK : Quiet q s) : Quiet q (engSwitch
    s f st hs ls) := by
  unfold engSwitch
  with_reducible repeat' (first | assumption | apply drive_quiet | apply stopGen_quiet | apply Quiet.ite)

theorem bridgeBrake_quiet {s : State} {e : Nat} (hK : Quiet q s) : Quiet q (bridgeBrake s e) := by
  unfold bridgeBrake
  with_reducible repeat' (first | assumption | apply engSwitch_quiet)

theorem bridgeOff_quiet {s : State} {e : Nat} (hK : Quiet q s) : Quiet q (bridgeOff s e) := by
  unfold bridgeOff
  with_reducible repeat' (first | assumption | apply engSwitch_quiet)

theorem motIdleLoop_quiet {s : State} {k : Nat} (hK : Quiet q s) : Quiet q (motIdleLoop s k) := by
  unfold motIdleLoop
  with_reducible repeat' (first | assumption | apply State.put_quiet)

theorem motRelease_quiet {s : State} {k : Nat} (hK : Quiet q s) : Quiet q (motRelease s k) := by
  unfold motRelease
  with_reducible repeat' (first
    | assumption | apply State.setMo_quiet | apply setMotState_quiet | apply bridgeOff_quiet | apply motIdleLoop_quiet)

theorem motStop_quiet {s : State} {k : Nat} {cause : Nat} {force : Bool} (hK : Quiet q s) : Quiet q (motStop s k cause
    force) := by
  unfold motStop
  with_reducible repeat' (first
    | assumption | apply State.put_quiet | apply State.setMo_quiet | apply setMotState_quiet | apply bridgeBrake_quiet
    | apply motIdleLoop_quiet | apply motRelease_quiet | apply Quiet.ite)

theorem motKill_quiet {s : State} {k : Nat} {cause : Nat} (hK : Quiet q s) : Quiet q (motKill s k cause) := by
  unfold motKill
  with_reducible repeat' (first
    | assumption | apply State.put_quiet | apply State.setMo_quiet | apply motRelease_quiet | apply Quiet.ite)

theorem State.setSk_quiet {s : State} {k : Nat} {g : Stk → Stk} (hK : Quiet q s) : Quiet q (State.setSk s k g) := by
  unfold State.setSk
  with_reducible repeat' (first | assumption | apply Quiet.upd)

theorem stkApply_quiet {s : State} {k : Nat} (hK : Quiet q s) : Quiet q (stkApply s k) := by
  unfold stkApply
  with_reducible repeat' (first | assumption | apply engSwitch_quiet | split)

theorem stkMirror_quiet {s : State} {k : Nat} (hK : Quiet q s) : Quiet q (stkMirror s k) := by
  unfold stkMirror
  with_reducible repeat' (first | assumption | apply Quiet.wr | split)

theorem showAct_quiet {s : State} {k : Nat} (hK : Quiet q s) : Quiet q (showAct s k) := by
  unfold showAct
  with_reducible repeat' (first | assumption | apply State.put_quiet)

theorem setPhase_quiet {s : State} {k : Nat} {ph : Nat} (hK : Quiet q s) : Quiet q (setPhase s k ph) := by
  unfold setPhase
  with_reducible repeat' (first
    | assumption | apply State.put_quiet | apply State.setSk_quiet | apply stkApply_quiet | apply stkMirror_quiet
    | apply showAct_quiet)

theorem stkBoost_quiet {s : State} {k : Nat} {isFresh : Bool} (hK : Quiet q s) : Quiet q (stkBoost s k isFresh) := by
  unfold stkBoost
  with_reducible repeat' (first | assumption | apply State.put_quiet | apply State.setSk_quiet | apply setPhase_quiet)

theorem stkServeWait_quiet {s : State} {j : Nat} (hK : Quiet q s) : Quiet q (stkServeWait s j) := by
  unfold stkServeWait
  with_reducible repeat' (first | assumption | apply State.put_quiet | apply stkBoost_quiet | apply Quiet.ite)

theorem stkSettle_quiet {s : State} {k : Nat} (hK : Quiet q s) : Quiet q (stkSettle s k) := by
  unfold stkSettle
  with_reducible repeat' (first | assumption | apply stkServeWait_quiet | apply Quiet.each)

theorem stkQuench_quiet {s : State} {k : Nat} {cause : Nat} (hK : Quiet q s) : Quiet q (stkQuench s k cause) := by
  unfold stkQuench
  with_reducible repeat' (first
    | assumption | apply State.put_quiet | apply State.setSk_quiet | apply setPhase_quiet | apply stkSettle_quiet)

theorem stkHalt_quiet {cause : Nat} {s : State} {k : Nat} (hK : Quiet q s) : Quiet q (stkHalt cause s k) := by
  unfold stkHalt
  with_reducible repeat' (first
    | assumption | apply State.put_quiet | apply State.setSk_quiet | apply setPhase_quiet | apply Quiet.ite)

theorem stkStops_quiet {s : State} {ks : List Nat} {cause : Nat} (hK : Quiet q s) : Quiet q (stkStops s ks cause) := by
  unfold stkStops
  with_reducible repeat' (first | assumption | apply stkSettle_quiet | apply stkHalt_quiet | apply Quiet.each)

theorem stkStop_quiet {s : State} {k : Nat} {cause : Nat} (hK : Quiet q s) : Quiet q (stkStop s k cause) := by
  unfold stkStop
  with_reducible repeat' (first | assumption | apply stkStops_quiet)

theorem stopOwner_quiet {s : State} {f : Nat} {why : StopWhy} (hK : Quiet q s) : Quiet q (stopOwner s f why) := by
  unfold stopOwner
  with_reducible repeat' (first
    | assumption | (intro x a hx; guard_hyp hx : Quiet q x) | apply motKill_quiet | apply stkStops_quiet | apply Quiet.each
    | split)

theorem State.setSt_quiet {s : State} {n : Nat} {g : StrDrv → StrDrv} (hK : Quiet q s) : Quiet q (State.setSt s n g) := by
  unfold State.setSt
  with_reducible repeat' (first | assumption | apply Quiet.upd)

theorem State.setSn_quiet {s : State} {n : Nat} {g : Sink → Sink} (hK : Quiet q s) : Quiet q (State.setSn s n g) := by
  unfold State.setSn
  with_reducible repeat' (first | assumption | apply Quiet.upd)

theorem State.setMx_quiet {s : State} {g : Matrix → Matrix} (hK : Quiet q s) : Quiet q (State.setMx s g) := by
  unfold State.setMx
  with_reducible repeat' (first | assumption | apply Quiet.upd)

theorem State.setChain_quiet {s : State} {g : Chain → Chain} (hK : Quiet q s) : Quiet q (State.setChain s g) := by
  unfold State.setChain
  with_reducible repeat' (first | assumption | apply Quiet.upd)

theorem tgtUncl_quiet {s : State} {t : Target} {b : Bool} (hK : Quiet q s) : Quiet q (tgtUncl s t b) := by
  unfold tgtUncl
  with_reducible repeat' (first | assumption | apply State.put_quiet | apply State.setBit_quiet | split)

theorem tgtCoincident_quiet {s : State} {zz : Target} (hK : Quiet q s) : Quiet q (tgtCoincident s zz) := by
  unfold tgtCoincident
  with_reducible repeat' (first | assumption | apply State.put_quiet | split)

theorem lgtRefreshFlt_quiet {s : State} {zz : Target} (hK : Quiet q s) : Quiet q (lgtRefreshFlt s zz) := by
  unfold lgtRefreshFlt
  with_reducible repeat' (first | assumption | apply State.setBit_quiet | split)

theorem mxRefreshFlt_quiet {s : State} (hK : Quiet q s) : Quiet q (mxRefreshFlt s) := by
  unfold mxRefreshFlt
  with_reducible repeat' (first | assumption | apply State.setBit_quiet)

theorem stFault_quiet {s : State} {n : Nat} {b : Fld} (hK : Quiet q s) : Quiet q (stFault s n b) := by
  unfold stFault
  with_reducible repeat' (first | assumption | apply State.put_quiet | apply lgtRefreshFlt_quiet)

theorem skFault_quiet {s : State} {n : Nat} {b : Fld} (hK : Quiet q s) : Quiet q (skFault s n b) := by
  unfold skFault
  with_reducible repeat' (first | assumption | apply State.put_quiet | apply lgtRefreshFlt_quiet)

theorem strWant_quiet {s : State} {n : Nat} {on : Bool} (hK : Quiet q s) : Quiet q (strWant s n on) := by
  unfold strWant
  with_reducible repeat' (first | assumption | apply State.setSt_quiet)

theorem strDiagnosed_quiet {s : State} {n : Nat} (hK : Quiet q s) : Quiet q (strDiagnosed s n) := by
  unfold strDiagnosed
  with_reducible repeat' (first
    | assumption | (intro x hx; guard_hyp hx : Quiet q x) | apply State.put_quiet | apply State.setSt_quiet
    | apply Quiet.when)

theorem strAged_quiet {s : State} {n : Nat} (hK : Quiet q s) : Quiet q (strAged s n) := by
  unfold strAged
  with_reducible repeat' (first | assumption | apply State.setSt_quiet | apply Quiet.ite)

theorem strBegin_quiet {s : State} {n : Nat} {per : Nat} {duty : Nat} (hK : Quiet q s) : Quiet q (strBegin s n per
    duty) := by
  unfold strBegin
  with_reducible repeat' (first
    | assumption | apply State.put_quiet | apply setDerated_quiet | apply State.setSt_quiet | apply strWant_quiet
    | apply strAged_quiet)

theorem strStop_quiet {s : State} {n : Nat} (hK : Quiet q s) : Quiet q (strStop s n) := by
  unfold strStop
  with_reducible repeat' (first | assumption | apply State.put_quiet | apply State.setSt_quiet | apply strAged_quiet)

theorem strMode_quiet {s : State} {n : Nat} {m : Nat} (hK : Quiet q s) : Quiet q (strMode s n m) := by
  unfold strMode
  with_reducible repeat' (first
    | assumption | (intro x hx; guard_hyp hx : Quiet q x) | apply State.put_quiet | apply setDerated_quiet
    | apply State.setSt_quiet | apply strWant_quiet | apply strBegin_quiet | apply strStop_quiet | apply Quiet.when | split)

theorem sinkWant_quiet {s : State} {n : Nat} {on : Bool} (hK : Quiet q s) : Quiet q (sinkWant s n on) := by
  unfold sinkWant
  with_reducible repeat' (first | assumption | apply State.setSn_quiet)

theorem sinkDiagnosed_quiet {s : State} {n : Nat} (hK : Quiet q s) : Quiet q (sinkDiagnosed s n) := by
  unfold sinkDiagnosed
  with_reducible repeat' (first
    | assumption | (intro x hx; guard_hyp hx : Quiet q x) | apply State.put_quiet | apply State.setSn_quiet
    | apply Quiet.when)

theorem sinkAged_quiet {s : State} {n : Nat} (hK : Quiet q s) : Quiet q (sinkAged s n) := by
  unfold sinkAged
  with_reducible repeat' (first | assumption | apply State.setSn_quiet | apply Quiet.ite)

theorem sinkPlace_quiet {s : State} {n : Nat} {t : Nat} {edge : Word} (hK : Quiet q s) : Quiet q (sinkPlace s n t
    edge) := by
  unfold sinkPlace
  with_reducible repeat' (first | assumption | apply State.put_quiet | apply State.setSn_quiet)

theorem sinkBegin_quiet {s : State} {n : Nat} {per : Nat} {d : Nat} (hK : Quiet q s) : Quiet q (sinkBegin s n per d) := by
  unfold sinkBegin
  with_reducible repeat' (first | assumption | apply sinkAged_quiet | apply sinkPlace_quiet)

theorem sinkEnd_quiet {s : State} {n : Nat} (hK : Quiet q s) : Quiet q (sinkEnd s n) := by
  unfold sinkEnd
  with_reducible repeat' (first | assumption | apply State.setSn_quiet | apply sinkWant_quiet | apply Quiet.ite)

theorem sinkServe_quiet {s : State} {n : Nat} (hK : Quiet q s) : Quiet q (sinkServe s n) := by
  unfold sinkServe
  with_reducible repeat' (first
    | assumption
    | (extract_lets +onlyGivenNames x; refine (fun hx : Quiet q x => ?_) ?_; rotate_left; subst x; rotate_left; clear_value x)
    | apply State.setSn_quiet | apply sinkWant_quiet | apply sinkDiagnosed_quiet | apply sinkEnd_quiet | split)

theorem sinkStop_quiet {s : State} {n : Nat} (hK : Quiet q s) : Quiet q (sinkStop s n) := by
  unfold sinkStop
  with_reducible repeat' (first | assumption | apply State.put_quiet | apply State.setSn_quiet | apply sinkAged_quiet)

theorem sinkJoin_quiet {s : State} {n : Nat} {duty : Nat} (hK : Quiet q s) : Quiet q (sinkJoin s n duty) := by
  unfold sinkJoin
  with_reducible repeat' (first
    | assumption | apply State.setSn_quiet | apply sinkWant_quiet | apply sinkBegin_quiet | apply sinkServe_quiet
    | apply sinkStop_quiet | split | apply Quiet.upd)

theorem sinkMode_quiet {s : State} {n : Nat} {m : Nat} (hK : Quiet q s) : Quiet q (sinkMode s n m) := by
  unfold sinkMode
  with_reducible repeat' (first
    | assumption | apply State.put_quiet | apply State.setSn_quiet | apply sinkWant_quiet | apply sinkStop_quiet
    | apply sinkJoin_quiet | split)

theorem chainPin_quiet {s : State} (hK : Quiet q s) : Quiet q (chainPin s) := by
  unfold chainPin
  with_reducible repeat' (first | assumption | apply State.put_quiet)

theorem chainStart_quiet {s : State} (hK : Quiet q s) : Quiet q (chainStart s) := by
  unfold chainStart
  with_reducible repeat' (first | assumption | apply State.put_quiet | apply State.setChain_quiet | apply Quiet.ite)

theorem chainRequest_quiet {s : State} (hK : Quiet q s) : Quiet q (chainRequest s) := by
  unfold chainRequest
  with_reducible repeat' (first | assumption | apply State.setChain_quiet | apply chainStart_quiet | apply Quiet.ite)

theorem lightSafe_quiet {s : State} {t : Target} (hK : Quiet q s) : Quiet q (lightSafe s t) := by
  unfold lightSafe
  with_reducible repeat' (first
    | assumption
    | (extract_lets +onlyGivenNames x; refine (fun hx : Quiet q x => ?_) ?_; rotate_left; subst x; rotate_left; clear_value x)
    | (extract_lets +onlyGivenNames x; clear_value x) | apply State.put_quiet | apply State.setSt_quiet
    | apply State.setSn_quiet | apply strWant_quiet | apply strBegin_quiet | apply strStop_quiet | apply sinkWant_quiet
    | apply sinkStop_quiet | apply sinkJoin_quiet | apply chainPin_quiet | split)

theorem mxBlank_quiet {s : State} (hK : Quiet q s) : Quiet q (mxBlank s) := by
  unfold mxBlank
  with_reducible repeat' (first
    | assumption | (intro x a hx; guard_hyp hx : Quiet q x) | apply State.setSn_quiet | apply sinkWant_quiet
    | apply Quiet.each)

theorem mxStop_quiet {s : State} (hK : Quiet q s) : Quiet q (mxStop s) := by
  unfold mxStop
  with_reducible repeat' (first | assumption | apply State.setMx_quiet | apply mxBlank_quiet)

theorem mxReclaimed_quiet {s : State} (hK : Quiet q s) : Quiet q (mxReclaimed s) := by
  unfold mxReclaimed
  with_reducible repeat' (first | assumption | apply mxStop_quiet | apply Quiet.ite)

theorem lightReclaim_quiet {s : State} {t : Target} (hK : Quiet q s) : Quiet q (lightReclaim s t) := by
  unfold lightReclaim
  with_reducible repeat' (first
    | assumption | (intro x hx; guard_hyp hx : Quiet q x)
    | (extract_lets +onlyGivenNames x; refine (fun hx : Quiet q x => ?_) ?_; rotate_left; subst x; rotate_left; clear_value x)
    | (extract_lets +onlyGivenNames x; clear_value x) | apply State.put_quiet | apply State.setSt_quiet
    | apply State.setSn_quiet | apply State.setChain_quiet | apply tgtUncl_quiet | apply tgtCoincident_quiet
    | apply strMode_quiet | apply sinkMode_quiet | apply chainPin_quiet | apply chainRequest_quiet | apply mxReclaimed_quiet
    | apply Quiet.when | split)

theorem lightAllSafe_quiet {s : State} (hK : Quiet q s) : Quiet q (lightAllSafe s) := by
  unfold lightAllSafe
  with_reducible repeat' (first | assumption | apply lightSafe_quiet | apply Quiet.each)

theorem lightHoldEnd_quiet {s : State} (hK : Quiet q s) : Quiet q (lightHoldEnd s) := by
  unfold lightHoldEnd
  with_reducible repeat' (first | assumption | apply lightSafe_quiet | apply Quiet.each)

theorem syncTests_quiet {s : State} {f : Nat} (hK : Quiet q s) : Quiet q (syncTests s f) := by
  unfold syncTests
  with_reducible repeat' (first | assumption | apply State.setCh_quiet | apply Quiet.ite)

theorem restartTests_quiet {s : State} {f : Nat} (hK : Quiet q s) : Quiet q (restartTests s f) := by
  unfold restartTests
  with_reducible repeat' (first | assumption | apply State.setCh_quiet | apply syncTests_quiet)

theorem refreshFlt_quiet {s : State} {f : Nat} (hK : Quiet q s) : Quiet q (refreshFlt s f) := by
  unfold refreshFlt
  with_reducible repeat' (first | assumption | apply State.setBit_quiet)

theorem mirrorPair_quiet {s : State} {f : Nat} (hK : Quiet q s) : Quiet q (mirrorPair s f) := by
  unfold mirrorPair
  with_reducible repeat' (first | assumption | apply Quiet.wr | apply refreshFlt_quiet | apply Quiet.ite)

theorem settle_quiet {s : State} {f : Nat} (hK : Quiet q s) : Quiet q (settle s f) := by
  unfold settle
  with_reducible repeat' (first | assumption | apply syncTests_quiet | apply refreshFlt_quiet | apply mirrorPair_quiet)

theorem dropGrant_quiet {s : State} {f : Nat} (hK : Quiet q s) : Quiet q (dropGrant s f) := by
  unfold dropGrant
  with_reducible repeat' (first | assumption | apply State.setCh_quiet | apply setDerated_quiet)

theorem safeValue_quiet {s : State} {f : Nat} {window : Bool} (hK : Quiet q s) : Quiet q (safeValue s f window) := by
  unfold safeValue
  with_reducible repeat' (first
    | assumption
    | (extract_lets +onlyGivenNames x; refine (fun hx : Quiet q x => ?_) ?_; rotate_left; subst x; rotate_left; clear_value x)
    | (extract_lets +onlyGivenNames x; clear_value x) | apply State.setCh_quiet | apply openWindow_quiet
    | apply setSw_quiet | apply drive_quiet | apply stopGen_quiet | apply allOff_quiet | apply beginPeriod_quiet
    | apply dropGrant_quiet | split)

theorem enterSafe_quiet {s : State} {f : Nat} (hK : Quiet q s) : Quiet q (enterSafe s f) := by
  unfold enterSafe
  with_reducible repeat' (first
    | assumption | apply setChState_quiet | apply stopOwner_quiet | apply settle_quiet | apply safeValue_quiet)

theorem expireToSafe_quiet {s : State} {f : Nat} (hK : Quiet q s) : Quiet q (expireToSafe s f) := by
  unfold expireToSafe
  with_reducible repeat' (first | assumption | apply State.setCh_quiet | apply enterSafe_quiet | apply Quiet.ite)

theorem chanSafe_quiet {s : State} {f : Nat} (hK : Quiet q s) : Quiet q (chanSafe s f) := by
  unfold chanSafe
  with_reducible repeat' (first | assumption | apply expireToSafe_quiet | apply Quiet.ite)

theorem toMode_quiet {s : State} {f : Nat} {m : Nat} (hK : Quiet q s) : Quiet q (toMode s f m) := by
  unfold toMode
  with_reducible repeat' (first
    | assumption | apply State.setCh_quiet | apply setChState_quiet | apply openWindow_quiet | apply drive_quiet
    | apply stopGen_quiet | apply allOff_quiet | apply beginPeriod_quiet | apply settle_quiet | apply Quiet.ite)

theorem modeWritten_quiet {s : State} {f : Nat} {old : Nat} {new : Nat} (hK : Quiet q s) : Quiet q (modeWritten s f
    old new) := by
  unfold modeWritten
  with_reducible repeat' (first | assumption | apply State.setCh_quiet | apply toMode_quiet | apply Quiet.ite)

theorem limReset_quiet {s : State} {f : Nat} (hK : Quiet q s) : Quiet q (limReset s f) := by
  unfold limReset
  with_reducible repeat' (first
    | assumption | (intro x a hx; guard_hyp hx : Quiet q x) | apply State.setCh_quiet | apply Quiet.each)

theorem enterLocked_quiet {s : State} {f : Nat} {cause : Nat} (hK : Quiet q s) : Quiet q (enterLocked s f cause) := by
  unfold enterLocked
  with_reducible repeat' (first
    | assumption | apply State.put_quiet | apply State.setCh_quiet | apply setChState_quiet | apply setFault_quiet
    | apply allOff_quiet | apply stopOwner_quiet | apply settle_quiet | apply limReset_quiet)

theorem enterRetry_quiet {s : State} {f : Nat} {st : Nat} {delay : Nat} (hK : Quiet q s) : Quiet q (enterRetry s f st
    delay) := by
  unfold enterRetry
  with_reducible repeat' (first
    | assumption | apply State.setCh_quiet | apply setChState_quiet | apply allOff_quiet | apply stopOwner_quiet
    | apply settle_quiet | apply limReset_quiet)

theorem trip_quiet {s : State} {f : Nat} {causes : List TripCause} {odd : Bool} (hK : Quiet q s) : Quiet q (trip s f
    causes odd) := by
  unfold trip
  with_reducible repeat' (first
    | assumption | (intro x hx; guard_hyp hx : Quiet q x) | (intro x a hx; guard_hyp hx : Quiet q x)
    | apply State.put_quiet | apply State.setCh_quiet | apply setFault_quiet | apply enterLocked_quiet
    | apply enterRetry_quiet | apply Quiet.ite | apply Quiet.when | apply Quiet.each)

theorem restart_quiet {s : State} {f : Nat} (hK : Quiet q s) : Quiet q (restart s f) := by
  unfold restart
  with_reducible repeat' (first
    | assumption | (intro x a hx; guard_hyp hx : Quiet q x) | apply State.setCh_quiet | apply setChState_quiet
    | apply drive_quiet | apply beginPeriod_quiet | apply settle_quiet | apply safeValue_quiet | apply Quiet.ite
    | apply Quiet.each)

theorem unlock_quiet {s : State} {f : Nat} (hK : Quiet q s) : Quiet q (unlock s f) := by
  unfold unlock
  with_reducible repeat' (first
    | assumption | apply State.put_quiet | apply State.setCh_quiet | apply setChState_quiet | apply settle_quiet)

theorem conductChanged_quiet {s : State} {f : Nat} (hK : Quiet q s) : Quiet q (conductChanged s f) := by
  unfold conductChanged
  with_reducible repeat' (first
    | assumption | (intro x a hx; guard_hyp hx : Quiet q x) | apply State.setCh_quiet | apply showDp_quiet
    | apply Quiet.each)

theorem applyHolds_quiet {s : State} {feed : Nat} (hK : Quiet q s) : Quiet q (applyHolds s feed) := by
  unfold applyHolds
  with_reducible repeat' (first
    | assumption | (intro x a hx; guard_hyp hx : Quiet q x) | apply State.setCh_quiet | apply stopOwner_quiet
    | apply conductChanged_quiet | apply Quiet.ite | apply Quiet.each)

theorem beatStart_quiet {s : State} (hK : Quiet q s) : Quiet q (beatStart s) := by
  unfold beatStart
  with_reducible repeat' (first | assumption | apply State.put_quiet | apply Quiet.upd)

theorem beatStop_quiet {s : State} (hK : Quiet q s) : Quiet q (beatStop s) := by
  unfold beatStop
  with_reducible repeat' (first | assumption | apply State.put_quiet | apply Quiet.upd)

theorem beatExpire_quiet {s : State} (hK : Quiet q s) : Quiet q (beatExpire s) := by
  unfold beatExpire
  with_reducible repeat' (first
    | assumption | apply State.put_quiet | apply lightAllSafe_quiet | apply expireToSafe_quiet | apply beatStop_quiet
    | apply Quiet.each)

theorem holdEnd_quiet {s : State} (hK : Quiet q s) : Quiet q (holdEnd s) := by
  unfold holdEnd
  with_reducible repeat' (first
    | assumption | apply State.put_quiet | apply lightHoldEnd_quiet | apply expireToSafe_quiet | apply beatStart_quiet
    | apply Quiet.ite | apply Quiet.each | apply Quiet.upd)

theorem reclaim_quiet {s : State} {f : Nat} (hK : Quiet q s) : Quiet q (reclaim s f) := by
  unfold reclaim
  with_reducible repeat' (first
    | assumption | (intro x hx; guard_hyp hx : Quiet q x) | apply State.put_quiet | apply State.setCh_quiet
    | apply setChState_quiet | apply setUnclaimed_quiet | apply allOff_quiet | apply mirrorPair_quiet | apply settle_quiet
    | apply toMode_quiet | apply modeWritten_quiet | apply Quiet.ite | apply Quiet.when)

theorem updateGact_quiet {s : State} (hK : Quiet q s) : Quiet q (updateGact s) := by
  unfold updateGact
  with_reducible repeat' (first | assumption | apply State.put_quiet)

theorem addCause_quiet {s : State} {cls : Nat} {idx : Nat} (hK : Quiet q s) : Quiet q (addCause s cls idx) := by
  unfold addCause
  with_reducible repeat' (first | assumption | apply Quiet.ite | apply Quiet.upd)

theorem dropCause_quiet {s : State} {p : Cause → Bool} (hK : Quiet q s) : Quiet q (dropCause s p) := by
  unfold dropCause
  with_reducible repeat' (first | assumption | apply Quiet.upd)

theorem recordFault_quiet {s : State} {cls : Nat} {idx : Nat} (hK : Quiet q s) : Quiet q (recordFault s cls idx) := by
  unfold recordFault
  with_reducible repeat' (first
    | assumption | apply Quiet.wr | apply State.put_quiet | apply State.satField_quiet | apply State.setBit_quiet
    | apply Quiet.ite)

theorem fsafe_quiet {s : State} (hK : Quiet q s) : Quiet q (fsafe s) := by
  unfold fsafe
  with_reducible repeat' (first | assumption | apply State.put_quiet | apply beatExpire_quiet)

theorem fsafeDue_quiet {s : State} (hK : Quiet q s) : Quiet q (fsafeDue s) := by
  unfold fsafeDue
  with_reducible repeat' (first | assumption | apply Quiet.upd)

theorem haltCore_quiet {s : State} {c : Nat} (hK : Quiet q s) : Quiet q (haltCore s c) := by
  unfold haltCore
  with_reducible repeat' (first | assumption | with_unfolding_all exact fun _ => Or.inl rfl | apply Quiet.setCore)

theorem safeDetect_quiet {s : State} {cls : Nat} {idx : Nat} (hK : Quiet q s) : Quiet q (safeDetect s cls idx) := by
  unfold safeDetect
  with_reducible repeat' (first
    | assumption | (intro x hx; guard_hyp hx : Quiet q x)
    | (extract_lets +onlyGivenNames x; refine (fun hx : Quiet q x => ?_) ?_; rotate_left; subst x; rotate_left; clear_value x)
    | (extract_lets +onlyGivenNames x; clear_value x) | apply State.put_quiet | apply updateGact_quiet
    | apply addCause_quiet | apply recordFault_quiet | apply fsafeDue_quiet | apply haltCore_quiet | apply Quiet.when
    | apply Quiet.each | split | apply Quiet.upd)

theorem setBad_quiet {s : State} {a : Nat} (hK : Quiet q s) : Quiet q (setBad s a) := by
  unfold setBad
  with_reducible repeat' (first | assumption | apply Quiet.ite | apply Quiet.upd)

theorem eccFault_quiet {s : State} {cls : Nat} {idx : Nat} {a : Nat} (hK : Quiet q s) : Quiet q (eccFault s cls idx a) := by
  unfold eccFault
  with_reducible repeat' (first
    | assumption | apply State.put_quiet | apply safeDetect_quiet | apply setBad_quiet | apply Quiet.upd)

theorem setPwr_quiet {s : State} {g : PwrSt → PwrSt} (hK : Quiet q s) : Quiet q (setPwr s g) := by
  unfold setPwr
  with_reducible repeat' (first | assumption | apply Quiet.upd)

theorem entryAbort_quiet {s : State} (hK : Quiet q s) : Quiet q (entryAbort s) := by
  unfold entryAbort
  with_reducible repeat' (first
    | assumption | (intro x hx; guard_hyp hx : Quiet q x) | apply State.put_quiet | apply setPwr_quiet | apply Quiet.when
    | split)

theorem wakeStart_quiet {s : State} (hK : Quiet q s) : Quiet q (wakeStart s) := by
  unfold wakeStart
  with_reducible repeat' (first
    | assumption | apply Quiet.wr | apply State.drawn_quiet | apply setPwr_quiet | apply Quiet.ite | apply Quiet.when)

theorem wakeDetect_quiet {s : State} {i : Nat} (hK : Quiet q s) : Quiet q (wakeDetect s i) := by
  unfold wakeDetect
  with_reducible repeat' (first
    | assumption | (intro x hx; guard_hyp hx : Quiet q x) | apply State.raise_quiet | apply entryAbort_quiet
    | apply wakeStart_quiet | apply Quiet.ite | apply Quiet.when)

end Sys2Proof.Laws
end

