-- ==== Sys2Proof/Laws/QuietNet.lean ====
section
/-! SUPPORT. What stores nothing (`Quiet` and `QuietA` of Laws/Quiet.lean), one lemma per definition: LIN, ring and network management, and what else of the networks stores nothing. -/

namespace Sys2Proof.Laws
open Machine

variable {q : State}

theorem State.setNm_quiet {s : State} {c : Nat} {g : NmgCh → NmgCh} (hK : Quiet q s) : Quiet q (State.setNm s c g) := by
  unfold State.setNm
  with_reducible repeat' (first | assumption | apply Quiet.upd)

theorem nmgIrq_quiet {s : State} {c : Nat} {i : Nat} (hK : Quiet q s) : Quiet q (nmgIrq s c i) := by
  unfold nmgIrq
  with_reducible repeat' (first | assumption | apply State.raise_quiet)

theorem setXmode_quiet {s : State} {c : Nat} {m : Nat} (hK : Quiet q s) : Quiet q (setXmode s c m) := by
  unfold setXmode
  with_reducible repeat' (first | assumption | apply State.put_quiet | apply State.setNm_quiet)

theorem xLow_quiet {s : State} {c : Nat} (hK : Quiet q s) : Quiet q (xLow s c) := by
  unfold xLow
  with_reducible repeat' (first | assumption | apply State.put_quiet | apply setXmode_quiet | apply Quiet.ite)

theorem nmgServe_quiet {s : State} {c : Nat} (hK : Quiet q s) : Quiet q (nmgServe s c) := by
  unfold nmgServe
  with_reducible repeat' (first
    | assumption | apply State.setNm_quiet | apply setXmode_quiet | apply xLow_quiet | apply Quiet.ite)

theorem nmgTo_quiet {s : State} {c : Nat} {st : Nat} (hK : Quiet q s) : Quiet q (nmgTo s c st) := by
  unfold nmgTo
  with_reducible repeat' (first | assumption | apply State.put_quiet | apply nmgServe_quiet)

theorem kaMake_quiet {s : State} {c : Nat} {rep : Bool} (hK : Quiet q s) : Quiet q (kaMake s c rep) := by
  unfold kaMake
  with_reducible repeat' (first | assumption | apply State.setNm_quiet)

theorem nmgAbort_quiet {s : State} {c : Nat} (hK : Quiet q s) : Quiet q (nmgAbort s c) := by
  unfold nmgAbort
  with_reducible repeat' (first
    | assumption | apply State.put_quiet | apply State.setNm_quiet | apply nmgIrq_quiet | apply nmgTo_quiet
    | apply kaMake_quiet | apply Quiet.ite)

theorem nmgSettle_quiet {s : State} {c : Nat} (hK : Quiet q s) : Quiet q (nmgSettle s c) := by
  unfold nmgSettle
  with_reducible repeat' (first | assumption | apply nmgTo_quiet | apply Quiet.ite)

theorem nmgRepeatEnd_quiet {s : State} {c : Nat} (hK : Quiet q s) : Quiet q (nmgRepeatEnd s c) := by
  unfold nmgRepeatEnd
  with_reducible repeat' (first | assumption | apply State.setNm_quiet | apply nmgSettle_quiet | apply Quiet.ite)

theorem nmgLog_quiet {s : State} {c : Nat} {nmid : Nat} {stamp : Word} (hK : Quiet q s) : Quiet q (nmgLog s c nmid
    stamp) := by
  unfold nmgLog
  with_reducible repeat' (first
    | assumption | (extract_lets +onlyGivenNames x) | apply Quiet.wr | apply State.put_quiet | apply State.satField_quiet
    | split)

theorem kaReceived_quiet {s : State} {c : Nat} {nmid : Nat} {stamp : Word} (hK : Quiet q s) : Quiet q (kaReceived s c
    nmid stamp) := by
  unfold kaReceived
  with_reducible repeat' (first
    | assumption
    | (extract_lets +onlyGivenNames x; refine (fun hx : Quiet q x => ?_) ?_; rotate_left; subst x; rotate_left; clear_value x)
    | (extract_lets +onlyGivenNames x; clear_value x) | apply State.put_quiet | apply State.incField_quiet
    | apply State.setNm_quiet | apply nmgAbort_quiet | apply nmgLog_quiet | split)

theorem execNmgKeepaliveReceived_quiet {c : Fin 12} {fr : NetFrame} {stamp : Word} {s : State} (hK : Quiet q s) :
    QuietA q (execNmgKeepaliveReceived c fr stamp s) := by
  unfold execNmgKeepaliveReceived
  with_reducible repeat' (first | assumption | apply State.on_quiet | apply kaReceived_quiet | apply QuietA.next | split)

theorem execNmgSleepAbort_quiet {c : Fin 12} {s : State} (hK : Quiet q s) : QuietA q (execNmgSleepAbort c s) := by
  unfold execNmgSleepAbort
  with_reducible repeat' (first
    | assumption | (intro x hx; guard_hyp hx : Quiet q x) | apply State.on_quiet | apply nmgAbort_quiet | apply QuietA.next
    | apply Quiet.when)

theorem kaDueServe_quiet {c : Nat} {s : State} (hK : Quiet q s) : Quiet q (kaDueServe c s) := by
  unfold kaDueServe
  with_reducible repeat' (first
    | assumption | (intro x hx; guard_hyp hx : Quiet q x) | apply kaMake_quiet | apply Quiet.when)

theorem execNmgKeepaliveDue_quiet {c : Fin 12} {s : State} (hK : Quiet q s) : QuietA q (execNmgKeepaliveDue c s) := by
  unfold execNmgKeepaliveDue
  with_reducible repeat' (first
    | assumption | apply State.expire_quiet | apply State.on_quiet | apply kaDueServe_quiet | apply QuietA.next)

theorem nmgIdleServe_quiet {c : Nat} {s : State} (hK : Quiet q s) : Quiet q (nmgIdleServe c s) := by
  unfold nmgIdleServe
  with_reducible repeat' (first
    | assumption | (intro x hx; guard_hyp hx : Quiet q x) | apply State.setNm_quiet | apply nmgIrq_quiet
    | apply nmgTo_quiet | apply Quiet.when)

theorem execNmgIdleTimeout_quiet {c : Fin 12} {s : State} (hK : Quiet q s) : QuietA q (execNmgIdleTimeout c s) := by
  unfold execNmgIdleTimeout
  with_reducible repeat' (first
    | assumption | apply State.expire_quiet | apply State.on_quiet | apply nmgIdleServe_quiet | apply QuietA.next)

theorem execNmgRepeatEnd_quiet {c : Fin 12} {s : State} (hK : Quiet q s) : QuietA q (execNmgRepeatEnd c s) := by
  unfold execNmgRepeatEnd
  with_reducible repeat' (first
    | assumption | (intro x hx; guard_hyp hx : Quiet q x) | apply State.expire_quiet | apply State.on_quiet
    | apply nmgRepeatEnd_quiet | apply QuietA.next)

theorem execNmgDetectorArm_quiet {c : Fin 12} {s : State} (hK : Quiet q s) : QuietA q (execNmgDetectorArm c s) := by
  unfold execNmgDetectorArm
  with_reducible repeat' (first
    | assumption | (intro x hx; guard_hyp hx : Quiet q x) | apply State.on_quiet | apply State.setNm_quiet
    | apply QuietA.next | apply Quiet.when | split)

theorem commitServe_quiet {c : Nat} {s : State} (hK : Quiet q s) : Quiet q (commitServe c s) := by
  unfold commitServe
  with_reducible repeat' (first
    | assumption | (intro x hx; guard_hyp hx : Quiet q x) | apply State.setNm_quiet | apply nmgIrq_quiet
    | apply nmgTo_quiet | apply Quiet.when)

theorem execNmgSleepCommit_quiet {c : Fin 12} {s : State} (hK : Quiet q s) : QuietA q (execNmgSleepCommit c s) := by
  unfold execNmgSleepCommit
  with_reducible repeat' (first
    | assumption | apply State.expire_quiet | apply State.on_quiet | apply commitServe_quiet | apply QuietA.next)

theorem confOpen_quiet {s : State} {c : Nat} {t : Word} (hK : Quiet q s) : Quiet q (confOpen s c t) := by
  unfold confOpen
  with_reducible repeat' (first | assumption | apply State.put_quiet | apply State.setNm_quiet)

theorem nmgWoken_quiet {s : State} {c : Nat} (hK : Quiet q s) : Quiet q (nmgWoken s c) := by
  unfold nmgWoken
  with_reducible repeat' (first
    | assumption | apply State.setNm_quiet | apply nmgIrq_quiet | apply nmgTo_quiet | apply confOpen_quiet | apply Quiet.ite)

theorem nmgDetect_quiet {s : State} {c : Nat} {cause : Nat} (hK : Quiet q s) : Quiet q (nmgDetect s c cause) := by
  unfold nmgDetect
  with_reducible repeat' (first
    | assumption | apply State.put_quiet | apply wakeDetect_quiet | apply State.setNm_quiet | apply setXmode_quiet
    | apply nmgWoken_quiet | apply Quiet.ite)

theorem nmgSees_quiet {s : State} {c : Nat} {zz : XcvrEvent} (hK : Quiet q s) : Quiet q (nmgSees s c zz) := by
  unfold nmgSees
  with_reducible repeat' (first
    | assumption
    | (extract_lets +onlyGivenNames x; refine (fun hx : Quiet q x => ?_) ?_; rotate_left; subst x; rotate_left; clear_value x)
    | (extract_lets +onlyGivenNames x; clear_value x) | apply State.put_quiet | apply State.drawn_quiet
    | apply nmgDetect_quiet | split)

theorem execTransceiverWake_quiet {c : Fin 12} {ev : XcvrEvent} {s : State} (hK : Quiet q s) : QuietA q
    (execTransceiverWake c ev s) := by
  unfold execTransceiverWake
  with_reducible repeat' (first
    | assumption | (intro x hx; guard_hyp hx : Quiet q x) | apply nmgSees_quiet | apply QuietA.next | apply Quiet.when)

theorem wakeFrameDecodeEffect_quiet {c : Fin 12} {ev : XcvrEvent} {s : State} (hK : Quiet q s) : Quiet q
    (wakeFrameDecodeEffect c ev s) := by
  unfold wakeFrameDecodeEffect
  with_reducible repeat' (first | assumption | apply nmgSees_quiet | split)

theorem execWakeFrameDecode_quiet {c : Fin 12} {ev : XcvrEvent} {s : State} (hK : Quiet q s) : QuietA q
    (execWakeFrameDecode c ev s) := by
  unfold execWakeFrameDecode
  with_reducible repeat' (first | assumption | apply wakeFrameDecodeEffect_quiet | apply QuietA.next | apply Quiet.when)

theorem nmgConfirmTimeoutEffect_quiet {c : Fin 12} {s : State} (hK : Quiet q s) : Quiet q (nmgConfirmTimeoutEffect c
    s) := by
  unfold nmgConfirmTimeoutEffect
  with_reducible repeat' (first
    | assumption | apply State.put_quiet | apply State.satField_quiet | apply State.setNm_quiet | apply nmgIrq_quiet
    | apply Quiet.ite)

theorem confServe_quiet {c : Fin 12} {s : State} (hK : Quiet q s) : Quiet q (confServe c s) := by
  unfold confServe
  with_reducible repeat' (first | assumption | apply nmgConfirmTimeoutEffect_quiet | apply Quiet.when)

theorem execNmgConfirmTimeout_quiet {c : Fin 12} {s : State} (hK : Quiet q s) : QuietA q (execNmgConfirmTimeout c s) := by
  unfold execNmgConfirmTimeout
  with_reducible repeat' (first
    | assumption | apply State.expire_quiet | apply State.on_quiet | apply confServe_quiet | apply QuietA.next)

theorem execTransceiverService_quiet {s : State} (hK : Quiet q s) : QuietA q (execTransceiverService s) := by
  unfold execTransceiverService
  with_reducible repeat' (first
    | assumption | (intro x hx; guard_hyp hx : Quiet q x) | apply nmgServe_quiet | apply QuietA.next | apply Quiet.when
    | apply Quiet.each)

theorem unservedServe_quiet {c : Nat} {s : State} (hK : Quiet q s) : Quiet q (unservedServe c s) := by
  unfold unservedServe
  with_reducible repeat' (first
    | assumption | (intro x hx; guard_hyp hx : Quiet q x) | apply State.setNm_quiet | apply xLow_quiet | apply Quiet.when)

theorem execTransceiverServiceTimeout_quiet {c : Fin 12} {s : State} (hK : Quiet q s) : QuietA q
    (execTransceiverServiceTimeout c s) := by
  unfold execTransceiverServiceTimeout
  with_reducible repeat' (first | assumption | apply State.expire_quiet | apply unservedServe_quiet | apply QuietA.next)

theorem nmgCtrlWritten_quiet {s : State} {c : Nat} {old : Word} {w : Word} (hK : Quiet q s) : Quiet q (nmgCtrlWritten
    s c old w) := by
  unfold nmgCtrlWritten
  with_reducible repeat' (first
    | assumption
    | (extract_lets +onlyGivenNames x; refine (fun hx : Quiet q x => ?_) ?_; rotate_left; subst x; rotate_left; clear_value x)
    | (extract_lets +onlyGivenNames x; clear_value x) | apply State.put_quiet | apply State.setNm_quiet
    | apply nmgServe_quiet | apply nmgTo_quiet | apply kaMake_quiet | apply nmgAbort_quiet | apply nmgSettle_quiet
    | apply confOpen_quiet | split)

theorem nmgLogWritten_quiet {s : State} {w : Word} (hK : Quiet q s) : Quiet q (nmgLogWritten s w) := by
  unfold nmgLogWritten
  with_reducible repeat' (first
    | assumption | (intro x a hx; guard_hyp hx : Quiet q x) | apply State.put_quiet | apply Quiet.ite | apply Quiet.each)

theorem nmgFwakeWritten_quiet {s : State} {c : Nat} {w : Word} (hK : Quiet q s) : Quiet q (nmgFwakeWritten s c w) := by
  unfold nmgFwakeWritten
  with_reducible repeat' (first | assumption | apply State.put_quiet | apply Quiet.ite)

theorem nmgPark_quiet {s : State} {capped : Bool} (hK : Quiet q s) : Quiet q (nmgPark s capped) := by
  unfold nmgPark
  with_reducible repeat' (first
    | assumption | (intro x a hx; guard_hyp hx : Quiet q x) | apply State.setNm_quiet | apply setXmode_quiet
    | apply xLow_quiet | apply Quiet.ite | apply Quiet.each)

theorem State.setCn_quiet {s : State} {n : Nat} {g : CanSt → CanSt} (hK : Quiet q s) : Quiet q (State.setCn s n g) := by
  unfold State.setCn
  with_reducible repeat' (first | assumption | apply Quiet.upd)

theorem canIrq_quiet {s : State} {n : Nat} {i : Nat} (hK : Quiet q s) : Quiet q (canIrq s n i) := by
  unfold canIrq
  with_reducible repeat' (first | assumption | apply State.raise_quiet)

theorem canShow_quiet {s : State} {n : Nat} (hK : Quiet q s) : Quiet q (canShow s n) := by
  unfold canShow
  with_reducible repeat' (first | assumption | apply State.put_quiet | apply canIrq_quiet | apply Quiet.ite)

theorem execCanProtocolException_quiet {n : Fin 8} {s : State} (hK : Quiet q s) : QuietA q (execCanProtocolException n
    s) := by
  unfold execCanProtocolException
  with_reducible repeat' (first
    | assumption | (intro x hx; guard_hyp hx : Quiet q x) | apply State.put_quiet | apply State.on_quiet
    | apply State.setCn_quiet | apply QuietA.next | apply Quiet.when)

theorem execCanRecoveryDone_quiet {n : Fin 8} {s : State} (hK : Quiet q s) : QuietA q (execCanRecoveryDone n s) := by
  unfold execCanRecoveryDone
  with_reducible repeat' (first
    | assumption | (intro x hx; guard_hyp hx : Quiet q x) | apply State.put_quiet | apply State.on_quiet
    | apply State.setCn_quiet | apply canShow_quiet | apply QuietA.next | apply Quiet.when)

theorem State.setLn_quiet {s : State} {n : Nat} {g : LinSt → LinSt} (hK : Quiet q s) : Quiet q (State.setLn s n g) := by
  unfold State.setLn
  with_reducible repeat' (first | assumption | apply Quiet.upd)

theorem linSlotStartEffect_quiet {n : Nat} {s : State} (hK : Quiet q s) : Quiet q (linSlotStartEffect n s) := by
  unfold linSlotStartEffect
  with_reducible repeat' (first | assumption | apply State.put_quiet | apply State.setLn_quiet | apply Quiet.ite)

theorem execLinSlotStart_quiet {n : Fin 12} {s : State} (hK : Quiet q s) : QuietA q (execLinSlotStart n s) := by
  unfold execLinSlotStart
  with_reducible repeat' (first
    | assumption | apply State.on_quiet | apply linSlotStartEffect_quiet | apply QuietA.next | apply Quiet.when)

theorem linHeaderReceivedEffect_quiet {n : Nat} {id : Fin 64} {brk : Word} {rate : Nat} {s : State} (hK : Quiet q s)
    : Quiet q (linHeaderReceivedEffect n id brk rate s) := by
  unfold linHeaderReceivedEffect
  with_reducible repeat' (first
    | assumption | (intro x hx; guard_hyp hx : Quiet q x) | apply State.put_quiet | apply State.setLn_quiet
    | apply Quiet.when)

theorem execLinHeaderReceived_quiet {n : Fin 12} {id : Fin 64} {brk : Word} {rate : Nat} {s : State} (hK : Quiet q s)
    : QuietA q (execLinHeaderReceived n id brk rate s) := by
  unfold execLinHeaderReceived
  with_reducible repeat' (first
    | assumption | apply State.on_quiet | apply linHeaderReceivedEffect_quiet | apply QuietA.next | apply Quiet.when)

theorem linFault_quiet {n : Nat} {id : Nat} {err : Nat} {s : State} (hK : Quiet q s) : Quiet q (linFault n id err s) := by
  unfold linFault
  with_reducible repeat' (first
    | assumption | apply State.put_quiet | apply State.incField_quiet | apply State.setLn_quiet)

theorem linReceived_quiet {n : Nat} {id : Nat} {last : Bool} {os : List Nat} {s : State} (hK : Quiet q s) : Quiet q
    (linReceived n id last os s) := by
  unfold linReceived
  with_reducible repeat' (first
    | assumption | (intro x hx; guard_hyp hx : Quiet q x) | apply Quiet.wr | apply State.put_quiet
    | apply State.incField_quiet | apply State.setLn_quiet | apply Quiet.when)

theorem execLinResponseReceived_quiet {n : Fin 12} {data : List Nat} {sum : Nat} {s : State} (hK : Quiet q s) : QuietA
    q (execLinResponseReceived n data sum s) := by
  unfold execLinResponseReceived
  with_reducible repeat' (first
    | assumption | (intro x hx; guard_hyp hx : Quiet q x) | apply State.on_quiet | apply linFault_quiet
    | apply linReceived_quiet | apply QuietA.next | apply Quiet.when | split)

theorem linMissServe_quiet {n : Fin 12} {s : State} (hK : Quiet q s) : Quiet q (linMissServe n s) := by
  unfold linMissServe
  with_reducible repeat' (first | assumption | apply linFault_quiet | apply Quiet.when | split)

theorem execLinResponseTimeout_quiet {n : Fin 12} {err : Fin 6} {s : State} (hK : Quiet q s) : QuietA q
    (execLinResponseTimeout n err s) := by
  unfold execLinResponseTimeout
  with_reducible repeat' (first
    | assumption | apply State.expire_quiet | apply State.on_quiet | apply linFault_quiet | apply linMissServe_quiet
    | apply QuietA.next | apply Quiet.when | split)

theorem linWake_quiet {s : State} {n : Nat} {t : Word} (hK : Quiet q s) : Quiet q (linWake s n t) := by
  unfold linWake
  with_reducible repeat' (first | assumption | apply State.put_quiet | apply State.setLn_quiet)

theorem linSleepEntryEffect_quiet {n : Nat} {s : State} (hK : Quiet q s) : Quiet q (linSleepEntryEffect n s) := by
  unfold linSleepEntryEffect
  with_reducible repeat' (first
    | assumption | apply State.put_quiet | apply State.setLn_quiet | apply linWake_quiet | apply Quiet.ite)

theorem execLinSleepEntry_quiet {n : Fin 12} {s : State} (hK : Quiet q s) : QuietA q (execLinSleepEntry n s) := by
  unfold execLinSleepEntry
  with_reducible repeat' (first
    | assumption | apply State.on_quiet | apply linSleepEntryEffect_quiet | apply QuietA.next | apply Quiet.when)

theorem linIdleServe_quiet {n : Fin 12} {s : State} (hK : Quiet q s) : Quiet q (linIdleServe n s) := by
  unfold linIdleServe
  with_reducible repeat' (first
    | assumption | (intro x hx; guard_hyp hx : Quiet q x) | apply State.put_quiet | apply State.setLn_quiet
    | apply Quiet.when)

theorem execLinIdleTimeout_quiet {n : Fin 12} {s : State} (hK : Quiet q s) : QuietA q (execLinIdleTimeout n s) := by
  unfold execLinIdleTimeout
  with_reducible repeat' (first
    | assumption | apply State.expire_quiet | apply State.on_quiet | apply linIdleServe_quiet | apply QuietA.next)

theorem execLinWakeupDetect_quiet {n : Fin 12} {fin : Word} {s : State} (hK : Quiet q s) : QuietA q
    (execLinWakeupDetect n fin s) := by
  unfold execLinWakeupDetect
  with_reducible repeat' (first
    | assumption | (intro x hx; guard_hyp hx : Quiet q x) | apply State.put_quiet | apply wakeDetect_quiet
    | apply State.setLn_quiet | apply linWake_quiet | apply Quiet.ite | apply QuietA.next | apply Quiet.when)

theorem execLinScheduleResume_quiet {n : Fin 12} {s : State} (hK : Quiet q s) : QuietA q (execLinScheduleResume n s) := by
  unfold execLinScheduleResume
  with_reducible repeat' (first
    | assumption | (intro x hx; guard_hyp hx : Quiet q x) | apply State.on_quiet | apply State.setLn_quiet
    | apply QuietA.next | apply Quiet.when)

theorem linWritten_quiet {s : State} {n : Nat} {o : Nat} {old : Word} {w : Word} (hK : Quiet q s) : Quiet q
    (linWritten s n o old w) := by
  unfold linWritten
  with_reducible repeat' (first | assumption | apply State.put_quiet | apply State.setLn_quiet | apply Quiet.ite)

theorem linPark_quiet {s : State} (hK : Quiet q s) : Quiet q (linPark s) := by
  unfold linPark
  with_reducible repeat' (first
    | assumption | (intro x a hx; guard_hyp hx : Quiet q x) | apply State.setLn_quiet | apply Quiet.each)

theorem State.setEt_quiet {s : State} {p : Nat} {g : EthSt → EthSt} (hK : Quiet q s) : Quiet q (State.setEt s p g) := by
  unfold State.setEt
  with_reducible repeat' (first | assumption | apply Quiet.upd)

theorem ethStop_quiet {s : State} {p : Nat} (hK : Quiet q s) : Quiet q (ethStop s p) := by
  unfold ethStop
  with_reducible repeat' (first | assumption | apply State.put_quiet | apply State.setEt_quiet | apply Quiet.ite)

theorem execEthDisable_quiet {p : Fin 6} {s : State} (hK : Quiet q s) : QuietA q (execEthDisable p s) := by
  unfold execEthDisable
  with_reducible repeat' (first
    | assumption | (intro x hx; guard_hyp hx : Quiet q x) | apply State.on_quiet | apply ethStop_quiet | apply QuietA.next
    | apply Quiet.when)

theorem setRing_quiet {s : State} {g : RingSt → RingSt} (hK : Quiet q s) : Quiet q (setRing s g) := by
  unfold setRing
  with_reducible repeat' (first | assumption | apply Quiet.upd)

theorem ringIrq_quiet {s : State} {i : Nat} (hK : Quiet q s) : Quiet q (ringIrq s i) := by
  unfold ringIrq
  with_reducible repeat' (first | assumption | apply State.raise_quiet)

theorem ringPut_quiet {s : State} {f : RingFrame} (hK : Quiet q s) : Quiet q (ringPut s f) := by
  unfold ringPut
  with_reducible repeat' (first | assumption | apply setRing_quiet)

theorem ringForward_quiet {s : State} {f : RingFrame} (hK : Quiet q s) : Quiet q (ringForward s f) := by
  unfold ringForward
  with_reducible repeat' (first | assumption | apply setRing_quiet)

theorem ringClaim_quiet {s : State} (hK : Quiet q s) : Quiet q (ringClaim s) := by
  unfold ringClaim
  with_reducible repeat' (first | assumption | apply State.put_quiet | apply setRing_quiet)

theorem ringBroken_quiet {s : State} (hK : Quiet q s) : Quiet q (ringBroken s) := by
  unfold ringBroken
  with_reducible repeat' (first
    | assumption | apply State.put_quiet | apply State.satField_quiet | apply setRing_quiet | apply ringIrq_quiet
    | apply Quiet.ite)

theorem setKeeper_quiet {s : State} {a : Nat} (hK : Quiet q s) : Quiet q (setKeeper s a) := by
  unfold setKeeper
  with_reducible repeat' (first | assumption | apply State.put_quiet | apply ringIrq_quiet | apply Quiet.ite)

theorem ownStart_quiet {s : State} {o : RingOwn} (hK : Quiet q s) : Quiet q (ownStart s o) := by
  unfold ownStart
  with_reducible repeat' (first | assumption | apply setRing_quiet | apply ringPut_quiet)

theorem ownSend_quiet {s : State} {o : RingOwn} (hK : Quiet q s) : Quiet q (ownSend s o) := by
  unfold ownSend
  with_reducible repeat' (first | assumption | apply setRing_quiet | apply ownStart_quiet | apply Quiet.ite)

theorem timeSend_quiet {s : State} (hK : Quiet q s) : Quiet q (timeSend s) := by
  unfold timeSend
  with_reducible repeat' (first | assumption | apply setRing_quiet | apply ownSend_quiet)

theorem becomeKeeper_quiet {s : State} (hK : Quiet q s) : Quiet q (becomeKeeper s) := by
  unfold becomeKeeper
  with_reducible repeat' (first
    | assumption | apply Quiet.wr | apply State.put_quiet | apply setRing_quiet | apply setKeeper_quiet
    | apply timeSend_quiet)

theorem slotDone_quiet {s : State} {i : Nat} {st : Nat} (hK : Quiet q s) : Quiet q (slotDone s i st) := by
  unfold slotDone
  with_reducible repeat' (first | assumption | apply State.put_quiet | apply ringIrq_quiet)

theorem slotRetry_quiet {s : State} {i : Nat} {st : Nat} (hK : Quiet q s) : Quiet q (slotRetry s i st) := by
  unfold slotRetry
  with_reducible repeat' (first
    | assumption | apply State.put_quiet | apply State.incField_quiet | apply slotDone_quiet | apply Quiet.ite)

theorem dataReturn_quiet {s : State} {f : RingFrame} (hK : Quiet q s) : Quiet q (dataReturn s f) := by
  unfold dataReturn
  with_reducible repeat' (first
    | assumption | apply State.put_quiet | apply slotDone_quiet | apply slotRetry_quiet | split)

theorem timeReturn_quiet {s : State} {f : RingFrame} {stamp : Word} (hK : Quiet q s) : Quiet q (timeReturn s f stamp) := by
  unfold timeReturn
  with_reducible repeat' (first
    | assumption | apply State.drawn_quiet | apply State.putInt_quiet | apply State.putNat_quiet | apply setRing_quiet
    | split)

theorem censusReturn_quiet {s : State} {f : RingFrame} (hK : Quiet q s) : Quiet q (censusReturn s f) := by
  unfold censusReturn
  with_reducible repeat' (first | assumption | apply setRing_quiet | apply Quiet.ite)

theorem ringDup_quiet {s : State} (hK : Quiet q s) : Quiet q (ringDup s) := by
  unfold ringDup
  with_reducible repeat' (first
    | assumption | apply State.put_quiet | apply setRing_quiet | apply ringClaim_quiet | apply Quiet.ite)

theorem claimReturn_quiet {s : State} {f : RingFrame} (hK : Quiet q s) : Quiet q (claimReturn s f) := by
  unfold claimReturn
  with_reducible repeat' (first
    | assumption | apply setRing_quiet | apply ringClaim_quiet | apply becomeKeeper_quiet | apply ringDup_quiet
    | apply Quiet.ite)

theorem ringReturn_quiet {s : State} {f : RingFrame} {stamp : Word} (hK : Quiet q s) : Quiet q (ringReturn s f stamp) := by
  unfold ringReturn
  with_reducible repeat' (first
    | assumption | apply dataReturn_quiet | apply timeReturn_quiet | apply censusReturn_quiet | apply claimReturn_quiet
    | split)

theorem ringStore_quiet {s : State} {f : RingFrame} {stamp : Word} (hK : Quiet q s) : Quiet q (ringStore s f stamp) := by
  unfold ringStore
  with_reducible repeat' (first
    | assumption | (intro x a hx; guard_hyp hx : Quiet q x)
    | (extract_lets +onlyGivenNames x; refine (fun hx : Quiet q x => ?_) ?_; rotate_left; subst x; rotate_left; clear_value x)
    | (extract_lets +onlyGivenNames x; clear_value x) | apply Quiet.wr | apply State.put_quiet | apply ringIrq_quiet
    | apply Quiet.each | split)

theorem ringData_quiet {s : State} {f : RingFrame} {stamp : Word} (hK : Quiet q s) : Quiet q (ringData s f stamp) := by
  unfold ringData
  with_reducible repeat' (first
    | assumption | apply State.satField_quiet | apply setRing_quiet | apply ringForward_quiet | apply ringStore_quiet
    | apply Quiet.ite)

theorem ringTime_quiet {s : State} {f : RingFrame} {stamp : Word} (hK : Quiet q s) : Quiet q (ringTime s f stamp) := by
  unfold ringTime
  with_reducible repeat' (first
    | assumption | apply Quiet.wr | apply State.put_quiet | apply State.drawn_quiet | apply setRing_quiet
    | apply ringForward_quiet | apply setKeeper_quiet)

theorem ringClaimSeen_quiet {s : State} {f : RingFrame} (hK : Quiet q s) : Quiet q (ringClaimSeen s f) := by
  unfold ringClaimSeen
  with_reducible repeat' (first
    | assumption | apply setRing_quiet | apply ringForward_quiet | apply ringClaim_quiet | apply Quiet.ite)

theorem mapCopy_quiet {s : State} {m : List Word} (hK : Quiet q s) : Quiet q (mapCopy s m) := by
  unfold mapCopy
  with_reducible repeat' (first
    | assumption | (intro x a hx; guard_hyp hx : Quiet q x) | apply State.put_quiet | apply ringIrq_quiet | apply Quiet.ite
    | apply Quiet.each)

theorem ringCensus_quiet {s : State} {f : RingFrame} (hK : Quiet q s) : Quiet q (ringCensus s f) := by
  unfold ringCensus
  with_reducible repeat' (first | assumption | apply ringForward_quiet | apply mapCopy_quiet | apply Quiet.ite)

theorem ringBreakSeen_quiet {s : State} {f : RingFrame} (hK : Quiet q s) : Quiet q (ringBreakSeen s f) := by
  unfold ringBreakSeen
  with_reducible repeat' (first | assumption | apply State.put_quiet | apply ringForward_quiet | apply ringBroken_quiet)

theorem ringReceive_quiet {s : State} {f : RingFrame} {stamp : Word} {codeErr : Bool} (hK : Quiet q s) : Quiet q
    (ringReceive s f stamp codeErr) := by
  unfold ringReceive
  with_reducible repeat' (first
    | assumption
    | (extract_lets +onlyGivenNames x; refine (fun hx : Quiet q x => ?_) ?_; rotate_left; subst x; rotate_left; clear_value x)
    | (extract_lets +onlyGivenNames x; clear_value x) | apply State.satField_quiet | apply ringForward_quiet
    | apply ringReturn_quiet | apply ringData_quiet | apply ringTime_quiet | apply ringClaimSeen_quiet
    | apply ringCensus_quiet | apply ringBreakSeen_quiet | split)

theorem execRingFrameReceived_quiet {h0 : Word} {h1 : Word} {pay : List Word} {check : Word} {fin : RingEnd} {stamp
    : Word} {codeErr : Bool} {s : State} (hK : Quiet q s) : QuietA q (execRingFrameReceived h0 h1 pay check fin stamp
    codeErr s) := by
  unfold execRingFrameReceived
  with_reducible repeat' (first
    | assumption | (intro x hx; guard_hyp hx : Quiet q x) | apply State.on_quiet | apply ringReceive_quiet
    | apply QuietA.next | apply Quiet.when)

theorem execRingFrameReturn_quiet {h0 : Word} {h1 : Word} {pay : List Word} {check : Word} {fin : RingEnd} {stamp :
    Word} {s : State} (hK : Quiet q s) : QuietA q (execRingFrameReturn h0 h1 pay check fin stamp s) := by
  unfold execRingFrameReturn
  with_reducible repeat' (first
    | assumption | (intro x hx; guard_hyp hx : Quiet q x) | apply State.on_quiet | apply ringReceive_quiet
    | apply QuietA.next | apply Quiet.when)

theorem ackServe_quiet {i : Nat} {s : State} (hK : Quiet q s) : Quiet q (ackServe i s) := by
  unfold ackServe
  with_reducible repeat' (first
    | assumption | (intro x hx; guard_hyp hx : Quiet q x) | apply slotRetry_quiet | apply Quiet.when)

theorem execRingAckTimeout_quiet {i : Fin 4} {s : State} (hK : Quiet q s) : QuietA q (execRingAckTimeout i s) := by
  unfold execRingAckTimeout
  with_reducible repeat' (first
    | assumption | apply State.expire_quiet | apply State.on_quiet | apply ackServe_quiet | apply QuietA.next)

theorem ringLinkTrainedEffect_quiet {eq : Nat} {s : State} (hK : Quiet q s) : Quiet q (ringLinkTrainedEffect eq s) := by
  unfold ringLinkTrainedEffect
  with_reducible repeat' (first | assumption | apply State.put_quiet | apply ringClaim_quiet)

theorem execRingLinkTrained_quiet {eq : Nat} {s : State} (hK : Quiet q s) : QuietA q (execRingLinkTrained eq s) := by
  unfold execRingLinkTrained
  with_reducible repeat' (first
    | assumption | apply State.on_quiet | apply ringLinkTrainedEffect_quiet | apply QuietA.next | apply Quiet.when)

theorem execRingLockLoss_quiet {errs : Nat} {s : State} (hK : Quiet q s) : QuietA q (execRingLockLoss errs s) := by
  unfold execRingLockLoss
  with_reducible repeat' (first
    | assumption | (intro x hx; guard_hyp hx : Quiet q x) | apply State.put_quiet | apply State.on_quiet
    | apply setRing_quiet | apply QuietA.next | apply Quiet.when)

theorem execRingSymbolLock_quiet {s : State} (hK : Quiet q s) : QuietA q (execRingSymbolLock s) := by
  unfold execRingSymbolLock
  with_reducible repeat' (first
    | assumption | (intro x hx; guard_hyp hx : Quiet q x) | apply State.on_quiet | apply setRing_quiet | apply QuietA.next
    | apply Quiet.when)

theorem execWakeToneReceived_quiet {s : State} (hK : Quiet q s) : QuietA q (execWakeToneReceived s) := by
  unfold execWakeToneReceived
  with_reducible repeat' (first
    | assumption | (intro x hx; guard_hyp hx : Quiet q x) | apply State.put_quiet | apply wakeDetect_quiet
    | apply setRing_quiet | apply QuietA.next | apply Quiet.when)

theorem ringBreakDetectEffect_quiet {s : State} (hK : Quiet q s) : Quiet q (ringBreakDetectEffect s) := by
  unfold ringBreakDetectEffect
  with_reducible repeat' (first | assumption | apply setRing_quiet | apply ringBroken_quiet)

theorem execRingBreakDetect_quiet {s : State} (hK : Quiet q s) : QuietA q (execRingBreakDetect s) := by
  unfold execRingBreakDetect
  with_reducible repeat' (first
    | assumption | apply State.on_quiet | apply ringBreakDetectEffect_quiet | apply QuietA.next | apply Quiet.when)

theorem ringBreakSendEffect_quiet {s : State} (hK : Quiet q s) : Quiet q (ringBreakSendEffect s) := by
  unfold ringBreakSendEffect
  with_reducible repeat' (first | assumption | apply setRing_quiet | apply ownSend_quiet)

theorem execRingBreakSend_quiet {s : State} (hK : Quiet q s) : QuietA q (execRingBreakSend s) := by
  unfold execRingBreakSend
  with_reducible repeat' (first
    | assumption | apply State.on_quiet | apply ringBreakSendEffect_quiet | apply QuietA.next | apply Quiet.when)

theorem execRingRelock_quiet {s : State} (hK : Quiet q s) : QuietA q (execRingRelock s) := by
  unfold execRingRelock
  with_reducible repeat' (first
    | assumption | apply State.on_quiet | apply ringClaim_quiet | apply QuietA.next | apply Quiet.when)

theorem ringClaimSendEffect_quiet {s : State} (hK : Quiet q s) : Quiet q (ringClaimSendEffect s) := by
  unfold ringClaimSendEffect
  with_reducible repeat' (first | assumption | apply setRing_quiet | apply ownSend_quiet)

theorem execRingClaimSend_quiet {s : State} (hK : Quiet q s) : QuietA q (execRingClaimSend s) := by
  unfold execRingClaimSend
  with_reducible repeat' (first
    | assumption | apply State.on_quiet | apply ringClaimSendEffect_quiet | apply QuietA.next | apply Quiet.when)

theorem timeMissServe_quiet {s : State} (hK : Quiet q s) : Quiet q (timeMissServe s) := by
  unfold timeMissServe
  with_reducible repeat' (first | assumption | apply ringClaim_quiet | apply Quiet.when)

theorem execRingTimeTimeout_quiet {s : State} (hK : Quiet q s) : QuietA q (execRingTimeTimeout s) := by
  unfold execRingTimeTimeout
  with_reducible repeat' (first
    | assumption | apply State.expire_quiet | apply State.on_quiet | apply timeMissServe_quiet | apply QuietA.next)

theorem execRingTimeSend_quiet {s : State} (hK : Quiet q s) : QuietA q (execRingTimeSend s) := by
  unfold execRingTimeSend
  with_reducible repeat' (first
    | assumption | apply State.on_quiet | apply timeSend_quiet | apply QuietA.next | apply Quiet.when)

theorem timeReturnServe_quiet {s : State} (hK : Quiet q s) : Quiet q (timeReturnServe s) := by
  unfold timeReturnServe
  with_reducible repeat' (first | assumption | apply ringBroken_quiet | apply Quiet.when)

theorem execRingTimeReturnTimeout_quiet {s : State} (hK : Quiet q s) : QuietA q (execRingTimeReturnTimeout s) := by
  unfold execRingTimeReturnTimeout
  with_reducible repeat' (first
    | assumption | apply State.expire_quiet | apply State.on_quiet | apply timeReturnServe_quiet | apply QuietA.next)

theorem ringCensusSendEffect_quiet {s : State} (hK : Quiet q s) : Quiet q (ringCensusSendEffect s) := by
  unfold ringCensusSendEffect
  with_reducible repeat' (first | assumption | apply setRing_quiet | apply ownSend_quiet | apply mapCopy_quiet)

theorem execRingCensusSend_quiet {s : State} (hK : Quiet q s) : QuietA q (execRingCensusSend s) := by
  unfold execRingCensusSend
  with_reducible repeat' (first
    | assumption | apply State.on_quiet | apply ringCensusSendEffect_quiet | apply QuietA.next | apply Quiet.when)

theorem slotGo_quiet {s : State} {i : Nat} (hK : Quiet q s) : Quiet q (slotGo s i) := by
  unfold slotGo
  with_reducible repeat' (first
    | assumption | apply Quiet.wr | apply State.put_quiet | apply setRing_quiet | apply Quiet.ite)

theorem ringWritten_quiet {s : State} {o : Nat} {old : Word} {w : Word} (hK : Quiet q s) : Quiet q (ringWritten s o
    old w) := by
  unfold ringWritten
  with_reducible repeat' (first
    | assumption | apply State.put_quiet | apply setRing_quiet | apply slotGo_quiet | apply Quiet.ite | apply Quiet.each)

theorem linWrite_quiet {n : Nat} {r : WriteReq} {s : State} (hK : Quiet q s) : Quiet q (linWrite n r s) := by
  unfold linWrite
  with_reducible repeat' (first
    | assumption | intro _ | apply blockWrite_quiet | apply noRej_quiet | apply linWritten_quiet)

theorem ringWrite_quiet {r : WriteReq} {s : State} (hK : Quiet q s) : Quiet q (ringWrite r s) := by
  unfold ringWrite
  with_reducible repeat' (first
    | assumption | intro _ | apply blockWrite_quiet | apply noRej_quiet | apply ringWritten_quiet)

theorem nmgWritten_quiet {c : Nat} {o : Nat} {s : State} {old : Word} {w : Word} (hK : Quiet q s) : Quiet q
    (nmgWritten c o s old w) := by
  unfold nmgWritten
  with_reducible repeat' (first | assumption | apply nmgCtrlWritten_quiet | apply nmgFwakeWritten_quiet | apply Quiet.ite)

theorem nmgLogHook_quiet {o : Nat} {s : State} {u2 : Word} {w : Word} (hK : Quiet q s) : Quiet q (nmgLogHook o s u2 w) := by
  unfold nmgLogHook
  with_reducible repeat' (first | assumption | apply nmgLogWritten_quiet | apply Quiet.ite)

theorem nmgWrite_quiet {r : WriteReq} {s : State} (hK : Quiet q s) : Quiet q (nmgWrite r s) := by
  unfold nmgWrite
  with_reducible repeat' (first
    | assumption | apply blockWrite_quiet | apply noHook_quiet | apply noRej_quiet | apply nmgWritten_quiet
    | apply nmgLogHook_quiet | apply Quiet.ite)

end Sys2Proof.Laws
end

