-- ==== Sys2Proof/Laws/QuietBody.lean ====
section
/-! SUPPORT. What stores nothing (`Quiet` and `QuietA` of Laws/Quiet.lean), one lemma per definition: protection, motion, strokes, inputs, access, timers, lighting and ruling. -/

namespace Sys2Proof.Laws
open Machine

variable {q : State}

theorem execPwmOnTimeEnd_quiet {f : Nat} {s : State} (hK : Quiet q s) : QuietA q (execPwmOnTimeEnd f s) := by
  unfold execPwmOnTimeEnd
  with_reducible repeat' (first
    | assumption | (intro x hx; guard_hyp hx : Quiet q x) | apply endPulse_quiet | apply QuietA.next | apply Quiet.when)

theorem setOnLimit_quiet {s : State} {f : Nat} {g : Limit → Limit} (hK : Quiet q s) : Quiet q (setOnLimit s f g) := by
  unfold setOnLimit
  with_reducible repeat' (first | assumption | apply State.setCh_quiet | apply Quiet.ite)

theorem execCurrentLimitReached_quiet {f : Nat} {at_ : Bool} {s : State} (hK : Quiet q s) : QuietA q
    (execCurrentLimitReached f at_ s) := by
  unfold execCurrentLimitReached
  with_reducible repeat' (first
    | assumption | (intro x hx; guard_hyp hx : Quiet q x) | apply setOnLimit_quiet | apply QuietA.next | apply Quiet.when)

theorem execIlimTimeTrip_quiet {f : Nat} {also : List TripCause} {s : State} (hK : Quiet q s) : QuietA q
    (execIlimTimeTrip f also s) := by
  unfold execIlimTimeTrip
  with_reducible repeat' (first
    | assumption | (intro x hx; guard_hyp hx : Quiet q x) | apply trip_quiet | apply QuietA.next | apply Quiet.when)

theorem execRegulationTimeClear_quiet {f : Nat} {s : State} (hK : Quiet q s) : QuietA q (execRegulationTimeClear f s) := by
  unfold execRegulationTimeClear
  with_reducible repeat' (first
    | assumption | (intro x hx; guard_hyp hx : Quiet q x) | apply setOnLimit_quiet | apply QuietA.next | apply Quiet.when)

theorem execShortCircuitTrip_quiet {f : Nat} {also : List TripCause} {s : State} (hK : Quiet q s) : QuietA q
    (execShortCircuitTrip f also s) := by
  unfold execShortCircuitTrip
  with_reducible repeat' (first
    | assumption | (intro x hx; guard_hyp hx : Quiet q x) | apply trip_quiet | apply QuietA.next | apply Quiet.when)

theorem inrushServe_quiet {f : Nat} {s : State} (hK : Quiet q s) : Quiet q (inrushServe f s) := by
  unfold inrushServe
  with_reducible repeat' (first
    | assumption | (intro x hx; guard_hyp hx : Quiet q x) | apply State.setCh_quiet | apply Quiet.when)

theorem execInrushWindowEnd_quiet {f : Nat} {s : State} (hK : Quiet q s) : QuietA q (execInrushWindowEnd f s) := by
  unfold execInrushWindowEnd
  with_reducible repeat' (first | assumption | apply State.expire_quiet | apply inrushServe_quiet | apply QuietA.next)

theorem showBucket_quiet {s : State} {f : Nat} (hK : Quiet q s) : Quiet q (showBucket s f) := by
  unfold showBucket
  with_reducible repeat' (first | assumption | apply State.put_quiet)

theorem unspend_quiet {s : State} {f : Nat} (hK : Quiet q s) : Quiet q (unspend s f) := by
  unfold unspend
  with_reducible repeat' (first | assumption | apply State.put_quiet | split)

theorem clampLock_quiet {s : State} {f : Nat} (hK : Quiet q s) : Quiet q (clampLock s f) := by
  unfold clampLock
  with_reducible repeat' (first
    | assumption | apply setFault_quiet | apply settle_quiet | apply enterLocked_quiet | apply unspend_quiet
    | apply Quiet.ite)

theorem quant_quiet {s : State} {x : Rat} (hK : Quiet q s) : Quiet q (quant s x).2 := by
  unfold quant
  with_reducible repeat' (first
    | assumption | (extract_lets +onlyGivenNames x; clear_value x) | apply State.drawn_quiet | split)

theorem clampEnergyExceededEffect_quiet {f : Nat} {current : Nat} {low : Bool} {s : State} (hK : Quiet q s) : Quiet q
    (clampEnergyExceededEffect f current low s) := by
  unfold clampEnergyExceededEffect
  with_reducible repeat' (first
    | assumption | apply State.setCh_quiet | apply showBucket_quiet | apply clampLock_quiet | apply quant_quiet)

theorem execClampEnergyExceeded_quiet {f : Nat} {current : Nat} {low : Bool} {s : State} (hK : Quiet q s) : QuietA q
    (execClampEnergyExceeded f current low s) := by
  unfold execClampEnergyExceeded
  with_reducible repeat' (first
    | assumption | apply clampEnergyExceededEffect_quiet | apply QuietA.next | apply Quiet.when)

theorem execClampLeakTick_quiet {s : State} (hK : Quiet q s) : QuietA q (execClampLeakTick s) := by
  unfold execClampLeakTick
  with_reducible repeat' (first
    | assumption | (intro x hx; guard_hyp hx : Quiet q x) | (intro x a hx; guard_hyp hx : Quiet q x)
    | apply State.setCh_quiet | apply showBucket_quiet | apply QuietA.next | apply Quiet.when | apply Quiet.each)

theorem parkonLimitFaultEffect_quiet {f : Nat} {s : State} (hK : Quiet q s) : Quiet q (parkonLimitFaultEffect f s) := by
  unfold parkonLimitFaultEffect
  with_reducible repeat' (first
    | assumption | apply State.setCh_quiet | apply setChState_quiet | apply setFault_quiet | apply allOff_quiet
    | apply settle_quiet | apply wakeDetect_quiet)

theorem execParkonLimitFault_quiet {f : Nat} {s : State} (hK : Quiet q s) : QuietA q (execParkonLimitFault f s) := by
  unfold execParkonLimitFault
  with_reducible repeat' (first | assumption | apply parkonLimitFaultEffect_quiet | apply QuietA.next | apply Quiet.when)

theorem setLatch_quiet {s : State} {f : Nat} {second : Bool} {b : Bool} (hK : Quiet q s) : Quiet q (setLatch s f
    second b) := by
  unfold setLatch
  with_reducible repeat' (first | assumption | apply State.setCh_quiet | apply conductChanged_quiet)

theorem thermalLatchEffect_quiet {f : Nat} {second : Bool} {also : List TripCause} {s : State} (hK : Quiet q s) :
    Quiet q (thermalLatchEffect f second also s) := by
  unfold thermalLatchEffect
  with_reducible repeat' (first
    | assumption | apply trip_quiet | apply parkonLimitFaultEffect_quiet | apply setLatch_quiet | apply Quiet.ite)

theorem execThermalLatch_quiet {f : Nat} {second : Bool} {also : List TripCause} {s : State} (hK : Quiet q s) : QuietA
    q (execThermalLatch f second also s) := by
  unfold execThermalLatch
  with_reducible repeat' (first | assumption | apply thermalLatchEffect_quiet | apply QuietA.next | apply Quiet.when)

theorem execThermalRelease_quiet {f : Nat} {second : Bool} {s : State} (hK : Quiet q s) : QuietA q (execThermalRelease
    f second s) := by
  unfold execThermalRelease
  with_reducible repeat' (first
    | assumption | (intro x hx; guard_hyp hx : Quiet q x) | apply setLatch_quiet | apply QuietA.next | apply Quiet.when)

theorem retryServe_quiet {f : Nat} {s : State} (hK : Quiet q s) : Quiet q (retryServe f s) := by
  unfold retryServe
  with_reducible repeat' (first
    | assumption | (intro x hx; guard_hyp hx : Quiet q x) | apply restart_quiet | apply Quiet.when)

theorem execRetryDelayExpiry_quiet {f : Nat} {s : State} (hK : Quiet q s) : QuietA q (execRetryDelayExpiry f s) := by
  unfold execRetryDelayExpiry
  with_reducible repeat' (first | assumption | apply State.expire_quiet | apply retryServe_quiet | apply QuietA.next)

theorem execRetryRestoreTimeout_quiet {f : Nat} {s : State} (hK : Quiet q s) : QuietA q (execRetryRestoreTimeout f s) := by
  unfold execRetryRestoreTimeout
  with_reducible repeat' (first
    | assumption | (intro x hx; guard_hyp hx : Quiet q x) | apply State.put_quiet | apply QuietA.next | apply Quiet.when)

theorem mismatchDetectEffect_quiet {f : Nat} {hs : Bool} {ls : Bool} {s : State} (hK : Quiet q s) : Quiet q
    (mismatchDetectEffect f hs ls s) := by
  unfold mismatchDetectEffect
  with_reducible repeat' (first
    | assumption | apply State.setCh_quiet | apply setFault_quiet | apply showDp_quiet | apply settle_quiet
    | apply dropCause_quiet | apply safeDetect_quiet | apply Quiet.ite)

theorem execMismatchDetect_quiet {f : Nat} {hs : Bool} {ls : Bool} {s : State} (hK : Quiet q s) : QuietA q
    (execMismatchDetect f hs ls s) := by
  unfold execMismatchDetect
  with_reducible repeat' (first | assumption | apply mismatchDetectEffect_quiet | apply QuietA.next | apply Quiet.when)

theorem mismatchPersistSafeEffect_quiet {f : Nat} {s : State} (hK : Quiet q s) : Quiet q (mismatchPersistSafeEffect f
    s) := by
  unfold mismatchPersistSafeEffect
  with_reducible repeat' (first
    | assumption | (extract_lets +onlyGivenNames x; clear_value x) | apply State.setCh_quiet | apply chanSafe_quiet
    | split)

theorem execMismatchPersistSafe_quiet {f : Nat} {s : State} (hK : Quiet q s) : QuietA q (execMismatchPersistSafe f s) := by
  unfold execMismatchPersistSafe
  with_reducible repeat' (first
    | assumption | apply mismatchPersistSafeEffect_quiet | apply QuietA.next | apply Quiet.when)

theorem secondPathShutdownEffect_quiet {f : Nat} {s : State} (hK : Quiet q s) : Quiet q (secondPathShutdownEffect f s) := by
  unfold secondPathShutdownEffect
  with_reducible repeat' (first
    | assumption
    | (extract_lets +onlyGivenNames x; refine (fun hx : Quiet q x => ?_) ?_; rotate_left; subst x; rotate_left; clear_value x)
    | (extract_lets +onlyGivenNames x; clear_value x) | apply State.put_quiet | apply setFault_quiet
    | apply enterLocked_quiet | apply unspend_quiet | split)

theorem execSecondPathShutdown_quiet {f : Nat} {s : State} (hK : Quiet q s) : QuietA q (execSecondPathShutdown f s) := by
  unfold execSecondPathShutdown
  with_reducible repeat' (first | assumption | apply secondPathShutdownEffect_quiet | apply QuietA.next | apply Quiet.when)

theorem execOpenLoadOnDetect_quiet {f : Nat} {s : State} (hK : Quiet q s) : QuietA q (execOpenLoadOnDetect f s) := by
  unfold execOpenLoadOnDetect
  with_reducible repeat' (first
    | assumption | (intro x hx; guard_hyp hx : Quiet q x) | apply setFault_quiet | apply settle_quiet | apply QuietA.next
    | apply Quiet.when)

theorem offStateTestStartEffect_quiet {f : Nat} {s : State} (hK : Quiet q s) : Quiet q (offStateTestStartEffect f s) := by
  unfold offStateTestStartEffect
  with_reducible repeat' (first | assumption | apply State.setCh_quiet | apply Quiet.ite)

theorem execOffStateTestStart_quiet {f : Nat} {s : State} (hK : Quiet q s) : QuietA q (execOffStateTestStart f s) := by
  unfold execOffStateTestStart
  with_reducible repeat' (first | assumption | apply offStateTestStartEffect_quiet | apply QuietA.next | apply Quiet.when)

theorem offStateTestPhaseEndEffect_quiet {f : Nat} {vout : Nat} {vfeed : Nat} {s : State} (hK : Quiet q s) : Quiet q
    (offStateTestPhaseEndEffect f vout vfeed s) := by
  unfold offStateTestPhaseEndEffect
  with_reducible repeat' (first
    | assumption | apply State.setCh_quiet | apply setFault_quiet | apply settle_quiet | apply Quiet.ite)

theorem execOffStateTestPhaseEnd_quiet {f : Nat} {vout : Nat} {vfeed : Nat} {s : State} (hK : Quiet q s) : QuietA q
    (execOffStateTestPhaseEnd f vout vfeed s) := by
  unfold execOffStateTestPhaseEnd
  with_reducible repeat' (first
    | assumption | apply offStateTestPhaseEndEffect_quiet | apply QuietA.next | apply Quiet.when)

theorem execPairImbalance_quiet {f : Nat} {s : State} (hK : Quiet q s) : QuietA q (execPairImbalance f s) := by
  unfold execPairImbalance
  with_reducible repeat' (first
    | assumption | (intro x hx; guard_hyp hx : Quiet q x) | apply State.put_quiet | apply settle_quiet | apply QuietA.next
    | apply Quiet.when)

theorem wireStep_quiet {s : State} {f : Nat} {i2 : Nat} (hK : Quiet q s) : Quiet q (wireStep s f i2) := by
  unfold wireStep
  with_reducible repeat' (first
    | assumption
    | (extract_lets +onlyGivenNames x; refine (fun hx : Quiet q x => ?_) ?_; rotate_left; subst x; rotate_left; clear_value x)
    | (extract_lets +onlyGivenNames x) | apply State.putInt_quiet | apply State.setCh_quiet | apply trip_quiet
    | apply quant_quiet | split)

theorem senseMember_quiet {s : State} {x : ChanSense} {clamp : Nat} (hK : Quiet q s) : Quiet q (senseMember s x clamp) := by
  unfold senseMember
  with_reducible repeat' (first
    | assumption | (intro x hx; guard_hyp hx : Quiet q x) | apply State.put_quiet | apply State.putInt_quiet
    | apply State.setCh_quiet | apply Quiet.when)

theorem senseSum_quiet {s : State} {f : Nat} {e : ChanSense} {o : ChanSense} (hK : Quiet q s) : Quiet q (senseSum s f
    e o) := by
  unfold senseSum
  with_reducible repeat' (first
    | assumption | (intro x hx; guard_hyp hx : Quiet q x) | apply State.put_quiet | apply State.putInt_quiet
    | apply State.setCh_quiet | apply Quiet.when)

theorem olSample_quiet {s : State} {f : Nat} {on : Nat} (hK : Quiet q s) : Quiet q (olSample s f on) := by
  unfold olSample
  with_reducible repeat' (first
    | assumption | (intro x hx; guard_hyp hx : Quiet q x) | apply State.put_quiet | apply State.setCh_quiet
    | apply Quiet.when)

theorem imbSample_quiet {s : State} {f : Nat} {on : Nat} {e : ChanSense} {o : ChanSense} (hK : Quiet q s) : Quiet q
    (imbSample s f on e o) := by
  unfold imbSample
  with_reducible repeat' (first
    | assumption | (intro x hx; guard_hyp hx : Quiet q x) | apply State.setCh_quiet | apply Quiet.when)

theorem showFeed_quiet {s : State} {feed : Nat} {volt : Int} (hK : Quiet q s) : Quiet q (showFeed s feed volt) := by
  unfold showFeed
  with_reducible repeat' (first | assumption | apply State.put_quiet)

theorem showFeedCurrents_quiet {s : State} {sense : List ChanSense} {light : Nat} (hK : Quiet q s) : Quiet q
    (showFeedCurrents s sense light) := by
  unfold showFeedCurrents
  with_reducible repeat' (first
    | assumption | (intro x a hx; guard_hyp hx : Quiet q x) | apply State.put_quiet | apply Quiet.each)

theorem wireEvaluation_quiet {sense : List ChanSense} {feeds : List Int} {light : Nat} {s : State} (hK : Quiet q s) :
    Quiet q (wireEvaluation sense feeds light s) := by
  unfold wireEvaluation
  with_reducible repeat' (first
    | assumption | (intro x a hx; guard_hyp hx : Quiet q x) | apply State.put_quiet | apply State.setCh_quiet
    | apply mirrorPair_quiet | apply wireStep_quiet | apply senseMember_quiet | apply senseSum_quiet | apply olSample_quiet
    | apply imbSample_quiet | apply showFeed_quiet | apply showFeedCurrents_quiet | apply Quiet.ite | apply Quiet.each)

theorem execWireModelEvaluation_quiet {sense : List ChanSense} {feeds : List Int} {light : Nat} {s : State} (hK :
    Quiet q s) : QuietA q (execWireModelEvaluation sense feeds light s) := by
  unfold execWireModelEvaluation
  with_reducible repeat' (first | assumption | apply wireEvaluation_quiet | apply QuietA.next | apply Quiet.when)

theorem setGrant_quiet {s : State} {es : List ArbEntry} {p : Nat × Nat} (hK : Quiet q s) : Quiet q (setGrant s es p) := by
  unfold setGrant
  with_reducible repeat' (first
    | assumption | apply State.setCh_quiet | apply setDerated_quiet | apply State.setSt_quiet | apply mirrorPair_quiet
    | apply Quiet.ite)

theorem clearGrants_quiet {s : State} (hK : Quiet q s) : Quiet q (clearGrants s) := by
  unfold clearGrants
  with_reducible repeat' (first
    | assumption | (intro x a hx; guard_hyp hx : Quiet q x) | apply setDerated_quiet | apply State.setSt_quiet
    | apply mirrorPair_quiet | apply dropGrant_quiet | apply Quiet.each)

theorem arbiterCycle_quiet {tbp : Int} {sinks : List (Nat × Nat × Nat)} {rowLoss : Nat} {strNow : List Nat} {s :
    State} (hK : Quiet q s) : Quiet q (arbiterCycle tbp sinks rowLoss strNow s) := by
  unfold arbiterCycle
  with_reducible repeat' (first
    | assumption | (intro x a hx; guard_hyp hx : Quiet q x) | apply State.put_quiet | apply State.putInt_quiet
    | apply State.setSt_quiet | apply setGrant_quiet | apply clearGrants_quiet | apply Quiet.each | apply Quiet.upd)

theorem execArbiterCycle_quiet {tbp : Int} {sinks : List (Nat × Nat × Nat)} {rowLoss : Nat} {strNow : List Nat} {s :
    State} (hK : Quiet q s) : QuietA q (execArbiterCycle tbp sinks rowLoss strNow s) := by
  unfold execArbiterCycle
  with_reducible repeat' (first
    | assumption | apply arbiterCycle_quiet | apply QuietA.next | apply QuietA.go | apply Quiet.when | apply Quiet.upd)

theorem feedOvercurrentEffect_quiet {feed : Nat} {avg : Nat} {s : State} (hK : Quiet q s) : Quiet q
    (feedOvercurrentEffect feed avg s) := by
  unfold feedOvercurrentEffect
  with_reducible repeat' (first | assumption | apply State.put_quiet | apply Quiet.upd)

theorem execFeedOvercurrent_quiet {feed : Nat} {avg : Nat} {s : State} (hK : Quiet q s) : QuietA q
    (execFeedOvercurrent feed avg s) := by
  unfold execFeedOvercurrent
  with_reducible repeat' (first
    | assumption | apply State.on_quiet | apply feedOvercurrentEffect_quiet | apply QuietA.next | apply Quiet.when)

theorem setHold_quiet {s : State} {feed : Nat} {g : Bool × Bool → Bool × Bool} (hK : Quiet q s) : Quiet q (setHold s
    feed g) := by
  unfold setHold
  with_reducible repeat' (first | assumption | apply applyHolds_quiet | apply Quiet.upd)

theorem execFeedUndervoltage_quiet {feed : Nat} {volt : Int} {s : State} (hK : Quiet q s) : QuietA q
    (execFeedUndervoltage feed volt s) := by
  unfold execFeedUndervoltage
  with_reducible repeat' (first
    | assumption | (intro x hx; guard_hyp hx : Quiet q x) | apply State.on_quiet | apply showFeed_quiet
    | apply setHold_quiet | apply QuietA.next | apply Quiet.when)

theorem execFeedOvervoltageHold_quiet {feed : Nat} {volt : Int} {s : State} (hK : Quiet q s) : QuietA q
    (execFeedOvervoltageHold feed volt s) := by
  unfold execFeedOvervoltageHold
  with_reducible repeat' (first
    | assumption | (intro x hx; guard_hyp hx : Quiet q x) | apply State.on_quiet | apply showFeed_quiet
    | apply setHold_quiet | apply QuietA.next | apply Quiet.when)

theorem execFeedVoltageRecovery_quiet {feed : Nat} {volt : Int} {s : State} (hK : Quiet q s) : QuietA q
    (execFeedVoltageRecovery feed volt s) := by
  unfold execFeedVoltageRecovery
  with_reducible repeat' (first
    | assumption | (intro x hx; guard_hyp hx : Quiet q x) | apply State.on_quiet | apply showFeed_quiet
    | apply setHold_quiet | apply QuietA.next | apply Quiet.when)

theorem reverseBatteryEffect_quiet {feed : Nat} {s : State} (hK : Quiet q s) : Quiet q (reverseBatteryEffect feed s) := by
  unfold reverseBatteryEffect
  with_reducible repeat' (first
    | assumption | with_unfolding_all exact fun _ => Or.inl rfl | (intro x a hx; guard_hyp hx : Quiet q x)
    | apply State.put_quiet | apply State.setReady_quiet | apply State.setCh_quiet | apply Quiet.each | apply Quiet.mapCores
    | apply Quiet.upd)

theorem execReverseBattery_quiet {feed : Nat} {volt : Int} {s : State} (hK : Quiet q s) : QuietA q (execReverseBattery
    feed volt s) := by
  unfold execReverseBattery
  with_reducible repeat' (first
    | assumption | apply State.on_quiet | apply reverseBatteryEffect_quiet | apply QuietA.next | apply Quiet.when)

theorem heartbeatServe_quiet {s : State} (hK : Quiet q s) : Quiet q (heartbeatServe s) := by
  unfold heartbeatServe
  with_reducible repeat' (first | assumption | apply beatExpire_quiet | apply Quiet.when)

theorem execHeartbeatExpiry_quiet {s : State} (hK : Quiet q s) : QuietA q (execHeartbeatExpiry s) := by
  unfold execHeartbeatExpiry
  with_reducible repeat' (first | assumption | apply State.expire_quiet | apply heartbeatServe_quiet | apply QuietA.next)

theorem holdServe_quiet {s : State} (hK : Quiet q s) : Quiet q (holdServe s) := by
  unfold holdServe
  with_reducible repeat' (first | assumption | apply holdEnd_quiet | apply Quiet.when)

theorem execHoldExpiry_quiet {s : State} (hK : Quiet q s) : QuietA q (execHoldExpiry s) := by
  unfold execHoldExpiry
  with_reducible repeat' (first | assumption | apply State.expire_quiet | apply holdServe_quiet | apply QuietA.next)

theorem testPassed_quiet {s : State} {t : Nat} (hK : Quiet q s) : Quiet q (testPassed s t) := by
  unfold testPassed
  with_reducible repeat' (first
    | assumption | apply State.setBit_quiet | apply updateGact_quiet | apply dropCause_quiet | apply Quiet.ite
    | apply Quiet.upd)

theorem crossCheck_quiet {pairs : List (Nat × Nat × Nat)} {s : State} (hK : Quiet q s) : Quiet q (crossCheck pairs s) := by
  unfold crossCheck
  with_reducible repeat' (first
    | assumption | (intro x a hx; guard_hyp hx : Quiet q x) | apply State.setCh_quiet | apply chanSafe_quiet
    | apply dropCause_quiet | apply safeDetect_quiet | apply testPassed_quiet | apply Quiet.ite | apply Quiet.each)

theorem execCurrentSenseCrossCheck_quiet {pairs : List (Nat × Nat × Nat)} {s : State} (hK : Quiet q s) : QuietA q
    (execCurrentSenseCrossCheck pairs s) := by
  unfold execCurrentSenseCrossCheck
  with_reducible repeat' (first | assumption | apply crossCheck_quiet | apply QuietA.next | apply Quiet.when)

theorem motDemand_quiet {s : State} {k : Nat} (hK : Quiet q s) : Quiet q (motDemand s k).2 := by
  unfold motDemand
  with_reducible repeat' (first
    | assumption
    | (extract_lets +onlyGivenNames x; refine (fun hx : Quiet q x => ?_) ?_; rotate_left; subst x; rotate_left; clear_value x)
    | (extract_lets +onlyGivenNames x; clear_value x) | apply State.put_quiet | apply State.drawn_quiet | split)

theorem motDuty_quiet {s : State} {k : Nat} (hK : Quiet q s) : Quiet q (motDuty s k).2 := by
  unfold motDuty
  with_reducible repeat' (first | assumption | (extract_lets +onlyGivenNames x) | apply motDemand_quiet | split)

theorem motDrive_quiet {s : State} {k : Nat} {isOpen : Bool} (hK : Quiet q s) : Quiet q (motDrive s k isOpen) := by
  unfold motDrive
  with_reducible repeat' (first
    | assumption | apply State.put_quiet | apply State.setCh_quiet | apply stopGen_quiet | apply beginPeriod_quiet
    | apply engSwitch_quiet | apply motDuty_quiet | apply Quiet.ite)

theorem motArm_quiet {s : State} {k : Nat} (hK : Quiet q s) : Quiet q (motArm s k) := by
  unfold motArm
  with_reducible repeat' (first | assumption | apply State.put_quiet | apply State.setMo_quiet)

theorem motBegin_quiet {s : State} {k : Nat} {isOpen : Bool} (hK : Quiet q s) : Quiet q (motBegin s k isOpen) := by
  unfold motBegin
  with_reducible repeat' (first
    | assumption | apply State.setMo_quiet | apply setMotState_quiet | apply motDrive_quiet | apply motArm_quiet)

theorem motMove_quiet {s : State} {k : Nat} {isOpen : Bool} (hK : Quiet q s) : Quiet q (motMove s k isOpen) := by
  unfold motMove
  with_reducible repeat' (first
    | assumption | apply State.setMo_quiet | apply setMotState_quiet | apply bridgeBrake_quiet | apply motIdleLoop_quiet
    | apply motArm_quiet | apply motBegin_quiet | apply Quiet.ite)

theorem motStart_quiet {s : State} {k : Nat} {w : Word} (hK : Quiet q s) : Quiet q (motStart s k w) := by
  unfold motStart
  with_reducible repeat' (first
    | assumption
    | (extract_lets +onlyGivenNames x; refine (fun hx : Quiet q x => ?_) ?_; rotate_left; subst x; rotate_left; clear_value x)
    | (extract_lets +onlyGivenNames x; clear_value x) | apply State.put_quiet | apply State.setMo_quiet
    | apply motStop_quiet | apply motMove_quiet | split)

theorem motCommanded_quiet {s : State} {k : Nat} {w : Word} (hK : Quiet q s) : Quiet q (motCommanded s k w) := by
  unfold motCommanded
  with_reducible repeat' (first | assumption | apply State.setMo_quiet | apply motStart_quiet | apply Quiet.ite)

theorem motReclaimed_quiet {s : State} {k : Nat} (hK : Quiet q s) : Quiet q (motReclaimed s k) := by
  unfold motReclaimed
  with_reducible repeat' (first | assumption | apply motStart_quiet | split)

theorem motDisabled_quiet {s : State} {k : Nat} (hK : Quiet q s) : Quiet q (motDisabled s k) := by
  unfold motDisabled
  with_reducible repeat' (first | assumption | apply State.setMo_quiet | apply motStop_quiet | apply Quiet.ite)

theorem motCoincident_quiet {s : State} {k : Nat} (hK : Quiet q s) : Quiet q (motCoincident s k) := by
  unfold motCoincident
  with_reducible repeat' (first
    | assumption | (intro x hx; guard_hyp hx : Quiet q x) | apply State.put_quiet | apply Quiet.when)

theorem pwmBoundaries_quiet {s : State} (hK : Quiet q s) : Quiet q (pwmBoundaries s) := by
  unfold pwmBoundaries
  with_reducible repeat' (first
    | assumption | (intro x a hx; guard_hyp hx : Quiet q x) | apply State.setCh_quiet | apply periodBoundary_quiet
    | apply mirrorPair_quiet | apply motDuty_quiet | apply Quiet.each | split)

theorem execPwmPeriodBoundary_quiet {s : State} (hK : Quiet q s) : QuietA q (execPwmPeriodBoundary s) := by
  unfold execPwmPeriodBoundary
  with_reducible repeat' (first | assumption | apply State.expire_quiet | apply pwmBoundaries_quiet | apply QuietA.next)

theorem showFree_quiet {s : State} {k : Nat} (hK : Quiet q s) : Quiet q (showFree s k) := by
  unfold showFree
  with_reducible repeat' (first | assumption | apply State.putNat_quiet)

theorem execSoftStartEnd_quiet {k : Nat} {current : Nat} {rate : Nat} {s : State} (hK : Quiet q s) : QuietA q
    (execSoftStartEnd k current rate s) := by
  unfold execSoftStartEnd
  with_reducible repeat' (first
    | assumption | (intro x hx; guard_hyp hx : Quiet q x) | apply State.setMo_quiet | apply showFree_quiet
    | apply QuietA.next | apply Quiet.when)

theorem countRipple_quiet {s : State} {k : Nat} (hK : Quiet q s) : Quiet q (countRipple s k) := by
  unfold countRipple
  with_reducible repeat' (first | assumption | apply State.putNat_quiet | apply State.setMo_quiet | apply setPos_quiet)

theorem countCorr_quiet {s : State} {k : Nat} (hK : Quiet q s) : Quiet q (countCorr s k) := by
  unfold countCorr
  with_reducible repeat' (first
    | assumption | apply State.put_quiet | apply State.satField_quiet | apply motStop_quiet | apply Quiet.ite)

theorem rippleDetectEffect_quiet {k : Nat} {s : State} (hK : Quiet q s) : Quiet q (rippleDetectEffect k s) := by
  unfold rippleDetectEffect
  with_reducible repeat' (first
    | assumption | (extract_lets +onlyGivenNames x; clear_value x) | apply countRipple_quiet | apply countCorr_quiet
    | split)

theorem execRippleDetect_quiet {k : Nat} {s : State} (hK : Quiet q s) : QuietA q (execRippleDetect k s) := by
  unfold execRippleDetect
  with_reducible repeat' (first | assumption | apply rippleDetectEffect_quiet | apply QuietA.next | apply Quiet.when)

theorem rippleGapCorrectionEffect_quiet {k : Nat} {s : State} (hK : Quiet q s) : Quiet q (rippleGapCorrectionEffect k
    s) := by
  unfold rippleGapCorrectionEffect
  with_reducible repeat' (first
    | assumption | (extract_lets +onlyGivenNames x; clear_value x) | apply countRipple_quiet | apply countCorr_quiet
    | split)

theorem execRippleGapCorrection_quiet {k : Nat} {s : State} (hK : Quiet q s) : QuietA q (execRippleGapCorrection k s) := by
  unfold execRippleGapCorrection
  with_reducible repeat' (first
    | assumption | apply rippleGapCorrectionEffect_quiet | apply QuietA.next | apply Quiet.when)

theorem rippleCountEndEffect_quiet {k : Nat} {s : State} (hK : Quiet q s) : Quiet q (rippleCountEndEffect k s) := by
  unfold rippleCountEndEffect
  with_reducible repeat' (first
    | assumption | apply State.put_quiet | apply State.setMo_quiet | apply setMotState_quiet | apply Quiet.ite)

theorem execRippleCountEnd_quiet {k : Nat} {s : State} (hK : Quiet q s) : QuietA q (execRippleCountEnd k s) := by
  unfold execRippleCountEnd
  with_reducible repeat' (first | assumption | apply rippleCountEndEffect_quiet | apply QuietA.next | apply Quiet.when)

theorem motPinch_quiet {s : State} {k : Nat} (hK : Quiet q s) : Quiet q (motPinch s k) := by
  unfold motPinch
  with_reducible repeat' (first
    | assumption | apply State.put_quiet | apply raiseSrc_quiet | apply State.setMo_quiet | apply setMotState_quiet
    | apply bridgeBrake_quiet | apply motIdleLoop_quiet)

theorem forceEstimateEffect_quiet {k : Nat} {current : Nat} {s : State} (hK : Quiet q s) : Quiet q
    (forceEstimateEffect k current s) := by
  unfold forceEstimateEffect
  with_reducible repeat' (first
    | assumption
    | (extract_lets +onlyGivenNames x; refine (fun hx : Quiet q x => ?_) ?_; rotate_left; subst x; rotate_left; clear_value x)
    | (extract_lets +onlyGivenNames x) | apply State.drawn_quiet | apply State.putNat_quiet | apply State.setMo_quiet
    | apply showFree_quiet | apply motPinch_quiet | split)

theorem execForceEstimate_quiet {k : Nat} {current : Nat} {s : State} (hK : Quiet q s) : QuietA q (execForceEstimate k
    current s) := by
  unfold execForceEstimate
  with_reducible repeat' (first | assumption | apply forceEstimateEffect_quiet | apply QuietA.next | apply Quiet.when)

theorem pinchBrakeEndEffect_quiet {k : Nat} {s : State} (hK : Quiet q s) : Quiet q (pinchBrakeEndEffect k s) := by
  unfold pinchBrakeEndEffect
  with_reducible repeat' (first | assumption | apply State.setMo_quiet | apply motDrive_quiet)

theorem execPinchBrakeEnd_quiet {k : Nat} {s : State} (hK : Quiet q s) : QuietA q (execPinchBrakeEnd k s) := by
  unfold execPinchBrakeEnd
  with_reducible repeat' (first | assumption | apply pinchBrakeEndEffect_quiet | apply QuietA.next | apply Quiet.when)

theorem execPinchReversalEnd_quiet {k : Nat} {endStop : Bool} {s : State} (hK : Quiet q s) : QuietA q
    (execPinchReversalEnd k endStop s) := by
  unfold execPinchReversalEnd
  with_reducible repeat' (first
    | assumption | (intro x hx; guard_hyp hx : Quiet q x) | apply motStop_quiet | apply QuietA.next | apply Quiet.when)

theorem stallDetectEffect_quiet {k : Nat} {s : State} (hK : Quiet q s) : Quiet q (stallDetectEffect k s) := by
  unfold stallDetectEffect
  with_reducible repeat' (first
    | assumption | apply State.put_quiet | apply setPos_quiet | apply motStop_quiet | apply motCoincident_quiet
    | apply motPinch_quiet | apply Quiet.ite | split)

theorem stallSample_quiet {k : Nat} {current : Nat} {s : State} (hK : Quiet q s) : Quiet q (stallSample k current s) := by
  unfold stallSample
  with_reducible repeat' (first | assumption | apply State.setMo_quiet | apply stallDetectEffect_quiet | apply Quiet.ite)

theorem execStallDetect_quiet {k : Nat} {current : Nat} {s : State} (hK : Quiet q s) : QuietA q (execStallDetect k
    current s) := by
  unfold execStallDetect
  with_reducible repeat' (first | assumption | apply stallSample_quiet | apply QuietA.next | apply Quiet.when)

theorem execBrakeTimeEnd_quiet {k : Nat} {s : State} (hK : Quiet q s) : QuietA q (execBrakeTimeEnd k s) := by
  unfold execBrakeTimeEnd
  with_reducible repeat' (first
    | assumption | (intro x hx; guard_hyp hx : Quiet q x) | apply motRelease_quiet | apply motBegin_quiet
    | apply QuietA.next | apply Quiet.when | split)

theorem execGotoTargetReached_quiet {k : Nat} {s : State} (hK : Quiet q s) : QuietA q (execGotoTargetReached k s) := by
  unfold execGotoTargetReached
  with_reducible repeat' (first
    | assumption | (intro x hx; guard_hyp hx : Quiet q x) | apply motStop_quiet | apply motCoincident_quiet
    | apply QuietA.next | apply Quiet.when)

theorem moveServe_quiet {k : Nat} {s : State} (hK : Quiet q s) : Quiet q (moveServe k s) := by
  unfold moveServe
  with_reducible repeat' (first
    | assumption | (intro x hx; guard_hyp hx : Quiet q x) | apply motStop_quiet | apply Quiet.when)

theorem execMoveTimeout_quiet {k : Nat} {s : State} (hK : Quiet q s) : QuietA q (execMoveTimeout k s) := by
  unfold execMoveTimeout
  with_reducible repeat' (first | assumption | apply State.expire_quiet | apply moveServe_quiet | apply QuietA.next)

theorem wiperParkEdgeEffect_quiet {k : Nat} {s : State} (hK : Quiet q s) : Quiet q (wiperParkEdgeEffect k s) := by
  unfold wiperParkEdgeEffect
  with_reducible repeat' (first
    | assumption | (intro x hx; guard_hyp hx : Quiet q x) | apply State.put_quiet | apply State.drawn_quiet
    | apply raiseSrc_quiet | apply State.setMo_quiet | apply setPos_quiet | apply motStop_quiet | apply motCoincident_quiet
    | apply Quiet.ite | apply Quiet.when)

theorem parkEdgeServe_quiet {k : Nat} {s : State} (hK : Quiet q s) : Quiet q (parkEdgeServe k s) := by
  unfold parkEdgeServe
  with_reducible repeat' (first | assumption | apply wiperParkEdgeEffect_quiet | apply Quiet.when)

theorem execWiperParkEdge_quiet {k : Nat} {s : State} (hK : Quiet q s) : QuietA q (execWiperParkEdge k s) := by
  unfold execWiperParkEdge
  with_reducible repeat' (first
    | assumption | apply State.expire_quiet | apply State.on_quiet | apply parkEdgeServe_quiet | apply QuietA.next)

theorem wiperStart_quiet {s : State} {k : Nat} (hK : Quiet q s) : Quiet q (wiperStart s k) := by
  unfold wiperStart
  with_reducible repeat' (first
    | assumption | apply State.put_quiet | apply State.setMo_quiet | apply motMove_quiet | apply Quiet.ite)

theorem execWiperStartPulse_quiet {k : Nat} {s : State} (hK : Quiet q s) : QuietA q (execWiperStartPulse k s) := by
  unfold execWiperStartPulse
  with_reducible repeat' (first | assumption | apply State.on_quiet | apply wiperStart_quiet | apply QuietA.next)

theorem cycleServe_quiet {k : Nat} {s : State} (hK : Quiet q s) : Quiet q (cycleServe k s) := by
  unfold cycleServe
  with_reducible repeat' (first
    | assumption | (intro x hx; guard_hyp hx : Quiet q x) | apply motStop_quiet | apply Quiet.when)

theorem execWiperCycleTimeout_quiet {k : Nat} {s : State} (hK : Quiet q s) : QuietA q (execWiperCycleTimeout k s) := by
  unfold execWiperCycleTimeout
  with_reducible repeat' (first | assumption | apply State.expire_quiet | apply cycleServe_quiet | apply QuietA.next)

theorem stkWait_quiet {s : State} {k : Nat} (hK : Quiet q s) : Quiet q (stkWait s k) := by
  unfold stkWait
  with_reducible repeat' (first | assumption | apply State.put_quiet | apply State.setSk_quiet | apply setPhase_quiet)

theorem stkYield_quiet {s : State} {k : Nat} {j : Nat} (hK : Quiet q s) : Quiet q (stkYield s k j) := by
  unfold stkYield
  with_reducible repeat' (first
    | assumption | apply State.put_quiet | apply State.setSk_quiet | apply stkWait_quiet | split)

theorem stkFire_quiet {s : State} {k : Nat} (hK : Quiet q s) : Quiet q (stkFire s k) := by
  unfold stkFire
  with_reducible repeat' (first
    | assumption | (intro x a hx; guard_hyp hx : Quiet q x) | apply State.setSk_quiet | apply stkBoost_quiet
    | apply stkWait_quiet | apply stkYield_quiet | apply Quiet.ite | apply Quiet.each)

theorem stkFired_quiet {s : State} {k : Nat} (hK : Quiet q s) : Quiet q (stkFired s k) := by
  unfold stkFired
  with_reducible repeat' (first | assumption | apply State.setSk_quiet | apply stkFire_quiet | apply Quiet.ite)

theorem stkReclaimed_quiet {s : State} {k : Nat} (hK : Quiet q s) : Quiet q (stkReclaimed s k) := by
  unfold stkReclaimed
  with_reducible repeat' (first | assumption | apply State.setSk_quiet | apply stkFire_quiet | apply Quiet.ite)

theorem stkDuty_quiet {s : State} {k : Nat} (hK : Quiet q s) : Quiet q (stkDuty s k) := by
  unfold stkDuty
  with_reducible repeat' (first | assumption | apply State.put_quiet | apply stkQuench_quiet | apply Quiet.ite)

theorem stkRelease_quiet {s : State} {k : Nat} (hK : Quiet q s) : Quiet q (stkRelease s k) := by
  unfold stkRelease
  with_reducible repeat' (first
    | assumption
    | (extract_lets +onlyGivenNames x; refine (fun hx : Quiet q x => ?_) ?_; rotate_left; subst x; rotate_left; clear_value x)
    | apply State.setSk_quiet | apply stkQuench_quiet | apply stkStop_quiet | apply stkDuty_quiet | split)

theorem stkRuleFire_quiet {s : State} {k : Nat} (hK : Quiet q s) : Quiet q (stkRuleFire s k) := by
  unfold stkRuleFire
  with_reducible repeat' (first
    | assumption | (extract_lets +onlyGivenNames x; clear_value x) | apply State.satField_quiet | apply stkFired_quiet
    | split)

theorem stkRuleRelease_quiet {s : State} {k : Nat} (hK : Quiet q s) : Quiet q (stkRuleRelease s k) := by
  unfold stkRuleRelease
  with_reducible repeat' (first | assumption | apply stkRelease_quiet | apply Quiet.ite)

theorem execStkRuleFire_quiet {k : Nat} {s : State} (hK : Quiet q s) : QuietA q (execStkRuleFire k s) := by
  unfold execStkRuleFire
  with_reducible repeat' (first | assumption | apply State.on_quiet | apply stkRuleFire_quiet | apply QuietA.next)

theorem execStkRuleRelease_quiet {k : Nat} {s : State} (hK : Quiet q s) : QuietA q (execStkRuleRelease k s) := by
  unfold execStkRuleRelease
  with_reducible repeat' (first | assumption | apply State.on_quiet | apply stkRuleRelease_quiet | apply QuietA.next)

theorem stkWindowFault_quiet {s : State} {k : Nat} {b : Fld} (hK : Quiet q s) : Quiet q (stkWindowFault s k b) := by
  unfold stkWindowFault
  with_reducible repeat' (first | assumption | apply State.put_quiet | apply raiseSrc_quiet)

theorem stkPeak_quiet {s : State} {k : Nat} {arrived : Bool} (hK : Quiet q s) : Quiet q (stkPeak s k arrived) := by
  unfold stkPeak
  with_reducible repeat' (first | assumption | apply State.setSk_quiet | apply setPhase_quiet | apply stkSettle_quiet)

theorem peakArrivalEffect_quiet {k : Nat} {s : State} (hK : Quiet q s) : Quiet q (peakArrivalEffect k s) := by
  unfold peakArrivalEffect
  with_reducible repeat' (first
    | assumption | (intro x hx; guard_hyp hx : Quiet q x) | apply State.put_quiet | apply State.setSk_quiet
    | apply stkMirror_quiet | apply stkQuench_quiet | apply stkWindowFault_quiet | apply stkPeak_quiet | apply Quiet.ite
    | apply Quiet.when)

theorem execPeakArrival_quiet {k : Nat} {s : State} (hK : Quiet q s) : QuietA q (execPeakArrival k s) := by
  unfold execPeakArrival
  with_reducible repeat' (first
    | assumption | (intro x hx; guard_hyp hx : Quiet q x) | apply stkDuty_quiet | apply peakArrivalEffect_quiet
    | apply QuietA.next | apply Quiet.when)

theorem phaseServe_quiet {k : Nat} {ph : Nat} {act : State → State} {s : State} (hF_act : ∀ v0, Quiet q v0 → Quiet q
    (act v0)) (hK : Quiet q s) : Quiet q (phaseServe k ph act s) := by
  unfold phaseServe
  with_reducible repeat' (first
    | assumption | (intro x hx; guard_hyp hx : Quiet q x) | apply stkDuty_quiet | apply Quiet.when)

theorem boostServe_quiet {k : Nat} {s : State} (hK : Quiet q s) : Quiet q (boostServe k s) := by
  unfold boostServe
  with_reducible repeat' (first
    | assumption | (intro x hx; guard_hyp hx : Quiet q x) | apply State.put_quiet | apply stkPeak_quiet
    | apply phaseServe_quiet)

theorem execBoostTimeout_quiet {k : Nat} {s : State} (hK : Quiet q s) : QuietA q (execBoostTimeout k s) := by
  unfold execBoostTimeout
  with_reducible repeat' (first | assumption | apply State.expire_quiet | apply boostServe_quiet | apply QuietA.next)

theorem lateWindowFaultEffect_quiet {k : Nat} {s : State} (hK : Quiet q s) : Quiet q (lateWindowFaultEffect k s) := by
  unfold lateWindowFaultEffect
  with_reducible repeat' (first
    | assumption | apply State.setSk_quiet | apply stkMirror_quiet | apply stkQuench_quiet | apply stkWindowFault_quiet
    | apply Quiet.ite)

theorem execLateWindowFault_quiet {k : Nat} {s : State} (hK : Quiet q s) : QuietA q (execLateWindowFault k s) := by
  unfold execLateWindowFault
  with_reducible repeat' (first | assumption | apply lateWindowFaultEffect_quiet | apply QuietA.next | apply Quiet.when)

theorem stkPeakTimeEndEffect_quiet {k : Nat} {current : Nat} {s : State} (hK : Quiet q s) : Quiet q
    (stkPeakTimeEndEffect k current s) := by
  unfold stkPeakTimeEndEffect
  with_reducible repeat' (first
    | assumption | apply State.setSk_quiet | apply setPhase_quiet | apply stkSettle_quiet | apply Quiet.ite)

theorem peakServe_quiet {k : Nat} {current : Nat} {s : State} (hK : Quiet q s) : Quiet q (peakServe k current s) := by
  unfold peakServe
  with_reducible repeat' (first | assumption | apply phaseServe_quiet | apply stkPeakTimeEndEffect_quiet)

theorem execStkPeakTimeEnd_quiet {k : Nat} {current : Nat} {s : State} (hK : Quiet q s) : QuietA q (execStkPeakTimeEnd
    k current s) := by
  unfold execStkPeakTimeEnd
  with_reducible repeat' (first | assumption | apply State.expire_quiet | apply peakServe_quiet | apply QuietA.next)

theorem holdTimeServe_quiet {k : Nat} {s : State} (hK : Quiet q s) : Quiet q (holdTimeServe k s) := by
  unfold holdTimeServe
  with_reducible repeat' (first
    | assumption | (intro x hx; guard_hyp hx : Quiet q x) | apply stkQuench_quiet | apply phaseServe_quiet)

theorem execStkHoldTimeEnd_quiet {k : Nat} {s : State} (hK : Quiet q s) : QuietA q (execStkHoldTimeEnd k s) := by
  unfold execStkHoldTimeEnd
  with_reducible repeat' (first | assumption | apply State.expire_quiet | apply holdTimeServe_quiet | apply QuietA.next)

theorem quenchServe_quiet {k : Nat} {s : State} (hK : Quiet q s) : Quiet q (quenchServe k s) := by
  unfold quenchServe
  with_reducible repeat' (first
    | assumption | (intro x hx; guard_hyp hx : Quiet q x) | apply State.put_quiet | apply raiseSrc_quiet
    | apply State.setSk_quiet | apply setPhase_quiet | apply phaseServe_quiet)

theorem execQuenchEnd_quiet {k : Nat} {s : State} (hK : Quiet q s) : QuietA q (execQuenchEnd k s) := by
  unfold execQuenchEnd
  with_reducible repeat' (first | assumption | apply State.expire_quiet | apply quenchServe_quiet | apply QuietA.next)

theorem stkChop_quiet {s : State} {k : Nat} (hK : Quiet q s) : Quiet q (stkChop s k) := by
  unfold stkChop
  with_reducible repeat' (first | assumption | apply State.setSk_quiet | apply stkApply_quiet)

theorem chopCurrentReachedEffect_quiet {k : Nat} {s : State} (hK : Quiet q s) : Quiet q (chopCurrentReachedEffect k s) := by
  unfold chopCurrentReachedEffect
  with_reducible repeat' (first | assumption | apply State.setSk_quiet | apply stkChop_quiet | apply Quiet.ite)

theorem execChopCurrentReached_quiet {k : Nat} {s : State} (hK : Quiet q s) : QuietA q (execChopCurrentReached k s) := by
  unfold execChopCurrentReached
  with_reducible repeat' (first | assumption | apply chopCurrentReachedEffect_quiet | apply QuietA.next | apply Quiet.when)

theorem execChopOffTimeEnd_quiet {k : Nat} {s : State} (hK : Quiet q s) : QuietA q (execChopOffTimeEnd k s) := by
  unfold execChopOffTimeEnd
  with_reducible repeat' (first
    | assumption | (intro x hx; guard_hyp hx : Quiet q x) | apply State.setSk_quiet | apply stkApply_quiet
    | apply QuietA.next | apply Quiet.when)

theorem execDutyLimitReached_quiet {k : Nat} {s : State} (hK : Quiet q s) : QuietA q (execDutyLimitReached k s) := by
  unfold execDutyLimitReached
  with_reducible repeat' (first
    | assumption | (intro x hx; guard_hyp hx : Quiet q x) | apply stkDuty_quiet | apply QuietA.next | apply Quiet.when)

theorem dutySegmentRollEffect_quiet {k : Nat} {s : State} (hK : Quiet q s) : Quiet q (dutySegmentRollEffect k s) := by
  unfold dutySegmentRollEffect
  with_reducible repeat' (first | assumption | apply State.setSk_quiet | apply showAct_quiet)

theorem execDutySegmentRoll_quiet {k : Nat} {s : State} (hK : Quiet q s) : QuietA q (execDutySegmentRoll k s) := by
  unfold execDutySegmentRoll
  with_reducible repeat' (first | assumption | apply dutySegmentRollEffect_quiet | apply QuietA.next | apply Quiet.when)

theorem pscWritten_quiet {f : Nat} {o : Nat} {s : State} {old : Word} {w : Word} (hK : Quiet q s) : Quiet q
    (pscWritten f o s old w) := by
  unfold pscWritten
  with_reducible repeat' (first
    | assumption | apply State.put_quiet | apply State.setCh_quiet | apply restartTests_quiet | apply refreshFlt_quiet
    | apply mirrorPair_quiet | apply modeWritten_quiet | apply unlock_quiet | apply Quiet.ite)

theorem pscWrite_quiet {r : WriteReq} {s : State} (hK : Quiet q s) : Quiet q (pscWrite r s) := by
  unfold pscWrite
  with_reducible repeat' (first
    | assumption | apply blockWrite_quiet | apply noHook_quiet | apply noRej_quiet | apply pscWritten_quiet
    | apply Quiet.ite)

theorem beatRefresh_quiet {s : State} (hK : Quiet q s) : Quiet q (beatRefresh s) := by
  unfold beatRefresh
  with_reducible repeat' (first
    | assumption | (intro x hx; guard_hyp hx : Quiet q x) | apply State.put_quiet | apply beatStart_quiet
    | apply Quiet.when)

theorem psgWritten_quiet {src : Src} {o : Nat} {s : State} {old : Word} {w : Word} (hK : Quiet q s) : Quiet q
    (psgWritten src o s old w) := by
  unfold psgWritten
  with_reducible repeat' (first
    | assumption | apply State.put_quiet | apply beatStart_quiet | apply reclaim_quiet | apply motReclaimed_quiet
    | apply stkReclaimed_quiet | apply beatRefresh_quiet | apply Quiet.ite | apply Quiet.each)

theorem psgWrite_quiet {r : WriteReq} {s : State} (hK : Quiet q s) : Quiet q (psgWrite r s) := by
  unfold psgWrite
  with_reducible repeat' (first | assumption | apply blockWrite_quiet | apply noRej_quiet | apply psgWritten_quiet)

theorem motWritten_quiet {k : Nat} {o : Nat} {s : State} {old : Word} {w : Word} (hK : Quiet q s) : Quiet q
    (motWritten k o s old w) := by
  unfold motWritten
  with_reducible repeat' (first
    | assumption | apply setPos_quiet | apply motCommanded_quiet | apply motDisabled_quiet | apply Quiet.ite)

theorem motWrite_quiet {r : WriteReq} {s : State} (hK : Quiet q s) : Quiet q (motWrite r s) := by
  unfold motWrite
  with_reducible repeat' (first
    | assumption | apply blockWrite_quiet | apply noHook_quiet | apply noRej_quiet | apply motWritten_quiet
    | apply Quiet.ite)

theorem stkWritten_quiet {k : Nat} {o : Nat} {s : State} {old : Word} {w : Word} (hK : Quiet q s) : Quiet q
    (stkWritten k o s old w) := by
  unfold stkWritten
  with_reducible repeat' (first
    | assumption | apply State.put_quiet | apply State.setSk_quiet | apply stkMirror_quiet | apply stkStop_quiet
    | apply stkFired_quiet | apply stkRelease_quiet | apply Quiet.ite)

theorem stkWrite_quiet {r : WriteReq} {s : State} (hK : Quiet q s) : Quiet q (stkWrite r s) := by
  unfold stkWrite
  with_reducible repeat' (first
    | assumption | apply blockWrite_quiet | apply noHook_quiet | apply noRej_quiet | apply stkWritten_quiet
    | apply Quiet.ite)

theorem State.setIp_quiet {s : State} {n : Nat} {g : Inp → Inp} (hK : Quiet q s) : Quiet q (State.setIp s n g) := by
  unfold State.setIp
  with_reducible repeat' (first | assumption | apply Quiet.upd)

theorem plainSample_quiet {s : State} {n : Nat} {v : Int} (hK : Quiet q s) : Quiet q (plainSample s n v).2 := by
  unfold plainSample
  with_reducible repeat' (first
    | assumption | (extract_lets +onlyGivenNames x; clear_value x) | apply State.drawn_quiet | split)

theorem sampleOf_quiet {s : State} {n : Nat} {kl30 : Int} {v : Int} (hK : Quiet q s) : Quiet q (sampleOf s n kl30 v).2 := by
  unfold sampleOf
  with_reducible repeat' (first | assumption | apply plainSample_quiet | split)

theorem showInp_quiet {s : State} {n : Nat} (hK : Quiet q s) : Quiet q (showInp s n) := by
  unfold showInp
  with_reducible repeat' (first | assumption | apply Quiet.wr | apply State.setBit_quiet)

theorem comparatorCrossingEffect_quiet {n : Nat} {volt : Int} {s : State} (hK : Quiet q s) : Quiet q
    (comparatorCrossingEffect n volt s) := by
  unfold comparatorCrossingEffect
  with_reducible repeat' (first | assumption | apply State.put_quiet | apply raiseLevel_quiet | apply Quiet.ite)

theorem execComparatorCrossing_quiet {n : Nat} {volt : Int} {s : State} (hK : Quiet q s) : QuietA q
    (execComparatorCrossing n volt s) := by
  unfold execComparatorCrossing
  with_reducible repeat' (first
    | assumption | apply State.on_quiet | apply comparatorCrossingEffect_quiet | apply QuietA.next | apply Quiet.when)

theorem adStart_quiet {s : State} (hK : Quiet q s) : Quiet q (adStart s) := by
  unfold adStart
  with_reducible repeat' (first | assumption | apply State.put_quiet | apply Quiet.upd)

theorem adDue_quiet {s : State} (hK : Quiet q s) : Quiet q (adDue s) := by
  unfold adDue
  with_reducible repeat' (first
    | assumption | apply State.put_quiet | apply adStart_quiet | apply Quiet.ite | apply Quiet.upd)

theorem adEnable_quiet {s : State} (hK : Quiet q s) : Quiet q (adEnable s) := by
  unfold adEnable
  with_reducible repeat' (first | assumption | apply adDue_quiet | apply Quiet.ite | apply Quiet.upd)

theorem adDisable_quiet {s : State} (hK : Quiet q s) : Quiet q (adDisable s) := by
  unfold adDisable
  with_reducible repeat' (first | assumption | apply State.put_quiet | apply Quiet.upd)

theorem execAdcScanPeriod_quiet {s : State} (hK : Quiet q s) : QuietA q (execAdcScanPeriod s) := by
  unfold execAdcScanPeriod
  with_reducible repeat' (first
    | assumption | (intro x hx; guard_hyp hx : Quiet q x) | apply State.on_quiet | apply adDue_quiet | apply QuietA.next
    | apply Quiet.when | apply Quiet.upd)

theorem adPulse_quiet {s : State} (hK : Quiet q s) : Quiet q (adPulse s) := by
  unfold adPulse
  with_reducible repeat' (first | assumption | apply State.put_quiet | apply adStart_quiet | split | apply Quiet.upd)

theorem execAdcRuleStart_quiet {s : State} (hK : Quiet q s) : QuietA q (execAdcRuleStart s) := by
  unfold execAdcRuleStart
  with_reducible repeat' (first
    | assumption | apply State.on_quiet | apply adPulse_quiet | apply QuietA.next | apply QuietA.go)

theorem execAdcConversionDone_quiet {volt : Int} {s : State} (hK : Quiet q s) : QuietA q (execAdcConversionDone volt
    s) := by
  unfold execAdcConversionDone
  with_reducible repeat' (first
    | assumption | apply State.put_quiet | apply State.drawn_quiet | apply State.on_quiet | apply QuietA.next | split
    | apply Quiet.upd)

theorem execAdcScanDone_quiet {s : State} (hK : Quiet q s) : QuietA q (execAdcScanDone s) := by
  unfold execAdcScanDone
  with_reducible repeat' (first
    | assumption | (intro x hx; guard_hyp hx : Quiet q x) | apply State.put_quiet | apply State.incField_quiet
    | apply State.on_quiet | apply raiseSrc_quiet | apply adStart_quiet | apply QuietA.next | apply Quiet.when
    | apply Quiet.upd)

theorem adRead_quiet {s : State} {n : Nat} (hK : Quiet q s) : Quiet q (adRead s n) := by
  unfold adRead
  with_reducible repeat' (first | assumption | apply State.put_quiet)

theorem inpOnWritten_quiet {s : State} {n : Nat} {old : Bool} {new : Bool} (hK : Quiet q s) : Quiet q (inpOnWritten s
    n old new) := by
  unfold inpOnWritten
  with_reducible repeat' (first | assumption | apply State.setIp_quiet | apply showInp_quiet | apply Quiet.ite)

theorem inpEdgeWritten_quiet {s : State} (hK : Quiet q s) : Quiet q (inpEdgeWritten s) := by
  unfold inpEdgeWritten
  with_reducible repeat' (first
    | assumption | (intro x a hx; guard_hyp hx : Quiet q x) | apply State.setIp_quiet | apply Quiet.each)

theorem inpPark_quiet {s : State} (hK : Quiet q s) : Quiet q (inpPark s) := by
  unfold inpPark
  with_reducible repeat' (first
    | assumption | apply Quiet.wr | apply State.drawn_quiet | apply adDisable_quiet | apply Quiet.upd)

theorem parkTake_quiet {s : State} {n : Nat} {v : Nat} (hK : Quiet q s) : Quiet q (parkTake s n v).1 := by
  unfold parkTake
  with_reducible repeat' (first
    | assumption
    | (extract_lets +onlyGivenNames x; refine (fun hx : Quiet q x => ?_) ?_; rotate_left; subst x; rotate_left; clear_value x)
    | (extract_lets +onlyGivenNames x; clear_value x) | apply State.setBit_quiet | apply State.setIp_quiet | split)

theorem parkCmp_quiet {s : State} {n : Nat} {v : Int} (hK : Quiet q s) : Quiet q (parkCmp s n v).1 := by
  unfold parkCmp
  with_reducible repeat' (first
    | assumption
    | (extract_lets +onlyGivenNames x; refine (fun hx : Quiet q x => ?_) ?_; rotate_left; subst x; rotate_left; clear_value x)
    | (extract_lets +onlyGivenNames x; clear_value x) | apply State.setBit_quiet | split | apply Quiet.upd)

theorem parkSample_quiet {s : State} {kl30 : Int} {pins ans : List (Nat × Int)} (hK : Quiet q s) : Quiet q (parkSample s kl30 pins ans).1 := by
  unfold parkSample
  extract_lets g mine r r2 last
  have h : Quiet q r2.1 := Quiet.foldl1 (Quiet.foldl1 hK fun _ _ h => parkTake_quiet (sampleOf_quiet h)) fun _ _ h => parkCmp_quiet h
  clear_value r2
  exact Quiet.upd h

theorem setAcc_quiet {s : State} {g : AccSt → AccSt} (hK : Quiet q s) : Quiet q (setAcc s g) := by
  unfold setAcc
  with_reducible repeat' (first | assumption | apply Quiet.upd)

theorem accIrq_quiet {s : State} {i : Nat} (hK : Quiet q s) : Quiet q (accIrq s i) := by
  unfold accIrq
  with_reducible repeat' (first | assumption | apply State.raise_quiet)

theorem unitWrite_quiet {s : State} {r : WriteReq} {f : WriteReq → State → State} (hK : Quiet q s)
    (hf : ∀ r s, Quiet q s → Quiet q (f r s)) : Quiet q (unitWrite s r f).1 := by
  have h0 : Quiet q (s.clearRej 4) := State.clearRej_quiet hK
  have h1 : Quiet q (if s.ready r.blk.island then f r (s.clearRej 4)
      else (s.clearRej 4).fabReject r.src 0x06 (r.blk.base + r.off)) :=
    Quiet.ite (hf _ _ h0) (State.fabReject_quiet h0)
  exact Quiet.ite (State.setRej_quiet h1) (State.clearRej_quiet h1)

theorem lockWrite_quiet {s : State} {r : WriteReq} {f : WriteReq → State → State} (hK : Quiet q s)
    (hf : ∀ r s, Quiet q s → Quiet q (f r s)) : Quiet q (lockWrite s r f) :=
  Quiet.ite (accIrq_quiet (State.put_quiet (unitWrite_quiet hK hf))) (unitWrite_quiet hK hf)

theorem lockAct_quiet {s : State} {unlock : Bool} (hK : Quiet q s) : Quiet q (lockAct s unlock) := by
  unfold lockAct
  with_reducible repeat' (first
    | assumption | (intro x a hx; guard_hyp hx : Quiet q x) | apply motWrite_quiet | apply stkWrite_quiet
    | apply lockWrite_quiet | apply Quiet.each)

theorem grantWithdraw_quiet {s : State} (hK : Quiet q s) : Quiet q (grantWithdraw s) := by
  unfold grantWithdraw
  with_reducible repeat' (first | assumption | apply State.put_quiet | apply setAcc_quiet | apply Quiet.ite)

theorem sessTo_quiet {s : State} {st : Nat} (hK : Quiet q s) : Quiet q (sessTo s st) := by
  unfold sessTo
  with_reducible repeat' (first | assumption | apply State.put_quiet | apply accIrq_quiet | apply Quiet.ite)

theorem sessEnd_quiet {s : State} {outcome : Nat} (hK : Quiet q s) : Quiet q (sessEnd s outcome) := by
  unfold sessEnd
  with_reducible repeat' (first
    | assumption | apply State.put_quiet | apply setAcc_quiet | apply grantWithdraw_quiet | apply sessTo_quiet)

theorem sessIgnition_quiet {s : State} (hK : Quiet q s) : Quiet q (sessIgnition s) := by
  unfold sessIgnition
  with_reducible repeat' (first
    | assumption | (intro x hx; guard_hyp hx : Quiet q x) | apply State.put_quiet | apply setAcc_quiet | apply sessTo_quiet
    | apply sessEnd_quiet | apply Quiet.when | split)

theorem sessLock_quiet {s : State} (hK : Quiet q s) : Quiet q (sessLock s) := by
  unfold sessLock
  with_reducible repeat' (first
    | assumption
    | (extract_lets +onlyGivenNames x; refine (fun hx : Quiet q x => ?_) ?_; rotate_left; subst x; rotate_left; clear_value x)
    | apply lockAct_quiet | apply sessEnd_quiet | split)

theorem sessionServe_quiet {s : State} (hK : Quiet q s) : Quiet q (sessionServe s) := by
  unfold sessionServe
  with_reducible repeat' (first
    | assumption | (intro x hx; guard_hyp hx : Quiet q x) | apply lockAct_quiet | apply sessEnd_quiet | apply Quiet.when)

theorem execSessionTimeout_quiet {s : State} (hK : Quiet q s) : QuietA q (execSessionTimeout s) := by
  unfold execSessionTimeout
  with_reducible repeat' (first
    | assumption | apply State.expire_quiet | apply State.on_quiet | apply sessionServe_quiet | apply QuietA.next)

theorem graceServe_quiet {s : State} (hK : Quiet q s) : Quiet q (graceServe s) := by
  unfold graceServe
  with_reducible repeat' (first
    | assumption | (intro x hx; guard_hyp hx : Quiet q x) | apply sessEnd_quiet | apply Quiet.when)

theorem execGraceTimeout_quiet {s : State} (hK : Quiet q s) : QuietA q (execGraceTimeout s) := by
  unfold execGraceTimeout
  with_reducible repeat' (first
    | assumption | apply State.expire_quiet | apply State.on_quiet | apply graceServe_quiet | apply QuietA.next)

theorem accStop_quiet {s : State} (hK : Quiet q s) : Quiet q (accStop s) := by
  unfold accStop
  with_reducible repeat' (first | assumption | apply setAcc_quiet)

theorem accDisable_quiet {s : State} (hK : Quiet q s) : Quiet q (accDisable s) := by
  unfold accDisable
  with_reducible repeat' (first
    | assumption | apply State.put_quiet | apply setAcc_quiet | apply sessEnd_quiet | apply accStop_quiet | apply Quiet.ite)

theorem showSet_quiet {s : State} {t : TokSet} {ctrs : List Nat} (hK : Quiet q s) : Quiet q (showSet s t ctrs) := by
  unfold showSet
  with_reducible repeat' (first
    | assumption | (intro x a hx; guard_hyp hx : Quiet q x) | apply State.put_quiet | apply Quiet.each)

theorem startRead_quiet {s : State} {ch : Nat} (hK : Quiet q s) : Quiet q (startRead s ch) := by
  unfold startRead
  with_reducible repeat' (first | assumption | apply setAcc_quiet)

theorem accLoadingDoneEffect_quiet {s : State} (hK : Quiet q s) : Quiet q (accLoadingDoneEffect s) := by
  unfold accLoadingDoneEffect
  with_reducible repeat' (first
    | assumption | apply State.put_quiet | apply setAcc_quiet | apply showSet_quiet | apply startRead_quiet
    | apply Quiet.each | split)

theorem execAccLoadingDone_quiet {s : State} (hK : Quiet q s) : QuietA q (execAccLoadingDone s) := by
  unfold execAccLoadingDone
  with_reducible repeat' (first
    | assumption | apply State.on_quiet | apply accLoadingDoneEffect_quiet | apply QuietA.next | apply Quiet.when)

theorem execAttentionAssert_quiet {ch : Fin 2} {s : State} (hK : Quiet q s) : QuietA q (execAttentionAssert ch s) := by
  unfold execAttentionAssert
  with_reducible repeat' (first
    | assumption | (intro x hx; guard_hyp hx : Quiet q x) | apply State.put_quiet | apply wakeDetect_quiet
    | apply startRead_quiet | apply QuietA.next | apply Quiet.when)

theorem accLog_quiet {s : State} {c : Code} {result : Nat} {coin : Bool} (hK : Quiet q s) : Quiet q (accLog s c result
    coin) := by
  unfold accLog
  with_reducible repeat' (first | assumption | apply Quiet.wr | apply State.put_quiet)

theorem joinFrame_quiet {s : State} {c : Code} (hK : Quiet q s) : Quiet q (joinFrame s c) := by
  unfold joinFrame
  with_reducible repeat' (first | assumption | apply setAcc_quiet)

theorem tokenReadEndEffect_quiet {ch : Nat} {octets : List Nat} {asserted : Bool} {s : State} (hK : Quiet q s) : Quiet
    q (tokenReadEndEffect ch octets asserted s) := by
  unfold tokenReadEndEffect
  with_reducible repeat' (first
    | assumption
    | (extract_lets +onlyGivenNames x; refine (fun hx : Quiet q x => ?_) ?_; rotate_left; subst x; rotate_left; clear_value x)
    | (extract_lets +onlyGivenNames x; clear_value x) | apply State.put_quiet | apply setAcc_quiet | apply accLog_quiet
    | apply joinFrame_quiet | split)

theorem execTokenReadEnd_quiet {ch : Fin 2} {octets : List Nat} {asserted : Bool} {s : State} (hK : Quiet q s) :
    QuietA q (execTokenReadEnd ch octets asserted s) := by
  unfold execTokenReadEnd
  with_reducible repeat' (first
    | assumption | apply State.on_quiet | apply tokenReadEndEffect_quiet | apply QuietA.next | apply Quiet.when)

theorem execTokenReadRepeat_quiet {ch : Fin 2} {s : State} (hK : Quiet q s) : QuietA q (execTokenReadRepeat ch s) := by
  unfold execTokenReadRepeat
  with_reducible repeat' (first
    | assumption | (intro x hx; guard_hyp hx : Quiet q x) | apply State.on_quiet | apply startRead_quiet
    | apply QuietA.next | apply Quiet.when)

theorem releaseHeld_quiet {s : State} {ch : Nat} (hK : Quiet q s) : Quiet q (releaseHeld s ch) := by
  unfold releaseHeld
  with_reducible repeat' (first | assumption | apply State.put_quiet | apply setAcc_quiet | apply joinFrame_quiet | split)

theorem backoffServe_quiet {ch : Nat} {s : State} (hK : Quiet q s) : Quiet q (backoffServe ch s) := by
  unfold backoffServe
  with_reducible repeat' (first
    | assumption | (intro x hx; guard_hyp hx : Quiet q x) | apply setAcc_quiet | apply releaseHeld_quiet | apply Quiet.when)

theorem execAccBackoffEnd_quiet {ch : Fin 2} {s : State} (hK : Quiet q s) : QuietA q (execAccBackoffEnd ch s) := by
  unfold execAccBackoffEnd
  with_reducible repeat' (first
    | assumption | apply State.expire_quiet | apply State.on_quiet | apply backoffServe_quiet | apply QuietA.next)

theorem codeInvalid_quiet {s : State} {ch : Nat} (hK : Quiet q s) : Quiet q (codeInvalid s ch) := by
  unfold codeInvalid
  with_reducible repeat' (first
    | assumption | apply State.put_quiet | apply setAcc_quiet | apply accIrq_quiet | apply Quiet.ite)

theorem codeValid_quiet {s : State} {ch : Nat} (hK : Quiet q s) : Quiet q (codeValid s ch) := by
  unfold codeValid
  with_reducible repeat' (first | assumption | apply State.put_quiet | apply setAcc_quiet | apply releaseHeld_quiet)

theorem codeAccept_quiet {s : State} {c : Code} (hK : Quiet q s) : Quiet q (codeAccept s c) := by
  unfold codeAccept
  with_reducible repeat' (first | assumption | apply State.put_quiet | apply setAcc_quiet | apply codeValid_quiet)

theorem codeCandidate_quiet {s : State} {c : Code} (hK : Quiet q s) : Quiet q (codeCandidate s c) := by
  unfold codeCandidate
  with_reducible repeat' (first | assumption | apply setAcc_quiet)

theorem counterAct_quiet {s : State} {c : Code} {result : Option Nat} (hK : Quiet q s) : Quiet q (counterAct s c
    result) := by
  unfold counterAct
  with_reducible repeat' (first
    | assumption | apply codeInvalid_quiet | apply codeAccept_quiet | apply codeCandidate_quiet | split)

theorem codeResult_quiet {s : State} {c : Code} (hK : Quiet q s) : Quiet q (codeResult s c).1 := by
  unfold codeResult
  generalize codeCheck s c = k
  cases k with
  | some r => exact Quiet.ite hK (codeInvalid_quiet hK)
  | none => exact counterAct_quiet hK

theorem checkCodes_quiet {s : State} {l : List Code} (hK : Quiet q s) : Quiet q (checkCodes s l).1 := by
  induction l generalizing s with
  | nil => exact hK
  | cons c t ih => exact ih (codeResult_quiet hK)

theorem evalFrameEndEffect_quiet {s : State} (hK : Quiet q s) : Quiet q (evalFrameEndEffect s) := by
  unfold evalFrameEndEffect
  extract_lets stop codes s1 r win s2
  have h2 : Quiet q s2 := Quiet.each (checkCodes_quiet (setAcc_quiet hK)) fun _ _ h => accLog_quiet h
  clear_value s2 win r
  cases win with
  | none => exact h2
  | some i =>
    dsimp only
    cases r.2[i]? with
    | none => exact h2
    | some p => exact setAcc_quiet h2

theorem frameServe_quiet {s : State} (hK : Quiet q s) : Quiet q (frameServe s) := by
  unfold frameServe
  with_reducible repeat' (first | assumption | apply evalFrameEndEffect_quiet | apply Quiet.when)

theorem execEvalFrameEnd_quiet {s : State} (hK : Quiet q s) : QuietA q (execEvalFrameEnd s) := by
  unfold execEvalFrameEnd
  with_reducible repeat' (first
    | assumption | apply State.expire_quiet | apply State.on_quiet | apply frameServe_quiet | apply QuietA.next)

theorem accImport_quiet {s : State} (hK : Quiet q s) : Quiet q (accImport s) := by
  unfold accImport
  with_reducible repeat' (first | assumption | apply State.put_quiet | apply setAcc_quiet | apply accIrq_quiet)

theorem accLearn_quiet {s : State} (hK : Quiet q s) : Quiet q (accLearn s) := by
  unfold accLearn
  with_reducible repeat' (first | assumption | apply State.put_quiet | apply setAcc_quiet | apply accIrq_quiet | split)

theorem execAccLearnDone_quiet {s : State} (hK : Quiet q s) : QuietA q (execAccLearnDone s) := by
  unfold execAccLearnDone
  with_reducible repeat' (first
    | assumption | apply State.put_quiet | apply State.on_quiet | apply setAcc_quiet | apply accIrq_quiet
    | apply showSet_quiet | apply QuietA.next | split)

theorem accWritten_quiet {o : Nat} {s : State} {old : Word} {w : Word} (hK : Quiet q s) : Quiet q (accWritten o s old
    w) := by
  unfold accWritten
  with_reducible repeat' (first
    | assumption | apply State.put_quiet | apply setAcc_quiet | apply accDisable_quiet | apply accImport_quiet
    | apply accLearn_quiet | split)

theorem accWrite_quiet {r : WriteReq} {s : State} (hK : Quiet q s) : Quiet q (accWrite r s) := by
  unfold accWrite
  with_reducible repeat' (first | assumption | apply blockWrite_quiet | apply noRej_quiet | apply accWritten_quiet)

theorem State.setTm_quiet {s : State} {n : Nat} {g : Tmr → Tmr} (hK : Quiet q s) : Quiet q (State.setTm s n g) := by
  unfold State.setTm
  with_reducible repeat' (first | assumption | apply Quiet.upd)

theorem tmrOut_quiet {s : State} {n : Nat} {v : Bool} (hK : Quiet q s) : Quiet q (tmrOut s n v) := by
  unfold tmrOut
  with_reducible repeat' (first | assumption | apply State.put_quiet | apply raiseLevel_quiet | apply Quiet.ite)

theorem tmrIdleOut_quiet {s : State} {n : Nat} (hK : Quiet q s) : Quiet q (tmrIdleOut s n) := by
  unfold tmrIdleOut
  with_reducible repeat' (first | assumption | apply tmrOut_quiet | apply Quiet.ite)

theorem tmrSetRun_quiet {s : State} {n : Nat} {b : Bool} (hK : Quiet q s) : Quiet q (tmrSetRun s n b) := by
  unfold tmrSetRun
  with_reducible repeat' (first | assumption | apply State.put_quiet | apply State.setBit_quiet)

theorem tmrStart1_quiet {s : State} {n : Nat} (hK : Quiet q s) : Quiet q (tmrStart1 s n) := by
  unfold tmrStart1
  with_reducible repeat' (first
    | assumption | apply State.put_quiet | apply State.setTm_quiet | apply tmrOut_quiet | apply tmrSetRun_quiet
    | apply Quiet.ite)

theorem tmrStop1_quiet {s : State} {n : Nat} (hK : Quiet q s) : Quiet q (tmrStop1 s n) := by
  unfold tmrStop1
  with_reducible repeat' (first | assumption | apply tmrIdleOut_quiet | apply tmrSetRun_quiet)

theorem tmrPair_quiet {f : State → Nat → State} {s : State} {n : Nat} (hF_f : ∀ v0 v1, Quiet q v0 → Quiet q (f v0 v1))
    (hK : Quiet q s) : Quiet q (tmrPair f s n) := by
  unfold tmrPair
  with_reducible repeat' (first | assumption | apply hF_f | apply Quiet.ite)

theorem tmrStart_quiet {s : State} {n : Nat} (hK : Quiet q s) : Quiet q (tmrStart s n) := by
  unfold tmrStart
  with_reducible repeat' (first | assumption | apply tmrStart1_quiet | apply tmrPair_quiet)

theorem tmrStop_quiet {s : State} {n : Nat} (hK : Quiet q s) : Quiet q (tmrStop s n) := by
  unfold tmrStop
  with_reducible repeat' (first | assumption | apply tmrStop1_quiet | apply tmrPair_quiet)

theorem tmrWrote_quiet {s : State} {n : Nat} {en : Bool} (hK : Quiet q s) : Quiet q (tmrWrote s n en) := by
  unfold tmrWrote
  with_reducible repeat' (first | assumption | apply State.setTm_quiet)

theorem tmrZero_quiet {s : State} {n : Nat} (hK : Quiet q s) : Quiet q (tmrZero s n) := by
  unfold tmrZero
  with_reducible repeat' (first | assumption | apply State.put_quiet | apply State.setTm_quiet)

theorem tmrEdge1_quiet {s : State} {n : Nat} (hK : Quiet q s) : Quiet q (tmrEdge1 s n) := by
  unfold tmrEdge1
  with_reducible repeat' (first
    | assumption
    | (extract_lets +onlyGivenNames x; refine (fun hx : Quiet q x => ?_) ?_; rotate_left; subst x; rotate_left; clear_value x)
    | (extract_lets +onlyGivenNames x; clear_value x) | apply State.put_quiet | apply raiseSrc_quiet
    | apply State.setTm_quiet | apply tmrOut_quiet | apply tmrIdleOut_quiet | apply tmrSetRun_quiet | split)

theorem tmrPulseEnd_quiet {s : State} {n : Nat} (hK : Quiet q s) : Quiet q (tmrPulseEnd s n) := by
  unfold tmrPulseEnd
  with_reducible repeat' (first | assumption | apply tmrOut_quiet | apply Quiet.ite)

theorem tmrEdge_quiet {s : State} {n : Nat} (hK : Quiet q s) : Quiet q (tmrEdge s n) := by
  unfold tmrEdge
  with_reducible repeat' (first | assumption | apply tmrEdge1_quiet | apply tmrPulseEnd_quiet | apply Quiet.ite)

theorem tmrCapture_quiet {s : State} {n : Nat} (hK : Quiet q s) : Quiet q (tmrCapture s n) := by
  unfold tmrCapture
  with_reducible repeat' (first
    | assumption | apply State.put_quiet | apply State.satField_quiet | apply State.setTm_quiet | apply Quiet.ite)

theorem tmrTimeout_quiet {s : State} {n : Nat} (hK : Quiet q s) : Quiet q (tmrTimeout s n) := by
  unfold tmrTimeout
  with_reducible repeat' (first
    | assumption | apply State.put_quiet | apply raiseSrc_quiet | apply State.setTm_quiet | apply Quiet.ite)

theorem tmrCapRead_quiet {s : State} {src : Src} {n : Nat} (hK : Quiet q s) : Quiet q (tmrCapRead s src n) := by
  unfold tmrCapRead
  with_reducible repeat' (first
    | assumption
    | (extract_lets +onlyGivenNames x; refine (fun hx : Quiet q x => ?_) ?_; rotate_left; subst x; rotate_left; clear_value x)
    | apply Quiet.wr | apply State.put_quiet | apply State.setTm_quiet | split)

theorem tmrSnapshot_quiet {s : State} {n : Nat} (hK : Quiet q s) : Quiet q (tmrSnapshot s n) := by
  unfold tmrSnapshot
  with_reducible repeat' (first | assumption | apply Quiet.wr | apply Quiet.ite)

theorem tmrRuled_quiet {s : State} {n : Nat} {start : Bool} (hK : Quiet q s) : Quiet q (tmrRuled s n start) := by
  unfold tmrRuled
  with_reducible repeat' (first
    | assumption | apply State.setTm_quiet | apply tmrPair_quiet | apply tmrStart_quiet | apply tmrStop_quiet
    | apply tmrZero_quiet | apply Quiet.ite)

theorem execTimerRuleStart_quiet {n : Nat} {s : State} (hK : Quiet q s) : QuietA q (execTimerRuleStart n s) := by
  unfold execTimerRuleStart
  with_reducible repeat' (first | assumption | apply State.on_quiet | apply tmrRuled_quiet | apply QuietA.next)

theorem execTimerRuleStop_quiet {n : Nat} {s : State} (hK : Quiet q s) : QuietA q (execTimerRuleStop n s) := by
  unfold execTimerRuleStop
  with_reducible repeat' (first | assumption | apply State.on_quiet | apply tmrRuled_quiet | apply QuietA.next)

theorem tmrCapMark_quiet {s : State} {n : Nat} (hK : Quiet q s) : Quiet q (tmrCapMark s n) := by
  unfold tmrCapMark
  with_reducible repeat' (first | assumption | apply State.setTm_quiet)

theorem execTimerCaptureRule_quiet {n : Nat} {s : State} (hK : Quiet q s) : QuietA q (execTimerCaptureRule n s) := by
  unfold execTimerCaptureRule
  with_reducible repeat' (first
    | assumption | (intro x hx; guard_hyp hx : Quiet q x) | apply State.on_quiet | apply tmrCapMark_quiet
    | apply QuietA.next | apply Quiet.when)

theorem execTimerCaptureEdge_quiet {n : Nat} {rising : Bool} {s : State} (hK : Quiet q s) : QuietA q
    (execTimerCaptureEdge n rising s) := by
  unfold execTimerCaptureEdge
  with_reducible repeat' (first
    | assumption | (intro x hx; guard_hyp hx : Quiet q x) | apply State.on_quiet | apply tmrCapMark_quiet
    | apply QuietA.next | apply Quiet.when)

theorem tmrGo_quiet {s : State} {mask : Word} (hK : Quiet q s) : Quiet q (tmrGo s mask) := by
  unfold tmrGo
  with_reducible repeat' (first
    | assumption | (intro x a hx; guard_hyp hx : Quiet q x) | apply tmrStart_quiet | apply tmrWrote_quiet
    | apply Quiet.each | apply Quiet.upd)

theorem tmrCmdWritten_quiet {s : State} {n : Nat} {op : Nat} (hK : Quiet q s) : Quiet q (tmrCmdWritten s n op) := by
  unfold tmrCmdWritten
  with_reducible repeat' (first | assumption | apply tmrStart_quiet | apply tmrStop_quiet | apply tmrWrote_quiet | split)

theorem tmrUnlinked_quiet {s : State} {n : Nat} (hK : Quiet q s) : Quiet q (tmrUnlinked s n) := by
  unfold tmrUnlinked
  with_reducible repeat' (first | assumption | (intro x hx; guard_hyp hx : Quiet q x) | apply Quiet.wr | apply Quiet.when)

theorem tmrCtrlWritten_quiet {s : State} {n : Nat} {old : Word} (hK : Quiet q s) : Quiet q (tmrCtrlWritten s n old) := by
  unfold tmrCtrlWritten
  with_reducible repeat' (first
    | assumption | (intro x hx; guard_hyp hx : Quiet q x) | apply tmrIdleOut_quiet | apply tmrStart_quiet
    | apply tmrStop_quiet | apply tmrWrote_quiet | apply tmrUnlinked_quiet | apply Quiet.ite | apply Quiet.when)

theorem tmrStatWritten_quiet {s : State} {n : Nat} (hK : Quiet q s) : Quiet q (tmrStatWritten s n) := by
  unfold tmrStatWritten
  with_reducible repeat' (first | assumption | apply State.put_quiet | apply Quiet.ite)

theorem stringFreqUpdateEffect_quiet {n : Nat} {istr : Nat} {vstr : Nat} {vfeed : Nat} {loss : Nat} {tj : Int}
    {maxDuty : Bool} {s : State} (hK : Quiet q s) : Quiet q (stringFreqUpdateEffect n istr vstr vfeed loss tj maxDuty
    s) := by
  unfold stringFreqUpdateEffect
  with_reducible repeat' (first
    | assumption | apply State.put_quiet | apply State.drawn_quiet | apply State.putInt_quiet | apply Quiet.ite)

theorem execStringFreqUpdate_quiet {n : Nat} {istr : Nat} {vstr : Nat} {vfeed : Nat} {loss : Nat} {tj : Int}
    {maxDuty : Bool} {s : State} (hK : Quiet q s) : QuietA q (execStringFreqUpdate n istr vstr vfeed loss tj maxDuty
    s) := by
  unfold execStringFreqUpdate
  with_reducible repeat' (first
    | assumption | apply State.on_quiet | apply stringFreqUpdateEffect_quiet | apply QuietA.next | apply Quiet.when)

theorem stringServe_quiet {n : Nat} {s : State} (hK : Quiet q s) : Quiet q (stringServe n s) := by
  unfold stringServe
  with_reducible repeat' (first
    | assumption | (intro x hx; guard_hyp hx : Quiet q x) | apply strBegin_quiet | apply Quiet.when)

theorem execStringPwmBoundary_quiet {n : Nat} {s : State} (hK : Quiet q s) : QuietA q (execStringPwmBoundary n s) := by
  unfold execStringPwmBoundary
  with_reducible repeat' (first
    | assumption | apply State.expire_quiet | apply State.on_quiet | apply stringServe_quiet | apply QuietA.next)

theorem execStringOpen_quiet {n : Nat} {s : State} (hK : Quiet q s) : QuietA q (execStringOpen n s) := by
  unfold execStringOpen
  with_reducible repeat' (first
    | assumption | (intro x hx; guard_hyp hx : Quiet q x) | apply State.on_quiet | apply State.setSt_quiet
    | apply stFault_quiet | apply QuietA.next | apply Quiet.when)

theorem stringOpenRetestEffect_quiet {n : Nat} {closed : Bool} {s : State} (hK : Quiet q s) : Quiet q
    (stringOpenRetestEffect n closed s) := by
  unfold stringOpenRetestEffect
  with_reducible repeat' (first
    | assumption | apply State.setSt_quiet | apply stFault_quiet | apply strDiagnosed_quiet | apply Quiet.ite)

theorem execStringOpenRetest_quiet {n : Nat} {closed : Bool} {s : State} (hK : Quiet q s) : QuietA q
    (execStringOpenRetest n closed s) := by
  unfold execStringOpenRetest
  with_reducible repeat' (first
    | assumption | apply State.on_quiet | apply stringOpenRetestEffect_quiet | apply QuietA.next | apply Quiet.when)

theorem execStringShort_quiet {n : Nat} {s : State} (hK : Quiet q s) : QuietA q (execStringShort n s) := by
  unfold execStringShort
  with_reducible repeat' (first
    | assumption | (intro x hx; guard_hyp hx : Quiet q x) | apply State.on_quiet | apply stFault_quiet | apply QuietA.next
    | apply Quiet.when)

theorem execStringOutputShort_quiet {n : Nat} {s : State} (hK : Quiet q s) : QuietA q (execStringOutputShort n s) := by
  unfold execStringOutputShort
  with_reducible repeat' (first
    | assumption | (intro x hx; guard_hyp hx : Quiet q x) | apply State.put_quiet | apply State.on_quiet
    | apply stFault_quiet | apply strWant_quiet | apply strStop_quiet | apply QuietA.next | apply Quiet.when)

theorem stringThermalEffect_quiet {n : Nat} {hot : Bool} {s : State} (hK : Quiet q s) : Quiet q (stringThermalEffect n
    hot s) := by
  unfold stringThermalEffect
  with_reducible repeat' (first | assumption | apply State.setSt_quiet | apply stFault_quiet | apply Quiet.ite)

theorem execStringThermal_quiet {n : Nat} {hot : Bool} {s : State} (hK : Quiet q s) : QuietA q (execStringThermal n
    hot s) := by
  unfold execStringThermal
  with_reducible repeat' (first
    | assumption | apply State.on_quiet | apply stringThermalEffect_quiet | apply QuietA.next | apply Quiet.when)

theorem sinkPwmBoundaryEffect_quiet {s : State} (hK : Quiet q s) : Quiet q (sinkPwmBoundaryEffect s) := by
  unfold sinkPwmBoundaryEffect
  with_reducible repeat' (first
    | assumption | (intro x a hx; guard_hyp hx : Quiet q x) | apply State.setSn_quiet | apply sinkBegin_quiet
    | apply sinkServe_quiet | apply Quiet.ite | apply Quiet.each | apply Quiet.upd)

theorem sinkBoundaryServe_quiet {s : State} (hK : Quiet q s) : Quiet q (sinkBoundaryServe s) := by
  unfold sinkBoundaryServe
  with_reducible repeat' (first | assumption | apply sinkPwmBoundaryEffect_quiet | apply Quiet.when | apply Quiet.upd)

theorem execSinkPwmBoundary_quiet {s : State} (hK : Quiet q s) : QuietA q (execSinkPwmBoundary s) := by
  unfold execSinkPwmBoundary
  with_reducible repeat' (first
    | assumption | apply State.expire_quiet | apply State.on_quiet | apply sinkBoundaryServe_quiet | apply QuietA.next
    | apply QuietA.go | apply Quiet.upd)

theorem sinkOpenEffect_quiet {n : Nat} {s : State} (hK : Quiet q s) : Quiet q (sinkOpenEffect n s) := by
  unfold sinkOpenEffect
  with_reducible repeat' (first
    | assumption | apply State.setBit_quiet | apply mxRefreshFlt_quiet | apply skFault_quiet | apply Quiet.ite)

theorem execSinkOpen_quiet {n : Nat} {s : State} (hK : Quiet q s) : QuietA q (execSinkOpen n s) := by
  unfold execSinkOpen
  with_reducible repeat' (first
    | assumption | apply State.on_quiet | apply sinkOpenEffect_quiet | apply QuietA.next | apply Quiet.when)

theorem execSinkShort_quiet {n : Nat} {s : State} (hK : Quiet q s) : QuietA q (execSinkShort n s) := by
  unfold execSinkShort
  with_reducible repeat' (first
    | assumption | (intro x hx; guard_hyp hx : Quiet q x) | apply State.on_quiet | apply skFault_quiet | apply QuietA.next
    | apply Quiet.when)

theorem sinkBankThermalEffect_quiet {n : Nat} {hot : Bool} {s : State} (hK : Quiet q s) : Quiet q
    (sinkBankThermalEffect n hot s) := by
  unfold sinkBankThermalEffect
  with_reducible repeat' (first
    | assumption | (intro x a hx; guard_hyp hx : Quiet q x) | apply State.setBit_quiet | apply State.setSn_quiet
    | apply skFault_quiet | apply Quiet.ite | apply Quiet.each)

theorem execSinkBankThermal_quiet {n : Nat} {hot : Bool} {s : State} (hK : Quiet q s) : QuietA q (execSinkBankThermal
    n hot s) := by
  unfold execSinkBankThermal
  with_reducible repeat' (first
    | assumption | apply State.on_quiet | apply sinkBankThermalEffect_quiet | apply QuietA.next | apply Quiet.when)

theorem ageServe_quiet {isSink : Bool} {n : Nat} {s : State} (hK : Quiet q s) : Quiet q (ageServe isSink n s) := by
  unfold ageServe
  with_reducible repeat' (first
    | assumption | (intro x hx; guard_hyp hx : Quiet q x) | apply State.put_quiet | apply Quiet.ite | apply Quiet.when)

theorem execDiagAgeExpiry_quiet {isSink : Bool} {n : Nat} {s : State} (hK : Quiet q s) : QuietA q (execDiagAgeExpiry
    isSink n s) := by
  unfold execDiagAgeExpiry
  with_reducible repeat' (first
    | assumption | apply State.expire_quiet | apply State.on_quiet | apply ageServe_quiet | apply QuietA.next)

theorem offtestStartEffect_quiet {isSink : Bool} {n : Nat} {s : State} (hK : Quiet q s) : Quiet q (offtestStartEffect
    isSink n s) := by
  unfold offtestStartEffect
  with_reducible repeat' (first | assumption | apply State.setSt_quiet | apply State.setSn_quiet | apply Quiet.ite)

theorem execOfftestStart_quiet {isSink : Bool} {n : Nat} {s : State} (hK : Quiet q s) : QuietA q (execOfftestStart
    isSink n s) := by
  unfold execOfftestStart
  with_reducible repeat' (first
    | assumption | apply State.on_quiet | apply offtestStartEffect_quiet | apply QuietA.next | apply Quiet.when)

theorem offtestEndEffect_quiet {isSink : Bool} {n : Nat} {volt : Nat} {vfeed : Nat} {s : State} (hK : Quiet q s) :
    Quiet q (offtestEndEffect isSink n volt vfeed s) := by
  unfold offtestEndEffect
  with_reducible repeat' (first
    | assumption | apply State.setSt_quiet | apply State.setSn_quiet | apply stFault_quiet | apply skFault_quiet
    | apply strDiagnosed_quiet | apply sinkDiagnosed_quiet | apply Quiet.ite)

theorem execOfftestEnd_quiet {isSink : Bool} {n : Nat} {volt : Nat} {vfeed : Nat} {s : State} (hK : Quiet q s) :
    QuietA q (execOfftestEnd isSink n volt vfeed s) := by
  unfold execOfftestEnd
  with_reducible repeat' (first
    | assumption | apply State.on_quiet | apply offtestEndEffect_quiet | apply QuietA.next | apply Quiet.when)

theorem mxFrame_quiet {s : State} (hK : Quiet q s) : Quiet q (mxFrame s) := by
  unfold mxFrame
  with_reducible repeat' (first
    | assumption | apply State.put_quiet | apply raiseSrc_quiet | apply State.setMx_quiet | apply Quiet.ite)

theorem mxSlot_quiet {s : State} {r : Nat} (hK : Quiet q s) : Quiet q (mxSlot s r) := by
  unfold mxSlot
  with_reducible repeat' (first
    | assumption | (intro x a hx; guard_hyp hx : Quiet q x) | apply State.put_quiet | apply State.setMx_quiet
    | apply sinkPlace_quiet | apply sinkServe_quiet | apply mxFrame_quiet | apply Quiet.ite | apply Quiet.each)

theorem mxStart_quiet {s : State} (hK : Quiet q s) : Quiet q (mxStart s) := by
  unfold mxStart
  with_reducible repeat' (first | assumption | apply mxSlot_quiet)

theorem slotServe_quiet {s : State} (hK : Quiet q s) : Quiet q (slotServe s) := by
  unfold slotServe
  with_reducible repeat' (first
    | assumption | (intro x hx; guard_hyp hx : Quiet q x) | apply mxSlot_quiet | apply Quiet.when)

theorem execMatrixRowSlot_quiet {s : State} (hK : Quiet q s) : QuietA q (execMatrixRowSlot s) := by
  unfold execMatrixRowSlot
  with_reducible repeat' (first
    | assumption | apply State.expire_quiet | apply State.on_quiet | apply slotServe_quiet | apply QuietA.next)

theorem matrixRowTripEffect_quiet {s : State} (hK : Quiet q s) : Quiet q (matrixRowTripEffect s) := by
  unfold matrixRowTripEffect
  with_reducible repeat' (first
    | assumption | apply State.setBit_quiet | apply State.setMx_quiet | apply mxRefreshFlt_quiet | apply Quiet.ite)

theorem execMatrixRowTrip_quiet {s : State} (hK : Quiet q s) : QuietA q (execMatrixRowTrip s) := by
  unfold execMatrixRowTrip
  with_reducible repeat' (first
    | assumption | apply State.on_quiet | apply matrixRowTripEffect_quiet | apply QuietA.next | apply Quiet.when)

theorem execLchRefresh_quiet {s : State} (hK : Quiet q s) : QuietA q (execLchRefresh s) := by
  unfold execLchRefresh
  with_reducible repeat' (first
    | assumption | apply State.on_quiet | apply chainRequest_quiet | apply QuietA.next | apply Quiet.when)

theorem execLchFrameEnd_quiet {s : State} (hK : Quiet q s) : QuietA q (execLchFrameEnd s) := by
  unfold execLchFrameEnd
  with_reducible repeat' (first
    | assumption | (intro x hx; guard_hyp hx : Quiet q x) | apply State.put_quiet | apply State.incField_quiet
    | apply State.on_quiet | apply raiseSrc_quiet | apply State.setChain_quiet | apply QuietA.next | apply Quiet.when)

theorem ruleAct_quiet {s : State} {d : Nat} (hK : Quiet q s) : Quiet q (ruleAct s d) := by
  unfold ruleAct
  with_reducible repeat' (first
    | assumption | (intro x hx; guard_hyp hx : Quiet q x) | apply State.put_quiet | apply chainRequest_quiet
    | apply wiperStart_quiet | apply stkRuleFire_quiet | apply stkRuleRelease_quiet | apply adPulse_quiet
    | apply tmrRuled_quiet | apply tmrCapMark_quiet | apply Quiet.ite | apply Quiet.when)

theorem deliver_quiet {s : State} {ls : List Nat} (hK : Quiet q s) : Quiet q (deliver s ls) := by
  unfold deliver
  with_reducible repeat' (first
    | assumption | (intro x a hx; guard_hyp hx : Quiet q x) | apply State.put_quiet | apply State.mark_quiet
    | apply State.setBit_quiet | apply ruleAct_quiet | apply Quiet.ite | apply Quiet.each)

theorem deliverDue_quiet {s : State} {sel : Flight → Bool} (hK : Quiet q s) : Quiet q (deliverDue s sel) := by
  unfold deliverDue
  with_reducible repeat' (first | assumption | apply deliver_quiet | apply Quiet.upd)

theorem execRuleEvent_quiet {code : Nat} {rising : Bool} {s : State} (hK : Quiet q s) : QuietA q (execRuleEvent code
    rising s) := by
  unfold execRuleEvent
  with_reducible repeat' (first
    | assumption | apply State.on_quiet | apply raiseSrc_quiet | apply raiseLevel_quiet | apply Quiet.ite
    | apply QuietA.next)

theorem ruleSwp_quiet {s : State} {w : Word} (hK : Quiet q s) : Quiet q (ruleSwp s w) := by
  unfold ruleSwp
  with_reducible repeat' (first | assumption | apply raiseLine_quiet)

theorem ruleMuted_quiet {s : State} (hK : Quiet q s) : Quiet q (ruleMuted s) := by
  unfold ruleMuted
  with_reducible repeat' (first | assumption | apply Quiet.upd)

theorem tmrWritten_quiet {n : Nat} {o : Nat} {s : State} {old : Word} {w : Word} (hK : Quiet q s) : Quiet q
    (tmrWritten n o s old w) := by
  unfold tmrWritten
  with_reducible repeat' (first
    | assumption | apply tmrCmdWritten_quiet | apply tmrCtrlWritten_quiet | apply tmrStatWritten_quiet | apply Quiet.ite)

theorem tmrGoWritten_quiet {o : Nat} {s : State} {u2 : Word} {w : Word} (hK : Quiet q s) : Quiet q (tmrGoWritten o s
    u2 w) := by
  unfold tmrGoWritten
  with_reducible repeat' (first | assumption | apply tmrGo_quiet | apply Quiet.ite)

theorem tmrWrite_quiet {r : WriteReq} {s : State} (hK : Quiet q s) : Quiet q (tmrWrite r s) := by
  unfold tmrWrite
  with_reducible repeat' (first
    | assumption | apply blockWrite_quiet | apply noRej_quiet | apply tmrWritten_quiet | apply tmrGoWritten_quiet
    | apply Quiet.ite)

theorem ruleWritten_quiet {o : Nat} {s : State} {u2 : Word} {w : Word} (hK : Quiet q s) : Quiet q (ruleWritten o s u2
    w) := by
  unfold ruleWritten
  with_reducible repeat' (first | assumption | apply ruleSwp_quiet | apply ruleMuted_quiet | apply Quiet.ite)

theorem ruleWrite_quiet {r : WriteReq} {s : State} (hK : Quiet q s) : Quiet q (ruleWrite r s) := by
  unfold ruleWrite
  with_reducible repeat' (first | assumption | apply blockWrite_quiet | apply noRej_quiet | apply ruleWritten_quiet)

theorem inpWritten_quiet {o : Nat} {s : State} {old : Word} {w : Word} (hK : Quiet q s) : Quiet q (inpWritten o s old
    w) := by
  unfold inpWritten
  with_reducible repeat' (first
    | assumption | apply adEnable_quiet | apply adDisable_quiet | apply inpOnWritten_quiet | apply inpEdgeWritten_quiet
    | apply Quiet.ite)

theorem inpWrite_quiet {r : WriteReq} {s : State} (hK : Quiet q s) : Quiet q (inpWrite r s) := by
  unfold inpWrite
  with_reducible repeat' (first | assumption | apply blockWrite_quiet | apply noRej_quiet | apply inpWritten_quiet)

end Sys2Proof.Laws
end

