-- ==== Sys2Proof/Laws/QuietCore.lean ====
section
/-! SUPPORT. What stores nothing (`Quiet` and `QuietA` of Laws/Quiet.lean), one lemma per definition: the cores' instructions that store nothing, safety and power. -/

namespace Sys2Proof.Laws
open Machine

variable {q : State}

theorem State.setReg_quiet {s : State} {c : CoreId} {r : Reg} {v : Word} (hK : Quiet q s) : Quiet q (State.setReg s c
    r v) := by
  unfold State.setReg
  with_reducible repeat' (first
    | assumption | with_unfolding_all exact fun _ => Or.inl Core.setReg_length | apply Quiet.setCore)

theorem State.advance_quiet {s : State} {c : CoreId} (hK : Quiet q s) : Quiet q (State.advance s c) := by
  unfold State.advance
  with_reducible repeat' (first | assumption | with_unfolding_all exact fun _ => Or.inl rfl | apply Quiet.setCore)

theorem State.aluDone_quiet {s : State} {c : CoreId} {wd : Reg} {a : Alu} (hK : Quiet q s) : Quiet q (State.aluDone s
    c wd a) := by
  unfold State.aluDone
  with_reducible repeat' (first
    | assumption | with_unfolding_all exact fun _ => Or.inl Core.setReg_length | apply Quiet.setCore)

theorem State.regDone_quiet {s : State} {c : CoreId} {wd : Reg} {v : Word} (hK : Quiet q s) : Quiet q (State.regDone s
    c wd v) := by
  unfold State.regDone
  with_reducible repeat' (first
    | assumption | with_unfolding_all exact fun _ => Or.inl Core.setReg_length | apply Quiet.setCore)

theorem enterExc_quiet {s : State} {c : Nat} {epc : Word} {ecause : Word} {eaddr : Word} {isInt : Bool} {sres :
    Bool} (hK : Quiet q s) : Quiet q (enterExc s c epc ecause eaddr isInt sres) := by
  unfold enterExc
  with_reducible repeat' (first | assumption | with_unfolding_all exact fun _ => Or.inl rfl | apply Quiet.setCore)

theorem raiseExc_quiet {s : State} {c : CoreId} {e : Exc} {sub : Nat} {info : Nat} {epc : Word} {eaddr : Word} (hK :
    Quiet q s) : Quiet q (raiseExc s c e sub info epc eaddr) := by
  unfold raiseExc
  with_reducible repeat' (first
    | assumption | apply haltCore_quiet | apply safeDetect_quiet | apply enterExc_quiet | apply Quiet.ite)

theorem State.trap_quiet {s : State} {c : CoreId} {e : Exc} (hK : Quiet q s) : Quiet q (State.trap s c e) := by
  unfold State.trap
  with_reducible repeat' (first | assumption | apply raiseExc_quiet)

theorem State.fault_quiet {s : State} {c : CoreId} {e : Exc} {sub : Nat} {a : Word} (hK : Quiet q s) : Quiet q
    (State.fault s c e sub a) := by
  unfold State.fault
  with_reducible repeat' (first | assumption | apply raiseExc_quiet)

theorem fetchRaise_quiet {s : State} {c : CoreId} {f : Exc × Nat} (hK : Quiet q s) : Quiet q (fetchRaise s c f) := by
  unfold fetchRaise
  with_reducible repeat' (first
    | assumption | apply State.fabErr_quiet | apply eccFault_quiet | apply State.trap_quiet | apply State.fault_quiet
    | split)

theorem issue_quiet {c : CoreId} {s : State} {f : State → State} (hK : Quiet q s) (hF_f : ∀ v0, Quiet q v0 → Quiet q (f
    v0)) : QuietA q (issue c s f) := by
  unfold issue
  with_reducible repeat' (first | assumption | apply hF_f | apply fetchRaise_quiet | apply QuietA.next | split)

theorem issueIf_quiet {c : CoreId} {legal : Bool} {s : State} {f : State → State} (hK : Quiet q s) (hF_f : ∀ v0, Quiet
    q v0 → Quiet q (f v0)) : QuietA q (issueIf c legal s f) := by
  unfold issueIf
  with_reducible repeat' (first
    | assumption | (intro x hx; guard_hyp hx : Quiet q x) | apply hF_f | apply State.trap_quiet | apply issue_quiet
    | apply Quiet.ite)

theorem issuePriv_quiet {c : CoreId} {legal : Bool} {s : State} {f : State → State} (hK : Quiet q s) (hF_f : ∀ v0,
    Quiet q v0 → Quiet q (f v0)) : QuietA q (issuePriv c legal s f) := by
  unfold issuePriv
  with_reducible repeat' (first
    | assumption | (intro x hx; guard_hyp hx : Quiet q x) | apply hF_f | apply State.trap_quiet | apply issueIf_quiet
    | apply Quiet.ite)

theorem alu2_quiet {op : Word → Word → Bool → Alu} {c : CoreId} {wd : Reg} {wa : Reg} {wb : Reg} {s : State} (hK :
    Quiet q s) : QuietA q (alu2 op c wd wa wb s) := by
  unfold alu2
  with_reducible repeat' (first
    | assumption | (intro x hx; guard_hyp hx : Quiet q x) | apply State.aluDone_quiet | apply issue_quiet)

theorem alu1_quiet {legal : Bool} {op : Word → Alu} {c : CoreId} {wd : Reg} {wa : Reg} {s : State} (hK : Quiet q s) :
    QuietA q (alu1 legal op c wd wa s) := by
  unfold alu1
  with_reducible repeat' (first
    | assumption | (intro x hx; guard_hyp hx : Quiet q x) | apply State.aluDone_quiet | apply issueIf_quiet)

theorem State.jump_quiet {s : State} {c : CoreId} {t : Word} (hK : Quiet q s) : Quiet q (State.jump s c t) := by
  unfold State.jump
  with_reducible repeat' (first | assumption | with_unfolding_all exact fun _ => Or.inl rfl | apply Quiet.setCore)

theorem execBr_quiet {c : CoreId} {cond : BitVec 4} {off : BitVec 24} {s : State} (hK : Quiet q s) : QuietA q (execBr
    c cond off s) := by
  unfold execBr
  with_reducible repeat' (first
    | assumption | (intro x hx; guard_hyp hx : Quiet q x) | apply issueIf_quiet | apply State.jump_quiet)

theorem execJal_quiet {c : CoreId} {wl : Reg} {off : BitVec 23} {s : State} (hK : Quiet q s) : QuietA q (execJal c wl
    off s) := by
  unfold execJal
  with_reducible repeat' (first
    | assumption | (intro x hx; guard_hyp hx : Quiet q x) | apply State.setReg_quiet | apply issue_quiet
    | apply State.jump_quiet)

theorem execJalr_quiet {c : CoreId} {wd : Reg} {wa : Reg} {imm : BitVec 18} {s : State} (hK : Quiet q s) : QuietA q
    (execJalr c wd wa imm s) := by
  unfold execJalr
  with_reducible repeat' (first
    | assumption | (intro x hx; guard_hyp hx : Quiet q x) | apply State.setReg_quiet | apply State.trap_quiet
    | apply issue_quiet | apply State.jump_quiet | apply Quiet.ite)

theorem execNop_quiet {c : CoreId} {s : State} (hK : Quiet q s) : QuietA q (execNop c s) := by
  unfold execNop
  with_reducible repeat' (first
    | assumption | (intro x hx; guard_hyp hx : Quiet q x) | apply State.advance_quiet | apply issue_quiet)

theorem execWait_quiet {c : CoreId} {s : State} (hK : Quiet q s) : QuietA q (execWait c s) := by
  unfold execWait
  with_reducible repeat' (first
    | assumption | with_unfolding_all exact fun _ => Or.inl rfl | (intro x hx; guard_hyp hx : Quiet q x)
    | apply State.advance_quiet | apply issuePriv_quiet | apply Quiet.setCore | apply Quiet.upd)

theorem execSys_quiet {c : CoreId} {imm : BitVec 18} {s : State} (hK : Quiet q s) : QuietA q (execSys c imm s) := by
  unfold execSys
  with_reducible repeat' (first
    | assumption | (intro x hx; guard_hyp hx : Quiet q x) | apply raiseExc_quiet | apply issue_quiet)

theorem sealDeliver_quiet {s : State} {c : Nat} {w1 : Word} {z : Bool} (hK : Quiet q s) : Quiet q (sealDeliver s c w1
    z) := by
  unfold sealDeliver
  with_reducible repeat' (first
    | assumption | with_unfolding_all exact fun _ => Or.inl Core.setReg_length | apply Quiet.setCore)

theorem execRfe_quiet {c : CoreId} {s : State} (hK : Quiet q s) : QuietA q (execRfe c s) := by
  unfold execRfe
  with_reducible repeat' (first
    | assumption | with_unfolding_all exact fun _ => Or.inl rfl | (intro x hx; guard_hyp hx : Quiet q x)
    | (extract_lets +onlyGivenNames x; refine (fun hx : Quiet q x => ?_) ?_; rotate_left; subst x; rotate_left; clear_value x)
    | (extract_lets +onlyGivenNames x; clear_value x) | apply issuePriv_quiet | apply sealDeliver_quiet
    | apply Quiet.setCore | split)

theorem execMfs_quiet {c : CoreId} {wd : Reg} {num : BitVec 18} {s : State} (hK : Quiet q s) : QuietA q (execMfs c wd
    num s) := by
  unfold execMfs
  with_reducible repeat' (first
    | assumption | (intro x hx; guard_hyp hx : Quiet q x) | apply State.regDone_quiet | apply State.trap_quiet
    | apply issueIf_quiet | apply Quiet.ite)

theorem execMts_quiet {c : CoreId} {wa : Reg} {num : BitVec 18} {s : State} (hK : Quiet q s) : QuietA q (execMts c wa num s) :=
  issueIf_quiet hK fun _ h => Quiet.ite (State.trap_quiet h) (Quiet.ite (State.trap_quiet h)
    (State.advance_quiet (Quiet.setCore h fun _ => Or.inl sysWrite_length)))

theorem execCacheInvalidateIRange_quiet {c : CoreId} {wa : Reg} {wb : Reg} {s : State} (hK : Quiet q s) : QuietA q
    (execCacheInvalidateIRange c wa wb s) := by
  unfold execCacheInvalidateIRange
  with_reducible repeat' (first
    | assumption | with_unfolding_all exact fun _ => Or.inl rfl | (intro x hx; guard_hyp hx : Quiet q x)
    | apply State.advance_quiet | apply issuePriv_quiet | apply Quiet.setCore)

theorem execCacheInvalidateDRange_quiet {c : CoreId} {wa : Reg} {wb : Reg} {s : State} (hK : Quiet q s) : QuietA q
    (execCacheInvalidateDRange c wa wb s) := by
  unfold execCacheInvalidateDRange
  with_reducible repeat' (first
    | assumption | with_unfolding_all exact fun _ => Or.inl rfl | (intro x hx; guard_hyp hx : Quiet q x)
    | apply State.advance_quiet | apply issuePriv_quiet | apply Quiet.setCore)

theorem execCacheInvalidateIAll_quiet {c : CoreId} {s : State} (hK : Quiet q s) : QuietA q (execCacheInvalidateIAll c
    s) := by
  unfold execCacheInvalidateIAll
  with_reducible repeat' (first
    | assumption | with_unfolding_all exact fun _ => Or.inl rfl | (intro x hx; guard_hyp hx : Quiet q x)
    | apply State.advance_quiet | apply issuePriv_quiet | apply Quiet.setCore)

theorem execCacheInvalidateDAll_quiet {c : CoreId} {s : State} (hK : Quiet q s) : QuietA q (execCacheInvalidateDAll c
    s) := by
  unfold execCacheInvalidateDAll
  with_reducible repeat' (first
    | assumption | with_unfolding_all exact fun _ => Or.inl rfl | (intro x hx; guard_hyp hx : Quiet q x)
    | apply State.advance_quiet | apply issuePriv_quiet | apply Quiet.setCore)

theorem execUx_quiet {c : CoreId} {n : Fin 16} {wd wa wb : Reg} {fn : BitVec 13} {s : State} (hK : Quiet q s) :
    QuietA q (execUx c n wd wa wb fn s) :=
  issueIf_quiet hK fun _ h => State.advance_quiet (Quiet.setCore h fun k => Or.inl (by
    dsimp only; split
    · exact Core.setReg_length
    · rfl))

theorem cryptWritten_quiet {o : Nat} {s : State} {u2 : Word} {w : Word} (hK : Quiet q s) : Quiet q (cryptWritten o s
    u2 w) := by
  unfold cryptWritten
  with_reducible repeat' (first | assumption | apply State.put_quiet | apply Quiet.ite)

theorem cryptWrite_quiet {r : WriteReq} {s : State} (hK : Quiet q s) : Quiet q (cryptWrite r s) := by
  unfold cryptWrite
  with_reducible repeat' (first | assumption | apply blockWrite_quiet | apply noRej_quiet | apply cryptWritten_quiet)

theorem execReservoirCharged_quiet {s : State} (hK : Quiet q s) : QuietA q (execReservoirCharged s) := by
  unfold execReservoirCharged
  with_reducible repeat' (first | assumption | apply State.put_quiet | apply QuietA.next)

theorem sealAnswer_quiet {s : State} {c : Nat} {w : Word} {z : Bool} (hK : Quiet q s) : Quiet q (sealAnswer s c w z) := by
  unfold sealAnswer
  with_reducible repeat' (first
    | assumption | with_unfolding_all exact fun _ => Or.inl rfl | apply sealDeliver_quiet | apply Quiet.ite
    | apply Quiet.setCore)

theorem callServe_quiet {c : Nat} {s : State} (hK : Quiet q s) : Quiet q (callServe c s) := by
  unfold callServe
  with_reducible repeat' (first
    | assumption | (intro x hx; guard_hyp hx : Quiet q x) | apply State.put_quiet | apply sealAnswer_quiet
    | apply Quiet.when)

theorem execSealCallTimeout_quiet {c : Fin 4} {s : State} (hK : Quiet q s) : QuietA q (execSealCallTimeout c s) := by
  unfold execSealCallTimeout
  with_reducible repeat' (first
    | assumption | apply State.expire_quiet | apply State.on_quiet | apply callServe_quiet | apply QuietA.next)

theorem chanBefore_quiet {new : Sects} {s : State} {f : Nat} (hK : Quiet q s) : Quiet q (chanBefore new s f) := by
  unfold chanBefore
  with_reducible repeat' (first
    | assumption | (intro x hx; guard_hyp hx : Quiet q x) | apply State.setCh_quiet | apply setChState_quiet
    | apply showDp_quiet | apply allOff_quiet | apply stopOwner_quiet | apply safeValue_quiet | apply enterSafe_quiet
    | apply Quiet.ite | apply Quiet.when)

theorem lightBefore_quiet {s : State} {ts : List Target} (hK : Quiet q s) : Quiet q (lightBefore s ts) := by
  unfold lightBefore
  with_reducible repeat' (first | assumption | apply lightSafe_quiet | apply Quiet.each)

theorem loadBefore_quiet {s : State} {new : Sects} {relight : Bool} (hK : Quiet q s) : Quiet q (loadBefore s new
    relight) := by
  unfold loadBefore
  with_reducible repeat' (first | assumption | apply chanBefore_quiet | apply lightBefore_quiet | apply Quiet.each)

theorem lightDark_quiet {s : State} (hK : Quiet q s) : Quiet q (lightDark s) := by
  unfold lightDark
  with_reducible repeat' (first | assumption | apply Quiet.upd)

theorem pll1LossEffect_quiet {crystal : Bool} {s : State} (hK : Quiet q s) : Quiet q (pll1LossEffect crystal s) := by
  unfold pll1LossEffect
  with_reducible repeat' (first
    | assumption | with_unfolding_all exact fun _ => Or.inl rfl | (intro x a hx; guard_hyp hx : Quiet q x)
    | apply State.put_quiet | apply State.setReady_quiet | apply safeDetect_quiet | apply setPwr_quiet
    | apply lightDark_quiet | apply Quiet.each | apply Quiet.mapCores)

theorem testFailed_quiet {s : State} {t : Nat} (hK : Quiet q s) : Quiet q (testFailed s t) := by
  unfold testFailed
  with_reducible repeat' (first | assumption | apply State.setBit_quiet | apply updateGact_quiet | apply safeDetect_quiet)

theorem classFault_quiet {s : State} {cls : Nat} {idx : Nat} {a : Nat} (hK : Quiet q s) : Quiet q (classFault s cls
    idx a) := by
  unfold classFault
  with_reducible repeat' (first
    | assumption | (intro x hx; guard_hyp hx : Quiet q x) | apply State.put_quiet | apply State.setCh_quiet
    | apply chanSafe_quiet | apply haltCore_quiet | apply safeDetect_quiet | apply eccFault_quiet | apply accDisable_quiet
    | apply pll1LossEffect_quiet | apply testFailed_quiet | apply Quiet.when | split)

theorem execSafeFaultDetect_quiet {cls : Fin 16} {idx : BitVec 7} {a : Nat} {s : State} (hK : Quiet q s) : QuietA q
    (execSafeFaultDetect cls idx a s) := by
  unfold execSafeFaultDetect
  with_reducible repeat' (first
    | assumption | (intro x hx; guard_hyp hx : Quiet q x) | apply classFault_quiet | apply QuietA.next | apply Quiet.when)

theorem execLockstepMismatch_quiet {who : Fin 3} {s : State} (hK : Quiet q s) : QuietA q (execLockstepMismatch who s) := by
  unfold execLockstepMismatch
  with_reducible repeat' (first | assumption | apply classFault_quiet | apply QuietA.next)

theorem execVoterSelfTest_quiet {failed : Option (Fin 128)} {s : State} (hK : Quiet q s) : QuietA q (execVoterSelfTest
    failed s) := by
  unfold execVoterSelfTest
  with_reducible repeat' (first
    | assumption | apply dropCause_quiet | apply safeDetect_quiet | apply testPassed_quiet | apply testFailed_quiet
    | apply QuietA.next | split)

theorem countEcc_quiet {s : State} {f : Fld} {n : Nat} (hK : Quiet q s) : Quiet q (countEcc s f n) := by
  unfold countEcc
  with_reducible repeat' (first | assumption | apply State.put_quiet | apply Quiet.ite)

theorem execSramScrub_quiet {fixed : Nat} {bad : List (Nat × Nat)} {s : State} (hK : Quiet q s) : QuietA q
    (execSramScrub fixed bad s) := by
  unfold execSramScrub
  with_reducible repeat' (first
    | assumption | (intro x a hx; guard_hyp hx : Quiet q x) | apply eccFault_quiet | apply testPassed_quiet
    | apply countEcc_quiet | apply QuietA.next | apply Quiet.each)

theorem execNvmScrub_quiet {fixed : Nat} {bad : List (Nat × Nat)} {s : State} (hK : Quiet q s) : QuietA q
    (execNvmScrub fixed bad s) := by
  unfold execNvmScrub
  with_reducible repeat' (first
    | assumption | (intro x a hx; guard_hyp hx : Quiet q x) | apply eccFault_quiet | apply testPassed_quiet
    | apply countEcc_quiet | apply QuietA.next | apply Quiet.each)

theorem execSelftestOverdue_quiet {t : Fin 4} {s : State} (hK : Quiet q s) : QuietA q (execSelftestOverdue t s) := by
  unfold execSelftestOverdue
  with_reducible repeat' (first
    | assumption | (intro x hx; guard_hyp hx : Quiet q x) | apply testFailed_quiet | apply QuietA.next | apply Quiet.when)

theorem execOperatingRangeChange_quiet {kl30 : Int} {feeds : List Int} {tbp : Int} {s : State} (hK : Quiet q s) :
    QuietA q (execOperatingRangeChange kl30 feeds tbp s) := by
  unfold execOperatingRangeChange
  with_reducible repeat' (first | assumption | apply State.put_quiet | apply updateGact_quiet | apply QuietA.next)

theorem clearFaults_quiet {s : State} (hK : Quiet q s) : Quiet q (clearFaults s) := by
  unfold clearFaults
  with_reducible repeat' (first | assumption | apply Quiet.wr | apply State.put_quiet)

theorem safeWritten_quiet {o : Nat} {s : State} {u2 : Word} {w : Word} (hK : Quiet q s) : Quiet q (safeWritten o s u2
    w) := by
  unfold safeWritten
  with_reducible repeat' (first | assumption | apply State.put_quiet | apply clearFaults_quiet | apply Quiet.ite)

theorem safeWrite_quiet {r : WriteReq} {s : State} (hK : Quiet q s) : Quiet q (safeWrite r s) := by
  unfold safeWrite
  with_reducible repeat' (first | assumption | apply blockWrite_quiet | apply noRej_quiet | apply safeWritten_quiet)

theorem setIcu_quiet {s : State} {g : IcuSt → IcuSt} (hK : Quiet q s) : Quiet q (setIcu s g) := by
  unfold setIcu
  with_reducible repeat' (first | assumption | apply Quiet.upd)

theorem setStack_quiet {s : State} {t : Nat} {l : List (Nat × Nat)} (hK : Quiet q s) : Quiet q (setStack s t l) := by
  unfold setStack
  with_reducible repeat' (first | assumption | apply State.put_quiet | apply setIcu_quiet)

theorem execInterruptPresent_quiet {t : Fin 5} {s : State} (hK : Quiet q s) : QuietA q (execInterruptPresent t s) := by
  unfold execInterruptPresent
  with_reducible repeat' (first
    | assumption | with_unfolding_all exact fun _ => Or.inl rfl | (intro x hx; guard_hyp hx : Quiet q x)
    | apply State.drawn_quiet | apply setPwr_quiet | apply entryAbort_quiet | apply setIcu_quiet | apply Quiet.ite
    | apply QuietA.next | apply Quiet.when | apply Quiet.setCore)

theorem execInterruptTaken_quiet {c : CoreId} {s : State} (hK : Quiet q s) : QuietA q (execInterruptTaken c s) := by
  unfold execInterruptTaken
  with_reducible repeat' (first
    | assumption | (intro x hx; guard_hyp hx : Quiet q x) | apply enterExc_quiet | apply QuietA.next | apply Quiet.when)

theorem claimRead_quiet {s : State} {t : Nat} {src : Src} (hK : Quiet q s) : Quiet q (claimRead s t src).1 := by
  unfold claimRead
  with_reducible repeat' (first
    | assumption | apply State.drawn_quiet | apply State.setBit_quiet | apply setIcu_quiet | apply setStack_quiet | split)

theorem icuEoi_quiet {s : State} {t : Nat} (hK : Quiet q s) : Quiet q (icuEoi s t) := by
  unfold icuEoi
  with_reducible repeat' (first | assumption | apply State.setBit_quiet | apply setStack_quiet | split)

theorem icuWritten_quiet {o : Nat} {s : State} {u2 : Word} {u3 : Word} (hK : Quiet q s) : Quiet q (icuWritten o s u2
    u3) := by
  unfold icuWritten
  with_reducible repeat' (first | assumption | apply icuEoi_quiet | apply Quiet.ite)

theorem icuWrite_quiet {r : WriteReq} {s : State} (hK : Quiet q s) : Quiet q (icuWrite r s) := by
  unfold icuWrite
  with_reducible repeat' (first | assumption | apply blockWrite_quiet | apply noRej_quiet | apply icuWritten_quiet)

theorem lightCold_quiet {s : State} (hK : Quiet q s) : Quiet q (lightCold s) := by
  unfold lightCold
  with_reducible repeat' (first | assumption | apply State.resetBlk_quiet | apply Quiet.upd)

theorem powerPark_quiet {s : State} {capped : Bool} (hK : Quiet q s) : Quiet q (powerPark s capped) := by
  unfold powerPark
  with_reducible repeat' (first
    | assumption | (intro x hx; guard_hyp hx : Quiet q x) | (intro x a hx; guard_hyp hx : Quiet q x)
    | apply State.setCh_quiet | apply setChState_quiet | apply stopGen_quiet | apply allOff_quiet | apply State.setMo_quiet
    | apply Quiet.ite | apply Quiet.when | apply Quiet.each)

theorem allNotReady_quiet {s : State} (hK : Quiet q s) : Quiet q (allNotReady s) := by
  unfold allNotReady
  with_reducible repeat' (first
    | assumption | (intro x a hx; guard_hyp hx : Quiet q x) | apply State.setReady_quiet | apply Quiet.each)

theorem folioErr_quiet {s : State} {code : Nat} {word : Nat} (hK : Quiet q s) : Quiet q (folioErr s code word) := by
  unfold folioErr
  with_reducible repeat' (first | assumption | apply State.put_quiet)

theorem State.setCp_quiet {s : State} {c : CoreId} {g : CpSt → CpSt} (hK : Quiet q s) : Quiet q (State.setCp s c g) := by
  unfold State.setCp
  with_reducible repeat' (first | assumption | with_unfolding_all exact fun _ => Or.inl rfl | apply Quiet.setCore)

theorem shaFinish_quiet {s : State} {c : CoreId} (hK : Quiet q s) : Quiet q (shaFinish s c) := by
  unfold shaFinish
  with_reducible repeat' (first | assumption | apply State.setCp_quiet)

theorem aesFinish_quiet {s : State} {c : CoreId} (hK : Quiet q s) : Quiet q (aesFinish s c) := by
  unfold aesFinish
  with_reducible repeat' (first | assumption | apply State.setCp_quiet)

theorem cpWait_quiet {s : State} {c : CoreId} (hK : Quiet q s) : Quiet q (cpWait s c) := by
  unfold cpWait
  with_reducible repeat' (first | assumption | apply shaFinish_quiet | apply aesFinish_quiet)

theorem execShaCompressionDone_quiet {c : CoreId} {s : State} (hK : Quiet q s) : QuietA q (execShaCompressionDone c s) := by
  unfold execShaCompressionDone
  with_reducible repeat' (first | assumption | apply shaFinish_quiet | apply QuietA.next)

theorem execAesDone_quiet {c : CoreId} {s : State} (hK : Quiet q s) : QuietA q (execAesDone c s) := by
  unfold execAesDone
  with_reducible repeat' (first | assumption | apply aesFinish_quiet | apply QuietA.next)

theorem cpIssue_quiet {c : CoreId} {port : Nat} {legal : Bool} {s : State} {f : State → State} (hK : Quiet q s) (hF_f
    : ∀ v0, Quiet q v0 → Quiet q (f v0)) : QuietA q (cpIssue c port legal s f) := by
  unfold cpIssue
  with_reducible repeat' (first
    | assumption | (intro x hx; guard_hyp hx : Quiet q x) | apply hF_f | apply State.trap_quiet | apply issuePriv_quiet
    | apply cpWait_quiet | apply Quiet.ite)

theorem cpRes_quiet {c : CoreId} {port : Nat} {legal : Bool} {wd : Reg} {s : State} {v : State → Word} (hK : Quiet q
    s) : QuietA q (cpRes c port legal wd s v) := by
  unfold cpRes
  with_reducible repeat' (first
    | assumption | (intro x hx; guard_hyp hx : Quiet q x) | apply State.regDone_quiet | apply cpIssue_quiet)

theorem cpSet_quiet {c : CoreId} {port : Nat} {legal : Bool} {s : State} {g : State → CpSt → CpSt} (hK : Quiet q s) :
    QuietA q (cpSet c port legal s g) := by
  unfold cpSet
  with_reducible repeat' (first
    | assumption | (intro x hx; guard_hyp hx : Quiet q x) | apply State.advance_quiet | apply State.setCp_quiet
    | apply cpIssue_quiet)

theorem execCrc32_quiet {c : CoreId} {wd : Reg} {wa : Reg} {wb : Reg} {idx : BitVec 8} {s : State} (hK : Quiet q s) :
    QuietA q (execCrc32 c wd wa wb idx s) := by
  unfold execCrc32
  with_reducible repeat' (first | assumption | apply cpRes_quiet)

theorem execCrc32o_quiet {c : CoreId} {wd : Reg} {wa : Reg} {wb : Reg} {idx : BitVec 8} {s : State} (hK : Quiet q s)
    : QuietA q (execCrc32o c wd wa wb idx s) := by
  unfold execCrc32o
  with_reducible repeat' (first | assumption | apply cpRes_quiet)

theorem execCrc16_quiet {c : CoreId} {wd : Reg} {wa : Reg} {wb : Reg} {idx : BitVec 8} {s : State} (hK : Quiet q s) :
    QuietA q (execCrc16 c wd wa wb idx s) := by
  unfold execCrc16
  with_reducible repeat' (first | assumption | apply cpRes_quiet)

theorem execShainit_quiet {c : CoreId} {idx : BitVec 8} {s : State} (hK : Quiet q s) : QuietA q (execShainit c idx s) := by
  unfold execShainit
  with_reducible repeat' (first | assumption | apply cpSet_quiet)

theorem execShaw_quiet {c : CoreId} {wa : Reg} {idx : BitVec 8} {s : State} (hK : Quiet q s) : QuietA q (execShaw c wa
    idx s) := by
  unfold execShaw
  with_reducible repeat' (first | assumption | apply cpSet_quiet)

theorem execShard_quiet {c : CoreId} {wd : Reg} {idx : BitVec 8} {s : State} (hK : Quiet q s) : QuietA q (execShard c
    wd idx s) := by
  unfold execShard
  with_reducible repeat' (first | assumption | apply cpRes_quiet)

theorem execAeskey_quiet {c : CoreId} {wa : Reg} {idx : BitVec 8} {s : State} (hK : Quiet q s) : QuietA q (execAeskey
    c wa idx s) := by
  unfold execAeskey
  with_reducible repeat' (first | assumption | apply cpSet_quiet)

theorem execAesin_quiet {c : CoreId} {wa : Reg} {idx : BitVec 8} {s : State} (hK : Quiet q s) : QuietA q (execAesin c
    wa idx s) := by
  unfold execAesin
  with_reducible repeat' (first | assumption | apply cpSet_quiet)

theorem execAesenc_quiet {c : CoreId} {idx : BitVec 8} {s : State} (hK : Quiet q s) : QuietA q (execAesenc c idx s) := by
  unfold execAesenc
  with_reducible repeat' (first | assumption | apply cpSet_quiet)

theorem execAesdec_quiet {c : CoreId} {idx : BitVec 8} {s : State} (hK : Quiet q s) : QuietA q (execAesdec c idx s) := by
  unfold execAesdec
  with_reducible repeat' (first | assumption | apply cpSet_quiet)

theorem execAesout_quiet {c : CoreId} {wd : Reg} {idx : BitVec 8} {s : State} (hK : Quiet q s) : QuietA q (execAesout
    c wd idx s) := by
  unfold execAesout
  with_reducible repeat' (first | assumption | apply cpRes_quiet)

theorem roundK_quiet {s : State} {x : Int} (hK : Quiet q s) : Quiet q (roundK s x).2 := by
  unfold roundK
  generalize x / 2 ^ 24 = k, x % 2 ^ 24 = r
  dsimp only
  split
  · exact hK
  · split
    · exact hK
    · exact State.drawn_quiet hK

theorem execKset_quiet {c : CoreId} {wa : Reg} {idx : BitVec 8} {s : State} (hK : Quiet q s) : QuietA q (execKset c wa
    idx s) := by
  unfold execKset
  with_reducible repeat' (first | assumption | apply cpSet_quiet)

theorem macRes_quiet {c : CoreId} {idx : BitVec 8} {wd : Reg} {wa : Reg} {s : State} {x : State → Int} (hK : Quiet q
    s) : QuietA q (macRes c idx wd wa s x) := by
  unfold macRes
  with_reducible repeat' (first
    | assumption | (intro x hx; guard_hyp hx : Quiet q x) | apply State.regDone_quiet | apply cpIssue_quiet
    | apply roundK_quiet)

theorem execLag_quiet {c : CoreId} {wd : Reg} {wa : Reg} {wb : Reg} {idx : BitVec 8} {s : State} (hK : Quiet q s) :
    QuietA q (execLag c wd wa wb idx s) := by
  unfold execLag
  with_reducible repeat' (first | assumption | apply macRes_quiet)

theorem execSqmac_quiet {c : CoreId} {wd : Reg} {wa : Reg} {wb : Reg} {idx : BitVec 8} {s : State} (hK : Quiet q s) :
    QuietA q (execSqmac c wd wa wb idx s) := by
  unfold execSqmac
  with_reducible repeat' (first | assumption | apply macRes_quiet)

theorem execKrd_quiet {c : CoreId} {wd : Reg} {idx : BitVec 8} {s : State} (hK : Quiet q s) : QuietA q (execKrd c wd
    idx s) := by
  unfold execKrd
  with_reducible repeat' (first | assumption | apply cpRes_quiet)

theorem execPset_quiet {c : CoreId} {wa : Reg} {wb : Reg} {idx : BitVec 8} {s : State} (hK : Quiet q s) : QuietA q
    (execPset c wa wb idx s) := by
  unfold execPset
  with_reducible repeat' (first | assumption | apply cpSet_quiet)

theorem execPclr_quiet {c : CoreId} {idx : BitVec 8} {s : State} (hK : Quiet q s) : QuietA q (execPclr c idx s) := by
  unfold execPclr
  with_reducible repeat' (first | assumption | apply cpSet_quiet)

theorem execMatch_quiet {c : CoreId} {wd : Reg} {wa : Reg} {idx : BitVec 8} {s : State} (hK : Quiet q s) : QuietA q
    (execMatch c wd wa idx s) := by
  unfold execMatch
  with_reducible repeat' (first
    | assumption | (intro x hx; guard_hyp hx : Quiet q x) | apply State.regDone_quiet | apply State.setCp_quiet
    | apply cpIssue_quiet)

theorem execMaplo_quiet {c : CoreId} {wd : Reg} {idx : BitVec 8} {s : State} (hK : Quiet q s) : QuietA q (execMaplo c
    wd idx s) := by
  unfold execMaplo
  with_reducible repeat' (first | assumption | apply cpRes_quiet)

theorem execMaphi_quiet {c : CoreId} {wd : Reg} {idx : BitVec 8} {s : State} (hK : Quiet q s) : QuietA q (execMaphi c
    wd idx s) := by
  unfold execMaphi
  with_reducible repeat' (first | assumption | apply cpRes_quiet)

theorem lgtWritten_quiet {o : Nat} {s : State} {u2 : Word} {w : Word} (hK : Quiet q s) : Quiet q (lgtWritten o s u2 w) := by
  unfold lgtWritten
  with_reducible repeat' (first | assumption | apply lightReclaim_quiet | apply Quiet.ite | apply Quiet.each)

theorem strWritten_quiet {n : Nat} {o : Nat} {s : State} {old : Word} {w : Word} (hK : Quiet q s) : Quiet q
    (strWritten n o s old w) := by
  unfold strWritten
  with_reducible repeat' (first
    | assumption | apply State.put_quiet | apply State.setSt_quiet | apply lgtRefreshFlt_quiet | apply strMode_quiet
    | apply Quiet.ite)

theorem sinkWritten_quiet {n : Nat} {o : Nat} {s : State} {old : Word} {w : Word} (hK : Quiet q s) : Quiet q
    (sinkWritten n o s old w) := by
  unfold sinkWritten
  with_reducible repeat' (first
    | assumption | apply State.setSn_quiet | apply lgtRefreshFlt_quiet | apply sinkMode_quiet | apply Quiet.ite)

theorem mxWritten_quiet {o : Nat} {s : State} {old : Word} {w : Word} (hK : Quiet q s) : Quiet q (mxWritten o s old w) := by
  unfold mxWritten
  with_reducible repeat' (first
    | assumption | (intro x a hx; guard_hyp hx : Quiet q x) | apply State.setMx_quiet | apply mxRefreshFlt_quiet
    | apply mxStop_quiet | apply mxSlot_quiet | apply mxStart_quiet | apply Quiet.ite | apply Quiet.when | apply Quiet.each)

theorem lgtWrite_quiet {r : WriteReq} {s : State} (hK : Quiet q s) : Quiet q (lgtWrite r s) := by
  unfold lgtWrite
  with_reducible repeat' (first
    | assumption | apply blockWrite_quiet | apply noHook_quiet | apply noRej_quiet | apply lgtWritten_quiet
    | apply strWritten_quiet | apply sinkWritten_quiet | apply mxWritten_quiet | apply Quiet.ite)

theorem lchWritten_quiet {o : Nat} {s : State} {old : Word} {w : Word} (hK : Quiet q s) : Quiet q (lchWritten o s old
    w) := by
  unfold lchWritten
  with_reducible repeat' (first
    | assumption | apply State.setChain_quiet | apply chainPin_quiet | apply chainRequest_quiet | apply Quiet.ite)

theorem lchWrite_quiet {r : WriteReq} {s : State} (hK : Quiet q s) : Quiet q (lchWrite r s) := by
  unfold lchWrite
  with_reducible repeat' (first | assumption | apply blockWrite_quiet | apply noRej_quiet | apply lchWritten_quiet)

theorem folioEnd_quiet {s : State} {fail : Option (Nat × Nat)} (hK : Quiet q s) : Quiet q (folioEnd s fail) := by
  unfold folioEnd
  with_reducible repeat' (first | assumption | apply State.put_quiet | apply folioErr_quiet | split | apply Quiet.upd)

theorem folioStart_quiet {s : State} {src : Src} {op : Nat} (hK : Quiet q s) : Quiet q (folioStart s src op) := by
  unfold folioStart
  with_reducible repeat' (first
    | assumption | apply State.put_quiet | apply folioEnd_quiet | apply Quiet.ite | apply Quiet.upd)

theorem folioWritten_quiet {r : WriteReq} {s : State} {u2 : Word} {w : Word} (hK : Quiet q s) : Quiet q (folioWritten
    r s u2 w) := by
  unfold folioWritten
  with_reducible repeat' (first | assumption | apply folioStart_quiet | split | apply Quiet.upd)

theorem folioWrite_quiet {r : WriteReq} {s : State} (hK : Quiet q s) : Quiet q (folioWrite r s) := by
  unfold folioWrite
  with_reducible repeat' (first
    | assumption | (intro x hx; guard_hyp hx : Quiet q x) | apply blockWrite_quiet | apply noRej_quiet
    | apply folioWritten_quiet)

theorem refoldStep3_quiet {s : State} {other : Bool} {req : Nat} {f : FolioSt} (hK : Quiet q s) : Quiet q (refoldStep3
    s other req f) := by
  unfold refoldStep3
  with_reducible repeat' (first
    | assumption | (intro x a hx; guard_hyp hx : Quiet q x) | apply State.put_quiet | apply State.setReady_quiet
    | apply loadBefore_quiet | apply Quiet.each | apply Quiet.upd)

theorem execFolioVerifyEnd_quiet {s : State} (hK : Quiet q s) : QuietA q (execFolioVerifyEnd s) := by
  unfold execFolioVerifyEnd
  with_reducible repeat' (first
    | assumption | apply folioEnd_quiet | apply refoldStep3_quiet | apply QuietA.next | apply QuietA.go | split)

theorem execPowerStateChoice_quiet {save : Nat} {s : State} (hK : Quiet q s) : QuietA q (execPowerStateChoice save s) := by
  unfold execPowerStateChoice
  with_reducible repeat' (first
    | assumption | (intro x hx; guard_hyp hx : Quiet q x) | apply State.put_quiet | apply setPwr_quiet | apply Quiet.ite
    | apply QuietA.next | apply Quiet.when)

theorem padLatch_quiet {s : State} (hK : Quiet q s) : Quiet q (padLatch s) := by
  unfold padLatch
  with_reducible repeat' (first | assumption | apply State.put_quiet | apply setPwr_quiet)

theorem downAt_quiet {s : State} {st : PState} (hK : Quiet q s) : Quiet q (downAt s st) := by
  unfold downAt
  with_reducible repeat' (first
    | assumption | (intro x hx; guard_hyp hx : Quiet q x) | apply State.put_quiet | apply State.setReady_quiet
    | apply beatStop_quiet | apply setPwr_quiet | apply nmgPark_quiet | apply linPark_quiet | apply inpPark_quiet
    | apply lightCold_quiet | apply powerPark_quiet | apply allNotReady_quiet | apply padLatch_quiet | apply Quiet.when
    | apply Quiet.upd)

theorem entryServe_quiet {s : State} (hK : Quiet q s) : Quiet q (entryServe s) := by
  unfold entryServe
  with_reducible repeat' (first
    | assumption | (intro x hx; guard_hyp hx : Quiet q x) | apply State.put_quiet | apply setPwr_quiet | apply downAt_quiet
    | apply Quiet.ite | apply Quiet.when | apply Quiet.foldl | apply Quiet.foldl2 | split | apply Quiet.upd)

theorem execParkEntryCommit_quiet {s : State} (hK : Quiet q s) : QuietA q (execParkEntryCommit s) := by
  unfold execParkEntryCommit
  with_reducible repeat' (first
    | assumption | apply State.expire_quiet | apply entryServe_quiet | apply QuietA.next | apply QuietA.go | apply Quiet.upd)

theorem parkInputSampleEffect_quiet {kl30 : Int} {pins : List (Nat × Int)} {ans : List (Nat × Int)} {s : State} (hK
    : Quiet q s) : Quiet q (parkInputSampleEffect kl30 pins ans s) := by
  unfold parkInputSampleEffect
  with_reducible repeat' (first
    | assumption | (intro x hx; guard_hyp hx : Quiet q x) | apply wakeDetect_quiet | apply parkSample_quiet
    | apply Quiet.when)

theorem execParkInputSample_quiet {kl30 : Int} {pins : List (Nat × Int)} {ans : List (Nat × Int)} {s : State} (hK :
    Quiet q s) : QuietA q (execParkInputSample kl30 pins ans s) := by
  unfold execParkInputSample
  with_reducible repeat' (first | assumption | apply parkInputSampleEffect_quiet | apply QuietA.next | apply Quiet.when)

theorem testsAnew_quiet {s : State} (hK : Quiet q s) : Quiet q (testsAnew s) := by
  unfold testsAnew
  with_reducible repeat' (first | assumption | apply Quiet.upd)

theorem wakeEnd_quiet {s : State} (hK : Quiet q s) : Quiet q (wakeEnd s) := by
  unfold wakeEnd
  with_reducible repeat' (first
    | assumption | (intro x hx; guard_hyp hx : Quiet q x) | apply State.put_quiet | apply setPwr_quiet
    | apply testsAnew_quiet | apply Quiet.when)

theorem forcedCapped_quiet {s : State} (hK : Quiet q s) : Quiet q (forcedCapped s) := by
  unfold forcedCapped
  with_reducible repeat' (first
    | assumption | (intro x hx; guard_hyp hx : Quiet q x) | apply State.put_quiet | apply setPwr_quiet
    | apply nmgPark_quiet | apply linPark_quiet | apply lightCold_quiet | apply powerPark_quiet | apply allNotReady_quiet
    | apply padLatch_quiet | apply Quiet.when)

theorem execWakeStageFailure_quiet {s : State} (hK : Quiet q s) : QuietA q (execWakeStageFailure s) := by
  unfold execWakeStageFailure
  with_reducible repeat' (first
    | assumption
    | (extract_lets +onlyGivenNames x; refine (fun hx : Quiet q x => ?_) ?_; rotate_left; subst x; rotate_left; clear_value x)
    | apply State.put_quiet | apply State.satField_quiet | apply State.putNat_quiet | apply setPwr_quiet
    | apply forcedCapped_quiet | apply QuietA.next | split)

theorem wakeRetryEffect_quiet {s : State} (hK : Quiet q s) : Quiet q (wakeRetryEffect s) := by
  unfold wakeRetryEffect
  with_reducible repeat' (first | assumption | apply State.put_quiet | apply State.putNat_quiet | apply setPwr_quiet)

theorem execWakeRetry_quiet {s : State} (hK : Quiet q s) : QuietA q (execWakeRetry s) := by
  unfold execWakeRetry
  with_reducible repeat' (first | assumption | apply wakeRetryEffect_quiet | apply QuietA.next | apply Quiet.when)

theorem aonWritten_quiet {o : Nat} {s : State} (hK : Quiet q s) : Quiet q (aonWritten o s) := by
  unfold aonWritten
  with_reducible repeat' (first | assumption | apply State.put_quiet | apply setPwr_quiet | apply Quiet.ite)

theorem aonBlkWrite_quiet {r : WriteReq} {s : State} (hK : Quiet q s) : Quiet q (aonBlkWrite r s) := by
  unfold aonBlkWrite
  with_reducible repeat' (first
    | assumption | intro _ | apply blockWrite_quiet | apply noRej_quiet | apply nmgWrite_quiet | apply aonWritten_quiet
    | split)

theorem pwrWrite_quiet {r : WriteReq} {s : State} (hK : Quiet q s) : Quiet q (pwrWrite r s) := by
  unfold pwrWrite
  with_reducible repeat' (first | assumption | apply blockWrite_quiet | apply noHook_quiet | apply noRej_quiet)

theorem execPll1Loss_quiet {crystal : Bool} {s : State} (hK : Quiet q s) : QuietA q (execPll1Loss crystal s) := by
  unfold execPll1Loss
  with_reducible repeat' (first | assumption | apply pll1LossEffect_quiet | apply QuietA.next | apply Quiet.when)

theorem execFabricTimeout_quiet {ecc : Bool} {req : Nat} {addr : Nat} {isWrite : Bool} {s : State} (hK : Quiet q s) :
    QuietA q (execFabricTimeout ecc req addr isWrite s) := by
  unfold execFabricTimeout
  with_reducible repeat' (first
    | assumption
    | (extract_lets +onlyGivenNames x; refine (fun hx : Quiet q x => ?_) ?_; rotate_left; subst x; rotate_left; clear_value x)
    | (extract_lets +onlyGivenNames x; clear_value x) | apply State.setRej_quiet | apply State.fabErr_quiet
    | apply safeDetect_quiet | apply State.fault_quiet | apply QuietA.next | split)

theorem execVoteCorrection_quiet {blk : Blk} {off : Nat} {s : State} (hK : Quiet q s) : QuietA q (execVoteCorrection
    blk off s) := by
  unfold execVoteCorrection
  with_reducible repeat' (first
    | assumption | (intro x hx; guard_hyp hx : Quiet q x) | apply Quiet.wr | apply State.put_quiet
    | apply State.satField_quiet | apply QuietA.next | apply Quiet.when | split)

theorem execFenceMem_quiet {c : CoreId} {s : State} (hK : Quiet q s) : QuietA q (execFenceMem c s) := by
  unfold execFenceMem
  with_reducible repeat' (first
    | assumption | (intro x hx; guard_hyp hx : Quiet q x) | apply State.advance_quiet | apply issue_quiet)

theorem execAdd_quiet {c : CoreId} {wd : Reg} {wa : Reg} {wb : Reg} {s : State} (hK : Quiet q s) : QuietA q (execAdd c
    wd wa wb s) := by
  unfold execAdd
  with_reducible repeat' (first | assumption | apply alu2_quiet)

theorem execAdc_quiet {c : CoreId} {wd : Reg} {wa : Reg} {wb : Reg} {s : State} (hK : Quiet q s) : QuietA q (execAdc c
    wd wa wb s) := by
  unfold execAdc
  with_reducible repeat' (first | assumption | apply alu2_quiet)

theorem execSub_quiet {c : CoreId} {wd : Reg} {wa : Reg} {wb : Reg} {s : State} (hK : Quiet q s) : QuietA q (execSub c
    wd wa wb s) := by
  unfold execSub
  with_reducible repeat' (first | assumption | apply alu2_quiet)

theorem execSbc_quiet {c : CoreId} {wd : Reg} {wa : Reg} {wb : Reg} {s : State} (hK : Quiet q s) : QuietA q (execSbc c
    wd wa wb s) := by
  unfold execSbc
  with_reducible repeat' (first | assumption | apply alu2_quiet)

theorem execAnd_quiet {c : CoreId} {wd : Reg} {wa : Reg} {wb : Reg} {s : State} (hK : Quiet q s) : QuietA q (execAnd c
    wd wa wb s) := by
  unfold execAnd
  with_reducible repeat' (first | assumption | apply alu2_quiet)

theorem execOr_quiet {c : CoreId} {wd : Reg} {wa : Reg} {wb : Reg} {s : State} (hK : Quiet q s) : QuietA q (execOr c
    wd wa wb s) := by
  unfold execOr
  with_reducible repeat' (first | assumption | apply alu2_quiet)

theorem execXor_quiet {c : CoreId} {wd : Reg} {wa : Reg} {wb : Reg} {s : State} (hK : Quiet q s) : QuietA q (execXor c
    wd wa wb s) := by
  unfold execXor
  with_reducible repeat' (first | assumption | apply alu2_quiet)

theorem execAndn_quiet {c : CoreId} {wd : Reg} {wa : Reg} {wb : Reg} {s : State} (hK : Quiet q s) : QuietA q (execAndn
    c wd wa wb s) := by
  unfold execAndn
  with_reducible repeat' (first | assumption | apply alu2_quiet)

theorem execShl_quiet {c : CoreId} {wd : Reg} {wa : Reg} {wb : Reg} {s : State} (hK : Quiet q s) : QuietA q (execShl c
    wd wa wb s) := by
  unfold execShl
  with_reducible repeat' (first | assumption | apply alu2_quiet)

theorem execShr_quiet {c : CoreId} {wd : Reg} {wa : Reg} {wb : Reg} {s : State} (hK : Quiet q s) : QuietA q (execShr c
    wd wa wb s) := by
  unfold execShr
  with_reducible repeat' (first | assumption | apply alu2_quiet)

theorem execSar_quiet {c : CoreId} {wd : Reg} {wa : Reg} {wb : Reg} {s : State} (hK : Quiet q s) : QuietA q (execSar c
    wd wa wb s) := by
  unfold execSar
  with_reducible repeat' (first | assumption | apply alu2_quiet)

theorem execRol_quiet {c : CoreId} {wd : Reg} {wa : Reg} {wb : Reg} {s : State} (hK : Quiet q s) : QuietA q (execRol c
    wd wa wb s) := by
  unfold execRol
  with_reducible repeat' (first | assumption | apply alu2_quiet)

theorem execRor_quiet {c : CoreId} {wd : Reg} {wa : Reg} {wb : Reg} {s : State} (hK : Quiet q s) : QuietA q (execRor c
    wd wa wb s) := by
  unfold execRor
  with_reducible repeat' (first | assumption | apply alu2_quiet)

theorem execMul_quiet {c : CoreId} {wd : Reg} {wa : Reg} {wb : Reg} {s : State} (hK : Quiet q s) : QuietA q (execMul c
    wd wa wb s) := by
  unfold execMul
  with_reducible repeat' (first | assumption | apply alu2_quiet)

theorem execMulh_quiet {c : CoreId} {wd : Reg} {wa : Reg} {wb : Reg} {s : State} (hK : Quiet q s) : QuietA q (execMulh
    c wd wa wb s) := by
  unfold execMulh
  with_reducible repeat' (first | assumption | apply alu2_quiet)

theorem execMulhu_quiet {c : CoreId} {wd : Reg} {wa : Reg} {wb : Reg} {s : State} (hK : Quiet q s) : QuietA q
    (execMulhu c wd wa wb s) := by
  unfold execMulhu
  with_reducible repeat' (first | assumption | apply alu2_quiet)

theorem execDiv_quiet {c : CoreId} {wd : Reg} {wa : Reg} {wb : Reg} {s : State} (hK : Quiet q s) : QuietA q (execDiv c
    wd wa wb s) := by
  unfold execDiv
  with_reducible repeat' (first | assumption | apply alu2_quiet)

theorem execDivu_quiet {c : CoreId} {wd : Reg} {wa : Reg} {wb : Reg} {s : State} (hK : Quiet q s) : QuietA q (execDivu
    c wd wa wb s) := by
  unfold execDivu
  with_reducible repeat' (first | assumption | apply alu2_quiet)

theorem execRem_quiet {c : CoreId} {wd : Reg} {wa : Reg} {wb : Reg} {s : State} (hK : Quiet q s) : QuietA q (execRem c
    wd wa wb s) := by
  unfold execRem
  with_reducible repeat' (first | assumption | apply alu2_quiet)

theorem execRemu_quiet {c : CoreId} {wd : Reg} {wa : Reg} {wb : Reg} {s : State} (hK : Quiet q s) : QuietA q (execRemu
    c wd wa wb s) := by
  unfold execRemu
  with_reducible repeat' (first | assumption | apply alu2_quiet)

theorem execNprm_quiet {c : CoreId} {wd : Reg} {wa : Reg} {wb : Reg} {s : State} (hK : Quiet q s) : QuietA q (execNprm
    c wd wa wb s) := by
  unfold execNprm
  with_reducible repeat' (first | assumption | apply alu2_quiet)

theorem execClz_quiet {c : CoreId} {wd : Reg} {wa : Reg} {s : State} (hK : Quiet q s) : QuietA q (execClz c wd wa s) := by
  unfold execClz
  with_reducible repeat' (first | assumption | apply alu1_quiet)

theorem execCtz_quiet {c : CoreId} {wd : Reg} {wa : Reg} {s : State} (hK : Quiet q s) : QuietA q (execCtz c wd wa s) := by
  unfold execCtz
  with_reducible repeat' (first | assumption | apply alu1_quiet)

theorem execPopc_quiet {c : CoreId} {wd : Reg} {wa : Reg} {s : State} (hK : Quiet q s) : QuietA q (execPopc c wd wa s) := by
  unfold execPopc
  with_reducible repeat' (first | assumption | apply alu1_quiet)

theorem execOpk_quiet {c : CoreId} {wd : Reg} {wa : Reg} {s : State} (hK : Quiet q s) : QuietA q (execOpk c wd wa s) := by
  unfold execOpk
  with_reducible repeat' (first | assumption | apply alu1_quiet)

theorem execOpkl_quiet {c : CoreId} {wd : Reg} {wa : Reg} {s : State} (hK : Quiet q s) : QuietA q (execOpkl c wd wa s) := by
  unfold execOpkl
  with_reducible repeat' (first | assumption | apply alu1_quiet)

theorem execOupk_quiet {c : CoreId} {wd : Reg} {wa : Reg} {s : State} (hK : Quiet q s) : QuietA q (execOupk c wd wa s) := by
  unfold execOupk
  with_reducible repeat' (first | assumption | apply alu1_quiet)

theorem execOupkl_quiet {c : CoreId} {wd : Reg} {wa : Reg} {s : State} (hK : Quiet q s) : QuietA q (execOupkl c wd wa
    s) := by
  unfold execOupkl
  with_reducible repeat' (first | assumption | apply alu1_quiet)

theorem execAddi_quiet {c : CoreId} {wd : Reg} {wa : Reg} {imm : BitVec 18} {s : State} (hK : Quiet q s) : QuietA q
    (execAddi c wd wa imm s) := by
  unfold execAddi
  with_reducible repeat' (first | assumption | apply alu1_quiet)

theorem execSubi_quiet {c : CoreId} {wd : Reg} {wa : Reg} {imm : BitVec 18} {s : State} (hK : Quiet q s) : QuietA q
    (execSubi c wd wa imm s) := by
  unfold execSubi
  with_reducible repeat' (first | assumption | apply alu1_quiet)

theorem execAndi_quiet {c : CoreId} {wd : Reg} {wa : Reg} {imm : BitVec 18} {s : State} (hK : Quiet q s) : QuietA q
    (execAndi c wd wa imm s) := by
  unfold execAndi
  with_reducible repeat' (first | assumption | apply alu1_quiet)

theorem execOri_quiet {c : CoreId} {wd : Reg} {wa : Reg} {imm : BitVec 18} {s : State} (hK : Quiet q s) : QuietA q
    (execOri c wd wa imm s) := by
  unfold execOri
  with_reducible repeat' (first | assumption | apply alu1_quiet)

theorem execXori_quiet {c : CoreId} {wd : Reg} {wa : Reg} {imm : BitVec 18} {s : State} (hK : Quiet q s) : QuietA q
    (execXori c wd wa imm s) := by
  unfold execXori
  with_reducible repeat' (first | assumption | apply alu1_quiet)

theorem execShi_quiet {c : CoreId} {wd : Reg} {wa : Reg} {imm : BitVec 18} {s : State} (hK : Quiet q s) : QuietA q
    (execShi c wd wa imm s) := by
  unfold execShi
  with_reducible repeat' (first | assumption | apply alu1_quiet)

theorem execNprmi_quiet {c : CoreId} {wd : Reg} {wa : Reg} {imm : BitVec 18} {s : State} (hK : Quiet q s) : QuietA q
    (execNprmi c wd wa imm s) := by
  unfold execNprmi
  with_reducible repeat' (first | assumption | apply alu1_quiet)

theorem execLui_quiet {c : CoreId} {wd : Reg} {imm : BitVec 18} {s : State} (hK : Quiet q s) : QuietA q (execLui c wd
    imm s) := by
  unfold execLui
  with_reducible repeat' (first | assumption | apply alu1_quiet)

theorem execBfx_quiet {c : CoreId} {wd : Reg} {wa : Reg} {pos : BitVec 6} {len : BitVec 6} {s : State} (hK : Quiet q
    s) : QuietA q (execBfx c wd wa pos len s) := by
  unfold execBfx
  with_reducible repeat' (first | assumption | apply alu1_quiet)

theorem execBfxs_quiet {c : CoreId} {wd : Reg} {wa : Reg} {pos : BitVec 6} {len : BitVec 6} {s : State} (hK : Quiet q
    s) : QuietA q (execBfxs c wd wa pos len s) := by
  unfold execBfxs
  with_reducible repeat' (first | assumption | apply alu1_quiet)

theorem execBfi_quiet {c : CoreId} {wd : Reg} {wa : Reg} {pos : BitVec 6} {len : BitVec 6} {s : State} (hK : Quiet q
    s) : QuietA q (execBfi c wd wa pos len s) := by
  unfold execBfi
  with_reducible repeat' (first | assumption | apply alu1_quiet)

/-- A wake by any source but the real-time clock. -/
theorem execWakeDetect_quiet {s : State} {src : Fin 9} (hs : src.val ≠ 5) (hK : Quiet q s) : QuietA q (execWakeDetect src s) := by
  unfold execWakeDetect
  rw [if_neg hs]
  exact QuietA.next (Quiet.when hK fun _ h => wakeDetect_quiet h)

end Sys2Proof.Laws
end

