-- ==== Sys2Proof/Laws/State.lean ====
section
/-! SUPPORT. What each named update of one field leaves: every other field, by definition. -/

namespace Sys2Proof.Machine

variable (s : State)

section
variable (a : Nat) (m : Word)
@[simp] theorem State.mark_now : (s.mark a m).now = s.now := rfl
@[simp] theorem State.mark_tbRun : (s.mark a m).tbRun = s.tbRun := rfl
@[simp] theorem State.mark_tbRec : (s.mark a m).tbRec = s.tbRec := rfl
@[simp] theorem State.mark_rtcN : (s.mark a m).rtcN = s.rtcN := rfl
@[simp] theorem State.mark_regs : (s.mark a m).regs = s.regs := rfl
@[simp] theorem State.mark_copies : (s.mark a m).copies = s.copies := rfl
@[simp] theorem State.mark_mem : (s.mark a m).mem = s.mem := rfl
@[simp] theorem State.mark_posted : (s.mark a m).posted = s.posted := rfl
@[simp] theorem State.mark_aonPend : (s.mark a m).aonPend = s.aonPend := rfl
@[simp] theorem State.mark_rej : (s.mark a m).rej = s.rej := rfl
@[simp] theorem State.mark_warmDue : (s.mark a m).warmDue = s.warmDue := rfl
@[simp] theorem State.mark_folio : (s.mark a m).folio = s.folio := rfl
@[simp] theorem State.mark_ecr : (s.mark a m).ecr = s.ecr := rfl
@[simp] theorem State.mark_boot : (s.mark a m).boot = s.boot := rfl
@[simp] theorem State.mark_upd : (s.mark a m).upd = s.upd := rfl
@[simp] theorem State.mark_nvRow : (s.mark a m).nvRow = s.nvRow := rfl
@[simp] theorem State.mark_rcv : (s.mark a m).rcv = s.rcv := rfl
@[simp] theorem State.mark_pwr : (s.mark a m).pwr = s.pwr := rfl
@[simp] theorem State.mark_safe : (s.mark a m).safe = s.safe := rfl
@[simp] theorem State.mark_chans : (s.mark a m).chans = s.chans := rfl
@[simp] theorem State.mark_beat : (s.mark a m).beat = s.beat := rfl
@[simp] theorem State.mark_mots : (s.mark a m).mots = s.mots := rfl
@[simp] theorem State.mark_stks : (s.mark a m).stks = s.stks := rfl
@[simp] theorem State.mark_light : (s.mark a m).light = s.light := rfl
@[simp] theorem State.mark_flights : (s.mark a m).flights = s.flights := rfl
@[simp] theorem State.mark_tmrs : (s.mark a m).tmrs = s.tmrs := rfl
@[simp] theorem State.mark_prescale : (s.mark a m).prescale = s.prescale := rfl
@[simp] theorem State.mark_inp : (s.mark a m).inp = s.inp := rfl
@[simp] theorem State.mark_cans : (s.mark a m).cans = s.cans := rfl
@[simp] theorem State.mark_lins : (s.mark a m).lins = s.lins := rfl
@[simp] theorem State.mark_eths : (s.mark a m).eths = s.eths := rfl
@[simp] theorem State.mark_nmgs : (s.mark a m).nmgs = s.nmgs := rfl
@[simp] theorem State.mark_ring : (s.mark a m).ring = s.ring := rfl
@[simp] theorem State.mark_vault : (s.mark a m).vault = s.vault := rfl
@[simp] theorem State.mark_acc : (s.mark a m).acc = s.acc := rfl
@[simp] theorem State.mark_cores : (s.mark a m).cores = s.cores := rfl
@[simp] theorem State.mark_icu : (s.mark a m).icu = s.icu := rfl
@[simp] theorem State.mark_ending : (s.mark a m).ending = s.ending := rfl
@[simp] theorem State.mark_fresh : (s.mark a m).fresh = s.fresh := rfl
@[simp] theorem State.mark_pending : (s.mark a m).pending = s.pending := rfl
end

section
variable (a : Nat) (v : Word)
@[simp] theorem State.wr_now : (s.wr a v).now = s.now := rfl
@[simp] theorem State.wr_tbRun : (s.wr a v).tbRun = s.tbRun := rfl
@[simp] theorem State.wr_tbRec : (s.wr a v).tbRec = s.tbRec := rfl
@[simp] theorem State.wr_rtcN : (s.wr a v).rtcN = s.rtcN := rfl
@[simp] theorem State.wr_copies : (s.wr a v).copies = s.copies := rfl
@[simp] theorem State.wr_mem : (s.wr a v).mem = s.mem := rfl
@[simp] theorem State.wr_posted : (s.wr a v).posted = s.posted := rfl
@[simp] theorem State.wr_aonPend : (s.wr a v).aonPend = s.aonPend := rfl
@[simp] theorem State.wr_rej : (s.wr a v).rej = s.rej := rfl
@[simp] theorem State.wr_warmDue : (s.wr a v).warmDue = s.warmDue := rfl
@[simp] theorem State.wr_folio : (s.wr a v).folio = s.folio := rfl
@[simp] theorem State.wr_ecr : (s.wr a v).ecr = s.ecr := rfl
@[simp] theorem State.wr_boot : (s.wr a v).boot = s.boot := rfl
@[simp] theorem State.wr_upd : (s.wr a v).upd = s.upd := rfl
@[simp] theorem State.wr_nvRow : (s.wr a v).nvRow = s.nvRow := rfl
@[simp] theorem State.wr_rcv : (s.wr a v).rcv = s.rcv := rfl
@[simp] theorem State.wr_pwr : (s.wr a v).pwr = s.pwr := rfl
@[simp] theorem State.wr_safe : (s.wr a v).safe = s.safe := rfl
@[simp] theorem State.wr_chans : (s.wr a v).chans = s.chans := rfl
@[simp] theorem State.wr_beat : (s.wr a v).beat = s.beat := rfl
@[simp] theorem State.wr_mots : (s.wr a v).mots = s.mots := rfl
@[simp] theorem State.wr_stks : (s.wr a v).stks = s.stks := rfl
@[simp] theorem State.wr_light : (s.wr a v).light = s.light := rfl
@[simp] theorem State.wr_flights : (s.wr a v).flights = s.flights := rfl
@[simp] theorem State.wr_tmrs : (s.wr a v).tmrs = s.tmrs := rfl
@[simp] theorem State.wr_prescale : (s.wr a v).prescale = s.prescale := rfl
@[simp] theorem State.wr_inp : (s.wr a v).inp = s.inp := rfl
@[simp] theorem State.wr_cans : (s.wr a v).cans = s.cans := rfl
@[simp] theorem State.wr_lins : (s.wr a v).lins = s.lins := rfl
@[simp] theorem State.wr_eths : (s.wr a v).eths = s.eths := rfl
@[simp] theorem State.wr_nmgs : (s.wr a v).nmgs = s.nmgs := rfl
@[simp] theorem State.wr_ring : (s.wr a v).ring = s.ring := rfl
@[simp] theorem State.wr_vault : (s.wr a v).vault = s.vault := rfl
@[simp] theorem State.wr_acc : (s.wr a v).acc = s.acc := rfl
@[simp] theorem State.wr_cores : (s.wr a v).cores = s.cores := rfl
@[simp] theorem State.wr_icu : (s.wr a v).icu = s.icu := rfl
@[simp] theorem State.wr_edge : (s.wr a v).edge = s.edge := rfl
@[simp] theorem State.wr_ending : (s.wr a v).ending = s.ending := rfl
@[simp] theorem State.wr_fresh : (s.wr a v).fresh = s.fresh := rfl
@[simp] theorem State.wr_pending : (s.wr a v).pending = s.pending := rfl
end

section
variable (b : Nat) (f : Fld) (x : Nat)
@[simp] theorem State.put_now : (s.put b f x).now = s.now := rfl
@[simp] theorem State.put_tbRun : (s.put b f x).tbRun = s.tbRun := rfl
@[simp] theorem State.put_tbRec : (s.put b f x).tbRec = s.tbRec := rfl
@[simp] theorem State.put_rtcN : (s.put b f x).rtcN = s.rtcN := rfl
@[simp] theorem State.put_copies : (s.put b f x).copies = s.copies := rfl
@[simp] theorem State.put_mem : (s.put b f x).mem = s.mem := rfl
@[simp] theorem State.put_posted : (s.put b f x).posted = s.posted := rfl
@[simp] theorem State.put_aonPend : (s.put b f x).aonPend = s.aonPend := rfl
@[simp] theorem State.put_rej : (s.put b f x).rej = s.rej := rfl
@[simp] theorem State.put_warmDue : (s.put b f x).warmDue = s.warmDue := rfl
@[simp] theorem State.put_folio : (s.put b f x).folio = s.folio := rfl
@[simp] theorem State.put_ecr : (s.put b f x).ecr = s.ecr := rfl
@[simp] theorem State.put_boot : (s.put b f x).boot = s.boot := rfl
@[simp] theorem State.put_upd : (s.put b f x).upd = s.upd := rfl
@[simp] theorem State.put_nvRow : (s.put b f x).nvRow = s.nvRow := rfl
@[simp] theorem State.put_rcv : (s.put b f x).rcv = s.rcv := rfl
@[simp] theorem State.put_pwr : (s.put b f x).pwr = s.pwr := rfl
@[simp] theorem State.put_safe : (s.put b f x).safe = s.safe := rfl
@[simp] theorem State.put_chans : (s.put b f x).chans = s.chans := rfl
@[simp] theorem State.put_beat : (s.put b f x).beat = s.beat := rfl
@[simp] theorem State.put_mots : (s.put b f x).mots = s.mots := rfl
@[simp] theorem State.put_stks : (s.put b f x).stks = s.stks := rfl
@[simp] theorem State.put_light : (s.put b f x).light = s.light := rfl
@[simp] theorem State.put_flights : (s.put b f x).flights = s.flights := rfl
@[simp] theorem State.put_tmrs : (s.put b f x).tmrs = s.tmrs := rfl
@[simp] theorem State.put_prescale : (s.put b f x).prescale = s.prescale := rfl
@[simp] theorem State.put_inp : (s.put b f x).inp = s.inp := rfl
@[simp] theorem State.put_cans : (s.put b f x).cans = s.cans := rfl
@[simp] theorem State.put_lins : (s.put b f x).lins = s.lins := rfl
@[simp] theorem State.put_eths : (s.put b f x).eths = s.eths := rfl
@[simp] theorem State.put_nmgs : (s.put b f x).nmgs = s.nmgs := rfl
@[simp] theorem State.put_ring : (s.put b f x).ring = s.ring := rfl
@[simp] theorem State.put_vault : (s.put b f x).vault = s.vault := rfl
@[simp] theorem State.put_acc : (s.put b f x).acc = s.acc := rfl
@[simp] theorem State.put_cores : (s.put b f x).cores = s.cores := rfl
@[simp] theorem State.put_icu : (s.put b f x).icu = s.icu := rfl
@[simp] theorem State.put_ending : (s.put b f x).ending = s.ending := rfl
@[simp] theorem State.put_fresh : (s.put b f x).fresh = s.fresh := rfl
@[simp] theorem State.put_pending : (s.put b f x).pending = s.pending := rfl
end

section
variable (a i : Nat)
@[simp] theorem State.raise_now : (s.raise a i).now = s.now := rfl
@[simp] theorem State.raise_tbRun : (s.raise a i).tbRun = s.tbRun := rfl
@[simp] theorem State.raise_tbRec : (s.raise a i).tbRec = s.tbRec := rfl
@[simp] theorem State.raise_rtcN : (s.raise a i).rtcN = s.rtcN := rfl
@[simp] theorem State.raise_copies : (s.raise a i).copies = s.copies := rfl
@[simp] theorem State.raise_mem : (s.raise a i).mem = s.mem := rfl
@[simp] theorem State.raise_posted : (s.raise a i).posted = s.posted := rfl
@[simp] theorem State.raise_aonPend : (s.raise a i).aonPend = s.aonPend := rfl
@[simp] theorem State.raise_rej : (s.raise a i).rej = s.rej := rfl
@[simp] theorem State.raise_warmDue : (s.raise a i).warmDue = s.warmDue := rfl
@[simp] theorem State.raise_folio : (s.raise a i).folio = s.folio := rfl
@[simp] theorem State.raise_ecr : (s.raise a i).ecr = s.ecr := rfl
@[simp] theorem State.raise_boot : (s.raise a i).boot = s.boot := rfl
@[simp] theorem State.raise_upd : (s.raise a i).upd = s.upd := rfl
@[simp] theorem State.raise_nvRow : (s.raise a i).nvRow = s.nvRow := rfl
@[simp] theorem State.raise_rcv : (s.raise a i).rcv = s.rcv := rfl
@[simp] theorem State.raise_pwr : (s.raise a i).pwr = s.pwr := rfl
@[simp] theorem State.raise_safe : (s.raise a i).safe = s.safe := rfl
@[simp] theorem State.raise_chans : (s.raise a i).chans = s.chans := rfl
@[simp] theorem State.raise_beat : (s.raise a i).beat = s.beat := rfl
@[simp] theorem State.raise_mots : (s.raise a i).mots = s.mots := rfl
@[simp] theorem State.raise_stks : (s.raise a i).stks = s.stks := rfl
@[simp] theorem State.raise_light : (s.raise a i).light = s.light := rfl
@[simp] theorem State.raise_flights : (s.raise a i).flights = s.flights := rfl
@[simp] theorem State.raise_tmrs : (s.raise a i).tmrs = s.tmrs := rfl
@[simp] theorem State.raise_prescale : (s.raise a i).prescale = s.prescale := rfl
@[simp] theorem State.raise_inp : (s.raise a i).inp = s.inp := rfl
@[simp] theorem State.raise_cans : (s.raise a i).cans = s.cans := rfl
@[simp] theorem State.raise_lins : (s.raise a i).lins = s.lins := rfl
@[simp] theorem State.raise_eths : (s.raise a i).eths = s.eths := rfl
@[simp] theorem State.raise_nmgs : (s.raise a i).nmgs = s.nmgs := rfl
@[simp] theorem State.raise_ring : (s.raise a i).ring = s.ring := rfl
@[simp] theorem State.raise_vault : (s.raise a i).vault = s.vault := rfl
@[simp] theorem State.raise_acc : (s.raise a i).acc = s.acc := rfl
@[simp] theorem State.raise_cores : (s.raise a i).cores = s.cores := rfl
@[simp] theorem State.raise_icu : (s.raise a i).icu = s.icu := rfl
@[simp] theorem State.raise_ending : (s.raise a i).ending = s.ending := rfl
@[simp] theorem State.raise_fresh : (s.raise a i).fresh = s.fresh := rfl
@[simp] theorem State.raise_pending : (s.raise a i).pending = s.pending := rfl
end

section
@[simp] theorem State.refresh_now : (s.refresh).now = s.now := rfl
@[simp] theorem State.refresh_tbRun : (s.refresh).tbRun = s.tbRun := rfl
@[simp] theorem State.refresh_tbRec : (s.refresh).tbRec = s.tbRec := rfl
@[simp] theorem State.refresh_rtcN : (s.refresh).rtcN = s.rtcN := rfl
@[simp] theorem State.refresh_regs : (s.refresh).regs = s.regs := rfl
@[simp] theorem State.refresh_mem : (s.refresh).mem = s.mem := rfl
@[simp] theorem State.refresh_posted : (s.refresh).posted = s.posted := rfl
@[simp] theorem State.refresh_aonPend : (s.refresh).aonPend = s.aonPend := rfl
@[simp] theorem State.refresh_rej : (s.refresh).rej = s.rej := rfl
@[simp] theorem State.refresh_warmDue : (s.refresh).warmDue = s.warmDue := rfl
@[simp] theorem State.refresh_folio : (s.refresh).folio = s.folio := rfl
@[simp] theorem State.refresh_ecr : (s.refresh).ecr = s.ecr := rfl
@[simp] theorem State.refresh_boot : (s.refresh).boot = s.boot := rfl
@[simp] theorem State.refresh_upd : (s.refresh).upd = s.upd := rfl
@[simp] theorem State.refresh_nvRow : (s.refresh).nvRow = s.nvRow := rfl
@[simp] theorem State.refresh_rcv : (s.refresh).rcv = s.rcv := rfl
@[simp] theorem State.refresh_pwr : (s.refresh).pwr = s.pwr := rfl
@[simp] theorem State.refresh_safe : (s.refresh).safe = s.safe := rfl
@[simp] theorem State.refresh_chans : (s.refresh).chans = s.chans := rfl
@[simp] theorem State.refresh_beat : (s.refresh).beat = s.beat := rfl
@[simp] theorem State.refresh_mots : (s.refresh).mots = s.mots := rfl
@[simp] theorem State.refresh_stks : (s.refresh).stks = s.stks := rfl
@[simp] theorem State.refresh_light : (s.refresh).light = s.light := rfl
@[simp] theorem State.refresh_flights : (s.refresh).flights = s.flights := rfl
@[simp] theorem State.refresh_tmrs : (s.refresh).tmrs = s.tmrs := rfl
@[simp] theorem State.refresh_prescale : (s.refresh).prescale = s.prescale := rfl
@[simp] theorem State.refresh_inp : (s.refresh).inp = s.inp := rfl
@[simp] theorem State.refresh_cans : (s.refresh).cans = s.cans := rfl
@[simp] theorem State.refresh_lins : (s.refresh).lins = s.lins := rfl
@[simp] theorem State.refresh_eths : (s.refresh).eths = s.eths := rfl
@[simp] theorem State.refresh_nmgs : (s.refresh).nmgs = s.nmgs := rfl
@[simp] theorem State.refresh_ring : (s.refresh).ring = s.ring := rfl
@[simp] theorem State.refresh_vault : (s.refresh).vault = s.vault := rfl
@[simp] theorem State.refresh_acc : (s.refresh).acc = s.acc := rfl
@[simp] theorem State.refresh_cores : (s.refresh).cores = s.cores := rfl
@[simp] theorem State.refresh_icu : (s.refresh).icu = s.icu := rfl
@[simp] theorem State.refresh_edge : (s.refresh).edge = s.edge := rfl
@[simp] theorem State.refresh_ending : (s.refresh).ending = s.ending := rfl
@[simp] theorem State.refresh_fresh : (s.refresh).fresh = s.fresh := rfl
@[simp] theorem State.refresh_pending : (s.refresh).pending = s.pending := rfl
end

section
variable (a b : Nat)
@[simp] theorem State.resetRange_now : (s.resetRange a b).now = s.now := rfl
@[simp] theorem State.resetRange_tbRun : (s.resetRange a b).tbRun = s.tbRun := rfl
@[simp] theorem State.resetRange_tbRec : (s.resetRange a b).tbRec = s.tbRec := rfl
@[simp] theorem State.resetRange_rtcN : (s.resetRange a b).rtcN = s.rtcN := rfl
@[simp] theorem State.resetRange_copies : (s.resetRange a b).copies = s.copies := rfl
@[simp] theorem State.resetRange_mem : (s.resetRange a b).mem = s.mem := rfl
@[simp] theorem State.resetRange_posted : (s.resetRange a b).posted = s.posted := rfl
@[simp] theorem State.resetRange_aonPend : (s.resetRange a b).aonPend = s.aonPend := rfl
@[simp] theorem State.resetRange_rej : (s.resetRange a b).rej = s.rej := rfl
@[simp] theorem State.resetRange_warmDue : (s.resetRange a b).warmDue = s.warmDue := rfl
@[simp] theorem State.resetRange_folio : (s.resetRange a b).folio = s.folio := rfl
@[simp] theorem State.resetRange_ecr : (s.resetRange a b).ecr = s.ecr := rfl
@[simp] theorem State.resetRange_boot : (s.resetRange a b).boot = s.boot := rfl
@[simp] theorem State.resetRange_upd : (s.resetRange a b).upd = s.upd := rfl
@[simp] theorem State.resetRange_nvRow : (s.resetRange a b).nvRow = s.nvRow := rfl
@[simp] theorem State.resetRange_rcv : (s.resetRange a b).rcv = s.rcv := rfl
@[simp] theorem State.resetRange_pwr : (s.resetRange a b).pwr = s.pwr := rfl
@[simp] theorem State.resetRange_safe : (s.resetRange a b).safe = s.safe := rfl
@[simp] theorem State.resetRange_chans : (s.resetRange a b).chans = s.chans := rfl
@[simp] theorem State.resetRange_beat : (s.resetRange a b).beat = s.beat := rfl
@[simp] theorem State.resetRange_mots : (s.resetRange a b).mots = s.mots := rfl
@[simp] theorem State.resetRange_stks : (s.resetRange a b).stks = s.stks := rfl
@[simp] theorem State.resetRange_light : (s.resetRange a b).light = s.light := rfl
@[simp] theorem State.resetRange_flights : (s.resetRange a b).flights = s.flights := rfl
@[simp] theorem State.resetRange_tmrs : (s.resetRange a b).tmrs = s.tmrs := rfl
@[simp] theorem State.resetRange_prescale : (s.resetRange a b).prescale = s.prescale := rfl
@[simp] theorem State.resetRange_inp : (s.resetRange a b).inp = s.inp := rfl
@[simp] theorem State.resetRange_cans : (s.resetRange a b).cans = s.cans := rfl
@[simp] theorem State.resetRange_lins : (s.resetRange a b).lins = s.lins := rfl
@[simp] theorem State.resetRange_eths : (s.resetRange a b).eths = s.eths := rfl
@[simp] theorem State.resetRange_nmgs : (s.resetRange a b).nmgs = s.nmgs := rfl
@[simp] theorem State.resetRange_ring : (s.resetRange a b).ring = s.ring := rfl
@[simp] theorem State.resetRange_vault : (s.resetRange a b).vault = s.vault := rfl
@[simp] theorem State.resetRange_acc : (s.resetRange a b).acc = s.acc := rfl
@[simp] theorem State.resetRange_cores : (s.resetRange a b).cores = s.cores := rfl
@[simp] theorem State.resetRange_icu : (s.resetRange a b).icu = s.icu := rfl
@[simp] theorem State.resetRange_edge : (s.resetRange a b).edge = s.edge := rfl
@[simp] theorem State.resetRange_ending : (s.resetRange a b).ending = s.ending := rfl
@[simp] theorem State.resetRange_fresh : (s.resetRange a b).fresh = s.fresh := rfl
@[simp] theorem State.resetRange_pending : (s.resetRange a b).pending = s.pending := rfl
end

section
variable (a : Nat) (v : Nib)
@[simp] theorem State.putNib_now : (s.putNib a v).now = s.now := rfl
@[simp] theorem State.putNib_tbRun : (s.putNib a v).tbRun = s.tbRun := rfl
@[simp] theorem State.putNib_tbRec : (s.putNib a v).tbRec = s.tbRec := rfl
@[simp] theorem State.putNib_rtcN : (s.putNib a v).rtcN = s.rtcN := rfl
@[simp] theorem State.putNib_regs : (s.putNib a v).regs = s.regs := rfl
@[simp] theorem State.putNib_copies : (s.putNib a v).copies = s.copies := rfl
@[simp] theorem State.putNib_posted : (s.putNib a v).posted = s.posted := rfl
@[simp] theorem State.putNib_aonPend : (s.putNib a v).aonPend = s.aonPend := rfl
@[simp] theorem State.putNib_rej : (s.putNib a v).rej = s.rej := rfl
@[simp] theorem State.putNib_warmDue : (s.putNib a v).warmDue = s.warmDue := rfl
@[simp] theorem State.putNib_folio : (s.putNib a v).folio = s.folio := rfl
@[simp] theorem State.putNib_ecr : (s.putNib a v).ecr = s.ecr := rfl
@[simp] theorem State.putNib_boot : (s.putNib a v).boot = s.boot := rfl
@[simp] theorem State.putNib_upd : (s.putNib a v).upd = s.upd := rfl
@[simp] theorem State.putNib_nvRow : (s.putNib a v).nvRow = s.nvRow := rfl
@[simp] theorem State.putNib_rcv : (s.putNib a v).rcv = s.rcv := rfl
@[simp] theorem State.putNib_pwr : (s.putNib a v).pwr = s.pwr := rfl
@[simp] theorem State.putNib_safe : (s.putNib a v).safe = s.safe := rfl
@[simp] theorem State.putNib_chans : (s.putNib a v).chans = s.chans := rfl
@[simp] theorem State.putNib_beat : (s.putNib a v).beat = s.beat := rfl
@[simp] theorem State.putNib_mots : (s.putNib a v).mots = s.mots := rfl
@[simp] theorem State.putNib_stks : (s.putNib a v).stks = s.stks := rfl
@[simp] theorem State.putNib_light : (s.putNib a v).light = s.light := rfl
@[simp] theorem State.putNib_flights : (s.putNib a v).flights = s.flights := rfl
@[simp] theorem State.putNib_tmrs : (s.putNib a v).tmrs = s.tmrs := rfl
@[simp] theorem State.putNib_prescale : (s.putNib a v).prescale = s.prescale := rfl
@[simp] theorem State.putNib_inp : (s.putNib a v).inp = s.inp := rfl
@[simp] theorem State.putNib_cans : (s.putNib a v).cans = s.cans := rfl
@[simp] theorem State.putNib_lins : (s.putNib a v).lins = s.lins := rfl
@[simp] theorem State.putNib_eths : (s.putNib a v).eths = s.eths := rfl
@[simp] theorem State.putNib_nmgs : (s.putNib a v).nmgs = s.nmgs := rfl
@[simp] theorem State.putNib_ring : (s.putNib a v).ring = s.ring := rfl
@[simp] theorem State.putNib_vault : (s.putNib a v).vault = s.vault := rfl
@[simp] theorem State.putNib_acc : (s.putNib a v).acc = s.acc := rfl
@[simp] theorem State.putNib_cores : (s.putNib a v).cores = s.cores := rfl
@[simp] theorem State.putNib_icu : (s.putNib a v).icu = s.icu := rfl
@[simp] theorem State.putNib_edge : (s.putNib a v).edge = s.edge := rfl
@[simp] theorem State.putNib_ending : (s.putNib a v).ending = s.ending := rfl
@[simp] theorem State.putNib_fresh : (s.putNib a v).fresh = s.fresh := rfl
@[simp] theorem State.putNib_pending : (s.putNib a v).pending = s.pending := rfl
end

section
variable (a b : Nat)
@[simp] theorem State.clearMem_now : (s.clearMem a b).now = s.now := rfl
@[simp] theorem State.clearMem_tbRun : (s.clearMem a b).tbRun = s.tbRun := rfl
@[simp] theorem State.clearMem_tbRec : (s.clearMem a b).tbRec = s.tbRec := rfl
@[simp] theorem State.clearMem_rtcN : (s.clearMem a b).rtcN = s.rtcN := rfl
@[simp] theorem State.clearMem_regs : (s.clearMem a b).regs = s.regs := rfl
@[simp] theorem State.clearMem_copies : (s.clearMem a b).copies = s.copies := rfl
@[simp] theorem State.clearMem_posted : (s.clearMem a b).posted = s.posted := rfl
@[simp] theorem State.clearMem_aonPend : (s.clearMem a b).aonPend = s.aonPend := rfl
@[simp] theorem State.clearMem_rej : (s.clearMem a b).rej = s.rej := rfl
@[simp] theorem State.clearMem_warmDue : (s.clearMem a b).warmDue = s.warmDue := rfl
@[simp] theorem State.clearMem_folio : (s.clearMem a b).folio = s.folio := rfl
@[simp] theorem State.clearMem_ecr : (s.clearMem a b).ecr = s.ecr := rfl
@[simp] theorem State.clearMem_boot : (s.clearMem a b).boot = s.boot := rfl
@[simp] theorem State.clearMem_upd : (s.clearMem a b).upd = s.upd := rfl
@[simp] theorem State.clearMem_nvRow : (s.clearMem a b).nvRow = s.nvRow := rfl
@[simp] theorem State.clearMem_rcv : (s.clearMem a b).rcv = s.rcv := rfl
@[simp] theorem State.clearMem_pwr : (s.clearMem a b).pwr = s.pwr := rfl
@[simp] theorem State.clearMem_safe : (s.clearMem a b).safe = s.safe := rfl
@[simp] theorem State.clearMem_chans : (s.clearMem a b).chans = s.chans := rfl
@[simp] theorem State.clearMem_beat : (s.clearMem a b).beat = s.beat := rfl
@[simp] theorem State.clearMem_mots : (s.clearMem a b).mots = s.mots := rfl
@[simp] theorem State.clearMem_stks : (s.clearMem a b).stks = s.stks := rfl
@[simp] theorem State.clearMem_light : (s.clearMem a b).light = s.light := rfl
@[simp] theorem State.clearMem_flights : (s.clearMem a b).flights = s.flights := rfl
@[simp] theorem State.clearMem_tmrs : (s.clearMem a b).tmrs = s.tmrs := rfl
@[simp] theorem State.clearMem_prescale : (s.clearMem a b).prescale = s.prescale := rfl
@[simp] theorem State.clearMem_inp : (s.clearMem a b).inp = s.inp := rfl
@[simp] theorem State.clearMem_cans : (s.clearMem a b).cans = s.cans := rfl
@[simp] theorem State.clearMem_lins : (s.clearMem a b).lins = s.lins := rfl
@[simp] theorem State.clearMem_eths : (s.clearMem a b).eths = s.eths := rfl
@[simp] theorem State.clearMem_nmgs : (s.clearMem a b).nmgs = s.nmgs := rfl
@[simp] theorem State.clearMem_ring : (s.clearMem a b).ring = s.ring := rfl
@[simp] theorem State.clearMem_vault : (s.clearMem a b).vault = s.vault := rfl
@[simp] theorem State.clearMem_acc : (s.clearMem a b).acc = s.acc := rfl
@[simp] theorem State.clearMem_cores : (s.clearMem a b).cores = s.cores := rfl
@[simp] theorem State.clearMem_icu : (s.clearMem a b).icu = s.icu := rfl
@[simp] theorem State.clearMem_edge : (s.clearMem a b).edge = s.edge := rfl
@[simp] theorem State.clearMem_ending : (s.clearMem a b).ending = s.ending := rfl
@[simp] theorem State.clearMem_fresh : (s.clearMem a b).fresh = s.fresh := rfl
@[simp] theorem State.clearMem_pending : (s.clearMem a b).pending = s.pending := rfl
end

section
@[simp] theorem State.drawn_now : (s.drawn).now = s.now := rfl
@[simp] theorem State.drawn_tbRun : (s.drawn).tbRun = s.tbRun := rfl
@[simp] theorem State.drawn_tbRec : (s.drawn).tbRec = s.tbRec := rfl
@[simp] theorem State.drawn_rtcN : (s.drawn).rtcN = s.rtcN := rfl
@[simp] theorem State.drawn_regs : (s.drawn).regs = s.regs := rfl
@[simp] theorem State.drawn_copies : (s.drawn).copies = s.copies := rfl
@[simp] theorem State.drawn_mem : (s.drawn).mem = s.mem := rfl
@[simp] theorem State.drawn_posted : (s.drawn).posted = s.posted := rfl
@[simp] theorem State.drawn_aonPend : (s.drawn).aonPend = s.aonPend := rfl
@[simp] theorem State.drawn_rej : (s.drawn).rej = s.rej := rfl
@[simp] theorem State.drawn_warmDue : (s.drawn).warmDue = s.warmDue := rfl
@[simp] theorem State.drawn_folio : (s.drawn).folio = s.folio := rfl
@[simp] theorem State.drawn_ecr : (s.drawn).ecr = s.ecr := rfl
@[simp] theorem State.drawn_boot : (s.drawn).boot = s.boot := rfl
@[simp] theorem State.drawn_upd : (s.drawn).upd = s.upd := rfl
@[simp] theorem State.drawn_nvRow : (s.drawn).nvRow = s.nvRow := rfl
@[simp] theorem State.drawn_rcv : (s.drawn).rcv = s.rcv := rfl
@[simp] theorem State.drawn_pwr : (s.drawn).pwr = s.pwr := rfl
@[simp] theorem State.drawn_safe : (s.drawn).safe = s.safe := rfl
@[simp] theorem State.drawn_chans : (s.drawn).chans = s.chans := rfl
@[simp] theorem State.drawn_beat : (s.drawn).beat = s.beat := rfl
@[simp] theorem State.drawn_mots : (s.drawn).mots = s.mots := rfl
@[simp] theorem State.drawn_stks : (s.drawn).stks = s.stks := rfl
@[simp] theorem State.drawn_light : (s.drawn).light = s.light := rfl
@[simp] theorem State.drawn_flights : (s.drawn).flights = s.flights := rfl
@[simp] theorem State.drawn_tmrs : (s.drawn).tmrs = s.tmrs := rfl
@[simp] theorem State.drawn_prescale : (s.drawn).prescale = s.prescale := rfl
@[simp] theorem State.drawn_inp : (s.drawn).inp = s.inp := rfl
@[simp] theorem State.drawn_cans : (s.drawn).cans = s.cans := rfl
@[simp] theorem State.drawn_lins : (s.drawn).lins = s.lins := rfl
@[simp] theorem State.drawn_eths : (s.drawn).eths = s.eths := rfl
@[simp] theorem State.drawn_nmgs : (s.drawn).nmgs = s.nmgs := rfl
@[simp] theorem State.drawn_ring : (s.drawn).ring = s.ring := rfl
@[simp] theorem State.drawn_vault : (s.drawn).vault = s.vault := rfl
@[simp] theorem State.drawn_acc : (s.drawn).acc = s.acc := rfl
@[simp] theorem State.drawn_cores : (s.drawn).cores = s.cores := rfl
@[simp] theorem State.drawn_icu : (s.drawn).icu = s.icu := rfl
@[simp] theorem State.drawn_edge : (s.drawn).edge = s.edge := rfl
@[simp] theorem State.drawn_ending : (s.drawn).ending = s.ending := rfl
@[simp] theorem State.drawn_pending : (s.drawn).pending = s.pending := rfl
end

section
variable (r : Nat)
@[simp] theorem State.setRej_now : (s.setRej r).now = s.now := rfl
@[simp] theorem State.setRej_tbRun : (s.setRej r).tbRun = s.tbRun := rfl
@[simp] theorem State.setRej_tbRec : (s.setRej r).tbRec = s.tbRec := rfl
@[simp] theorem State.setRej_rtcN : (s.setRej r).rtcN = s.rtcN := rfl
@[simp] theorem State.setRej_regs : (s.setRej r).regs = s.regs := rfl
@[simp] theorem State.setRej_copies : (s.setRej r).copies = s.copies := rfl
@[simp] theorem State.setRej_mem : (s.setRej r).mem = s.mem := rfl
@[simp] theorem State.setRej_posted : (s.setRej r).posted = s.posted := rfl
@[simp] theorem State.setRej_aonPend : (s.setRej r).aonPend = s.aonPend := rfl
@[simp] theorem State.setRej_warmDue : (s.setRej r).warmDue = s.warmDue := rfl
@[simp] theorem State.setRej_folio : (s.setRej r).folio = s.folio := rfl
@[simp] theorem State.setRej_ecr : (s.setRej r).ecr = s.ecr := rfl
@[simp] theorem State.setRej_boot : (s.setRej r).boot = s.boot := rfl
@[simp] theorem State.setRej_upd : (s.setRej r).upd = s.upd := rfl
@[simp] theorem State.setRej_nvRow : (s.setRej r).nvRow = s.nvRow := rfl
@[simp] theorem State.setRej_rcv : (s.setRej r).rcv = s.rcv := rfl
@[simp] theorem State.setRej_pwr : (s.setRej r).pwr = s.pwr := rfl
@[simp] theorem State.setRej_safe : (s.setRej r).safe = s.safe := rfl
@[simp] theorem State.setRej_chans : (s.setRej r).chans = s.chans := rfl
@[simp] theorem State.setRej_beat : (s.setRej r).beat = s.beat := rfl
@[simp] theorem State.setRej_mots : (s.setRej r).mots = s.mots := rfl
@[simp] theorem State.setRej_stks : (s.setRej r).stks = s.stks := rfl
@[simp] theorem State.setRej_light : (s.setRej r).light = s.light := rfl
@[simp] theorem State.setRej_flights : (s.setRej r).flights = s.flights := rfl
@[simp] theorem State.setRej_tmrs : (s.setRej r).tmrs = s.tmrs := rfl
@[simp] theorem State.setRej_prescale : (s.setRej r).prescale = s.prescale := rfl
@[simp] theorem State.setRej_inp : (s.setRej r).inp = s.inp := rfl
@[simp] theorem State.setRej_cans : (s.setRej r).cans = s.cans := rfl
@[simp] theorem State.setRej_lins : (s.setRej r).lins = s.lins := rfl
@[simp] theorem State.setRej_eths : (s.setRej r).eths = s.eths := rfl
@[simp] theorem State.setRej_nmgs : (s.setRej r).nmgs = s.nmgs := rfl
@[simp] theorem State.setRej_ring : (s.setRej r).ring = s.ring := rfl
@[simp] theorem State.setRej_vault : (s.setRej r).vault = s.vault := rfl
@[simp] theorem State.setRej_acc : (s.setRej r).acc = s.acc := rfl
@[simp] theorem State.setRej_cores : (s.setRej r).cores = s.cores := rfl
@[simp] theorem State.setRej_icu : (s.setRej r).icu = s.icu := rfl
@[simp] theorem State.setRej_edge : (s.setRej r).edge = s.edge := rfl
@[simp] theorem State.setRej_ending : (s.setRej r).ending = s.ending := rfl
@[simp] theorem State.setRej_fresh : (s.setRej r).fresh = s.fresh := rfl
@[simp] theorem State.setRej_pending : (s.setRej r).pending = s.pending := rfl
end

section
variable (r : Nat)
@[simp] theorem State.clearRej_now : (s.clearRej r).now = s.now := rfl
@[simp] theorem State.clearRej_tbRun : (s.clearRej r).tbRun = s.tbRun := rfl
@[simp] theorem State.clearRej_tbRec : (s.clearRej r).tbRec = s.tbRec := rfl
@[simp] theorem State.clearRej_rtcN : (s.clearRej r).rtcN = s.rtcN := rfl
@[simp] theorem State.clearRej_regs : (s.clearRej r).regs = s.regs := rfl
@[simp] theorem State.clearRej_copies : (s.clearRej r).copies = s.copies := rfl
@[simp] theorem State.clearRej_mem : (s.clearRej r).mem = s.mem := rfl
@[simp] theorem State.clearRej_posted : (s.clearRej r).posted = s.posted := rfl
@[simp] theorem State.clearRej_aonPend : (s.clearRej r).aonPend = s.aonPend := rfl
@[simp] theorem State.clearRej_warmDue : (s.clearRej r).warmDue = s.warmDue := rfl
@[simp] theorem State.clearRej_folio : (s.clearRej r).folio = s.folio := rfl
@[simp] theorem State.clearRej_ecr : (s.clearRej r).ecr = s.ecr := rfl
@[simp] theorem State.clearRej_boot : (s.clearRej r).boot = s.boot := rfl
@[simp] theorem State.clearRej_upd : (s.clearRej r).upd = s.upd := rfl
@[simp] theorem State.clearRej_nvRow : (s.clearRej r).nvRow = s.nvRow := rfl
@[simp] theorem State.clearRej_rcv : (s.clearRej r).rcv = s.rcv := rfl
@[simp] theorem State.clearRej_pwr : (s.clearRej r).pwr = s.pwr := rfl
@[simp] theorem State.clearRej_safe : (s.clearRej r).safe = s.safe := rfl
@[simp] theorem State.clearRej_chans : (s.clearRej r).chans = s.chans := rfl
@[simp] theorem State.clearRej_beat : (s.clearRej r).beat = s.beat := rfl
@[simp] theorem State.clearRej_mots : (s.clearRej r).mots = s.mots := rfl
@[simp] theorem State.clearRej_stks : (s.clearRej r).stks = s.stks := rfl
@[simp] theorem State.clearRej_light : (s.clearRej r).light = s.light := rfl
@[simp] theorem State.clearRej_flights : (s.clearRej r).flights = s.flights := rfl
@[simp] theorem State.clearRej_tmrs : (s.clearRej r).tmrs = s.tmrs := rfl
@[simp] theorem State.clearRej_prescale : (s.clearRej r).prescale = s.prescale := rfl
@[simp] theorem State.clearRej_inp : (s.clearRej r).inp = s.inp := rfl
@[simp] theorem State.clearRej_cans : (s.clearRej r).cans = s.cans := rfl
@[simp] theorem State.clearRej_lins : (s.clearRej r).lins = s.lins := rfl
@[simp] theorem State.clearRej_eths : (s.clearRej r).eths = s.eths := rfl
@[simp] theorem State.clearRej_nmgs : (s.clearRej r).nmgs = s.nmgs := rfl
@[simp] theorem State.clearRej_ring : (s.clearRej r).ring = s.ring := rfl
@[simp] theorem State.clearRej_vault : (s.clearRej r).vault = s.vault := rfl
@[simp] theorem State.clearRej_acc : (s.clearRej r).acc = s.acc := rfl
@[simp] theorem State.clearRej_cores : (s.clearRej r).cores = s.cores := rfl
@[simp] theorem State.clearRej_icu : (s.clearRej r).icu = s.icu := rfl
@[simp] theorem State.clearRej_edge : (s.clearRej r).edge = s.edge := rfl
@[simp] theorem State.clearRej_ending : (s.clearRej r).ending = s.ending := rfl
@[simp] theorem State.clearRej_fresh : (s.clearRej r).fresh = s.fresh := rfl
@[simp] theorem State.clearRej_pending : (s.clearRej r).pending = s.pending := rfl
end

section
variable (c : Nat) (g : Core → Core)
@[simp] theorem State.setCore_now : (s.setCore c g).now = s.now := rfl
@[simp] theorem State.setCore_tbRun : (s.setCore c g).tbRun = s.tbRun := rfl
@[simp] theorem State.setCore_tbRec : (s.setCore c g).tbRec = s.tbRec := rfl
@[simp] theorem State.setCore_rtcN : (s.setCore c g).rtcN = s.rtcN := rfl
@[simp] theorem State.setCore_regs : (s.setCore c g).regs = s.regs := rfl
@[simp] theorem State.setCore_copies : (s.setCore c g).copies = s.copies := rfl
@[simp] theorem State.setCore_mem : (s.setCore c g).mem = s.mem := rfl
@[simp] theorem State.setCore_posted : (s.setCore c g).posted = s.posted := rfl
@[simp] theorem State.setCore_aonPend : (s.setCore c g).aonPend = s.aonPend := rfl
@[simp] theorem State.setCore_rej : (s.setCore c g).rej = s.rej := rfl
@[simp] theorem State.setCore_warmDue : (s.setCore c g).warmDue = s.warmDue := rfl
@[simp] theorem State.setCore_folio : (s.setCore c g).folio = s.folio := rfl
@[simp] theorem State.setCore_ecr : (s.setCore c g).ecr = s.ecr := rfl
@[simp] theorem State.setCore_boot : (s.setCore c g).boot = s.boot := rfl
@[simp] theorem State.setCore_upd : (s.setCore c g).upd = s.upd := rfl
@[simp] theorem State.setCore_nvRow : (s.setCore c g).nvRow = s.nvRow := rfl
@[simp] theorem State.setCore_rcv : (s.setCore c g).rcv = s.rcv := rfl
@[simp] theorem State.setCore_pwr : (s.setCore c g).pwr = s.pwr := rfl
@[simp] theorem State.setCore_safe : (s.setCore c g).safe = s.safe := rfl
@[simp] theorem State.setCore_chans : (s.setCore c g).chans = s.chans := rfl
@[simp] theorem State.setCore_beat : (s.setCore c g).beat = s.beat := rfl
@[simp] theorem State.setCore_mots : (s.setCore c g).mots = s.mots := rfl
@[simp] theorem State.setCore_stks : (s.setCore c g).stks = s.stks := rfl
@[simp] theorem State.setCore_light : (s.setCore c g).light = s.light := rfl
@[simp] theorem State.setCore_flights : (s.setCore c g).flights = s.flights := rfl
@[simp] theorem State.setCore_tmrs : (s.setCore c g).tmrs = s.tmrs := rfl
@[simp] theorem State.setCore_prescale : (s.setCore c g).prescale = s.prescale := rfl
@[simp] theorem State.setCore_inp : (s.setCore c g).inp = s.inp := rfl
@[simp] theorem State.setCore_cans : (s.setCore c g).cans = s.cans := rfl
@[simp] theorem State.setCore_lins : (s.setCore c g).lins = s.lins := rfl
@[simp] theorem State.setCore_eths : (s.setCore c g).eths = s.eths := rfl
@[simp] theorem State.setCore_nmgs : (s.setCore c g).nmgs = s.nmgs := rfl
@[simp] theorem State.setCore_ring : (s.setCore c g).ring = s.ring := rfl
@[simp] theorem State.setCore_vault : (s.setCore c g).vault = s.vault := rfl
@[simp] theorem State.setCore_acc : (s.setCore c g).acc = s.acc := rfl
@[simp] theorem State.setCore_icu : (s.setCore c g).icu = s.icu := rfl
@[simp] theorem State.setCore_edge : (s.setCore c g).edge = s.edge := rfl
@[simp] theorem State.setCore_ending : (s.setCore c g).ending = s.ending := rfl
@[simp] theorem State.setCore_fresh : (s.setCore c g).fresh = s.fresh := rfl
@[simp] theorem State.setCore_pending : (s.setCore c g).pending = s.pending := rfl
end

section
variable (g : Core → Core)
@[simp] theorem State.mapCores_now : (s.mapCores g).now = s.now := rfl
@[simp] theorem State.mapCores_tbRun : (s.mapCores g).tbRun = s.tbRun := rfl
@[simp] theorem State.mapCores_tbRec : (s.mapCores g).tbRec = s.tbRec := rfl
@[simp] theorem State.mapCores_rtcN : (s.mapCores g).rtcN = s.rtcN := rfl
@[simp] theorem State.mapCores_regs : (s.mapCores g).regs = s.regs := rfl
@[simp] theorem State.mapCores_copies : (s.mapCores g).copies = s.copies := rfl
@[simp] theorem State.mapCores_mem : (s.mapCores g).mem = s.mem := rfl
@[simp] theorem State.mapCores_posted : (s.mapCores g).posted = s.posted := rfl
@[simp] theorem State.mapCores_aonPend : (s.mapCores g).aonPend = s.aonPend := rfl
@[simp] theorem State.mapCores_rej : (s.mapCores g).rej = s.rej := rfl
@[simp] theorem State.mapCores_warmDue : (s.mapCores g).warmDue = s.warmDue := rfl
@[simp] theorem State.mapCores_folio : (s.mapCores g).folio = s.folio := rfl
@[simp] theorem State.mapCores_ecr : (s.mapCores g).ecr = s.ecr := rfl
@[simp] theorem State.mapCores_boot : (s.mapCores g).boot = s.boot := rfl
@[simp] theorem State.mapCores_upd : (s.mapCores g).upd = s.upd := rfl
@[simp] theorem State.mapCores_nvRow : (s.mapCores g).nvRow = s.nvRow := rfl
@[simp] theorem State.mapCores_rcv : (s.mapCores g).rcv = s.rcv := rfl
@[simp] theorem State.mapCores_pwr : (s.mapCores g).pwr = s.pwr := rfl
@[simp] theorem State.mapCores_safe : (s.mapCores g).safe = s.safe := rfl
@[simp] theorem State.mapCores_chans : (s.mapCores g).chans = s.chans := rfl
@[simp] theorem State.mapCores_beat : (s.mapCores g).beat = s.beat := rfl
@[simp] theorem State.mapCores_mots : (s.mapCores g).mots = s.mots := rfl
@[simp] theorem State.mapCores_stks : (s.mapCores g).stks = s.stks := rfl
@[simp] theorem State.mapCores_light : (s.mapCores g).light = s.light := rfl
@[simp] theorem State.mapCores_flights : (s.mapCores g).flights = s.flights := rfl
@[simp] theorem State.mapCores_tmrs : (s.mapCores g).tmrs = s.tmrs := rfl
@[simp] theorem State.mapCores_prescale : (s.mapCores g).prescale = s.prescale := rfl
@[simp] theorem State.mapCores_inp : (s.mapCores g).inp = s.inp := rfl
@[simp] theorem State.mapCores_cans : (s.mapCores g).cans = s.cans := rfl
@[simp] theorem State.mapCores_lins : (s.mapCores g).lins = s.lins := rfl
@[simp] theorem State.mapCores_eths : (s.mapCores g).eths = s.eths := rfl
@[simp] theorem State.mapCores_nmgs : (s.mapCores g).nmgs = s.nmgs := rfl
@[simp] theorem State.mapCores_ring : (s.mapCores g).ring = s.ring := rfl
@[simp] theorem State.mapCores_vault : (s.mapCores g).vault = s.vault := rfl
@[simp] theorem State.mapCores_acc : (s.mapCores g).acc = s.acc := rfl
@[simp] theorem State.mapCores_icu : (s.mapCores g).icu = s.icu := rfl
@[simp] theorem State.mapCores_edge : (s.mapCores g).edge = s.edge := rfl
@[simp] theorem State.mapCores_ending : (s.mapCores g).ending = s.ending := rfl
@[simp] theorem State.mapCores_fresh : (s.mapCores g).fresh = s.fresh := rfl
@[simp] theorem State.mapCores_pending : (s.mapCores g).pending = s.pending := rfl
end

section
variable (n : Nat) (g : Chan → Chan)
@[simp] theorem State.setCh_now : (s.setCh n g).now = s.now := rfl
@[simp] theorem State.setCh_tbRun : (s.setCh n g).tbRun = s.tbRun := rfl
@[simp] theorem State.setCh_tbRec : (s.setCh n g).tbRec = s.tbRec := rfl
@[simp] theorem State.setCh_rtcN : (s.setCh n g).rtcN = s.rtcN := rfl
@[simp] theorem State.setCh_regs : (s.setCh n g).regs = s.regs := rfl
@[simp] theorem State.setCh_copies : (s.setCh n g).copies = s.copies := rfl
@[simp] theorem State.setCh_mem : (s.setCh n g).mem = s.mem := rfl
@[simp] theorem State.setCh_posted : (s.setCh n g).posted = s.posted := rfl
@[simp] theorem State.setCh_aonPend : (s.setCh n g).aonPend = s.aonPend := rfl
@[simp] theorem State.setCh_rej : (s.setCh n g).rej = s.rej := rfl
@[simp] theorem State.setCh_warmDue : (s.setCh n g).warmDue = s.warmDue := rfl
@[simp] theorem State.setCh_folio : (s.setCh n g).folio = s.folio := rfl
@[simp] theorem State.setCh_ecr : (s.setCh n g).ecr = s.ecr := rfl
@[simp] theorem State.setCh_boot : (s.setCh n g).boot = s.boot := rfl
@[simp] theorem State.setCh_upd : (s.setCh n g).upd = s.upd := rfl
@[simp] theorem State.setCh_nvRow : (s.setCh n g).nvRow = s.nvRow := rfl
@[simp] theorem State.setCh_rcv : (s.setCh n g).rcv = s.rcv := rfl
@[simp] theorem State.setCh_pwr : (s.setCh n g).pwr = s.pwr := rfl
@[simp] theorem State.setCh_safe : (s.setCh n g).safe = s.safe := rfl
@[simp] theorem State.setCh_beat : (s.setCh n g).beat = s.beat := rfl
@[simp] theorem State.setCh_mots : (s.setCh n g).mots = s.mots := rfl
@[simp] theorem State.setCh_stks : (s.setCh n g).stks = s.stks := rfl
@[simp] theorem State.setCh_light : (s.setCh n g).light = s.light := rfl
@[simp] theorem State.setCh_flights : (s.setCh n g).flights = s.flights := rfl
@[simp] theorem State.setCh_tmrs : (s.setCh n g).tmrs = s.tmrs := rfl
@[simp] theorem State.setCh_prescale : (s.setCh n g).prescale = s.prescale := rfl
@[simp] theorem State.setCh_inp : (s.setCh n g).inp = s.inp := rfl
@[simp] theorem State.setCh_cans : (s.setCh n g).cans = s.cans := rfl
@[simp] theorem State.setCh_lins : (s.setCh n g).lins = s.lins := rfl
@[simp] theorem State.setCh_eths : (s.setCh n g).eths = s.eths := rfl
@[simp] theorem State.setCh_nmgs : (s.setCh n g).nmgs = s.nmgs := rfl
@[simp] theorem State.setCh_ring : (s.setCh n g).ring = s.ring := rfl
@[simp] theorem State.setCh_vault : (s.setCh n g).vault = s.vault := rfl
@[simp] theorem State.setCh_acc : (s.setCh n g).acc = s.acc := rfl
@[simp] theorem State.setCh_cores : (s.setCh n g).cores = s.cores := rfl
@[simp] theorem State.setCh_icu : (s.setCh n g).icu = s.icu := rfl
@[simp] theorem State.setCh_edge : (s.setCh n g).edge = s.edge := rfl
@[simp] theorem State.setCh_ending : (s.setCh n g).ending = s.ending := rfl
@[simp] theorem State.setCh_fresh : (s.setCh n g).fresh = s.fresh := rfl
@[simp] theorem State.setCh_pending : (s.setCh n g).pending = s.pending := rfl
end

section
variable (n : Nat) (g : Mot → Mot)
@[simp] theorem State.setMo_now : (s.setMo n g).now = s.now := rfl
@[simp] theorem State.setMo_tbRun : (s.setMo n g).tbRun = s.tbRun := rfl
@[simp] theorem State.setMo_tbRec : (s.setMo n g).tbRec = s.tbRec := rfl
@[simp] theorem State.setMo_rtcN : (s.setMo n g).rtcN = s.rtcN := rfl
@[simp] theorem State.setMo_regs : (s.setMo n g).regs = s.regs := rfl
@[simp] theorem State.setMo_copies : (s.setMo n g).copies = s.copies := rfl
@[simp] theorem State.setMo_mem : (s.setMo n g).mem = s.mem := rfl
@[simp] theorem State.setMo_posted : (s.setMo n g).posted = s.posted := rfl
@[simp] theorem State.setMo_aonPend : (s.setMo n g).aonPend = s.aonPend := rfl
@[simp] theorem State.setMo_rej : (s.setMo n g).rej = s.rej := rfl
@[simp] theorem State.setMo_warmDue : (s.setMo n g).warmDue = s.warmDue := rfl
@[simp] theorem State.setMo_folio : (s.setMo n g).folio = s.folio := rfl
@[simp] theorem State.setMo_ecr : (s.setMo n g).ecr = s.ecr := rfl
@[simp] theorem State.setMo_boot : (s.setMo n g).boot = s.boot := rfl
@[simp] theorem State.setMo_upd : (s.setMo n g).upd = s.upd := rfl
@[simp] theorem State.setMo_nvRow : (s.setMo n g).nvRow = s.nvRow := rfl
@[simp] theorem State.setMo_rcv : (s.setMo n g).rcv = s.rcv := rfl
@[simp] theorem State.setMo_pwr : (s.setMo n g).pwr = s.pwr := rfl
@[simp] theorem State.setMo_safe : (s.setMo n g).safe = s.safe := rfl
@[simp] theorem State.setMo_chans : (s.setMo n g).chans = s.chans := rfl
@[simp] theorem State.setMo_beat : (s.setMo n g).beat = s.beat := rfl
@[simp] theorem State.setMo_stks : (s.setMo n g).stks = s.stks := rfl
@[simp] theorem State.setMo_light : (s.setMo n g).light = s.light := rfl
@[simp] theorem State.setMo_flights : (s.setMo n g).flights = s.flights := rfl
@[simp] theorem State.setMo_tmrs : (s.setMo n g).tmrs = s.tmrs := rfl
@[simp] theorem State.setMo_prescale : (s.setMo n g).prescale = s.prescale := rfl
@[simp] theorem State.setMo_inp : (s.setMo n g).inp = s.inp := rfl
@[simp] theorem State.setMo_cans : (s.setMo n g).cans = s.cans := rfl
@[simp] theorem State.setMo_lins : (s.setMo n g).lins = s.lins := rfl
@[simp] theorem State.setMo_eths : (s.setMo n g).eths = s.eths := rfl
@[simp] theorem State.setMo_nmgs : (s.setMo n g).nmgs = s.nmgs := rfl
@[simp] theorem State.setMo_ring : (s.setMo n g).ring = s.ring := rfl
@[simp] theorem State.setMo_vault : (s.setMo n g).vault = s.vault := rfl
@[simp] theorem State.setMo_acc : (s.setMo n g).acc = s.acc := rfl
@[simp] theorem State.setMo_cores : (s.setMo n g).cores = s.cores := rfl
@[simp] theorem State.setMo_icu : (s.setMo n g).icu = s.icu := rfl
@[simp] theorem State.setMo_edge : (s.setMo n g).edge = s.edge := rfl
@[simp] theorem State.setMo_ending : (s.setMo n g).ending = s.ending := rfl
@[simp] theorem State.setMo_fresh : (s.setMo n g).fresh = s.fresh := rfl
@[simp] theorem State.setMo_pending : (s.setMo n g).pending = s.pending := rfl
end

section
variable (n : Nat) (g : Stk → Stk)
@[simp] theorem State.setSk_now : (s.setSk n g).now = s.now := rfl
@[simp] theorem State.setSk_tbRun : (s.setSk n g).tbRun = s.tbRun := rfl
@[simp] theorem State.setSk_tbRec : (s.setSk n g).tbRec = s.tbRec := rfl
@[simp] theorem State.setSk_rtcN : (s.setSk n g).rtcN = s.rtcN := rfl
@[simp] theorem State.setSk_regs : (s.setSk n g).regs = s.regs := rfl
@[simp] theorem State.setSk_copies : (s.setSk n g).copies = s.copies := rfl
@[simp] theorem State.setSk_mem : (s.setSk n g).mem = s.mem := rfl
@[simp] theorem State.setSk_posted : (s.setSk n g).posted = s.posted := rfl
@[simp] theorem State.setSk_aonPend : (s.setSk n g).aonPend = s.aonPend := rfl
@[simp] theorem State.setSk_rej : (s.setSk n g).rej = s.rej := rfl
@[simp] theorem State.setSk_warmDue : (s.setSk n g).warmDue = s.warmDue := rfl
@[simp] theorem State.setSk_folio : (s.setSk n g).folio = s.folio := rfl
@[simp] theorem State.setSk_ecr : (s.setSk n g).ecr = s.ecr := rfl
@[simp] theorem State.setSk_boot : (s.setSk n g).boot = s.boot := rfl
@[simp] theorem State.setSk_upd : (s.setSk n g).upd = s.upd := rfl
@[simp] theorem State.setSk_nvRow : (s.setSk n g).nvRow = s.nvRow := rfl
@[simp] theorem State.setSk_rcv : (s.setSk n g).rcv = s.rcv := rfl
@[simp] theorem State.setSk_pwr : (s.setSk n g).pwr = s.pwr := rfl
@[simp] theorem State.setSk_safe : (s.setSk n g).safe = s.safe := rfl
@[simp] theorem State.setSk_chans : (s.setSk n g).chans = s.chans := rfl
@[simp] theorem State.setSk_beat : (s.setSk n g).beat = s.beat := rfl
@[simp] theorem State.setSk_mots : (s.setSk n g).mots = s.mots := rfl
@[simp] theorem State.setSk_light : (s.setSk n g).light = s.light := rfl
@[simp] theorem State.setSk_flights : (s.setSk n g).flights = s.flights := rfl
@[simp] theorem State.setSk_tmrs : (s.setSk n g).tmrs = s.tmrs := rfl
@[simp] theorem State.setSk_prescale : (s.setSk n g).prescale = s.prescale := rfl
@[simp] theorem State.setSk_inp : (s.setSk n g).inp = s.inp := rfl
@[simp] theorem State.setSk_cans : (s.setSk n g).cans = s.cans := rfl
@[simp] theorem State.setSk_lins : (s.setSk n g).lins = s.lins := rfl
@[simp] theorem State.setSk_eths : (s.setSk n g).eths = s.eths := rfl
@[simp] theorem State.setSk_nmgs : (s.setSk n g).nmgs = s.nmgs := rfl
@[simp] theorem State.setSk_ring : (s.setSk n g).ring = s.ring := rfl
@[simp] theorem State.setSk_vault : (s.setSk n g).vault = s.vault := rfl
@[simp] theorem State.setSk_acc : (s.setSk n g).acc = s.acc := rfl
@[simp] theorem State.setSk_cores : (s.setSk n g).cores = s.cores := rfl
@[simp] theorem State.setSk_icu : (s.setSk n g).icu = s.icu := rfl
@[simp] theorem State.setSk_edge : (s.setSk n g).edge = s.edge := rfl
@[simp] theorem State.setSk_ending : (s.setSk n g).ending = s.ending := rfl
@[simp] theorem State.setSk_fresh : (s.setSk n g).fresh = s.fresh := rfl
@[simp] theorem State.setSk_pending : (s.setSk n g).pending = s.pending := rfl
end

section
variable (n : Nat) (g : StrDrv → StrDrv)
@[simp] theorem State.setSt_now : (s.setSt n g).now = s.now := rfl
@[simp] theorem State.setSt_tbRun : (s.setSt n g).tbRun = s.tbRun := rfl
@[simp] theorem State.setSt_tbRec : (s.setSt n g).tbRec = s.tbRec := rfl
@[simp] theorem State.setSt_rtcN : (s.setSt n g).rtcN = s.rtcN := rfl
@[simp] theorem State.setSt_regs : (s.setSt n g).regs = s.regs := rfl
@[simp] theorem State.setSt_copies : (s.setSt n g).copies = s.copies := rfl
@[simp] theorem State.setSt_mem : (s.setSt n g).mem = s.mem := rfl
@[simp] theorem State.setSt_posted : (s.setSt n g).posted = s.posted := rfl
@[simp] theorem State.setSt_aonPend : (s.setSt n g).aonPend = s.aonPend := rfl
@[simp] theorem State.setSt_rej : (s.setSt n g).rej = s.rej := rfl
@[simp] theorem State.setSt_warmDue : (s.setSt n g).warmDue = s.warmDue := rfl
@[simp] theorem State.setSt_folio : (s.setSt n g).folio = s.folio := rfl
@[simp] theorem State.setSt_ecr : (s.setSt n g).ecr = s.ecr := rfl
@[simp] theorem State.setSt_boot : (s.setSt n g).boot = s.boot := rfl
@[simp] theorem State.setSt_upd : (s.setSt n g).upd = s.upd := rfl
@[simp] theorem State.setSt_nvRow : (s.setSt n g).nvRow = s.nvRow := rfl
@[simp] theorem State.setSt_rcv : (s.setSt n g).rcv = s.rcv := rfl
@[simp] theorem State.setSt_pwr : (s.setSt n g).pwr = s.pwr := rfl
@[simp] theorem State.setSt_safe : (s.setSt n g).safe = s.safe := rfl
@[simp] theorem State.setSt_chans : (s.setSt n g).chans = s.chans := rfl
@[simp] theorem State.setSt_beat : (s.setSt n g).beat = s.beat := rfl
@[simp] theorem State.setSt_mots : (s.setSt n g).mots = s.mots := rfl
@[simp] theorem State.setSt_stks : (s.setSt n g).stks = s.stks := rfl
@[simp] theorem State.setSt_flights : (s.setSt n g).flights = s.flights := rfl
@[simp] theorem State.setSt_tmrs : (s.setSt n g).tmrs = s.tmrs := rfl
@[simp] theorem State.setSt_prescale : (s.setSt n g).prescale = s.prescale := rfl
@[simp] theorem State.setSt_inp : (s.setSt n g).inp = s.inp := rfl
@[simp] theorem State.setSt_cans : (s.setSt n g).cans = s.cans := rfl
@[simp] theorem State.setSt_lins : (s.setSt n g).lins = s.lins := rfl
@[simp] theorem State.setSt_eths : (s.setSt n g).eths = s.eths := rfl
@[simp] theorem State.setSt_nmgs : (s.setSt n g).nmgs = s.nmgs := rfl
@[simp] theorem State.setSt_ring : (s.setSt n g).ring = s.ring := rfl
@[simp] theorem State.setSt_vault : (s.setSt n g).vault = s.vault := rfl
@[simp] theorem State.setSt_acc : (s.setSt n g).acc = s.acc := rfl
@[simp] theorem State.setSt_cores : (s.setSt n g).cores = s.cores := rfl
@[simp] theorem State.setSt_icu : (s.setSt n g).icu = s.icu := rfl
@[simp] theorem State.setSt_edge : (s.setSt n g).edge = s.edge := rfl
@[simp] theorem State.setSt_ending : (s.setSt n g).ending = s.ending := rfl
@[simp] theorem State.setSt_fresh : (s.setSt n g).fresh = s.fresh := rfl
@[simp] theorem State.setSt_pending : (s.setSt n g).pending = s.pending := rfl
end

section
variable (n : Nat) (g : Sink → Sink)
@[simp] theorem State.setSn_now : (s.setSn n g).now = s.now := rfl
@[simp] theorem State.setSn_tbRun : (s.setSn n g).tbRun = s.tbRun := rfl
@[simp] theorem State.setSn_tbRec : (s.setSn n g).tbRec = s.tbRec := rfl
@[simp] theorem State.setSn_rtcN : (s.setSn n g).rtcN = s.rtcN := rfl
@[simp] theorem State.setSn_regs : (s.setSn n g).regs = s.regs := rfl
@[simp] theorem State.setSn_copies : (s.setSn n g).copies = s.copies := rfl
@[simp] theorem State.setSn_mem : (s.setSn n g).mem = s.mem := rfl
@[simp] theorem State.setSn_posted : (s.setSn n g).posted = s.posted := rfl
@[simp] theorem State.setSn_aonPend : (s.setSn n g).aonPend = s.aonPend := rfl
@[simp] theorem State.setSn_rej : (s.setSn n g).rej = s.rej := rfl
@[simp] theorem State.setSn_warmDue : (s.setSn n g).warmDue = s.warmDue := rfl
@[simp] theorem State.setSn_folio : (s.setSn n g).folio = s.folio := rfl
@[simp] theorem State.setSn_ecr : (s.setSn n g).ecr = s.ecr := rfl
@[simp] theorem State.setSn_boot : (s.setSn n g).boot = s.boot := rfl
@[simp] theorem State.setSn_upd : (s.setSn n g).upd = s.upd := rfl
@[simp] theorem State.setSn_nvRow : (s.setSn n g).nvRow = s.nvRow := rfl
@[simp] theorem State.setSn_rcv : (s.setSn n g).rcv = s.rcv := rfl
@[simp] theorem State.setSn_pwr : (s.setSn n g).pwr = s.pwr := rfl
@[simp] theorem State.setSn_safe : (s.setSn n g).safe = s.safe := rfl
@[simp] theorem State.setSn_chans : (s.setSn n g).chans = s.chans := rfl
@[simp] theorem State.setSn_beat : (s.setSn n g).beat = s.beat := rfl
@[simp] theorem State.setSn_mots : (s.setSn n g).mots = s.mots := rfl
@[simp] theorem State.setSn_stks : (s.setSn n g).stks = s.stks := rfl
@[simp] theorem State.setSn_flights : (s.setSn n g).flights = s.flights := rfl
@[simp] theorem State.setSn_tmrs : (s.setSn n g).tmrs = s.tmrs := rfl
@[simp] theorem State.setSn_prescale : (s.setSn n g).prescale = s.prescale := rfl
@[simp] theorem State.setSn_inp : (s.setSn n g).inp = s.inp := rfl
@[simp] theorem State.setSn_cans : (s.setSn n g).cans = s.cans := rfl
@[simp] theorem State.setSn_lins : (s.setSn n g).lins = s.lins := rfl
@[simp] theorem State.setSn_eths : (s.setSn n g).eths = s.eths := rfl
@[simp] theorem State.setSn_nmgs : (s.setSn n g).nmgs = s.nmgs := rfl
@[simp] theorem State.setSn_ring : (s.setSn n g).ring = s.ring := rfl
@[simp] theorem State.setSn_vault : (s.setSn n g).vault = s.vault := rfl
@[simp] theorem State.setSn_acc : (s.setSn n g).acc = s.acc := rfl
@[simp] theorem State.setSn_cores : (s.setSn n g).cores = s.cores := rfl
@[simp] theorem State.setSn_icu : (s.setSn n g).icu = s.icu := rfl
@[simp] theorem State.setSn_edge : (s.setSn n g).edge = s.edge := rfl
@[simp] theorem State.setSn_ending : (s.setSn n g).ending = s.ending := rfl
@[simp] theorem State.setSn_fresh : (s.setSn n g).fresh = s.fresh := rfl
@[simp] theorem State.setSn_pending : (s.setSn n g).pending = s.pending := rfl
end

section
variable (g : Matrix → Matrix)
@[simp] theorem State.setMx_now : (s.setMx g).now = s.now := rfl
@[simp] theorem State.setMx_tbRun : (s.setMx g).tbRun = s.tbRun := rfl
@[simp] theorem State.setMx_tbRec : (s.setMx g).tbRec = s.tbRec := rfl
@[simp] theorem State.setMx_rtcN : (s.setMx g).rtcN = s.rtcN := rfl
@[simp] theorem State.setMx_regs : (s.setMx g).regs = s.regs := rfl
@[simp] theorem State.setMx_copies : (s.setMx g).copies = s.copies := rfl
@[simp] theorem State.setMx_mem : (s.setMx g).mem = s.mem := rfl
@[simp] theorem State.setMx_posted : (s.setMx g).posted = s.posted := rfl
@[simp] theorem State.setMx_aonPend : (s.setMx g).aonPend = s.aonPend := rfl
@[simp] theorem State.setMx_rej : (s.setMx g).rej = s.rej := rfl
@[simp] theorem State.setMx_warmDue : (s.setMx g).warmDue = s.warmDue := rfl
@[simp] theorem State.setMx_folio : (s.setMx g).folio = s.folio := rfl
@[simp] theorem State.setMx_ecr : (s.setMx g).ecr = s.ecr := rfl
@[simp] theorem State.setMx_boot : (s.setMx g).boot = s.boot := rfl
@[simp] theorem State.setMx_upd : (s.setMx g).upd = s.upd := rfl
@[simp] theorem State.setMx_nvRow : (s.setMx g).nvRow = s.nvRow := rfl
@[simp] theorem State.setMx_rcv : (s.setMx g).rcv = s.rcv := rfl
@[simp] theorem State.setMx_pwr : (s.setMx g).pwr = s.pwr := rfl
@[simp] theorem State.setMx_safe : (s.setMx g).safe = s.safe := rfl
@[simp] theorem State.setMx_chans : (s.setMx g).chans = s.chans := rfl
@[simp] theorem State.setMx_beat : (s.setMx g).beat = s.beat := rfl
@[simp] theorem State.setMx_mots : (s.setMx g).mots = s.mots := rfl
@[simp] theorem State.setMx_stks : (s.setMx g).stks = s.stks := rfl
@[simp] theorem State.setMx_flights : (s.setMx g).flights = s.flights := rfl
@[simp] theorem State.setMx_tmrs : (s.setMx g).tmrs = s.tmrs := rfl
@[simp] theorem State.setMx_prescale : (s.setMx g).prescale = s.prescale := rfl
@[simp] theorem State.setMx_inp : (s.setMx g).inp = s.inp := rfl
@[simp] theorem State.setMx_cans : (s.setMx g).cans = s.cans := rfl
@[simp] theorem State.setMx_lins : (s.setMx g).lins = s.lins := rfl
@[simp] theorem State.setMx_eths : (s.setMx g).eths = s.eths := rfl
@[simp] theorem State.setMx_nmgs : (s.setMx g).nmgs = s.nmgs := rfl
@[simp] theorem State.setMx_ring : (s.setMx g).ring = s.ring := rfl
@[simp] theorem State.setMx_vault : (s.setMx g).vault = s.vault := rfl
@[simp] theorem State.setMx_acc : (s.setMx g).acc = s.acc := rfl
@[simp] theorem State.setMx_cores : (s.setMx g).cores = s.cores := rfl
@[simp] theorem State.setMx_icu : (s.setMx g).icu = s.icu := rfl
@[simp] theorem State.setMx_edge : (s.setMx g).edge = s.edge := rfl
@[simp] theorem State.setMx_ending : (s.setMx g).ending = s.ending := rfl
@[simp] theorem State.setMx_fresh : (s.setMx g).fresh = s.fresh := rfl
@[simp] theorem State.setMx_pending : (s.setMx g).pending = s.pending := rfl
end

section
variable (g : Chain → Chain)
@[simp] theorem State.setChain_now : (s.setChain g).now = s.now := rfl
@[simp] theorem State.setChain_tbRun : (s.setChain g).tbRun = s.tbRun := rfl
@[simp] theorem State.setChain_tbRec : (s.setChain g).tbRec = s.tbRec := rfl
@[simp] theorem State.setChain_rtcN : (s.setChain g).rtcN = s.rtcN := rfl
@[simp] theorem State.setChain_regs : (s.setChain g).regs = s.regs := rfl
@[simp] theorem State.setChain_copies : (s.setChain g).copies = s.copies := rfl
@[simp] theorem State.setChain_mem : (s.setChain g).mem = s.mem := rfl
@[simp] theorem State.setChain_posted : (s.setChain g).posted = s.posted := rfl
@[simp] theorem State.setChain_aonPend : (s.setChain g).aonPend = s.aonPend := rfl
@[simp] theorem State.setChain_rej : (s.setChain g).rej = s.rej := rfl
@[simp] theorem State.setChain_warmDue : (s.setChain g).warmDue = s.warmDue := rfl
@[simp] theorem State.setChain_folio : (s.setChain g).folio = s.folio := rfl
@[simp] theorem State.setChain_ecr : (s.setChain g).ecr = s.ecr := rfl
@[simp] theorem State.setChain_boot : (s.setChain g).boot = s.boot := rfl
@[simp] theorem State.setChain_upd : (s.setChain g).upd = s.upd := rfl
@[simp] theorem State.setChain_nvRow : (s.setChain g).nvRow = s.nvRow := rfl
@[simp] theorem State.setChain_rcv : (s.setChain g).rcv = s.rcv := rfl
@[simp] theorem State.setChain_pwr : (s.setChain g).pwr = s.pwr := rfl
@[simp] theorem State.setChain_safe : (s.setChain g).safe = s.safe := rfl
@[simp] theorem State.setChain_chans : (s.setChain g).chans = s.chans := rfl
@[simp] theorem State.setChain_beat : (s.setChain g).beat = s.beat := rfl
@[simp] theorem State.setChain_mots : (s.setChain g).mots = s.mots := rfl
@[simp] theorem State.setChain_stks : (s.setChain g).stks = s.stks := rfl
@[simp] theorem State.setChain_flights : (s.setChain g).flights = s.flights := rfl
@[simp] theorem State.setChain_tmrs : (s.setChain g).tmrs = s.tmrs := rfl
@[simp] theorem State.setChain_prescale : (s.setChain g).prescale = s.prescale := rfl
@[simp] theorem State.setChain_inp : (s.setChain g).inp = s.inp := rfl
@[simp] theorem State.setChain_cans : (s.setChain g).cans = s.cans := rfl
@[simp] theorem State.setChain_lins : (s.setChain g).lins = s.lins := rfl
@[simp] theorem State.setChain_eths : (s.setChain g).eths = s.eths := rfl
@[simp] theorem State.setChain_nmgs : (s.setChain g).nmgs = s.nmgs := rfl
@[simp] theorem State.setChain_ring : (s.setChain g).ring = s.ring := rfl
@[simp] theorem State.setChain_vault : (s.setChain g).vault = s.vault := rfl
@[simp] theorem State.setChain_acc : (s.setChain g).acc = s.acc := rfl
@[simp] theorem State.setChain_cores : (s.setChain g).cores = s.cores := rfl
@[simp] theorem State.setChain_icu : (s.setChain g).icu = s.icu := rfl
@[simp] theorem State.setChain_edge : (s.setChain g).edge = s.edge := rfl
@[simp] theorem State.setChain_ending : (s.setChain g).ending = s.ending := rfl
@[simp] theorem State.setChain_fresh : (s.setChain g).fresh = s.fresh := rfl
@[simp] theorem State.setChain_pending : (s.setChain g).pending = s.pending := rfl
end

section
variable (n : Nat) (g : Tmr → Tmr)
@[simp] theorem State.setTm_now : (s.setTm n g).now = s.now := rfl
@[simp] theorem State.setTm_tbRun : (s.setTm n g).tbRun = s.tbRun := rfl
@[simp] theorem State.setTm_tbRec : (s.setTm n g).tbRec = s.tbRec := rfl
@[simp] theorem State.setTm_rtcN : (s.setTm n g).rtcN = s.rtcN := rfl
@[simp] theorem State.setTm_regs : (s.setTm n g).regs = s.regs := rfl
@[simp] theorem State.setTm_copies : (s.setTm n g).copies = s.copies := rfl
@[simp] theorem State.setTm_mem : (s.setTm n g).mem = s.mem := rfl
@[simp] theorem State.setTm_posted : (s.setTm n g).posted = s.posted := rfl
@[simp] theorem State.setTm_aonPend : (s.setTm n g).aonPend = s.aonPend := rfl
@[simp] theorem State.setTm_rej : (s.setTm n g).rej = s.rej := rfl
@[simp] theorem State.setTm_warmDue : (s.setTm n g).warmDue = s.warmDue := rfl
@[simp] theorem State.setTm_folio : (s.setTm n g).folio = s.folio := rfl
@[simp] theorem State.setTm_ecr : (s.setTm n g).ecr = s.ecr := rfl
@[simp] theorem State.setTm_boot : (s.setTm n g).boot = s.boot := rfl
@[simp] theorem State.setTm_upd : (s.setTm n g).upd = s.upd := rfl
@[simp] theorem State.setTm_nvRow : (s.setTm n g).nvRow = s.nvRow := rfl
@[simp] theorem State.setTm_rcv : (s.setTm n g).rcv = s.rcv := rfl
@[simp] theorem State.setTm_pwr : (s.setTm n g).pwr = s.pwr := rfl
@[simp] theorem State.setTm_safe : (s.setTm n g).safe = s.safe := rfl
@[simp] theorem State.setTm_chans : (s.setTm n g).chans = s.chans := rfl
@[simp] theorem State.setTm_beat : (s.setTm n g).beat = s.beat := rfl
@[simp] theorem State.setTm_mots : (s.setTm n g).mots = s.mots := rfl
@[simp] theorem State.setTm_stks : (s.setTm n g).stks = s.stks := rfl
@[simp] theorem State.setTm_light : (s.setTm n g).light = s.light := rfl
@[simp] theorem State.setTm_flights : (s.setTm n g).flights = s.flights := rfl
@[simp] theorem State.setTm_prescale : (s.setTm n g).prescale = s.prescale := rfl
@[simp] theorem State.setTm_inp : (s.setTm n g).inp = s.inp := rfl
@[simp] theorem State.setTm_cans : (s.setTm n g).cans = s.cans := rfl
@[simp] theorem State.setTm_lins : (s.setTm n g).lins = s.lins := rfl
@[simp] theorem State.setTm_eths : (s.setTm n g).eths = s.eths := rfl
@[simp] theorem State.setTm_nmgs : (s.setTm n g).nmgs = s.nmgs := rfl
@[simp] theorem State.setTm_ring : (s.setTm n g).ring = s.ring := rfl
@[simp] theorem State.setTm_vault : (s.setTm n g).vault = s.vault := rfl
@[simp] theorem State.setTm_acc : (s.setTm n g).acc = s.acc := rfl
@[simp] theorem State.setTm_cores : (s.setTm n g).cores = s.cores := rfl
@[simp] theorem State.setTm_icu : (s.setTm n g).icu = s.icu := rfl
@[simp] theorem State.setTm_edge : (s.setTm n g).edge = s.edge := rfl
@[simp] theorem State.setTm_ending : (s.setTm n g).ending = s.ending := rfl
@[simp] theorem State.setTm_fresh : (s.setTm n g).fresh = s.fresh := rfl
@[simp] theorem State.setTm_pending : (s.setTm n g).pending = s.pending := rfl
end

section
variable (n : Nat) (g : CanSt → CanSt)
@[simp] theorem State.setCn_now : (s.setCn n g).now = s.now := rfl
@[simp] theorem State.setCn_tbRun : (s.setCn n g).tbRun = s.tbRun := rfl
@[simp] theorem State.setCn_tbRec : (s.setCn n g).tbRec = s.tbRec := rfl
@[simp] theorem State.setCn_rtcN : (s.setCn n g).rtcN = s.rtcN := rfl
@[simp] theorem State.setCn_regs : (s.setCn n g).regs = s.regs := rfl
@[simp] theorem State.setCn_copies : (s.setCn n g).copies = s.copies := rfl
@[simp] theorem State.setCn_mem : (s.setCn n g).mem = s.mem := rfl
@[simp] theorem State.setCn_posted : (s.setCn n g).posted = s.posted := rfl
@[simp] theorem State.setCn_aonPend : (s.setCn n g).aonPend = s.aonPend := rfl
@[simp] theorem State.setCn_rej : (s.setCn n g).rej = s.rej := rfl
@[simp] theorem State.setCn_warmDue : (s.setCn n g).warmDue = s.warmDue := rfl
@[simp] theorem State.setCn_folio : (s.setCn n g).folio = s.folio := rfl
@[simp] theorem State.setCn_ecr : (s.setCn n g).ecr = s.ecr := rfl
@[simp] theorem State.setCn_boot : (s.setCn n g).boot = s.boot := rfl
@[simp] theorem State.setCn_upd : (s.setCn n g).upd = s.upd := rfl
@[simp] theorem State.setCn_nvRow : (s.setCn n g).nvRow = s.nvRow := rfl
@[simp] theorem State.setCn_rcv : (s.setCn n g).rcv = s.rcv := rfl
@[simp] theorem State.setCn_pwr : (s.setCn n g).pwr = s.pwr := rfl
@[simp] theorem State.setCn_safe : (s.setCn n g).safe = s.safe := rfl
@[simp] theorem State.setCn_chans : (s.setCn n g).chans = s.chans := rfl
@[simp] theorem State.setCn_beat : (s.setCn n g).beat = s.beat := rfl
@[simp] theorem State.setCn_mots : (s.setCn n g).mots = s.mots := rfl
@[simp] theorem State.setCn_stks : (s.setCn n g).stks = s.stks := rfl
@[simp] theorem State.setCn_light : (s.setCn n g).light = s.light := rfl
@[simp] theorem State.setCn_flights : (s.setCn n g).flights = s.flights := rfl
@[simp] theorem State.setCn_tmrs : (s.setCn n g).tmrs = s.tmrs := rfl
@[simp] theorem State.setCn_prescale : (s.setCn n g).prescale = s.prescale := rfl
@[simp] theorem State.setCn_inp : (s.setCn n g).inp = s.inp := rfl
@[simp] theorem State.setCn_lins : (s.setCn n g).lins = s.lins := rfl
@[simp] theorem State.setCn_eths : (s.setCn n g).eths = s.eths := rfl
@[simp] theorem State.setCn_nmgs : (s.setCn n g).nmgs = s.nmgs := rfl
@[simp] theorem State.setCn_ring : (s.setCn n g).ring = s.ring := rfl
@[simp] theorem State.setCn_vault : (s.setCn n g).vault = s.vault := rfl
@[simp] theorem State.setCn_acc : (s.setCn n g).acc = s.acc := rfl
@[simp] theorem State.setCn_cores : (s.setCn n g).cores = s.cores := rfl
@[simp] theorem State.setCn_icu : (s.setCn n g).icu = s.icu := rfl
@[simp] theorem State.setCn_edge : (s.setCn n g).edge = s.edge := rfl
@[simp] theorem State.setCn_ending : (s.setCn n g).ending = s.ending := rfl
@[simp] theorem State.setCn_fresh : (s.setCn n g).fresh = s.fresh := rfl
@[simp] theorem State.setCn_pending : (s.setCn n g).pending = s.pending := rfl
end

section
variable (n : Nat) (g : LinSt → LinSt)
@[simp] theorem State.setLn_now : (s.setLn n g).now = s.now := rfl
@[simp] theorem State.setLn_tbRun : (s.setLn n g).tbRun = s.tbRun := rfl
@[simp] theorem State.setLn_tbRec : (s.setLn n g).tbRec = s.tbRec := rfl
@[simp] theorem State.setLn_rtcN : (s.setLn n g).rtcN = s.rtcN := rfl
@[simp] theorem State.setLn_regs : (s.setLn n g).regs = s.regs := rfl
@[simp] theorem State.setLn_copies : (s.setLn n g).copies = s.copies := rfl
@[simp] theorem State.setLn_mem : (s.setLn n g).mem = s.mem := rfl
@[simp] theorem State.setLn_posted : (s.setLn n g).posted = s.posted := rfl
@[simp] theorem State.setLn_aonPend : (s.setLn n g).aonPend = s.aonPend := rfl
@[simp] theorem State.setLn_rej : (s.setLn n g).rej = s.rej := rfl
@[simp] theorem State.setLn_warmDue : (s.setLn n g).warmDue = s.warmDue := rfl
@[simp] theorem State.setLn_folio : (s.setLn n g).folio = s.folio := rfl
@[simp] theorem State.setLn_ecr : (s.setLn n g).ecr = s.ecr := rfl
@[simp] theorem State.setLn_boot : (s.setLn n g).boot = s.boot := rfl
@[simp] theorem State.setLn_upd : (s.setLn n g).upd = s.upd := rfl
@[simp] theorem State.setLn_nvRow : (s.setLn n g).nvRow = s.nvRow := rfl
@[simp] theorem State.setLn_rcv : (s.setLn n g).rcv = s.rcv := rfl
@[simp] theorem State.setLn_pwr : (s.setLn n g).pwr = s.pwr := rfl
@[simp] theorem State.setLn_safe : (s.setLn n g).safe = s.safe := rfl
@[simp] theorem State.setLn_chans : (s.setLn n g).chans = s.chans := rfl
@[simp] theorem State.setLn_beat : (s.setLn n g).beat = s.beat := rfl
@[simp] theorem State.setLn_mots : (s.setLn n g).mots = s.mots := rfl
@[simp] theorem State.setLn_stks : (s.setLn n g).stks = s.stks := rfl
@[simp] theorem State.setLn_light : (s.setLn n g).light = s.light := rfl
@[simp] theorem State.setLn_flights : (s.setLn n g).flights = s.flights := rfl
@[simp] theorem State.setLn_tmrs : (s.setLn n g).tmrs = s.tmrs := rfl
@[simp] theorem State.setLn_prescale : (s.setLn n g).prescale = s.prescale := rfl
@[simp] theorem State.setLn_inp : (s.setLn n g).inp = s.inp := rfl
@[simp] theorem State.setLn_cans : (s.setLn n g).cans = s.cans := rfl
@[simp] theorem State.setLn_eths : (s.setLn n g).eths = s.eths := rfl
@[simp] theorem State.setLn_nmgs : (s.setLn n g).nmgs = s.nmgs := rfl
@[simp] theorem State.setLn_ring : (s.setLn n g).ring = s.ring := rfl
@[simp] theorem State.setLn_vault : (s.setLn n g).vault = s.vault := rfl
@[simp] theorem State.setLn_acc : (s.setLn n g).acc = s.acc := rfl
@[simp] theorem State.setLn_cores : (s.setLn n g).cores = s.cores := rfl
@[simp] theorem State.setLn_icu : (s.setLn n g).icu = s.icu := rfl
@[simp] theorem State.setLn_edge : (s.setLn n g).edge = s.edge := rfl
@[simp] theorem State.setLn_ending : (s.setLn n g).ending = s.ending := rfl
@[simp] theorem State.setLn_fresh : (s.setLn n g).fresh = s.fresh := rfl
@[simp] theorem State.setLn_pending : (s.setLn n g).pending = s.pending := rfl
end

section
variable (n : Nat) (g : EthSt → EthSt)
@[simp] theorem State.setEt_now : (s.setEt n g).now = s.now := rfl
@[simp] theorem State.setEt_tbRun : (s.setEt n g).tbRun = s.tbRun := rfl
@[simp] theorem State.setEt_tbRec : (s.setEt n g).tbRec = s.tbRec := rfl
@[simp] theorem State.setEt_rtcN : (s.setEt n g).rtcN = s.rtcN := rfl
@[simp] theorem State.setEt_regs : (s.setEt n g).regs = s.regs := rfl
@[simp] theorem State.setEt_copies : (s.setEt n g).copies = s.copies := rfl
@[simp] theorem State.setEt_mem : (s.setEt n g).mem = s.mem := rfl
@[simp] theorem State.setEt_posted : (s.setEt n g).posted = s.posted := rfl
@[simp] theorem State.setEt_aonPend : (s.setEt n g).aonPend = s.aonPend := rfl
@[simp] theorem State.setEt_rej : (s.setEt n g).rej = s.rej := rfl
@[simp] theorem State.setEt_warmDue : (s.setEt n g).warmDue = s.warmDue := rfl
@[simp] theorem State.setEt_folio : (s.setEt n g).folio = s.folio := rfl
@[simp] theorem State.setEt_ecr : (s.setEt n g).ecr = s.ecr := rfl
@[simp] theorem State.setEt_boot : (s.setEt n g).boot = s.boot := rfl
@[simp] theorem State.setEt_upd : (s.setEt n g).upd = s.upd := rfl
@[simp] theorem State.setEt_nvRow : (s.setEt n g).nvRow = s.nvRow := rfl
@[simp] theorem State.setEt_rcv : (s.setEt n g).rcv = s.rcv := rfl
@[simp] theorem State.setEt_pwr : (s.setEt n g).pwr = s.pwr := rfl
@[simp] theorem State.setEt_safe : (s.setEt n g).safe = s.safe := rfl
@[simp] theorem State.setEt_chans : (s.setEt n g).chans = s.chans := rfl
@[simp] theorem State.setEt_beat : (s.setEt n g).beat = s.beat := rfl
@[simp] theorem State.setEt_mots : (s.setEt n g).mots = s.mots := rfl
@[simp] theorem State.setEt_stks : (s.setEt n g).stks = s.stks := rfl
@[simp] theorem State.setEt_light : (s.setEt n g).light = s.light := rfl
@[simp] theorem State.setEt_flights : (s.setEt n g).flights = s.flights := rfl
@[simp] theorem State.setEt_tmrs : (s.setEt n g).tmrs = s.tmrs := rfl
@[simp] theorem State.setEt_prescale : (s.setEt n g).prescale = s.prescale := rfl
@[simp] theorem State.setEt_inp : (s.setEt n g).inp = s.inp := rfl
@[simp] theorem State.setEt_cans : (s.setEt n g).cans = s.cans := rfl
@[simp] theorem State.setEt_lins : (s.setEt n g).lins = s.lins := rfl
@[simp] theorem State.setEt_nmgs : (s.setEt n g).nmgs = s.nmgs := rfl
@[simp] theorem State.setEt_ring : (s.setEt n g).ring = s.ring := rfl
@[simp] theorem State.setEt_vault : (s.setEt n g).vault = s.vault := rfl
@[simp] theorem State.setEt_acc : (s.setEt n g).acc = s.acc := rfl
@[simp] theorem State.setEt_cores : (s.setEt n g).cores = s.cores := rfl
@[simp] theorem State.setEt_icu : (s.setEt n g).icu = s.icu := rfl
@[simp] theorem State.setEt_edge : (s.setEt n g).edge = s.edge := rfl
@[simp] theorem State.setEt_ending : (s.setEt n g).ending = s.ending := rfl
@[simp] theorem State.setEt_fresh : (s.setEt n g).fresh = s.fresh := rfl
@[simp] theorem State.setEt_pending : (s.setEt n g).pending = s.pending := rfl
end

section
variable (n : Nat) (g : NmgCh → NmgCh)
@[simp] theorem State.setNm_now : (s.setNm n g).now = s.now := rfl
@[simp] theorem State.setNm_tbRun : (s.setNm n g).tbRun = s.tbRun := rfl
@[simp] theorem State.setNm_tbRec : (s.setNm n g).tbRec = s.tbRec := rfl
@[simp] theorem State.setNm_rtcN : (s.setNm n g).rtcN = s.rtcN := rfl
@[simp] theorem State.setNm_regs : (s.setNm n g).regs = s.regs := rfl
@[simp] theorem State.setNm_copies : (s.setNm n g).copies = s.copies := rfl
@[simp] theorem State.setNm_mem : (s.setNm n g).mem = s.mem := rfl
@[simp] theorem State.setNm_posted : (s.setNm n g).posted = s.posted := rfl
@[simp] theorem State.setNm_aonPend : (s.setNm n g).aonPend = s.aonPend := rfl
@[simp] theorem State.setNm_rej : (s.setNm n g).rej = s.rej := rfl
@[simp] theorem State.setNm_warmDue : (s.setNm n g).warmDue = s.warmDue := rfl
@[simp] theorem State.setNm_folio : (s.setNm n g).folio = s.folio := rfl
@[simp] theorem State.setNm_ecr : (s.setNm n g).ecr = s.ecr := rfl
@[simp] theorem State.setNm_boot : (s.setNm n g).boot = s.boot := rfl
@[simp] theorem State.setNm_upd : (s.setNm n g).upd = s.upd := rfl
@[simp] theorem State.setNm_nvRow : (s.setNm n g).nvRow = s.nvRow := rfl
@[simp] theorem State.setNm_rcv : (s.setNm n g).rcv = s.rcv := rfl
@[simp] theorem State.setNm_pwr : (s.setNm n g).pwr = s.pwr := rfl
@[simp] theorem State.setNm_safe : (s.setNm n g).safe = s.safe := rfl
@[simp] theorem State.setNm_chans : (s.setNm n g).chans = s.chans := rfl
@[simp] theorem State.setNm_beat : (s.setNm n g).beat = s.beat := rfl
@[simp] theorem State.setNm_mots : (s.setNm n g).mots = s.mots := rfl
@[simp] theorem State.setNm_stks : (s.setNm n g).stks = s.stks := rfl
@[simp] theorem State.setNm_light : (s.setNm n g).light = s.light := rfl
@[simp] theorem State.setNm_flights : (s.setNm n g).flights = s.flights := rfl
@[simp] theorem State.setNm_tmrs : (s.setNm n g).tmrs = s.tmrs := rfl
@[simp] theorem State.setNm_prescale : (s.setNm n g).prescale = s.prescale := rfl
@[simp] theorem State.setNm_inp : (s.setNm n g).inp = s.inp := rfl
@[simp] theorem State.setNm_cans : (s.setNm n g).cans = s.cans := rfl
@[simp] theorem State.setNm_lins : (s.setNm n g).lins = s.lins := rfl
@[simp] theorem State.setNm_eths : (s.setNm n g).eths = s.eths := rfl
@[simp] theorem State.setNm_ring : (s.setNm n g).ring = s.ring := rfl
@[simp] theorem State.setNm_vault : (s.setNm n g).vault = s.vault := rfl
@[simp] theorem State.setNm_acc : (s.setNm n g).acc = s.acc := rfl
@[simp] theorem State.setNm_cores : (s.setNm n g).cores = s.cores := rfl
@[simp] theorem State.setNm_icu : (s.setNm n g).icu = s.icu := rfl
@[simp] theorem State.setNm_edge : (s.setNm n g).edge = s.edge := rfl
@[simp] theorem State.setNm_ending : (s.setNm n g).ending = s.ending := rfl
@[simp] theorem State.setNm_fresh : (s.setNm n g).fresh = s.fresh := rfl
@[simp] theorem State.setNm_pending : (s.setNm n g).pending = s.pending := rfl
end

section
variable (g : RingSt → RingSt)
@[simp] theorem setRing_now : (setRing s g).now = s.now := rfl
@[simp] theorem setRing_tbRun : (setRing s g).tbRun = s.tbRun := rfl
@[simp] theorem setRing_tbRec : (setRing s g).tbRec = s.tbRec := rfl
@[simp] theorem setRing_rtcN : (setRing s g).rtcN = s.rtcN := rfl
@[simp] theorem setRing_regs : (setRing s g).regs = s.regs := rfl
@[simp] theorem setRing_copies : (setRing s g).copies = s.copies := rfl
@[simp] theorem setRing_mem : (setRing s g).mem = s.mem := rfl
@[simp] theorem setRing_posted : (setRing s g).posted = s.posted := rfl
@[simp] theorem setRing_aonPend : (setRing s g).aonPend = s.aonPend := rfl
@[simp] theorem setRing_rej : (setRing s g).rej = s.rej := rfl
@[simp] theorem setRing_warmDue : (setRing s g).warmDue = s.warmDue := rfl
@[simp] theorem setRing_folio : (setRing s g).folio = s.folio := rfl
@[simp] theorem setRing_ecr : (setRing s g).ecr = s.ecr := rfl
@[simp] theorem setRing_boot : (setRing s g).boot = s.boot := rfl
@[simp] theorem setRing_upd : (setRing s g).upd = s.upd := rfl
@[simp] theorem setRing_nvRow : (setRing s g).nvRow = s.nvRow := rfl
@[simp] theorem setRing_rcv : (setRing s g).rcv = s.rcv := rfl
@[simp] theorem setRing_pwr : (setRing s g).pwr = s.pwr := rfl
@[simp] theorem setRing_safe : (setRing s g).safe = s.safe := rfl
@[simp] theorem setRing_chans : (setRing s g).chans = s.chans := rfl
@[simp] theorem setRing_beat : (setRing s g).beat = s.beat := rfl
@[simp] theorem setRing_mots : (setRing s g).mots = s.mots := rfl
@[simp] theorem setRing_stks : (setRing s g).stks = s.stks := rfl
@[simp] theorem setRing_light : (setRing s g).light = s.light := rfl
@[simp] theorem setRing_flights : (setRing s g).flights = s.flights := rfl
@[simp] theorem setRing_tmrs : (setRing s g).tmrs = s.tmrs := rfl
@[simp] theorem setRing_prescale : (setRing s g).prescale = s.prescale := rfl
@[simp] theorem setRing_inp : (setRing s g).inp = s.inp := rfl
@[simp] theorem setRing_cans : (setRing s g).cans = s.cans := rfl
@[simp] theorem setRing_lins : (setRing s g).lins = s.lins := rfl
@[simp] theorem setRing_eths : (setRing s g).eths = s.eths := rfl
@[simp] theorem setRing_nmgs : (setRing s g).nmgs = s.nmgs := rfl
@[simp] theorem setRing_vault : (setRing s g).vault = s.vault := rfl
@[simp] theorem setRing_acc : (setRing s g).acc = s.acc := rfl
@[simp] theorem setRing_cores : (setRing s g).cores = s.cores := rfl
@[simp] theorem setRing_icu : (setRing s g).icu = s.icu := rfl
@[simp] theorem setRing_edge : (setRing s g).edge = s.edge := rfl
@[simp] theorem setRing_ending : (setRing s g).ending = s.ending := rfl
@[simp] theorem setRing_fresh : (setRing s g).fresh = s.fresh := rfl
@[simp] theorem setRing_pending : (setRing s g).pending = s.pending := rfl
end

section
variable (g : VaultSt → VaultSt)
@[simp] theorem setVault_now : (setVault s g).now = s.now := rfl
@[simp] theorem setVault_tbRun : (setVault s g).tbRun = s.tbRun := rfl
@[simp] theorem setVault_tbRec : (setVault s g).tbRec = s.tbRec := rfl
@[simp] theorem setVault_rtcN : (setVault s g).rtcN = s.rtcN := rfl
@[simp] theorem setVault_regs : (setVault s g).regs = s.regs := rfl
@[simp] theorem setVault_copies : (setVault s g).copies = s.copies := rfl
@[simp] theorem setVault_mem : (setVault s g).mem = s.mem := rfl
@[simp] theorem setVault_posted : (setVault s g).posted = s.posted := rfl
@[simp] theorem setVault_aonPend : (setVault s g).aonPend = s.aonPend := rfl
@[simp] theorem setVault_rej : (setVault s g).rej = s.rej := rfl
@[simp] theorem setVault_warmDue : (setVault s g).warmDue = s.warmDue := rfl
@[simp] theorem setVault_folio : (setVault s g).folio = s.folio := rfl
@[simp] theorem setVault_ecr : (setVault s g).ecr = s.ecr := rfl
@[simp] theorem setVault_boot : (setVault s g).boot = s.boot := rfl
@[simp] theorem setVault_upd : (setVault s g).upd = s.upd := rfl
@[simp] theorem setVault_nvRow : (setVault s g).nvRow = s.nvRow := rfl
@[simp] theorem setVault_rcv : (setVault s g).rcv = s.rcv := rfl
@[simp] theorem setVault_pwr : (setVault s g).pwr = s.pwr := rfl
@[simp] theorem setVault_safe : (setVault s g).safe = s.safe := rfl
@[simp] theorem setVault_chans : (setVault s g).chans = s.chans := rfl
@[simp] theorem setVault_beat : (setVault s g).beat = s.beat := rfl
@[simp] theorem setVault_mots : (setVault s g).mots = s.mots := rfl
@[simp] theorem setVault_stks : (setVault s g).stks = s.stks := rfl
@[simp] theorem setVault_light : (setVault s g).light = s.light := rfl
@[simp] theorem setVault_flights : (setVault s g).flights = s.flights := rfl
@[simp] theorem setVault_tmrs : (setVault s g).tmrs = s.tmrs := rfl
@[simp] theorem setVault_prescale : (setVault s g).prescale = s.prescale := rfl
@[simp] theorem setVault_inp : (setVault s g).inp = s.inp := rfl
@[simp] theorem setVault_cans : (setVault s g).cans = s.cans := rfl
@[simp] theorem setVault_lins : (setVault s g).lins = s.lins := rfl
@[simp] theorem setVault_eths : (setVault s g).eths = s.eths := rfl
@[simp] theorem setVault_nmgs : (setVault s g).nmgs = s.nmgs := rfl
@[simp] theorem setVault_ring : (setVault s g).ring = s.ring := rfl
@[simp] theorem setVault_acc : (setVault s g).acc = s.acc := rfl
@[simp] theorem setVault_cores : (setVault s g).cores = s.cores := rfl
@[simp] theorem setVault_icu : (setVault s g).icu = s.icu := rfl
@[simp] theorem setVault_edge : (setVault s g).edge = s.edge := rfl
@[simp] theorem setVault_ending : (setVault s g).ending = s.ending := rfl
@[simp] theorem setVault_fresh : (setVault s g).fresh = s.fresh := rfl
@[simp] theorem setVault_pending : (setVault s g).pending = s.pending := rfl
end

section
variable (g : AccSt → AccSt)
@[simp] theorem setAcc_now : (setAcc s g).now = s.now := rfl
@[simp] theorem setAcc_tbRun : (setAcc s g).tbRun = s.tbRun := rfl
@[simp] theorem setAcc_tbRec : (setAcc s g).tbRec = s.tbRec := rfl
@[simp] theorem setAcc_rtcN : (setAcc s g).rtcN = s.rtcN := rfl
@[simp] theorem setAcc_regs : (setAcc s g).regs = s.regs := rfl
@[simp] theorem setAcc_copies : (setAcc s g).copies = s.copies := rfl
@[simp] theorem setAcc_mem : (setAcc s g).mem = s.mem := rfl
@[simp] theorem setAcc_posted : (setAcc s g).posted = s.posted := rfl
@[simp] theorem setAcc_aonPend : (setAcc s g).aonPend = s.aonPend := rfl
@[simp] theorem setAcc_rej : (setAcc s g).rej = s.rej := rfl
@[simp] theorem setAcc_warmDue : (setAcc s g).warmDue = s.warmDue := rfl
@[simp] theorem setAcc_folio : (setAcc s g).folio = s.folio := rfl
@[simp] theorem setAcc_ecr : (setAcc s g).ecr = s.ecr := rfl
@[simp] theorem setAcc_boot : (setAcc s g).boot = s.boot := rfl
@[simp] theorem setAcc_upd : (setAcc s g).upd = s.upd := rfl
@[simp] theorem setAcc_nvRow : (setAcc s g).nvRow = s.nvRow := rfl
@[simp] theorem setAcc_rcv : (setAcc s g).rcv = s.rcv := rfl
@[simp] theorem setAcc_pwr : (setAcc s g).pwr = s.pwr := rfl
@[simp] theorem setAcc_safe : (setAcc s g).safe = s.safe := rfl
@[simp] theorem setAcc_chans : (setAcc s g).chans = s.chans := rfl
@[simp] theorem setAcc_beat : (setAcc s g).beat = s.beat := rfl
@[simp] theorem setAcc_mots : (setAcc s g).mots = s.mots := rfl
@[simp] theorem setAcc_stks : (setAcc s g).stks = s.stks := rfl
@[simp] theorem setAcc_light : (setAcc s g).light = s.light := rfl
@[simp] theorem setAcc_flights : (setAcc s g).flights = s.flights := rfl
@[simp] theorem setAcc_tmrs : (setAcc s g).tmrs = s.tmrs := rfl
@[simp] theorem setAcc_prescale : (setAcc s g).prescale = s.prescale := rfl
@[simp] theorem setAcc_inp : (setAcc s g).inp = s.inp := rfl
@[simp] theorem setAcc_cans : (setAcc s g).cans = s.cans := rfl
@[simp] theorem setAcc_lins : (setAcc s g).lins = s.lins := rfl
@[simp] theorem setAcc_eths : (setAcc s g).eths = s.eths := rfl
@[simp] theorem setAcc_nmgs : (setAcc s g).nmgs = s.nmgs := rfl
@[simp] theorem setAcc_ring : (setAcc s g).ring = s.ring := rfl
@[simp] theorem setAcc_vault : (setAcc s g).vault = s.vault := rfl
@[simp] theorem setAcc_cores : (setAcc s g).cores = s.cores := rfl
@[simp] theorem setAcc_icu : (setAcc s g).icu = s.icu := rfl
@[simp] theorem setAcc_edge : (setAcc s g).edge = s.edge := rfl
@[simp] theorem setAcc_ending : (setAcc s g).ending = s.ending := rfl
@[simp] theorem setAcc_fresh : (setAcc s g).fresh = s.fresh := rfl
@[simp] theorem setAcc_pending : (setAcc s g).pending = s.pending := rfl
end

section
variable (g : IcuSt → IcuSt)
@[simp] theorem setIcu_now : (setIcu s g).now = s.now := rfl
@[simp] theorem setIcu_tbRun : (setIcu s g).tbRun = s.tbRun := rfl
@[simp] theorem setIcu_tbRec : (setIcu s g).tbRec = s.tbRec := rfl
@[simp] theorem setIcu_rtcN : (setIcu s g).rtcN = s.rtcN := rfl
@[simp] theorem setIcu_regs : (setIcu s g).regs = s.regs := rfl
@[simp] theorem setIcu_copies : (setIcu s g).copies = s.copies := rfl
@[simp] theorem setIcu_mem : (setIcu s g).mem = s.mem := rfl
@[simp] theorem setIcu_posted : (setIcu s g).posted = s.posted := rfl
@[simp] theorem setIcu_aonPend : (setIcu s g).aonPend = s.aonPend := rfl
@[simp] theorem setIcu_rej : (setIcu s g).rej = s.rej := rfl
@[simp] theorem setIcu_warmDue : (setIcu s g).warmDue = s.warmDue := rfl
@[simp] theorem setIcu_folio : (setIcu s g).folio = s.folio := rfl
@[simp] theorem setIcu_ecr : (setIcu s g).ecr = s.ecr := rfl
@[simp] theorem setIcu_boot : (setIcu s g).boot = s.boot := rfl
@[simp] theorem setIcu_upd : (setIcu s g).upd = s.upd := rfl
@[simp] theorem setIcu_nvRow : (setIcu s g).nvRow = s.nvRow := rfl
@[simp] theorem setIcu_rcv : (setIcu s g).rcv = s.rcv := rfl
@[simp] theorem setIcu_pwr : (setIcu s g).pwr = s.pwr := rfl
@[simp] theorem setIcu_safe : (setIcu s g).safe = s.safe := rfl
@[simp] theorem setIcu_chans : (setIcu s g).chans = s.chans := rfl
@[simp] theorem setIcu_beat : (setIcu s g).beat = s.beat := rfl
@[simp] theorem setIcu_mots : (setIcu s g).mots = s.mots := rfl
@[simp] theorem setIcu_stks : (setIcu s g).stks = s.stks := rfl
@[simp] theorem setIcu_light : (setIcu s g).light = s.light := rfl
@[simp] theorem setIcu_flights : (setIcu s g).flights = s.flights := rfl
@[simp] theorem setIcu_tmrs : (setIcu s g).tmrs = s.tmrs := rfl
@[simp] theorem setIcu_prescale : (setIcu s g).prescale = s.prescale := rfl
@[simp] theorem setIcu_inp : (setIcu s g).inp = s.inp := rfl
@[simp] theorem setIcu_cans : (setIcu s g).cans = s.cans := rfl
@[simp] theorem setIcu_lins : (setIcu s g).lins = s.lins := rfl
@[simp] theorem setIcu_eths : (setIcu s g).eths = s.eths := rfl
@[simp] theorem setIcu_nmgs : (setIcu s g).nmgs = s.nmgs := rfl
@[simp] theorem setIcu_ring : (setIcu s g).ring = s.ring := rfl
@[simp] theorem setIcu_vault : (setIcu s g).vault = s.vault := rfl
@[simp] theorem setIcu_acc : (setIcu s g).acc = s.acc := rfl
@[simp] theorem setIcu_cores : (setIcu s g).cores = s.cores := rfl
@[simp] theorem setIcu_edge : (setIcu s g).edge = s.edge := rfl
@[simp] theorem setIcu_ending : (setIcu s g).ending = s.ending := rfl
@[simp] theorem setIcu_fresh : (setIcu s g).fresh = s.fresh := rfl
@[simp] theorem setIcu_pending : (setIcu s g).pending = s.pending := rfl
end

section
variable (g : PwrSt → PwrSt)
@[simp] theorem setPwr_now : (setPwr s g).now = s.now := rfl
@[simp] theorem setPwr_tbRun : (setPwr s g).tbRun = s.tbRun := rfl
@[simp] theorem setPwr_tbRec : (setPwr s g).tbRec = s.tbRec := rfl
@[simp] theorem setPwr_rtcN : (setPwr s g).rtcN = s.rtcN := rfl
@[simp] theorem setPwr_regs : (setPwr s g).regs = s.regs := rfl
@[simp] theorem setPwr_copies : (setPwr s g).copies = s.copies := rfl
@[simp] theorem setPwr_mem : (setPwr s g).mem = s.mem := rfl
@[simp] theorem setPwr_posted : (setPwr s g).posted = s.posted := rfl
@[simp] theorem setPwr_aonPend : (setPwr s g).aonPend = s.aonPend := rfl
@[simp] theorem setPwr_rej : (setPwr s g).rej = s.rej := rfl
@[simp] theorem setPwr_warmDue : (setPwr s g).warmDue = s.warmDue := rfl
@[simp] theorem setPwr_folio : (setPwr s g).folio = s.folio := rfl
@[simp] theorem setPwr_ecr : (setPwr s g).ecr = s.ecr := rfl
@[simp] theorem setPwr_boot : (setPwr s g).boot = s.boot := rfl
@[simp] theorem setPwr_upd : (setPwr s g).upd = s.upd := rfl
@[simp] theorem setPwr_nvRow : (setPwr s g).nvRow = s.nvRow := rfl
@[simp] theorem setPwr_rcv : (setPwr s g).rcv = s.rcv := rfl
@[simp] theorem setPwr_safe : (setPwr s g).safe = s.safe := rfl
@[simp] theorem setPwr_chans : (setPwr s g).chans = s.chans := rfl
@[simp] theorem setPwr_beat : (setPwr s g).beat = s.beat := rfl
@[simp] theorem setPwr_mots : (setPwr s g).mots = s.mots := rfl
@[simp] theorem setPwr_stks : (setPwr s g).stks = s.stks := rfl
@[simp] theorem setPwr_light : (setPwr s g).light = s.light := rfl
@[simp] theorem setPwr_flights : (setPwr s g).flights = s.flights := rfl
@[simp] theorem setPwr_tmrs : (setPwr s g).tmrs = s.tmrs := rfl
@[simp] theorem setPwr_prescale : (setPwr s g).prescale = s.prescale := rfl
@[simp] theorem setPwr_inp : (setPwr s g).inp = s.inp := rfl
@[simp] theorem setPwr_cans : (setPwr s g).cans = s.cans := rfl
@[simp] theorem setPwr_lins : (setPwr s g).lins = s.lins := rfl
@[simp] theorem setPwr_eths : (setPwr s g).eths = s.eths := rfl
@[simp] theorem setPwr_nmgs : (setPwr s g).nmgs = s.nmgs := rfl
@[simp] theorem setPwr_ring : (setPwr s g).ring = s.ring := rfl
@[simp] theorem setPwr_vault : (setPwr s g).vault = s.vault := rfl
@[simp] theorem setPwr_acc : (setPwr s g).acc = s.acc := rfl
@[simp] theorem setPwr_cores : (setPwr s g).cores = s.cores := rfl
@[simp] theorem setPwr_icu : (setPwr s g).icu = s.icu := rfl
@[simp] theorem setPwr_edge : (setPwr s g).edge = s.edge := rfl
@[simp] theorem setPwr_ending : (setPwr s g).ending = s.ending := rfl
@[simp] theorem setPwr_fresh : (setPwr s g).fresh = s.fresh := rfl
@[simp] theorem setPwr_pending : (setPwr s g).pending = s.pending := rfl
end

section
variable (g : BootSt → BootSt)
@[simp] theorem setBoot_now : (setBoot s g).now = s.now := rfl
@[simp] theorem setBoot_tbRun : (setBoot s g).tbRun = s.tbRun := rfl
@[simp] theorem setBoot_tbRec : (setBoot s g).tbRec = s.tbRec := rfl
@[simp] theorem setBoot_rtcN : (setBoot s g).rtcN = s.rtcN := rfl
@[simp] theorem setBoot_regs : (setBoot s g).regs = s.regs := rfl
@[simp] theorem setBoot_copies : (setBoot s g).copies = s.copies := rfl
@[simp] theorem setBoot_mem : (setBoot s g).mem = s.mem := rfl
@[simp] theorem setBoot_posted : (setBoot s g).posted = s.posted := rfl
@[simp] theorem setBoot_aonPend : (setBoot s g).aonPend = s.aonPend := rfl
@[simp] theorem setBoot_rej : (setBoot s g).rej = s.rej := rfl
@[simp] theorem setBoot_warmDue : (setBoot s g).warmDue = s.warmDue := rfl
@[simp] theorem setBoot_folio : (setBoot s g).folio = s.folio := rfl
@[simp] theorem setBoot_ecr : (setBoot s g).ecr = s.ecr := rfl
@[simp] theorem setBoot_upd : (setBoot s g).upd = s.upd := rfl
@[simp] theorem setBoot_nvRow : (setBoot s g).nvRow = s.nvRow := rfl
@[simp] theorem setBoot_rcv : (setBoot s g).rcv = s.rcv := rfl
@[simp] theorem setBoot_pwr : (setBoot s g).pwr = s.pwr := rfl
@[simp] theorem setBoot_safe : (setBoot s g).safe = s.safe := rfl
@[simp] theorem setBoot_chans : (setBoot s g).chans = s.chans := rfl
@[simp] theorem setBoot_beat : (setBoot s g).beat = s.beat := rfl
@[simp] theorem setBoot_mots : (setBoot s g).mots = s.mots := rfl
@[simp] theorem setBoot_stks : (setBoot s g).stks = s.stks := rfl
@[simp] theorem setBoot_light : (setBoot s g).light = s.light := rfl
@[simp] theorem setBoot_flights : (setBoot s g).flights = s.flights := rfl
@[simp] theorem setBoot_tmrs : (setBoot s g).tmrs = s.tmrs := rfl
@[simp] theorem setBoot_prescale : (setBoot s g).prescale = s.prescale := rfl
@[simp] theorem setBoot_inp : (setBoot s g).inp = s.inp := rfl
@[simp] theorem setBoot_cans : (setBoot s g).cans = s.cans := rfl
@[simp] theorem setBoot_lins : (setBoot s g).lins = s.lins := rfl
@[simp] theorem setBoot_eths : (setBoot s g).eths = s.eths := rfl
@[simp] theorem setBoot_nmgs : (setBoot s g).nmgs = s.nmgs := rfl
@[simp] theorem setBoot_ring : (setBoot s g).ring = s.ring := rfl
@[simp] theorem setBoot_vault : (setBoot s g).vault = s.vault := rfl
@[simp] theorem setBoot_acc : (setBoot s g).acc = s.acc := rfl
@[simp] theorem setBoot_cores : (setBoot s g).cores = s.cores := rfl
@[simp] theorem setBoot_icu : (setBoot s g).icu = s.icu := rfl
@[simp] theorem setBoot_edge : (setBoot s g).edge = s.edge := rfl
@[simp] theorem setBoot_ending : (setBoot s g).ending = s.ending := rfl
@[simp] theorem setBoot_fresh : (setBoot s g).fresh = s.fresh := rfl
@[simp] theorem setBoot_pending : (setBoot s g).pending = s.pending := rfl
end

section
variable (g : UpdSt → UpdSt)
@[simp] theorem setUpd_now : (setUpd s g).now = s.now := rfl
@[simp] theorem setUpd_tbRun : (setUpd s g).tbRun = s.tbRun := rfl
@[simp] theorem setUpd_tbRec : (setUpd s g).tbRec = s.tbRec := rfl
@[simp] theorem setUpd_rtcN : (setUpd s g).rtcN = s.rtcN := rfl
@[simp] theorem setUpd_regs : (setUpd s g).regs = s.regs := rfl
@[simp] theorem setUpd_copies : (setUpd s g).copies = s.copies := rfl
@[simp] theorem setUpd_mem : (setUpd s g).mem = s.mem := rfl
@[simp] theorem setUpd_posted : (setUpd s g).posted = s.posted := rfl
@[simp] theorem setUpd_aonPend : (setUpd s g).aonPend = s.aonPend := rfl
@[simp] theorem setUpd_rej : (setUpd s g).rej = s.rej := rfl
@[simp] theorem setUpd_warmDue : (setUpd s g).warmDue = s.warmDue := rfl
@[simp] theorem setUpd_folio : (setUpd s g).folio = s.folio := rfl
@[simp] theorem setUpd_ecr : (setUpd s g).ecr = s.ecr := rfl
@[simp] theorem setUpd_boot : (setUpd s g).boot = s.boot := rfl
@[simp] theorem setUpd_nvRow : (setUpd s g).nvRow = s.nvRow := rfl
@[simp] theorem setUpd_rcv : (setUpd s g).rcv = s.rcv := rfl
@[simp] theorem setUpd_pwr : (setUpd s g).pwr = s.pwr := rfl
@[simp] theorem setUpd_safe : (setUpd s g).safe = s.safe := rfl
@[simp] theorem setUpd_chans : (setUpd s g).chans = s.chans := rfl
@[simp] theorem setUpd_beat : (setUpd s g).beat = s.beat := rfl
@[simp] theorem setUpd_mots : (setUpd s g).mots = s.mots := rfl
@[simp] theorem setUpd_stks : (setUpd s g).stks = s.stks := rfl
@[simp] theorem setUpd_light : (setUpd s g).light = s.light := rfl
@[simp] theorem setUpd_flights : (setUpd s g).flights = s.flights := rfl
@[simp] theorem setUpd_tmrs : (setUpd s g).tmrs = s.tmrs := rfl
@[simp] theorem setUpd_prescale : (setUpd s g).prescale = s.prescale := rfl
@[simp] theorem setUpd_inp : (setUpd s g).inp = s.inp := rfl
@[simp] theorem setUpd_cans : (setUpd s g).cans = s.cans := rfl
@[simp] theorem setUpd_lins : (setUpd s g).lins = s.lins := rfl
@[simp] theorem setUpd_eths : (setUpd s g).eths = s.eths := rfl
@[simp] theorem setUpd_nmgs : (setUpd s g).nmgs = s.nmgs := rfl
@[simp] theorem setUpd_ring : (setUpd s g).ring = s.ring := rfl
@[simp] theorem setUpd_vault : (setUpd s g).vault = s.vault := rfl
@[simp] theorem setUpd_acc : (setUpd s g).acc = s.acc := rfl
@[simp] theorem setUpd_cores : (setUpd s g).cores = s.cores := rfl
@[simp] theorem setUpd_icu : (setUpd s g).icu = s.icu := rfl
@[simp] theorem setUpd_edge : (setUpd s g).edge = s.edge := rfl
@[simp] theorem setUpd_ending : (setUpd s g).ending = s.ending := rfl
@[simp] theorem setUpd_fresh : (setUpd s g).fresh = s.fresh := rfl
@[simp] theorem setUpd_pending : (setUpd s g).pending = s.pending := rfl
end

section
variable (g : RecSt → RecSt)
@[simp] theorem setRcv_now : (setRcv s g).now = s.now := rfl
@[simp] theorem setRcv_tbRun : (setRcv s g).tbRun = s.tbRun := rfl
@[simp] theorem setRcv_tbRec : (setRcv s g).tbRec = s.tbRec := rfl
@[simp] theorem setRcv_rtcN : (setRcv s g).rtcN = s.rtcN := rfl
@[simp] theorem setRcv_regs : (setRcv s g).regs = s.regs := rfl
@[simp] theorem setRcv_copies : (setRcv s g).copies = s.copies := rfl
@[simp] theorem setRcv_mem : (setRcv s g).mem = s.mem := rfl
@[simp] theorem setRcv_posted : (setRcv s g).posted = s.posted := rfl
@[simp] theorem setRcv_aonPend : (setRcv s g).aonPend = s.aonPend := rfl
@[simp] theorem setRcv_rej : (setRcv s g).rej = s.rej := rfl
@[simp] theorem setRcv_warmDue : (setRcv s g).warmDue = s.warmDue := rfl
@[simp] theorem setRcv_folio : (setRcv s g).folio = s.folio := rfl
@[simp] theorem setRcv_ecr : (setRcv s g).ecr = s.ecr := rfl
@[simp] theorem setRcv_boot : (setRcv s g).boot = s.boot := rfl
@[simp] theorem setRcv_upd : (setRcv s g).upd = s.upd := rfl
@[simp] theorem setRcv_nvRow : (setRcv s g).nvRow = s.nvRow := rfl
@[simp] theorem setRcv_pwr : (setRcv s g).pwr = s.pwr := rfl
@[simp] theorem setRcv_safe : (setRcv s g).safe = s.safe := rfl
@[simp] theorem setRcv_chans : (setRcv s g).chans = s.chans := rfl
@[simp] theorem setRcv_beat : (setRcv s g).beat = s.beat := rfl
@[simp] theorem setRcv_mots : (setRcv s g).mots = s.mots := rfl
@[simp] theorem setRcv_stks : (setRcv s g).stks = s.stks := rfl
@[simp] theorem setRcv_light : (setRcv s g).light = s.light := rfl
@[simp] theorem setRcv_flights : (setRcv s g).flights = s.flights := rfl
@[simp] theorem setRcv_tmrs : (setRcv s g).tmrs = s.tmrs := rfl
@[simp] theorem setRcv_prescale : (setRcv s g).prescale = s.prescale := rfl
@[simp] theorem setRcv_inp : (setRcv s g).inp = s.inp := rfl
@[simp] theorem setRcv_cans : (setRcv s g).cans = s.cans := rfl
@[simp] theorem setRcv_lins : (setRcv s g).lins = s.lins := rfl
@[simp] theorem setRcv_eths : (setRcv s g).eths = s.eths := rfl
@[simp] theorem setRcv_nmgs : (setRcv s g).nmgs = s.nmgs := rfl
@[simp] theorem setRcv_ring : (setRcv s g).ring = s.ring := rfl
@[simp] theorem setRcv_vault : (setRcv s g).vault = s.vault := rfl
@[simp] theorem setRcv_acc : (setRcv s g).acc = s.acc := rfl
@[simp] theorem setRcv_cores : (setRcv s g).cores = s.cores := rfl
@[simp] theorem setRcv_icu : (setRcv s g).icu = s.icu := rfl
@[simp] theorem setRcv_edge : (setRcv s g).edge = s.edge := rfl
@[simp] theorem setRcv_ending : (setRcv s g).ending = s.ending := rfl
@[simp] theorem setRcv_fresh : (setRcv s g).fresh = s.fresh := rfl
@[simp] theorem setRcv_pending : (setRcv s g).pending = s.pending := rfl
end

end Sys2Proof.Machine
end

