-- ==== Sys2Proof/Laws/Still.lean ====
section
/-! SUPPORT. The fault manager's reactions but HALT leave every core as it was. -/

namespace Sys2Proof.Laws
open Machine

/-- The cores stand as in `q`. -/
def Still (q s : State) : Prop := s.cores = q.cores

variable {q s : State}

theorem Still.ite {c : Prop} [Decidable c] {a b : State} (ha : Still q a) (hb : Still q b) : Still q (if c then a else b) := by
  split <;> assumption

theorem Still.foldl {α : Type} {l : List α} {f : State → α → State} (h : Still q s) (hf : ∀ s a, Still q s → Still q (f s a)) :
    Still q (l.foldl f s) := by
  induction l generalizing s with
  | nil => exact h
  | cons a l ih => exact ih (hf s a h)

theorem Still.when {c : Bool} {f : State → State} (h : Still q s) (hf : ∀ s, Still q s → Still q (f s)) : Still q (s.when c f) := by
  unfold State.when; split
  · exact hf s h
  · exact h

theorem Still.each {α : Type} {l : List α} {f : State → α → State} (h : Still q s) (hf : ∀ s a, Still q s → Still q (f s a)) :
    Still q (s.each l f) := Still.foldl h hf

theorem Still.wr {a : Nat} {v : Word} (h : Still q s) : Still q (s.wr a v) := h

theorem Still.put {b : Nat} {f : Fld} {x : Nat} (h : Still q s) : Still q (s.put b f x) := h

/-- Any part of the state may change but the cores. -/
theorem Still.upd {now : Word} {tbRun : Bool} {tbRec : Word} {rtcN : Nat} {regs copies : Cells 36} {mem : Cells 9} {posted : List
    Posted} {aonPend : List AonWrite} {rej : List Nat} {warmDue : Option WarmCause} {folio : FolioSt} {ecr : Ecr} {boot :
    BootSt} {upd : UpdSt} {nvRow : Option (Nat × List Word)} {rcv : RecSt} {pwr : PwrSt} {safe : SafeSt} {chans : List Chan}
    {beat : BeatSt} {mots : List Mot} {stks : List Stk} {light : Light} {flights : List Flight} {tmrs : List Tmr} {prescale :
    List Nat} {inp : InpSt} {cans : List CanSt} {lins : List LinSt} {eths : List EthSt} {nmgs : List NmgCh} {ring : RingSt}
    {vault : VaultSt} {acc : AccSt} {icu : IcuSt} {edge : List (Nat × Word)} {ending : List
    Instr} {fresh : Nat} {pending : List Instr} (h : Still q s) :
    Still q ⟨now, tbRun, tbRec, rtcN, regs, copies, mem, posted, aonPend, rej, warmDue, folio, ecr, boot, upd, nvRow, rcv, pwr, safe,
    chans, beat, mots, stks, light, flights, tmrs, prescale, inp, cans, lins, eths, nmgs, ring, vault, acc, s.cores, icu,
    edge, ending, fresh, pending⟩ := h

theorem Still.of_eq {t : State} (h : Still q s) (e : t.cores = s.cores) : Still q t := e.trans h

theorem State.put_still {s : State} {base : Nat} {f : Fld} {x : Nat} (hK : Still q s) : Still q (s.put base f x) := Still.put hK

theorem State.satField_still {s : State} {base : Nat} {f : Fld} (hK : Still q s) : Still q (State.satField s base f) := by
  unfold State.satField
  with_reducible repeat' (first | assumption | apply State.put_still)

theorem State.setBit_still {s : State} {a : Nat} {i : Nat} {b : Bool} (hK : Still q s) : Still q (State.setBit s a i
    b) := by
  unfold State.setBit
  with_reducible repeat' (first | assumption | apply Still.wr)

theorem updateGact_still {s : State} (hK : Still q s) : Still q (updateGact s) := by
  unfold updateGact
  with_reducible repeat' (first | assumption | apply State.put_still)

theorem addCause_still {s : State} {cls : Nat} {idx : Nat} (hK : Still q s) : Still q (addCause s cls idx) := by
  unfold addCause
  with_reducible repeat' (first | assumption | apply Still.ite | apply Still.upd)

theorem recordFault_still {s : State} {cls : Nat} {idx : Nat} (hK : Still q s) : Still q (recordFault s cls idx) := by
  unfold recordFault
  with_reducible repeat' (first
    | assumption | apply Still.wr | apply State.put_still | apply State.satField_still | apply State.setBit_still
    | apply Still.ite)

theorem fsafeDue_still {s : State} (hK : Still q s) : Still q (fsafeDue s) := by
  unfold fsafeDue
  with_reducible repeat' (first | assumption | apply Still.upd)

/-- R468, R578: a fault of class 4 leaves every core as it was. -/
theorem safeDetect_still {idx : Nat} (h : Still q s) : Still q (safeDetect s 4 idx) := by
  unfold safeDetect
  split
  · exact h
  extract_lets s1 reg fixed9 r alarm fsel faultn rst s2 fs s3 s4 s5 due
  have h1 : Still q s1 := addCause_still (recordFault_still h)
  have h3 : Still q s3 := Still.when h1 fun _ h => fsafeDue_still h
  exact updateGact_still (Still.upd (Still.when (Still.when h3 fun _ h => State.put_still h) fun _ h => State.put_still h))

/-- R468: the core that stops. -/
theorem double_fault {c : CoreId} {e : Exc} {sub info : Nat} {epc eaddr : Word} (hx : (s.core c.val).exl = true) :
    (raiseExc s c e sub info epc eaddr).cores = (haltCore s c.val).cores := by
  unfold raiseExc; rw [if_pos hx]
  dsimp only; split
  · exact safeDetect_still (q := haltCore s c.val) rfl
  · rfl

end Sys2Proof.Laws
end

