-- ==== Sys2Proof/Laws/Vault.lean ====
section
/-! SUPPORT. The vault after slots are cleared. -/

namespace Sys2Proof.Laws
open Machine

/-- R418: a job that stops leaves the vault. -/
theorem cryptAbort_vault {s : State} : (cryptAbort s).vault = s.vault := by
  unfold cryptAbort
  show (if _ then _ else _ : State).vault = _
  split
  · dsimp only [cryptOut, State.dmaPut]
    have : ∀ (l : List (Nib × Nat)) (f : State → Nib × Nat → State) (u : State), (∀ u p, (f u p).vault = u.vault) →
        (l.foldl f u).vault = u.vault := by
      intro l f u hf; induction l generalizing u with
      | nil => rfl
      | cons a l ih => exact (ih _).trans (hf _ _)
    unfold State.putNibs
    exact this _ _ _ (fun _ _ => rfl)
  · rfl

/-- R411: a cleared slot holds no key; the rest of the vault stands. -/
theorem clearSlot_vault {s : State} {n : Nat} : (clearSlot s n).vault = { s.vault with keys := s.vault.keys.set n [] } := by
  unfold clearSlot
  dsimp only
  have h1 : ∀ s : State, (accKeyLost s).vault = s.vault := fun s => by
    unfold accKeyLost; split
    · have h : Quiet (setAcc s (fun a => { a with fkey := none, set := none })) (accStop (sessEnd (setAcc s (fun a => { a with fkey := none, set := none })) 6)) := accStop_quiet (sessEnd_quiet (by simp [Quiet, Untouched]))
      exact h.2.2.2.2.2.2.2.2.1
    · rfl
  have h2 : (s.when (jobUses s n) cryptAbort).vault = s.vault := by
    unfold State.when; split
    · exact cryptAbort_vault
    · rfl
  generalize s.when (jobUses s n) cryptAbort = u at *
  rw [← h2]
  unfold State.when; split
  · rw [h1]; rfl
  · rfl

theorem dropLoad_vault {s : State} {code : Nat} : (dropLoad s code).vault = { s.vault with load := none } := by
  unfold dropLoad; split
  · next h => rw [← h]
  · unfold vaultDone setVault; dsimp only; split <;> rfl
/-- R420, R421: with every slot cleared no key is left, and no load. -/
theorem clearSlots_vault {s : State} {code : Nat} :
    (∀ n, n < 32 → slotKey (clearSlots s code) n = []) ∧ (clearSlots s code).vault = { s.vault with keys := (clearSlots s code).vault.keys, load := none } := by
  unfold clearSlots State.each
  have key : ∀ (l : List Nat) (s : State), (∀ n, (n ∈ l ∨ s.vault.keys.getD n [] = []) → (l.foldl (fun s n => dropLoad (clearSlot s n) code) s).vault.keys.getD n [] = []) ∧
     (l ≠ [] → (l.foldl (fun s n => dropLoad (clearSlot s n) code) s).vault = { s.vault with keys := (l.foldl (fun s n => dropLoad (clearSlot s n) code) s).vault.keys, load := none }) := by
    intro l; induction l with
    | nil => intro s; exact ⟨fun n h => by simpa using h, fun h => absurd rfl h⟩
    | cons a l ih =>
      intro s
      obtain ⟨h1, h2⟩ := ih (dropLoad (clearSlot s a) code)
      have e : (dropLoad (clearSlot s a) code).vault = { s.vault with keys := s.vault.keys.set a [], load := none } := by rw [dropLoad_vault, clearSlot_vault]
      refine ⟨fun n h => ?_, fun _ => ?_⟩
      · apply h1 n
        by_cases hn : n ∈ l
        · exact .inl hn
        · refine .inr ?_
          rw [e]; simp only [List.getD_eq_getElem?_getD, List.getElem?_set]
          by_cases ha : a = n
          · subst ha; simp; split <;> rfl
          · simp [ha]
            rcases h with h | h
            · simp at h; rcases h with h | h
              · exact absurd h.symm ha
              · exact absurd h hn
            · simpa [List.getD_eq_getElem?_getD] using h
      · by_cases hl : l = []
        · subst hl; simp only [List.foldl]; rw [e]
        · rw [List.foldl_cons, h2 hl, e]
  exact ⟨fun n h => (key _ s).1 n (.inl (List.mem_range.mpr h)), (key _ s).2 (by decide)⟩

end Sys2Proof.Laws
end

