-- ==== Sys2Proof/WellFormed.lean ====
section
/-! DEFINITION. Which commands are well formed: every operand names a thing the spec gives the device.  A command that is
not well formed has a meaning all the same, which finds nothing to act on. -/

namespace Sys2Proof

/-- A writer as LASTERR.REQ codes it; SEAL is Signet's world and no other's (R402, R505). -/
def Src.wf (x : Src) : Bool := decide (x.req ≤ 9) && (x.req == 4) == (x.world == .seal)

/-- R29: a device access is made at a nib offset that is a multiple of 4, inside the window of R28. -/
def offOk (o : Nat) : Bool := decide (o < 0x10000) && o % 4 == 0

/-- Octets of a stream (R6). -/
def octetsOk (l : List Nat) : Bool := l.all (fun x => decide (x < 256))

/-- A received frame: its octets. -/
def NetFrame.wf : NetFrame → Bool
  | .can _ dlc data => decide (dlc < 16) && octetsOk data
  | .eth octets => octetsOk octets

/-- A transceiver's event. -/
def XcvrEvent.wf : XcvrEvent → Bool
  | .frame _ dlc data => decide (dlc < 16) && octetsOk data
  | _ => true

/-- The operands of a command are in range. -/
def Instr.wellFormed : Instr → Bool
  | .powerOnReset _ _ => true
  | .resetNAssert _ _ _ => true
  | .warmReset _ _ => true
  | .coreReset _ _ => true
  | .sysResetWarm src _ => src.wf
  | .sysResetCoreA src _ => src.wf
  | .sysResetCoreB src _ => src.wf
  | .bootWatchdogExpiry _ => true
  | .pll1Loss _ => true
  | .registerWrite src _ off _ => src.wf && offOk off
  | .aliasSetWrite src _ off _ => src.wf && offOk off
  | .aliasClearWrite src _ off _ => src.wf && offOk off
  | .aliasToggleWrite src _ off _ => src.wf && offOk off
  | .aonWriteEffect => true
  | .fabricTimeout _ req addr _ => decide (req ≤ 9) && decide (addr < 2 ^ 32)
  | .voteCorrection _ off => offOk off
  | .folioRefoldOwn src => src.wf
  | .folioRefoldOther src => src.wf
  | .folioVerifyOther src => src.wf
  | .folioVerifyEnd => true
  | .refoldDone => true
  | .pscModeOff src _ _ => src.wf
  | .pscModeOn src _ _ => src.wf
  | .pscModePwm src _ _ => src.wf
  | .pscModeLowon src _ _ => src.wf
  | .pscModePwmsync src _ _ => src.wf
  | .pscPwmWrite src _ _ => src.wf
  | .pwmPeriodBoundary => true
  | .pwmOnTimeEnd f => decide (f < 72)
  | .currentLimitReached f _ => decide (f < 72)
  | .ilimTimeTrip f _ => decide (f < 72)
  | .regulationTimeClear f => decide (f < 72)
  | .shortCircuitTrip f _ => decide (f < 72)
  | .wireModelEvaluation sense feeds _ => sense.all (fun x => decide (x.f < 72)) && decide (feeds.length = 5)
  | .inrushWindowEnd f => decide (f < 72)
  | .clampEnergyExceeded f _ _ => decide (f < 72)
  | .clampLeakTick => true
  | .thermalLatch f _ _ => decide (f < 72)
  | .thermalRelease f _ => decide (f < 72)
  | .retryDelayExpiry f => decide (f < 72)
  | .retryRestoreTimeout f => decide (f < 72)
  | .channelUnlock src _ _ => src.wf
  | .mismatchDetect f _ _ => decide (f < 72)
  | .mismatchPersistSafe f => decide (f < 72)
  | .secondPathShutdown f => decide (f < 72)
  | .openLoadOnDetect f => decide (f < 72)
  | .offStateTestStart f => decide (f < 72)
  | .offStateTestPhaseEnd f _ _ => decide (f < 72)
  | .pairImbalance f => decide (f < 72)
  | .heartbeatEnable src _ => src.wf
  | .heartbeatRefresh src _ => src.wf
  | .heartbeatExpiry => true
  | .holdExpiry => true
  | .channelReclaim src _ => src.wf
  | .parkonLimitFault f => decide (f < 72)
  | .arbiterCycle _ sinks _ _ => sinks.all (fun x => decide (x.1 < 48))
  | .feedOvercurrent feed _ => decide (feed < 5)
  | .feedUndervoltage feed _ => decide (feed < 5)
  | .feedOvervoltageHold feed _ => decide (feed < 5)
  | .feedVoltageRecovery feed _ => decide (feed < 5)
  | .reverseBattery feed _ => decide (feed < 5)
  | .currentSenseCrossCheck pairs => pairs.all (fun x => decide (x.1 < 72))
  | .motCmdStop src _ _ => src.wf
  | .motCmdClose src _ _ => src.wf
  | .motCmdOpen src _ _ => src.wf
  | .motCmdGoto src _ _ => src.wf
  | .motCmdLearn src _ _ => src.wf
  | .motCmdWrun src _ _ => src.wf
  | .motCmdWint src _ _ => src.wf
  | .motCmdWsingle src _ _ => src.wf
  | .motCmdWpark src _ _ => src.wf
  | .motCmdDrive src _ _ => src.wf
  | .motEnableClear src _ _ => src.wf
  | .softStartEnd k _ _ => decide (k < 6)
  | .rippleDetect k => decide (k < 6)
  | .rippleGapCorrection k => decide (k < 6)
  | .rippleCountEnd k => decide (k < 6)
  | .forceEstimate k _ => decide (k < 6)
  | .pinchBrakeEnd k => decide (k < 6)
  | .pinchReversalEnd k _ => decide (k < 6)
  | .stallDetect k _ => decide (k < 6)
  | .brakeTimeEnd k => decide (k < 6)
  | .gotoTargetReached k => decide (k < 6)
  | .moveTimeout k => decide (k < 6)
  | .wiperParkEdge k => decide (k < 6)
  | .wiperStartPulse k => decide (k < 6)
  | .wiperCycleTimeout k => decide (k < 6)
  | .stkFire src _ _ => src.wf
  | .stkRelease src _ _ => src.wf
  | .stkRuleFire k => decide (k < 16)
  | .stkRuleRelease k => decide (k < 16)
  | .stkEnable src _ _ => src.wf
  | .stkEnableClear src _ _ => src.wf
  | .peakArrival k => decide (k < 16)
  | .boostTimeout k => decide (k < 16)
  | .lateWindowFault k => decide (k < 16)
  | .stkPeakTimeEnd k _ => decide (k < 16)
  | .stkHoldTimeEnd k => decide (k < 16)
  | .quenchEnd k => decide (k < 16)
  | .chopCurrentReached k => decide (k < 16)
  | .chopOffTimeEnd k => decide (k < 16)
  | .dutyLimitReached k => decide (k < 16)
  | .dutySegmentRoll k => decide (k < 16)
  | .stModeOff src _ _ => src.wf
  | .stModeOn src _ _ => src.wf
  | .stModePwm src _ _ => src.wf
  | .skModeOff src _ _ => src.wf
  | .skModeOn src _ _ => src.wf
  | .skModePwm src _ _ => src.wf
  | .stringFreqUpdate n _ _ _ _ _ _ => decide (n < 8)
  | .stringPwmBoundary n => decide (n < 8)
  | .sinkPwmBoundary => true
  | .stringOpen n => decide (n < 8)
  | .stringOpenRetest n _ => decide (n < 8)
  | .stringShort n => decide (n < 8)
  | .stringOutputShort n => decide (n < 8)
  | .stringThermal n _ => decide (n < 8)
  | .stringUnlock src _ _ => src.wf
  | .sinkOpen n => decide (n < 48)
  | .sinkShort n => decide (n < 48)
  | .sinkBankThermal n _ => decide (n < 6)
  | .diagAgeExpiry isSink n => decide (n < if isSink then 48 else 8)
  | .offtestStart isSink n => decide (n < if isSink then 48 else 8)
  | .offtestEnd isSink n _ _ => decide (n < if isSink then 48 else 8)
  | .matrixEnable src _ => src.wf
  | .matrixRowSlot => true
  | .matrixSwap src _ => src.wf
  | .matrixRowTrip => true
  | .matrixRowUnlock src _ => src.wf
  | .lightReclaim src _ => src.wf
  | .lchEnable src _ => src.wf
  | .lchGo src _ => src.wf
  | .lchSwap src _ => src.wf
  | .lchRefresh => true
  | .lchFrameEnd => true
  | .inputEnable src _ _ => src.wf
  | .inputScan _ pins => pins.all (fun x => decide (x.1 < 64))
  | .parkInputSample _ pins ans => pins.all (fun x => decide (x.1 < 64)) && ans.all (fun x => decide (x.1 < 8))
  | .comparatorCrossing n _ => decide (n < 8)
  | .adcEnable src _ => src.wf
  | .adcScanPeriod => true
  | .adcRuleStart => true
  | .adcConversionDone _ => true
  | .adcScanDone => true
  | .adcResultRead src _ => src.wf
  | .timerEnable src _ _ => src.wf
  | .timerDisable src _ _ => src.wf
  | .timerCmdStart src _ _ => src.wf
  | .timerCmdStop src _ _ => src.wf
  | .timerGlobalStart src _ => src.wf
  | .timerRuleStart n => decide (n < 32)
  | .timerRuleStop n => decide (n < 32)
  | .timerPeriodEnd n => decide (n < 32)
  | .timerCompareMatch n => decide (n < 32)
  | .timerCaptureRule n => decide (n < 32)
  | .timerCaptureEdge n _ => decide (n < 32)
  | .captureTimeout n => decide (n < 32)
  | .timerCapRead src _ => src.wf
  | .timerCountSnapshot src _ => src.wf
  | .ruleEvent code _ => decide (code < 0x200)
  | .ruleDelivery line => decide (line < 112)
  | .ruleSoftwarePulse src _ => src.wf
  | .canEnable src _ _ => src.wf
  | .canDisable src _ _ => src.wf
  | .canDisableEffect _ => true
  | .canFrameReceived _ _ _ data _ _ => octetsOk data
  | .canRxRelease src _ _ => src.wf
  | .canTxRequest src _ _ _ => src.wf
  | .canTxSelection _ => true
  | .canArbitrationStart _ => true
  | .canTxSuccess _ _ _ => true
  | .canTxLost _ => true
  | .canTxCancel src _ _ => src.wf
  | .canSealWrite src _ _ => src.wf
  | .canErrorDetected _ _ _ _ _ _ => true
  | .canProtocolException _ => true
  | .canRecover src _ _ => src.wf
  | .canRecoveryDone _ => true
  | .linSlotStart _ => true
  | .linHeaderReceived _ _ _ _ => true
  | .linResponseReceived _ data sum => octetsOk (sum :: data)
  | .linResponseTimeout _ _ => true
  | .linGosleep src _ _ => src.wf
  | .linSleepEntry _ => true
  | .linIdleTimeout _ => true
  | .linWakeupDetect _ _ => true
  | .linWakeSend src _ _ => src.wf
  | .linScheduleResume _ => true
  | .ethFrameReceived _ octets _ _ => octetsOk octets
  | .ethTxKick src _ _ => src.wf
  | .ethFrameSent _ _ _ _ => true
  | .ethLinkChange _ _ _ => true
  | .ethDisable _ => true
  | .ringEnable src _ => src.wf
  | .ringLinkTrained _ => true
  | .ringLockLoss _ => true
  | .ringBreakDetect => true
  | .ringBreakSend => true
  | .ringRelock => true
  | .ringFrameReceived _ _ _ _ _ _ _ => true
  | .ringTxgo src _ => src.wf
  | .ringFrameReturn _ _ _ _ _ _ => true
  | .ringAckTimeout _ => true
  | .ringRxRelease src _ => src.wf
  | .ringClaimSend => true
  | .ringTimeTimeout => true
  | .ringTimeSend => true
  | .ringTimeReturnTimeout => true
  | .ringCensusSend => true
  | .ringWakeTone src _ => src.wf
  | .ringCryptConfig src _ => src.wf
  | .nmgEnable src _ _ => src.wf
  | .nmgDisable src _ _ => src.wf
  | .nmgRequest src _ _ => src.wf
  | .nmgRelease src _ _ => src.wf
  | .nmgKeepaliveDue _ => true
  | .nmgKeepaliveReceived _ fr _ => fr.wf
  | .nmgIdleTimeout _ => true
  | .nmgSleepAbort _ => true
  | .nmgRepeatEnd _ => true
  | .nmgDetectorArm _ => true
  | .nmgSleepCommit _ => true
  | .transceiverWake _ ev => ev.wf
  | .nmgConfirmTimeout _ => true
  | .transceiverService => true
  | .transceiverServiceTimeout _ => true
  | .nmgLogClear src _ => src.wf
  | .lcEnroll src _ => src.wf
  | .lcOwner src _ => src.wf
  | .lcField src _ => src.wf
  | .lcNewchal src _ => src.wf
  | .lcService src _ => src.wf
  | .lcEndsvc src _ => src.wf
  | .lcReturn src _ => src.wf
  | .lcVoid src _ => src.wf
  | .lcSignatureVerified => true
  | .serviceTimeEnd => true
  | .challengeExpiry => true
  | .keyLoad src _ => src.wf
  | .keyLoadDone => true
  | .keyClear src _ => src.wf
  | .keyRestrict src _ => src.wf
  | .sealReply src _ _ => src.wf
  | .sealCallTimeout _ => true
  | .cryptJobStart src _ => src.wf
  | .cryptJobDone => true
  | .tamperDetect _ => true
  | .tamperEraseDone => true
  | .reservoirCharged => true
  | .reservoirLow => true
  | .accEnable src _ => src.wf
  | .accLoadingDone => true
  | .accDisable src _ => src.wf
  | .attentionAssert _ => true
  | .tokenReadEnd _ octets _ => octetsOk octets
  | .tokenReadRepeat _ => true
  | .evalFrameEnd => true
  | .accCommandAct => true
  | .accBackoffEnd _ => true
  | .accImport src => src.wf
  | .accLearn src => src.wf
  | .accLearnDone => true
  | .sessionTimeout => true
  | .graceTimeout => true
  | .grantFrameSend => true
  | .add _ _ _ _ => true
  | .adc _ _ _ _ => true
  | .sub _ _ _ _ => true
  | .sbc _ _ _ _ => true
  | .and_ _ _ _ _ => true
  | .or_ _ _ _ _ => true
  | .xor _ _ _ _ => true
  | .andn _ _ _ _ => true
  | .shl _ _ _ _ => true
  | .shr _ _ _ _ => true
  | .sar _ _ _ _ => true
  | .rol _ _ _ _ => true
  | .ror _ _ _ _ => true
  | .mul _ _ _ _ => true
  | .mulh _ _ _ _ => true
  | .mulhu _ _ _ _ => true
  | .div _ _ _ _ => true
  | .divu _ _ _ _ => true
  | .rem _ _ _ _ => true
  | .remu _ _ _ _ => true
  | .clz _ _ _ => true
  | .ctz _ _ _ => true
  | .popc _ _ _ => true
  | .nprm _ _ _ _ => true
  | .opk _ _ _ => true
  | .opkl _ _ _ => true
  | .oupk _ _ _ => true
  | .oupkl _ _ _ => true
  | .addi _ _ _ _ => true
  | .subi _ _ _ _ => true
  | .andi _ _ _ _ => true
  | .ori _ _ _ _ => true
  | .xori _ _ _ _ => true
  | .lui _ _ _ => true
  | .shi _ _ _ _ => true
  | .nprmi _ _ _ _ => true
  | .bfx _ _ _ _ _ => true
  | .bfxs _ _ _ _ _ => true
  | .bfi _ _ _ _ _ => true
  | .ldw _ _ _ _ => true
  | .ldh _ _ _ _ => true
  | .ldhs _ _ _ _ => true
  | .ldn _ _ _ _ => true
  | .ldns _ _ _ _ => true
  | .stw _ _ _ _ => true
  | .sth _ _ _ _ => true
  | .stn _ _ _ _ => true
  | .lres _ _ _ _ => true
  | .scond _ _ _ _ => true
  | .br _ _ _ => true
  | .jal _ _ _ => true
  | .jalr _ _ _ _ => true
  | .nop _ => true
  | .fenceMem _ => true
  | .fenceDev _ => true
  | .fenceAll _ => true
  | .wait _ => true
  | .sys _ _ => true
  | .seal_ _ _ => true
  | .rfe _ => true
  | .mfs _ _ _ => true
  | .mts _ _ _ => true
  | .cacheInvalidateIRange _ _ _ => true
  | .cacheInvalidateDRange _ _ _ => true
  | .cacheInvalidateIAll _ => true
  | .cacheInvalidateDAll _ => true
  | .ux _ _ _ _ _ _ => true
  | .crc32 _ _ _ _ _ => true
  | .crc32o _ _ _ _ _ => true
  | .crc16 _ _ _ _ _ => true
  | .shainit _ _ => true
  | .shaw _ _ _ => true
  | .shaCompressionDone _ => true
  | .shard _ _ _ => true
  | .aeskey _ _ _ => true
  | .aesin _ _ _ => true
  | .aesenc _ _ => true
  | .aesdec _ _ => true
  | .aesDone _ => true
  | .aesout _ _ _ => true
  | .kset _ _ _ => true
  | .lag _ _ _ _ _ => true
  | .sqmac _ _ _ _ _ => true
  | .krd _ _ _ => true
  | .pset _ _ _ _ => true
  | .pclr _ _ => true
  | .match_ _ _ _ _ => true
  | .maplo _ _ _ => true
  | .maphi _ _ _ => true
  | .interruptPresent _ => true
  | .interruptTaken _ => true
  | .interruptClaim _ src => src.wf
  | .interruptEoi src _ _ => src.wf
  | .icuSourceConfig src _ _ => src.wf
  | .lockstepMismatch _ => true
  | .updBegin src _ => src.wf
  | .updData src _ => src.wf
  | .updEnd src _ => src.wf
  | .updAbort src _ => src.wf
  | .updDkimport src _ => src.wf
  | .edArm src => src.wf
  | .edArmnow src => src.wf
  | .edDisarm src => src.wf
  | .edConfirm src => src.wf
  | .edRevert src => src.wf
  | .edRetryisl src => src.wf
  | .edRecover src => src.wf
  | .trialTimeRecord => true
  | .trialExpiry => true
  | .nvRowWrite src => src.wf
  | .nvRowWriteDone => true
  | .recoveryWindowEnd => true
  | .recoveryHello => true
  | .recoveryAttn _ body => octetsOk body
  | .recoveryRecover _ body => octetsOk body
  | .recoveryManifest _ body => octetsOk body
  | .recoveryData _ body => octetsOk body
  | .recoveryEnd _ body => octetsOk body
  | .recoveryOwner _ body => octetsOk body
  | .recoveryDkimport _ body => octetsOk body
  | .recoverySegmentTimeout => true
  | .dbgTransfer octets => octetsOk octets
  | .powerStateChoice save => decide (save ≤ 4000)
  | .parkEntryCommit => true
  | .wakeDetect _ => true
  | .wakeStageReady _ _ _ => true
  | .wakeStageFailure => true
  | .wakeRetry => true
  | .padRelease src _ => src.wf
  | .rtcSecond => true
  | .rtcSet src _ => src.wf
  | .rtcAlarmSet src _ => src.wf
  | .safeFaultDetect _ _ _ => true
  | .safeResetAssert _ _ => true
  | .voterSelfTest _ => true
  | .sramScrub _ _ => true
  | .nvmScrub _ _ => true
  | .selftestOverdue _ => true
  | .safeClear src _ _ => src.wf
  | .safeReactionConfig src _ _ => src.wf
  | .ringSymbolLock => true
  | .wakeToneReceived => true
  | .wakeFrameDecode _ ev => ev.wf
  | .updCommandDone => true
  | .dbgLinkTimeout => true
  | .operatingRangeChange _ feeds _ => decide (feeds.length = 5)

end Sys2Proof
end

