-- ==== Sys2Proof/Tests/Slice0.lean ====
section
/-! SUPPORT. Tests: for each statement that has hypotheses, states and operands that meet them, clause by clause; an
ill-formed command for each check of WellFormed; and single steps. -/

open Sys2Proof Sys2Proof.Machine
namespace Sys2Proof.Tests
set_option Elab.async false
set_option maxRecDepth 4000
/-- A state of the running device in FIELD with every island ready, a folio that binds every unit, and the channels'
heartbeat enabled. -/
def up : State :=
  let s : State := { State.reset with
    folio := { State.reset.folio with sects := [
      (5, (List.range 16).map (fun k => BitVec.ofNat 36 (k * 2 ^ 32))),
      (6, [0, 0, 0x240000000, 0, 0x480000000, 0, 0x6C0000000, 0, 0x900000000, 0, 0xB60000000, 0]),
      (7, [0x8004000FF, 0xFFFFFF, 0xFFFFFF]),
      (10, 0xFFFFFFFFF :: List.replicate 8 0x080000000),
      (11, [0]),
      (13, [0x050000000, 0, 0xFFFFFFFFF]),
      (14, [0, 0x050600000, 0x3FFFC00]),
      (15, [0, 0])] } }
  [((0x4000001C : Nat), (0x7FF : Word))].foldl (fun s p => s.wr p.1 p.2) ((s.put vaultB VAULT_LC_STATE 2).put Blk.psg.base PSG_CTRL_HBEN 1)

/-- A change of registers. -/
def reg (s : State) (l : List (Nat × Fld × Nat)) : State := l.foldl (fun s p => s.put p.1 p.2.1 p.2.2) s

/-- Every check of R94 passes. -/
def ok (r : WriteReq) (fails : State → Word → Fails) (locked : Bool) (s : State) : Bool :=
  match regDesc r.blk r.off with
  | none => false
  | some d => noneAhead s r.src.req (some r.blk) && s.ready r.blk.island && !testDriven r s &&
    (firstFail (fails s (r.plainWord d s) ++ sharedFails s r d (r.old s) (r.plainWord d s) locked)).isNone

/-- CAN0 with a legal bit timing. -/
def canUp : State := reg up [(canB 0, CAN_TDC_TDCEN, 1)]

/-- A state with a distribution key, an owner, and a manifest signed by the owner in the buffer. -/
def signed : State :=
  let s := [(0, 0x4977227B), (1, 0x955A0C90), (2, 0x988FDC01), (3, 0xB5623170), (4, 0xAB8E313F), (5, 0xE0641622), (6, 0x40D6CF4B), (7, 0xDAC7E65E)].foldl (fun (s : State) (p : Nat × Nat) => s.wr (0x40600240 + 4 * p.1) (BitVec.ofNat 36 p.2)) up
  { s with upd := { s.upd with dkReg := some [], buf := [
    (0, 0xED170A036), (1, 0x367201001), (5, 0x400), (6, 0x100),
    (32, 0x5ECBE4D1), (33, 0xA6330A44), (34, 0xC8F7EF95), (35, 0x1D4BF165), (36, 0xE6C6B721), (37, 0xEFADA985), (38, 0xFB41661B), (39, 0xC6E7FD6C), (40, 0x8734640C), (41, 0x4998FF7E), (42, 0x374B06CE), (43, 0x1A64A2EC), (44, 0xD82AB036), (45, 0x384FB83D), (46, 0x9A79B127), (47, 0xA27D5032),
    (48, 0x8E533B6F), (49, 0xA0BF7B46), (50, 0x25BB3066), (51, 0x7C01FB60), (52, 0x7EF9F8B8), (53, 0xA80FEF5B), (54, 0x30062870), (55, 0x3187B2A3), (56, 0x2234D05D), (57, 0x5ACE66B3), (58, 0x4DE42702), (59, 0xE3F9E014), (60, 0xC89BBC46), (61, 0x3AF73F68), (62, 0x338CEF2D), (63, 0xD9454CE6)] } }

/-- The checks that `ok` evaluates are those of `Passes`. -/
theorem passes_of {r : WriteReq} {fails : State → Word → Fails} {locked : Bool} {s : State}
    (h : ok r fails locked s = true) : ∃ d, Passes r fails locked s d := by
  unfold ok at h
  split at h
  · cases h
  · rename_i d hd
    simp only [Bool.and_eq_true, Bool.not_eq_true', Option.isNone_iff_eq_none] at h
    exact ⟨d, h.1.1.1, h.1.1.2, h.1.2, hd, h.2⟩

theorem meets_ProtectionEventsComplete :
    (let f : Nat := 3; let s : State := (reg up [(pscP 3, PSC_STRUCT_USE, 1)]); (served s f) = true) ∧
    (let f : Nat := 3; let s : State := ((reg up [(pscP 3, PSC_STRUCT_USE, 1), (pscP 3, PSC_STAT_STATE, 1)]).setCh 3 (fun e => { e with hs := true })); (served s f && driven (chState s (lead s f)) && conducts s f) = true) ∧
    (let f : Nat := 3; let s : State := ((reg up [(pscP 3, PSC_STRUCT_USE, 1), (pscP 3, PSC_STAT_STATE, 1)]).setCh 3 (fun e => { e with limHi := ⟨some 0, 100000000, none⟩, limLo := ⟨some 0, 100000000, none⟩, hs := true })); let g := lead s f; (served s f && conducts s f && decide (us (10 * s.get (pscP g) PSC_LIMIT_TLIM) ≤ (onLimit s f).total s.now)) = true) ∧
    (let f : Nat := 3; let s : State := ((reg up [(pscP 3, PSC_STRUCT_USE, 1), (pscP 3, PSC_STAT_STATE, 1)]).setCh 3 (fun e => { e with hs := true })); (served s f && conducts s f) = true) ∧
    (let f : Nat := 3; let s : State := (reg up [(pscP 3, PSC_STRUCT_USE, 1)]); (served s f) = true) ∧
    (let f : Nat := 3; let s : State := ((reg up [(pscP 3, PSC_STRUCT_USE, 1)]).setCh 3 (fun e => { e with winEnd := some 0 })); (s.ch (lead s f)).winEnd = some s.now) ∧
    (let f : Nat := 3; let s : State := { ((reg up [(pscP 3, PSC_STRUCT_USE, 1)]).setCh 3 (fun e => { e with winEnd := some 0 })) with now := 0x400000000 }; (served s f && s.due (s.ch (lead s f)).winEnd) = true ∧ (s.ch (lead s f)).winEnd ≠ some s.now) ∧
    (let f : Nat := 3; let s : State := (reg up [(pscP 3, PSC_STRUCT_USE, 1)]); (served s f) = true) ∧
    (let s : State := up; (s.ready .power) = true) ∧
    (let f : Nat := 3; let s : State := (reg up [(pscP 3, PSC_STRUCT_USE, 1), (pscP 3, PSC_STAT_STATE, stParkon)]); (carried s f && chState s (lead s f) == stParkon) = true) ∧
    (let f : Nat := 3; let s : State := (reg up [(pscP 3, PSC_STRUCT_USE, 1)]); (carried s f) = true) ∧
    (let f : Nat := 3; let s : State := (reg up [(pscP 3, PSC_STRUCT_USE, 1)]); (carried s f) = true) ∧
    (let s : State := { up with beat := { up.beat with deadline := some up.now } }; beatDue s = some s.now) ∧
    (let f : Nat := 3; let s : State := ((reg up [(pscP 3, PSC_STRUCT_USE, 1), (pscP 3, PSC_STAT_STATE, 5)]).setCh 3 (fun e => { e with retryAt := some 0 })); (served s f && chState s (lead s f) == stRetry && restartOk s (lead s f)) = true ∧ beatDue s ≠ some s.now) ∧
    (let f : Nat := 3; let s : State := { (reg up [(pscP 3, PSC_STRUCT_USE, 1)]) with now := 0x400000000 }; let g := lead s f; (served s f && chState s g != stRetry && chState s g != stLocked && !latched s g && decide (sec 10 ≤ (s.now - (s.ch g).quiet).toNat)) = true) ∧
    (let f : Nat := 3; let s : State := (reg up [(pscP 3, PSC_STRUCT_USE, 1)]); (served s f) = true) := by
  refine ⟨?_, ?_, ?_, ?_, ?_, ?_, ?_, ?_, ?_, ?_, ?_, ?_, ?_, ?_, ?_, ?_⟩ <;> decide +kernel

theorem meets_ProtectionEventsComplete_2 :
    (let f : Nat := 3; let s : State := (reg up [(pscP 3, PSC_STRUCT_USE, 1)]); (served s f) = true) ∧
    (let f : Nat := 3; let s : State := (reg up [(pscP 3, PSC_STRUCT_USE, 1)]); (served s f) = true) ∧
    (let f : Nat := 3; let s : State := ((reg up [(pscP 3, PSC_STRUCT_USE, 1), (pscP 3, PSC_DIAG_OLON, 1)]).setCh 3 (fun e => { e with olTime := 1000000000 })); (served s f && s.get (pscP (lead s f)) PSC_DIAG_OLON != 0 && decide (ms (s.get (pscP (lead s f)) PSC_DIAG_OLT) ≤ (s.ch (lead s f)).olTime)) = true) ∧
    (let f : Nat := 3; let s : State := (reg up [(pscP 3, PSC_STRUCT_USE, 1)]); (served s f) = true) ∧
    (let f : Nat := 3; let s : State := (reg up [(pscP 3, PSC_STRUCT_USE, 1)]); (served s f) = true) ∧
    (let f : Nat := 3; let s : State := ((reg up [(pscP 3, PSC_STRUCT_USE, 1), (pscP 3, PSC_STRUCT_PAIR, 1)]).setCh 3 (fun e => { e with imbTime := 1000000000 })); (served s f && isEven s (lead s f) && decide (ms 10 ≤ (s.ch (lead s f)).imbTime)) = true) ∧
    (let s : State := up; (s.ready .power) = true) ∧
    (let s : State := up; (s.ready .power) = true) ∧
    (let feed : Nat := 0; let s : State := up; s.ready .power = true ∧ (decide (feed < 5)) = true) ∧
    (let feed : Nat := 0; let volt : Int := 5999; let s : State := up; s.ready .power = true ∧ (decide (feed < 5) && decide (volt < 6000)) = true) ∧
    (let feed : Nat := 4; let volt : Int := 36001; let s : State := up; s.ready .power = true ∧ (decide (feed < 5) && decide (36000 < volt)) = true) ∧
    (let feed : Nat := 0; let s : State := up; s.ready .power = true ∧ (decide (feed < 5)) = true) ∧
    (let feed : Nat := 0; let volt : Int := -2001; let s : State := up; s.ready .power = true ∧ (decide (feed < 5) && decide (volt < -2000)) = true) ∧
    (let s : State := { (reg up [(Blk.psg.base, PSG_STAT_HBRUN, 1)]) with beat := { up.beat with deadline := some 0 } }; s.beat.deadline = some s.now) ∧
    (let s : State := { { (reg up [(Blk.psg.base, PSG_STAT_HBRUN, 1)]) with beat := { up.beat with deadline := some 0 } } with now := 0x400000000 }; (s.flag Blk.psg.base PSG_STAT_HBRUN && s.due s.beat.deadline) = true ∧ s.beat.deadline ≠ some s.now) ∧
    (let s : State := { (reg up [(Blk.psg.base, PSG_STAT_HOLDACT, 1)]) with beat := { up.beat with holdEnd := some 0 } }; s.beat.holdEnd = some s.now) := by
  refine ⟨?_, ?_, ?_, ?_, ?_, ?_, ?_, ?_, ?_, ?_, ?_, ?_, ?_, ?_, ?_, ?_⟩ <;> decide +kernel

theorem meets_ProtectionEventsComplete_3 :
    (let s : State := { { (reg up [(Blk.psg.base, PSG_STAT_HOLDACT, 1)]) with beat := { up.beat with holdEnd := some 0 } } with now := 0x400000000 }; (s.flag Blk.psg.base PSG_STAT_HOLDACT && s.tbRun && s.due s.beat.holdEnd) = true ∧ s.beat.holdEnd ≠ some s.now) ∧
    (let s : State := up; (s.ready .power) = true) := by
  refine ⟨?_, ?_⟩ <;> decide +kernel

theorem meets_MotionAndStrokeEventsComplete :
    (let s : State := ((reg up [(pscP 3, PSC_STRUCT_USE, 1), (pscP 3, PSC_STAT_STATE, stPwm)]).setCh 3 (fun e => { e with boundary := some up.now })); (usedFuncs s).any (fun f => pwmRuns s f && (s.ch f).boundary == some s.now) = true) ∧
    (let s : State := up; (usedFuncs s).any (fun f => pwmRuns s f && (s.ch f).boundary == some s.now) = false) ∧
    (let k : Nat := 0; let s : State := ((reg up [(motP 0, MOT_STAT_STATE, 1)]).setMo 0 (fun e => { e with softEnd := some 0 })); (motThere s k && motState s k == 1 && s.due (s.mo k).softEnd) = true) ∧
    (let k : Nat := 0; let s : State := ((reg up [(motP 0, MOT_STAT_STATE, 1)]).setMo 0 (fun e => { e with counting := true })); (motThere s k && (s.mo k).counting) = true) ∧
    (let k : Nat := 0; let s : State := ((reg up [(motP 0, MOT_STAT_STATE, 1)]).setMo 0 (fun e => { e with counting := true })); (motThere s k && (s.mo k).counting) = true) ∧
    (let k : Nat := 0; let s : State := { ((reg up [(motP 0, MOT_STAT_STATE, 2)]).setMo 0 (fun e => { e with counting := true })) with now := 0x400000000 }; (motThere s k && (s.mo k).counting && (motState s k == 2 || motState s k == 4) && (s.mo k).reverse.isNone && decide (5000000 < (s.now - (s.mo k).lastDip).toNat)) = true) ∧
    (let k : Nat := 0; let s : State := (reg up [(motP 0, MOT_STAT_STATE, 1)]); (motThere s k && decide (motKind s k ≤ 1) && motState s k == 1 && !motDir s k && (s.mo k).softEnd.isNone) = true) ∧
    (let k : Nat := 0; let s : State := ((reg up [(motP 0, MOT_STAT_STATE, 3)]).setMo 0 (fun e => { e with brakeEnd := some 0 })); (motThere s k && motState s k == 3 && (s.mo k).brakeEnd.isSome && (s.due (s.mo k).brakeEnd || decide (motRate s k * 10 < (s.mo k).wfree))) = true) ∧
    (let k : Nat := 0; let endStop : Bool := true; let s : State := (reg up [(motP 0, MOT_STAT_STATE, 3)]); (motThere s k && motState s k == 3 && (s.mo k).brakeEnd.isNone && (match (s.mo k).revTo with | some p => decide (p ≤ motPos s k) | none => endStop)) = true) ∧
    (let k : Nat := 0; let current : Nat := 1000000; let s : State := ((reg up [(motP 0, MOT_STAT_STATE, 1), (motP 0, MOT_SPEED_TGT, 10), (motP 0, MOT_LIMIT_STALLT, 0)]).setMo 0 (fun e => { e with stallAt := some up.now })); let t : Word := up.now; (motThere s k && (motState s k == 1 || (motState s k == 3 && (s.mo k).brakeEnd.isNone))) = true ∧ stalled s k current = true ∧ (s.mo k).stallAt = some t ∧ ms (s.get (motP k) MOT_LIMIT_STALLT) ≤ (s.now - t).toNat) ∧
    (let k : Nat := 0; let current : Nat := 1000000; let s : State := ((reg up [(motP 0, MOT_STAT_STATE, 1), (motP 0, MOT_SPEED_TGT, 10), (motP 0, MOT_LIMIT_STALLT, 1)]).setMo 0 (fun e => { e with stallAt := some up.now })); let t : Word := up.now; (motThere s k && (motState s k == 1 || (motState s k == 3 && (s.mo k).brakeEnd.isNone))) = true ∧ stalled s k current = true ∧ (s.mo k).stallAt = some t ∧ (s.now - t).toNat < ms (s.get (motP k) MOT_LIMIT_STALLT)) ∧
    (let k : Nat := 0; let s : State := ((reg up [(motP 0, MOT_STAT_STATE, 2)]).setMo 0 (fun e => { e with brakeEnd := some 0 })); (motThere s k && motState s k == 2 && s.due (s.mo k).brakeEnd) = true) ∧
    (let k : Nat := 0; let s : State := ((reg up [(motP 0, MOT_STAT_STATE, 1)]).setMo 0 (fun e => { e with op := 3 })); (motThere s k && motState s k == 1 && (s.mo k).op == 3 && (if motDir s k then decide ((s.mo k).target ≤ motPos s k) else decide (motPos s k ≤ (s.mo k).target))) = true) ∧
    (let k : Nat := 0; let s : State := ((reg up [(motP 0, MOT_STAT_STATE, 1)]).setMo 0 (fun e => { e with moveEnd := some 0 })); (s.mo k).moveEnd = some s.now) ∧
    (let k : Nat := 0; let s : State := { ((reg up [(motP 0, MOT_STAT_STATE, 1)]).setMo 0 (fun e => { e with moveEnd := some 0 })) with now := 0x400000000 }; (motThere s k && motKind s k != 2 && motMoving s k && !(motState s k == 3 && (s.mo k).brakeEnd.isSome) && s.due (s.mo k).moveEnd) = true ∧ (s.mo k).moveEnd ≠ some s.now) ∧
    (let k : Nat := 0; let s : State := { up with folio := { up.folio with sects := [(6, [0x020000000, 0])] } }; s.ready .power = true ∧ (motThere s k && motKind s k == 2) = true) := by
  refine ⟨?_, ?_, ?_, ?_, ?_, ?_, ?_, ?_, ?_, ?_, ?_, ?_, ?_, ?_, ?_, ?_⟩ <;> decide +kernel

theorem meets_MotionAndStrokeEventsComplete_2 :
    (let s : State := up; s.ready .power = true) ∧
    (let k : Nat := 0; let s : State := (State.setMo { up with folio := { up.folio with sects := [(6, [0x020000000, 0])] } } 0 (fun e => { e with cycle := true, moveEnd := some 0 })); (s.mo k).moveEnd = some s.now) ∧
    (let k : Nat := 0; let s : State := { (State.setMo { up with folio := { up.folio with sects := [(6, [0x020000000, 0])] } } 0 (fun e => { e with cycle := true, moveEnd := some 0 })) with now := 0x400000000 }; (motThere s k && motKind s k == 2 && (s.mo k).cycle && s.due (s.mo k).moveEnd) = true ∧ (s.mo k).moveEnd ≠ some s.now) ∧
    (let s : State := up; s.ready .power = true) ∧
    (let s : State := up; s.ready .power = true) ∧
    (let k : Nat := 0; let s : State := (reg up [(stkP 0, STK_STAT_PHASE, 2)]); (stkThere s k && stkLead s k == k && (stkPhase s k == 2 || stkReleased s k)) = true ∧ (phaseActive (stkPhase s k) && dutyReached s k) = false) ∧
    (let k : Nat := 0; let s : State := ((reg up [(stkP 0, STK_STAT_PHASE, 2)]).setSk 0 (fun e => { e with phaseEnd := some 0 })); (s.sk k).phaseEnd = some s.now) ∧
    (let k : Nat := 0; let s : State := { ((reg up [(stkP 0, STK_STAT_PHASE, 2)]).setSk 0 (fun e => { e with phaseEnd := some 0 })) with now := 0x400000000 }; (stkThere s k && stkLead s k == k && stkPhase s k == 2 && s.due (s.sk k).phaseEnd && !(phaseActive (stkPhase s k) && dutyReached s k)) = true ∧ (s.sk k).phaseEnd ≠ some s.now) ∧
    (let k : Nat := 0; let s : State := { ((reg up [(stkP 0, STK_STAT_PHASE, 2), (stkP 0, STK_CFG_WINEN, 1)]).setSk 0 (fun e => { e with fresh := true })) with now := 0x400000000 }; (stkThere s k && stkLead s k == k && phaseActive (stkPhase s k) && (s.sk k).fresh && s.flag (stkP k) STK_CFG_WINEN && !(s.sk k).judged && decide (us (s.get (stkP k) STK_WIN_TPMAX) < (s.now - (s.sk k).boostAt).toNat)) = true) ∧
    (let k : Nat := 0; let s : State := ((reg up [(stkP 0, STK_STAT_PHASE, 3)]).setSk 0 (fun e => { e with phaseEnd := some 0 })); (s.sk k).phaseEnd = some s.now) ∧
    (let k : Nat := 0; let s : State := { ((reg up [(stkP 0, STK_STAT_PHASE, 3)]).setSk 0 (fun e => { e with phaseEnd := some 0 })) with now := 0x400000000 }; (stkThere s k && stkLead s k == k && stkPhase s k == 3 && s.due (s.sk k).phaseEnd && !(phaseActive (stkPhase s k) && dutyReached s k)) = true ∧ (s.sk k).phaseEnd ≠ some s.now) ∧
    (let k : Nat := 0; let s : State := ((reg up [(stkP 0, STK_STAT_PHASE, 4)]).setSk 0 (fun e => { e with phaseEnd := some 0 })); (s.sk k).phaseEnd = some s.now) ∧
    (let k : Nat := 0; let s : State := { ((reg up [(stkP 0, STK_STAT_PHASE, 4)]).setSk 0 (fun e => { e with phaseEnd := some 0 })) with now := 0x400000000 }; (stkThere s k && stkLead s k == k && stkPhase s k == 4 && s.due (s.sk k).phaseEnd && !(phaseActive (stkPhase s k) && dutyReached s k)) = true ∧ (s.sk k).phaseEnd ≠ some s.now) ∧
    (let k : Nat := 0; let s : State := ((reg up [(stkP 0, STK_STAT_PHASE, 5)]).setSk 0 (fun e => { e with phaseEnd := some 0 })); (s.sk k).phaseEnd = some s.now) ∧
    (let k : Nat := 0; let s : State := { ((reg up [(stkP 0, STK_STAT_PHASE, 5)]).setSk 0 (fun e => { e with phaseEnd := some 0 })) with now := 0x400000000 }; (stkThere s k && stkLead s k == k && stkPhase s k == 5 && s.due (s.sk k).phaseEnd && !(phaseActive (stkPhase s k) && dutyReached s k)) = true ∧ (s.sk k).phaseEnd ≠ some s.now) ∧
    (let k : Nat := 0; let s : State := (reg up [(stkP 0, STK_STAT_PHASE, 3)]); (stkThere s k && stkLead s k == k && (stkPhase s k == 3 || stkPhase s k == 4) && (s.sk k).chopEnd.isNone) = true) := by
  refine ⟨?_, ?_, ?_, ?_, ?_, ?_, ?_, ?_, ?_, ?_, ?_, ?_, ?_, ?_, ?_, ?_⟩ <;> decide +kernel

theorem meets_MotionAndStrokeEventsComplete_3 :
    (let k : Nat := 0; let s : State := ((reg up [(stkP 0, STK_STAT_PHASE, 4)]).setSk 0 (fun e => { e with chopEnd := some 0 })); (stkThere s k && stkLead s k == k && (stkPhase s k == 3 || stkPhase s k == 4) && s.due (s.sk k).chopEnd) = true) ∧
    (let k : Nat := 0; let s : State := ((reg up [(stkP 0, STK_STAT_PHASE, 3), (stkP 0, STK_DUTY_DLIM, 1), (stkP 0, STK_DUTY_DWIN, 1)]).setSk 0 (fun e => { e with segs := [100000000] })); (stkThere s k && stkLead s k == k) = true) ∧
    (let k : Nat := 0; let s : State := { up with now := 0x400000000 }; let len := s.get (stkP k) STK_DUTY_DWIN * 156250; (stkThere s k && stkLead s k == k && s.reached ((s.sk k).segAt + BitVec.ofNat 36 len)) = true) := by
  refine ⟨?_, ?_, ?_⟩ <;> decide +kernel

theorem meets_LightingEventsComplete :
    (let n : Nat := 0; let s : State := up; s.ready .light = true ∧ (decide (n < 8) && tgtUsed s (.str n)) = true) ∧
    (let n : Nat := 0; let s : State := (up.setSt 0 (fun e => { e with boundary := some 0 })); s.ready .light = true ∧ (s.st n).boundary = some s.now) ∧
    (let n : Nat := 0; let s : State := { (up.setSt 0 (fun e => { e with boundary := some 0 })) with now := 0x400000000 }; s.ready .light = true ∧ (decide (n < 8) && strRuns s n && s.due (s.st n).boundary) = true ∧ (s.st n).boundary ≠ some s.now) ∧
    (let n : Nat := 0; let s : State := { (up.setSt 0 (fun e => { e with want := true })) with now := 2000 }; s.ready .light = true ∧ (strMeasurable s n) = true) ∧
    (let n : Nat := 0; let s : State := { (up.setSt 0 (fun e => { e with want := true, stopped := true })) with now := 0x400000000 }; s.ready .light = true ∧ (decide (n < 8) && retestDue s n) = true) ∧
    (let n : Nat := 0; let s : State := { { ((reg up [(stP 0, LGT_STDIAG_SHV, 1)]).setSt 0 (fun e => { e with want := true })) with now := 2000 } with now := 0x400000000 }; s.ready .light = true ∧ (strMeasurable s n && decide (us 50 ≤ strMeas s n) && s.get (stP n) LGT_STDIAG_SHV != 0) = true) ∧
    (let n : Nat := 0; let s : State := { ((reg up [(stP 0, LGT_STSTAT_STATE, 1)]).setSt 0 (fun e => { e with want := true })) with now := 2000 }; s.ready .light = true ∧ (strMeasurable s n && (stState s n == 1 || stState s n == 2 || stState s n == 3)) = true) ∧
    (let n : Nat := 0; let s : State := up; s.ready .light = true ∧ (decide (n < 8) && tgtUsed s (.str n)) = true) ∧
    (let s : State := { up with light := { up.light with skNext := some 0 } }; s.ready .light = true ∧ s.light.skNext = some s.now) ∧
    (let s : State := { { up with light := { up.light with skNext := some 0 } } with now := 0x400000000 }; s.ready .light = true ∧ (s.due s.light.skNext) = true ∧ s.light.skNext ≠ some s.now) ∧
    (let n : Nat := 20; let s : State := { (up.setSn 20 (fun e => { e with want := true })) with now := 200 }; s.ready .light = true ∧ (sinkMeasurable s n) = true) ∧
    (let n : Nat := 20; let s : State := { (up.setSn 20 (fun e => { e with want := true })) with now := 200 }; s.ready .light = true ∧ (sinkMeasurable s n) = true) ∧
    (let n : Nat := 5; let s : State := up; s.ready .light = true ∧ (decide (n < 6)) = true) ∧
    (let isSink : Bool := false; let n : Nat := 0; let s : State := (let x : State := up; { x with now := ageEnd x false 0 }); s.ready .light = true ∧ ageEnd s isSink n = s.now) ∧
    (let isSink : Bool := true; let n : Nat := 0; let s : State := { up with now := 0x400000000 }; s.ready .light = true ∧ (diagIdx isSink n && tgtUsed s (diagTgt isSink n) && !diagNow s isSink n && s.reached (ageEnd s isSink n) && diagAt s isSink n != s.now) = true ∧ ageEnd s isSink n ≠ s.now) ∧
    (let isSink : Bool := true; let n : Nat := 47; let s : State := { (reg up [(skP 47, LGT_SKCFG_OPENMODE, 2)]) with now := 0x400000000 }; s.ready .light = true ∧ (diagIdx isSink n && tgtUsed s (diagTgt isSink n) && diagMode s isSink n == 2 && offTestOk s isSink n) = true) := by
  refine ⟨?_, ?_, ?_, ?_, ?_, ?_, ?_, ?_, ?_, ?_, ?_, ?_, ?_, ?_, ?_, ?_⟩ <;> decide +kernel

theorem meets_LightingEventsComplete_2 :
    (let isSink : Bool := true; let n : Nat := 0; let s : State := (up.setSn 0 (fun e => { e with testEnd := some 0 })); s.ready .light = true ∧ (diagIdx isSink n && s.due (if isSink then (s.sn n).testEnd else (s.st n).testEnd)) = true) ∧
    (let s : State := { (reg up [(lgt, LGT_MXCTRL_EN, 1)]) with folio := { up.folio with sects := [(7, [0x800000000])] }, light := { up.light with matrix := { up.light.matrix with nextSlot := some 0, rowOff := some 0 } } }; s.ready .light = true ∧ s.light.matrix.nextSlot = some s.now) ∧
    (let s : State := { { (reg up [(lgt, LGT_MXCTRL_EN, 1)]) with folio := { up.folio with sects := [(7, [0x800000000])] }, light := { up.light with matrix := { up.light.matrix with nextSlot := some 0, rowOff := some 0 } } } with now := 0x400000000 }; s.ready .light = true ∧ (hasMatrix s && s.due s.light.matrix.nextSlot) = true ∧ s.light.matrix.nextSlot ≠ some s.now) ∧
    (let s : State := { (reg up [(lgt, LGT_MXCTRL_EN, 1)]) with folio := { up.folio with sects := [(7, [0x800000000])] }, light := { up.light with matrix := { up.light.matrix with nextSlot := some 0, rowOff := some 0 } } }; s.ready .light = true ∧ (rowOn s) = true) ∧
    (let s : State := { (reg up [(lch, LCH_CTRL_EN, 1), (lch, LCH_CTRL_REFR, 1)]) with now := 0x400000000 }; let r := s.get lch LCH_CTRL_REFR; s.ready .light = true ∧ (s.flag lch LCH_CTRL_EN && r != 0 && s.reached (s.light.chain.started + BitVec.ofNat 36 (ms r)) && s.light.chain.started != s.now) = true) ∧
    (let s : State := { up with light := { up.light with chain := { up.light.chain with frameEnd := some 0 } } }; s.ready .light = true ∧ (s.due s.light.chain.frameEnd) = true) := by
  refine ⟨?_, ?_, ?_, ?_, ?_, ?_⟩ <;> decide +kernel

theorem meets_InputTimerAndSafetyEventsComplete :
    (let n : Nat := 0; let s : State := (reg up [(inpI 0, INP_ACFG_USE, 1)]); s.ready .tbase = true ∧ (decide (n < 8) && s.flag (inpI n) INP_ACFG_USE && (s.pwr.state == .run || s.pwr.state == .lift)) = true) ∧
    (let s : State := { (reg up [(inpB, INP_ADCTRL_EN, 1)]) with inp := { up.inp with adNext := some 0 } }; s.ready .tbase = true ∧ (s.flag inpB INP_ADCTRL_EN && !s.flag inpB INP_ADCTRL_TRIG && s.due s.inp.adNext) = true) ∧
    (let s : State := up; s.ready .tbase = true) ∧
    (let s : State := { up with inp := { up.inp with adPos := some 0, adEnd := some 0 } }; let k : Nat := 0; let t : Word := 0; s.ready .tbase = true ∧ s.inp.adPos = some k ∧ s.inp.adEnd = some t ∧ s.reached t = true) ∧
    (let s : State := { up with inp := { up.inp with adPos := some 1 } }; s.ready .tbase = true ∧ (match s.inp.adPos with | some k => decide (s.get inpB INP_ADCTRL_NSEQ ≤ k) | none => false) = true) ∧
    (let s : State := up; s.ready .tbase = true) ∧
    (let s : State := up; s.ready .tbase = true) ∧
    (let n : Nat := 0; let s : State := (reg up [(tmrP 0, TMR_CTRL_CSRC, 0)]); s.ready .tbase = true ∧ (tmrTakes s n 0) = true) ∧
    (let n : Nat := 0; let rising : Bool := true; let s : State := (reg ({ up with folio := { up.folio with sects := (1, [0x3C4100000]) :: up.folio.sects } }) [(tmrP 0, TMR_CTRL_CSRC, 1)]); let e := s.get (tmrP n) TMR_CTRL_CEDGE; s.ready .tbase = true ∧ (tmrTakes s n 1 && termFunc s (241 + n) (16 + n) && (e == 2 || (e == 0) == rising)) = true) ∧
    (let code : Nat := 0x70; let s : State := up; s.ready .tbase = true ∧ (0x70 ≤ code ∧ code < 0x90) ∨ (0x188 ≤ code ∧ code < 0x190)) ∧
    (let code : Nat := 0x180; let s : State := up; s.ready .tbase = true ∧ ¬ ((0x70 ≤ code ∧ code < 0x90) ∨ (0x188 ≤ code ∧ code < 0x190))) ∧
    (let t : Fin 5 := 0; let s : State := up; isDown s = false ∧ bestSource s t.val = none) ∧
    (let t : Fin 5 := 0; let s : State := ((reg up [(Blk.sys.base, SYS_FABERR_VALID, 1)]).wr (icuSrc 4) (setBits (setBits 0 35 35 1) 34 31 9)); isDown s = false ∧ (bestSource s t.val).isSome = true) ∧
    (let c : CoreId := 0; let s : State := { (up.setCore 0 (fun k => { k with running := true, ie := true })) with icu := { up.icu with presented := up.icu.presented.set 0 (some 4) } }; let k := s.core c.val; k.running = true ∧ k.stopped = false ∧ k.ie = true ∧ k.exl = false ∧ (s.icu.presented.getD c.val none).isSome = true) ∧
    (let cls : Fin 16 := 5; (cls != 0) = true) ∧
    (let t : Fin 4 := 0; let s : State := { up with now := 0x400000000, folio := { up.folio with sects := [(15, [0, 0])] } }; (!isDown s && s.hasSect 15 && decide (testPeriod s t.val < testElapsed s t.val) && !bitAt (s.rd (safeB + 0x20)) (35 - t.val)) = true) := by
  refine ⟨?_, ?_, ?_, ?_, ?_, ?_, ?_, ?_, ?_, ?_, ?_, ?_, ?_, ?_, ?_, ?_⟩ <;> decide +kernel

theorem meets_InputTimerAndSafetyEventsComplete_2 :
    (let n : Nat := 0; let s : State := (reg up [(tmrP 0, TMR_STAT_RUNNING, 1), (tmrP 0, TMR_PERIOD_PERIOD, 1)]); let t := tmrTickEnd (endTick s); let u := tickOver t; s.tbRun = true ∧ (s.ready .tbase && tmrNext tmrPerNext tmrEnds s n) = true ∧ t.tbRun = true ∧ u.posted = []) ∧
    (let n : Nat := 0; let s : State := (reg up [(tmrP 0, TMR_STAT_RUNNING, 1), (tmrP 0, TMR_CMP_CMP, 1)]); let t := tmrTickEnd (endTick s); let u := tickOver t; s.tbRun = true ∧ (s.ready .tbase && tmrNext tmrCmpNext tmrMeets s n) = true ∧ t.tbRun = true ∧ u.posted = []) ∧
    (let n : Nat := 31; let s : State := (up.setTm 31 (fun e => { e with toDue := true })); let t := tmrTickEnd (endTick s); let u := tickOver t; s.tbRun = true ∧ (decide (n < 32) && (s.tm n).toDue && !((s.tm n).capDue && tmrRun s n && tmrMode s n == 2)) = true ∧ t.tbRun = true ∧ u.posted = []) ∧
    (let line : Nat := 0; let s : State := { up with flights := [⟨0, up.now + 1, false⟩] }; let t := tmrTickEnd (endTick s); let u := tickOver t; s.tbRun = true ∧ (s.flights.any (fun e => e.line == line && e.tick == s.now + 1)) = true ∧ t.tbRun = true ∧ u.posted = []) ∧
    (let s : State := { up with now := 0x400000000 }; s.ready .tbase = true ∧ (scanDue s) = true) ∧
    (let src : Src := ⟨0, .trust⟩; let s : State := up; s.ready Blk.icu.island = true ∧ noneAhead s src.req (some .icu) = true) ∧
    (let src : Src := ⟨0, .trust⟩; let s : State := up; s.ready Blk.inp.island = true ∧ noneAhead s src.req (some .inp) = true) ∧
    (let src : Src := ⟨0, .trust⟩; let s : State := up; s.ready Blk.tmr.island = true ∧ noneAhead s src.req (some .tmr) = true) ∧
    (let src : Src := ⟨9, .trust⟩; let s : State := up; s.ready Blk.tmr.island = true ∧ noneAhead s src.req (some .tmr) = true) := by
  refine ⟨?_, ?_, ?_, ?_, ?_, ?_, ?_, ?_, ?_⟩ <;> decide +kernel

theorem meets_CanAndLinEventsComplete :
    (let n : Fin 8 := 0; let kind : Fin 7 := 1; let dataPhase : Bool := false; let tx : Bool := false; let step : CanStep := .one; let s : State := (reg up [(canB 0, CAN_STAT_ACTIVE, 1)]); s.ready .net = true ∧ (canErrorMeets n.val kind.val dataPhase tx step s) = true) ∧
    (let n : Fin 8 := 0; let s : State := (reg up [(canB 0, CAN_STAT_ACTIVE, 1), (canB 0, CAN_CTRL_FDE, 1)]); let b := canB n.val; s.ready .net = true ∧ (s.flag b CAN_STAT_ACTIVE && s.flag b CAN_CTRL_FDE && !s.flag b CAN_STAT_TXING) = true) ∧
    (let n : Fin 8 := 0; let s : State := (reg up [(canB 0, CAN_STAT_RECOV, 1)]); let b := canB n.val; s.ready .net = true ∧ (s.flag b CAN_STAT_RECOV) = true) ∧
    (let n : Fin 8 := 0; let s : State := (reg up [(canB 0, CAN_STAT_ACTIVE, 1)]); s.ready .net = true ∧ s.flag (canB n.val) CAN_STAT_ACTIVE = true ∧ s.flag (canB n.val) CAN_STAT_TXING = false) ∧
    (let n : Fin 8 := 0; let s : State := ((reg up [(canB 0, CAN_STAT_ACTIVE, 1)]).setCn 0 (fun e => { e with txBuf := some (3, []) })); let k : Nat := 3; let ws : List Word := []; s.ready .net = true ∧ (s.cn n.val).txBuf = some (k, ws) ∧ s.flag (canB n.val) CAN_STAT_ACTIVE = true ∧ s.flag (canB n.val) CAN_STAT_TXING = false ∧ (s.cn n.val).leaving = false) ∧
    (let n : Fin 8 := 0; let stamp : Word := 0; let delay : Nat := 0; let s : State := ((reg up [(canB 0, CAN_STAT_ACTIVE, 1), (canB 0, CAN_STAT_TXING, 1)]).setCn 0 (fun e => { e with txBuf := some (3, []) })); let k : Nat := 3; let ws : List Word := []; s.ready .net = true ∧ (s.cn n.val).txBuf = some (k, ws) ∧ s.flag (canB n.val) CAN_STAT_TXING = true ∧ near stamp (s.cn n.val).sof = true ∧ (s.flag (canB n.val) CAN_TDC_TDCEN && txBrs s n.val && decide (127 < delay)) = false) ∧
    (let n : Fin 8 := 0; let stamp : Word := 0; let delay : Nat := 128; let s : State := ((reg up [(canB 0, CAN_STAT_TXING, 1), (canB 0, CAN_TDC_TDCEN, 1)]).setCn 0 (fun e => { e with txBuf := some (3, []), onBus := some ⟨0x200000000, 0, []⟩ })); let k : Nat := 3; let ws : List Word := []; s.ready .net = true ∧ (s.cn n.val).txBuf = some (k, ws) ∧ s.flag (canB n.val) CAN_STAT_TXING = true ∧ near stamp (s.cn n.val).sof = true ∧ (s.flag (canB n.val) CAN_TDC_TDCEN && txBrs s n.val && decide (127 < delay)) = true) ∧
    (let n : Fin 8 := 0; let s : State := (reg up [(canB 0, CAN_STAT_TXING, 1)]); s.ready .net = true ∧ (s.flag (canB n.val) CAN_STAT_TXING) = true) ∧
    (let n : Fin 8 := 0; let s : State := (up.setCn 0 (fun e => { e with leaving := true })); s.ready .net = true ∧ ((s.cn n.val).leaving && !s.flag (canB n.val) CAN_STAT_TXING) = true) ∧
    (let n : Fin 12 := 0; let s : State := (reg up [(linB 0, LIN_STAT_STATE, 1), (linB 0, LIN_CTRL_SCHED, 1)]); let b := linB n.val; let k := s.ln n.val; let go := linState s n.val == 1 && !isResponder s n.val && s.flag b LIN_CTRL_SCHED && k.resume.isNone && !k.sleepHdr && !linBusy s n.val && (match k.slotEnd with | none => true | some t => s.reached t); s.ready .net = true ∧ go = true) ∧
    (let n : Fin 12 := 0; let id : Fin 64 := 0; let rate : Nat := linRate up 0; let s : State := (reg up [(linB 0, LIN_STAT_STATE, 1), (linB 0, LIN_CFG_ROLE, 1)]); let comes := if isResponder s n.val then linFollows s n.val rate else (s.ln n.val).cur == some id.val && s.reached (linHdrEnd s n.val); s.ready .net = true ∧ (linState s n.val == 1 && !(s.ln n.val).sleepHdr && comes) = true) ∧
    (let n : Fin 12 := 0; let data : List Nat := [0, 0]; let sum : Nat := linChecksum up 0 0 (List.replicate 8 0); let s : State := ((reg up [(linB 0, LIN_STAT_STATE, 1), (linF 0 0, LIN_FCFG_DIR, 2)]).setLn 0 (fun e => { e with hdr := some ⟨0, 0, 200⟩ })); let h : LinHdr := ⟨0, 0, 200⟩; let os := (List.range (s.get (linF n.val h.id) LIN_FCFG_LEN)).map (fun i => data.getD i 0); s.ready .net = true ∧ (s.ln n.val).hdr = some h ∧ linState s n.val = 1 ∧ s.get (linF n.val h.id) LIN_FCFG_DIR = 2 ∧ (s.now - h.fin).toNat ≤ linTimeout s n.val h ∧ sum = linChecksum s n.val h.id os) ∧
    (let n : Fin 12 := 0; let data : List Nat := [0, 0]; let sum : Nat := 1 + linChecksum up 0 0 (List.replicate 8 0); let s : State := ((reg up [(linB 0, LIN_STAT_STATE, 1), (linF 0 0, LIN_FCFG_DIR, 2)]).setLn 0 (fun e => { e with hdr := some ⟨0, 0, 200⟩ })); let h : LinHdr := ⟨0, 0, 200⟩; let os := (List.range (s.get (linF n.val h.id) LIN_FCFG_LEN)).map (fun i => data.getD i 0); s.ready .net = true ∧ (s.ln n.val).hdr = some h ∧ linState s n.val = 1 ∧ s.get (linF n.val h.id) LIN_FCFG_DIR = 2 ∧ (s.now - h.fin).toNat ≤ linTimeout s n.val h ∧ sum ≠ linChecksum s n.val h.id os) ∧
    (let n : Fin 12 := 0; let err : Fin 6 := 2; let s : State := ((reg up [(linB 0, LIN_STAT_STATE, 1), (linF 0 0, LIN_FCFG_DIR, 2)]).setLn 0 (fun e => { e with hdr := some ⟨0, 0, 200⟩ })); let h : LinHdr := ⟨0, 0, 200⟩; s.ready .net = true ∧ (s.ln n.val).hdr = some h ∧ linState s n.val = 1 ∧ err.val ≠ 0 ∧ err.val ≠ 1) ∧
    (let n : Fin 12 := 0; let s : State := (let x : State := ((reg up [(linB 0, LIN_STAT_STATE, 1), (linF 0 0, LIN_FCFG_DIR, 2)]).setLn 0 (fun e => { e with hdr := some ⟨0, 0, 200⟩ })); { x with now := BitVec.ofNat 36 (linTimeout x 0 ⟨0, 0, 200⟩) }); let h : LinHdr := ⟨0, 0, 200⟩; let dl := h.fin + BitVec.ofNat 36 (linTimeout s n.val h); s.ready .net = true ∧ (s.ln n.val).hdr = some h ∧ linState s n.val = 1 ∧ s.get (linF n.val h.id) LIN_FCFG_DIR = 2 ∧ dl = s.now) ∧
    (let n : Fin 12 := 0; let s : State := (let x : State := ((reg up [(linB 0, LIN_STAT_STATE, 1), (linF 0 0, LIN_FCFG_DIR, 2)]).setLn 0 (fun e => { e with hdr := some ⟨0, 0, 200⟩ })); { x with now := BitVec.ofNat 36 (linTimeout x 0 ⟨0, 0, 200⟩) + 1 }); let h : LinHdr := ⟨0, 0, 200⟩; let dl := h.fin + BitVec.ofNat 36 (linTimeout s n.val h); s.ready .net = true ∧ (s.ln n.val).hdr = some h ∧ linState s n.val = 1 ∧ s.get (linF n.val h.id) LIN_FCFG_DIR = 2 ∧ linTimeout s n.val h ≤ (s.now - h.fin).toNat ∧ dl ≠ s.now) := by
  refine ⟨?_, ?_, ?_, ?_, ?_, ?_, ?_, ?_, ?_, ?_, ?_, ?_, ?_, ?_, ?_, ?_⟩ <;> decide +kernel

theorem meets_CanAndLinEventsComplete_2 :
    (let n : Fin 12 := 0; let s : State := (reg up [(linB 0, LIN_STAT_STATE, 1), (linB 0, LIN_CFG_ROLE, 1)]); let ends := isResponder s n.val || ((s.ln n.val).sleepHdr && s.reached (linSleepEnd s n.val)); s.ready .net = true ∧ (linState s n.val == 1 && ends) = true) ∧
    (let n : Fin 12 := 0; let s : State := (let x : State := up; { x with now := linIdleEnd x 0 }); s.ready .net = true ∧ linIdleEnd s n.val = s.now) ∧
    (let n : Fin 12 := 0; let s : State := { (reg up [(linB 0, LIN_STAT_STATE, 1), (linB 0, LIN_CFG_ROLE, 1)]) with now := 0x400000000 }; s.ready .net = true ∧ (linState s n.val == 1 && isResponder s n.val && s.reached (linIdleEnd s n.val)) = true ∧ linIdleEnd s n.val ≠ s.now) ∧
    (let n : Fin 12 := 0; let fin : Word := 0; let s : State := (reg up [(linB 0, LIN_STAT_STATE, 2)]); linState s n.val = 2 ∧ (s.pwr.state = .run ∨ s.pwr.state = .lift) ∧ s.flag (linB n.val) LIN_CTRL_WKEN = false ∧ (s.ln n.val).sleepAt ≠ some fin) ∧
    (let n : Fin 12 := 0; let s : State := (reg up [(linB 0, LIN_STAT_STATE, 1)]); linState s n.val = 1 ∧ (s.pwr.state = .run ∨ s.pwr.state = .lift) ∧ isDown s = false) ∧
    (let n : Fin 12 := 0; let s : State := (setPwr (reg up [(linB 0, LIN_CTRL_WKEN, 1)]) (fun p => { p with state := .park })); let t := wakeDetect s 28; s.flag (linB n.val) LIN_CTRL_WKEN = true ∧ isDown s = true ∧ (t.pwr.state = .park ∨ t.pwr.state = .capped) ∧ t.flag (linB n.val) LIN_CTRL_WKEN = true) ∧
    (let n : Fin 12 := 0; let s : State := (up.setLn 0 (fun e => { e with resume := some 0 })); s.ready .net = true ∧ (s.due (s.ln n.val).resume) = true) := by
  refine ⟨?_, ?_, ?_, ?_, ?_, ?_, ?_⟩ <;> decide +kernel

theorem meets_EthernetRingAndNmgEventsComplete :
    (let p : Fin 6 := 4; let stamp : Word := 0; let s : State := (reg up [(ethB 4, ETH_STAT_ACTIVE, 1)]); let b := ethB p.val; s.ready .net = true ∧ (s.flag b ETH_STAT_ACTIVE && !(s.et p.val).rxStop && pastCount s stamp) = true) ∧
    (let p : Fin 6 := 0; let stamp : Word := 0; let s : State := (((reg up [(ethB 0, ETH_STAT_TXRUN, 1), (ethB 0, ETH_TXBASE_BASE, 0x02000000)])).putWord 0x02000000 0x800000000); s.ready .net = true ∧ pastCount s stamp = true ∧ s.flag (ethB p.val) ETH_STAT_TXRUN = true ∧ bitAt (s.word (txDesc s p.val)) 35 = true ∧ (p.val < 4 ∨ s.flag (ethB p.val) TX_PHY_LINK = true)) ∧
    (let p : Fin 6 := 0; let stamp : Word := 0; let s : State := (((reg up [(ethB 0, ETH_STAT_ACTIVE, 1)])).setNm 8 (fun e => { e with kaPend := true })); s.ready .net = true ∧ pastCount s stamp = true ∧ p.val < 4 ∧ kaReady s (8 + p.val) = true) ∧
    (let n : Fin 2 := 0; let s : State := (reg up [(ethB 4, ETH_STAT_ACTIVE, 1)]); let p := 4 + n.val; let b := ethB p; s.ready .net = true ∧ (s.flag b ETH_STAT_ACTIVE) = true) ∧
    (let p : Fin 6 := 4; let s : State := (up.setEt 4 (fun e => { e with closing := true })); s.ready .net = true ∧ ((s.et p.val).closing) = true) ∧
    (let stamp : Word := 0; let s : State := (reg up [(ringB, RING_STAT_STATE, 2)]); s.ready .ring = true ∧ (decide (2 ≤ ringState s) && pastCount s stamp) = true) ∧
    (let h0 : Word := BitVec.ofNat 36 (ringAddr up * 65536); let h1 : Word := BitVec.ofNat 36 (hcsOf (BitVec.ofNat 36 (ringAddr up * 65536))); let pay : List Word := []; let check : Word := 0; let fin : RingEnd := .eof; let stamp : Word := 0; let s : State := (reg up [(ringB, RING_STAT_STATE, 3)]); let f : RingFrame := ⟨h0, h1, pay, check, fin⟩; s.ready .ring = true ∧ (decide (2 ≤ ringState s) && pastCount s stamp && hdrGood f && fSrc h0 == ringAddr s) = true) ∧
    (let i : Fin 4 := 0; let s : State := (let x : State := up; { x with now := ackEnd x 0 }); s.ready .ring = true ∧ ackEnd s i.val = s.now) ∧
    (let i : Fin 4 := 0; let s : State := { (reg up [(txSlot 0, RING_TXS_STATE, 2)]) with now := 0x400000000 }; s.ready .ring = true ∧ (slotState s i.val == 2 && s.reached (ackEnd s i.val)) = true ∧ ackEnd s i.val ≠ s.now) ∧
    (let s : State := { (setRing (reg up [(ringB, RING_STAT_STATE, 1)]) (fun e => { e with lock := true, lockAt := 0 })) with now := 1000000 }; s.ready .ring = true ∧ (ringTrained s) = true) ∧
    (let s : State := (setRing (reg up [(ringB, RING_STAT_STATE, 2)]) (fun e => { e with lock := true })); s.ready .ring = true ∧ (ringState s != 0 && s.ring.lock) = true) ∧
    (let s : State := (reg up [(ringB, RING_STAT_STATE, 1)]); s.ready .ring = true ∧ (ringState s != 0 && !s.ring.lock) = true) ∧
    (let s : State := (reg up [(ringB, RING_STAT_STATE, 3)]); let t := if s.flag ringB RING_CTRL_WKEN then wakeDetect s 27 else s; t.ready .ring = true ∧ ringState t = 3) ∧
    (let s : State := { (reg up [(ringB, RING_STAT_STATE, 3)]) with now := 0x400000000 }; s.ready .ring = true ∧ (decide (2 ≤ ringState s) && !s.ring.lock && !s.ring.tone && s.reached (s.ring.lossAt + BitVec.ofNat 36 (us 10))) = true) ∧
    (let s : State := (setRing (reg up [(ringB, RING_STAT_STATE, 4)]) (fun e => { e with brk := true })); s.ready .ring = true ∧ (ringState s == 4 && s.ring.brk && !s.ring.dup && s.reached s.ring.nextBreak) = true) ∧
    (let s : State := { (setRing (reg up [(ringB, RING_STAT_STATE, 4)]) (fun e => { e with lock := true })) with now := 0x400000000 }; s.ready .ring = true ∧ (ringState s == 4 && s.ring.lock && s.reached (s.ring.lockAt + BitVec.ofNat 36 (us 100))) = true) := by
  refine ⟨?_, ?_, ?_, ?_, ?_, ?_, ?_, ?_, ?_, ?_, ?_, ?_, ?_, ?_, ?_, ?_⟩ <;> decide +kernel

theorem meets_EthernetRingAndNmgEventsComplete_2 :
    (let s : State := (setRing (reg up [(ringB, RING_STAT_STATE, 2)]) (fun e => { e with claiming := true })); s.ready .ring = true ∧ (ringState s == 2 && s.ring.claiming && s.reached s.ring.nextClaim) = true) ∧
    (let s : State := (let x : State := up; { x with now := timeMissAt x }); s.ready .ring = true ∧ timeMissAt s = s.now) ∧
    (let s : State := { (reg up [(ringB, RING_STAT_STATE, 3)]) with now := 0x400000000 }; s.ready .ring = true ∧ (ringState s == 3 && s.reached (timeMissAt s)) = true ∧ timeMissAt s ≠ s.now) ∧
    (let s : State := (reg up [(ringB, RING_STAT_STATE, 3), (ringB, RING_STAT_KEEPER, 1)]); s.ready .ring = true ∧ (ringState s == 3 && isKeeper s && s.ring.timeOut.isNone && s.reached s.ring.nextTime) = true) ∧
    (let s : State := { (setRing up (fun e => { e with timeOut := some 0 })) with now := BitVec.ofNat 36 (ms 1) }; s.ready .ring = true ∧ timeReturnBy s = some s.now) ∧
    (let s : State := { (setRing (reg up [(ringB, RING_STAT_STATE, 3), (ringB, RING_STAT_KEEPER, 1)]) (fun e => { e with timeOut := some 0 })) with now := 0x400000000 }; s.ready .ring = true ∧ (ringState s == 3 && isKeeper s && s.due (timeReturnBy s)) = true ∧ timeReturnBy s ≠ some s.now) ∧
    (let s : State := (reg up [(ringB, RING_STAT_STATE, 3), (ringB, RING_STAT_KEEPER, 1)]); s.ready .ring = true ∧ (ringState s == 3 && isKeeper s && s.reached s.ring.nextCensus) = true) ∧
    (let c : Fin 12 := 0; let fr : NetFrame := .can 5 2 [5, 0]; let stamp : Word := 0; let s : State := (reg up [(nmgP 0, NMG_CTRL_EN, 1), (nmgP 0, NMG_ID_NMBASE, 0), (canB 0, CAN_STAT_ACTIVE, 1)]); let nmid : Nat := 5; s.ready .net = true ∧ s.flag (nmgP c.val) NMG_CTRL_EN = true ∧ portActive s c.val = true ∧ pastCount s stamp = true ∧ kaMatch s c.val fr = some nmid) ∧
    (let c : Fin 12 := 0; let s : State := (reg up [(nmgP 0, NMG_STAT_STATE, 3)]); s.ready .net = true ∧ (nmgState s c.val == 3) = true) ∧
    (let c : Fin 12 := 0; let s : State := (let x : State := up; { x with now := kaDue x 0 }); s.ready .net = true ∧ kaDue s c.val = s.now) ∧
    (let c : Fin 12 := 0; let s : State := { (reg up [(nmgP 0, NMG_STAT_STATE, 1)]) with now := 0x400000000 }; let k := s.nm c.val; let past := s.due k.repEnd && !s.flag (nmgP c.val) NMG_CTRL_REQ; s.ready .net = true ∧ (nmgState s c.val == 1 && !past && s.reached (kaDue s c.val)) = true ∧ kaDue s c.val ≠ s.now) ∧
    (let c : Fin 12 := 0; let s : State := (let x : State := up; { x with now := idleEnd x 0 }); s.ready .net = true ∧ idleEnd s c.val = s.now) ∧
    (let c : Fin 12 := 0; let s : State := { (reg up [(nmgP 0, NMG_STAT_STATE, 2)]) with now := 0x400000000 }; s.ready .net = true ∧ (nmgState s c.val == 2 && s.reached (idleEnd s c.val)) = true ∧ idleEnd s c.val ≠ s.now) ∧
    (let c : Fin 12 := 0; let s : State := (up.setNm 0 (fun e => { e with repEnd := some up.now })); s.ready .net = true ∧ s.due (s.nm c.val).repEnd = true ∧ (s.nm c.val).repEnd = some s.now) ∧
    (let c : Fin 12 := 0; let s : State := (let x : State := (up.setNm 0 (fun e => { e with repEnd := some up.now })); { x with now := up.now + 1 }); s.ready .net = true ∧ s.due (s.nm c.val).repEnd = true ∧ (s.nm c.val).repEnd ≠ some s.now) ∧
    (let c : Fin 12 := 0; let s : State := { ((reg up [(nmgP 0, NMG_STAT_STATE, 3)]).setNm 0 (fun e => { e with commit := some 0x400000000 })) with now := 0x400000000 }; let t : Word := 0x400000000; s.ready .net = true ∧ (s.nm c.val).commit = some t ∧ nmgState s c.val = 3 ∧ s.reached (t - BitVec.ofNat 36 (us 100)) = true) := by
  refine ⟨?_, ?_, ?_, ?_, ?_, ?_, ?_, ?_, ?_, ?_, ?_, ?_, ?_, ?_, ?_, ?_⟩ <;> decide +kernel

theorem meets_EthernetRingAndNmgEventsComplete_3 :
    (let c : Fin 12 := 0; let s : State := ((reg up [(nmgP 0, NMG_STAT_STATE, 3)]).setNm 0 (fun e => { e with commit := some 0 })); s.ready .net = true ∧ (s.nm c.val).commit = some s.now) ∧
    (let c : Fin 12 := 0; let s : State := { ((reg up [(nmgP 0, NMG_STAT_STATE, 3)]).setNm 0 (fun e => { e with commit := some 0 })) with now := 0x400000000 }; s.ready .net = true ∧ (nmgState s c.val == 3 && s.due (s.nm c.val).commit) = true ∧ (s.nm c.val).commit ≠ some s.now) ∧
    (let c : Fin 12 := 0; let s : State := (up.setNm 0 (fun e => { e with xmode := 1 })); ((s.nm c.val).xmode == 1) = true) ∧
    (let c : Fin 12 := 0; let s : State := (up.setNm 0 (fun e => { e with xmode := 1 })); ((s.nm c.val).xmode == 1) = true) ∧
    (let c : Fin 12 := 0; let s : State := (up.setNm 0 (fun e => { e with confEnd := some 0 })); s.ready .net = true ∧ (s.nm c.val).confEnd = some s.now) ∧
    (let c : Fin 12 := 0; let s : State := { (up.setNm 0 (fun e => { e with confEnd := some 0 })) with now := 0x400000000 }; s.ready .net = true ∧ (s.due (s.nm c.val).confEnd) = true ∧ (s.nm c.val).confEnd ≠ some s.now) ∧
    (let s : State := up; (s.ready .net) = true) ∧
    (let c : Fin 12 := 0; let s : State := (let x : State := up; { x with now := unservedAt x 0 }); unservedAt s c.val = s.now) ∧
    (let c : Fin 12 := 0; let s : State := { (up.setNm 0 (fun e => { e with xmode := 0 })) with now := 0x400000000 }; (((s.nm c.val).xmode == 0 || (s.nm c.val).xmode == 2) && reachedAt s.clock (unservedAt s c.val)) = true ∧ unservedAt s c.val ≠ s.now) := by
  refine ⟨?_, ?_, ?_, ?_, ?_, ?_, ?_, ?_, ?_⟩ <;> decide +kernel

theorem meets_VaultAndAccessEventsComplete :
    (let s : State := (reg up [(cryptB, CRYPT_STAT_BUSY, 1)]); s.ready .signet = true ∧ (cryptBusy s) = true) ∧
    (let s : State := setVault up (fun v => { v with load := some (3, 9) }); let n : Nat := 3; let node : Nat := 9; s.ready .signet = true ∧ s.vault.load = some (n, node) ∧ kpolNode s node = none) ∧
    (let s : State := setVault up (fun v => { v with load := some (3, 5) }); let n : Nat := 3; let node : Nat := 5; let e : List Word := [0x050000000, 0, 0xFFFFFFFFF]; s.ready .signet = true ∧ s.vault.load = some (n, node) ∧ kpolNode s node = some e) ∧
    (let t : Fin 6 := 5; let s : State := up; (t != 0 && tamperArmed s t.val && lcState s != 5) = true) ∧
    (let s : State := setVault up (fun v => { v with erasing := true }); s.vault.erasing = true) ∧
    (let s : State := setVault up (fun v => { v with verify := some (7, 0, false, ⟨4, .seal⟩) }); let op : Nat := 7; let dur : Nat := 0; let src : Src := ⟨4, .seal⟩; s.ready .signet = true ∧ s.vault.verify = some (op, dur, false, src)) ∧
    (let s : State := setVault up (fun v => { v with verify := some (5, 30, true, ⟨4, .seal⟩) }); let dur : Nat := 30; let src : Src := ⟨4, .seal⟩; s.ready .signet = true ∧ s.vault.verify = some (5, dur, true, src)) ∧
    (let s : State := setVault up (fun v => { v with verify := some (7, 0, true, ⟨4, .seal⟩) }); let op : Nat := 7; let dur : Nat := 0; let src : Src := ⟨4, .seal⟩; s.ready .signet = true ∧ op ≠ 5 ∧ s.vault.verify = some (op, dur, true, src)) ∧
    (let s : State := setVault up (fun v => { v with chalEnd := some 0 }); s.ready .signet = true ∧ s.vault.chalEnd = some s.now) ∧
    (let s : State := { setVault up (fun v => { v with chalEnd := some 0 }) with now := 0x400000000 }; s.ready .signet = true ∧ (s.due s.vault.chalEnd) = true ∧ s.vault.chalEnd ≠ some s.now) ∧
    (let s : State := setVault (reg up [(vaultB, VAULT_LC_STATE, 3)]) (fun v => { v with svcMin := some 0 }); (serviceOver s) = true) ∧
    (let c : Fin 4 := 0; let s : State := (let x : State := up; { x with now := callEnd x 0 }); s.ready .signet = true ∧ callEnd s c.val = s.now) ∧
    (let c : Fin 4 := 0; let s : State := { (up.setCore 0 (fun k => { k with sealing := true })) with now := 0x400000000 }; let k := s.core c.val; s.ready .signet = true ∧ ((k.sealing || k.sealHeld.head? == some none) && s.reached (callEnd s c.val)) = true ∧ callEnd s c.val ≠ s.now) ∧
    (let s : State := (setAcc up (fun a => { a with grantAt := some 0 })); s.ready .signet = true ∧ (s.due s.acc.grantAt) = true) ∧
    (let s : State := (setAcc (reg up [(accB, ACC_SESSION_SSTATE, 1)]) (fun a => { a with timer := some 0 })); s.ready .signet = true ∧ s.acc.timer = some s.now) ∧
    (let s : State := { (setAcc (reg up [(accB, ACC_SESSION_SSTATE, 1)]) (fun a => { a with timer := some 0 })) with now := 0x400000000 }; s.ready .signet = true ∧ (sessState s == 1 && s.due s.acc.timer) = true ∧ s.acc.timer ≠ some s.now) := by
  refine ⟨?_, ?_, ?_, ?_, ?_, ?_, ?_, ?_, ?_, ?_, ?_, ?_, ?_, ?_, ?_, ?_⟩ <;> decide +kernel

theorem meets_VaultAndAccessEventsComplete_2 :
    (let s : State := (setAcc (reg up [(accB, ACC_SESSION_SSTATE, 2)]) (fun a => { a with timer := some 0 })); s.ready .signet = true ∧ s.acc.timer = some s.now) ∧
    (let s : State := { (setAcc (reg up [(accB, ACC_SESSION_SSTATE, 2)]) (fun a => { a with timer := some 0 })) with now := 0x400000000 }; s.ready .signet = true ∧ (sessState s == 2 && s.due s.acc.timer) = true ∧ s.acc.timer ≠ some s.now) ∧
    (let s : State := (reg up [(accB, ACC_STAT_STATE, 1)]); s.ready .signet = true ∧ (accState s == 1) = true) ∧
    (let s : State := up; accPresent s = true ∧ s.ready .signet = true) ∧
    (let ch : Fin 2 := 0; let octets : List Nat := List.replicate 14 0; let s : State := { (setAcc up (fun a => { a with reading := [true, false], readAt := [0, 0] })) with now := 1000000 }; let least := 12000 / s.get (accB + 4 * ch.val) ACC_CH_CLK; s.ready .signet = true ∧ (s.acc.reading.getD ch.val false && octets.length == 14 && s.reached (s.acc.readAt.getD ch.val 0 + BitVec.ofNat 36 least)) = true) ∧
    (let ch : Fin 2 := 0; let s : State := { (reg up [(accB, ACC_STAT_STATE, 2), (accB, ACC_CH_ATTN, 1)]) with now := 0x400000000 }; s.ready .signet = true ∧ (accReady s && attn s ch.val && !s.acc.reading.getD ch.val false && s.reached (s.acc.readEnd.getD ch.val 0 + BitVec.ofNat 36 (ms 1))) = true) ∧
    (let ch : Fin 2 := 0; let s : State := (setAcc up (fun a => { a with boff := [some 0, none] })); s.ready .signet = true ∧ s.acc.boff.getD ch.val none = some s.now) ∧
    (let ch : Fin 2 := 0; let s : State := { (setAcc up (fun a => { a with boff := [some 0, none] })) with now := 0x400000000 }; s.ready .signet = true ∧ (s.due (s.acc.boff.getD ch.val none)) = true ∧ s.acc.boff.getD ch.val none ≠ some s.now) ∧
    (let s : State := (setAcc (reg up [(accB, ACC_STAT_STATE, 2)]) (fun a => { a with frameEnd := some 0 })); s.ready .signet = true ∧ s.acc.frameEnd = some s.now) ∧
    (let s : State := { (setAcc (reg up [(accB, ACC_STAT_STATE, 2)]) (fun a => { a with frameEnd := some 0 })) with now := 0x400000000 }; s.ready .signet = true ∧ (accReady s && s.due s.acc.frameEnd) = true ∧ s.acc.frameEnd ≠ some s.now) ∧
    (let s : State := (setAcc up (fun a => { a with exec := some (0, 1) })); let n : Nat := 0; let cmd : Nat := 1; s.ready .signet = true ∧ s.acc.exec = some (n, cmd)) ∧
    (let s : State := (setAcc up (fun a => { a with learn := some (⟨1, [], []⟩, []) })); let cand : TokSet := ⟨1, [], []⟩; let ctrs : List Nat := []; s.ready .signet = true ∧ s.acc.learn = some (cand, ctrs)) := by
  refine ⟨?_, ?_, ?_, ?_, ?_, ?_, ?_, ?_, ?_, ?_, ?_, ?_⟩ <;> decide +kernel

theorem meets_PowerAndResetEventsComplete :
    (let s : State := { (setPwr ((List.range 5).foldl (fun s c => s.setCore c (fun k => { k with waiting := true, ltr := 300 })) (reg up [(pwrB, PWR_MODE_DEEPEST, 5)])) (fun p => { p with bound := 5 })) with boot := { up.boot with mode := .running } }; isRunning s = true ∧ s.pwr.entry = none ∧ s.pwr.stage = none ∧ (s.pwr.state = .run ∨ s.pwr.state = .lift) ∧ (requesters s).all (fun k => (s.core k).waiting) = true ∧ s.pwr.state.code < chosenState s ∧ 2 ≤ chosenState s) ∧
    (let s : State := (setPwr up (fun p => { p with entry := some (.park, 0) })); let st : PState := .park; let t : Word := 0; s.pwr.entry = some (st, t) ∧ s.reached t = true ∧ t = s.now) ∧
    (let s : State := { (setPwr up (fun p => { p with entry := some (.park, 0) })) with now := 0x400000000 }; let st : PState := .park; let t : Word := 0; s.pwr.entry = some (st, t) ∧ s.reached t = true ∧ t ≠ s.now) ∧
    (let s : State := { (setPwr up (fun p => { p with state := .park })) with tbRun := false, rtcN := 1000000 }; (isDown s && !s.tbRun && decide (parkAtEnd s ≤ s.rtcN * 390625 / 128)) = true) ∧
    (let n : Nat := 0; let s : State := (setPwr up (fun p => { p with stage := some .logic })); s.pwr.stage = some .logic ∧ stageInTime s.pwr.from_ .logic n = true) ∧
    (let s : State := (setPwr up (fun p => { p with stage := some .boot })); s.pwr.stage = some .boot) ∧
    (let n : Nat := 0; let s : State := (setPwr up (fun p => { p with stage := some .pll })); s.pwr.stage = some .pll ∧ stageInTime s.pwr.from_ .pll n = true) ∧
    (let n : Nat := 0; let s : State := (setPwr up (fun p => { p with stage := some .regulator })); s.pwr.stage = some .regulator ∧ stageInTime s.pwr.from_ .regulator n = true) ∧
    (let s : State := (setPwr up (fun p => { p with stage := some .memory })); let st : WakeStage := .memory; s.pwr.stage = some st ∧ st ≠ .boot) ∧
    (let s : State := { (setPwr up (fun p => { p with retryDue := true })) with now := 0x400000000 }; (s.pwr.retryDue && s.reached (s.pwr.wakeTick + BitVec.ofNat 36 (ms 100))) = true) ∧
    (let src : Fin 9 := 6; let s : State := up; src ≠ 5 ∧ unitOn s src = true) ∧
    (let s : State := (setPwr (reg up [(aonB, AON_RTCSUB_SUB, 32767)]) (fun p => { p with alarmArmed := true })); alarmNext s = true) ∧
    (let ns : Nat := 1000; let s : State := { up with now := 0x400000000 }; 1000 ≤ ns ∧ resetPinOff s = false ∧ ¬ (s.boot.path = .por ∧ s.boot.began = s.now)) ∧
    (let ns : Nat := 1000; let s : State := up; 1000 ≤ ns ∧ resetPinOff s = false ∧ s.boot.path = .por ∧ s.boot.began = s.now) ∧
    (let ns : Nat := 200; let s : State := { up with boot := { up.boot with path := .warm } }; 200 ≤ ns ∧ ns < 1000 ∧ resetPinOff s = false ∧ ¬ (s.boot.path = .por ∧ s.boot.began = s.now)) ∧
    (let ns : Nat := 199; ns < 200) := by
  refine ⟨?_, ?_, ?_, ?_, ?_, ?_, ?_, ?_, ?_, ?_, ?_, ?_, ?_, ?_, ?_, ?_⟩ <;> decide +kernel

theorem meets_PowerAndResetEventsComplete_2 :
    (let s : State := up; ¬ (s.warmDue = some .tamper ∧ s.reached s.vault.warmAt = false)) ∧
    (let s : State := setVault { up with now := 0, warmDue := some .tamper } (fun v => { v with warmAt := 5 }); s.warmDue = some .tamper ∧ s.reached s.vault.warmAt = false) ∧
    (let s : State := { { up with boot := { up.boot with mode := .hung 3 } } with now := 0x400000000 }; let k : Nat := 3; s.boot.mode = .hung k ∧ s.reached (s.boot.began + BitVec.ofNat 36 (sec 1)) = true) ∧
    (let s : State := (setPwr up (fun p => { p with pll1 := true })); s.pwr.pll1 = true) ∧
    (let ecc : Bool := false; let c : CoreId := 0; let addr : Nat := 0x40110100; let s : State := { (up.setCore 0 (fun k => { k with running := true })) with boot := { up.boot with mode := .running } }; let code := if ecc then 0x12 else 0x11; let t := safeDetect (s.fabErr code c.val addr) 8 c.val; canIssue t c = true) ∧
    (let blk : Blk := .psg; let off : Nat := 0; let s : State := up; let d : RegDesc := ((regDesc .psg 0).getD ⟨"", 0, 0, 0, 0, 0, []⟩); regDesc blk off = some d ∧ s.ready blk.island = true ∧ d.fields.any (fun f => f.voted) = true) := by
  refine ⟨?_, ?_, ?_, ?_, ?_, ?_⟩ <;> decide +kernel

theorem meets_UpdateAndRecoveryEventsComplete :
    (let s : State := { up with upd := { up.upd with cmd := some 2 } }; let op : Nat := 2; s.ready .store = true ∧ s.upd.cmd = some op) ∧
    (let s : State := { up with ecr := { up.ecr with trial := true }, upd := { up.upd with trialTicks := 1000000000 } }; (s.ecr.trial && decide (sec 10 ≤ s.upd.trialTicks)) = true) ∧
    (let s : State := { up with ecr := { up.ecr with trial := true, trun := 600 } }; trialRun s = sec 600) ∧
    (let s : State := { up with ecr := { up.ecr with trial := true, trun := 601 } }; (s.ecr.trial && decide (sec 600 ≤ trialRun s)) = true ∧ trialRun s ≠ sec 600) ∧
    (let s : State := { up with nvRow := some (0x12F00000, [1]) }; let a : Nat := 0x12F00000; let ws : List Word := [1]; s.ready .store = true ∧ s.nvRow = some (a, ws)) ∧
    (let s : State := { up with folio := { up.folio with cmd := some .verifyOnly } }; s.folio.cmd = some .verifyOnly) ∧
    (let s : State := { up with folio := { up.folio with cmd := some (.refold true 0) } }; let other : Bool := true; let req : Nat := 0; s.folio.cmd = some (.refold other req)) ∧
    (let s : State := { up with folio := { up.folio with cmd := some (.rewritten true 0 [] [] []), next := some ([], []) } }; let other : Bool := true; let req : Nat := 0; let fs : List Nat := []; let cans : List Nat := []; let isls : List Island := []; let h : List Word := []; let l : List (Nat × List Word) := []; s.folio.cmd = some (.rewritten other req fs cans isls) ∧ s.folio.next = some (h, l)) ∧
    (let s : State := { up with boot := { up.boot with mode := .window }, rcv := { up.rcv with helloAt := some 0 } }; s.due s.rcv.helloAt = true ∧ s.boot.mode = .window) ∧
    (let s : State := { up with boot := { up.boot with mode := .recovery 1 }, rcv := { up.rcv with helloAt := some 0 } }; let reason : Nat := 1; s.due s.rcv.helloAt = true ∧ s.boot.mode = .recovery reason ∧ s.rcv.gotManifest = false) ∧
    (let s : State := { up with boot := { up.boot with mode := .window, winEnd := some 0 } }; s.boot.winEnd = some s.now) ∧
    (let s : State := { { up with boot := { up.boot with mode := .window, winEnd := some 0 } } with now := 0x400000000 }; (s.boot.mode == .window && s.due s.boot.winEnd) = true ∧ s.boot.winEnd ≠ some s.now) ∧
    (let s : State := { up with rcv := { up.rcv with partEnd := some 0 } }; s.rcv.partEnd = some s.now) ∧
    (let s : State := { { up with rcv := { up.rcv with partEnd := some 0 } } with now := 0x400000000 }; (s.due s.rcv.partEnd) = true ∧ s.rcv.partEnd ≠ some s.now) ∧
    (let octets : List Nat := List.replicate 64 0; octets.length = 64) ∧
    (let octets : List Nat := [1]; octets.length ≠ 64) := by
  refine ⟨?_, ?_, ?_, ?_, ?_, ?_, ?_, ?_, ?_, ?_, ?_, ?_, ?_, ?_, ?_, ?_⟩ <;> decide +kernel

theorem meets_UpdateAndRecoveryEventsComplete_2 :
    (let s : State := { up with rcv := { up.rcv with dbgEnd := some 0 } }; s.rcv.dbgEnd = some s.now) ∧
    (let s : State := { { up with rcv := { up.rcv with dbgEnd := some 0 } } with now := 0x400000000 }; (s.due s.rcv.dbgEnd) = true ∧ s.rcv.dbgEnd ≠ some s.now) ∧
    (let n : Fin 8 := 0; let w0 : Word := 0x123; let stamp : Word := 0; let s : State := (reg up [(canB 0, CAN_STAT_ACTIVE, 1)]); romListens s = false ∧ s.ready .net = true ∧ pastCount s stamp = true ∧ canTakes s n.val false (bitAt w0 34) = true) ∧
    (let n : Fin 8 := 0; let stamp : Word := 0; let s : State := ((reg up [(canB 0, CAN_STAT_ACTIVE, 1), (canB 0, CAN_STAT_TXING, 1), (canB 0, CAN_CTRL_SELFRX, 1)]).setCn 0 (fun e => { e with onBus := some ⟨0, 0, []⟩ })); let f : CanFrame := ⟨0, 0, []⟩; s.ready .net = true ∧ near stamp (s.cn n.val).sof = true ∧ (s.cn n.val).onBus = some f ∧ canTakes s n.val true (bitAt f.w0 34) = true) ∧
    (let w0 : Word := 0x4000007E0; let data : List Nat := List.replicate 64 0; let s : State := { up with boot := { up.boot with mode := .window } }; romListens s = true ∧ bitsOf w0 35 34 = 1 ∧ bitsOf w0 10 0 = 0x7E0 ∧ (∀ o ∈ data, o < 256) ∧ data.length = 64) := by
  refine ⟨?_, ?_, ?_, ?_, ?_⟩ <;> decide +kernel

theorem meets_ChannelAndMotionWritesComplete :
    (let src : Src := ⟨0, .trust⟩; let f : Fin 72 := 3; let w : Word := 0; let s : State := (reg up [(pscP 3, PSC_STRUCT_USE, 1)]); let r : WriteReq := ⟨src, (pscBlk f), pscOff f, .plain, (PSC_CMD_MODE.set 0 w)⟩; ∃ d, Passes r (pscChk f 0) (s.get (pscP f) PSC_CMD_MODE != 0) s d) ∧
    (let src : Src := ⟨0, .trust⟩; let f : Fin 72 := 3; let w : Word := 0; let s : State := (reg up [(pscP 3, PSC_STRUCT_USE, 1)]); let r : WriteReq := ⟨src, (pscBlk f), pscOff f, .plain, (PSC_CMD_MODE.set 1 w)⟩; ∃ d, Passes r (pscChk f 0) (s.get (pscP f) PSC_CMD_MODE != 0) s d) ∧
    (let src : Src := ⟨0, .trust⟩; let f : Fin 72 := 3; let w : Word := 0; let s : State := (reg up [(pscP 3, PSC_STRUCT_USE, 1)]); let r : WriteReq := ⟨src, (pscBlk f), pscOff f, .plain, (PSC_CMD_MODE.set 2 w)⟩; ∃ d, Passes r (pscChk f 0) (s.get (pscP f) PSC_CMD_MODE != 0) s d) ∧
    (let src : Src := ⟨0, .trust⟩; let f : Fin 72 := 40; let w : Word := 0; let s : State := (reg up [(pscP 40, PSC_STRUCT_USE, 1), (pscP 41, PSC_STRUCT_USE, 1)]); let r : WriteReq := ⟨src, (pscBlk f), pscOff f, .plain, (PSC_CMD_MODE.set 3 w)⟩; ∃ d, Passes r (pscChk f 0) (s.get (pscP f) PSC_CMD_MODE != 0) s d) ∧
    (let src : Src := ⟨0, .trust⟩; let f : Fin 72 := 40; let w : Word := 0; let s : State := (reg up [(pscP 40, PSC_STRUCT_USE, 1), (pscP 41, PSC_STRUCT_USE, 1)]); let r : WriteReq := ⟨src, (pscBlk f), pscOff f, .plain, (PSC_CMD_MODE.set 4 w)⟩; ∃ d, Passes r (pscChk f 0) (s.get (pscP f) PSC_CMD_MODE != 0) s d) ∧
    (let src : Src := ⟨0, .trust⟩; let f : Fin 72 := 3; let w : Word := 0xF4240000; let s : State := (reg up [(pscP 3, PSC_STRUCT_USE, 1)]); let r : WriteReq := ⟨src, (pscBlk f), pscOff f + 4, .plain, w⟩; ∃ d, Passes r (pscChk f 4) (s.get (pscP f) PSC_CMD_MODE != 0) s d) ∧
    (let src : Src := ⟨0, .trust⟩; let f : Fin 72 := 3; let w : Word := 0; let s : State := (reg up [(pscP 3, PSC_STRUCT_USE, 1)]); let r : WriteReq := ⟨src, (pscBlk f), pscOff f + 0x28, .plain, (PSC_FAULT_LOCK.set 1 w)⟩; ∃ d, Passes r (pscChk f 0x28) (s.get (pscP f) PSC_CMD_MODE != 0) s d) ∧
    (let src : Src := ⟨0, .trust⟩; let w : Word := 0; let s : State := up; let r : WriteReq := ⟨src, .psg, 0, .plain, (PSG_CTRL_HBEN.set 1 w)⟩; ∃ d, Passes r (psgChk src 0) false s d) ∧
    (let src : Src := ⟨2, .trust⟩; let w : Word := 0xC30000001; let s : State := up; let r : WriteReq := ⟨src, .psg, 4, .plain, w⟩; ∃ d, Passes r (psgChk src 4) false s d) ∧
    (let src : Src := ⟨0, .trust⟩; let w : Word := 0; let s : State := (reg up [(Blk.psg.base, PSG_STAT_HBRUN, 1)]); let r : WriteReq := ⟨src, .psg, 0x18, .plain, w⟩; ∃ d, Passes r (psgChk src 0x18) false s d) ∧
    (let src : Src := ⟨0, .trust⟩; let k : Fin 6 := 0; let w : Word := 0; let s : State := up; let r : WriteReq := ⟨src, .mot, 0x104 + k * 0x100, .plain, (MOT_CMD_OP.set 0 w)⟩; ∃ d, Passes r (motChk k 4) (s.flag (motP k) MOT_CTRL_EN || (s.mo k).counting) s d) ∧
    (let src : Src := ⟨0, .trust⟩; let k : Fin 6 := 0; let w : Word := 0; let s : State := (reg up [(motP 0, MOT_CTRL_EN, 1)]); let r : WriteReq := ⟨src, .mot, 0x104 + k * 0x100, .plain, (MOT_CMD_OP.set 1 w)⟩; ∃ d, Passes r (motChk k 4) (s.flag (motP k) MOT_CTRL_EN || (s.mo k).counting) s d) ∧
    (let src : Src := ⟨0, .trust⟩; let k : Fin 6 := 0; let w : Word := 0; let s : State := (reg up [(motP 0, MOT_CTRL_EN, 1)]); let r : WriteReq := ⟨src, .mot, 0x104 + k * 0x100, .plain, (MOT_CMD_OP.set 2 w)⟩; ∃ d, Passes r (motChk k 4) (s.flag (motP k) MOT_CTRL_EN || (s.mo k).counting) s d) ∧
    (let src : Src := ⟨0, .trust⟩; let k : Fin 6 := 0; let w : Word := 0; let s : State := (reg up [(motP 0, MOT_CTRL_EN, 1)]); let r : WriteReq := ⟨src, .mot, 0x104 + k * 0x100, .plain, (MOT_CMD_OP.set 3 w)⟩; ∃ d, Passes r (motChk k 4) (s.flag (motP k) MOT_CTRL_EN || (s.mo k).counting) s d) ∧
    (let src : Src := ⟨0, .trust⟩; let k : Fin 6 := 0; let w : Word := 0; let s : State := (reg up [(motP 0, MOT_CTRL_EN, 1)]); let r : WriteReq := ⟨src, .mot, 0x104 + k * 0x100, .plain, (MOT_CMD_OP.set 4 w)⟩; ∃ d, Passes r (motChk k 4) (s.flag (motP k) MOT_CTRL_EN || (s.mo k).counting) s d) ∧
    (let src : Src := ⟨0, .trust⟩; let k : Fin 6 := 0; let w : Word := 0; let s : State := (reg ({ up with folio := { up.folio with sects := [(6, [0x020000000, 0])] } }) [(motP 0, MOT_CTRL_EN, 1)]); let r : WriteReq := ⟨src, .mot, 0x104 + k * 0x100, .plain, (MOT_CMD_OP.set 5 w)⟩; ∃ d, Passes r (motChk k 4) (s.flag (motP k) MOT_CTRL_EN || (s.mo k).counting) s d) ∧
    (let src : Src := ⟨0, .trust⟩; let k : Fin 6 := 0; let w : Word := 0; let s : State := (reg ({ up with folio := { up.folio with sects := [(6, [0x020000000, 0])] } }) [(motP 0, MOT_CTRL_EN, 1)]); let r : WriteReq := ⟨src, .mot, 0x104 + k * 0x100, .plain, (MOT_CMD_OP.set 6 w)⟩; ∃ d, Passes r (motChk k 4) (s.flag (motP k) MOT_CTRL_EN || (s.mo k).counting) s d) ∧
    (let src : Src := ⟨0, .trust⟩; let k : Fin 6 := 0; let w : Word := 0; let s : State := (reg ({ up with folio := { up.folio with sects := [(6, [0x020000000, 0])] } }) [(motP 0, MOT_CTRL_EN, 1)]); let r : WriteReq := ⟨src, .mot, 0x104 + k * 0x100, .plain, (MOT_CMD_OP.set 7 w)⟩; ∃ d, Passes r (motChk k 4) (s.flag (motP k) MOT_CTRL_EN || (s.mo k).counting) s d) ∧
    (let src : Src := ⟨0, .trust⟩; let k : Fin 6 := 0; let w : Word := 0; let s : State := (reg ({ up with folio := { up.folio with sects := [(6, [0x020000000, 0])] } }) [(motP 0, MOT_CTRL_EN, 1)]); let r : WriteReq := ⟨src, .mot, 0x104 + k * 0x100, .plain, (MOT_CMD_OP.set 8 w)⟩; ∃ d, Passes r (motChk k 4) (s.flag (motP k) MOT_CTRL_EN || (s.mo k).counting) s d) ∧
    (let src : Src := ⟨0, .trust⟩; let k : Fin 6 := 0; let w : Word := 0; let s : State := (reg ({ up with folio := { up.folio with sects := [(6, [0x030000000, 0])] } }) [(motP 0, MOT_CTRL_EN, 1)]); let r : WriteReq := ⟨src, .mot, 0x104 + k * 0x100, .plain, (MOT_CMD_OP.set 9 w)⟩; ∃ d, Passes r (motChk k 4) (s.flag (motP k) MOT_CTRL_EN || (s.mo k).counting) s d) ∧
    (let src : Src := ⟨0, .trust⟩; let k : Fin 6 := 0; let w : Word := 0; let s : State := up; let r : WriteReq := ⟨src, .mot, 0x100 + k * 0x100, .plain, (MOT_CTRL_EN.set 0 w)⟩; ∃ d, Passes r (motChk k 0) (s.flag (motP k) MOT_CTRL_EN || (s.mo k).counting) s d) ∧
    (let src : Src := ⟨0, .trust⟩; let k : Fin 16 := 0; let w : Word := 0; let s : State := (reg up [(stkP 0, STK_CTRL_EN, 1)]); let r : WriteReq := ⟨src, .stk, 0x108 + k * 0x100, .plain, (STK_CMD_OP.set 1 w)⟩; ∃ d, Passes r (stkChk k 8) (s.flag (stkP k) STK_CTRL_EN) s d) ∧
    (let src : Src := ⟨0, .trust⟩; let k : Fin 16 := 0; let w : Word := 0; let s : State := up; let r : WriteReq := ⟨src, .stk, 0x108 + k * 0x100, .plain, (STK_CMD_OP.set 0 w)⟩; ∃ d, Passes r (stkChk k 8) (s.flag (stkP k) STK_CTRL_EN) s d) ∧
    (let src : Src := ⟨0, .trust⟩; let k : Fin 16 := 0; let w : Word := 0; let s : State := (reg ({ up with folio := { up.folio with sects := [(5, [0])] } }) [(pscP 0, PSC_LIMIT_ILIM, 2000)]); let r : WriteReq := ⟨src, .stk, 0x100 + k * 0x100, .plain, (STK_CTRL_EN.set 1 w)⟩; ∃ d, Passes r (stkChk k 0) (s.flag (stkP k) STK_CTRL_EN) s d) ∧
    (let src : Src := ⟨0, .trust⟩; let k : Fin 16 := 0; let w : Word := 0; let s : State := up; let r : WriteReq := ⟨src, .stk, 0x100 + k * 0x100, .plain, (STK_CTRL_EN.set 0 w)⟩; ∃ d, Passes r (stkChk k 0) (s.flag (stkP k) STK_CTRL_EN) s d) :=
  ⟨passes_of (by decide +kernel),
   passes_of (by decide +kernel),
   passes_of (by decide +kernel),
   passes_of (by decide +kernel),
   passes_of (by decide +kernel),
   passes_of (by decide +kernel),
   passes_of (by decide +kernel),
   passes_of (by decide +kernel),
   passes_of (by decide +kernel),
   passes_of (by decide +kernel),
   passes_of (by decide +kernel),
   passes_of (by decide +kernel),
   passes_of (by decide +kernel),
   passes_of (by decide +kernel),
   passes_of (by decide +kernel),
   passes_of (by decide +kernel),
   passes_of (by decide +kernel),
   passes_of (by decide +kernel),
   passes_of (by decide +kernel),
   passes_of (by decide +kernel),
   passes_of (by decide +kernel),
   passes_of (by decide +kernel),
   passes_of (by decide +kernel),
   passes_of (by decide +kernel),
   passes_of (by decide +kernel)⟩

theorem meets_LightInputTimerWritesComplete :
    (let src : Src := ⟨0, .trust⟩; let n : Fin 8 := 0; let w : Word := 0; let s : State := up; let r : WriteReq := ⟨src, .lgt, 0x100 + n * 0x100, .plain, (LGT_STCMD_MODE.set 0 w)⟩; ∃ d, Passes r (strChk n 0) (s.get (stP n) LGT_STCMD_MODE != 0) s d) ∧
    (let src : Src := ⟨0, .trust⟩; let n : Fin 8 := 0; let w : Word := 0; let s : State := up; let r : WriteReq := ⟨src, .lgt, 0x100 + n * 0x100, .plain, (LGT_STCMD_MODE.set 1 w)⟩; ∃ d, Passes r (strChk n 0) (s.get (stP n) LGT_STCMD_MODE != 0) s d) ∧
    (let src : Src := ⟨0, .trust⟩; let n : Fin 8 := 0; let w : Word := 0; let s : State := up; let r : WriteReq := ⟨src, .lgt, 0x100 + n * 0x100, .plain, (LGT_STCMD_MODE.set 2 w)⟩; ∃ d, Passes r (strChk n 0) (s.get (stP n) LGT_STCMD_MODE != 0) s d) ∧
    (let src : Src := ⟨0, .trust⟩; let n : Fin 48 := 0; let w : Word := 0; let s : State := up; let r : WriteReq := ⟨src, .lgt, 0xA00 + n * 0x20, .plain, (LGT_SKCMD_MODE.set 0 w)⟩; ∃ d, Passes r (sinkChk n 0) (s.get (skP n) LGT_SKCMD_MODE != 0) s d) ∧
    (let src : Src := ⟨0, .trust⟩; let n : Fin 48 := 47; let w : Word := 0; let s : State := up; let r : WriteReq := ⟨src, .lgt, 0xA00 + n * 0x20, .plain, (LGT_SKCMD_MODE.set 1 w)⟩; ∃ d, Passes r (sinkChk n 0) (s.get (skP n) LGT_SKCMD_MODE != 0) s d) ∧
    (let src : Src := ⟨0, .trust⟩; let n : Fin 48 := 47; let w : Word := 0; let s : State := up; let r : WriteReq := ⟨src, .lgt, 0xA00 + n * 0x20, .plain, (LGT_SKCMD_MODE.set 2 w)⟩; ∃ d, Passes r (sinkChk n 0) (s.get (skP n) LGT_SKCMD_MODE != 0) s d) ∧
    (let src : Src := ⟨0, .trust⟩; let n : Fin 8 := 0; let w : Word := 0; let s : State := up; let r : WriteReq := ⟨src, .lgt, 0x11C + n * 0x100, .plain, (LGT_STFAULT_LOCK.set 1 w)⟩; ∃ d, Passes r (strChk n 0x1C) (s.get (stP n) LGT_STCMD_MODE != 0) s d) ∧
    (let src : Src := ⟨0, .trust⟩; let w : Word := regReset 0x40181000; let s : State := up; let r : WriteReq := ⟨src, .lgt, 0x1000, .plain, (LGT_MXCTRL_EN.set 1 w)⟩; ∃ d, Passes r (mxChk 0x1000) (s.flag lgt LGT_MXCTRL_EN) s d) ∧
    (let src : Src := ⟨0, .trust⟩; let w : Word := regReset 0x40181000; let s : State := up; let r : WriteReq := ⟨src, .lgt, 0x1000, .plain, (LGT_MXCTRL_SWAP.set 1 w)⟩; ∃ d, Passes r (mxChk 0x1000) (s.flag lgt LGT_MXCTRL_EN) s d) ∧
    (let src : Src := ⟨0, .trust⟩; let w : Word := 0; let s : State := up; let r : WriteReq := ⟨src, .lgt, 0x1004, .plain, w⟩; ∃ d, Passes r (mxChk 0x1004) (s.flag lgt LGT_MXCTRL_EN) s d) ∧
    (let src : Src := ⟨0, .trust⟩; let w : Word := 0; let s : State := (reg up [(Blk.psg.base, PSG_STAT_HBRUN, 1)]); let r : WriteReq := ⟨src, .lgt, 0xC, .plain, w⟩; ∃ d, Passes r (lgtChk 0xC) false s d) ∧
    (let src : Src := ⟨0, .trust⟩; let w : Word := regReset 0x40190000; let s : State := up; let r : WriteReq := ⟨src, .lch, 0, .plain, (LCH_CTRL_EN.set 1 w)⟩; ∃ d, Passes r (lchChk 0) (s.flag lch LCH_CTRL_EN) s d) ∧
    (let src : Src := ⟨0, .trust⟩; let w : Word := regReset 0x40190000; let s : State := up; let r : WriteReq := ⟨src, .lch, 0, .plain, (LCH_CTRL_GO.set 1 w)⟩; ∃ d, Passes r (lchChk 0) (s.flag lch LCH_CTRL_EN) s d) ∧
    (let src : Src := ⟨0, .trust⟩; let w : Word := regReset 0x40190000; let s : State := up; let r : WriteReq := ⟨src, .lch, 0, .plain, (LCH_CTRL_SWAP.set 1 w)⟩; ∃ d, Passes r (lchChk 0) (s.flag lch LCH_CTRL_EN) s d) ∧
    (let src : Src := ⟨0, .trust⟩; let n : Fin 64 := 63; let w : Word := INP_ICFG_DEB.set 3 (INP_ICFG_USE.set 1 0); let s : State := (reg up [(inpI 63, INP_ICFG_USE, 1)]); let r : WriteReq := ⟨src, .inp, 0x100 + 4 * n, .plain, (INP_ICFG_ON.set 1 w)⟩; ∃ d, Passes r (inpChk (0x100 + 4 * n)) (inpLocked (0x100 + 4 * n) s) s d) ∧
    (let src : Src := ⟨0, .trust⟩; let w : Word := regReset 0x401A0200; let s : State := (reg up [(inpI 0, INP_ACFG_USE, 1)]); let r : WriteReq := ⟨src, .inp, 0x200, .plain, (INP_ADCTRL_EN.set 1 w)⟩; ∃ d, Passes r (inpChk (0x200)) (inpLocked (0x200) s) s d) ∧
    (let src : Src := ⟨0, .trust⟩; let n : Fin 32 := 31; let w : Word := 0; let s : State := up; let r : WriteReq := ⟨src, .tmr, 0x100 + n * 0x40, .plain, (TMR_CTRL_EN.set 1 w)⟩; ∃ d, Passes r (tmrChk n 0) (tmrEn s n) s d) ∧
    (let src : Src := ⟨0, .trust⟩; let n : Fin 32 := 0; let w : Word := 0; let s : State := up; let r : WriteReq := ⟨src, .tmr, 0x100 + n * 0x40, .plain, (TMR_CTRL_EN.set 0 w)⟩; ∃ d, Passes r (tmrChk n 0) (tmrEn s n) s d) ∧
    (let src : Src := ⟨0, .trust⟩; let n : Fin 32 := 31; let w : Word := 0; let s : State := (reg up [(tmrP 31, TMR_CTRL_EN, 1)]); let r : WriteReq := ⟨src, .tmr, 0x110 + n * 0x40, .plain, (TMR_CMD_OP.set 1 w)⟩; ∃ d, Passes r (tmrChk n 0x10) (tmrEn s n) s d) ∧
    (let src : Src := ⟨0, .trust⟩; let n : Fin 32 := 0; let w : Word := 0; let s : State := up; let r : WriteReq := ⟨src, .tmr, 0x110 + n * 0x40, .plain, (TMR_CMD_OP.set 2 w)⟩; ∃ d, Passes r (tmrChk n 0x10) (tmrEn s n) s d) ∧
    (let src : Src := ⟨0, .trust⟩; let w : Word := 0; let s : State := up; let r : WriteReq := ⟨src, .tmr, 0, .plain, w⟩; ∃ d, Passes r (tmrGoChk 0) false s d) ∧
    (let src : Src := ⟨0, .trust⟩; let w : Word := 0; let s : State := (reg up [(Blk.rule.base, (RULE_LINE_NDST.at 0), 1)]); let r : WriteReq := ⟨src, .rule, 0, .plain, w⟩; ∃ d, Passes r (ruleChk 0) false s d) :=
  ⟨passes_of (by decide +kernel),
   passes_of (by decide +kernel),
   passes_of (by decide +kernel),
   passes_of (by decide +kernel),
   passes_of (by decide +kernel),
   passes_of (by decide +kernel),
   passes_of (by decide +kernel),
   passes_of (by decide +kernel),
   passes_of (by decide +kernel),
   passes_of (by decide +kernel),
   passes_of (by decide +kernel),
   passes_of (by decide +kernel),
   passes_of (by decide +kernel),
   passes_of (by decide +kernel),
   passes_of (by decide +kernel),
   passes_of (by decide +kernel),
   passes_of (by decide +kernel),
   passes_of (by decide +kernel),
   passes_of (by decide +kernel),
   passes_of (by decide +kernel),
   passes_of (by decide +kernel),
   passes_of (by decide +kernel)⟩

theorem meets_NetworkWritesComplete :
    (let src : Src := ⟨0, .trust⟩; let n : Fin 8 := 0; let w : Word := regReset 0x40200000; let s : State := canUp; let r : WriteReq := ⟨src, .can n, 0, .plain, (CAN_CTRL_EN.set 1 w)⟩; ∃ d, Passes r (fun s x => canChk s n src (0) x) (canLocked s n) s d) ∧
    (let src : Src := ⟨0, .trust⟩; let n : Fin 8 := 0; let w : Word := 0; let s : State := up; let r : WriteReq := ⟨src, .can n, 0, .plain, (CAN_CTRL_EN.set 0 w)⟩; ∃ d, Passes r (fun s x => canChk s n src (0) x) (canLocked s n) s d) ∧
    (let src : Src := ⟨0, .trust⟩; let n : Fin 8 := 7; let w : Word := 0x8000000; let s : State := (reg up [(canB 7, CAN_RXRING_LEVEL, 1)]); let r : WriteReq := ⟨src, .can n, 0x20, .plain, w⟩; ∃ d, Passes r (fun s x => canChk s n src (0x20) x) (canLocked s n) s d) ∧
    (let src : Src := ⟨0, .trust⟩; let n : Fin 8 := 0; let k : Fin 8 := 0; let w : Word := 0; let s : State := up; let r : WriteReq := ⟨src, .can n, 0x60 + 4 * k, .plain, w⟩; ∃ d, Passes r (fun s x => canChk s n src (0x60 + 4 * k) x) (canLocked s n) s d) ∧
    (let src : Src := ⟨0, .trust⟩; let n : Fin 8 := 0; let w : Word := 0; let s : State := (up.wr (canB 0 + 0x40) 1); let r : WriteReq := ⟨src, .can n, 0x24, .plain, w⟩; ∃ d, Passes r (fun s x => canChk s n src (0x24) x) (canLocked s n) s d) ∧
    (let src : Src := ⟨4, .seal⟩; let n : Fin 8 := 0; let w : Word := 0; let s : State := up; let r : WriteReq := ⟨src, .can n, 0x30, .plain, w⟩; ∃ d, Passes r (fun s x => canChk s n src (0x30) x) (canLocked s n) s d) ∧
    (let src : Src := ⟨0, .trust⟩; let n : Fin 8 := 0; let w : Word := 0; let s : State := up; let r : WriteReq := ⟨src, .can n, 0, .plain, (CAN_CTRL_RECOVER.set 1 w)⟩; ∃ d, Passes r (fun s x => canChk s n src (0) x) (canLocked s n) s d) ∧
    (let src : Src := ⟨0, .trust⟩; let n : Fin 12 := 11; let w : Word := 0x000400000; let s : State := (reg up [(linB 11, LIN_STAT_STATE, 1)]); let r : WriteReq := ⟨src, .lin n, 0, .plain, (LIN_CTRL_GOSLEEP.set 1 w)⟩; ∃ d, Passes r (fun s x => linChk s n 0 x) (s.flag (linB n) LIN_CTRL_EN) s d) ∧
    (let src : Src := ⟨0, .trust⟩; let n : Fin 12 := 11; let w : Word := 0x000400000; let s : State := (reg up [(linB 11, LIN_STAT_STATE, 2)]); let r : WriteReq := ⟨src, .lin n, 0, .plain, (LIN_CTRL_WAKE.set 1 w)⟩; ∃ d, Passes r (fun s x => linChk s n 0 x) (s.flag (linB n) LIN_CTRL_EN) s d) ∧
    (let src : Src := ⟨0, .trust⟩; let p : Fin 6 := 0; let w : Word := 0; let s : State := up; let r : WriteReq := ⟨src, (ethBlk p.val), 0x20, .plain, (ETH_TXKICK_GO.set 1 w)⟩; ∃ d, Passes r (fun s x => ethChk s p 0x20 x) (s.flag (ethB p) ETH_CTRL_EN) s d) ∧
    (let src : Src := ⟨0, .trust⟩; let w : Word := 0; let s : State := up; let r : WriteReq := ⟨src, .ring, 0, .plain, (RING_CTRL_EN.set 1 w)⟩; ∃ d, Passes r (fun s x => ringChk s src 0 x) (s.flag ringB RING_CTRL_EN) s d) ∧
    (let src : Src := ⟨0, .trust⟩; let w : Word := 0; let s : State := up; let r : WriteReq := ⟨src, .ring, 0x20, .plain, w⟩; ∃ d, Passes r (fun s x => ringChk s src 0x20 x) (s.flag ringB RING_CTRL_EN) s d) ∧
    (let src : Src := ⟨0, .trust⟩; let w : Word := 0x080000000; let s : State := (reg up [(ringB, RING_RXRING_LEVEL, 1)]); let r : WriteReq := ⟨src, .ring, 0x28, .plain, w⟩; ∃ d, Passes r (fun s x => ringChk s src 0x28 x) (s.flag ringB RING_CTRL_EN) s d) ∧
    (let src : Src := ⟨0, .trust⟩; let w : Word := 0; let s : State := (reg up [(ringB, RING_STAT_STATE, 3)]); let r : WriteReq := ⟨src, .ring, 0, .plain, (RING_CTRL_WAKE.set 1 w)⟩; ∃ d, Passes r (fun s x => ringChk s src 0 x) (s.flag ringB RING_CTRL_EN) s d) ∧
    (let src : Src := ⟨4, .seal⟩; let w : Word := 0; let s : State := (up.wr (vaultB + 0x400) 0x800240400); let r : WriteReq := ⟨src, .ring, 0x38, .plain, w⟩; ∃ d, Passes r (fun s x => ringChk s src 0x38 x) (s.flag ringB RING_CTRL_EN) s d) ∧
    (let src : Src := ⟨0, .trust⟩; let c : Fin 12 := 0; let w : Word := 0; let s : State := (reg up [(canB 0, CAN_CTRL_EN, 1)]); let r : WriteReq := ⟨src, .nmg, 0x100 + c * 0x40, .plain, (NMG_CTRL_EN.set 1 w)⟩; ∃ d, Passes r (fun s x => nmgChk s c 0 x) (s.flag (nmgP c) NMG_CTRL_EN) s d) ∧
    (let src : Src := ⟨0, .trust⟩; let c : Fin 12 := 0; let w : Word := 0; let s : State := up; let r : WriteReq := ⟨src, .nmg, 0x100 + c * 0x40, .plain, (NMG_CTRL_EN.set 0 w)⟩; ∃ d, Passes r (fun s x => nmgChk s c 0 x) (s.flag (nmgP c) NMG_CTRL_EN) s d) ∧
    (let src : Src := ⟨0, .trust⟩; let c : Fin 12 := 0; let w : Word := 0; let s : State := up; let r : WriteReq := ⟨src, .nmg, 0x100 + c * 0x40, .plain, (NMG_CTRL_REQ.set 1 w)⟩; ∃ d, Passes r (fun s x => nmgChk s c 0 x) (s.flag (nmgP c) NMG_CTRL_EN) s d) ∧
    (let src : Src := ⟨0, .trust⟩; let c : Fin 12 := 0; let w : Word := 0; let s : State := up; let r : WriteReq := ⟨src, .nmg, 0x100 + c * 0x40, .plain, (NMG_CTRL_REQ.set 0 w)⟩; ∃ d, Passes r (fun s x => nmgChk s c 0 x) (s.flag (nmgP c) NMG_CTRL_EN) s d) ∧
    (let src : Src := ⟨0, .trust⟩; let w : Word := 0; let s : State := up; let r : WriteReq := ⟨src, .nmg, 4, .plain, (NMG_LOGCTL_CLR.set 1 w)⟩; ∃ d, Passes r (fun _ _ => []) false s d) :=
  ⟨passes_of (by decide +kernel),
   passes_of (by decide +kernel),
   passes_of (by decide +kernel),
   passes_of (by decide +kernel),
   passes_of (by decide +kernel),
   passes_of (by decide +kernel),
   passes_of (by decide +kernel),
   passes_of (by decide +kernel),
   passes_of (by decide +kernel),
   passes_of (by decide +kernel),
   passes_of (by decide +kernel),
   passes_of (by decide +kernel),
   passes_of (by decide +kernel),
   passes_of (by decide +kernel),
   passes_of (by decide +kernel),
   passes_of (by decide +kernel),
   passes_of (by decide +kernel),
   passes_of (by decide +kernel),
   passes_of (by decide +kernel),
   passes_of (by decide +kernel)⟩

theorem meets_VaultAndAccessWritesComplete :
    (let src : Src := ⟨0, .trust⟩; let w : Word := 0x960000000; let s : State := (reg up [(vaultB, VAULT_LC_STATE, 0)]); let r : WriteReq := ⟨src, .vault, 4, .plain, (VAULT_LCCMD_OP.set 1 w)⟩; ∃ d, Passes r (vaultChk r) false s d) ∧
    (let src : Src := ⟨0, .trust⟩; let w : Word := 0x960000000; let s : State := (reg up [(vaultB, VAULT_LC_STATE, 1)]); let r : WriteReq := ⟨src, .vault, 4, .plain, (VAULT_LCCMD_OP.set 2 w)⟩; ∃ d, Passes r (vaultChk r) false s d) ∧
    (let src : Src := ⟨0, .trust⟩; let w : Word := 0x960000000; let s : State := (reg up [(vaultB, VAULT_LC_STATE, 1), (vaultB, VAULT_LC_OWNERSET, 1)]); let r : WriteReq := ⟨src, .vault, 4, .plain, (VAULT_LCCMD_OP.set 3 w)⟩; ∃ d, Passes r (vaultChk r) false s d) ∧
    (let src : Src := ⟨0, .trust⟩; let w : Word := 0x960000000; let s : State := up; let r : WriteReq := ⟨src, .vault, 4, .plain, (VAULT_LCCMD_OP.set 4 w)⟩; ∃ d, Passes r (vaultChk r) false s d) ∧
    (let src : Src := ⟨0, .trust⟩; let w : Word := 0x961E00000; let s : State := setVault up (fun v => { v with chalEnd := some 1 }); let r : WriteReq := ⟨src, .vault, 4, .plain, (VAULT_LCCMD_OP.set 5 w)⟩; ∃ d, Passes r (vaultChk r) false s d) ∧
    (let src : Src := ⟨0, .trust⟩; let w : Word := 0x960000000; let s : State := (reg up [(vaultB, VAULT_LC_STATE, 3)]); let r : WriteReq := ⟨src, .vault, 4, .plain, (VAULT_LCCMD_OP.set 6 w)⟩; ∃ d, Passes r (vaultChk r) false s d) ∧
    (let src : Src := ⟨0, .trust⟩; let w : Word := 0x960000000; let s : State := setVault up (fun v => { v with chalEnd := some 1 }); let r : WriteReq := ⟨src, .vault, 4, .plain, (VAULT_LCCMD_OP.set 7 w)⟩; ∃ d, Passes r (vaultChk r) false s d) ∧
    (let src : Src := ⟨0, .trust⟩; let w : Word := 0x960000000; let s : State := (reg up [(vaultB, VAULT_LC_STATE, 4)]); let r : WriteReq := ⟨src, .vault, 4, .plain, (VAULT_LCCMD_OP.set 8 w)⟩; ∃ d, Passes r (vaultChk r) false s d) ∧
    (let src : Src := ⟨4, .seal⟩; let w : Word := VAULT_KCMD_NODE.set 5 (VAULT_KCMD_SLOT.set 30 0); let s : State := setVault (reg up [(vaultB, VAULT_LC_RSVOK, 1)]) (fun v => { v with root := true }); let r : WriteReq := ⟨src, .vault, 8, .plain, (VAULT_KCMD_OP.set 1 w)⟩; ∃ d, Passes r (vaultChk r) false s d) ∧
    (let src : Src := ⟨4, .seal⟩; let w : Word := 0; let s : State := up; let r : WriteReq := ⟨src, .vault, 8, .plain, (VAULT_KCMD_OP.set 2 w)⟩; ∃ d, Passes r (vaultChk r) false s d) ∧
    (let src : Src := ⟨4, .seal⟩; let w : Word := 0; let s : State := up; let r : WriteReq := ⟨src, .vault, 8, .plain, (VAULT_KCMD_OP.set 3 w)⟩; ∃ d, Passes r (vaultChk r) false s d) ∧
    (let src : Src := ⟨4, .seal⟩; let c : Fin 4 := 3; let w : Word := 0; let s : State := (reg up [(cstatP 3, VAULT_CSTAT_PEND, 1)]); let r : WriteReq := ⟨src, .vault, 0x818 + 0x20 * c, .plain, w⟩; ∃ d, Passes r (vaultChk r) false s d) ∧
    (let src : Src := ⟨4, .seal⟩; let w : Word := regReset 0x40620000; let s : State := (((reg up [(cryptB, CRYPT_SRC_ADDR, 0x02000000), (cryptB, CRYPT_DST_ADDR, 0x02000100)])).wr (vaultB + 0x400) 0x800244000); let r : WriteReq := ⟨src, .crypt, 0, .plain, (CRYPT_JOB_GO.set 1 w)⟩; ∃ d, Passes r (cryptChk r) (cryptBusy s) s d) ∧
    (let src : Src := ⟨4, .seal⟩; let w : Word := ACC_CTRL_IGNIN.set 127 (ACC_CTRL_TSLOT.set 1 0); let s : State := setAcc (((((reg up [(accB, ACC_CTRL_TSLOT, 1)])).wr (vaultB + 0x400) 0x828244000)).wr (vaultB + 0x404) 0x830240800) (fun a => { a with fleet := some [] }); let r : WriteReq := ⟨src, .acc, 0, .plain, (ACC_CTRL_EN.set 1 w)⟩; ∃ d, Passes r (accChk src 0) (s.flag accB ACC_CTRL_EN) s d) ∧
    (let src : Src := ⟨4, .seal⟩; let w : Word := ACC_CTRL_IGNIN.set 127 0; let s : State := up; let r : WriteReq := ⟨src, .acc, 0, .plain, (ACC_CTRL_EN.set 0 w)⟩; ∃ d, Passes r (accChk src 0) (s.flag accB ACC_CTRL_EN) s d) ∧
    (let src : Src := ⟨4, .seal⟩; let s : State := up; let r : WriteReq := ⟨src, .acc, 0x1C, .plain, (ACC_LEARN_OP.set 1 0)⟩; ∃ d, Passes r (accChk src 0x1C) (s.flag accB ACC_CTRL_EN) s d) ∧
    (let src : Src := ⟨4, .seal⟩; let s : State := (((reg up [(vaultB, VAULT_LC_STATE, 1)])).wr (vaultB + 0x400) 0x800284000); let r : WriteReq := ⟨src, .acc, 0x1C, .plain, (ACC_LEARN_OP.set 2 0)⟩; ∃ d, Passes r (accChk src 0x1C) (s.flag accB ACC_CTRL_EN) s d) :=
  ⟨passes_of (by decide +kernel),
   passes_of (by decide +kernel),
   passes_of (by decide +kernel),
   passes_of (by decide +kernel),
   passes_of (by decide +kernel),
   passes_of (by decide +kernel),
   passes_of (by decide +kernel),
   passes_of (by decide +kernel),
   passes_of (by decide +kernel),
   passes_of (by decide +kernel),
   passes_of (by decide +kernel),
   passes_of (by decide +kernel),
   passes_of (by decide +kernel),
   passes_of (by decide +kernel),
   passes_of (by decide +kernel),
   passes_of (by decide +kernel),
   passes_of (by decide +kernel)⟩

theorem meets_SystemWritesComplete :
    (let src : Src := ⟨0, .trust⟩; let s : State := up; let r : WriteReq := ⟨src, .folio, 4, .plain, (FOLIO_CMD_KEY.set 0xA5 (FOLIO_CMD_OP.set 1 0))⟩; ∃ d, Passes r (folioChk r) false s d) ∧
    (let src : Src := ⟨0, .trust⟩; let s : State := up; let r : WriteReq := ⟨src, .folio, 4, .plain, (FOLIO_CMD_KEY.set 0xA5 (FOLIO_CMD_OP.set 2 0))⟩; ∃ d, Passes r (folioChk r) false s d) ∧
    (let src : Src := ⟨0, .trust⟩; let s : State := up; let r : WriteReq := ⟨src, .folio, 4, .plain, (FOLIO_CMD_KEY.set 0xA5 (FOLIO_CMD_OP.set 3 0))⟩; ∃ d, Passes r (folioChk r) false s d) ∧
    (let src : Src := ⟨0, .trust⟩; let t : Fin 5 := 4; let w : Word := 4; let s : State := setIcu up (fun i => { i with levels := i.levels.set 4 [(4, 9)] }); let r : WriteReq := ⟨src, .icu, 0x104 + 0x40 * t, .plain, w⟩; ∃ d, Passes r (icuChk r) false s d) ∧
    (let src : Src := ⟨0, .trust⟩; let n : Fin 384 := 134; let w : Word := 0xC80000000; let s : State := up; let r : WriteReq := ⟨src, .icu, 0x400 + 4 * n, .plain, w⟩; ∃ d, Passes r (icuChk r) false s d) ∧
    (let src : Src := ⟨0, .trust⟩; let cls : Fin 15 := 0; let w : Word := 0; let s : State := up; let r : WriteReq := ⟨src, .safe, 0x40 + 4 * cls, .plain, w⟩; ∃ d, Passes r (safeChk r) false s d) ∧
    (let src : Src := ⟨0, .trust⟩; let w : Word := 0; let s : State := signed; let r : WriteReq := ⟨src, .sys, 0x80, .plain, (SYS_UPDCMD_OP.set 1 w)⟩; ∃ d, Passes r (sysBlkChk r) false s d) ∧
    (let src : Src := ⟨0, .trust⟩; let w : Word := SYS_UPDCMD_NW.set 64 0; let s : State := { (reg up [(sysB, SYS_UPDSTAT_STAGE, 1)]) with upd := { up.upd with manifest := [0, 0, 0, 0, 0, 1024] } }; let r : WriteReq := ⟨src, .sys, 0x80, .plain, (SYS_UPDCMD_OP.set 2 w)⟩; ∃ d, Passes r (sysBlkChk r) false s d) ∧
    (let src : Src := ⟨0, .trust⟩; let w : Word := 0; let s : State := { ((reg up [(sysB, SYS_UPDSTAT_STAGE, 1), (sysB, SYS_UPDSTAT_RCVD, 1024)])) with upd := { up.upd with manifest := [0, 0, 0, 0, 0, 1024] } }; let r : WriteReq := ⟨src, .sys, 0x80, .plain, (SYS_UPDCMD_OP.set 3 w)⟩; ∃ d, Passes r (sysBlkChk r) false s d) ∧
    (let src : Src := ⟨0, .trust⟩; let w : Word := 0; let s : State := up; let r : WriteReq := ⟨src, .sys, 0x80, .plain, (SYS_UPDCMD_OP.set 4 w)⟩; ∃ d, Passes r (sysBlkChk r) false s d) ∧
    (let src : Src := ⟨4, .seal⟩; let w : Word := 0; let s : State := (reg up [(vaultB, VAULT_LC_STATE, 1)]); let r : WriteReq := ⟨src, .sys, 0x80, .plain, (SYS_UPDCMD_OP.set 5 w)⟩; ∃ d, Passes r (sysBlkChk r) false s d) ∧
    (let src : Src := ⟨0, .trust⟩; let s : State := { up with ecr := { up.ecr with slotB := { up.ecr.slotB with state := 2 } } }; let r : WriteReq := ⟨src, .sys, 0x60, .plain, (SYS_EDCMD_KEY.set 0x3C (SYS_EDCMD_OP.set 1 0))⟩; ∃ d, Passes r (sysBlkChk r) false s d) ∧
    (let src : Src := ⟨0, .trust⟩; let s : State := { up with ecr := { up.ecr with slotB := { up.ecr.slotB with state := 2 } } }; let r : WriteReq := ⟨src, .sys, 0x60, .plain, (SYS_EDCMD_KEY.set 0x3C (SYS_EDCMD_OP.set 2 0))⟩; ∃ d, Passes r (sysBlkChk r) false s d) ∧
    (let src : Src := ⟨0, .trust⟩; let s : State := up; let r : WriteReq := ⟨src, .sys, 0x60, .plain, (SYS_EDCMD_KEY.set 0x3C (SYS_EDCMD_OP.set 3 0))⟩; ∃ d, Passes r (sysBlkChk r) false s d) ∧
    (let src : Src := ⟨0, .trust⟩; let s : State := { up with ecr := { up.ecr with trial := true } }; let r : WriteReq := ⟨src, .sys, 0x60, .plain, (SYS_EDCMD_KEY.set 0x3C (SYS_EDCMD_OP.set 4 0))⟩; ∃ d, Passes r (sysBlkChk r) false s d) ∧
    (let src : Src := ⟨0, .trust⟩; let s : State := { up with ecr := { up.ecr with slotB := ⟨3, 1, 0, 0⟩, fmt1 := 1 } }; let r : WriteReq := ⟨src, .sys, 0x60, .plain, (SYS_EDCMD_KEY.set 0x3C (SYS_EDCMD_OP.set 5 0))⟩; ∃ d, Passes r (sysBlkChk r) false s d) ∧
    (let src : Src := ⟨0, .trust⟩; let s : State := up; let r : WriteReq := ⟨src, .sys, 0x60, .plain, (SYS_EDCMD_KEY.set 0x3C (SYS_EDCMD_OP.set 6 0))⟩; ∃ d, Passes r (sysBlkChk r) false s d) ∧
    (let src : Src := ⟨0, .trust⟩; let s : State := up; let r : WriteReq := ⟨src, .sys, 0x60, .plain, (SYS_EDCMD_KEY.set 0x3C (SYS_EDCMD_OP.set 7 0))⟩; ∃ d, Passes r (sysBlkChk r) false s d) ∧
    (let src : Src := ⟨0, .trust⟩; let s : State := (reg up [(sysB, SYS_NVADDR_ADDR, 0x12F00000)]); let r : WriteReq := ⟨src, .sys, 0x74, .plain, (SYS_NVCMD_KEY.set 0x69 (SYS_NVCMD_OP.set 1 0))⟩; ∃ d, Passes r (sysBlkChk r) false s d) ∧
    (let src : Src := ⟨0, .trust⟩; let w : Word := 0; let s : State := up; noneAhead s src.req (some .aon) = true ∧ s.ready .aon = true ∧     testDriven ⟨src, .aon, 0x14, .plain, w⟩ s = false) ∧
    (let src : Src := ⟨0, .trust⟩; let w : Word := 0; let s : State := up; noneAhead s src.req (some .aon) = true ∧ s.ready .aon = true ∧     testDriven ⟨src, .aon, 8, .plain, w⟩ s = false) ∧
    (let src : Src := ⟨0, .trust⟩; let w : Word := 0; let s : State := up; noneAhead s src.req (some .aon) = true ∧ s.ready .aon = true ∧     testDriven ⟨src, .aon, 0x10, .plain, w⟩ s = false) :=
  ⟨passes_of (by decide +kernel),
   passes_of (by decide +kernel),
   passes_of (by decide +kernel),
   passes_of (by decide +kernel),
   passes_of (by decide +kernel),
   passes_of (by decide +kernel),
   passes_of (by decide +kernel),
   passes_of (by decide +kernel),
   passes_of (by decide +kernel),
   passes_of (by decide +kernel),
   passes_of (by decide +kernel),
   passes_of (by decide +kernel),
   passes_of (by decide +kernel),
   passes_of (by decide +kernel),
   passes_of (by decide +kernel),
   passes_of (by decide +kernel),
   passes_of (by decide +kernel),
   passes_of (by decide +kernel),
   passes_of (by decide +kernel),
   by decide +kernel,
   by decide +kernel,
   by decide +kernel⟩

/-! ### The front of the queue, writes and registers -/

theorem meets_StepServesTheFront : State.reset.pending = [] := rfl

theorem meets_StepStopsOnlyAtTestControls :
    testControls up = false ∧ up.posted = [] ∧ (tickOver (tmrTickEnd (endTick up))).posted = [] := by decide +kernel

theorem meets_StepKeepsTheInvariant :
    let s := { State.reset with pending := [.nop 0, .nop 1] }
    Invariant s ∧ ∃ t, step s = .next t :=
  ⟨⟨⟨by decide, by decide⟩, by decide, by decide⟩, _, rfl⟩

theorem meets_QueueIsServedInOrder :
    let s := { State.reset with pending := [.canTxLost 0, .nop 1] }
    Invariant s ∧ ∃ t, step s = .next t :=
  ⟨⟨⟨by decide, by decide⟩, by decide, by decide⟩, _, rfl⟩

theorem meets_RejectedWriteChangesNothing :
    let r : WriteReq := ⟨⟨15, .trust⟩, .psg, 4, .plain, 1⟩
    ∃ d, Registers.wf up.regs = true ∧ r.src.req < 16 ∧ r.off + r.al.off < 2 ^ 16 ∧ regDesc r.blk r.off = some d ∧
      ∃ code, code < 256 ∧ firstFail (psgChk r.src 4 up (r.plainWord d up) ++
        sharedFails up r d (r.old up) (r.plainWord d up) false) = some code := by
  refine ⟨(regDesc .psg 4).getD ⟨"", 0, 0, 0, 0, 0, []⟩, by decide +kernel, by decide, by decide, by decide +kernel, 0x15, ?_⟩
  decide +kernel

/-- The description of a register. -/
def descOf (b : Blk) (o : Nat) : RegDesc := (regDesc b o).getD ⟨"", 0, 0, 0, 0, 0, []⟩

theorem meets_AcceptedWriteByAccessCode :
    let fit (d : RegDesc) : Prop := d.fields.Pairwise (fun f g => f.hi < g.lo ∨ g.hi < f.lo) ∧
      (∀ f ∈ d.fields, f.lo ≤ f.hi ∧ f.hi < 36)
    fit (descOf .psg 0) ∧ fit (descOf .lch 0) ∧ fit (descOf (.can 7) 0x2C) ∧
    (∃ f ∈ (descOf .lch 0).fields, f.readsZero = false ∧ f.acc = .w1s) ∧
    (∃ f ∈ (descOf .lch 0).fields, f.readsZero = false ∧ f.acc = .run ∧ f.hi = 35) ∧
    (∃ f ∈ (descOf .lch 0).fields, f.readsZero = false ∧ f.acc = .cfg) ∧
    (∃ f ∈ (descOf (.can 7) 0x2C).fields, f.readsZero = false ∧ f.acc = .w1c) ∧
    (∃ f ∈ (descOf .inp 0x100).fields, f.readsZero = false ∧ f.acc = .fol) ∧
    (∃ f ∈ (descOf .psg 8).fields, f.readsZero = false ∧ f.acc = .ro) ∧
    (∀ f ∈ (descOf .lch 0).fields, 0 < f.lo ∨ f.hi < 0) := by decide +kernel

theorem meets_AliasWriteBits :
    (Alias.set ≠ .plain ∧ Alias.clear ≠ .plain ∧ Alias.toggle ≠ .plain) ∧
    (descOf .lch 0).fields.Pairwise (fun f g => f.hi < g.lo ∨ g.hi < f.lo) ∧
    (∀ f ∈ (descOf .lch 0).fields, f.lo ≤ f.hi ∧ f.hi < 36) ∧
    (∃ f ∈ (descOf .lch 0).fields, (f.acc = .rw ∨ f.acc = .run ∨ f.acc = .cfg) ∧ f.lo ≤ 35 ∧ 35 ≤ f.hi) ∧
    (∀ f ∈ (descOf .lch 0).fields, f.acc = .rw ∨ f.acc = .run ∨ f.acc = .cfg → 33 < f.lo ∨ f.hi < 33) := by decide +kernel

theorem meets_CommandsThatStoreNothing :
    (Instr.storesNothing (.canProtocolException 0) = true ∧ ∃ t, exec (.canProtocolException 0) State.reset = .next t) ∧
    Blk.psg.storesNothing = true ∧ ∃ t, exec (.registerWrite ⟨0, .trust⟩ .psg 0 0) State.reset = .next t :=
  ⟨⟨rfl, _, rfl⟩, rfl, _, rfl⟩

theorem meets_AlwaysOnWritesWait :
    (0xFFFF < 0x10000 ∧ noneAhead up 0 (some .aon) = true ∧ up.ready .aon = true ∧ testDriven ⟨⟨0, .trust⟩, .aon, (aliasAt 0xFFFF).2, (aliasAt 0xFFFF).1, 0⟩ up = false) ∧
    (let s := { up with aonPend := [⟨⟨0, .trust⟩, .aon, 0x3FFF, 1, false⟩] }
     0x3FFF < 0x4000 ∧ s.tbRun = true ∧ s.rej.contains 0 = false ∧ s.aonPend = [⟨⟨0, .trust⟩, .aon, 0x3FFF, 1, false⟩] ∧
      s.get aonB AON_RTCSUB_SUB ≠ 32767) := by decide +kernel

theorem meets_DeadlineWindow : 2 ^ 35 - 1 < 2 ^ 35 ∧ (1 ≤ 2 ^ 35 ∧ 2 ^ 35 ≤ 2 ^ 35) := by decide

/-! ### Cores -/

/-- Core 0 runs at the start of Inkwell in TRUST, with a decode table; w1 points into Inkwell, w2 at PSG_CTRL, w3 into
Vellum, w4 at nothing. -/
def cpu : State :=
  { up with cores := up.cores.set 0 { up.core 0 with
      running := true, pc := 0x02000000, regs := [0, 0x02000100, 0x40100000, 0x10000000, 0x0F000000] ++ List.replicate 27 0
      ux := some [0x900FFF800, 0x000000000] } }

theorem cpu_issues : Issues cpu 0 := ⟨by decide +kernel, by decide +kernel⟩

theorem cpu_invariant : Invariant cpu := ⟨⟨by decide +kernel, by decide +kernel⟩, by decide +kernel, by decide +kernel⟩

/-- The hypotheses of the completion statements of the integer instructions. -/
theorem meets_TwoSourceInstructionsComplete : ∃ (s : State) (c : CoreId), Issues s c := ⟨cpu, 0, cpu_issues⟩

theorem meets_OneSourceInstructionsComplete : ∃ (s : State) (c : CoreId), Issues s c := ⟨cpu, 0, cpu_issues⟩

theorem meets_ImmediateInstructionsComplete : Issues cpu 0 ∧
    (255#18).toNat < 256 ∧ (35#18).toNat < 36 ∧ (35 < 36 ∧ (0x8023#18).toNat = 2 ^ 15 + 35) ∧
    (35 < 36 ∧ (0x10023#18).toNat = 2 * 2 ^ 15 + 35) ∧ (35 < 36 ∧ (0x18023#18).toNat = 3 * 2 ^ 15 + 35) ∧
    (35 < 36 ∧ (0x20023#18).toNat = 4 * 2 ^ 15 + 35) ∧
    ((35#6).toNat ≤ 35 ∧ 1 ≤ (1#6).toNat ∧ (35#6).toNat + (1#6).toNat ≤ 36) := ⟨cpu_issues, by decide⟩

theorem meets_ZeroRegister : Invariant cpu ∧ (cpu.core 0).regs.length = 32 ∧ (31 : Reg) ≠ 0 ∧ (1 : Reg) ≠ 31 := ⟨cpu_invariant, by decide +kernel⟩

theorem meets_ResultFrame : Invariant cpu ∧ (1 : CoreId) ≠ 0 ∧ (31 : Reg) ≠ 0 ∧ (0 : Reg) ≠ 31 :=
  ⟨cpu_invariant, by decide⟩

theorem meets_ConditionsAfterCompare : Issues cpu 0 := cpu_issues

theorem meets_Shifts : Issues cpu 0 ∧ 255 < 256 ∧ 35 < 36 := ⟨cpu_issues, by decide⟩

theorem meets_MultiplyAndDivide :
    Issues cpu 0 ∧ (0x800000000 : Word).toInt = -2 ^ 35 ∧ (0xFFFFFFFFF : Word).toInt = -1 ∧ (0xFFFFFFFFF : Word) ≠ 0 ∧ (0 : Word) = 0 ∧
    ¬ ((0x800000000 : Word).toInt = -2 ^ 35 ∧ (2 : Word).toInt = -1) ∧ (2 : Word) ≠ 0 := ⟨cpu_issues, by decide⟩

theorem meets_NibPermute : Issues cpu 0 ∧ (255#18).toNat < 256 ∧ 255 < 256 ∧ 3 < 4 := ⟨cpu_issues, by decide⟩

theorem meets_PackAndUnpack : Issues cpu 0 ∧ 3 < 4 := ⟨cpu_issues, by decide⟩

theorem meets_ExceptionAndInterruptEntry :
    (Invariant cpu ∧ (cpu.core 0).exl = false ∧ (1 : CoreId) ≠ 0 ∧ 255 < 256 ∧ 2 ^ 18 - 1 < 2 ^ 18) ∧
    (let s : State := { (cpu.setCore 0 (fun k => { k with ie := true })) with
        icu := { cpu.icu with presented := cpu.icu.presented.set 0 (some 4) } }
     Invariant s ∧ (s.core 0).running = true ∧ (s.core 0).stopped = false ∧ (s.core 0).ie = true ∧ (s.core 0).exl = false ∧
      (s.icu.presented.getD 0 none).isSome = true) :=
  ⟨⟨cpu_invariant, by decide +kernel⟩,
   ⟨⟨by decide +kernel, by decide +kernel⟩, by decide +kernel, by decide +kernel⟩, by decide +kernel⟩

theorem meets_ReturnFromException :
    (Issues cpu 0 ∧ (cpu.core 0).world ≠ .opn ∧ bitAt (cpu.core 0).esave 29 = false) ∧
    (let s := cpu.setCore 0 (fun k => { k with esave := 0x020000000 })
     Issues s 0 ∧ (s.core 0).world ≠ .opn ∧ bitAt (s.core 0).esave 29 = true ∧
      ∀ w z, (s.core 0).sealHeld.head? ≠ some (some (w, z))) ∧
    (let s := cpu.setCore 0 (fun k => { k with esave := 0x020000000, sealHeld := [some (5, false)] })
     Issues s 0 ∧ (s.core 0).world ≠ .opn ∧ bitAt (s.core 0).esave 29 = true ∧
      (s.core 0).sealHeld.head? = some (some (5, false))) :=
  ⟨⟨cpu_issues, by decide +kernel⟩,
   ⟨⟨by decide +kernel, by decide +kernel⟩, by decide +kernel, by decide +kernel, fun _ _ h => by cases h⟩,
   ⟨⟨by decide +kernel, by decide +kernel⟩, by decide +kernel⟩⟩

theorem meets_ReturnUndoesEntry :
    let s := cpu.setCore 0 (fun k => { k with vbase := 0x02000000, world := .opn })
    Invariant s ∧ (s.core 0).exl = false ∧ ((s.core 0).world = .seal ↔ (0 : CoreId).val = 4) ∧
      Issues (raiseExc s 0 .illegal 0 0 0x02000010 0) 0 :=
  ⟨⟨⟨by decide +kernel, by decide +kernel⟩, by decide +kernel, by decide +kernel⟩, by decide +kernel, by decide +kernel,
   by decide +kernel, by decide +kernel⟩

theorem meets_DoubleFaultStops :
    let s := (cpu.setCore 0 (fun k => { k with exl := true })).setCore 4 (fun k => { k with exl := true })
    Invariant s ∧ (s.core 0).exl = true ∧ (s.core 4).exl = true ∧ (0 : CoreId).val < 4 ∧ (4 : CoreId).val = 4 :=
  ⟨⟨⟨by decide +kernel, by decide +kernel⟩, by decide +kernel, by decide +kernel⟩, by decide +kernel⟩

theorem meets_ControlInstructionsComplete :
    (Issues cpu 0 ∧ (14#4) ≠ 15) ∧
    (let t := cpu.reg 0 1 + (0#18).signExtend 36; t.toNat % 4 = 0) ∧ (let t := cpu.reg 0 1 + (3#18).signExtend 36; t.toNat % 4 ≠ 0) ∧
    (cpu.core 0).world ≠ .opn ∧
    (sysKnown 0 (0x17#18).toNat = true ∧ ((cpu.core 0).world ≠ .opn ∨ sysOpenRead (0x17#18).toNat = true)) ∧
    (sysKnown 0 (0x17#18).toNat = true ∧ sysRo (0x17#18).toNat = false ∧ ((cpu.core 0).world ≠ .opn ∨ (0x17#18) = 0)) ∧
    ((0 : CoreId).val ≠ 4 ∧ uxLegal ((uxEntry (cpu.core 0) 0).getD 0 0) 0 0 0 0x1FFF = true) :=
  ⟨⟨cpu_issues, by decide⟩, by decide +kernel⟩

theorem meets_FencesCachesAndSealComplete :
    Issues cpu 0 ∧ (cpu.core 0).world ≠ .opn ∧
    (drainPosted (cpu.posted.filter (fun p => p.src.req == 0)) { cpu with posted := cpu.posted.filter (fun p => p.src.req != 0) } =
        .next { cpu with posted := [] } ∧
      State.core { cpu with posted := [] } 0 = cpu.core 0 ∧ ∀ p ∈ cpu.aonPend, p.src.req ≠ 0) ∧
    ((0 : CoreId).val ≠ 4 ∧ (255#18).toNat < 256 ∧ cpu.flag (cstatP 0) VAULT_CSTAT_PEND = false) :=
  ⟨cpu_issues, by decide +kernel, ⟨rfl, rfl, by decide +kernel⟩, by decide +kernel⟩

theorem meets_CoprocessorInstructionsComplete :
    Issues cpu 0 ∧ (cpu.core 0).world ≠ .opn ∧ cpGranted cpu 0 0 = true ∧ cpGranted cpu 0 1 = true ∧ cpGranted cpu 0 2 = true ∧
    (7#8).toNat < 8 ∧ (3#8).toNat < 4 ∧ (1#8).toNat < 2 ∧ (63#8).toNat < 64 ∧ (0#8) = 0 := ⟨cpu_issues, by decide +kernel⟩

theorem meets_LoadsComplete :
    (Issues cpu 0 ∧
      let a := cpu.reg 0 1 + (0#18).signExtend 36
      a.toNat < 0x10000000 ∧ regionOf cpu a.toNat ≠ some .device ∧ cpu.safe.badWords.contains (a.toNat / 4 * 4) = false ∧
      memFault cpu 0 a 4 false false = none ∧ memFault cpu 0 a 2 false false = none ∧ memFault cpu 0 a 1 false false = none ∧
      memFault cpu 0 a 4 false true = none) ∧
    (let a := cpu.reg 0 2 + (0#18).signExtend 36
     memFault cpu 0 a 4 false false = none ∧ regionOf cpu a.toNat = some .device ∧ noneAhead cpu 0 (blkAt a.toNat) = true ∧
     (∀ p ∈ cpu.aonPend, p.src.req ≠ 0) ∧
     (deviceRead cpu ⟨0, (cpu.core 0).world⟩ a.toNat).2 = .word 1) ∧
    (let a := cpu.reg 0 2 + (0x3FFC#18).signExtend 36
     memFault cpu 0 a 4 false false = none ∧ regionOf cpu a.toNat = some .device ∧ noneAhead cpu 0 (blkAt a.toNat) = true ∧
     (∀ p ∈ cpu.aonPend, p.src.req ≠ 0) ∧ (deviceRead cpu ⟨0, (cpu.core 0).world⟩ a.toNat).2 = .err 0x10) :=
  ⟨⟨cpu_issues, by decide +kernel⟩, by decide +kernel, by decide +kernel⟩

theorem meets_StoresComplete :
    (Issues cpu 0 ∧
      let a := cpu.reg 0 1 + (0#18).signExtend 36
      storeSealed cpu 0 a.toNat = false ∧ regionOf cpu a.toNat ≠ some .device ∧ memFault cpu 0 a 4 true false = none ∧
      memFault cpu 0 a 2 true false = none ∧ memFault cpu 0 a 1 true false = none) ∧
    (let a := cpu.reg 0 2 + (0#18).signExtend 36
     regionOf cpu a.toNat = some .device ∧ memFault cpu 0 a 4 true false = none) ∧
    (let a := cpu.reg 0 1
     let s := cpu.setCore 0 (fun k => { k with resv := some (a.toNat / 16 * 16) })
     Issues s 0 ∧ memFault s 0 a 4 true true = none ∧ (s.core 0).resv = some (a.toNat / 16 * 16) ∧
     memFault cpu 0 a 4 true true = none ∧ (cpu.core 0).resv ≠ some (a.toNat / 16 * 16)) :=
  ⟨⟨cpu_issues, by decide +kernel⟩, by decide +kernel, ⟨by decide +kernel, by decide +kernel⟩, by decide +kernel⟩

theorem meets_StoreWritesItsNibsAlone :
    Issues cpu 0 ∧ Invariant cpu ∧
    (let a := cpu.reg 0 1 + (0#18).signExtend 36
     regionOf cpu a.toNat ≠ some .device ∧ storeSealed cpu 0 a.toNat = false ∧ memFault cpu 0 a 4 true false = none ∧
     memFault cpu 0 a 2 true false = none ∧ memFault cpu 0 a 1 true false = none) ∧
    (let a := cpu.reg 0 3 + (0#18).signExtend 36
     regionOf cpu a.toNat ≠ some .device ∧ storeSealed cpu 0 a.toNat = false ∧
     memFault cpu 0 a 4 true false = some (.store, 0x10)) := ⟨cpu_issues, cpu_invariant, by decide +kernel⟩

theorem meets_StoreEndsReservations :
    Issues cpu 0 ∧ Invariant cpu ∧
    (let a := cpu.reg 0 1 + (0#18).signExtend 36
     regionOf cpu a.toNat ≠ some .device ∧ storeSealed cpu 0 a.toNat = false ∧ memFault cpu 0 a 4 true false = none) :=
  ⟨cpu_issues, cpu_invariant, by decide +kernel⟩

/-! ### The rest -/

/-- The fabric-error source enabled for target 0 at priority 9, and raised. -/
def claimable : State := (reg up [(Blk.sys.base, SYS_FABERR_VALID, 1)]).wr (icuSrc 4) 0xC80000000

theorem meets_ClaimTakesTheHighest :
    (Registers.wf claimable.regs = true ∧ noneAhead claimable 0 (some .icu) = true ∧ claimable.ready Blk.icu.island = true ∧ (0 : Fin 5).val = 0 ∧ World.trust ≠ .opn ∧ coreIdle claimable 0 = false ∧ 4 < 135 ∧
      srcListed 4 = true ∧ 0 < deliverPrio claimable 0 4 ∧
      (∀ m, m < 135 → srcListed m = true → deliverPrio claimable 0 m < deliverPrio claimable 0 4 ∨
        (deliverPrio claimable 0 m = deliverPrio claimable 0 4 ∧ 4 ≤ m))) ∧
    (∀ m, m < 135 → srcListed m = true → deliverPrio up 0 m = 0) ∧
    (let src : Src := ⟨1, .opn⟩; src.req ≠ 0 ∧ src.world = .opn) := by decide +kernel

theorem meets_LostKeysAreGone :
    (∃ t, exec .reservoirLow State.reset = .next t) ∧
    (Cores.wf up.cores ∧ tamperArmed up 1 = true ∧ tamperArmed up 5 = true ∧ lcState up ≠ 5) ∧
    (let s := setVault up (fun v => { v with erasing := true }); Memory.wf s.mem = true ∧ s.vault.erasing = true) :=
  ⟨⟨_, rfl⟩, ⟨⟨by decide +kernel, by decide +kernel⟩, by decide +kernel⟩, by decide +kernel⟩

theorem meets_FullReceiveRingDrops :
    Registers.wf up.regs = true ∧ (7 : Fin 8).val < up.cans.length ∧
    (let s := reg up [(canB 7, CAN_RXRING_LEVEL, 16)]
     Registers.wf s.regs = true ∧ (7 : Fin 8).val < s.cans.length ∧ (rxObjs s 7).length ≤ s.get (canB 7) CAN_RXRING_LEVEL) := by
  decide +kernel

theorem meets_CaptureQueueRead :
    up.tmrs.length = 32 ∧ noneAhead up 9 (some .tmr) = true ∧ noneAhead up 4 (some .tmr) = true ∧
    up.ready Blk.tmr.island = true ∧ (up.tm 31).queue = [] ∧ 4 < 9 ∧
    (let s := up.setTm 31 (fun t => { t with queue := [(1, 0), (2, 0)] })
     s.tmrs.length = 32 ∧ noneAhead s 4 (some .tmr) = true ∧ s.ready Blk.tmr.island = true ∧
      (s.tm 31).queue = [(1, 0), (2, 0)] ∧ 4 ≤ 4) := by decide +kernel

theorem meets_InputSampling :
    (63 < up.inp.ins.length ∧ 63 < 64 ∧ Registers.wf up.regs = true ∧ (up.ip 63).first = true) ∧
    (let s := { up with inp := { up.inp with ins := up.inp.ins.set 63 { up.ip 63 with first := false } } }
     (s.ip 63).first = false ∧ 0 = (s.ip 63).deb ∧ 1 ≠ (s.ip 63).deb ∧ (s.ip 63).cnt + 1 < s.get (inpI 63) INP_ICFG_DEB) ∧
    (let s := { up with inp := { up.inp with ins := up.inp.ins.set 63 { up.ip 63 with first := false, cnt := 2 } } }
     (s.ip 63).first = false ∧ 1 ≠ (s.ip 63).deb ∧ s.get (inpI 63) INP_ICFG_DEB ≤ (s.ip 63).cnt + 1) := by decide +kernel

theorem meets_TimebaseAcrossPark :
    (let s := setPwr up (fun p => { p with entry := some (.park, 0) })
     Invariant s ∧ s.pwr.entry = some (.park, 0) ∧ s.reached 0 = true ∧ (0 : Word) = s.now ∧
      PState.park.code ≤ (islandCaps s).foldl min 5) ∧
    (let s : State := { (setPwr up (fun p => { p with entry := some (.park, 0) })) with now := 1 }
     Invariant s ∧ s.pwr.entry = some (.park, 0) ∧ s.reached 0 = true ∧ (0 : Word) ≠ s.now ∧
      PState.park.code ≤ (islandCaps s).foldl min 5) ∧ Invariant up :=
  ⟨⟨⟨⟨by decide +kernel, by decide +kernel⟩, by decide +kernel, by decide +kernel⟩, by decide +kernel⟩,
   ⟨⟨⟨by decide +kernel, by decide +kernel⟩, by decide +kernel, by decide +kernel⟩, by decide +kernel⟩,
   ⟨by decide +kernel, by decide +kernel⟩, by decide +kernel, by decide +kernel⟩

theorem meets_DecodeAndEncodeAgree :
    encodeWord (.ldw 0 5 6 12) = some 0x80298000C ∧ decodeWord 0 0x80298000C = some (.ldw 0 5 6 12) := by decide +kernel

theorem meets_CoreRunsTheWordAtItsPc :
    (let s := cpu.putWord 0x02000000 0x013940028
     decodeWord 0 (fetchWord s 0).2 = some (.opk 0 7 5)) ∧
    decodeWord 0 (fetchWord cpu 0).2 = none ∧ Issues (fetchWord cpu 0).1 0 ∧ (cpu.core 0).icache = [] :=
  ⟨by decide +kernel, by decide +kernel, ⟨by decide +kernel, by decide +kernel⟩, by decide +kernel⟩

theorem meets_WhatATickBrings :
    (let s : State := { up with ending := [.nop 0] }; s.ending = [.nop 0]) ∧
    (Registers.wf up.regs = true ∧ 31 < 32 ∧ tmrEnds up 31 = false ∧ tmrMeets up 31 = false) ∧
    (let s := reg up [(tmrP 31, TMR_COUNT_COUNT, 7), (tmrP 31, TMR_PERIOD_PERIOD, 7), (tmrP 31, TMR_CTRL_MODE, 1)]
     Registers.wf s.regs = true ∧ tmrEnds s 31 = true ∧ tmrMode s 31 = 1) ∧
    (let s := reg up [(tmrP 31, TMR_COUNT_COUNT, 7), (tmrP 31, TMR_PERIOD_PERIOD, 9), (tmrP 31, TMR_CMP_CMP, 8)]
     Registers.wf s.regs = true ∧ tmrMeets s 31 = true) ∧
    (let s := reg up [(ruleB, RULE_ROUTE_VALID, 1), (ruleB, RULE_ROUTE_LINE, 3), (ruleB, RULE_ROUTE_DST, 0x40)]
     Registers.wf s.regs = true ∧ 3 < 128 ∧ lineDsts s 3 = [0x40] ∧ s.ready (dstIsland 0x40) = true) := by decide +kernel

theorem meets_WritesReachTheirBlock :
    (let r : WriteReq := ⟨⟨0, .trust⟩, .psg, (aliasAt 0xFFFF).2, (aliasAt 0xFFFF).1, 0⟩
     0xFFFF < 0x10000 ∧ noneAhead up 0 (some .psg) = true ∧ noneAhead State.reset 0 (some .psg) = true ∧ testDriven r up = false ∧ testDriven r State.reset = false ∧ State.reset.ready Blk.psg.island = false ∧
     up.ready Blk.psg.island = true ∧ aonHeld .psg r.off = false) ∧
    (let r : WriteReq := ⟨⟨0, .trust⟩, .aon, (aliasAt 8).2, (aliasAt 8).1, 0⟩
     noneAhead up 0 (some .aon) = true ∧ testDriven r up = false ∧ up.ready Blk.aon.island = true ∧ aonHeld .aon r.off = true) ∧
    (0x3FFF < 0x4000 ∧ noneAhead up 0 (some .psg) = true ∧ up.ready Blk.psg.island = true ∧ aonHeld .psg 0x3FFF = false) ∧ 0x4000 ≤ 0x4000 := by decide +kernel

theorem meets_ResetAndClearRequestsComplete :
    (let src : Src := ⟨0, .trust⟩; let u : State := { up with warmDue := none }
     let r : WriteReq := ⟨src, .sys, 0x10, .plain, setBits (setBits 0 35 28 0x5A) 1 0 0⟩
     ∃ d, Passes r (sysBlkChk r) false u d) ∧
    (let src : Src := ⟨0, .trust⟩
     let r : WriteReq := ⟨src, .sys, 0x10, .plain, setBits (setBits 0 35 28 0x5A) 1 0 1⟩
     ∃ d, Passes r (sysBlkChk r) false up d) ∧
    (let src : Src := ⟨0, .trust⟩
     let r : WriteReq := ⟨src, .sys, 0x10, .plain, setBits (setBits 0 35 28 0x5A) 1 0 2⟩
     ∃ d, Passes r (sysBlkChk r) false up d) ∧
    (let r : WriteReq := ⟨⟨0, .trust⟩, .safe, 0x10, .plain, 0xD20000001⟩
     let u : State := { up with safe := { up.safe with causes := up.safe.causes.filter (fun c =>
      !([(10, 0)].contains (c.cls, c.idx) && (c.cls == 10 || (c.cls == 9 && (c.idx == 1 || c.idx == 3) &&
        decide (ms 1 ≤ (up.now - c.seen).toNat))))) } }
     ∃ d, Passes r (safeChk r) false u d) :=
  ⟨passes_of (by decide +kernel), passes_of (by decide +kernel), passes_of (by decide +kernel), passes_of (by decide +kernel)⟩

/-! ### Ill-formed commands -/

/-- An ill-formed command for each check, and a well-formed one beside it. -/
theorem test_wellFormed_refuses :
    [Instr.heartbeatRefresh ⟨10, .trust⟩ 0, .heartbeatRefresh ⟨0, .seal⟩ 0, .heartbeatRefresh ⟨4, .trust⟩ 0,
     .registerWrite ⟨0, .trust⟩ .psg 2 0, .registerWrite ⟨0, .trust⟩ .psg 0x10000 0, .aliasSetWrite ⟨10, .trust⟩ .psg 0 0,
     .aliasClearWrite ⟨0, .trust⟩ .psg 1 0, .aliasToggleWrite ⟨0, .trust⟩ .psg 3 0, .voteCorrection .psg 1,
     .fabricTimeout true 10 0 false, .fabricTimeout true 0 (2 ^ 32) false, .pwmOnTimeEnd 72, .rippleDetect 6, .peakArrival 16,
     .stringOpen 8, .sinkOpen 48, .sinkBankThermal 6 true, .diagAgeExpiry true 48, .diagAgeExpiry false 8, .feedOvercurrent 5 0,
     .currentSenseCrossCheck [(72, 0, 0)], .wireModelEvaluation [] [] 0, .arbiterCycle 0 [(48, 0, 0)] 0 [],
     .inputScan 0 [(64, 0)], .parkInputSample 0 [(64, 0)] [], .parkInputSample 0 [] [(8, 0)], .comparatorCrossing 8 0,
     .adcResultRead ⟨10, .trust⟩ 0, .timerPeriodEnd 32, .timerCapRead ⟨10, .trust⟩ 0, .ruleEvent 0x200 true, .ruleDelivery 112,
     .canFrameReceived 0 0 0 [256] 0 false, .linResponseReceived 0 [256] 0, .linResponseReceived 0 [] 256, .ethFrameReceived 0 [256] true 0,
     .nmgKeepaliveReceived 0 (.can 0 16 []) 0, .nmgKeepaliveReceived 0 (.eth [256]) 0, .transceiverWake 0 (.frame 0 16 []),
     .wakeFrameDecode 0 (.frame 0 0 [256]), .tokenReadEnd 0 [256] false, .recoveryAttn false [256], .dbgTransfer [256],
     .powerStateChoice 4001, .operatingRangeChange 0 [] 0].all (fun i => !i.wellFormed) = true ∧
    Instr.wellFormed (.heartbeatRefresh ⟨4, .seal⟩ 0) = true ∧ Instr.wellFormed (.pwmOnTimeEnd 71) = true := by decide

/-! ### One step each -/

/-- The state that an answer leaves. -/
def after (a : Answer) : State := match a with | .next t => t | _ => State.reset

/-- R111: PSC_CMD of an undriven function is rejected with code 0x07. -/
theorem test_undriven_function_rejected :
    bitsOf ((after (exec (.pscModeOn ⟨0, .trust⟩ 3 0) up)).rd Blk.psc0.lasterr) 35 28 = 0x07 := by decide +kernel

/-- R101: the clear alias clears the bits written 1 and leaves the others. -/
theorem test_clear_alias :
    let t := after (exec (.aliasClearWrite ⟨0, .trust⟩ .stk 0x100 0x400000000) (reg up [(stkP 0, STK_CTRL_IEDONE, 1)]))
    t.flag (stkP 0) STK_CTRL_IEDONE = false ∧ t.flag (stkP 0) STK_CTRL_IEFLT = true := by decide +kernel

/-- A device that is not ready rejects with code 0x06. -/
theorem test_not_ready : bitsOf ((after (exec (.pscModeOn ⟨0, .trust⟩ 3 0) State.reset)).rd 0x40000014) 23 16 = 0x06 := by
  decide +kernel

/-- ADD wraps at 2^36, with C, Z and without V. -/
theorem test_add_wraps :
    let s := cpu.setCore 0 (fun k => { k with regs := [0, 0xFFFFFFFFF, 1] ++ List.replicate 29 7 })
    let t := after (exec (.add 0 3 1 2) s)
    t.reg 0 3 = 0 ∧ condHolds 0 (t.core 0).flg = true ∧ condHolds 2 (t.core 0).flg = true ∧ condHolds 6 (t.core 0).flg = false ∧
    (t.core 0).pc = 0x02000004 := by decide +kernel

/-- A stored word reads back, its lowest nib at the lowest address. -/
theorem test_store_order :
    let s := cpu.setCore 0 (fun k => { k with regs := [0, 0x02000100, 0x123456789] ++ List.replicate 29 7 })
    let t := after (exec (.stw 0 2 1 0) s)
    t.word 0x02000100 = 0x123456789 ∧ t.nib 0x02000100 = 0x189 := by decide +kernel

/-- SYS enters the handler in TRUST with its number in ECAUSE and EPC after it. -/
theorem test_sys_enters :
    let t := after (exec (.sys 0 5) cpu)
    (t.core 0).pc = 0 ∧ (t.core 0).epc = 0x02000004 ∧ (t.core 0).exl = true ∧ bitsOf (t.core 0).ecause 17 0 = 5 := by
  decide +kernel

/-- A channel switched on in FIELD is on. -/
theorem test_channel_on :
    let t := after (exec (.pscModeOn ⟨0, .trust⟩ 3 0) (reg up [(pscP 3, PSC_STRUCT_USE, 1)]))
    chState t 3 = stOn ∧ (t.ch 3).hs = true := by decide +kernel

/-- A refresh with the wrong sequence number is rejected. -/
theorem test_heartbeat_sequence :
    bitsOf ((after (exec (.heartbeatRefresh ⟨2, .trust⟩ 0xC30000002) up)).rd Blk.psg.lasterr) 35 28 = 0x11 := by decide +kernel

/-! ### Words of Valnen-36, written out from chapter 18's formats -/

/-- A register-immediate word: LDW w5, 12(w6). -/
theorem test_word_ldw : decodeWord 0 0x80298000C = some (.ldw 0 5 6 12) := by decide +kernel

/-- A register word with a function in its low bits: OPK w7, w5. -/
theorem test_word_opk : decodeWord 0 0x013940028 = some (.opk 0 7 5) := by decide +kernel

/-- A bit-field word: BFXS w8, w7, 8, 8. -/
theorem test_word_bfxs : decodeWord 0 0x2041C8201 = some (.bfxs 0 8 7 8 8) := by decide +kernel

/-- A branch back three words on NE. -/
theorem test_word_br : decodeWord 0 0xA01FFFFFD = some (.br 0 1 (-3)) := by decide +kernel

/-- LUI and ORI as they build an address. -/
theorem test_words_lui_ori :
    decodeWord 0 0x154801004 = some (.lui 0 9 0x1004) ∧ decodeWord 0 0x134A50300 = some (.ori 0 9 9 0x10300) := by
  decide +kernel

/-- A user extension's word, and a word that spells nothing. -/
theorem test_words_ux_and_none : decodeWord 0 0xE04140002 = some (.ux 0 0 8 5 0 2) ∧ decodeWord 0 0 = none := by
  decide +kernel

end Sys2Proof.Tests
end

section
/-! The check values of the CRCs (R52, R360) and the octets of a word (R51). -/

namespace Sys2Proof.Machine

@[simp] theorem crc32Run_nil (c : Nat) : crc32Run c [] = c := rfl

@[simp] theorem crc32Run_cons (c o : Nat) (os : List Nat) :
    crc32Run c (o :: os) = crc32Run (crcOctet 0xEDB88320 c o) os :=
  List.foldl_cons ..

@[simp] theorem crc16Run_nil (c : Nat) : crc16Run c [] = c := rfl

@[simp] theorem crc16Run_cons (c o : Nat) (os : List Nat) :
    crc16Run c (o :: os) = crc16Run (crc16Octet c o) os :=
  List.foldl_cons ..

/-- Bits `hi:lo` as division and remainder. -/
theorem bitsOf_eq_div_mod (w : Word) (hi lo : Nat) :
    bitsOf w hi lo = w.toNat / 2 ^ lo % 2 ^ (hi + 1 - lo) := by
  rw [bitsOf, BitVec.extractLsb'_toNat, Nat.shiftRight_eq_div_pow]

/-- R51: the first octet holds only the four bits left above the other four octets. -/
theorem wordOctets_eq_digits (w : Word) :
    wordOctets w = [w.toNat / 2 ^ 32, w.toNat / 2 ^ 24 % 256, w.toNat / 2 ^ 16 % 256, w.toNat / 2 ^ 8 % 256,
      w.toNat % 256] := by
  have top : w.toNat / 4294967296 < 16 := by omega
  simp [wordOctets, bitsOf_eq_div_mod, top]

/-- Nine octet steps of the reflected CRC, then the final XOR of R52. -/
theorem crc32_digits_one_to_nine :
    crc32 [0x31, 0x32, 0x33, 0x34, 0x35, 0x36, 0x37, 0x38, 0x39] = 0xCBF43926 := by
  simp [crc32, crcOctet, crcBit]

/-- Nine octet steps from R360's initial value, with no final XOR. -/
theorem crc16Run_digits_one_to_nine :
    crc16Run 0xFFFF [0x31, 0x32, 0x33, 0x34, 0x35, 0x36, 0x37, 0x38, 0x39] = 0x29B1 := by
  simp [crc16Octet, crc16Bit]

/-- Settles O32: the two check values by their octet steps, the octets of the word by its base-256 digits. -/
theorem checkValues : Obligations.CheckValues := by
  unfold Obligations.CheckValues
  exact ⟨crc32_digits_one_to_nine, crc16Run_digits_one_to_nine, (wordOctets_eq_digits _).trans (by decide)⟩

end Sys2Proof.Machine
end

section
/-! Deadlines modulo 2^36 (R20) and the state after reset (R44, R90). -/

namespace Sys2Proof.Machine
open Laws

/-- R20 in the numbers that the words stand for. -/
theorem reachedAt_iff {c t : Word} : reachedAt c t = true ↔ (c.toNat + 2 ^ 36 - t.toNat) % 2 ^ 36 < 2 ^ 35 := by
  have order : 2 ^ 36 - t.toNat + c.toNat = c.toNat + 2 ^ 36 - t.toNat := by have := t.isLt; omega
  rw [reachedAt, decide_eq_true_iff, BitVec.toNat_sub, order]

theorem reachedAt_later {t : Word} {n : Nat} (hn : n < 2 ^ 35) : reachedAt (t + BitVec.ofNat 36 n) t = true := by
  rw [reachedAt_iff, BitVec.toNat_add, BitVec.toNat_ofNat]; omega

theorem reachedAt_ahead {c : Word} {n : Nat} (h1 : 1 ≤ n) (hn : n ≤ 2 ^ 35) :
    reachedAt c (c + BitVec.ofNat 36 n) = false := by
  rw [← Bool.not_eq_true, reachedAt_iff, BitVec.toNat_add, BitVec.toNat_ofNat]; omega

/-- Settles O12: the difference of the two words, as a number, on either side of half the range. -/
theorem deadlineWindow : Obligations.DeadlineWindow := by
  unfold Obligations.DeadlineWindow
  exact ⟨fun _ _ => reachedAt_iff, fun _ _ => reachedAt_later, fun _ _ => reachedAt_ahead⟩

theorem reset_invariant : Invariant State.reset := ⟨⟨rfl, rfl, rfl⟩, reset_cores⟩

/-- Log entry 5: no cell of memory is listed. -/
theorem reset_nib (a : Nat) : State.reset.nib a = 0 := rfl

/-- R90: no register is listed, so every one reads its Reset column. -/
theorem reset_rd (a : Nat) : State.reset.rd a = regReset a := rfl

/-- Settles O3: sparse memory and registers start with no cell listed, and the cores are the five reset ones. -/
theorem resetState : Obligations.ResetState := by
  unfold Obligations.ResetState
  exact ⟨reset_invariant, rfl, reset_nib, reset_rd, rfl, rfl, rfl⟩

end Sys2Proof.Machine
end

section
/-! Device writes on their way: what an offset names (R28), the crossing of the island (R39, R49), and a write that
passes every check of its block (R94). -/

namespace Sys2Proof.Machine
open Laws

variable {b : Bool} {src : Src} {blk : Blk} {off : Nat} {w : Word} {s : State} {al : Alias} {r : WriteReq}

/-! ### Aliases (R28, R101) -/

theorem aliasAt_sum (off : Nat) : (aliasAt off).2 + (aliasAt off).1.off = off := by
  by_cases h1 : off < 0x4000
  · rw [aliasAt_plain h1]; rfl
  by_cases h2 : off < 0x8000
  · rw [aliasAt, if_neg h1, if_pos h2]
    exact Nat.sub_add_cancel (Nat.le_of_not_lt h1)
  by_cases h3 : off < 0xC000
  · rw [aliasAt, if_neg h1, if_neg h2, if_pos h3]
    exact Nat.sub_add_cancel (Nat.le_of_not_lt h2)
  · rw [aliasAt, if_neg h1, if_neg h2, if_neg h3]
    exact Nat.sub_add_cancel (Nat.le_of_not_lt h3)

theorem aliasAt_add (al : Alias) (h : off < 0x4000) : aliasAt (off + al.off) = (al, off) := by
  cases al
  case plain => exact aliasAt_plain h
  case set =>
    show aliasAt (off + 0x4000) = _
    rw [aliasAt, if_neg (by omega), if_pos (by omega), Nat.add_sub_cancel]
  case clear =>
    show aliasAt (off + 0x8000) = _
    rw [aliasAt, if_neg (by omega), if_neg (by omega), if_pos (by omega), Nat.add_sub_cancel]
  case toggle =>
    show aliasAt (off + 0xC000) = _
    rw [aliasAt, if_neg (by omega), if_neg (by omega), if_neg (by omega), Nat.add_sub_cancel]

/-- R100, R102: only a plain write can change a reserved bit. -/
theorem testDriven_alias (h : r.al ≠ .plain) : testDriven r s = false := by simp [testDriven, h]

/-! ### The crossing (R39, R49) -/

theorem toBlock_notReady (h : s.ready r.blk.island = false) :
    toBlock b r s = s.fabReject r.src 0x06 (r.blk.base + r.off + r.al.off) := by simp [toBlock, h]

theorem toBlock_held (h : s.ready r.blk.island = true) (ha : aonHeld r.blk r.off = true) :
    toBlock b r s = { s with aonPend := s.aonPend ++ [⟨r.src, r.blk, r.off + r.al.off, r.data, false⟩] } := by
  simp [toBlock, h, ha]

theorem toBlock_ready (h : s.ready r.blk.island = true) (ha : aonHeld r.blk r.off = false) :
    toBlock b r s = blkWriteAt b r s := by simp [toBlock, h, ha]

theorem devWrite_notReady (hn : noneAhead s src.req (some blk) = true)
    (ht : testDriven ⟨src, blk, (aliasAt off).2, (aliasAt off).1, w⟩ s = false) (hr : s.ready blk.island = false) :
    devWrite b src blk off w s = .next (s.fabReject src 0x06 (blk.base + off)) := by
  rw [devWrite_next ht hn, toBlock_notReady hr]
  dsimp only
  rw [Nat.add_assoc, aliasAt_sum]

/-- R39: a write that a 32.768 kHz edge holds back joins the waiting ones under the offset it was made at. -/
theorem devWrite_held (hn : noneAhead s src.req (some blk) = true)
    (ht : testDriven ⟨src, blk, (aliasAt off).2, (aliasAt off).1, w⟩ s = false) (hr : s.ready blk.island = true)
    (ha : aonHeld blk (aliasAt off).2 = true) :
    devWrite b src blk off w s = .next { s with aonPend := s.aonPend ++ [⟨src, blk, off, w, false⟩] } := by
  rw [devWrite_next ht hn, toBlock_held hr ha]
  dsimp only
  rw [aliasAt_sum]

theorem devWrite_ready (hn : noneAhead s src.req (some blk) = true)
    (ht : testDriven ⟨src, blk, (aliasAt off).2, (aliasAt off).1, w⟩ s = false) (hr : s.ready blk.island = true)
    (ha : aonHeld blk (aliasAt off).2 = false) :
    devWrite b src blk off w s = .next (blkWriteAt b ⟨src, blk, (aliasAt off).2, (aliasAt off).1, w⟩ s) := by
  rw [devWrite_next ht hn, toBlock_ready hr ha]

/-- R28, R101: the block is told the plain register and how it is reached. -/
theorem aliasWriteAt_ready (hal : al ≠ .plain) (hoff : off < 0x4000) (hn : noneAhead s src.req (some blk) = true)
    (hr : s.ready blk.island = true) (ha : aonHeld blk off = false) :
    aliasWriteAt al src blk off w s = .next (blkWriteAt true ⟨src, blk, off, al, w⟩ s) := by
  have hat := aliasAt_add al hoff
  rw [aliasWriteAt, if_pos hoff, devWrite_ready hn (testDriven_alias (by rwa [hat])) hr (by rwa [hat]), hat]

/-- R28, log entry 23: no register stands past the span. -/
theorem aliasWriteAt_past (hoff : 0x4000 ≤ off) :
    aliasWriteAt al src blk off w s = .next (s.fabReject src 0x10 (blk.base + off + al.off)) := by
  rw [aliasWriteAt, if_neg (Nat.not_lt.mpr hoff)]; rfl

/-- Settles O42: the crossing decides among the three ends of a write, and one through an `Alias` changes only the
offset under which it travels. -/
theorem writesReachTheirBlock : Obligations.WritesReachTheirBlock := by
  unfold Obligations.WritesReachTheirBlock
  refine ⟨fun _ _ _ _ _ => rfl, ?atLarge, ?plainSpan, ?pastSpan⟩
  case atLarge =>
    intro src blk off w s _ r hn ht
    exact ⟨devWrite_notReady hn ht, devWrite_held hn ht, devWrite_ready hn ht⟩
  case plainSpan =>
    intro src blk off w s hoff hn hr ha
    have reaches {al : Alias} (hal : al ≠ .plain) := aliasWriteAt_ready (w := w) hal hoff hn hr ha
    exact ⟨reaches (by decide), reaches (by decide), reaches (by decide)⟩
  case pastSpan =>
    intro src blk off w s hoff
    exact ⟨aliasWriteAt_past hoff, aliasWriteAt_past hoff, aliasWriteAt_past hoff⟩

/-! ### A write that passes (R35, R94) -/

/-- R35, R94: a plain write that passes every check of its block takes effect. -/
theorem devWrite_taken {fails : State → Word → Fails} {locked : Bool} {hook : State → Word → Word → State}
    {rej : State → Nat → State} {d : RegDesc} (hp : Passes ⟨src, blk, off, .plain, w⟩ fails locked s d)
    (hoff : off < 0x4000) (hl : off ≠ 0x3C) (ha : aonHeld blk off = false)
    (hb : blkWriteAt b ⟨src, blk, off, .plain, w⟩ s = blockWrite ⟨src, blk, off, .plain, w⟩ fails locked hook rej s) :
    devWrite b src blk off w s = .next (Taken ⟨src, blk, off, .plain, w⟩ d hook s) := by
  have ⟨hn, hr, ht, _, _⟩ := hp
  rw [devWrite_block hoff ht hr ha hn, hb, blockWrite_taken hp hl]

/-- R108: the present clock edge takes bits from a write and adds none. -/
theorem bitAt_of_sameEdge {a i : Nat} {d : RegDesc} (h : bitAt (sameEdge s a d w) i = true) : bitAt w i = true := by
  unfold sameEdge at h
  split at h
  · exact h
  · generalize d.fields = l at h
    induction l generalizing w with
    | nil => exact h
    | cons f l ih =>
      have hv := ih h
      dsimp only at hv
      split at hv
      · rw [bitAt, BitVec.getLsbD_and, Bool.and_eq_true] at hv; exact hv.1
      · exact hv

theorem bitsOf_eq_zero_iff {hi lo : Nat} :
    bitsOf w hi lo = 0 ↔ ∀ i < hi + 1 - lo, bitAt w (lo + i) = false := by
  have word : bitsOf w hi lo = 0 ↔ w.extractLsb' lo (hi + 1 - lo) = 0#_ := by
    rw [bitsOf, ← BitVec.toNat_inj, BitVec.toNat_zero]
  rw [word]
  constructor
  · intro h i hi
    simpa [hi, bitAt] using congrArg (·.getLsbD i) h
  · intro h
    refine BitVec.eq_of_getLsbD_eq fun i hi => ?_
    simpa [hi, bitAt] using h i hi

/-- A field written as 0 reaches the block as 0. -/
theorem bitsOf_sameEdge_eq_zero {a hi lo : Nat} {d : RegDesc} (h : bitsOf w hi lo = 0) :
    bitsOf (sameEdge s a d w) hi lo = 0 := by
  rw [bitsOf_eq_zero_iff] at h ⊢
  intro i hi
  cases hv : bitAt (sameEdge s a d w) (lo + i) with
  | false => rfl
  | true => exact absurd (bitAt_of_sameEdge hv) (by rw [h i hi]; decide)

/-! ### The always-on island (R39) -/

theorem clearRej_of_not_contains {q : Nat} (h : s.rej.contains q = false) : s.clearRej q = s := by
  have out : q ∉ s.rej := by simpa using h
  have keep : s.rej.filter (· != q) = s.rej :=
    List.filter_eq_self.mpr fun p hp => bne_iff_ne.mpr fun e => out (e ▸ hp)
  rw [State.clearRej, keep]

/-- R39, R113: a waiting plain write of a requester with no reject flag is the island's to answer; its rejection is
marked as of this edge. -/
theorem aonTake1_plain (hoff : off < 0x4000) (h : s.rej.contains src.req = false) :
    aonTake1 s ⟨src, blk, off, w, false⟩ =
      let u := aonBlkWrite ⟨src, blk, off, .plain, w⟩ s
      if u.rej.contains src.req then u.mark blk.lasterr 1 else u := by
  simp only [aonTake1, aliasAt_plain hoff, clearRej_of_not_contains h, h, State.when]
  simp

theorem aonTake_plain (hp : s.aonPend = [⟨src, blk, off, w, false⟩]) (hoff : off < 0x4000)
    (h : s.rej.contains src.req = false) :
    aonTake s =
      let u := aonBlkWrite ⟨src, blk, off, .plain, w⟩ { s with aonPend := [] }
      if u.rej.contains src.req then u.mark blk.lasterr 1 else u := by
  rw [aonTake, hp]
  exact aonTake1_plain (s := { s with aonPend := [] }) hoff h

/-- R39, R109: an edge within a second while the timebase runs. -/
theorem rtcEdge_running (hrun : s.tbRun = true) (hsub : s.get aonB AON_RTCSUB_SUB ≠ 32767) :
    rtcEdge s = (aonTake (State.put { s with edge := s.edge.filter (fun p => !(isStl p.1 || p.1 == Blk.aon.lasterr)) }
      aonB AON_RTCSUB_SUB (s.get aonB AON_RTCSUB_SUB + 1))).refresh := by
  simp only [rtcEdge, rtcCycles, hrun, if_true]
  exact congrArg (fun t => (aonTake t).refresh) (if_neg hsub)

/-- Settles O11: the crossing holds the write back, and the edge takes the one write that waits. -/
theorem alwaysOnWritesWait : Obligations.AlwaysOnWritesWait := by
  unfold Obligations.AlwaysOnWritesWait
  constructor
  · intro src off w s _ hn hr ht
    exact devWrite_held hn ht hr rfl
  · intro src off w s hoff hrun hrej hpend hsub t u
    exact congrArg Host.Outcome.next ((rtcEdge_running hrun hsub).trans
      (congrArg State.refresh (aonTake_plain hpend hoff hrej)))

end Sys2Proof.Machine
end

section
/-! Reset requests (R45, R47) and the clear of the fault record (R580). -/

namespace Sys2Proof.Machine
open Laws

variable {src : Src} {s : State} {d : RegDesc} {ok : Bool} {kind : Nat}

/-- The keyed write of SYS_RESET. -/
def resetReq (src : Src) (kind : Nat) : WriteReq := ⟨src, .sys, 0x10, .plain, resetKey kind⟩

theorem devWrite_reset_taken (hp : Passes (resetReq src kind) (sysBlkChk (resetReq src kind)) false s d) :
    devWrite ok src .sys 0x10 (resetKey kind) s =
      .next (Taken (resetReq src kind) d (fun s _ x => sysBlkDone ok 0x10 s x) s) :=
  devWrite_taken (rej := noRej) hp (by decide) (by decide) rfl rfl

/-- KIND 0 asks for the WARM reset, whatever the present clock edge takes from the word (R108). -/
theorem sysBlkDone_reset_warm {w : Word} (h : SYS_RESET_KIND.of w = 0) :
    (sysBlkDone ok 0x10 s w).warmDue = some .software := by
  simp [sysBlkDone, h]

theorem resetKey_warm : SYS_RESET_KIND.of (resetKey 0) = 0 := by decide

theorem taken_resetWarm_warmDue :
    (Taken (resetReq src 0) d (fun s _ x => sysBlkDone ok 0x10 s x) s).warmDue = some .software :=
  sysBlkDone_reset_warm (bitsOf_sameEdge_eq_zero resetKey_warm)

/-- R47, log entry 40: a request that is taken makes the reset at once. -/
theorem execSysResetWarm_due {b : BootIn} {t : State} {c : WarmCause}
    (hw : devWrite true src .sys 0x10 (resetKey 0) { s with warmDue := none } = .next t) (hc : t.warmDue = some c) :
    execSysResetWarm src b s = .next (warmFrom t c 0 b) := by
  simp only [execSysResetWarm, hw, andThen, hc]
  rfl

/-- Settles O43: each request is a taken write, of SYS_RESET or of SAFE_CLR; a taken KIND 0 leaves the WARM reset due. -/
theorem resetAndClearRequestsComplete : Obligations.ResetAndClearRequestsComplete := by
  unfold Obligations.ResetAndClearRequestsComplete
  refine ⟨?warm, ?coreA, ?coreB, ?clear⟩
  case warm =>
    intro src b s d r u hp t
    have due : t.warmDue = some .software := taken_resetWarm_warmDue
    exact ⟨due, execSysResetWarm_due (devWrite_reset_taken hp) due⟩
  case coreA =>
    intro src ok s d r hp
    exact devWrite_reset_taken hp
  case coreB =>
    intro src ok s d r hp
    exact devWrite_reset_taken hp
  case clear =>
    intro src w ended s d r u hp
    exact devWrite_taken (rej := noRej) hp (by decide) (by decide) rfl rfl

end Sys2Proof.Machine
end

section
/-! The instructions of a core that end in TRUST alone, its fences, SEAL and its stores (R36, R413, R497–R503). -/

namespace Sys2Proof.Machine
open Laws

variable {s : State} {c : CoreId}

/-! ### Issue (R485) -/

theorem issueIf_legal {f : State → State} {legal : Bool} (h : Issues s c) (hl : legal = true) :
    issueIf c legal s f = .next (f s) := by rw [issueIf, issue_next h, if_pos hl]

theorem issuePriv_trust {f : State → State} {legal : Bool} (h : Issues s c) (hl : legal = true)
    (hw : (s.core c.val).world ≠ .opn) : issuePriv c legal s f = .next (f s) := by
  rw [issuePriv, issueIf_legal h hl, if_neg (by simpa using hw)]

/-! ### Caches (R503) -/

variable {wa wb : Reg}

theorem execCacheInvalidateIRange_trust (h : Issues s c) (hw : (s.core c.val).world ≠ .opn) :
    execCacheInvalidateIRange c wa wb s = .next ((s.setCore c.val (fun k =>
      { k with icache := linesOutside (s.reg c wa).toNat (s.reg c wb).toNat k.icache })).advance c) := by
  rw [execCacheInvalidateIRange, issuePriv_trust h rfl hw]

theorem execCacheInvalidateDRange_trust (h : Issues s c) (hw : (s.core c.val).world ≠ .opn) :
    execCacheInvalidateDRange c wa wb s = .next ((s.setCore c.val (fun k =>
      { k with dcache := linesOutside (s.reg c wa).toNat (s.reg c wb).toNat k.dcache })).advance c) := by
  rw [execCacheInvalidateDRange, issuePriv_trust h rfl hw]

theorem execCacheInvalidateIAll_trust (h : Issues s c) (hw : (s.core c.val).world ≠ .opn) :
    execCacheInvalidateIAll c s = .next ((s.setCore c.val (fun k => { k with icache := [] })).advance c) := by
  rw [execCacheInvalidateIAll, issuePriv_trust h rfl hw]

theorem execCacheInvalidateDAll_trust (h : Issues s c) (hw : (s.core c.val).world ≠ .opn) :
    execCacheInvalidateDAll c s = .next ((s.setCore c.val (fun k => { k with dcache := [] })).advance c) := by
  rw [execCacheInvalidateDAll, issuePriv_trust h rfl hw]

/-! ### Fences and SEAL (R36, R37, R413) -/

theorem execFenceMem_next (h : Issues s c) : execFenceMem c s = .next (s.advance c) := by
  rw [execFenceMem, issue_next h]

/-- R37: where the core stands as it stood and none of its writes waits for an edge, the fence ends with the reject flag
in Z. -/
theorem fenceDev_done {t : State} (h : Issues s c)
    (hd : drainPosted (s.posted.filter (fun p => p.src.req == c.val))
      { s with posted := s.posted.filter (fun p => p.src.req != c.val) } = .next t)
    (hc : t.core c.val = s.core c.val) (ha : ∀ p ∈ t.aonPend, p.src.req ≠ c.val) :
    fenceDev c s = .next
      (((t.clearRej c.val).setCore c.val (fun k => { k with flg := setZ k.flg (!t.rej.contains c.val) })).advance c) := by
  have none_waits : t.aonPend.any (fun w => w.src.req == c.val) = false := by simpa using ha
  simp only [bne] at hd
  rw [fenceDev, issueA_eq h]
  simp only [hd, andThen, State.when, none_waits]
  simp [hc]

/-- R413, R477: with no call pending, SEAL posts one. -/
theorem execSeal_call {imm : BitVec 18} (h : Issues s c) (hc : c.val ≠ 4) (himm : imm.toNat < 256)
    (hp : s.flag (cstatP c.val) VAULT_CSTAT_PEND = false) :
    execSeal c imm s = .next (sealCall s c.val imm.toNat) := by
  have legal : (c.val != 4 && decide (imm.toNat < 256)) = true := by simp [hc, himm]
  rw [execSeal, issueIf_legal h legal, if_neg (by simp [hp])]

/-- Settles O48: what the core checks first lets each instruction through, and its effect is its definition. -/
theorem fencesCachesAndSealComplete : Obligations.FencesCachesAndSealComplete := by
  unfold Obligations.FencesCachesAndSealComplete
  refine ⟨?cache, ?fenceMem, ?fenceDev, ?call⟩
  case cache =>
    intro c wa wb s h hw a b out
    exact ⟨execCacheInvalidateIRange_trust h hw, execCacheInvalidateDRange_trust h hw,
      execCacheInvalidateIAll_trust h hw, execCacheInvalidateDAll_trust h hw⟩
  case fenceMem =>
    intro c s h
    exact execFenceMem_next h
  case fenceDev =>
    intro c s t h hd hc ha u
    exact ⟨fenceDev_done h hd hc ha, fenceDev_done h hd hc ha⟩
  case call =>
    intro c imm s h hc himm hp
    exact execSeal_call h hc himm hp

/-! ### Stores (R32, R462, R497, R499) -/

variable {n : Nat} {ws wd : Reg} {imm : BitVec 18}

theorem storeFrom_memory {a : Word} (h : Issues s c) (ha : s.reg c wa + sext18 imm = a)
    (hm : memFault s c a n true false = none) (hr : regionOf s a.toNat ≠ some .device)
    (hs : storeSealed s c a.toNat = false) :
    storeFrom n c ws wa imm s = .next ((memStore s a.toNat n (s.reg c ws)).advance c) := by
  rw [storeFrom, issue_next h, ha, storeTo_normal hm hr hs]

theorem storeFrom_device {a : Word} (h : Issues s c) (ha : s.reg c wa + sext18 imm = a)
    (hm : memFault s c a n true false = none) (hr : regionOf s a.toNat = some .device) :
    storeFrom n c ws wa imm s = .next (State.advance { s with
      posted := s.posted ++ [⟨⟨c.val, (s.core c.val).world⟩, a.toNat, s.reg c ws, false⟩] } c) := by
  rw [storeFrom, issue_next h, ha, storeTo_device hm hr]

/-- R462: with the reservation the word is stored; either way the reservation ends and wd tells. -/
theorem execScond_checked (h : Issues s c) (hm : memFault s c (s.reg c wa) 4 true true = none) :
    execScond c wd wa wb s =
      let held := (s.core c.val).resv == some ((s.reg c wa).toNat / 16 * 16)
      .next (((s.when held (fun s => memStore s (s.reg c wa).toNat 4 (s.reg c wb))).setCore c.val
        (fun k => { k with resv := none })).regDone c wd (BitVec.ofNat 36 held.toNat)) := by
  rw [execScond, issue_next h]
  simp only [hm]
  rfl

/-- Settles O51: past the checks of R497 a store is memory's or a posted write, and SCOND hangs on the reservation. -/
theorem storesComplete : Obligations.StoresComplete := by
  unfold Obligations.StoresComplete
  constructor
  · intro c ws wa imm s h a w
    constructor
    · intro hs hr
      exact ⟨fun hm => storeFrom_memory h rfl hm hr hs, fun hm => storeFrom_memory h rfl hm hr hs,
        fun hm => storeFrom_memory h rfl hm hr hs⟩
    · exact fun hr hm => storeFrom_device h rfl hm hr
  · intro c wd wa wb s h a hm
    constructor
    · intro held
      have kept : ((s.core c.val).resv == some (a.toNat / 16 * 16)) = true := beq_iff_eq.mpr held
      refine (execScond_checked h hm).trans ?_
      simp only [State.when, a, kept, if_true]
      rfl
    · intro lost
      have gone : ((s.core c.val).resv == some (a.toNat / 16 * 16)) = false := beq_eq_false_iff_ne.mpr lost
      refine (execScond_checked h hm).trans ?_
      simp only [State.when, a, gone]
      rfl

end Sys2Proof.Machine
end

section
/-! What a rejection leaves (R36, R111). -/

namespace Sys2Proof.Machine
open Laws

variable {old : Word} {code req off : Nat} {r : WriteReq} {s : State}

/-! ### The record -/

theorem lasterrReject_code (hcode : code < 256) : bitsOf (lasterrReject old code req off) 35 28 = code := by
  simp (disch := decide) only [lasterrReject, bitsOf_setBits_other]
  exact bitsOf_setBits_same (by decide) (by decide) hcode

theorem lasterrReject_req (hreq : req < 16) : bitsOf (lasterrReject old code req off) 27 24 = req := by
  simp (disch := decide) only [lasterrReject, bitsOf_setBits_other]
  exact bitsOf_setBits_same (by decide) (by decide) hreq

theorem lasterrReject_offset (hoff : off < 2 ^ 16) : bitsOf (lasterrReject old code req off) 19 4 = off := by
  simp (disch := decide) only [lasterrReject, bitsOf_setBits_other]
  exact bitsOf_setBits_same (by decide) (by decide) hoff

theorem lasterrReject_valid : bitsOf (lasterrReject old code req off) 0 0 = 1 :=
  bitsOf_setBits_same (by decide) (by decide) (by decide)

theorem lasterrReject_info : bitsOf (lasterrReject old code req off) 1 1 = 0 := by
  simp (disch := decide) only [lasterrReject, bitsOf_setBits_other]
  decide

theorem satInc_eq_min {top n : Nat} : satInc top n = min top (n + 1) := by
  unfold satInc; split <;> omega

theorem lasterrReject_count : bitsOf (lasterrReject old code req off) 23 20 =
    if bitsOf old 0 0 = 0 then 1 else min 15 (bitsOf old 23 20 + 1) := by
  have counted : bitsOf (lasterrReject old code req off) 23 20 =
      satInc 15 (if bitsOf old 0 0 = 0 then 0 else bitsOf old 23 20) := by
    simp (disch := decide) only [lasterrReject, bitsOf_setBits_other]
    exact bitsOf_setBits_same (by decide) (by decide) (by rw [satInc_eq_min]; omega)
  rw [counted, satInc_eq_min]
  split
  · rfl
  · rfl

/-! ### The rejection -/

theorem mem_setRej {q p : Nat} : q ∈ (s.setRej p).rej ↔ q = p ∨ q ∈ s.rej := by
  unfold State.setRej
  dsimp only
  split
  next h =>
    have held : p ∈ s.rej := by simpa using h
    exact ⟨.inr, fun hq => hq.elim (fun e => e ▸ held) id⟩
  next => exact List.mem_cons

theorem rejectWrite_rd (h : Registers.wf s.regs = true) (a : Nat) : (rejectWrite s r code).rd a =
    if a = r.blk.lasterr then lasterrReject (s.rd r.blk.lasterr) code r.src.req (r.off + r.al.off) else s.rd a :=
  rd_wr h

/-- Settles O6: the rejection is one write of the record, whose fields stand apart, and one flag. -/
theorem rejectedWriteChangesNothing : Obligations.RejectedWriteChangesNothing := by
  unfold Obligations.RejectedWriteChangesNothing
  intro r fails locked hook s d code hwf hreq hoff hcode hd hf t e old
  have rejected : t = rejectWrite s r code := blockWrite_rejected hd hf
  have record : e = lasterrReject old code r.src.req (r.off + r.al.off) := by
    show t.rd _ = _
    rw [rejected, rejectWrite_rd hwf, if_pos rfl]
  rw [record, rejected]
  exact ⟨fun a ha => by rw [rejectWrite_rd hwf, if_neg ha], rfl, fun q => mem_setRej, lasterrReject_code hcode,
    lasterrReject_req hreq, lasterrReject_offset hoff, lasterrReject_valid, lasterrReject_info, lasterrReject_count⟩

end Sys2Proof.Machine
end

section
/-! What a write leaves in the fields of its register (R90), and what a write through an `Alias` asks for (R101, R102). -/

namespace Sys2Proof.Machine
open Laws

variable {d : RegDesc} {f : FieldDesc} {l : List FieldDesc} {old v w : Word} {al : Alias} {i : Nat}

/-! ### A register walked field by field -/

/-- The named fields are in the word, and no two share a bit. -/
structure FieldsFit (l : List FieldDesc) : Prop where
  apart : l.Pairwise (fun f g => f.hi < g.lo ∨ g.hi < f.lo)
  inWord : ∀ f ∈ l, f.lo ≤ f.hi ∧ f.hi < 36

theorem FieldsFit.tail (h : FieldsFit (f :: l)) : FieldsFit l :=
  ⟨h.apart.of_cons, fun g hg => h.inWord g (List.mem_cons_of_mem f hg)⟩

/-- `g` gives bit `i` of field `f` the value `b f i` of what stood there, and touches no bit outside the field. -/
def ActsByField (g : Word → FieldDesc → Word) (b : FieldDesc → Nat → Bool → Bool) : Prop :=
  ∀ v f i, f.lo ≤ f.hi → f.hi < 36 → i < 36 →
    bitAt (g v f) i = if f.lo ≤ i ∧ i ≤ f.hi then b f i (bitAt v i) else bitAt v i

theorem ActsByField.bitAt_foldl_outside {g : Word → FieldDesc → Word} {b : FieldDesc → Nat → Bool → Bool}
    (hg : ActsByField g b) (hl : ∀ f ∈ l, f.lo ≤ f.hi ∧ f.hi < 36) (hi : i < 36)
    (hout : ∀ f ∈ l, i < f.lo ∨ f.hi < i) : bitAt (l.foldl g v) i = bitAt v i := by
  induction l generalizing v with
  | nil => rfl
  | cons f l ih =>
    obtain ⟨hf, hl⟩ := List.forall_mem_cons.mp hl
    obtain ⟨hfi, hout⟩ := List.forall_mem_cons.mp hout
    rw [List.foldl_cons, ih hl hout, hg v f i hf.1 hf.2 hi, if_neg (by omega)]

theorem ActsByField.bitAt_foldl_inside {g : Word → FieldDesc → Word} {b : FieldDesc → Nat → Bool → Bool}
    (hg : ActsByField g b) (hl : FieldsFit l) (hf : f ∈ l) (hlo : f.lo ≤ i) (hhi : i ≤ f.hi) :
    bitAt (l.foldl g v) i = b f i (bitAt v i) := by
  induction l generalizing v with
  | nil => nomatch hf
  | cons e l ih =>
    obtain ⟨hapart, _⟩ := List.pairwise_cons.mp hl.apart
    obtain ⟨he, hin⟩ := List.forall_mem_cons.mp hl.inWord
    have hi : i < 36 := Nat.lt_of_le_of_lt hhi (hl.inWord f hf).2
    rw [List.foldl_cons]
    rcases List.mem_cons.mp hf with rfl | hfl
    · have others : ∀ g ∈ l, i < g.lo ∨ g.hi < i := fun g hgl => by have := hapart g hgl; omega
      rw [hg.bitAt_foldl_outside hin hi others, hg v f i he.1 he.2 hi, if_pos ⟨hlo, hhi⟩]
    · have apart := hapart f hfl
      rw [ih hl.tail hfl, hg v e i he.1 he.2 hi, if_neg (by omega)]

theorem testBit_bitsOf (hi lo k : Nat) :
    (bitsOf w hi lo).testBit k = (decide (k < hi + 1 - lo) && bitAt w (lo + k)) := by
  rw [bitsOf, BitVec.testBit_toNat, BitVec.getLsbD_extractLsb', bitAt]

theorem bitsOf_lt (hi lo : Nat) : bitsOf w hi lo < 2 ^ (hi + 1 - lo) := BitVec.isLt _

theorem bitAt_eq_testBit_bitsOf {hi lo : Nat} (hlo : lo ≤ i) (hhi : i ≤ hi) :
    bitAt w i = (bitsOf w hi lo).testBit (i - lo) := by
  rw [testBit_bitsOf, Nat.add_sub_cancel' hlo, decide_eq_true (by omega), Bool.true_and]

/-! ### An accepted write (R90) -/

theorem commit_actsByField (old w : Word) :
    ActsByField (fun v f => setBits v f.hi f.lo (f.commit old w)) (fun f i _ => (f.commit old w).testBit (i - f.lo)) :=
  fun _ _ _ hlo hhi hi => bitAt_setBits hhi hlo hi

theorem FieldDesc.commit_lt (f : FieldDesc) (old w : Word) : f.commit old w < 2 ^ (f.hi + 1 - f.lo) := by
  have ho := bitsOf_lt (w := old) f.hi f.lo
  have hx := bitsOf_lt (w := w) f.hi f.lo
  unfold FieldDesc.commit
  cases f.acc
  case rw | run | cfg => dsimp only; split <;> assumption
  case w1s => dsimp only; split; exact ho; exact Nat.or_lt_two_pow ho hx
  case w1c => exact Nat.lt_of_le_of_lt Nat.and_le_left ho
  case ro | fol => exact ho

theorem bitsOf_commitWord (hl : FieldsFit d.fields) (hf : f ∈ d.fields) :
    bitsOf (commitWord d old w) f.hi f.lo = f.commit old w := by
  refine Nat.eq_of_testBit_eq fun k => ?_
  rw [testBit_bitsOf]
  by_cases hk : k < f.hi + 1 - f.lo
  · rw [decide_eq_true hk, Bool.true_and, commitWord,
      (commit_actsByField old w).bitAt_foldl_inside hl hf (by omega) (by omega), Nat.add_sub_cancel_left]
  · rw [decide_eq_false hk, Bool.false_and, Nat.testBit_lt_two_pow]
    exact Nat.lt_of_lt_of_le (f.commit_lt old w) (Nat.pow_le_pow_right (by decide) (by omega))

theorem bitAt_commitWord_reserved (hl : FieldsFit d.fields) (hi : i < 36)
    (hout : ∀ f ∈ d.fields, i < f.lo ∨ f.hi < i) :
    bitAt (commitWord d old w) i = bitAt old i :=
  (commit_actsByField old w).bitAt_foldl_outside hl.inWord hi hout

theorem FieldDesc.commit_writable (h : f.acc = .rw ∨ f.acc = .run ∨ f.acc = .cfg) (hz : f.readsZero = false) :
    f.commit old w = bitsOf w f.hi f.lo := by
  obtain h | h | h := h <;> simp [FieldDesc.commit, h, hz]

theorem FieldDesc.commit_fixed (h : f.acc = .ro ∨ f.acc = .fol) : f.commit old w = bitsOf old f.hi f.lo := by
  obtain h | h := h <;> simp [FieldDesc.commit, h]

theorem FieldDesc.commit_w1s (h : f.acc = .w1s) (hz : f.readsZero = false) :
    f.commit old w = bitsOf old f.hi f.lo ||| bitsOf w f.hi f.lo := by simp [FieldDesc.commit, h, hz]

theorem FieldDesc.testBit_commit_w1c (h : f.acc = .w1c) (k : Nat) :
    (f.commit old w).testBit k = ((bitsOf old f.hi f.lo).testBit k && !(bitsOf w f.hi f.lo).testBit k) := by
  have hx := bitsOf_lt (w := w) f.hi f.lo
  have complement : 2 ^ (f.hi + 1 - f.lo) - 1 - bitsOf w f.hi f.lo =
    2 ^ (f.hi + 1 - f.lo) - (bitsOf w f.hi f.lo + 1) := by omega
  simp only [FieldDesc.commit, h, complement, Nat.testBit_and, Nat.testBit_two_pow_sub_succ hx, testBit_bitsOf]
  cases decide (k < f.hi + 1 - f.lo) <;> rfl

/-- Settles O7: a fold over fields that share no bit leaves in each field what its access code commits. -/
theorem acceptedWriteByAccessCode : Obligations.AcceptedWriteByAccessCode := by
  unfold Obligations.AcceptedWriteByAccessCode
  intro d old w hapart hin
  have fit : FieldsFit d.fields := ⟨hapart, hin⟩
  constructor
  · intro f hf hz o x n
    have committed : n = f.commit old w := bitsOf_commitWord fit hf
    rw [committed]
    exact ⟨fun h => f.commit_writable h hz, f.commit_fixed,
      fun h i => by rw [f.commit_w1s h hz, Nat.testBit_or], f.testBit_commit_w1c⟩
  · exact fun i hi hout => bitAt_commitWord_reserved fit hi hout

/-! ### A write through an `Alias` (R101, R102) -/

theorem Acc.writable_iff {a : Acc} : a.writable = true ↔ a = .rw ∨ a = .run ∨ a = .cfg := by cases a <;> decide

/-- What a write through an `Alias` asks of one field: its bits on RW, RUN and CFG, no 1 to W1S and W1C, nothing of RO and
FOL. -/
def aliasStep (al : Alias) (old w v : Word) (f : FieldDesc) : Word :=
  if f.acc.writable then setBits v f.hi f.lo (bitsOf (al.apply old w) f.hi f.lo)
  else match f.acc with
    | .w1s | .w1c => setBits v f.hi f.lo 0
    | _ => v

/-- The bit that `aliasStep` leaves at position `i` of its field, where `o` stood. -/
def aliasBit (al : Alias) (old w : Word) (f : FieldDesc) (i : Nat) (o : Bool) : Bool :=
  if f.acc.writable then bitAt (al.apply old w) i
  else match f.acc with
    | .w1s | .w1c => false
    | _ => o

theorem aliasWord_eq_foldl (h : al ≠ .plain) : aliasWord al d old w = d.fields.foldl (aliasStep al old w) old := by
  cases al
  case plain => exact absurd rfl h
  case set | clear | toggle => rfl

theorem aliasStep_actsByField (al : Alias) (old w : Word) : ActsByField (aliasStep al old w) (aliasBit al old w) := by
  intro v f i hlo hhi hi
  unfold aliasStep aliasBit
  split
  · rw [bitAt_setBits hhi hlo hi]
    split
    next h => rw [← bitAt_eq_testBit_bitsOf h.1 h.2]
    next => rfl
  · split
    · rw [bitAt_setBits hhi hlo hi, Nat.zero_testBit]
    · rw [bitAt_setBits hhi hlo hi, Nat.zero_testBit]
    · exact (ite_self _).symm

theorem bitAt_aliasWord (h : al ≠ .plain) (hl : FieldsFit d.fields) (hf : f ∈ d.fields) (hlo : f.lo ≤ i)
    (hhi : i ≤ f.hi) :
    bitAt (aliasWord al d old w) i = aliasBit al old w f i (bitAt old i) := by
  rw [aliasWord_eq_foldl h]
  exact (aliasStep_actsByField al old w).bitAt_foldl_inside hl hf hlo hhi

theorem bitAt_apply (hi : i < 36) :
    bitAt (al.apply old w) i = match al with
      | .set => bitAt old i || bitAt w i
      | .clear => bitAt old i && !bitAt w i
      | .toggle => bitAt old i ^^ bitAt w i
      | .plain => bitAt w i := by
  cases al <;> simp [Alias.apply, bitAt, hi]

/-- A field of another code than RW, RUN and CFG keeps its bits, whatever was written. -/
theorem bitAt_commitWord_aliasWord (h : al ≠ .plain) (hl : FieldsFit d.fields) (hf : f ∈ d.fields)
    (hacc : ¬ f.acc.writable = true) (hlo : f.lo ≤ i) (hhi : i ≤ f.hi) :
    bitAt (commitWord d old (aliasWord al d old w)) i = bitAt old i := by
  have asked : ∀ j, f.lo ≤ j → j ≤ f.hi →
      bitAt (aliasWord al d old w) j = aliasBit al old w f j (bitAt old j) := fun j => bitAt_aliasWord h hl hf
  have none (hb : ∀ j, aliasBit al old w f j (bitAt old j) = false) :
      bitsOf (aliasWord al d old w) f.hi f.lo = 0 :=
    bitsOf_eq_zero_iff.mpr fun j hj => (asked _ (by omega) (by omega)).trans (hb _)
  rw [bitAt_eq_testBit_bitsOf hlo hhi, bitsOf_commitWord hl hf, bitAt_eq_testBit_bitsOf (w := old) hlo hhi]
  cases ha : f.acc
  case ro => rw [f.commit_fixed (.inl ha)]
  case fol => rw [f.commit_fixed (.inr ha)]
  case w1s =>
    have zero := none fun j => by simp [aliasBit, ha, Acc.writable]
    simp [FieldDesc.commit, ha, zero]
  case w1c =>
    have zero := none fun j => by simp [aliasBit, ha, Acc.writable]
    rw [f.testBit_commit_w1c ha, zero, Nat.zero_testBit, Bool.not_false, Bool.and_true]
  case rw | run | cfg => exact absurd (by rw [ha]; rfl) hacc

/-- Settles O8: the word asked for, bit by bit, and committing it leaves the other fields as they stood. -/
theorem aliasWriteBits : Obligations.AliasWriteBits := by
  unfold Obligations.AliasWriteBits
  intro d old w al hal hapart hin v
  have fit : FieldsFit d.fields := ⟨hapart, hin⟩
  constructor
  · intro f hf hacc i hlo hhi
    have hi : i < 36 := Nat.lt_of_le_of_lt hhi (hin f hf).2
    rw [bitAt_aliasWord hal fit hf hlo hhi, aliasBit, if_pos (Acc.writable_iff.mpr hacc)]
    exact bitAt_apply hi
  · intro i hi hout
    by_cases named : ∃ f ∈ d.fields, f.lo ≤ i ∧ i ≤ f.hi
    · obtain ⟨f, hf, hlo, hhi⟩ := named
      have code : ¬ f.acc.writable = true := fun h => by have := hout f hf (Acc.writable_iff.mp h); omega
      exact bitAt_commitWord_aliasWord hal fit hf code hlo hhi
    · exact bitAt_commitWord_reserved fit hi fun f hf => by
        have outside : ¬ (f.lo ≤ i ∧ i ≤ f.hi) := fun h => named ⟨f, hf, h⟩
        omega

end Sys2Proof.Machine
end

section
/-! Where a step can stop: at a device write that drives a live test control (R100), and nowhere else. -/

namespace Sys2Proof.Machine
open Laws

variable {q p : Prop} {a : Answer} {s : State} {src : Src} {blk : Blk} {off : Nat} {w : Word} {c : CoreId}

/-- The answer goes on or stops at a live test control, and under `q` it goes on. -/
def GoesOnIf (q : Prop) (a : Answer) : Prop := (∃ t, a = .next t) ∨ (a = .fault .testControl ∧ ¬ q)

namespace GoesOnIf

theorem next : GoesOnIf q (.next s) := .inl ⟨s, rfl⟩

theorem mono (h : GoesOnIf p a) (hq : q → p) : GoesOnIf q a := h.imp_right fun ⟨hf, hp⟩ => ⟨hf, mt hq hp⟩

theorem ite {b : Prop} [Decidable b] {a' : Answer} (h : GoesOnIf q a) (h' : GoesOnIf q a') :
    GoesOnIf q (if b then a else a') := by split <;> assumption

theorem on {i : Island} (h : GoesOnIf q a) : GoesOnIf q (s.on i a) := ite h next

theorem andThen {f : State → Answer} (h : GoesOnIf q a) (hf : ∀ t, GoesOnIf q (f t)) :
    GoesOnIf q (andThen a f) := by
  obtain ⟨t, rfl⟩ | ⟨rfl, hq⟩ := h
  · exact hf t
  · exact .inr ⟨rfl, hq⟩

end GoesOnIf

/-! ### Device writes and reads (R32, R33, R100) -/

theorem devPut_goesOnIf {b : Bool} : GoesOnIf (testControls s = false) (devPut b src blk off w s) := by
  unfold devPut
  dsimp only
  split
  next h =>
    rw [Bool.and_eq_true] at h
    exact .inr ⟨rfl, fun hq => by simp [testDriven_off hq] at h⟩
  next => exact .next

theorem deviceAt_goesOnIf {b : Bool} {addr : Nat} : GoesOnIf (testControls s = false) (deviceAt b src addr w s) := by
  unfold deviceAt
  split
  · exact .next
  · exact devPut_goesOnIf

/-- With nothing to drain there is nothing to stop at. -/
theorem drainPosted_goesOnIf {l : List Posted} : GoesOnIf (l = []) (drainPosted l s) := by
  induction l generalizing s with
  | nil => exact .next
  | cons p l ih => exact (deviceAt_goesOnIf.mono nofun).andThen fun t => ih.mono nofun

theorem drainOwn_goesOnIf {req : Nat} {b : Option Blk} : GoesOnIf (s.posted = []) (drainOwn req b s) :=
  drainPosted_goesOnIf.mono fun h => by rw [h]; rfl

theorem devWrite_goesOnIf {b : Bool} :
    GoesOnIf (testControls s = false ∧ s.posted = []) (devWrite b src blk off w s) := by
  by_cases hp : s.posted = []
  · rw [devWrite, drainOwn_clear (by simp [noneAhead, hp])]
    exact devPut_goesOnIf.mono And.left
  · have drained : ¬ (testControls s = false ∧ s.posted = []) := fun h => hp h.2
    exact (drainOwn_goesOnIf.mono And.right).andThen fun t => devPut_goesOnIf.mono (absurd · drained)

theorem aliasWriteAt_goesOnIf {al : Alias} :
    GoesOnIf (testControls s = false ∧ s.posted = []) (aliasWriteAt al src blk off w s) :=
  .ite devWrite_goesOnIf .next

theorem execSysResetWarm_goesOnIf {b : BootIn} :
    GoesOnIf (testControls s = false ∧ s.posted = []) (execSysResetWarm src b s) :=
  GoesOnIf.andThen (devWrite_goesOnIf (s := { s with warmDue := none })) fun t => by
    split <;> exact .next

theorem readCmd_goesOnIf : GoesOnIf (s.posted = []) (readCmd src blk off s) :=
  drainOwn_goesOnIf.andThen fun _ => .next

/-! ### Instructions that reach a device (R37, R485, R496) -/

theorem issueA_goesOnIf {f : State → Answer} (h : GoesOnIf q (f s)) : GoesOnIf q (issueA c s f) := by
  unfold issueA
  split
  · exact .next
  · split
    · exact .next
    · exact h

theorem devLoad_goesOnIf {f : State → Word → State} : GoesOnIf (s.posted = []) (devLoad c w s f) :=
  drainOwn_goesOnIf.andThen fun _ => .ite .next (by split <;> exact .next)

theorem memLoad_goesOnIf {n : Nat} {atomic : Bool} {f : State → Nat → State} :
    GoesOnIf (s.posted = []) (memLoad n atomic c w s f) := by
  unfold memLoad
  split
  · exact .next
  · refine .ite devLoad_goesOnIf ?_
    split <;> exact .next

theorem loadInto_goesOnIf {n : Nat} {sgn : Bool} {wd wa : Reg} {imm : BitVec 18} :
    GoesOnIf (s.posted = []) (loadInto n sgn c wd wa imm s) := issueA_goesOnIf memLoad_goesOnIf

theorem execLres_goesOnIf {wd wa : Reg} {imm : BitVec 18} :
    GoesOnIf (s.posted = []) (execLres c wd wa imm s) := issueA_goesOnIf memLoad_goesOnIf

theorem fenceDev_goesOnIf : GoesOnIf (s.posted = []) (fenceDev c s) :=
  issueA_goesOnIf ((drainPosted_goesOnIf.mono fun h => by rw [h]; rfl).andThen fun _ => .ite .next .next)

/-! ### A tick (R32, R38) -/

theorem clockTick_goesOnIf : GoesOnIf ((tickOver (tmrTickEnd (endTick s))).posted = []) (clockTick s) := by
  unfold clockTick
  dsimp only
  split
  · exact .next
  · exact drainPosted_goesOnIf

theorem idleTick_goesOnIf : GoesOnIf ((tickOver (tmrTickEnd (endTick s))).posted = []) (idleTick s) :=
  .ite clockTick_goesOnIf .next

theorem tickIf_goesOnIf {due : Bool} : GoesOnIf ((tickOver (tmrTickEnd (endTick s))).posted = []) (tickIf due s) :=
  .ite idleTick_goesOnIf .next

/-! ### Every command -/

/-- No test control is live, and no posted write is on its way, now or after a tick. -/
structure DevQuiet (s : State) : Prop where
  off : testControls s = false
  drained : s.posted = []
  ticked : (tickOver (tmrTickEnd (endTick s))).posted = []

theorem DevQuiet.writes (h : DevQuiet s) : testControls s = false ∧ s.posted = [] := ⟨h.off, h.drained⟩

/-- By what a command is: an event of an island, a device write or read, a load or fence that drains the core's writes,
an event that the next tick brings; every other command goes on in every state. -/
theorem exec_goesOnIf (i : Instr) : GoesOnIf (DevQuiet s) (exec i s) := by
  cases i with
  | feedOvercurrent | feedUndervoltage | feedOvervoltageHold | feedVoltageRecovery | reverseBattery
  | wiperParkEdge | wiperStartPulse | stkRuleFire | stkRuleRelease | stringFreqUpdate | stringPwmBoundary
  | sinkPwmBoundary | stringOpen | stringOpenRetest | stringShort | stringOutputShort | stringThermal | sinkOpen
  | sinkShort | sinkBankThermal | diagAgeExpiry | offtestStart | offtestEnd | matrixRowSlot | matrixRowTrip
  | lchRefresh | lchFrameEnd | inputScan | comparatorCrossing | adcScanPeriod | adcRuleStart | adcConversionDone
  | adcScanDone | timerRuleStart | timerRuleStop | timerCaptureRule | timerCaptureEdge | ruleEvent
  | canDisableEffect | canTxSelection | canArbitrationStart | canTxSuccess | canTxLost | canErrorDetected
  | canProtocolException | canRecoveryDone | linSlotStart | linHeaderReceived | linResponseReceived
  | linResponseTimeout | linSleepEntry | linIdleTimeout | linScheduleResume | ethFrameReceived | ethFrameSent
  | ethLinkChange | ethDisable | ringLinkTrained | ringLockLoss | ringBreakDetect | ringBreakSend | ringRelock
  | ringFrameReceived | ringFrameReturn | ringAckTimeout | ringClaimSend | ringTimeTimeout | ringTimeSend
  | ringTimeReturnTimeout | ringCensusSend | nmgKeepaliveDue | nmgKeepaliveReceived | nmgIdleTimeout
  | nmgSleepAbort | nmgRepeatEnd | nmgDetectorArm | nmgSleepCommit | nmgConfirmTimeout | lcSignatureVerified
  | challengeExpiry | keyLoadDone | sealCallTimeout | cryptJobDone | accLoadingDone | tokenReadEnd
  | tokenReadRepeat | evalFrameEnd | accCommandAct | accBackoffEnd | accLearnDone | sessionTimeout | graceTimeout
  | grantFrameSend | nvRowWriteDone | ringSymbolLock | updCommandDone => exact .on .next
  | sysResetCoreA | sysResetCoreB | registerWrite | folioRefoldOwn | folioRefoldOther | folioVerifyOther
  | pscModeOff | pscModeOn | pscModePwm | pscModeLowon | pscModePwmsync | pscPwmWrite | channelUnlock
  | heartbeatEnable | heartbeatRefresh | channelReclaim | motCmdStop | motCmdClose | motCmdOpen | motCmdGoto
  | motCmdLearn | motCmdWrun | motCmdWint | motCmdWsingle | motCmdWpark | motCmdDrive | motEnableClear | stkFire
  | stkRelease | stkEnable | stkEnableClear | stModeOff | stModeOn | stModePwm | skModeOff | skModeOn | skModePwm
  | stringUnlock | matrixEnable | matrixSwap | matrixRowUnlock | lightReclaim | lchEnable | lchGo | lchSwap
  | inputEnable | adcEnable | timerEnable | timerDisable | timerCmdStart | timerCmdStop | timerGlobalStart
  | ruleSoftwarePulse | canEnable | canDisable | canRxRelease | canTxRequest | canTxCancel | canSealWrite
  | canRecover | linGosleep | linWakeSend | ethTxKick | ringEnable | ringTxgo | ringRxRelease | ringWakeTone
  | ringCryptConfig | nmgEnable | nmgDisable | nmgRequest | nmgRelease | nmgLogClear | lcEnroll | lcOwner
  | lcField | lcNewchal | lcService | lcEndsvc | lcReturn | lcVoid | keyLoad | keyClear | keyRestrict | sealReply
  | cryptJobStart | accEnable | accDisable | accImport | accLearn | interruptEoi | icuSourceConfig | updBegin
  | updData | updEnd | updAbort | updDkimport | edArm | edArmnow | edDisarm | edConfirm | edRevert | edRetryisl
  | edRecover | nvRowWrite | padRelease | rtcSet | rtcAlarmSet | safeReactionConfig | safeClear =>
    exact devWrite_goesOnIf.mono DevQuiet.writes
  | aliasSetWrite | aliasClearWrite | aliasToggleWrite => exact aliasWriteAt_goesOnIf.mono DevQuiet.writes
  | sysResetWarm => exact execSysResetWarm_goesOnIf.mono DevQuiet.writes
  | canFrameReceived => exact .ite .next (.on .next)
  | adcResultRead | timerCapRead | timerCountSnapshot | interruptClaim =>
    exact readCmd_goesOnIf.mono DevQuiet.drained
  | ldw | ldh | ldhs | ldn | ldns => exact loadInto_goesOnIf.mono DevQuiet.drained
  | lres => exact execLres_goesOnIf.mono DevQuiet.drained
  | fenceDev | fenceAll => exact fenceDev_goesOnIf.mono DevQuiet.drained
  | timerPeriodEnd | timerCompareMatch | captureTimeout | ruleDelivery =>
    exact tickIf_goesOnIf.mono DevQuiet.ticked
  | _ => exact .next

theorem step_goesOnIf : GoesOnIf False (step s) := by
  unfold step
  split
  · exact (exec_goesOnIf _).mono False.elim
  · exact idleTick_goesOnIf.mono False.elim

/-- Settles O2: only `devPut` faults, and it does so only where test controls are live. -/
theorem stepStopsOnlyAtTestControls : Obligations.StepStopsOnlyAtTestControls := by
  unfold Obligations.StepStopsOnlyAtTestControls
  constructor
  · exact fun s => step_goesOnIf.imp_right And.left
  · intro i s hoff hposted htick
    exact (exec_goesOnIf i).resolve_right fun h => h.2 ⟨hoff, hposted, htick⟩

end Sys2Proof.Machine
end

section
/-! The commands that are a write of one register (R94). -/

namespace Sys2Proof.Machine

variable {src : Src} {blk : Blk} {off : Nat} {w : Word} {s : State}

theorem exec_registerWrite : exec (.registerWrite src blk off w) s = devWrite true src blk off w s := rfl

/-- Settles O9: the meaning of each command is the device write that REGISTER_WRITE of the same word makes. -/
theorem namedWrites : Obligations.NamedWrites := by
  unfold Obligations.NamedWrites
  and_intros <;> intros <;> exact exec_registerWrite.symm

end Sys2Proof.Machine
end

section
/-! Writes that pass their checks (R35, R94), block by block. -/

namespace Sys2Proof.Machine
open Laws

variable {src : Src} {w : Word} {s : State} {d : RegDesc} {o : Nat}

theorem aonHeld_of_ne {blk : Blk} {off : Nat} (ha : blk ≠ .aon) (hn : blk ≠ .nmg) : aonHeld blk off = false := by
  simp [aonHeld, ha, hn]

/-- R39, R401: of a channel's page only FWAKE waits for an edge. -/
theorem aonHeld_nmg {c : Fin 12} (ho : o < 0x40) (hf : o ≠ 0x10) : aonHeld .nmg (0x100 + o + c * 0x40) = false := by
  have inner : (0x100 + o + c.val * 0x40 - 0x100) % 0x40 = o := by omega
  simp [aonHeld, inner, hf]

/-- A register whose block, by definition, holds no write of it back and adds nothing to the record of a rejection. -/
theorem devWrite_noRej_taken {blk : Blk} {fails : State → Word → Fails} {locked : Bool}
    {hook : State → Word → Word → State} (ho : o < 0x4000) (hl : o ≠ 0x3C) (ha : aonHeld blk o = false := by rfl)
    (hb : blkWriteAt true ⟨src, blk, o, .plain, w⟩ s =
      blockWrite ⟨src, blk, o, .plain, w⟩ fails locked hook noRej s := by rfl)
    (hp : Passes ⟨src, blk, o, .plain, w⟩ fails locked s d) :
    devWrite true src blk o w s = .next (Taken ⟨src, blk, o, .plain, w⟩ d hook s) :=
  devWrite_taken hp ho hl ha hb

/-! ### Blocks whose writes go by pages -/

theorem devWrite_psc_taken {f : Fin 72} (ho : o < 0x100)
    (hp : Passes ⟨src, pscBlk f, pscOff f + o, .plain, w⟩ (pscChk f o) (s.get (pscP f) PSC_CMD_MODE != 0) s d) :
    devWrite true src (pscBlk f) (pscOff f + o) w s =
      .next (Taken ⟨src, pscBlk f, pscOff f + o, .plain, w⟩ d (pscWritten f o) s) := by
  have page : 0x100 ≤ pscOff f ∧ pscOff f < 0x3000 := by unfold pscOff; omega
  have island : pscBlk f ≠ .aon ∧ pscBlk f ≠ .nmg := by unfold pscBlk; split <;> decide
  exact devWrite_taken hp (by omega) (by omega) (aonHeld_of_ne island.1 island.2)
    ((blkWriteAt_psc rfl).trans (pscWrite_page ho rfl rfl))

theorem devWrite_mot_taken {k : Fin 6} (ho : o < 0x100)
    (hp : Passes ⟨src, .mot, 0x100 + o + k * 0x100, .plain, w⟩ (motChk k o)
      (s.flag (motP k) MOT_CTRL_EN || (s.mo k).counting) s d) :
    devWrite true src .mot (0x100 + o + k * 0x100) w s =
      .next (Taken ⟨src, .mot, 0x100 + o + k * 0x100, .plain, w⟩ d (motWritten k o) s) :=
  devWrite_taken hp (by omega) (by omega) rfl (motWrite_page ho rfl)

theorem devWrite_stk_taken {k : Fin 16} (ho : o < 0x100)
    (hp : Passes ⟨src, .stk, 0x100 + o + k * 0x100, .plain, w⟩ (stkChk k o) (s.flag (stkP k) STK_CTRL_EN) s d) :
    devWrite true src .stk (0x100 + o + k * 0x100) w s =
      .next (Taken ⟨src, .stk, 0x100 + o + k * 0x100, .plain, w⟩ d (stkWritten k o) s) :=
  devWrite_taken hp (by omega) (by omega) rfl (stkWrite_page ho rfl)

theorem devWrite_string_taken {n : Fin 8} (ho : o < 0x100)
    (hp : Passes ⟨src, .lgt, 0x100 + o + n * 0x100, .plain, w⟩ (strChk n o) (s.get (stP n) LGT_STCMD_MODE != 0) s d) :
    devWrite true src .lgt (0x100 + o + n * 0x100) w s =
      .next (Taken ⟨src, .lgt, 0x100 + o + n * 0x100, .plain, w⟩ d (strWritten n o) s) :=
  devWrite_taken hp (by omega) (by omega) rfl (lgtWrite_string ho rfl)

theorem devWrite_sink_taken {n : Fin 48} (ho : o < 0x20)
    (hp : Passes ⟨src, .lgt, 0xA00 + o + n * 0x20, .plain, w⟩ (sinkChk n o) (s.get (skP n) LGT_SKCMD_MODE != 0) s d) :
    devWrite true src .lgt (0xA00 + o + n * 0x20) w s =
      .next (Taken ⟨src, .lgt, 0xA00 + o + n * 0x20, .plain, w⟩ d (sinkWritten n o) s) :=
  devWrite_taken hp (by omega) (by omega) rfl (lgtWrite_sink ho rfl)

theorem devWrite_tmr_taken {n : Fin 32} (ho : o < 0x40)
    (hp : Passes ⟨src, .tmr, 0x100 + o + n * 0x40, .plain, w⟩ (tmrChk n o) (tmrEn s n) s d) :
    devWrite true src .tmr (0x100 + o + n * 0x40) w s =
      .next (Taken ⟨src, .tmr, 0x100 + o + n * 0x40, .plain, w⟩ d (tmrWritten n o) s) :=
  devWrite_taken hp (by omega) (by omega) rfl (tmrWrite_page ho rfl)

theorem devWrite_nmg_taken {c : Fin 12} (ho : o < 0x40) (hf : o ≠ 0x10)
    (hp : Passes ⟨src, .nmg, 0x100 + o + c * 0x40, .plain, w⟩ (fun s x => nmgChk s c o x)
      (s.flag (nmgP c) NMG_CTRL_EN) s d) :
    devWrite true src .nmg (0x100 + o + c * 0x40) w s =
      .next (Taken ⟨src, .nmg, 0x100 + o + c * 0x40, .plain, w⟩ d (nmgWritten c o) s) :=
  devWrite_taken hp (by omega) (by omega) (aonHeld_nmg ho hf) (nmgWrite_page ho rfl)

/-- Ports 0 to 3 are the TS blocks, 4 and 5 the TX blocks. -/
theorem blkWriteAt_eth {p : Fin 6} {r : WriteReq} {b : Bool} (hb : r.blk = ethBlk p) :
    blkWriteAt b r s = ethWrite p r s := by
  rw [blkWriteAt, hb, ethBlk]
  by_cases h : p.val < 4
  · rw [if_pos h]
    exact congrArg (ethWrite · r s) (Nat.mod_eq_of_lt h)
  · have port : 4 + (p.val - 4) % 2 = p.val := by omega
    rw [if_neg h]
    exact congrArg (ethWrite · r s) port

theorem devWrite_eth_taken {p : Fin 6} (ho : o < 0x4000) (hl : o ≠ 0x3C)
    (hp : Passes ⟨src, ethBlk p, o, .plain, w⟩ (fun s x => ethChk s p o x) (s.flag (ethB p) ETH_CTRL_EN) s d) :
    devWrite true src (ethBlk p) o w s =
      .next (Taken ⟨src, ethBlk p, o, .plain, w⟩ d (fun s old x => ethWritten s p o old x) s) := by
  have island : ethBlk p ≠ .aon ∧ ethBlk p ≠ .nmg := by unfold ethBlk; split <;> exact ⟨nofun, nofun⟩
  exact devWrite_taken (rej := noRej) hp ho hl (aonHeld_of_ne island.1 island.2) (blkWriteAt_eth rfl)

/-! ### Blocks that add to the record of a rejection -/

theorem devWrite_can_taken {n : Fin 8} (ho : o < 0x4000) (hl : o ≠ 0x3C)
    (hp : Passes ⟨src, .can n, o, .plain, w⟩ (fun s x => canChk s n src o x) (canLocked s n) s d) :
    devWrite true src (.can n) o w s =
      .next (Taken ⟨src, .can n, o, .plain, w⟩ d (fun s old x => canWritten s n o old x) s) :=
  devWrite_taken (rej := fun s code => canRejected s n o code w) hp ho hl rfl rfl

theorem devWrite_vault_taken (ho : o < 0x4000) (hl : o ≠ 0x3C)
    (hp : Passes ⟨src, .vault, o, .plain, w⟩ (vaultChk ⟨src, .vault, o, .plain, w⟩) false s d) :
    devWrite true src .vault o w s =
      .next (Taken ⟨src, .vault, o, .plain, w⟩ d (vaultWritten ⟨src, .vault, o, .plain, w⟩) s) :=
  devWrite_taken (rej := fun s code => if o = 4 || o = 8 then s.put vaultB VAULT_KSTAT_ERR code else s)
    hp ho hl rfl rfl

end Sys2Proof.Machine
end

section
/-! The commands that write one register, when the write passes (R35, R94): each is a device write by definition
(`namedWrites`), and its block answers with the page's own checks and effect. -/

namespace Sys2Proof.Machine

/-- Settles O37: PSC, MOT and STK by their pages, PSG whole. -/
theorem channelAndMotionWritesComplete : Obligations.ChannelAndMotionWritesComplete := by
  unfold Obligations.ChannelAndMotionWritesComplete
  and_intros
  -- PSC_CMD, PSC_PWM, PSC_FAULT
  iterate 5 exact fun _ _ _ _ _ => devWrite_psc_taken (o := 0) (by decide)
  · exact fun _ _ _ _ _ => devWrite_psc_taken (o := 4) (by decide)
  · exact fun _ _ _ _ _ => devWrite_psc_taken (o := 0x28) (by decide)
  -- PSG_CTRL, PSG_HB, PSG_RECLAIM
  iterate 3 exact fun _ _ _ _ => devWrite_noRej_taken (by decide) (by decide)
  -- MOT_CMD, MOT_CTRL
  iterate 10 exact fun _ _ _ _ _ => devWrite_mot_taken (o := 4) (by decide)
  · exact fun _ _ _ _ _ => devWrite_mot_taken (o := 0) (by decide)
  -- STK_CMD, STK_CTRL
  iterate 2 exact fun _ _ _ _ _ => devWrite_stk_taken (o := 8) (by decide)
  iterate 2 exact fun _ _ _ _ _ => devWrite_stk_taken (o := 0) (by decide)

/-- Settles O38: strings, sinks and timers by their pages, the other registers by their block. -/
theorem lightInputTimerWritesComplete : Obligations.LightInputTimerWritesComplete := by
  unfold Obligations.LightInputTimerWritesComplete
  and_intros
  -- LGT_STCMD, LGT_SKCMD, LGT_STFAULT
  iterate 3 exact fun _ _ _ _ _ => devWrite_string_taken (o := 0) (by decide)
  iterate 3 exact fun _ _ _ _ _ => devWrite_sink_taken (o := 0) (by decide)
  · exact fun _ _ _ _ _ => devWrite_string_taken (o := 0x1C) (by decide)
  -- LGT_MXCTRL, LGT_MXSTAT, LGT_RECLAIM, LCH_CTRL
  iterate 7 exact fun _ _ _ _ => devWrite_noRej_taken (by decide) (by decide)
  -- INP_ICFG, INP_ADCTRL
  · exact fun _ _ _ _ _ => devWrite_noRej_taken (by omega) (by omega)
  · exact fun _ _ _ _ => devWrite_noRej_taken (by decide) (by decide)
  -- TMR_CTRL, TMR_CMD
  iterate 2 exact fun _ _ _ _ _ => devWrite_tmr_taken (o := 0) (by decide)
  iterate 2 exact fun _ _ _ _ _ => devWrite_tmr_taken (o := 0x10) (by decide)
  -- TMR_GO, RULE_SWP
  iterate 2 exact fun _ _ _ _ => devWrite_noRej_taken (by decide) (by decide)

/-- Settles O39: network management by its channels' pages, the other registers by their block. -/
theorem networkWritesComplete : Obligations.NetworkWritesComplete := by
  unfold Obligations.NetworkWritesComplete
  and_intros
  -- CAN_CTRL, CAN_RXREL, CAN_TXRQ, CAN_TXCAN, CAN_SEAL
  iterate 3 exact fun _ _ _ _ _ => devWrite_can_taken (by decide) (by decide)
  · exact fun _ _ _ _ _ _ => devWrite_can_taken (by omega) (by omega)
  iterate 3 exact fun _ _ _ _ _ => devWrite_can_taken (by decide) (by decide)
  -- LIN_CTRL
  iterate 2 exact fun _ _ _ _ _ => devWrite_noRej_taken (by decide) (by decide)
  -- ETH_TXKICK
  · exact fun _ _ _ _ _ => devWrite_eth_taken (by decide) (by decide)
  -- RING_CTRL, RING_TXGO, RING_RXREL, RING_CRYPT
  iterate 5 exact fun _ _ _ _ => devWrite_noRej_taken (by decide) (by decide)
  -- NMG_CTRL, NMG_LOGCTL
  iterate 4 exact fun _ _ _ _ _ => devWrite_nmg_taken (o := 0) (by decide) (by decide)
  · exact fun _ _ _ _ => devWrite_noRej_taken (by decide) (by decide)

/-- Settles O40: each register by its block. -/
theorem vaultAndAccessWritesComplete : Obligations.VaultAndAccessWritesComplete := by
  unfold Obligations.VaultAndAccessWritesComplete
  and_intros
  -- VAULT_LCCMD, VAULT_KCMD, VAULT_RSTAT
  iterate 11 exact fun _ _ _ _ => devWrite_vault_taken (by decide) (by decide)
  · exact fun _ _ _ _ _ => devWrite_vault_taken (by omega) (by omega)
  -- CRYPT_JOB, ACC_CTRL, ACC_LEARN
  iterate 3 exact fun _ _ _ _ => devWrite_noRej_taken (by decide) (by decide)
  iterate 2 exact fun _ _ _ => devWrite_noRej_taken (by decide) (by decide)

/-- Settles O41: each register by its block; the always-on island holds its writes back. -/
theorem systemWritesComplete : Obligations.SystemWritesComplete := by
  unfold Obligations.SystemWritesComplete
  and_intros
  -- FOLIO_CMD
  iterate 3 exact fun _ _ _ => devWrite_noRej_taken (by decide) (by decide)
  -- ICU_EOI, ICU_SRC, SAFE_REACTc
  iterate 3 exact fun _ _ _ _ _ => devWrite_noRej_taken (by omega) (by omega)
  -- SYS_UPDCMD
  iterate 5 exact fun _ _ _ _ => devWrite_noRej_taken (by decide) (by decide)
  -- SYS_EDCMD, SYS_NVCMD
  iterate 8 exact fun _ _ _ => devWrite_noRej_taken (by decide) (by decide)
  -- AON_PADHOLD, AON_RTCSEC, AON_ALARM
  iterate 3 exact fun _ _ _ hn hr ht => devWrite_held hn ht hr rfl

end Sys2Proof.Machine
end

section
/-! One sample of a switch input: its debounce (R280) and its first sample (R282). -/

namespace Sys2Proof.Machine
open Laws

variable {s : State} {n v : Nat}

/-! ### An input's own state -/

@[simp] theorem State.setIp_rd (g : Inp → Inp) (a : Nat) : (s.setIp n g).rd a = s.rd a := rfl

@[simp] theorem State.setIp_flights (g : Inp → Inp) : (s.setIp n g).flights = s.flights := rfl

theorem State.setIp_ip (hn : n < s.inp.ins.length) (g : Inp → Inp) : (s.setIp n g).ip n = g (s.ip n) := by
  simp [State.setIp, State.ip, hn]

theorem State.setIp_setIp (hn : n < s.inp.ins.length) (g k : Inp → Inp) :
    (s.setIp n g).setIp n k = s.setIp n (k ∘ g) := by
  rw [State.setIp, State.setIp_ip hn]
  simp [State.setIp]

theorem State.ip_of_inp {t : State} (h : t.inp = s.inp) : t.ip n = s.ip n := congrArg (·.ins.getD n .reset) h

@[simp] theorem State.setBit_ip (a i : Nat) (b : Bool) : (s.setBit a i b).ip n = s.ip n := rfl

/-! ### What is shown (R280, R292) -/

theorem State.wr_wf {a : Nat} {w : Word} (hw : Registers.wf s.regs = true) : Registers.wf (s.wr a w).regs = true :=
  wf_write hw

@[simp] theorem showInp_ip : (showInp s n).ip n = s.ip n := rfl

@[simp] theorem showInp_flights : (showInp s n).flights = s.flights := rfl

/-- Only the input's words of INP_RAW, INP_STATE and INP_CODE are written. -/
theorem showInp_rd {a : Nat} (hw : Registers.wf s.regs = true) (hraw : a ≠ inpB + 0x34 + 4 * (n / 32))
    (hstate : a ≠ inpB + 0x4 + 4 * (n / 32)) (hcode : a ≠ inpB + 0x14 + 4 * (n / 16)) :
    (showInp s n).rd a = s.rd a := by
  unfold showInp State.setBit
  extract_lets i raw state addr
  have hw1 : Registers.wf raw.regs = true := State.wr_wf hw
  have hw2 : Registers.wf state.regs = true := State.wr_wf hw1
  exact (rd_wr hw2).trans <| (if_neg hcode).trans <| (rd_wr hw1).trans <| (if_neg hstate).trans <|
    (rd_wr hw).trans (if_neg hraw)

/-- The edge bits, INP_EDGE0 and INP_EDGE1, stand between the words that are shown. -/
theorem showInp_edge {k : Nat} (hw : Registers.wf s.regs = true) (hn : n < 64) (hk : k = 0xC ∨ k = 0x10) :
    (showInp s n).rd (inpB + k) = s.rd (inpB + k) :=
  showInp_rd hw (by omega) (by omega) (by omega)

/-! ### A pulse of a ruling source (R310) leaves every input -/

theorem raiseLine_inp (l : Nat) : (raiseLine s l).inp = s.inp := by
  unfold raiseLine
  split
  · rfl
  · split <;> rfl

theorem State.each_inp {α : Type} {l : List α} {f : State → α → State} (hf : ∀ s a, (f s a).inp = s.inp) :
    (s.each l f).inp = s.inp := by
  induction l generalizing s with
  | nil => rfl
  | cons a l ih => exact ih.trans (hf s a)

theorem raiseSrc_inp (code : Nat) : (raiseSrc s code).inp = s.inp := State.each_inp fun _ => raiseLine_inp

@[simp] theorem State.when_raiseSrc_ip (c : Bool) (code : Nat) : (s.when c (raiseSrc · code)).ip n = s.ip n := by
  cases c
  case false => rfl
  case true => exact State.ip_of_inp (raiseSrc_inp code)

/-- R280, R281: the input's own state after a debounced change, whatever its pulses reach. -/
theorem inpChange_ip (hn : n < s.inp.ins.length) (pulse : Bool) :
    (inpChange s n v pulse).ip n = { s.ip n with
      deb := v, cnt := 0, rose := (s.ip n).rose || v != 0, fell := (s.ip n).fell || (s.ip n).deb != 0 } := by
  simp [inpChange, State.setIp_ip hn]

/-! ### One sample, case by case -/

theorem inpTake_first (hn : n < s.inp.ins.length) (hf : (s.ip n).first = true) :
    inpTake s n v = showInp (s.setIp n fun i => { i with raw := v, first := false, deb := v, cnt := 0 }) n := by
  simp [inpTake, State.setIp_ip hn, State.setIp_setIp hn, Function.comp_def, hf]

theorem inpTake_equal (hn : n < s.inp.ins.length) (hf : (s.ip n).first = false) (hv : v = (s.ip n).deb) :
    inpTake s n v = showInp (s.setIp n fun i => { i with raw := v, cnt := 0 }) n := by
  simp [inpTake, State.setIp_ip hn, State.setIp_setIp hn, Function.comp_def, hf, ← hv]

theorem inpTake_counted (hn : n < s.inp.ins.length) (hf : (s.ip n).first = false) (hv : v ≠ (s.ip n).deb)
    (hc : (s.ip n).cnt + 1 < s.get (inpI n) INP_ICFG_DEB) :
    inpTake s n v = showInp (s.setIp n fun i => { i with raw := v, cnt := i.cnt + 1 }) n := by
  have hc' : (s.ip n).cnt + 1 < (s.setIp n fun i => { i with raw := v }).get (inpI n) INP_ICFG_DEB := hc
  simp [inpTake, State.setIp_ip hn, State.setIp_setIp hn, Function.comp_def, hf, hv, hc']

theorem inpTake_changed (hn : n < s.inp.ins.length) (hf : (s.ip n).first = false) (hv : v ≠ (s.ip n).deb)
    (hc : s.get (inpI n) INP_ICFG_DEB ≤ (s.ip n).cnt + 1) :
    inpTake s n v = inpChange (s.setIp n fun i => { i with raw := v }) n v true := by
  have hc' : (s.setIp n fun i => { i with raw := v }).get (inpI n) INP_ICFG_DEB ≤ (s.ip n).cnt + 1 := hc
  simp [inpTake, State.setIp_ip hn, hf, hv, Nat.not_lt.mpr hc']

/-- Settles O30: the four cases of a sample; the first leaves every ruling event and both words of edge bits. -/
theorem inputSampling : Obligations.InputSampling := by
  unfold Obligations.InputSampling
  intro s n v hn h64 hw
  and_intros
  · intro hf
    rw [inpTake_first hn hf]
    have edges {k : Nat} (hk : k = 0xC ∨ k = 0x10) := showInp_edge
      (s := s.setIp n fun i => { i with raw := v, first := false, deb := v, cnt := 0 }) hw h64 hk
    simp [State.setIp_ip hn, edges]
  · intro hf hv
    simp [inpTake_equal hn hf hv, State.setIp_ip hn]
  · intro hf hv hc
    simp [inpTake_counted hn hf hv hc, State.setIp_ip hn]
  · intro hf hv hc
    have hn' : n < (s.setIp n fun i => { i with raw := v }).inp.ins.length := by simpa [State.setIp] using hn
    simp [inpTake_changed hn hf hv hc, inpChange_ip hn']

end Sys2Proof.Machine
end

section
/-! A read of one register that is a command: the block whose window it falls in (R28) answers it (R93). -/

namespace Sys2Proof

/-! ### The blocks' bases (R28) -/

theorem Blk.mem_all (b : Blk) : b ∈ Blk.all := by cases b <;> simp [Blk.all]

theorem Blk.base_mod (b : Blk) : b.base % 0x10000 = 0 := by
  cases b <;> simp only [Blk.base] <;> omega

theorem Blk.blkAt_base (b : Blk) : Machine.blkAt b.base = some b :=
  have each : ∀ c ∈ Blk.all, Machine.blkAt c.base = some c := by decide
  each b b.mem_all

theorem Blk.base_injective {b c : Blk} (h : b.base = c.base) : b = c :=
  Option.some.inj (b.blkAt_base.symm.trans (h ▸ c.blkAt_base))

theorem Blk.lastOff_tmr : Blk.lastOff .tmr = 0x8E4 := by decide

end Sys2Proof

namespace Sys2Proof.Machine
open Laws

variable {s : State} {src : Src} {b : Blk} {o : Nat}

theorem blkAt_base_add (ho : o < 0x10000) : blkAt (b.base + o) = some b := by
  have found : (blkAt (b.base + o)).isSome := List.find?_isSome.mpr ⟨b, b.mem_all, by simp [ho]⟩
  obtain ⟨c, hc⟩ := Option.isSome_iff_exists.mp found
  have window := List.find?_some hc
  simp only [Bool.and_eq_true, decide_eq_true_eq] at window
  have same : c = b := Blk.base_injective (by have := c.base_mod; have := b.base_mod; omega)
  exact same ▸ hc

/-! ### The read -/

theorem deviceRead_block (ho : o < 0x4000) (hl : o ≤ b.lastOff) (hr : s.ready b.island = true)
    (ha : readsAbsent s b o = false) :
    (deviceRead s src (b.base + o)).1 = (readActs s src b o (shownWord s b o (s.shown (b.base + o)))).1 := by
  simp [deviceRead, blkAt_base_add (show o < 0x10000 by omega), aliasAt_plain ho, hr, Nat.not_lt.mpr hl, ha]

theorem readCmd_block (hn : noneAhead s src.req (some b) = true) (ho : o < 0x4000) (hl : o ≤ b.lastOff)
    (hr : s.ready b.island = true) (ha : readsAbsent s b o = false) :
    readCmd src b o s = .next (readActs s src b o (shownWord s b o (s.shown (b.base + o)))).1 := by
  rw [readCmd, drainOwn_clear hn, ← deviceRead_block ho hl hr ha]
  rfl

end Sys2Proof.Machine
end

section
/-! The capture queue of a timer channel and the read that takes from it (R301, R308). -/

namespace Sys2Proof.Machine

variable {s : State} {src : Src} {n : Nat}

theorem execTimerCapRead_ready {n : Fin 32} (hn : noneAhead s src.req (some .tmr) = true)
    (hr : s.ready Blk.tmr.island = true) : exec (.timerCapRead src n) s = .next (tmrCapRead s src n.val) := by
  have offset : 0x118 + 0x40 * n.val ≤ 0x8E4 := by omega
  refine (readCmd_block hn (by omega) (Blk.lastOff_tmr ▸ offset) hr rfl).trans ?_
  have channel : (0x118 + 0x40 * n.val - 0x100) / 0x40 = n.val := by omega
  have register : (0x118 + 0x40 * n.val) % 0x40 = 0x18 := by omega
  have page : 0x118 + 0x40 * n.val < 0x900 := by omega
  have base : 0x100 ≤ 0x118 + 0x40 * n.val := by omega
  simp only [readActs, base, page, register, channel, decide_true, Bool.and_self, if_true]

/-! ### The channels' own state -/

theorem State.setTm_tm_same (hn : n < s.tmrs.length) (g : Tmr → Tmr) : (s.setTm n g).tm n = g (s.tm n) := by
  simp [State.setTm, State.tm, hn]

theorem State.setTm_tm_ne {m : Nat} (h : m ≠ n) (g : Tmr → Tmr) : (s.setTm n g).tm m = s.tm m := by
  simp [State.setTm, State.tm, List.getElem?_set_ne h.symm]

theorem State.tm_of_tmrs {t : State} {m : Nat} (h : t.tmrs = s.tmrs) : t.tm m = s.tm m := congrArg (·.getD m .reset) h

/-! ### The read of TMR_CAP, case by case -/

theorem tmrCapRead_empty (hq : (s.tm n).queue = []) : tmrCapRead s src n = s := by simp [tmrCapRead, hq]

theorem tmrCapRead_outsider (hs : 4 < src.req) : tmrCapRead s src n = s := by
  unfold tmrCapRead
  split
  · rfl
  · exact if_pos hs

/-- What is shown of the entry taken, LEVEL and TMR_CAPHI, is not the queue. -/
theorem tmrCapRead_taken_tmrs {e : Word × Word} {q : List (Word × Word)} (hq : (s.tm n).queue = e :: q)
    (hs : src.req ≤ 4) : (tmrCapRead s src n).tmrs = (s.setTm n fun k => { k with queue := q }).tmrs := by
  simp only [tmrCapRead, hq, if_neg (Nat.not_lt.mpr hs)]
  split
  · rfl
  · rfl

/-- Settles O29: the read is `tmrCapRead`, which changes the channels only where a core takes the oldest entry. -/
theorem captureQueueRead : Obligations.CaptureQueueRead := by
  unfold Obligations.CaptureQueueRead
  intro src n s hlen hn hr
  rw [execTimerCapRead_ready hn hr]
  refine ⟨fun hq => by rw [tmrCapRead_empty hq], fun hs => by rw [tmrCapRead_outsider hs], fun e q hq hs => ?_⟩
  have taken (m : Nat) : (tmrCapRead s src n).tm m = (s.setTm n fun k => { k with queue := q }).tm m :=
    State.tm_of_tmrs (tmrCapRead_taken_tmrs hq hs)
  refine ⟨_, rfl, ?_, fun m hm => ?_⟩
  · rw [taken, State.setTm_tm_same (by omega)]
  · rw [taken, State.setTm_tm_ne hm]

end Sys2Proof.Machine
end

section
/-! One counting edge of a timer channel (R295–R297), followed field by field of the channel's page. -/

namespace Sys2Proof.Machine
open Laws

variable {s : State} {n v x : Nat} {f g : Fld}

/-! ### A field of the channel's page -/

/-- Field `f` of channel `n` reads `v`, and the registers stand in canonical form. -/
def Shows (n : Nat) (f : Fld) (v : Nat) (s : State) : Prop := Registers.wf s.regs = true ∧ s.get (tmrP n) f = v

/-- Both fields lie in a word, and they share no bit of one register. -/
def Fld.beside (f g : Fld) : Bool :=
  decide (f.hi < 36 ∧ g.lo ≤ g.hi ∧ g.hi < 36) && decide (f.off ≠ g.off ∨ f.hi < g.lo ∨ g.hi < f.lo)

namespace Shows

theorem ite {c : Prop} [Decidable c] {a b : State} (ha : Shows n f v a) (hb : Shows n f v b) :
    Shows n f v (if c then a else b) := by
  split <;> assumption

/-- A write of another register. -/
theorem wr {a : Nat} {w : Word} (h : Shows n f v s) (ha : tmrP n + f.off ≠ a) : Shows n f v (s.wr a w) :=
  ⟨State.wr_wf h.1, by rw [State.get, rd_wr h.1, if_neg ha]; exact h.2⟩

/-- A field of another page. -/
theorem put_away {b : Nat} (h : Shows n f v s) (hb : tmrP n + f.off ≠ b + g.off) : Shows n f v (s.put b g x) :=
  h.wr hb

theorem put_same (hw : Registers.wf s.regs = true) (hf : f.lo ≤ f.hi ∧ f.hi < 36) (hx : x < 2 ^ (f.hi + 1 - f.lo)) :
    Shows n f x (s.put (tmrP n) f x) := by
  have value : (s.put (tmrP n) f x).rd (tmrP n + f.off) = setBits (s.rd (tmrP n + f.off)) f.hi f.lo x :=
    (rd_wr hw).trans (if_pos rfl)
  exact ⟨State.wr_wf hw, by rw [State.get, value, bitsOf_setBits_same hf.2 hf.1 hx]⟩

/-- Another field of the page. -/
theorem put (h : Shows n f v s) (hg : f.beside g = true) : Shows n f v (s.put (tmrP n) g x) := by
  simp only [Fld.beside, Bool.and_eq_true, decide_eq_true_eq] at hg
  obtain ⟨⟨hf36, hlo, hg36⟩, apart⟩ := hg
  by_cases hoff : f.off = g.off
  · have value : (s.put (tmrP n) g x).rd (tmrP n + f.off) = setBits (s.rd (tmrP n + f.off)) g.hi g.lo x := by
      rw [hoff]
      exact (rd_wr h.1).trans (if_pos rfl)
    refine ⟨State.wr_wf h.1, ?_⟩
    rw [State.get, value, bitsOf_setBits_other hg36 hlo hf36 (by omega)]
    exact h.2
  · exact h.put_away (by omega)

theorem setTm {m : Nat} {k : Tmr → Tmr} (h : Shows n f v s) : Shows n f v (s.setTm m k) := h

/-! ### Events of ruling sources (R310) reach no channel in the tick that raises them -/

theorem raiseLine {l : Nat} (h : Shows n f v s) (hl : l < 128) : Shows n f v (raiseLine s l) := by
  have counter : tmrP n + f.off ≠ Blk.rule.base + (RULE_LINE_CNT.at l).off := by
    simp only [tmrP, Blk.base, Fld.at, RULE_LINE_CNT]
    omega
  exact ite h (ite h (h.put_away counter))

theorem raiseLines {p : Nat → Bool} (h : Shows n f v s) :
    Shows n f v (s.each ((List.range 128).filter p) Machine.raiseLine) :=
  List.foldlRecOn _ _ h fun _ ht _ hl => ht.raiseLine (List.mem_range.mp (List.mem_filter.mp hl).1)

theorem raiseSrc {code : Nat} (h : Shows n f v s) : Shows n f v (raiseSrc s code) := h.raiseLines

theorem raiseLevel {code : Nat} {rising : Bool} (h : Shows n f v s) : Shows n f v (raiseLevel s code rising) :=
  h.raiseLines

/-! ### OUT (R299) and RUNNING -/

theorem tmrOut {b : Bool} (h : Shows n f v s) (hf : f.beside TMR_STAT_OUT = true) : Shows n f v (tmrOut s n b) :=
  ite h (h.put hf).raiseLevel

theorem tmrIdleOut (h : Shows n f v s) (hf : f.beside TMR_STAT_OUT = true) : Shows n f v (tmrIdleOut s n) :=
  ite h (h.tmrOut hf)

/-- TMR_RUN stands below the channels' pages. -/
theorem setRunBit {b : Bool} (h : Shows n f v s) : Shows n f v (s.setBit 0x40070014 n b) :=
  h.wr (by simp only [tmrP]; omega)

end Shows

/-! ### The parts of an edge -/

/-- What COUNT holds after the edge (R297). -/
def nextCount (s : State) (n : Nat) : Nat := if tmrEnds s n then 0 else s.get (tmrP n) TMR_COUNT_COUNT + 1

/-- R297: flag `g` set and the pulse of source `code` raised: PER at the end of a period, CMPF where COUNT meets CMP. -/
def edgeFlag (n : Nat) (g : Fld) (code : Nat) (sets : Bool) (s : State) : State :=
  if sets then raiseSrc (s.put (tmrP n) g 1) code else s

/-- R302: the timeout that a capture channel rearms or raises. -/
def edgeTimeout (n : Nat) (capture ends hit : Bool) (s : State) : State :=
  if capture && s.flag (tmrP n) TMR_CTRL_TOEN then
    (if ends then s.setTm n (fun t => { t with armed := true })
     else if hit && (s.tm n).armed then s.setTm n (fun t => { t with toDue := true }) else s)
  else s

/-- R299: OUT of a channel in MODE 3. -/
def edgeOut (n mode om : Nat) (ends meets : Bool) (s : State) : State :=
  if mode = 3 then
    (match om with
     | 0 => if meets then tmrOut s n false else if ends then tmrOut s n true else s
     | 1 => if meets then tmrOut s n (!s.flag (tmrP n) TMR_STAT_OUT) else s
     | _ => tmrOut s n (s.flag (tmrP n) TMR_CTRL_OIDLE != meets))
  else s

/-- R296: a one-shot ends with its period. -/
def edgeStop (n : Nat) (stops : Bool) (s : State) : State :=
  if stops then tmrIdleOut ((tmrSetRun s n false).put (tmrP n) TMR_STAT_DONE 1) n else s

theorem tmrEdge1_eq_parts : tmrEdge1 s n =
    edgeStop n (tmrEnds s n && tmrMode s n == 1)
      (edgeOut n (tmrMode s n) (s.get (tmrP n) TMR_CTRL_OMODE) (tmrEnds s n) (tmrMeets s n)
        (edgeFlag n TMR_STAT_CMPF (0x30 + n) (tmrMeets s n)
          (edgeTimeout n (tmrMode s n = 2) (tmrEnds s n) (nextCount s n == s.get (tmrP n) TMR_CMP_CMP)
            (edgeFlag n TMR_STAT_PER (0x10 + n) (tmrEnds s n) (s.put (tmrP n) TMR_COUNT_COUNT (nextCount s n)))))) := rfl

/-- R297: COUNT is below its period, or below its top where PERIOD is 0, when it advances. -/
theorem nextCount_lt : nextCount s n < 2 ^ 36 := by
  have count : s.get (tmrP n) TMR_COUNT_COUNT < 2 ^ 36 := bitsOf_lt 35 0
  have period : s.get (tmrP n) TMR_PERIOD_PERIOD < 2 ^ 36 := bitsOf_lt 35 0
  have top : tmrEnds s n = false → s.get (tmrP n) TMR_COUNT_COUNT + 1 < 2 ^ 36 := by
    unfold tmrEnds
    dsimp only
    split
    · intro h
      have : s.get (tmrP n) TMR_COUNT_COUNT ≠ 2 ^ 36 - 1 := by simpa using h
      omega
    · intro h
      have : ¬ s.get (tmrP n) TMR_PERIOD_PERIOD ≤ s.get (tmrP n) TMR_COUNT_COUNT + 1 := of_decide_eq_false h
      omega
  unfold nextCount
  split
  next => decide
  next advances => exact top (Bool.not_eq_true _ ▸ advances)

/-! ### What each part leaves -/

namespace Shows

variable {ends hit meets stops capture sets : Bool} {mode om code : Nat}

theorem edgeFlag (h : Shows n f v s) (hf : f.beside g = true) : Shows n f v (edgeFlag n g code sets s) :=
  ite (h.put hf).raiseSrc h

theorem edgeFlag_same (h : Shows n g v s) (hg : g.lo ≤ g.hi ∧ g.hi < 36) :
    Shows n g (if sets then 1 else v) (Machine.edgeFlag n g code sets s) := by
  cases sets
  case false => exact h
  case true =>
    have flagged : Shows n g 1 (s.put (tmrP n) g 1) := put_same h.1 hg (Nat.one_lt_two_pow (by omega))
    exact flagged.raiseSrc

theorem edgeTimeout (h : Shows n f v s) : Shows n f v (edgeTimeout n capture ends hit s) :=
  ite (ite h.setTm (ite h.setTm h)) h

theorem edgeOut (h : Shows n f v s) (hf : f.beside TMR_STAT_OUT = true) :
    Shows n f v (edgeOut n mode om ends meets s) := by
  refine ite ?_ h
  split
  · exact ite (h.tmrOut hf) (ite (h.tmrOut hf) h)
  · exact ite (h.tmrOut hf) h
  · exact h.tmrOut hf

theorem edgeStop (h : Shows n f v s) (hr : f.beside TMR_STAT_RUNNING = true) (hd : f.beside TMR_STAT_DONE = true)
    (ho : f.beside TMR_STAT_OUT = true) : Shows n f v (edgeStop n stops s) :=
  ite (((h.put hr).setRunBit.put hd).tmrIdleOut ho) h

theorem edgeStop_running (h : Shows n TMR_STAT_RUNNING v s) :
    Shows n TMR_STAT_RUNNING (if stops then 0 else v) (Machine.edgeStop n stops s) := by
  cases stops
  case false => exact h
  case true =>
    have stopped : Shows n TMR_STAT_RUNNING 0 (tmrSetRun s n false) :=
      setRunBit (put_same h.1 (by decide) (by decide))
    exact (stopped.put (by decide)).tmrIdleOut (by decide)

theorem edgeStop_done (h : Shows n TMR_STAT_DONE v s) :
    Shows n TMR_STAT_DONE (if stops then 1 else v) (Machine.edgeStop n stops s) := by
  cases stops
  case false => exact h
  case true =>
    have stopped : Shows n TMR_STAT_DONE v (tmrSetRun s n false) := (h.put (by decide)).setRunBit
    have ended : Shows n TMR_STAT_DONE 1 ((tmrSetRun s n false).put (tmrP n) TMR_STAT_DONE 1) :=
      put_same stopped.1 (by decide) (by decide)
    exact ended.tmrIdleOut (by decide)

end Shows

/-! ### What the edge leaves in each field (R296, R297) -/

theorem tmrEdge1_count (hw : Registers.wf s.regs = true) : Shows n TMR_COUNT_COUNT (nextCount s n) (tmrEdge1 s n) := by
  have counted : Shows n TMR_COUNT_COUNT (nextCount s n) (s.put (tmrP n) TMR_COUNT_COUNT (nextCount s n)) :=
    .put_same hw (by decide) nextCount_lt
  rw [tmrEdge1_eq_parts]
  exact counted.edgeFlag (by decide) |>.edgeTimeout |>.edgeFlag (by decide) |>.edgeOut (by decide)
    |>.edgeStop (by decide) (by decide) (by decide)

theorem tmrEdge1_per (hw : Registers.wf s.regs = true) :
    Shows n TMR_STAT_PER (if tmrEnds s n then 1 else s.get (tmrP n) TMR_STAT_PER) (tmrEdge1 s n) := by
  have before : Shows n TMR_STAT_PER (s.get (tmrP n) TMR_STAT_PER) s := ⟨hw, rfl⟩
  rw [tmrEdge1_eq_parts]
  exact before.put (by decide) |>.edgeFlag_same (by decide) |>.edgeTimeout |>.edgeFlag (by decide) |>.edgeOut (by decide)
    |>.edgeStop (by decide) (by decide) (by decide)

theorem tmrEdge1_cmpf (hw : Registers.wf s.regs = true) :
    Shows n TMR_STAT_CMPF (if tmrMeets s n then 1 else s.get (tmrP n) TMR_STAT_CMPF) (tmrEdge1 s n) := by
  have before : Shows n TMR_STAT_CMPF (s.get (tmrP n) TMR_STAT_CMPF) s := ⟨hw, rfl⟩
  rw [tmrEdge1_eq_parts]
  exact before.put (by decide) |>.edgeFlag (by decide) |>.edgeTimeout |>.edgeFlag_same (by decide) |>.edgeOut (by decide)
    |>.edgeStop (by decide) (by decide) (by decide)

theorem tmrEdge1_running (hw : Registers.wf s.regs = true) :
    Shows n TMR_STAT_RUNNING (if tmrEnds s n && tmrMode s n == 1 then 0 else s.get (tmrP n) TMR_STAT_RUNNING)
      (tmrEdge1 s n) := by
  have before : Shows n TMR_STAT_RUNNING (s.get (tmrP n) TMR_STAT_RUNNING) s := ⟨hw, rfl⟩
  rw [tmrEdge1_eq_parts]
  exact before.put (by decide) |>.edgeFlag (by decide) |>.edgeTimeout |>.edgeFlag (by decide)
    |>.edgeOut (by decide) |>.edgeStop_running

theorem tmrEdge1_done (hw : Registers.wf s.regs = true) :
    Shows n TMR_STAT_DONE (if tmrEnds s n && tmrMode s n == 1 then 1 else s.get (tmrP n) TMR_STAT_DONE)
      (tmrEdge1 s n) := by
  have before : Shows n TMR_STAT_DONE (s.get (tmrP n) TMR_STAT_DONE) s := ⟨hw, rfl⟩
  rw [tmrEdge1_eq_parts]
  exact before.put (by decide) |>.edgeFlag (by decide) |>.edgeTimeout |>.edgeFlag (by decide)
    |>.edgeOut (by decide) |>.edgeStop_done

end Sys2Proof.Machine
end

section
/-! What a tick brings: what waited for its end (R11, R40) and the pulse of a line at its destination (R311, R313). -/

namespace Sys2Proof.Machine
open Laws

variable {s : State} {l d : Nat}

/-- In rounds by rank, each element's turn comes once. -/
theorem flatMap_range_filter_rank {α : Type} {rank : α → Nat} {a : α} {k : Nat} (h : rank a < k) :
    (List.range k).flatMap (fun r => [a].filter (fun b => rank b == r)) = [a] := by
  have turn (r : Nat) : [a].filter (fun b => rank b == r) = if rank a = r then [a] else [] := by
    simp [List.filter_cons]
  induction k with
  | zero => omega
  | succ k ih =>
    rw [List.range_succ, List.flatMap_append]
    by_cases last : rank a = k
    · have earlier : (List.range k).flatMap (fun r => [a].filter (fun b => rank b == r)) = [] := by
        simp only [List.flatMap_eq_nil_iff, List.mem_range, turn]
        exact fun r hr => if_neg (by omega)
      rw [earlier, List.nil_append, List.flatMap_singleton, turn, if_pos last]
    · rw [ih (by omega), List.flatMap_singleton, turn, if_neg last, List.append_nil]

/-! ### The end of a tick -/

theorem endRank_lt (i : Instr) : endRank i < 5 := by
  unfold endRank
  split <;> decide

theorem endTick_one {i : Instr} (h : s.ending = [i]) : endTick s = fsafeServe (endOne i { s with ending := [] }) := by
  unfold endTick
  rw [h, flatMap_range_filter_rank (endRank_lt i)]
  rfl

/-! ### A delivery -/

/-- R311: line `l` shows its event in RULE_PEND. -/
def pendShown (s : State) (l : Nat) : State :=
  (s.setBit (ruleB + 4 + 4 * (l / 32)) (l % 32) true).mark (ruleB + 4 + 4 * (l / 32)) (maskOf (l % 32) (l % 32))

theorem pendShown_rd {a : Nat} (hw : Registers.wf s.regs = true) (ha : a ≠ ruleB + 4 + 4 * (l / 32)) :
    (pendShown s l).rd a = s.rd a := (rd_wr hw).trans (if_neg ha)

theorem pendShown_ready {i : Island} (hw : Registers.wf s.regs = true) : (pendShown s l).ready i = s.ready i := by
  rw [State.ready, pendShown_rd hw (by simp only [ruleB]; omega)]
  rfl

theorem pendShown_route {k : Nat} {f : Fld} (hw : Registers.wf s.regs = true) (hl : l < 128) (hf : f.off = 0x400) :
    (pendShown s l).get (ruleB + 4 * k) f = s.get (ruleB + 4 * k) f := by
  rw [State.get, pendShown_rd hw (by omega)]
  rfl

theorem pendShown_lineDsts {m : Nat} (hw : Registers.wf s.regs = true) (hl : l < 128) :
    lineDsts (pendShown s l) m = lineDsts s m := by
  have route {k : Nat} {f : Fld} := pendShown_route (s := s) (l := l) (k := k) (f := f) hw hl
  simp only [lineDsts, State.flag, route (f := RULE_ROUTE_VALID) rfl, route (f := RULE_ROUTE_LINE) rfl,
    route (f := RULE_ROUTE_DST) rfl]

theorem dstRank_lt (d : Nat) : dstRank d < 3 := by
  unfold dstRank
  split
  · decide
  · split <;> decide

/-- R313, R316: the pulse of line `p.1` at its destination `p.2`. -/
def pulseArrives (s : State) (p : Nat × Nat) : State :=
  if s.ready (dstIsland p.2) then ruleAct s p.2 else s.put (ruleB + 4 * p.1) RULE_LINE_LOSTF 1

/-- R303: the pulses arrive in three rounds, by the rank of their destinations. -/
theorem deliver_line (s : State) (l : Nat) : deliver s [l] =
    ((List.range 3).flatMap fun r =>
      ([l].flatMap fun l' => (lineDsts (pendShown s l) l').map fun d => (l', d)).filter fun p => dstRank p.2 == r).foldl
      pulseArrives (pendShown s l) := List.foldl_flatMap.symm

theorem deliver_one (hw : Registers.wf s.regs = true) (hl : l < 128) (hd : lineDsts s l = [d])
    (hr : s.ready (dstIsland d) = true) : deliver s [l] = ruleAct (pendShown s l) d := by
  have dests : [l].flatMap (fun l' => (lineDsts (pendShown s l) l').map fun d' => (l', d')) = [(l, d)] := by
    simp [pendShown_lineDsts hw hl, hd]
  have rounds := flatMap_range_filter_rank (rank := fun p : Nat × Nat => dstRank p.2) (a := (l, d)) (dstRank_lt d)
  rw [deliver_line, dests, rounds]
  exact if_pos ((pendShown_ready hw).trans hr)

/-- Settles O36: the one that waited comes in its round; an edge field by field; the one destination in its round. -/
theorem whatATickBrings : Obligations.WhatATickBrings := by
  unfold Obligations.WhatATickBrings
  refine ⟨fun s i => endTick_one, ?edge, fun s l d hw hl hd hr => deliver_one hw hl hd hr⟩
  intro s n hw _ p t
  obtain ⟨_, count⟩ := tmrEdge1_count (n := n) hw
  obtain ⟨_, per⟩ := tmrEdge1_per (n := n) hw
  obtain ⟨_, cmpf⟩ := tmrEdge1_cmpf (n := n) hw
  obtain ⟨_, running⟩ := tmrEdge1_running (n := n) hw
  obtain ⟨_, done⟩ := tmrEdge1_done (n := n) hw
  refine ⟨count, fun h => ?_, fun h => ?_, fun h => ?_, fun h => ?_, fun h hm => ⟨?_, ?_⟩⟩
  · simpa [h] using per
  · simpa [h] using per
  · simpa [h] using cmpf
  · simpa [h] using cmpf
  · simpa [h, hm] using running
  · simpa [h, hm] using done

end Sys2Proof.Machine
end

section
/-! A valid CAN frame that finds the receive ring full (R328). -/

namespace Sys2Proof.Machine
open Laws

variable {s : State} {n b x : Nat} {f g : Fld}

/-! ### A field that hardware sets -/

theorem State.put_wf (hw : Registers.wf s.regs = true) : Registers.wf (s.put b f x).regs = true := wf_write hw

theorem State.put_rd (hw : Registers.wf s.regs = true) (a : Nat) :
    (s.put b f x).rd a = if a = b + f.off then setBits (s.rd (b + f.off)) f.hi f.lo x else s.rd a :=
  rd_wr hw

theorem State.get_put_same (hw : Registers.wf s.regs = true) (hf : f.lo ≤ f.hi ∧ f.hi < 36)
    (hx : x < 2 ^ (f.hi + 1 - f.lo)) : (s.put b f x).get b f = x := by
  obtain ⟨hlo, hhi⟩ := hf
  rw [State.get, State.put_rd hw, if_pos rfl, bitsOf_setBits_same hhi hlo hx]

/-- A field of another register of the page. -/
theorem State.get_put_ne (hw : Registers.wf s.regs = true) (h : f.off ≠ g.off) :
    (s.put b g x).get b f = s.get b f := by
  rw [State.get, State.put_rd hw, if_neg (by omega), State.get]

theorem State.satField_eq_put : s.satField b f = s.put b f (min (2 ^ (f.hi + 1 - f.lo) - 1) (s.get b f + 1)) := by
  rw [State.satField, satInc_eq_min]

/-! ### A controller's own state -/

theorem State.setCn_cn_same (hn : n < s.cans.length) (k : CanSt → CanSt) : (s.setCn n k).cn n = k (s.cn n) := by
  simp [State.setCn, State.cn, hn]

theorem State.cn_of_cans {t : State} (h : t.cans = s.cans) : t.cn n = s.cn n := congrArg (·.getD n .reset) h

@[simp] theorem State.setCn_get (k : CanSt → CanSt) : (s.setCn n k).get b f = s.get b f := rfl

/-- NETW, FOLIO and CAN_DIR alone say which objects receive. -/
@[simp] theorem rxObjs_setCn (k : CanSt → CanSt) : rxObjs (s.setCn n k) n = rxObjs s n := rfl

theorem canIrq_drp : canIrq s n 4 = s.put (canB n) CAN_IR_DRP 1 := rfl

/-! ### The drop -/

/-- R327, R328: a valid frame, stored or dropped, advances the frame count. -/
def frameCounted (s : State) (n : Nat) : State := s.setCn n fun c => { c with count := (c.count + 1) % 256 }

theorem frameCounted_wf (hw : Registers.wf s.regs = true) : Registers.wf (frameCounted s n).regs = true := hw

/-- R328: a frame dropped, as the count and two fields set by hardware. -/
def frameDropped (s : State) (n : Nat) : State :=
  ((frameCounted s n).put (canB n) CAN_RXDROP_DROP (min 65535 (s.get (canB n) CAN_RXDROP_DROP + 1))).put
    (canB n) CAN_IR_DRP 1

theorem canReceive_full {w0 stamp : Word} {dlc : Nat} {data : List Nat}
    (h : (rxObjs s n).length ≤ s.get (canB n) CAN_RXRING_LEVEL) :
    canReceive s n w0 dlc data stamp = frameDropped s n := by
  have full : ¬ (frameCounted s n).get (canB n) CAN_RXRING_LEVEL < (rxObjs (frameCounted s n) n).length := by
    simpa [frameCounted] using h
  calc canReceive s n w0 dlc data stamp
    _ = canIrq ((frameCounted s n).satField (canB n) CAN_RXDROP_DROP) n 4 := if_neg full
    _ = frameDropped s n := by rw [State.satField_eq_put, canIrq_drp]; rfl

/-- A drop sets fields of CAN_RXDROP and CAN_IR alone. -/
theorem frameDropped_get (hw : Registers.wf s.regs = true) (hi : f.off ≠ CAN_IR_DRP.off)
    (hd : f.off ≠ CAN_RXDROP_DROP.off) : (frameDropped s n).get (canB n) f = s.get (canB n) f := by
  rw [frameDropped, State.get_put_ne (State.put_wf (frameCounted_wf hw)) hi, State.get_put_ne (frameCounted_wf hw) hd,
    frameCounted, State.setCn_get]

theorem frameDropped_drop (hw : Registers.wf s.regs = true) : (frameDropped s n).get (canB n) CAN_RXDROP_DROP =
    min 65535 (s.get (canB n) CAN_RXDROP_DROP + 1) := by
  rw [frameDropped, State.get_put_ne (State.put_wf (frameCounted_wf hw)) (by decide)]
  exact State.get_put_same (frameCounted_wf hw) (by decide) (Nat.lt_of_le_of_lt (Nat.min_le_left _ _) (by decide))

theorem frameDropped_drp (hw : Registers.wf s.regs = true) :
    (frameDropped s n).flag (canB n) CAN_IR_DRP = true := by
  rw [State.flag, frameDropped, State.get_put_same (State.put_wf (frameCounted_wf hw)) (by decide) (by decide)]
  rfl

theorem frameDropped_count (hn : n < s.cans.length) :
    ((frameDropped s n).cn n).count = ((s.cn n).count + 1) % 256 := by
  have kept : (frameDropped s n).cn n = (frameCounted s n).cn n := State.cn_of_cans rfl
  rw [kept, frameCounted, State.setCn_cn_same hn]

/-- Settles O28: a frame that finds the ring full is counted, and sets DROP and DRP alone. -/
theorem fullReceiveRingDrops : Obligations.FullReceiveRingDrops := by
  unfold Obligations.FullReceiveRingDrops
  intro s n w0 dlc data stamp hw hn hfull
  rw [canReceive_full hfull]
  exact ⟨rfl, frameDropped_get hw (by decide) (by decide), frameDropped_get hw (by decide) (by decide),
    frameDropped_drop hw, frameDropped_drp hw, frameDropped_count hn⟩

end Sys2Proof.Machine
end

section
/-! Keys that are lost: a low reservoir (R420) and a detected tamper (R421). -/

namespace Sys2Proof.Machine
open Laws

variable {q s t : State} {n code st : Nat}

/-! ### A range of memory cleared -/

theorem Cells.read_clear {m : Nat} {d : BitVec m} {c : Cells m} {a b k : Nat} :
    Cells.read d (Cells.clear c a b) k = if a ≤ k ∧ k < b then d else Cells.read d c k := by
  induction c with
  | nil => simp [Cells.clear, Cells.read]
  | cons p c ih =>
    obtain ⟨key, v⟩ := p
    unfold Cells.clear at ih ⊢
    by_cases hin : a ≤ key ∧ key < b
    · have gone : ¬ (key < a ∨ b ≤ key) := by omega
      rw [List.filter_cons_of_neg (by simpa using gone), ih, Cells.read]
      grind
    · have stays : key < a ∨ b ≤ key := by omega
      rw [List.filter_cons_of_pos (by simpa using stays), Cells.read, Cells.read, ih]
      grind

theorem signetMemClear_nib (a : Nat) :
    (signetMemClear s).nib a = if 0x03000000 ≤ a ∧ a < 0x03040000 then 0 else s.nib a := Cells.read_clear

/-! ### A vault that loses keys -/

/-- From `q` to `s` the vault may lose keys and a load, and nothing else of it changes; the cores stay in number. -/
structure LosesKeys (q s : State) : Prop where
  rest : s.vault = { q.vault with keys := s.vault.keys, load := s.vault.load }
  keys : ∀ n, slotKey q n = [] → slotKey s n = []
  load : q.vault.load = none → s.vault.load = none
  cores : s.cores.length = q.cores.length

namespace LosesKeys

theorem refl (s : State) : LosesKeys s s := ⟨rfl, fun _ h => h, fun h => h, rfl⟩

theorem trans (h : LosesKeys q s) (k : LosesKeys s t) : LosesKeys q t where
  rest := by rw [k.rest, h.rest]
  keys n e := k.keys n (h.keys n e)
  load e := k.load (h.load e)
  cores := k.cores.trans h.cores

theorem of_eq (h : LosesKeys q s) (hv : t.vault = s.vault) (hc : t.cores.length = s.cores.length) : LosesKeys q t where
  rest := by rw [hv, h.rest]
  keys n e := by rw [slotKey, hv]; exact h.keys n e
  load e := by rw [hv]; exact h.load e
  cores := hc.trans h.cores

theorem put {b x : Nat} {f : Fld} (h : LosesKeys q s) : LosesKeys q (s.put b f x) := h.of_eq rfl rfl

theorem ite {c : Prop} [Decidable c] (hs : LosesKeys q s) (ht : LosesKeys q t) : LosesKeys q (if c then s else t) := by
  split <;> assumption

theorem when {c : Bool} {f : State → State} (h : LosesKeys q s) (hf : LosesKeys q s → LosesKeys q (f s)) :
    LosesKeys q (s.when c f) := ite (hf h) h

theorem each {α : Type} {l : List α} {f : State → α → State} (h : LosesKeys q s)
    (hf : ∀ s a, LosesKeys q s → LosesKeys q (f s a)) : LosesKeys q (s.each l f) := by
  induction l generalizing s with
  | nil => exact h
  | cons a l ih => exact ih (hf s a h)

end LosesKeys

/-! ### What a lost key brings with it (R411, R418, R427) -/

/-- A write to Inkwell may end reservations (R463), but no core comes or goes. -/
theorem State.dmaPut_losesKeys {a : Nat} {ns : List Nib} (h : LosesKeys q s) : LosesKeys q (s.dmaPut a ns) := by
  have nibs : LosesKeys q (s.putNibs a ns) := h.each fun _ _ h => h.of_eq rfl rfl
  exact nibs.of_eq rfl (List.length_map _)

theorem cryptOut_losesKeys {os : List Nat} (h : LosesKeys q s) : LosesKeys q (cryptOut s os) :=
  State.dmaPut_losesKeys (h.of_eq rfl rfl)

theorem cryptAbort_losesKeys (h : LosesKeys q s) : LosesKeys q (cryptAbort s) :=
  (LosesKeys.ite (cryptOut_losesKeys (h.of_eq (State.drawn_vault s) rfl)) h).put.put

theorem setAcc_losesKeys {g : AccSt → AccSt} (h : LosesKeys q s) : LosesKeys q (setAcc s g) := h.of_eq rfl rfl

theorem accStop_losesKeys (h : LosesKeys q s) : LosesKeys q (accStop s) := setAcc_losesKeys h

theorem accIrq_losesKeys {i : Nat} (h : LosesKeys q s) : LosesKeys q (accIrq s i) := h.of_eq rfl rfl

theorem grantWithdraw_losesKeys (h : LosesKeys q s) : LosesKeys q (grantWithdraw s) := .ite (setAcc_losesKeys h.put) h

theorem sessTo_losesKeys (h : LosesKeys q s) : LosesKeys q (sessTo s st) :=
  .ite h (accIrq_losesKeys h.put)

theorem sessEnd_losesKeys {outcome : Nat} (h : LosesKeys q s) : LosesKeys q (sessEnd s outcome) :=
  sessTo_losesKeys (setAcc_losesKeys (grantWithdraw_losesKeys h).put)

theorem accKeyLost_losesKeys (h : LosesKeys q s) : LosesKeys q (accKeyLost s) := by
  unfold accKeyLost
  split
  · exact accIrq_losesKeys (accStop_losesKeys (sessEnd_losesKeys (setAcc_losesKeys h))).put
  · exact h

theorem vaultDone_losesKeys {err : Nat} (h : LosesKeys q s) : LosesKeys q (vaultDone s err) :=
  .ite h.put.put h.put.put.put

theorem slotKey_keysSet_nil {k : Nat} (h : slotKey s k = []) :
    slotKey (setVault s fun v => { v with keys := v.keys.set n [] }) k = [] := by
  unfold slotKey at h ⊢
  rw [List.getD_eq_getElem?_getD] at h
  simp only [setVault, List.getD_eq_getElem?_getD, List.getElem?_set]
  split
  · split <;> rfl
  · exact h

theorem clearSlot_losesKeys (h : LosesKeys q s) : LosesKeys q (clearSlot s n) := by
  have stopped := h.when (c := jobUses s n) cryptAbort_losesKeys
  have emptied (s : State) : LosesKeys s (setVault (s.wr (vaultB + 0x400 + 4 * n) 0) fun v =>
      { v with keys := v.keys.set n [] }) := ⟨rfl, fun _ => slotKey_keysSet_nil, fun h => h, rfl⟩
  exact (stopped.trans (emptied _)).when accKeyLost_losesKeys

theorem dropLoad_losesKeys (h : LosesKeys q s) : LosesKeys q (dropLoad s code) := by
  have ended : LosesKeys s (setVault s fun v => { v with load := none }) := ⟨rfl, fun _ h => h, fun _ => rfl, rfl⟩
  unfold dropLoad
  split
  · exact h
  · exact vaultDone_losesKeys (h.trans ended)

theorem clearSlots_losesKeys (h : LosesKeys q s) : LosesKeys q (clearSlots s code) :=
  h.each fun _ _ h => dropLoad_losesKeys (clearSlot_losesKeys h)

/-! ### The life-cycle state changes (R403) -/

/-- R403: a running job has stopped and the life-cycle state is `st`; no slot and no load has been looked at. -/
def lcEntered (s : State) (st : Nat) : State :=
  let s := s.when (cryptBusy s && lcState s != st) cryptAbort
  let s := setVault (s.put vaultB VAULT_LC_STATE st) fun v => { v with lc := if st = 3 then 2 else st }
  s.when (st != 3) fun s => setVault (s.put vaultB VAULT_LC_SVCLEFT 0) fun v => { v with svcMin := none }

/-- R403, R418: a new state other than SERVICE is recorded in the vault as it is. -/
theorem lcEntered_vault (h : st ≠ 3) : (lcEntered s st).vault = { s.vault with lc := st, svcMin := none } := by
  have stopped : (s.when (cryptBusy s && lcState s != st) cryptAbort).vault = s.vault := by
    unfold State.when
    split
    · exact cryptAbort_vault
    · rfl
  unfold lcEntered
  generalize s.when (cryptBusy s && lcState s != st) cryptAbort = u at stopped ⊢
  simp [State.when, h, setVault, ← stopped]

theorem lcEntered_coreCount : (lcEntered s st).cores.length = s.cores.length := by
  have stopped := ((LosesKeys.refl s).when (c := cryptBusy s && lcState s != st) cryptAbort_losesKeys).cores
  unfold lcEntered
  extract_lets s1 s2
  rw [State.when]
  split <;> exact stopped

/-- R403: entering the state costs the vault keys and a load alone. -/
theorem setLc_losesKeys : LosesKeys (lcEntered s st) (setLc s st) := by
  unfold setLc
  extract_lets s1 s2 s3 s4
  have looked : LosesKeys (lcEntered s st) s4 := (LosesKeys.refl s3).each fun _ _ h => h.when clearSlot_losesKeys
  split
  · split
    · exact .ite looked (dropLoad_losesKeys looked)
    · exact dropLoad_losesKeys looked
  · exact looked

/-! ### The erase of a tamper (R421) -/

/-- R421: with the slots cleared, the other secrets go and the cause is recorded; VOID is not yet entered. -/
def secretsErased (s : State) (k : Nat) : State :=
  let s := setVault s fun v => { v with root := false, cells := false, verify := none, chalEnd := none, erasing := true }
  let s := setAcc s fun a => { a with fkey := none, set := none, learn := none }
  let s := { s with upd := { s.upd with dkReg := none } }
  let s := s.put vaultB VAULT_KSTAT_BUSY 0
  let s := s.put vaultB VAULT_TAMPER_CAUSE (s.get vaultB VAULT_TAMPER_CAUSE ||| 2 ^ k)
  s.put vaultB VAULT_TTIME_SEC (s.get Blk.aon.base AON_RTCSEC_SEC)

theorem secretsErased_vault (k : Nat) : (secretsErased s k).vault =
    { s.vault with root := false, cells := false, verify := none, chalEnd := none, erasing := true } := rfl

theorem secretsErased_coreCount (k : Nat) : (secretsErased s k).cores.length = s.cores.length := rfl

/-- R421: Signet halts, and the fault manager shows the tamper. -/
def signetHalted (s : State) : State := updateGact ((haltCore s 4).put safeB SAFE_STAT_TAMP 1)

theorem signetHalted_vault : (signetHalted s).vault = s.vault := rfl

theorem signetHalted_core (h : 4 < s.cores.length) : ((signetHalted s).core 4).stopped = true := by
  have halted : (signetHalted s).core 4 = (haltCore s 4).core 4 := rfl
  rw [halted, haltCore, core_setCore h, if_pos rfl]

theorem tamper_eq (k : Nat) :
    tamper s k = signetHalted (setLc (secretsErased (clearSlots s 0x05) k) 5) := rfl

/-- R420, R421: VOID is entered on slots that are empty, and stays without keys. -/
theorem tamper_vault (k : Nat) :
    (∀ n, n < 32 → slotKey (tamper s k) n = []) ∧ (tamper s k).vault.load = none ∧ (tamper s k).vault.root = false ∧
    (tamper s k).vault.cells = false ∧ (tamper s k).vault.lc = 5 ∧ (tamper s k).vault.erasing = true := by
  obtain ⟨cleared, zeroed⟩ := clearSlots_vault (s := s) (code := 0x05)
  have entered := lcEntered_vault (s := secretsErased (clearSlots s 0x05) k) (st := 5) (by decide)
  rw [secretsErased_vault] at entered
  have lost := setLc_losesKeys (s := secretsErased (clearSlots s 0x05) k) (st := 5)
  have rest := lost.rest
  rw [entered] at rest
  simp only [tamper_eq, slotKey, signetHalted_vault]
  refine ⟨fun n hn => lost.keys n ?_, lost.load ?_, ?_⟩
  · rw [slotKey, entered]
    exact cleared n hn
  · rw [entered, zeroed]
  · rw [rest]
    exact ⟨rfl, rfl, rfl, rfl⟩

theorem tamper_stops_signet (h : Cores.wf s.cores) (k : Nat) : ((tamper s k).core 4).stopped = true := by
  have count := calc (setLc (secretsErased (clearSlots s 0x05) k) 5).cores.length
    _ = (secretsErased (clearSlots s 0x05) k).cores.length := setLc_losesKeys.cores.trans lcEntered_coreCount
    _ = (clearSlots s 0x05).cores.length := secretsErased_coreCount k
    _ = s.cores.length := (clearSlots_losesKeys (.refl s)).cores
    _ = 5 := h.1
  rw [tamper_eq]
  exact signetHalted_core (by omega)

/-! ### The three events -/

theorem exec_reservoirLow : exec .reservoirLow s = .next (clearSlots (s.put vaultB VAULT_LC_RSVOK 0) 0x14) := rfl

theorem exec_tamperDetect_armed {k : Fin 6} (hk : k ≠ 0) (ha : tamperArmed s k.val = true) (hv : lcState s ≠ 5) :
    exec (.tamperDetect k) s = .next (tamper s k.val) := by
  have detected : (k != 0 && tamperArmed s k.val && lcState s != 5) = true := by simp [hk, ha, hv]
  exact congrArg Host.Outcome.next (if_pos detected)

theorem exec_tamperEraseDone_erasing (h : s.vault.erasing = true) : exec .tamperEraseDone s =
    .next { setVault (signetMemClear s) (fun v => { v with erasing := false, warmAt := s.after (us 100) }) with
      warmDue := some .tamper } :=
  congrArg Host.Outcome.next (if_pos h)

/-- Settles O27: every slot is cleared at a low reservoir and before VOID is entered, which only loses more keys; the
end of the erase clears one range. -/
theorem lostKeysAreGone : Obligations.LostKeysAreGone := by
  unfold Obligations.LostKeysAreGone
  refine ⟨fun s t h => ?_, fun k s hk hc ha hv => ?_, fun s _ he => ?_⟩
  case refine_1 =>
    rw [exec_reservoirLow] at h
    cases h
    obtain ⟨cleared, zeroed⟩ := clearSlots_vault (s := s.put vaultB VAULT_LC_RSVOK 0) (code := 0x14)
    exact ⟨cleared, by rw [zeroed]⟩
  case refine_2 =>
    obtain ⟨keys, load, root, cells, lc, erasing⟩ := tamper_vault (s := s) k.val
    exact ⟨_, exec_tamperDetect_armed hk ha hv, keys, load, root, cells, lc, erasing, tamper_stops_signet hc k.val⟩
  case refine_3 => exact ⟨_, exec_tamperEraseDone_erasing he, rfl, rfl, signetMemClear_nib⟩

end Sys2Proof.Machine
end

section
/-! What every step keeps: the canonical form of memory and registers, and the five cores with their 32 registers. -/

namespace Sys2Proof.Machine
open Laws

variable {s : State} {q : List Instr}

/-- By what a command is: a device write or read, a load, store or fence, an event that the next tick brings, a recovery
message; every other command keeps the invariant and the queue by its own law. -/
theorem exec_kept (h : Kept q s) (i : Instr) : KeptA q (exec i s) := by
  cases i with
  | sysResetCoreA | sysResetCoreB | registerWrite | folioRefoldOwn | folioRefoldOther | folioVerifyOther
  | pscModeOff | pscModeOn | pscModePwm | pscModeLowon | pscModePwmsync | pscPwmWrite | channelUnlock
  | heartbeatEnable | heartbeatRefresh | channelReclaim | motCmdStop | motCmdClose | motCmdOpen | motCmdGoto
  | motCmdLearn | motCmdWrun | motCmdWint | motCmdWsingle | motCmdWpark | motCmdDrive | motEnableClear | stkFire
  | stkRelease | stkEnable | stkEnableClear | stModeOff | stModeOn | stModePwm | skModeOff | skModeOn | skModePwm
  | stringUnlock | matrixEnable | matrixSwap | matrixRowUnlock | lightReclaim | lchEnable | lchGo | lchSwap
  | inputEnable | adcEnable | timerEnable | timerDisable | timerCmdStart | timerCmdStop | timerGlobalStart
  | ruleSoftwarePulse | canEnable | canDisable | canRxRelease | canTxRequest | canTxCancel | canSealWrite
  | canRecover | linGosleep | linWakeSend | ethTxKick | ringEnable | ringTxgo | ringRxRelease | ringWakeTone
  | ringCryptConfig | nmgEnable | nmgDisable | nmgRequest | nmgRelease | nmgLogClear | lcEnroll | lcOwner
  | lcField | lcNewchal | lcService | lcEndsvc | lcReturn | lcVoid | keyLoad | keyClear | keyRestrict | sealReply
  | cryptJobStart | accEnable | accDisable | accImport | accLearn | interruptEoi | icuSourceConfig | updBegin
  | updData | updEnd | updAbort | updDkimport | edArm | edArmnow | edDisarm | edConfirm | edRevert | edRetryisl
  | edRecover | nvRowWrite | padRelease | rtcSet | rtcAlarmSet | safeClear | safeReactionConfig =>
    exact devWrite_kept h
  | aliasSetWrite | aliasClearWrite | aliasToggleWrite => exact aliasWriteAt_kept h
  | adcResultRead | timerCapRead | timerCountSnapshot | interruptClaim => exact readCmd_kept h
  | ldw | ldh | ldhs | ldn | ldns => exact loadInto_kept h
  | stw | sth | stn => exact storeFrom_kept h
  | fenceDev | fenceAll => exact fenceDev_kept h
  | timerPeriodEnd | timerCompareMatch | captureTimeout | ruleDelivery => exact tickIf_kept h
  | recoveryAttn | recoveryRecover | recoveryManifest | recoveryData | recoveryEnd | recoveryOwner
  | recoveryDkimport => exact .next (recMessage_kept h)
  | powerOnReset => exact execPowerOnReset_kept h
  | resetNAssert => exact execResetNAssert_kept h
  | warmReset => exact execWarmReset_kept h
  | coreReset => exact execCoreReset_kept h
  | sysResetWarm => exact execSysResetWarm_kept h
  | bootWatchdogExpiry => exact execBootWatchdogExpiry_kept h
  | pll1Loss => exact execPll1Loss_kept h
  | aonWriteEffect => exact execAonWriteEffect_kept h
  | fabricTimeout => exact execFabricTimeout_kept h
  | voteCorrection => exact execVoteCorrection_kept h
  | folioVerifyEnd => exact execFolioVerifyEnd_kept h
  | refoldDone => exact execRefoldDone_kept h
  | pwmPeriodBoundary => exact execPwmPeriodBoundary_kept h
  | pwmOnTimeEnd => exact execPwmOnTimeEnd_kept h
  | currentLimitReached => exact execCurrentLimitReached_kept h
  | ilimTimeTrip => exact execIlimTimeTrip_kept h
  | regulationTimeClear => exact execRegulationTimeClear_kept h
  | shortCircuitTrip => exact execShortCircuitTrip_kept h
  | wireModelEvaluation => exact execWireModelEvaluation_kept h
  | inrushWindowEnd => exact execInrushWindowEnd_kept h
  | clampEnergyExceeded => exact execClampEnergyExceeded_kept h
  | clampLeakTick => exact execClampLeakTick_kept h
  | thermalLatch => exact execThermalLatch_kept h
  | thermalRelease => exact execThermalRelease_kept h
  | retryDelayExpiry => exact execRetryDelayExpiry_kept h
  | retryRestoreTimeout => exact execRetryRestoreTimeout_kept h
  | mismatchDetect => exact execMismatchDetect_kept h
  | mismatchPersistSafe => exact execMismatchPersistSafe_kept h
  | secondPathShutdown => exact execSecondPathShutdown_kept h
  | openLoadOnDetect => exact execOpenLoadOnDetect_kept h
  | offStateTestStart => exact execOffStateTestStart_kept h
  | offStateTestPhaseEnd => exact execOffStateTestPhaseEnd_kept h
  | pairImbalance => exact execPairImbalance_kept h
  | heartbeatExpiry => exact execHeartbeatExpiry_kept h
  | holdExpiry => exact execHoldExpiry_kept h
  | parkonLimitFault => exact execParkonLimitFault_kept h
  | arbiterCycle => exact execArbiterCycle_kept h
  | feedOvercurrent => exact execFeedOvercurrent_kept h
  | feedUndervoltage => exact execFeedUndervoltage_kept h
  | feedOvervoltageHold => exact execFeedOvervoltageHold_kept h
  | feedVoltageRecovery => exact execFeedVoltageRecovery_kept h
  | reverseBattery => exact execReverseBattery_kept h
  | currentSenseCrossCheck => exact execCurrentSenseCrossCheck_kept h
  | softStartEnd => exact execSoftStartEnd_kept h
  | rippleDetect => exact execRippleDetect_kept h
  | rippleGapCorrection => exact execRippleGapCorrection_kept h
  | rippleCountEnd => exact execRippleCountEnd_kept h
  | forceEstimate => exact execForceEstimate_kept h
  | pinchBrakeEnd => exact execPinchBrakeEnd_kept h
  | pinchReversalEnd => exact execPinchReversalEnd_kept h
  | stallDetect => exact execStallDetect_kept h
  | brakeTimeEnd => exact execBrakeTimeEnd_kept h
  | gotoTargetReached => exact execGotoTargetReached_kept h
  | moveTimeout => exact execMoveTimeout_kept h
  | wiperParkEdge => exact execWiperParkEdge_kept h
  | wiperStartPulse => exact execWiperStartPulse_kept h
  | wiperCycleTimeout => exact execWiperCycleTimeout_kept h
  | stkRuleFire => exact execStkRuleFire_kept h
  | stkRuleRelease => exact execStkRuleRelease_kept h
  | peakArrival => exact execPeakArrival_kept h
  | boostTimeout => exact execBoostTimeout_kept h
  | lateWindowFault => exact execLateWindowFault_kept h
  | stkPeakTimeEnd => exact execStkPeakTimeEnd_kept h
  | stkHoldTimeEnd => exact execStkHoldTimeEnd_kept h
  | quenchEnd => exact execQuenchEnd_kept h
  | chopCurrentReached => exact execChopCurrentReached_kept h
  | chopOffTimeEnd => exact execChopOffTimeEnd_kept h
  | dutyLimitReached => exact execDutyLimitReached_kept h
  | dutySegmentRoll => exact execDutySegmentRoll_kept h
  | stringFreqUpdate => exact execStringFreqUpdate_kept h
  | stringPwmBoundary => exact execStringPwmBoundary_kept h
  | sinkPwmBoundary => exact execSinkPwmBoundary_kept h
  | stringOpen => exact execStringOpen_kept h
  | stringOpenRetest => exact execStringOpenRetest_kept h
  | stringShort => exact execStringShort_kept h
  | stringOutputShort => exact execStringOutputShort_kept h
  | stringThermal => exact execStringThermal_kept h
  | sinkOpen => exact execSinkOpen_kept h
  | sinkShort => exact execSinkShort_kept h
  | sinkBankThermal => exact execSinkBankThermal_kept h
  | diagAgeExpiry => exact execDiagAgeExpiry_kept h
  | offtestStart => exact execOfftestStart_kept h
  | offtestEnd => exact execOfftestEnd_kept h
  | matrixRowSlot => exact execMatrixRowSlot_kept h
  | matrixRowTrip => exact execMatrixRowTrip_kept h
  | lchRefresh => exact execLchRefresh_kept h
  | lchFrameEnd => exact execLchFrameEnd_kept h
  | inputScan => exact execInputScan_kept h
  | parkInputSample => exact execParkInputSample_kept h
  | comparatorCrossing => exact execComparatorCrossing_kept h
  | adcScanPeriod => exact execAdcScanPeriod_kept h
  | adcRuleStart => exact execAdcRuleStart_kept h
  | adcConversionDone => exact execAdcConversionDone_kept h
  | adcScanDone => exact execAdcScanDone_kept h
  | timerRuleStart => exact execTimerRuleStart_kept h
  | timerRuleStop => exact execTimerRuleStop_kept h
  | timerCaptureRule => exact execTimerCaptureRule_kept h
  | timerCaptureEdge => exact execTimerCaptureEdge_kept h
  | ruleEvent => exact execRuleEvent_kept h
  | canDisableEffect => exact execCanDisableEffect_kept h
  | canFrameReceived => exact execCanFrameReceived_kept h
  | canTxSelection => exact execCanTxSelection_kept h
  | canArbitrationStart => exact execCanArbitrationStart_kept h
  | canTxSuccess => exact execCanTxSuccess_kept h
  | canTxLost => exact execCanTxLost_kept h
  | canErrorDetected => exact execCanErrorDetected_kept h
  | canProtocolException => exact execCanProtocolException_kept h
  | canRecoveryDone => exact execCanRecoveryDone_kept h
  | linSlotStart => exact execLinSlotStart_kept h
  | linHeaderReceived => exact execLinHeaderReceived_kept h
  | linResponseReceived => exact execLinResponseReceived_kept h
  | linResponseTimeout => exact execLinResponseTimeout_kept h
  | linSleepEntry => exact execLinSleepEntry_kept h
  | linIdleTimeout => exact execLinIdleTimeout_kept h
  | linWakeupDetect => exact execLinWakeupDetect_kept h
  | linScheduleResume => exact execLinScheduleResume_kept h
  | ethFrameReceived => exact execEthFrameReceived_kept h
  | ethFrameSent => exact execEthFrameSent_kept h
  | ethLinkChange => exact execEthLinkChange_kept h
  | ethDisable => exact execEthDisable_kept h
  | ringLinkTrained => exact execRingLinkTrained_kept h
  | ringLockLoss => exact execRingLockLoss_kept h
  | ringBreakDetect => exact execRingBreakDetect_kept h
  | ringBreakSend => exact execRingBreakSend_kept h
  | ringRelock => exact execRingRelock_kept h
  | ringFrameReceived => exact execRingFrameReceived_kept h
  | ringFrameReturn => exact execRingFrameReturn_kept h
  | ringAckTimeout => exact execRingAckTimeout_kept h
  | ringClaimSend => exact execRingClaimSend_kept h
  | ringTimeTimeout => exact execRingTimeTimeout_kept h
  | ringTimeSend => exact execRingTimeSend_kept h
  | ringTimeReturnTimeout => exact execRingTimeReturnTimeout_kept h
  | ringCensusSend => exact execRingCensusSend_kept h
  | nmgKeepaliveDue => exact execNmgKeepaliveDue_kept h
  | nmgKeepaliveReceived => exact execNmgKeepaliveReceived_kept h
  | nmgIdleTimeout => exact execNmgIdleTimeout_kept h
  | nmgSleepAbort => exact execNmgSleepAbort_kept h
  | nmgRepeatEnd => exact execNmgRepeatEnd_kept h
  | nmgDetectorArm => exact execNmgDetectorArm_kept h
  | nmgSleepCommit => exact execNmgSleepCommit_kept h
  | transceiverWake => exact execTransceiverWake_kept h
  | nmgConfirmTimeout => exact execNmgConfirmTimeout_kept h
  | transceiverService => exact execTransceiverService_kept h
  | transceiverServiceTimeout => exact execTransceiverServiceTimeout_kept h
  | lcSignatureVerified => exact execLcSignatureVerified_kept h
  | serviceTimeEnd => exact execServiceTimeEnd_kept h
  | challengeExpiry => exact execChallengeExpiry_kept h
  | keyLoadDone => exact execKeyLoadDone_kept h
  | sealCallTimeout => exact execSealCallTimeout_kept h
  | cryptJobDone => exact execCryptJobDone_kept h
  | tamperDetect => exact execTamperDetect_kept h
  | tamperEraseDone => exact execTamperEraseDone_kept h
  | reservoirCharged => exact execReservoirCharged_kept h
  | reservoirLow => exact execReservoirLow_kept h
  | accLoadingDone => exact execAccLoadingDone_kept h
  | attentionAssert => exact execAttentionAssert_kept h
  | tokenReadEnd => exact execTokenReadEnd_kept h
  | tokenReadRepeat => exact execTokenReadRepeat_kept h
  | evalFrameEnd => exact execEvalFrameEnd_kept h
  | accCommandAct => exact execAccCommandAct_kept h
  | accBackoffEnd => exact execAccBackoffEnd_kept h
  | accLearnDone => exact execAccLearnDone_kept h
  | sessionTimeout => exact execSessionTimeout_kept h
  | graceTimeout => exact execGraceTimeout_kept h
  | grantFrameSend => exact execGrantFrameSend_kept h
  | add => exact execAdd_kept h
  | adc => exact execAdc_kept h
  | sub => exact execSub_kept h
  | sbc => exact execSbc_kept h
  | and_ => exact execAnd_kept h
  | or_ => exact execOr_kept h
  | xor => exact execXor_kept h
  | andn => exact execAndn_kept h
  | shl => exact execShl_kept h
  | shr => exact execShr_kept h
  | sar => exact execSar_kept h
  | rol => exact execRol_kept h
  | ror => exact execRor_kept h
  | mul => exact execMul_kept h
  | mulh => exact execMulh_kept h
  | mulhu => exact execMulhu_kept h
  | div => exact execDiv_kept h
  | divu => exact execDivu_kept h
  | rem => exact execRem_kept h
  | remu => exact execRemu_kept h
  | clz => exact execClz_kept h
  | ctz => exact execCtz_kept h
  | popc => exact execPopc_kept h
  | nprm => exact execNprm_kept h
  | opk => exact execOpk_kept h
  | opkl => exact execOpkl_kept h
  | oupk => exact execOupk_kept h
  | oupkl => exact execOupkl_kept h
  | addi => exact execAddi_kept h
  | subi => exact execSubi_kept h
  | andi => exact execAndi_kept h
  | ori => exact execOri_kept h
  | xori => exact execXori_kept h
  | lui => exact execLui_kept h
  | shi => exact execShi_kept h
  | nprmi => exact execNprmi_kept h
  | bfx => exact execBfx_kept h
  | bfxs => exact execBfxs_kept h
  | bfi => exact execBfi_kept h
  | lres => exact execLres_kept h
  | scond => exact execScond_kept h
  | br => exact execBr_kept h
  | jal => exact execJal_kept h
  | jalr => exact execJalr_kept h
  | nop => exact execNop_kept h
  | fenceMem => exact execFenceMem_kept h
  | wait => exact execWait_kept h
  | sys => exact execSys_kept h
  | seal_ => exact execSeal_kept h
  | rfe => exact execRfe_kept h
  | mfs => exact execMfs_kept h
  | mts => exact execMts_kept h
  | cacheInvalidateIRange => exact execCacheInvalidateIRange_kept h
  | cacheInvalidateDRange => exact execCacheInvalidateDRange_kept h
  | cacheInvalidateIAll => exact execCacheInvalidateIAll_kept h
  | cacheInvalidateDAll => exact execCacheInvalidateDAll_kept h
  | ux => exact execUx_kept h
  | crc32 => exact execCrc32_kept h
  | crc32o => exact execCrc32o_kept h
  | crc16 => exact execCrc16_kept h
  | shainit => exact execShainit_kept h
  | shaw => exact execShaw_kept h
  | shaCompressionDone => exact execShaCompressionDone_kept h
  | shard => exact execShard_kept h
  | aeskey => exact execAeskey_kept h
  | aesin => exact execAesin_kept h
  | aesenc => exact execAesenc_kept h
  | aesdec => exact execAesdec_kept h
  | aesDone => exact execAesDone_kept h
  | aesout => exact execAesout_kept h
  | kset => exact execKset_kept h
  | lag => exact execLag_kept h
  | sqmac => exact execSqmac_kept h
  | krd => exact execKrd_kept h
  | pset => exact execPset_kept h
  | pclr => exact execPclr_kept h
  | match_ => exact execMatch_kept h
  | maplo => exact execMaplo_kept h
  | maphi => exact execMaphi_kept h
  | interruptPresent => exact execInterruptPresent_kept h
  | interruptTaken => exact execInterruptTaken_kept h
  | lockstepMismatch => exact execLockstepMismatch_kept h
  | trialTimeRecord => exact execTrialTimeRecord_kept h
  | trialExpiry => exact execTrialExpiry_kept h
  | nvRowWriteDone => exact execNvRowWriteDone_kept h
  | recoveryWindowEnd => exact execRecoveryWindowEnd_kept h
  | recoveryHello => exact execRecoveryHello_kept h
  | recoverySegmentTimeout => exact execRecoverySegmentTimeout_kept h
  | dbgTransfer => exact execDbgTransfer_kept h
  | powerStateChoice => exact execPowerStateChoice_kept h
  | parkEntryCommit => exact execParkEntryCommit_kept h
  | wakeDetect => exact execWakeDetect_kept h
  | wakeStageReady => exact execWakeStageReady_kept h
  | wakeStageFailure => exact execWakeStageFailure_kept h
  | wakeRetry => exact execWakeRetry_kept h
  | rtcSecond => exact execRtcSecond_kept h
  | safeFaultDetect => exact execSafeFaultDetect_kept h
  | safeResetAssert => exact execSafeResetAssert_kept h
  | voterSelfTest => exact execVoterSelfTest_kept h
  | sramScrub => exact execSramScrub_kept h
  | nvmScrub => exact execNvmScrub_kept h
  | selftestOverdue => exact execSelftestOverdue_kept h
  | ringSymbolLock => exact execRingSymbolLock_kept h
  | wakeToneReceived => exact execWakeToneReceived_kept h
  | wakeFrameDecode => exact execWakeFrameDecode_kept h
  | updCommandDone => exact execUpdCommandDone_kept h
  | dbgLinkTimeout => exact execDbgLinkTimeout_kept h
  | operatingRangeChange => exact execOperatingRangeChange_kept h

/-- A step keeps the invariant and leaves the commands behind the front one. -/
theorem step_kept (h : Invariant s) : KeptA s.pending.tail (step s) := by
  unfold step
  split
  next i rest front =>
    rw [front]
    exact exec_kept (s := { s with pending := rest }) ⟨rfl, h⟩ i
  next empty => exact idleTick_kept ⟨by rw [empty]; rfl, h⟩

/-- Settles O4: each command by its law, and the tick that passes where none waits. -/
theorem stepKeepsTheInvariant : Obligations.StepKeepsTheInvariant := by
  unfold Obligations.StepKeepsTheInvariant
  intro s t h goesOn
  exact ((step_kept h).out t goesOn).2

end Sys2Proof.Machine
end

section
/-! A core's registers (R450) and what an integer instruction leaves (R482, R488). -/

namespace Sys2Proof.Machine
open Laws

variable {s : State} {c : CoreId} {k : Core} {r q wd : Reg} {v : Word} {a : Alu}

theorem reg_setReg_same (hl : k.regs.length = 32) (hr : r ≠ 0) : (k.setReg r v).reg r = v := by
  rw [reg_setReg hl hr, if_pos rfl]

/-- A register that is not written stands, where the written one is w0 too. -/
theorem reg_setReg_ne (hl : k.regs.length = 32) (hq : q ≠ r) : (k.setReg r v).reg q = k.reg q := by
  by_cases hr : r = 0
  · rw [hr, setReg_zero]
  · rw [reg_setReg hl hr, if_neg hq]

/-- Settles O13: w0 by its definition, the others by the list of 32 that every core holds. -/
theorem zeroRegister : Obligations.ZeroRegister := by
  unfold Obligations.ZeroRegister
  exact ⟨fun _ _ h => core_regs h.2, fun _ _ => reg_zero, fun _ _ => setReg_zero,
    fun _ _ _ _ hl hr => ⟨reg_setReg_same hl hr, reg_setReg_ne hl⟩⟩

/-! ### The result of an integer instruction -/

theorem flags_eq_packFlags : a.flags = packFlags (a.val.getLsbD 35) (a.val == 0) a.c a.v := by
  rw [Alu.flags, BitVec.msb_eq_getLsbD_last]

theorem aluDone_core (h : Cores.wf s.cores) : (s.aluDone c wd a).core c.val =
    { ((s.core c.val).setReg wd a.val) with flg := a.flags, pc := (s.core c.val).pc + 4 } := core_setCore_same h

theorem aluDone_reg (h : Cores.wf s.cores) : (s.aluDone c wd a).reg c r = ((s.core c.val).setReg wd a.val).reg r := by
  rw [State.reg, aluDone_core h]
  rfl

/-- The registers, the flags and the pc are all that differs in the core. -/
theorem aluDone_core_frame (h : Cores.wf s.cores) : (s.aluDone c wd a).core c.val =
    { s.core c.val with
      regs := ((s.aluDone c wd a).core c.val).regs, pc := (s.core c.val).pc + 4, flg := a.flags } := by
  rw [aluDone_core h, setReg_rest]

/-- Settles O14: one core is replaced, in which one register, the flags and the pc differ. -/
theorem resultFrame : Obligations.ResultFrame := by
  unfold Obligations.ResultFrame
  intro s c wd a ⟨_, hc⟩ t
  refine ⟨setCore_frame, fun c' hne => core_setCore_ne (Fin.val_ne_of_ne hne), fun hwd => ?_, fun r hr => ?_, ?_⟩
  · exact (aluDone_reg hc).trans (reg_setReg_same (core_regs hc) hwd)
  · exact (aluDone_reg hc).trans (reg_setReg_ne (core_regs hc) hr)
  · rw [← flags_eq_packFlags]
    exact aluDone_core_frame hc

end Sys2Proof.Machine
end

section
/-! A second exception (R468) and the return from the first (R467, R477). -/

namespace Sys2Proof.Machine
open Laws

variable {s : State} {c : CoreId} {e : Exc} {sub info : Nat} {epc eaddr : Word}

/-! ### The double fault -/

theorem raiseExc_double (hx : (s.core c.val).exl = true) : raiseExc s c e sub info epc eaddr =
    if c.val < 4 then safeDetect (haltCore s c.val) 4 c.val else haltCore s c.val := if_pos hx

/-- R468: the fault manager's reactions leave the stopped core as it is. -/
theorem raiseExc_double_core (h : Cores.wf s.cores) (hx : (s.core c.val).exl = true) :
    (raiseExc s c e sub info epc eaddr).core c.val = { s.core c.val with stopped := true } := by
  rw [State.core, double_fault hx]
  exact core_setCore_same h

theorem canIssue_stopped (h : (s.core c.val).stopped = true) : canIssue s c = false := by simp [canIssue, h]

/-- Settles O23: the core is the one before, stopped. -/
theorem doubleFaultStops : Obligations.DoubleFaultStops := by
  unfold Obligations.DoubleFaultStops
  intro s c e sub info epc eaddr ⟨_, hc⟩ hx t
  have core : t.core c.val = { s.core c.val with stopped := true } := raiseExc_double_core hc hx
  have stopped : (t.core c.val).stopped = true := by rw [core]
  refine ⟨stopped, by rw [core], canIssue_stopped stopped, fun quill => ?_, fun signet => ?_⟩
  · exact (raiseExc_double hx).trans (if_pos quill)
  · rw [← signet]
    exact (raiseExc_double hx).trans (if_neg (by omega))

/-! ### The return -/

/-- R467: flags, IE and the world come back, EXL and the reservation are cleared, and the core continues at EPC. -/
def rfeRestored (s : State) (c : CoreId) : State :=
  let e := (s.core c.val).esave
  s.setCore c.val (fun k => { k with
    flg := BitVec.ofNat 4 (bitsOf e 35 32), world := if c.val = 4 then .seal else if bitAt e 31 then .opn else .trust,
    ie := bitAt e 30, exl := false, resv := none, pc := k.epc })

/-- R477: RFE with SRES takes the outcome held for the call it returns to. -/
def rfeUnheld (s : State) (c : CoreId) : State :=
  (rfeRestored s c).setCore c.val (fun k => { k with sealHeld := k.sealHeld.tail })

/-- What RFE leaves outside OPEN. -/
def rfeEnd (s : State) (c : CoreId) : State :=
  if bitAt (s.core c.val).esave 29 then
    match (s.core c.val).sealHeld.head? with
    | some (some (w, z)) => sealDeliver (rfeUnheld s c) c.val w z
    | _ => (rfeUnheld s c).setCore c.val (fun k => { k with sealing := true })
  else rfeRestored s c

theorem execRfe_next {u : State} (h : Issues s c) (hw : (s.core c.val).world ≠ .opn) (hu : rfeEnd s c = u) :
    exec (.rfe c) s = .next u := calc
  exec (.rfe c) s = issuePriv c true s fun s => rfeEnd s c := rfl
  _ = .next (rfeEnd s c) := issuePriv_trust h rfl hw
  _ = .next u := by rw [hu]

theorem execRfe_plain (h : Issues s c) (hw : (s.core c.val).world ≠ .opn)
    (plain : bitAt (s.core c.val).esave 29 = false) : exec (.rfe c) s = .next (rfeRestored s c) :=
  execRfe_next h hw (if_neg (by simp [plain]))

theorem execRfe_waits (h : Issues s c) (hw : (s.core c.val).world ≠ .opn)
    (sres : bitAt (s.core c.val).esave 29 = true)
    (awaited : ∀ w z, (s.core c.val).sealHeld.head? ≠ some (some (w, z))) :
    exec (.rfe c) s = .next ((rfeUnheld s c).setCore c.val (fun k => { k with sealing := true })) := by
  refine execRfe_next h hw ((if_pos sres).trans ?_)
  split
  next w z held => exact absurd held (awaited w z)
  next => rfl

theorem execRfe_delivers {w : Word} {z : Bool} (h : Issues s c) (hw : (s.core c.val).world ≠ .opn)
    (sres : bitAt (s.core c.val).esave 29 = true)
    (held : (s.core c.val).sealHeld.head? = some (some (w, z))) :
    exec (.rfe c) s = .next (sealDeliver (rfeUnheld s c) c.val w z) := by
  refine execRfe_next h hw ((if_pos sres).trans ?_)
  rw [held]

/-- Settles O21: outside OPEN the meaning of RFE is reached, and SRES and the held outcome choose its end. -/
theorem returnFromException : Obligations.ReturnFromException := by
  unfold Obligations.ReturnFromException
  intro c s h hw k e t u
  exact ⟨execRfe_plain h hw, execRfe_waits h hw, fun w z => execRfe_delivers h hw⟩

end Sys2Proof.Machine
end

section
/-! A store and the reservations of the five cores (R463). -/

namespace Sys2Proof.Machine
open Laws

variable {s : State} {c : CoreId} {a n g : Nat} {w : Word}

/-! ### One core's reservation -/

theorem advance_resv {m : Nat} : ((s.advance c).core m).resv = (s.core m).resv := by
  by_cases hl : c.val < s.cores.length
  · rw [State.advance, core_setCore hl]
    split
    next e => rw [e]
    next => rfl
  · rw [State.advance, State.setCore, List.set_eq_of_length_le (Nat.le_of_not_lt hl)]

/-- R463: the store meets a granule of 16 nibs that starts before its end and ends after its start. -/
theorem loseResv_resv (h : Cores.wf s.cores) : ((loseResv s a n).core c.val).resv = some g ↔
    (s.core c.val).resv = some g ∧ (g + 16 ≤ a ∨ a + n ≤ g) := by
  rw [loseResv, core_mapCores (core_lt h)]
  cases held : (s.core c.val).resv with
  | none => simp [held]
  | some g' =>
    by_cases meets : g' < a + n ∧ a < g' + 16
    · simp [meets]
      omega
    · simp [meets, held]
      omega

/-! ### The store -/

theorem putNibs_cores {l : List Nib} : (s.putNibs a l).cores = s.cores := Still.foldl (q := s) rfl fun _ _ h => h

theorem memStore_cores : (memStore s a n w).cores = (loseResv s a n).cores := by
  have stored : (loseResv (s.putNibs a (lowNibs w n)) a n).cores = (loseResv s a n).cores :=
    congrArg (List.map _) putNibs_cores
  unfold memStore
  dsimp only
  split
  · exact stored
  · exact stored

theorem memStore_resv (h : Cores.wf s.cores) : ((memStore s a n w).core c.val).resv = some g ↔
    (s.core c.val).resv = some g ∧ (g + 16 ≤ a ∨ a + n ≤ g) := by
  rw [State.core, memStore_cores]
  exact loseResv_resv h

/-- Settles O25: the store goes to memory, and only the granules it meets are lost. -/
theorem storeEndsReservations : Obligations.StoreEndsReservations := by
  unfold Obligations.StoreEndsReservations
  intro c ws wa imm s h ⟨_, hc⟩ a hr hs hm
  refine ⟨_, storeFrom_memory h rfl hm hr hs, fun c' g => ?_⟩
  rw [advance_resv]
  exact memStore_resv hc

end Sys2Proof.Machine
end

section
/-! The claim of an interrupt (R470, R471, R473). -/

namespace Sys2Proof

theorem Blk.lastOff_icu : Blk.lastOff .icu = 0x9FC := by decide

end Sys2Proof

namespace Sys2Proof.Machine
open Laws

variable {s : State} {src : Src} {t n k : Nat}

/-! ### The highest deliverable source (R470) -/

/-- The priority at which target `t` may claim number `n`, or 0. -/
def claimPrio (s : State) (t n : Nat) : Nat := if srcListed n then deliverPrio s t n else 0

theorem claimPrio_listed (h : srcListed n = true) : claimPrio s t n = deliverPrio s t n := if_pos h

theorem claimPrio_unlisted (h : srcListed n ≠ true) : claimPrio s t n = 0 := if_neg h

/-- The priority of the best number found, or 0. -/
def foundPrio (b : Option (Nat × Nat)) : Nat := match b with | none => 0 | some q => q.2

@[simp] theorem foundPrio_none : foundPrio none = 0 := rfl
@[simp] theorem foundPrio_some {p : Nat} : foundPrio (some (n, p)) = p := rfl

/-- The better of what was found and number `n`. -/
def betterClaim (s : State) (t : Nat) (b : Option (Nat × Nat)) (n : Nat) : Option (Nat × Nat) :=
  if foundPrio b < claimPrio s t n then some (n, claimPrio s t n) else b

/-- The best of the numbers below `k`, found in rising order. -/
def bestBelow (s : State) (t k : Nat) : Option (Nat × Nat) := (List.range k).foldl (betterClaim s t) none

theorem bestBelow_succ : bestBelow s t (k + 1) = betterClaim s t (bestBelow s t k) k := by
  rw [bestBelow, List.range_succ, List.foldl_append]
  rfl

theorem bestSource_eq_bestBelow (h : coreIdle s t = false) : bestSource s t = (bestBelow s t 135).map (·.1) :=
  if_neg (by simp [h])

/-- `b` is the first number below `k` of the highest priority there, where one has a priority. -/
structure FirstOfBest (s : State) (t k : Nat) (b : Option (Nat × Nat)) : Prop where
  top : ∀ m < k, claimPrio s t m ≤ foundPrio b
  first : ∀ n p, b = some (n, p) → n < k ∧ claimPrio s t n = p ∧ 0 < p ∧ ∀ m < n, claimPrio s t m < p

theorem bestBelow_firstOfBest : FirstOfBest s t k (bestBelow s t k) := by
  induction k with
  | zero => exact ⟨nofun, nofun⟩
  | succ k ih =>
    obtain ⟨top, first⟩ := ih
    rw [bestBelow_succ, betterClaim]
    split
    next better =>
      refine ⟨fun m hm => ?_, fun n p e => ?_⟩
      · rcases Nat.lt_succ_iff_lt_or_eq.mp hm with hm | rfl
        · exact Nat.le_trans (top m hm) (Nat.le_of_lt better)
        · exact Nat.le_refl _
      · cases e
        exact ⟨k.lt_succ_self, rfl, by omega, fun m hm => Nat.lt_of_le_of_lt (top m hm) better⟩
    next worse =>
      refine ⟨fun m hm => ?_, fun n p e => ?_⟩
      · rcases Nat.lt_succ_iff_lt_or_eq.mp hm with hm | rfl
        · exact top m hm
        · exact Nat.le_of_not_lt worse
      · obtain ⟨hn, rest⟩ := first n p e
        exact ⟨by omega, rest⟩

theorem bestSource_eq_none (zero : ∀ m < 135, claimPrio s t m = 0) : bestSource s t = none := by
  cases idle : coreIdle s t with
  | true => exact if_pos idle
  | false =>
    rw [bestSource_eq_bestBelow idle, Option.map_eq_none_iff, Option.eq_none_iff_forall_ne_some]
    intro ⟨n, p⟩ found
    obtain ⟨hn, prio, pos, _⟩ := bestBelow_firstOfBest.first n p found
    have := zero n hn
    omega

/-- R470: the highest priority, and the lowest number among equals, name one source. -/
theorem bestSource_eq_some (idle : coreIdle s t = false) (hn : n < 135) (pos : 0 < claimPrio s t n)
    (best : ∀ m < 135, claimPrio s t m < claimPrio s t n ∨ (claimPrio s t m = claimPrio s t n ∧ n ≤ m)) :
    bestSource s t = some n := by
  obtain ⟨top, first⟩ := bestBelow_firstOfBest (s := s) (t := t) (k := 135)
  have reached := top n hn
  rw [bestSource_eq_bestBelow idle]
  cases found : bestBelow s t 135 with
  | none =>
    rw [found, foundPrio_none] at reached
    omega
  | some x =>
    obtain ⟨m, p⟩ := x
    obtain ⟨hm, prio, _, before⟩ := first m p found
    rw [found, foundPrio_some] at reached
    have best_m := best m hm
    have least : ¬ n < m := fun h => by
      have := before n h
      omega
    have same : m = n := by omega
    rw [Option.map_some, same]

/-! ### The read of ICU_CLAIM (R473) -/

/-- R471, R473: source `n` is claimed: ACT is set, its priority is pushed, and nothing is presented. -/
def claimed (s : State) (t n : Nat) : State :=
  setIcu (setStack (s.setBit (icuSrc n) 26 true) t ((n, bitsOf (s.rd (icuSrc n)) 34 31) :: icuStack s t)).drawn
    (fun i => { i with presented := i.presented.set t none })

theorem claimRead_own (req : src.req = t) (world : src.world ≠ .opn) (best : bestSource s t = some n) :
    claimRead s t src = (claimed s t n, n) := by
  simp only [claimRead, req, best]
  simp [world, claimed]

theorem claimRead_foreign (h : src.req ≠ t ∨ src.world = .opn) : claimRead s t src = (s, 511) :=
  if_neg (by
    rw [Bool.and_eq_true, decide_eq_true_eq, bne_iff_ne]
    exact fun ⟨req, world⟩ => h.elim (· req) world)

theorem claimRead_none (h : bestSource s t = none) : claimRead s t src = (s, 511) := by
  simp [claimRead, h]

theorem bitAt_putBit {w : Word} {i : Nat} (hi : i < 36) : bitAt (putBit w i true) i = true := by
  rw [putBit, bitAt_setBits hi (Nat.le_refl _) hi]
  simp

@[simp] theorem setIcu_rd {g : IcuSt → IcuSt} {a : Nat} : (setIcu s g).rd a = s.rd a := rfl

@[simp] theorem State.drawn_rd {a : Nat} : s.drawn.rd a = s.rd a := rfl

theorem State.put_rd_ne {b a x : Nat} {f : Fld} (hw : Registers.wf s.regs = true) (ha : a ≠ b + f.off) :
    (s.put b f x).rd a = s.rd a := (State.put_rd hw a).trans (if_neg ha)

/-- A target's stack is shown in ICU_RPRI alone. -/
theorem setStack_rd {l : List (Nat × Nat)} {a : Nat} (hw : Registers.wf s.regs = true) (ha : a ≠ icuT t + 0xC) :
    (setStack s t l).rd a = s.rd a := by
  have hu : Registers.wf (setIcu s fun i => { i with levels := i.levels.set t l }).regs = true := hw
  rw [setStack, State.put_rd_ne (State.put_wf hu) ha, State.put_rd_ne hu ha, setIcu_rd]

theorem claimed_rd (hw : Registers.wf s.regs = true) (hn : icuSrc n ≠ icuT t + 0xC) :
    (claimed s t n).rd (icuSrc n) = putBit (s.rd (icuSrc n)) 26 true := by
  have active : Registers.wf (s.setBit (icuSrc n) 26 true).regs = true := wf_write hw
  rw [claimed, setIcu_rd, State.drawn_rd, setStack_rd active hn, State.setBit, rd_wr hw, if_pos rfl]

theorem claimed_levels : (claimed s t n).icu.levels =
    s.icu.levels.set t ((n, bitsOf (s.rd (icuSrc n)) 34 31) :: icuStack s t) := rfl

theorem execInterruptClaim_ready {t : Fin 5} (hn : noneAhead s src.req (some .icu) = true)
    (hr : s.ready Blk.icu.island = true) : exec (.interruptClaim t src) s = .next (claimRead s t.val src).1 := by
  have offset : 0x100 + 0x40 * t.val ≤ 0x9FC := by omega
  refine (readCmd_block hn (by omega) (Blk.lastOff_icu ▸ offset) hr rfl).trans ?_
  have target : (0x100 + 0x40 * t.val - 0x100) / 0x40 = t.val := by omega
  have register : (0x100 + 0x40 * t.val) % 0x40 = 0 := by omega
  have page : 0x100 + 0x40 * t.val < 0x240 := by omega
  have base : 0x100 ≤ 0x100 + 0x40 * t.val := by omega
  simp only [readActs, base, page, register, target, decide_true, beq_self_eq_true, Bool.and_self, if_true]

/-- Settles O26: the claim is `claimRead`, which takes the best source or leaves the state. -/
theorem claimTakesTheHighest : Obligations.ClaimTakesTheHighest := by
  unfold Obligations.ClaimTakesTheHighest
  intro t src s hw hn hr
  rw [execInterruptClaim_ready hn hr]
  constructor
  · intro req world idle n hn listed pos best
    rw [← claimPrio_listed listed] at pos best
    have highest : bestSource s t = some n := bestSource_eq_some idle hn pos fun m hm => by
      by_cases hl : srcListed m = true
      · rw [claimPrio_listed hl]
        exact best m hm hl
      · rw [claimPrio_unlisted hl]
        exact .inl pos
    have act := claimed_rd hw (n := n) (t := t) (by unfold icuSrc icuT; omega)
    rw [claimRead_own req world highest]
    exact ⟨_, rfl, rfl, by rw [act, bitAt_putBit (by decide)], claimed_levels⟩
  · intro refused
    have unchanged : claimRead s t.val src = (s, 511) := by
      rcases refused with req | world | idle | zero
      · exact claimRead_foreign (.inl req)
      · exact claimRead_foreign (.inr world)
      · exact claimRead_none (if_pos idle)
      · refine claimRead_none (bestSource_eq_none fun m hm => ?_)
        by_cases hl : srcListed m = true
        · rw [claimPrio_listed hl, zero m hm hl]
        · exact claimPrio_unlisted hl
    rw [unchanged]
    exact ⟨rfl, rfl⟩

end Sys2Proof.Machine
end

section
/-! The words of Valnen-36 (R482–R520): a form is a word exactly when the word's fields are its operands, and decoding
and encoding are inverse to each other. -/

namespace Sys2Proof

/-! ### A word by its fields (R483)

A field is a digit of the word's number, so that a form is a word is one equation per field. -/

section Fields
variable {w : Word} {op sub opf : Nat} {d a b l : Reg} {f : BitVec 13} {i : BitVec 18} {pos len : BitVec 6}
  {cond : BitVec 4} {off24 : BitVec 24} {off23 : BitVec 23} {idx : BitVec 8}

theorem toNat_append_eq_add {m n : Nat} {x : BitVec m} {y : BitVec n} :
    (x ++ y).toNat = x.toNat * 2 ^ n + y.toNat := by
  rw [BitVec.toNat_append, ← Nat.shiftLeft_add_eq_or_of_lt y.isLt, Nat.shiftLeft_eq]

theorem extractLsb'_toNat_eq {lo n : Nat} : (w.extractLsb' lo n).toNat = w.toNat / 2 ^ lo % 2 ^ n := by
  rw [BitVec.extractLsb'_toNat, Nat.shiftRight_eq_div_pow]

@[simp] theorem formA_eq_iff : formA op d a b f = w ↔
    wOp w = op % 256 ∧ wD w = d ∧ wA w = a ∧ wB w = b ∧ (wFn w).toNat = f.toNat := by
  simp only [formA, wOp, wD, wA, wB, wFn, ← BitVec.toNat_inj, Fin.ext_iff, BitVec.val_toFin, toNat_append_eq_add,
    extractLsb'_toNat_eq, BitVec.toNat_ofNat, BitVec.toNat_ofFin]
  omega

@[simp] theorem formI_eq_iff : formI op d a i = w ↔ wOp w = op % 256 ∧ wD w = d ∧ wA w = a ∧ wImm w = i := by
  simp only [formI, wOp, wD, wA, wImm, ← BitVec.toNat_inj, Fin.ext_iff, BitVec.val_toFin, toNat_append_eq_add,
    extractLsb'_toNat_eq, BitVec.toNat_ofNat, BitVec.toNat_ofFin]
  omega

@[simp] theorem formF_eq_iff : formF op d a pos len sub = w ↔
    wOp w = op % 256 ∧ wD w = d ∧ wA w = a ∧ wPos w = pos ∧ wLen w = len ∧ wSub w = sub % 64 := by
  simp only [formF, wOp, wD, wA, wPos, wLen, wSub, ← BitVec.toNat_inj, Fin.ext_iff, BitVec.val_toFin,
    toNat_append_eq_add, extractLsb'_toNat_eq, BitVec.toNat_ofNat, BitVec.toNat_ofFin]
  omega

@[simp] theorem formB_eq_iff : formB op cond off24 = w ↔ wOp w = op % 256 ∧ wCond w = cond ∧ wOff24 w = off24 := by
  simp only [formB, wOp, wCond, wOff24, ← BitVec.toNat_inj, toNat_append_eq_add, extractLsb'_toNat_eq,
    BitVec.toNat_ofNat]
  omega

@[simp] theorem formJ_eq_iff : formJ op l off23 = w ↔ wOp w = op % 256 ∧ wD w = l ∧ wOff23 w = off23 := by
  simp only [formJ, wOp, wD, wOff23, ← BitVec.toNat_inj, Fin.ext_iff, BitVec.val_toFin, toNat_append_eq_add,
    extractLsb'_toNat_eq, BitVec.toNat_ofNat, BitVec.toNat_ofFin]
  omega

/-- R516: the function field of a coprocessor operation. -/
@[simp] theorem wFn_toNat_eq_cpFn_iff :
    (wFn w).toNat = (cpFn opf idx).toNat ↔ wOpf w = opf % 32 ∧ wIdx w = idx := by
  simp only [cpFn, wFn, wOpf, wIdx, ← BitVec.toNat_inj, toNat_append_eq_add, extractLsb'_toNat_eq, BitVec.toNat_ofNat]
  omega

theorem wFn_eq_zero_iff : wFn w = 0#13 ↔ (wFn w).toNat = 0 := BitVec.toNat_inj.symm

/-- Bits 27:0, which NOP, WAIT and RFE hold at 0, are the fields of form A but its opcode. -/
theorem low28_eq_zero_iff :
    w.extractLsb' 0 28 = 0#28 ↔ wD w = 0 ∧ wA w = 0 ∧ wB w = 0 ∧ (wFn w).toNat = 0 := by
  simp only [wD, wA, wB, wFn, ← BitVec.toNat_inj, Fin.ext_iff, BitVec.val_toFin, extractLsb'_toNat_eq,
    BitVec.toNat_ofNat, Fin.val_zero]
  omega

end Fields

variable {c : CoreId} {w : Word} {i : Instr} {n : Fin 16} {d a b : Reg} {f : BitVec 13}

/-! ### The word of an instruction decodes to it -/

/-- R486: no other row has one of the opcodes 0xE0 to 0xEF. -/
theorem decodeWord_ux (h : formA (0xE0 + n.val) d a b f = w) : decodeWord c w = some (.ux c n d a b f) := by
  obtain ⟨hop, rfl, rfl, rfl, hf⟩ := formA_eq_iff.mp h
  obtain rfl := BitVec.eq_of_toNat_eq hf
  have code : wOp w = 0xE0 + n.val := by omega
  have index : Fin.ofNat 16 (wOp w - 0xE0) = n := Fin.ext (by simp [code])
  unfold decodeWord
  split
  case h_36 => rw [if_pos (by omega), index] -- the opcodes of no other row
  all_goals omega

theorem decodeWord_of_encodeWord (h : encodeWord i = some w) : ∃ c, decodeWord c w = some i := by
  unfold encodeWord at h
  split at h
  case h_88 => exact nomatch h -- a command that is no instruction
  case h_67 => exact ⟨_, decodeWord_ux (Option.some.inj h)⟩ -- UX
  all_goals
    simp only [Option.some.injEq, formA_eq_iff, formI_eq_iff, formF_eq_iff, formB_eq_iff, formJ_eq_iff,
      wFn_toNat_eq_cpFn_iff] at h
    refine ⟨‹CoreId›, ?_⟩
    simp [decodeWord, decReg, decCp0, decCp1, decCp2, zeroThen, wFn_eq_zero_iff, low28_eq_zero_iff, h]

/-! ### A word that decodes is the word of its instruction -/

/-- The instruction that was decoded, where one was, has the word `w`. -/
def SpelledBy (w : Word) (o : Option Instr) : Prop := ∀ i, o = some i → encodeWord i = some w

@[simp] theorem spelledBy_none : SpelledBy w none := nofun

@[simp] theorem spelledBy_some_iff : SpelledBy w (some i) ↔ encodeWord i = some w := by
  simp only [SpelledBy, Option.some.injEq, forall_eq']

@[simp] theorem spelledBy_ite_iff {p : Prop} [Decidable p] {o : Option Instr} :
    SpelledBy w (if p then o else none) ↔ (p → SpelledBy w o) := by
  by_cases hp : p <;> simp [hp]

@[simp] theorem spelledBy_zeroThen_iff {z : Bool} : SpelledBy w (zeroThen z i) ↔ (z = true → encodeWord i = some w) := by
  rw [zeroThen, spelledBy_ite_iff, spelledBy_some_iff]

theorem spelledBy_decReg (hop : wOp w = 0x01) : SpelledBy w (decReg c w) := by
  unfold decReg
  split
  all_goals simp +contextual [encodeWord, *]

theorem spelledBy_decCp0 (hop : wOp w = 0xF0) : SpelledBy w (decCp0 c w) := by
  unfold decCp0
  split
  all_goals simp +contextual [encodeWord, *]

theorem spelledBy_decCp1 (hop : wOp w = 0xF4) : SpelledBy w (decCp1 c w) := by
  unfold decCp1
  split
  all_goals simp +contextual [encodeWord, *]

theorem spelledBy_decCp2 (hop : wOp w = 0xF8) : SpelledBy w (decCp2 c w) := by
  unfold decCp2
  split
  all_goals simp +contextual [encodeWord, *]

theorem spelledBy_ux (h : 0xE0 ≤ wOp w ∧ wOp w < 0xF0) :
    SpelledBy w (some (.ux c (Fin.ofNat 16 (wOp w - 0xE0)) (wD w) (wA w) (wB w) (wFn w))) := by
  have code : 0xE0 + (Fin.ofNat 16 (wOp w - 0xE0)).val = wOp w := by
    rw [Fin.val_ofNat]; omega
  rw [spelledBy_some_iff, encodeWord, code, Option.some.injEq, formA_eq_iff]
  exact ⟨by omega, rfl, rfl, rfl, rfl⟩

theorem spelledBy_decodeWord : SpelledBy w (decodeWord c w) := by
  unfold decodeWord
  split
  case h_1 hop => exact spelledBy_decReg hop
  case h_33 hop => exact spelledBy_decCp0 hop
  case h_34 hop => exact spelledBy_decCp1 hop
  case h_35 hop => exact spelledBy_decCp2 hop
  case h_36 => exact spelledBy_ite_iff.mpr spelledBy_ux
  case h_20 => -- BFX, BFXS and BFI by their sub field
    split
    all_goals simp [encodeWord, *]
  case h_25 | h_32 => -- FENCE and the cache instructions by their function field
    refine spelledBy_ite_iff.mpr fun zero => ?_
    split
    all_goals simp_all [encodeWord]
  all_goals simp +contextual [encodeWord, wFn_eq_zero_iff, low28_eq_zero_iff, *]

/-- Settles O34: a form and a word are equal when their fields are, and of each opcode the decoder keeps every field or
asks that it be 0. -/
theorem decodeAndEncodeAgree : Obligations.DecodeAndEncodeAgree := by
  unfold Obligations.DecodeAndEncodeAgree
  exact ⟨fun _ _ => decodeWord_of_encodeWord, fun _ _ _ => spelledBy_decodeWord _⟩

end Sys2Proof
end

section
/-! The integer instructions of a core that issues are their operations (R485, R488–R495). -/

namespace Sys2Proof.Machine
open Laws

variable {s : State} {c : CoreId} {wd wa wb : Reg} {x y : Word}

theorem alu2_next {op : Word → Word → Bool → Alu} (h : Issues s c) :
    alu2 op c wd wa wb s = .next (s.aluDone c wd (op (s.reg c wa) (s.reg c wb) (flagC (s.core c.val).flg))) :=
  issue_next h

theorem alu1_next {op : Word → Alu} {legal : Bool} (h : Issues s c) (hl : legal = true) :
    alu1 legal op c wd wa s = .next (s.aluDone c wd (op (s.reg c wa))) :=
  issueIf_legal h hl

/-- R488: the sum with no carry in. -/
theorem opAdd_eq : opAdd x y = ⟨x + y, decide (2 ^ 36 ≤ x.toNat + y.toNat), outside (x.toInt + y.toInt)⟩ := by
  simp [opAdd, opAddC]

/-- R488: the difference with no borrow in. -/
theorem opSub_eq : opSub x y = ⟨x - y, decide (y.toNat ≤ x.toNat), outside (x.toInt - y.toInt)⟩ := by
  simp [opSub, opSubC]

/-- Settles O44: past issue, each instruction is its operation on both sources; ADD and SUB have no carry in. -/
theorem twoSourceInstructionsComplete : Obligations.TwoSourceInstructionsComplete := by
  unfold Obligations.TwoSourceInstructionsComplete
  intro c wd wa wb s h x y cin
  rw [← opAdd_eq, ← opSub_eq]
  exact ⟨(alu2_next h : execAdd c wd wa wb s = _), (alu2_next h : execAdc c wd wa wb s = _),
    (alu2_next h : execSub c wd wa wb s = _), (alu2_next h : execSbc c wd wa wb s = _),
    (alu2_next h : execAnd c wd wa wb s = _), (alu2_next h : execOr c wd wa wb s = _),
    (alu2_next h : execXor c wd wa wb s = _), (alu2_next h : execAndn c wd wa wb s = _),
    (alu2_next h : execShl c wd wa wb s = _), (alu2_next h : execShr c wd wa wb s = _),
    (alu2_next h : execSar c wd wa wb s = _), (alu2_next h : execRol c wd wa wb s = _),
    (alu2_next h : execRor c wd wa wb s = _), (alu2_next h : execMul c wd wa wb s = _),
    (alu2_next h : execMulh c wd wa wb s = _), (alu2_next h : execMulhu c wd wa wb s = _),
    (alu2_next h : execDiv c wd wa wb s = _), (alu2_next h : execDivu c wd wa wb s = _),
    (alu2_next h : execRem c wd wa wb s = _), (alu2_next h : execRemu c wd wa wb s = _),
    (alu2_next h : execNprm c wd wa wb s = _)⟩

/-- Settles O45: past issue, each instruction is its operation on the source, and all of its words are legal. -/
theorem oneSourceInstructionsComplete : Obligations.OneSourceInstructionsComplete := by
  unfold Obligations.OneSourceInstructionsComplete
  intro c wd wa s h x
  exact ⟨(alu1_next h rfl : execClz c wd wa s = _), (alu1_next h rfl : execCtz c wd wa s = _),
    (alu1_next h rfl : execPopc c wd wa s = _), (alu1_next h rfl : execOpk c wd wa s = _),
    (alu1_next h rfl : execOpkl c wd wa s = _), (alu1_next h rfl : execOupk c wd wa s = _),
    (alu1_next h rfl : execOupkl c wd wa s = _)⟩

/-! ### Immediates (R491, R493) -/

variable {imm : BitVec 18} {pos len : BitVec 6} {k n : Nat}

/-- R491: NPRMI takes a selector below 256. -/
theorem execNprmi_next (h : Issues s c) (himm : imm.toNat < 256) :
    execNprmi c wd wa imm s = .next (s.aluDone c wd (opNprm (s.reg c wa) imm.toNat)) := by
  rw [execNprmi, alu1_next h (decide_eq_true himm), Nat.mod_eq_of_lt himm]

/-- R491: the shift that bits 17:15 of SHI's immediate choose. -/
def shiBy (k : Nat) (x : Word) (n : Nat) : Alu :=
  match k with
  | 0 => opShl x n
  | 1 => opShr x n
  | 2 => opSar x n
  | 3 => opRol x n
  | _ => opRor x n

theorem opShi_eq : opShi x imm = shiBy (imm.toNat / 2 ^ 15) x (imm.toNat % 64) := rfl

/-- R491: an SHI immediate is legal with its amount in bits 5:0, at most 35, and 0 between the two fields. -/
theorem execShi_next (h : Issues s c) (hk : k ≤ 4) (hn : n < 36) (himm : imm.toNat = k * 2 ^ 15 + n) :
    execShi c wd wa imm s = .next (s.aluDone c wd (shiBy k (s.reg c wa) n)) := by
  have chosen : imm.toNat / 2 ^ 15 = k := by omega
  have amount : imm.toNat % 64 = n := by omega
  have legal : shiLegal imm = true := by
    simp only [shiLegal, chosen, amount, decide_eq_true_eq]; omega
  rw [execShi, alu1_next h legal, opShi_eq, chosen, amount]

/-- R493: a field that lies in the word. -/
theorem bfLegal_of_fits (hp : pos.toNat ≤ 35) (hl : 1 ≤ len.toNat) (hf : pos.toNat + len.toNat ≤ 36) :
    bfLegal pos.toNat len.toNat = true := by
  simp only [bfLegal, decide_eq_true_eq]; omega

/-- Settles O46: past issue and the check of the immediate or the field, each instruction is its operation. -/
theorem immediateInstructionsComplete : Obligations.ImmediateInstructionsComplete := by
  unfold Obligations.ImmediateInstructionsComplete
  constructor
  · intro c wd wa imm s h x i u
    rw [← opAdd_eq, ← opSub_eq]
    exact ⟨(alu1_next h rfl : execAddi c wd wa imm s = _), (alu1_next h rfl : execSubi c wd wa imm s = _),
      (alu1_next h rfl : execAndi c wd wa imm s = _), (alu1_next h rfl : execOri c wd wa imm s = _),
      (alu1_next h rfl : execXori c wd wa imm s = _), (alu1_next h rfl : execLui c wd imm s = _), execNprmi_next h,
      fun hn => execShi_next (k := 0) h (by omega) hn (by omega), fun n hn => execShi_next (k := 1) h (by omega) hn,
      fun n hn => execShi_next (k := 2) h (by omega) hn, fun n hn => execShi_next (k := 3) h (by omega) hn,
      fun n hn => execShi_next (k := 4) h (by omega) hn⟩
  · intro c wd wa pos len s h hp hl hf x p l
    have legal := bfLegal_of_fits hp hl hf
    exact ⟨(alu1_next h legal : execBfx c wd wa pos len s = _), (alu1_next h legal : execBfxs c wd wa pos len s = _),
      (alu1_next h legal : execBfi c wd wa pos len s = _)⟩

end Sys2Proof.Machine
end

section
/-! Loads of a core (R496, R498), and the instruction its program counter names (R482, R485). -/

namespace Sys2Proof.Machine
open Laws

variable {s t : State} {c : CoreId} {wd wa : Reg} {imm : BitVec 18} {a : Word} {n : Nat} {sgn at_ : Bool}

/-! ### Loads -/

theorem loadInto_issues (h : Issues s c) : loadInto n sgn c wd wa imm s =
    memLoad n false c (s.reg c wa + sext18 imm) s (fun s v => s.regDone c wd (loadExt n sgn v)) := by
  rw [loadInto, issueA_eq h]

/-- R496: a load of memory below the read map takes its nibs, extended. -/
theorem loadInto_memory (h : Issues s c) (ha : s.reg c wa + sext18 imm = a) (low : a.toNat < 0x10000000)
    (hr : regionOf s a.toNat ≠ some .device) (hb : s.safe.badWords.contains (a.toNat / 4 * 4) = false)
    (hm : memFault s c a n false false = none) :
    loadInto n sgn c wd wa imm s = .next (s.regDone c wd (loadExt n sgn (s.readNibs a.toNat n))) := by
  rw [loadInto_issues h, ha, memLoad_normal hm hr hb low]

/-- R462: LRES reserves the granule it loads from. -/
theorem execLres_memory (h : Issues s c) (ha : s.reg c wa + sext18 imm = a) (low : a.toNat < 0x10000000)
    (hr : regionOf s a.toNat ≠ some .device) (hb : s.safe.badWords.contains (a.toNat / 4 * 4) = false)
    (hm : memFault s c a 4 false true = none) :
    execLres c wd wa imm s = .next ((s.setCore c.val (fun k => { k with resv := some (a.toNat / 16 * 16) })).regDone c wd
      (BitVec.ofNat 36 (s.readNibs a.toNat 4))) := by
  rw [execLres, issueA_eq h, ha]
  exact memLoad_normal hm hr hb low

/-! Of a device (R33, R110), with no write of the core on its way to the block or to AON -/

section Device
variable {f : State → Nat → State} {w : Word} {code : Nat} (hm : memFault s c a n false at_ = none)
  (hr : regionOf s a.toNat = some .device) (hp : noneAhead s c.val (blkAt a.toNat) = true)
  (hq : ∀ p ∈ s.aonPend, p.src.req ≠ c.val)
include hm hr hp hq

theorem memLoad_device_word (hd : deviceRead s ⟨c.val, (s.core c.val).world⟩ a.toNat = (t, .word w)) :
    memLoad n at_ c a s f = .next (f t w.toNat) := by
  have none_waits : s.aonPend.any (fun w => w.src.req == c.val) = false := by simpa using hq
  simp [memLoad, devLoad, andThen, State.when, hm, hr, drainOwn_clear hp, none_waits, hd]

theorem memLoad_device_err (hd : deviceRead s ⟨c.val, (s.core c.val).world⟩ a.toNat = (t, .err code)) :
    memLoad n at_ c a s f = .next (t.fault c .load code a) := by
  have none_waits : s.aonPend.any (fun w => w.src.req == c.val) = false := by simpa using hq
  simp [memLoad, devLoad, andThen, State.when, hm, hr, drainOwn_clear hp, none_waits, hd]

end Device

theorem loadExt_word {w : Word} : loadExt 4 false w.toNat = w := by simp [loadExt]

/-- Settles O50: past the checks of R497 a load is of memory or the device's read, and the extension is its row's. -/
theorem loadsComplete : Obligations.LoadsComplete := by
  unfold Obligations.LoadsComplete
  constructor
  · intro c wd wa imm s h a low hr hb
    exact ⟨loadInto_memory h rfl low hr hb, loadInto_memory h rfl low hr hb, loadInto_memory h rfl low hr hb,
      loadInto_memory h rfl low hr hb, loadInto_memory h rfl low hr hb, execLres_memory h rfl low hr hb⟩
  · intro c wd wa imm s t h a hm hr hp hq
    have load : exec (.ldw c wd wa imm) s =
        memLoad 4 false c a s (fun s v => s.regDone c wd (loadExt 4 false v)) :=
      (loadInto_issues h : execLdw c wd wa imm s = _)
    rw [load]
    constructor
    · intro v hd
      rw [memLoad_device_word hm hr hp hq hd, loadExt_word]
    · intro code hd
      exact memLoad_device_err hm hr hp hq hd

/-! ### The word at the program counter -/

theorem fetchWord_uncached (h : icached (regionOf s (s.core c.val).pc.toNat) = false) :
    fetchWord s c = (s, fetched s c) := by
  simp [fetchWord, h]

theorem fetchWord_empty (h : (s.core c.val).icache = []) : (fetchWord s c).2 = fetched s c := by
  rw [fetchWord]
  split
  · rfl
  · simp [h]

/-- Settles O35: the word decoded chooses the meaning, and only a cached line can stand for memory's word. -/
theorem coreRunsTheWordAtItsPc : Obligations.CoreRunsTheWordAtItsPc := by
  unfold Obligations.CoreRunsTheWordAtItsPc
  refine ⟨fun c s i spelt => ?_, fun c s none_ h => ?_, fun c s h => ?_⟩
  · simp only [coreStep, spelt]
  · simp only [coreStep, none_]
    exact issue_next h
  · rcases h with uncached | empty
    · rw [fetchWord_uncached uncached, fetched]
    · rw [fetchWord_empty empty, fetched]

end Sys2Proof.Machine
end

section
/-! The conditions of Valnen-36, alone and after a comparison (R487, R488). -/

namespace Sys2Proof.Machine
open Laws

variable {s : State} {c : CoreId} {a : Alu} {x y : Word}

/-! ### The flags of a result (R451, R488) -/

@[simp] theorem flagN_packFlags : ∀ {n z c v : Bool}, flagN (packFlags n z c v) = n := by decide
@[simp] theorem flagZ_packFlags : ∀ {n z c v : Bool}, flagZ (packFlags n z c v) = z := by decide
@[simp] theorem flagC_packFlags : ∀ {n z c v : Bool}, flagC (packFlags n z c v) = c := by decide
@[simp] theorem flagV_packFlags : ∀ {n z c v : Bool}, flagV (packFlags n z c v) = v := by decide

@[simp] theorem flagN_flags : flagN a.flags = a.val.msb := flagN_packFlags
@[simp] theorem flagZ_flags : flagZ a.flags = (a.val == 0) := flagZ_packFlags
@[simp] theorem flagC_flags : flagC a.flags = a.c := flagC_packFlags
@[simp] theorem flagV_flags : flagV a.flags = a.v := flagV_packFlags

/-! ### The flags after SUB -/

theorem outside_iff {i : Int} : outside i = true ↔ i < -2 ^ 35 ∨ 2 ^ 35 ≤ i := decide_eq_true_iff

/-- The wrapped difference is the true one, or off by 2^36 where that is outside the signed range. -/
theorem sub_toInt_cases : let e := x.toInt - y.toInt
    ((x - y).toInt = e ∧ -2 ^ 35 ≤ e ∧ e < 2 ^ 35) ∨ ((x - y).toInt = e - 2 ^ 36 ∧ 2 ^ 35 ≤ e ∧ e < 2 ^ 36) ∨
    ((x - y).toInt = e + 2 ^ 36 ∧ e < -2 ^ 35 ∧ -2 ^ 36 ≤ e) := by
  intro e
  have hx := x.toInt_lt
  have hx' := x.le_toInt
  have hy := y.toInt_lt
  have hy' := y.le_toInt
  rw [BitVec.toInt_sub, Int.bmod_def]
  omega

theorem opSub_flagZ : flagZ (opSub x y).flags = true ↔ x = y := by
  rw [opSub_eq, flagZ_flags, beq_iff_eq]
  bv_omega

theorem opSub_flagC : flagC (opSub x y).flags = true ↔ y.toNat ≤ x.toNat := by
  simp [opSub_eq]

theorem opSub_flagN : flagN (opSub x y).flags = true ↔ (x - y).toInt < 0 := by
  simp [opSub_eq, BitVec.msb_eq_toInt]

theorem opSub_flagV : flagV (opSub x y).flags = true ↔ (x - y).toInt ≠ x.toInt - y.toInt := by
  have := sub_toInt_cases (x := x) (y := y)
  rw [opSub_eq, flagV_flags, outside_iff]
  omega

/-- R487: N and V agree after SUB exactly when the signed comparison finds x at least y. -/
theorem opSub_flagN_eq_flagV :
    flagN (opSub x y).flags = flagV (opSub x y).flags ↔ y.toInt ≤ x.toInt := by
  have := sub_toInt_cases (x := x) (y := y)
  rw [Bool.eq_iff_iff, opSub_flagN, opSub_flagV]
  omega

/-- R487: code 0xF. -/
theorem execBr_illegal {off : BitVec 24} (h : Issues s c) : execBr c 15 off s = .next (s.trap c .illegal) := by
  rw [execBr, issueIf, issue_next h]
  rfl

/-- Settles O15: each condition is its equation in the flags, and after SUB each flag is a comparison. -/
theorem conditionsAfterCompare : Obligations.ConditionsAfterCompare := by
  unfold Obligations.ConditionsAfterCompare
  refine ⟨?rows, fun c off s h => execBr_illegal h, ?compare⟩
  case rows =>
    intro f
    exact ⟨rfl, rfl, rfl, rfl, rfl, rfl, rfl, rfl, rfl, rfl, rfl, rfl, rfl, rfl, rfl⟩
  case compare =>
    intro x y f
    have z : flagZ f = true ↔ x = y := opSub_flagZ
    have c : flagC f = true ↔ y.toNat ≤ x.toNat := opSub_flagC
    have n : flagN f = true ↔ (x - y).toInt < 0 := opSub_flagN
    have v : flagV f = true ↔ (x - y).toInt ≠ x.toInt - y.toInt := opSub_flagV
    have ge : flagN f = flagV f ↔ y.toInt ≤ x.toInt := opSub_flagN_eq_flagV
    have unsigned : x = y ↔ x.toNat = y.toNat := BitVec.toNat_inj.symm
    have signed : x.toNat = y.toNat ↔ x.toInt = y.toInt := unsigned.symm.trans BitVec.toInt_inj.symm
    simp only [condHolds, Bool.and_eq_true, Bool.or_eq_true, Bool.not_eq_true', ← Bool.not_eq_true, beq_iff_eq,
      bne_iff_ne, ne_eq, z, c, n, v, ge, unsigned, iff_self, true_and, and_true]
    and_intros
    all_goals omega

end Sys2Proof.Machine
end

section
/-! Shifts and rotates of Valnen-36 (R490). -/

namespace Sys2Proof.Machine
open Laws

variable {x : Word} {i n : Nat}

theorem bitB_iff : bitB x i = true ↔ x.toNat / 2 ^ i % 2 = 1 := by
  rw [bitB, ← BitVec.testBit_toNat, Nat.testBit_eq_decide_div_mod_eq, decide_eq_true_eq]

/-! ### Shifts to the left and to the right -/

theorem opShl_val : (opShl x n).val.toNat = x.toNat * 2 ^ n % 2 ^ 36 := by
  unfold opShl
  split
  next zero => rw [zero, Nat.pow_zero, Nat.mul_one, Nat.mod_eq_of_lt x.isLt]
  split
  next => rw [BitVec.toNat_shiftLeft, Nat.shiftLeft_eq]
  next =>
    have out : 2 ^ 36 ∣ x.toNat * 2 ^ n := Nat.dvd_mul_left_of_dvd (Nat.pow_dvd_pow 2 (by omega)) _
    exact (Nat.mod_eq_zero_of_dvd out).symm

theorem opShl_c : (opShl x n).c = true ↔ 1 ≤ n ∧ n ≤ 36 ∧ x.toNat / 2 ^ (36 - n) % 2 = 1 := by
  unfold opShl
  split
  next zero => exact iff_of_false Bool.false_ne_true (by omega)
  split
  next => rw [bitB_iff]; omega
  next out => exact iff_of_false Bool.false_ne_true fun h => out h.2.1

theorem opShr_val : (opShr x n).val.toNat = x.toNat / 2 ^ n := by
  unfold opShr
  split
  next zero => rw [zero, Nat.pow_zero, Nat.div_one]
  split
  next => rw [BitVec.toNat_ushiftRight, Nat.shiftRight_eq_div_pow]
  next =>
    have out : x.toNat < 2 ^ n := Nat.lt_of_lt_of_le x.isLt (Nat.pow_le_pow_right (by decide) (by omega))
    exact (Nat.div_eq_of_lt out).symm

theorem opShr_c : (opShr x n).c = true ↔ 1 ≤ n ∧ n ≤ 36 ∧ x.toNat / 2 ^ (n - 1) % 2 = 1 := by
  unfold opShr
  split
  next zero => exact iff_of_false Bool.false_ne_true (by omega)
  split
  next => rw [bitB_iff]; omega
  next out => exact iff_of_false Bool.false_ne_true fun h => out h.2.1

/-! ### The arithmetic shift -/

theorem sshiftRight_toInt : (x.sshiftRight n).toInt = x.toInt / 2 ^ n := by
  rw [BitVec.toInt_sshiftRight, Int.shiftRight_eq_div_pow]
  norm_cast

theorem sshiftRight_bit_zero : (x.sshiftRight n).getLsbD 0 = if n < 36 then x.getLsbD n else x.msb := by
  rw [BitVec.getLsbD_sshiftRight]
  rfl

/-- Past 35 places every bit is the sign's. -/
theorem sshiftRight_wide (h : 36 ≤ n) : x.sshiftRight n = x.sshiftRight 36 := by
  apply BitVec.eq_of_getLsbD_eq
  intro i hi
  rw [BitVec.getLsbD_sshiftRight, BitVec.getLsbD_sshiftRight, if_neg (by omega), if_neg (by omega)]

theorem toInt_odd_iff : x.toInt % 2 = 1 ↔ x.getLsbD 0 = true := by
  have low : x.getLsbD 0 = true ↔ x.toNat / 2 ^ 0 % 2 = 1 := bitB_iff
  rw [low, BitVec.toInt_eq_toNat_cond]
  split <;> omega

theorem opSar_val : (opSar x n).val = x.sshiftRight n := by
  unfold opSar
  split
  next zero => rw [zero, BitVec.sshiftRight_zero]
  split
  next => rfl
  next => exact (sshiftRight_wide (by omega)).symm

/-- Bit `i` of the signed number, whose sign stands for every bit above it. -/
theorem toInt_bit_iff : x.toInt / 2 ^ i % 2 = 1 ↔ (if i < 36 then x.getLsbD i else x.msb) = true := by
  rw [← sshiftRight_toInt, toInt_odd_iff, sshiftRight_bit_zero]

theorem opSar_c : (opSar x n).c = true ↔ 1 ≤ n ∧ x.toInt / 2 ^ (n - 1) % 2 = 1 := by
  rw [toInt_bit_iff]
  by_cases zero : n = 0
  · simp [opSar, zero]
  rw [and_iff_right (by omega), opSar, if_neg zero]
  by_cases small : n ≤ 36
  · rw [if_pos small, if_pos (by omega), bitB]
  · rw [if_neg small, if_neg (by omega)]

/-! ### Rotates -/

theorem opRol_eq : opRol x n = ⟨x.rotateLeft n, decide (n % 36 ≠ 0) && bitAt (x.rotateLeft n) 0, false⟩ := by
  rw [BitVec.rotateLeft_def]
  by_cases h : n % 36 = 0
  · simp [opRol, h, BitVec.ushiftRight_eq_zero]
  · simp [opRol, h, bitB, bitAt]

theorem opRor_eq : opRor x n = ⟨x.rotateRight n, decide (n % 36 ≠ 0) && bitAt (x.rotateRight n) 35, false⟩ := by
  rw [BitVec.rotateRight_def]
  by_cases h : n % 36 = 0
  · simp [opRor, h, BitVec.shiftLeft_eq_zero]
  · simp [opRor, h, bitAt, BitVec.msb_eq_getLsbD_last]

theorem opRol_bit (hi : i < 36) : bitAt (opRol x n).val ((i + n) % 36) = bitAt x i := by
  rw [opRol_eq, bitAt, BitVec.getLsbD_rotateLeft, bitAt]
  by_cases wraps : (i + n) % 36 < n % 36
  · have : 36 - n % 36 + (i + n) % 36 = i := by omega
    simp [wraps, this]
  · have : (i + n) % 36 - n % 36 = i := by omega
    simp [wraps, this, Nat.mod_lt]

theorem opRor_bit (hi : i < 36) : bitAt (opRor x n).val i = bitAt x ((i + n) % 36) := by
  rw [opRor_eq, bitAt, BitVec.getLsbD_rotateRight, bitAt]
  by_cases stays : i < 36 - n % 36
  · have : n % 36 + i = (i + n) % 36 := by omega
    simp [stays, this]
  · have : i - (36 - n % 36) = (i + n) % 36 := by omega
    simp [stays, this, hi]

theorem opRol_c : (opRol x n).c = true ↔ n % 36 ≠ 0 ∧ bitAt (opRol x n).val 0 = true := by
  simp [opRol_eq]

theorem opRor_c : (opRor x n).c = true ↔ n % 36 ≠ 0 ∧ bitAt (opRor x n).val 35 = true := by
  simp [opRor_eq]

theorem opShl_v : (opShl x n).v = false := by
  unfold opShl
  split
  · rfl
  · split <;> rfl

theorem opShr_v : (opShr x n).v = false := by
  unfold opShr
  split
  · rfl
  · split <;> rfl

theorem opSar_v : (opSar x n).v = false := by
  unfold opSar
  split
  · rfl
  · split <;> rfl

/-- Settles O16: the shifts by their number, signed or not, and the rotates bit by bit. -/
theorem shifts : Obligations.Shifts := by
  unfold Obligations.Shifts
  constructor
  · intro c wd wa wb s h
    exact ⟨(alu2_next h : execShl c wd wa wb s = _), (alu2_next h : execShr c wd wa wb s = _),
      (alu2_next h : execSar c wd wa wb s = _), (alu2_next h : execRol c wd wa wb s = _),
      (alu2_next h : execRor c wd wa wb s = _)⟩
  · intro x n _
    have sar : (opSar x n).val.toInt = x.toInt / 2 ^ n := by rw [opSar_val, sshiftRight_toInt]
    exact ⟨opShl_val, opShl_c, opShr_val, opShr_c, sar, opSar_c, fun i hi => ⟨opRol_bit hi, opRor_bit hi⟩, opRol_c,
      opRor_c, opShl_v, opShr_v, opSar_v, by rw [opRol_eq], by rw [opRor_eq]⟩

end Sys2Proof.Machine
end

section
/-! Multiplication and division of Valnen-36 (R492). -/

namespace Sys2Proof.Machine
open Laws

variable {x y : Word}

/-! ### Multiplication -/

theorem opMul_c : (opMul x y).c = true ↔ 2 ^ 36 - 1 < x.toNat * y.toNat := by
  rw [opMul, decide_eq_true_iff]; omega

theorem opMul_v : (opMul x y).v = true ↔ x.toInt * y.toInt < -2 ^ 35 ∨ 2 ^ 35 - 1 < x.toInt * y.toInt := by
  rw [opMul, outside_iff]; omega

/-! ### Division by 0 and division without a sign -/

theorem divisions_by_zero : opDiv x 0 = ⟨0, false, true⟩ ∧ opDivu x 0 = ⟨0, false, true⟩ ∧
    opRem x 0 = ⟨x, false, true⟩ ∧ opRemu x 0 = ⟨x, false, true⟩ := ⟨rfl, rfl, rfl, rfl⟩

theorem opDivu_eq (hy : y ≠ 0) : opDivu x y = logical (x / y) := if_neg hy
theorem opRemu_eq (hy : y ≠ 0) : opRemu x y = logical (x % y) := if_neg hy

/-! ### Signed division

The quotient is truncated, so the remainder takes the sign of x. -/

theorem toInt_ofInt_of_inside {i : Int} (h : outside i = false) : (BitVec.ofInt 36 i).toInt = i := by
  rw [← Bool.not_eq_true, outside_iff] at h
  exact BitVec.toInt_ofInt_eq_self (by decide) (by omega) (by omega)

theorem toInt_ne_zero (hy : y ≠ 0) : y.toInt ≠ 0 := fun h => hy (BitVec.toInt_inj.mp (h.trans BitVec.toInt_zero.symm))

theorem opDiv_eq (hy : y ≠ 0) : opDiv x y =
    ⟨BitVec.ofInt 36 (x.toInt.tdiv y.toInt), false, outside (x.toInt.tdiv y.toInt)⟩ := if_neg hy
theorem opRem_eq (hy : y ≠ 0) : opRem x y = logical (BitVec.ofInt 36 (x.toInt.tmod y.toInt)) := if_neg hy

theorem natAbs_tmod_lt {a b : Int} (hb : b ≠ 0) : (a.tmod b).natAbs < b.natAbs := by
  rw [Int.natAbs_tmod]
  exact Nat.mod_lt _ (Int.natAbs_pos.mpr hb)

/-- The one quotient of two words outside the signed range is that of -2^35 by -1. -/
theorem tdiv_inside (hy : y ≠ 0) (h : ¬ (x.toInt = -2 ^ 35 ∧ y.toInt = -1)) :
    outside (x.toInt.tdiv y.toInt) = false := by
  have nonzero := toInt_ne_zero hy
  have whole := Int.mul_tdiv_add_tmod x.toInt y.toInt
  have rest := natAbs_tmod_lt (a := x.toInt) nonzero
  have small := Int.natAbs_tdiv_le_natAbs x.toInt y.toInt
  have hx := x.toInt_lt
  have hx' := x.le_toInt
  have not_top : x.toInt.tdiv y.toInt ≠ 2 ^ 35 := by
    intro top
    rw [top] at whole
    omega
  rw [← Bool.not_eq_true, outside_iff]
  omega

theorem tmod_inside (hy : y ≠ 0) : outside (x.toInt.tmod y.toInt) = false := by
  have rest := natAbs_tmod_lt (a := x.toInt) (toInt_ne_zero hy)
  have hy := y.toInt_lt
  have hy' := y.le_toInt
  rw [← Bool.not_eq_true, outside_iff]
  omega

theorem tmod_sign {a b : Int} : a.tmod b = 0 ∨ (a.tmod b < 0 ↔ a < 0) := by
  by_cases neg : a < 0
  · have := Int.tmod_nonneg b (show 0 ≤ -a by omega)
    rw [Int.neg_tmod] at this
    omega
  · have := Int.tmod_nonneg b (Int.not_lt.mp neg)
    omega

theorem opDiv_toInt (hy : y ≠ 0) (h : ¬ (x.toInt = -2 ^ 35 ∧ y.toInt = -1)) :
    (opDiv x y).val.toInt = x.toInt.tdiv y.toInt := by
  rw [opDiv_eq hy]; exact toInt_ofInt_of_inside (tdiv_inside hy h)

theorem opRem_toInt (hy : y ≠ 0) : (opRem x y).val.toInt = x.toInt.tmod y.toInt := by
  rw [opRem_eq hy]; exact toInt_ofInt_of_inside (tmod_inside hy)

/-- Settles O17: unsigned division by its Euclidean equation, signed division by that of the truncated quotient, which
is in range but for -2^35 by -1. -/
theorem multiplyAndDivide : Obligations.MultiplyAndDivide := by
  unfold Obligations.MultiplyAndDivide
  constructor
  · intro c wd wa wb s h
    exact ⟨(alu2_next h : execMul c wd wa wb s = _), (alu2_next h : execMulh c wd wa wb s = _),
      (alu2_next h : execMulhu c wd wa wb s = _), (alu2_next h : execDiv c wd wa wb s = _),
      (alu2_next h : execDivu c wd wa wb s = _), (alu2_next h : execRem c wd wa wb s = _),
      (alu2_next h : execRemu c wd wa wb s = _)⟩
  intro x y
  refine ⟨opMul_c, opMul_v, rfl, rfl, rfl, rfl, ?zero, ?wraps, ?unsigned, ?signed⟩
  case zero =>
    rintro rfl
    exact divisions_by_zero
  case wraps =>
    intro hx hy
    have nonzero : y ≠ 0 := by
      rintro rfl
      exact absurd hy (by decide)
    rw [opDiv_eq nonzero, opRem_eq nonzero, hx, hy]
    decide
  case unsigned =>
    intro hy
    have pos : 0 < y.toNat := Nat.pos_of_ne_zero fun h => hy (BitVec.eq_of_toNat_eq h)
    simp only [opDivu_eq hy, opRemu_eq hy, logical, BitVec.toNat_udiv, BitVec.toNat_umod, and_self, and_true]
    exact ⟨Nat.div_add_mod' _ _, Nat.mod_lt _ pos⟩
  case signed =>
    intro hy h
    rw [opDiv_toInt hy h, opRem_toInt hy, opDiv_eq hy, opRem_eq hy]
    exact ⟨Int.tdiv_mul_add_tmod _ _, natAbs_tmod_lt (toInt_ne_zero hy), tmod_sign, rfl, tdiv_inside hy h, rfl, rfl⟩

end Sys2Proof.Machine
end

section
/-! Nib permutation and the octal packs of Valnen-36 (R494, R495). -/

namespace Sys2Proof.Machine
open Laws

variable {s : State} {c : CoreId} {x : Word} {k : Nat}

/-! ### NPRM (R494) -/

theorem lt_four_cases (hk : k < 4) : k = 0 ∨ k = 1 ∨ k = 2 ∨ k = 3 := by omega

theorem nibOf_append {n₃ n₂ n₁ n₀ : BitVec 9} (hk : k < 4) :
    nibOf (n₃ ++ n₂ ++ n₁ ++ n₀) k = [n₀, n₁, n₂, n₃].getD k 0 := by
  apply BitVec.eq_of_toNat_eq
  simp only [nibOf, extractLsb'_toNat_eq, toNat_append_eq_add]
  rcases lt_four_cases hk with rfl | rfl | rfl | rfl
  all_goals simp only [List.getD_cons_zero, List.getD_cons_succ]; omega

/-- Settles O18: NPRM and NPRMI are their operation, whose result is the four chosen nibs. -/
theorem nibPermute : Obligations.NibPermute := by
  unfold Obligations.NibPermute
  refine ⟨fun c wd wa wb s h => (alu2_next h : execNprm c wd wa wb s = _), fun c wd wa imm s h => execNprmi_next h,
    fun x sel k _ hk => (nibOf_append hk).trans ?_⟩
  rcases lt_four_cases hk with rfl | rfl | rfl | rfl
  · simp only [List.getD_cons_zero, Nat.pow_zero, Nat.div_one]
  all_goals rfl

/-! ### Packs (R495)

A word is four nibs of a mark above its octet; packed, its marks stand above its octets. -/

/-- Four nibs, each a mark above its octet (R4). -/
def inNibs (m₃ : BitVec 1) (o₃ : BitVec 8) (m₂ : BitVec 1) (o₂ : BitVec 8) (m₁ : BitVec 1) (o₁ : BitVec 8)
    (m₀ : BitVec 1) (o₀ : BitVec 8) : Word :=
  m₃ ++ o₃ ++ m₂ ++ o₂ ++ m₁ ++ o₁ ++ m₀ ++ o₀

/-- Four marks above four octets. -/
def packed (m₃ m₂ m₁ m₀ : BitVec 1) (o₃ o₂ o₁ o₀ : BitVec 8) : Word :=
  m₃ ++ m₂ ++ m₁ ++ m₀ ++ o₃ ++ o₂ ++ o₁ ++ o₀

theorem opOpk_val : (opOpk x).val = packed (markOf x 0) (markOf x 1) (markOf x 2) (markOf x 3)
    (octOf x 0) (octOf x 1) (octOf x 2) (octOf x 3) := rfl

theorem opOpkl_val : (opOpkl x).val = packed (markOf x 3) (markOf x 2) (markOf x 1) (markOf x 0)
    (octOf x 3) (octOf x 2) (octOf x 1) (octOf x 0) := rfl

theorem opOupk_val : (opOupk x).val = inNibs (bit1 x 32) (oct8 x 0) (bit1 x 33) (oct8 x 8)
    (bit1 x 34) (oct8 x 16) (bit1 x 35) (oct8 x 24) := rfl

theorem opOupkl_val : (opOupkl x).val = inNibs (bit1 x 35) (oct8 x 24) (bit1 x 34) (oct8 x 16)
    (bit1 x 33) (oct8 x 8) (bit1 x 32) (oct8 x 0) := rfl

section Parts
variable {m₃ m₂ m₁ m₀ : BitVec 1} {o₃ o₂ o₁ o₀ : BitVec 8}

theorem oct8_packed : let w := packed m₃ m₂ m₁ m₀ o₃ o₂ o₁ o₀
    oct8 w 0 = o₀ ∧ oct8 w 8 = o₁ ∧ oct8 w 16 = o₂ ∧ oct8 w 24 = o₃ := by
  simp only [oct8, packed, ← BitVec.toNat_inj, extractLsb'_toNat_eq, toNat_append_eq_add]
  omega

theorem bit1_packed : let w := packed m₃ m₂ m₁ m₀ o₃ o₂ o₁ o₀
    bit1 w 32 = m₀ ∧ bit1 w 33 = m₁ ∧ bit1 w 34 = m₂ ∧ bit1 w 35 = m₃ := by
  simp only [bit1, packed, ← BitVec.toNat_inj, extractLsb'_toNat_eq, toNat_append_eq_add]
  omega

theorem nibOf_inNibs : let w := inNibs m₃ o₃ m₂ o₂ m₁ o₁ m₀ o₀
    (nibOf w 0).toNat = m₀.toNat * 256 + o₀.toNat ∧ (nibOf w 1).toNat = m₁.toNat * 256 + o₁.toNat ∧
    (nibOf w 2).toNat = m₂.toNat * 256 + o₂.toNat ∧ (nibOf w 3).toNat = m₃.toNat * 256 + o₃.toNat := by
  simp only [nibOf, inNibs, extractLsb'_toNat_eq, toNat_append_eq_add]
  omega

end Parts

theorem inNibs_markOf_octOf : inNibs (markOf x 3) (octOf x 3) (markOf x 2) (octOf x 2) (markOf x 1) (octOf x 1)
    (markOf x 0) (octOf x 0) = x := by
  unfold inNibs markOf octOf
  iterate 7 rw [BitVec.extractLsb'_append_extractLsb'_eq_extractLsb']
  · exact BitVec.extractLsb'_eq_self
  all_goals rfl

theorem opOupk_opOpk : (opOupk (opOpk x).val).val = x := by
  simp only [opOupk_val, opOpk_val, oct8_packed, bit1_packed, inNibs_markOf_octOf]

theorem opOupkl_opOpkl : (opOupkl (opOpkl x).val).val = x := by
  simp only [opOupkl_val, opOpkl_val, oct8_packed, bit1_packed, inNibs_markOf_octOf]

theorem bitsOf_eq_oct8 {hi lo : Nat} (h : hi + 1 - lo = 8) : bitsOf x hi lo = (oct8 x lo).toNat := by
  rw [bitsOf, h, oct8]

theorem bitsOf_eq_bit1 {i : Nat} : bitsOf x i i = (bit1 x i).toNat := by
  rw [bitsOf, Nat.add_sub_cancel_left, bit1]

/-- Settles O19: the marks and the octets by their places in the packed word, and the nibs by theirs in the unpacked. -/
theorem packAndUnpack : Obligations.PackAndUnpack := by
  unfold Obligations.PackAndUnpack
  constructor
  · intro c wd wa s h
    obtain ⟨_, _, _, packs⟩ := oneSourceInstructionsComplete c wd wa s h
    exact packs
  · intro x
    refine ⟨fun k hk => ?_, opOupk_opOpk, opOupkl_opOpkl⟩
    have high : 31 - 8 * k + 1 - (24 - 8 * k) = 8 := by omega
    have low : 8 * k + 7 + 1 - 8 * k = 8 := by omega
    simp only [bitsOf_eq_oct8 high, bitsOf_eq_oct8 low, bitsOf_eq_bit1, opOpk_val, opOpkl_val, opOupk_val, opOupkl_val]
    rcases lt_four_cases hk with rfl | rfl | rfl | rfl
    all_goals simp [oct8_packed, bit1_packed, nibOf_inNibs]

end Sys2Proof.Machine
end

section
/-! The coprocessor instructions of a core that issues in TRUST and holds the grant, and the ends of CP0's runs
(R515–R520). -/

namespace Sys2Proof.Machine

/-- R516, R517: past issue, the world and the grant, an instruction for the port finds its unit in the state `t`. -/
structure ReachesUnit (c : CoreId) (port : Nat) (s t : State) : Prop where
  issues : Issues s c
  trust : (s.core c.val).world ≠ .opn
  granted : cpGranted s c port = true
  waited : (if port = 0 then cpWait s c else s) = t

variable {s t : State} {c : CoreId} {port : Nat} {legal : Bool} {wd wa : Reg} {idx : BitVec 8}

/-- R517: the units of CP0 run on, and its instructions wait for them. -/
theorem reachesUnit_cp0 (h : Issues s c) (hw : (s.core c.val).world ≠ .opn) (hg : cpGranted s c 0 = true) :
    ReachesUnit c 0 s (cpWait s c) := ⟨h, hw, hg, if_pos rfl⟩

/-- R519, R520: nothing of CP1 or CP2 runs on. -/
theorem reachesUnit_of_ne_cp0 (h : Issues s c) (hw : (s.core c.val).world ≠ .opn) (hg : cpGranted s c port = true)
    (hp : port ≠ 0) : ReachesUnit c port s s := ⟨h, hw, hg, if_neg hp⟩

theorem cpIssue_reaches {f : State → State} (r : ReachesUnit c port s t) (hl : legal = true) :
    cpIssue c port legal s f = .next (f t) := by
  have held : ¬(!cpGranted s c port) = true := by simp [r.granted]
  rw [cpIssue, issuePriv_trust r.issues hl r.trust, if_neg held, r.waited]

theorem cpRes_reaches {v : State → Word} (r : ReachesUnit c port s t) (hl : legal = true) :
    cpRes c port legal wd s v = .next (t.regDone c wd (v t)) := cpIssue_reaches r hl

theorem cpSet_reaches {g : State → CpSt → CpSt} (r : ReachesUnit c port s t) (hl : legal = true) :
    cpSet c port legal s g = .next ((t.setCp c (g t)).advance c) := cpIssue_reaches r hl

/-- R519: the product is rounded in CP1, and the state goes on from the rounding. -/
theorem macRes_reaches {x : State → Int} (r : ReachesUnit c 1 s t) (hi : idx.toNat < 8) :
    macRes c idx wd wa s x =
      let rounded := roundK t (x t * ((t.cp c).k.getD idx.toNat 0 : Int))
      .next (rounded.2.regDone c wd (BitVec.ofInt 36 (sat36 ((t.reg c wa).toInt + rounded.1)))) :=
  cpIssue_reaches r (decide_eq_true hi)

/-- R518: the message grows by the one word of SHAW. -/
theorem execShaw_reaches (r : ReachesUnit c 0 s t) (hi : idx = 0) :
    execShaw c wa idx s = .next ((t.setCp c (fun p =>
      { p with msg := p.msg ++ [wordN (bitsOf (t.reg c wa) 31 0)],
               shaBusy := decide (16 ≤ p.msg.length + 1) })).advance c) := by
  rw [execShaw, cpSet_reaches r (beq_iff_eq.2 hi)]
  simp only [List.length_append, List.length_singleton]

/-- Settles O49: the index makes each instruction legal, and in the state its unit is found in its effect is its
definition. -/
theorem coprocessorInstructionsComplete : Obligations.CoprocessorInstructionsComplete := by
  unfold Obligations.CoprocessorInstructionsComplete
  refine ⟨?cp0, ?cp1, ?cp2, ?completions⟩
  case cp0 =>
    intro c wd wa wb idx s h hw hg t
    have r : ReachesUnit c 0 s t := reachesUnit_cp0 h hw hg
    exact ⟨fun hi => (cpRes_reaches r (beq_iff_eq.2 hi) : execCrc32 c wd wa wb idx s = _),
      fun hi => (cpRes_reaches r (beq_iff_eq.2 hi) : execCrc32o c wd wa wb idx s = _),
      fun hi => (cpRes_reaches r (beq_iff_eq.2 hi) : execCrc16 c wd wa wb idx s = _),
      fun hi => (cpSet_reaches r (beq_iff_eq.2 hi) : execShainit c idx s = _),
      execShaw_reaches r,
      fun hi => (cpRes_reaches r (decide_eq_true hi) : execShard c wd idx s = _),
      fun hi => (cpSet_reaches r (decide_eq_true hi) : execAeskey c wa idx s = _),
      fun hi => (cpSet_reaches r (decide_eq_true hi) : execAesin c wa idx s = _),
      fun hi => (cpSet_reaches r (decide_eq_true hi) : execAesenc c idx s = _),
      fun hi => (cpSet_reaches r (decide_eq_true hi) : execAesdec c idx s = _),
      fun hi => (cpRes_reaches r (decide_eq_true hi) : execAesout c wd idx s = _)⟩
  case cp1 =>
    intro c wd wa wb idx s h hw hg
    have r : ReachesUnit c 1 s s := reachesUnit_of_ne_cp0 h hw hg (by decide)
    exact ⟨fun hi => (cpSet_reaches r (decide_eq_true hi) : execKset c wa idx s = _),
      fun hi => (cpRes_reaches r (decide_eq_true hi) : execKrd c wd idx s = _),
      fun hi => (macRes_reaches r hi : execLag c wd wa wb idx s = _),
      fun hi => (macRes_reaches r hi : execSqmac c wd wa wb idx s = _)⟩
  case cp2 =>
    intro c wd wa wb idx s h hw hg
    have r : ReachesUnit c 2 s s := reachesUnit_of_ne_cp0 h hw hg (by decide)
    exact ⟨fun hi => (cpSet_reaches r (decide_eq_true hi) : execPset c wa wb idx s = _),
      fun hi => (cpSet_reaches r (beq_iff_eq.2 hi) : execPclr c idx s = _),
      fun hi => (cpIssue_reaches r (beq_iff_eq.2 hi) : execMatch c wd wa idx s = _),
      fun hi => (cpRes_reaches r (beq_iff_eq.2 hi) : execMaplo c wd idx s = _),
      fun hi => (cpRes_reaches r (beq_iff_eq.2 hi) : execMaphi c wd idx s = _)⟩
  case completions =>
    intro c s
    have sha : execShaCompressionDone c s = (shaFinish s c).next := rfl
    have aes : execAesDone c s = (aesFinish s c).next := rfl
    exact ⟨sha, aes⟩

end Sys2Proof.Machine
end

section
/-! The queue of commands (log entries 2 and 20), and the command table, which gives no bits. -/

namespace Sys2Proof.Machine

/-- Settles O1: `step` takes the front command, or lets a tick pass where the queue is empty. -/
theorem stepServesTheFront : Obligations.StepServesTheFront := by
  unfold Obligations.StepServesTheFront
  constructor
  · intro c rest s
    rfl
  · intro s empty
    rw [step, empty]

/-- Settles O5: what is left behind the front command is what every step leaves (`step_kept`). -/
theorem queueIsServedInOrder : Obligations.QueueIsServedInOrder := by
  unfold Obligations.QueueIsServedInOrder
  intro s t h goesOn
  obtain ⟨queue, -⟩ := (step_kept h).out t goesOn
  exact queue

/-- Settles O33: `decodeTableWord` has no row to find. -/
theorem noTableWords : Obligations.NoTableWords := by
  unfold Obligations.NoTableWords
  intro nbits w
  rfl

end Sys2Proof.Machine
end

section
/-! Control transfers, system instructions and customer instructions of a core that issues (R452, R476, R478, R485,
R500–R502, R512). -/

namespace Sys2Proof.Machine
open Laws

variable {s : State} {c : CoreId} {wd wa wb : Reg} {num imm : BitVec 18}

/-- R500: JALR to a target that is a multiple of 4. -/
theorem execJalr_aligned (h : Issues s c) (ht : (s.reg c wa + sext18 imm).toNat % 4 = 0) :
    execJalr c wd wa imm s =
      .next ((s.setReg c wd ((s.core c.val).pc + 4)).jump c (s.reg c wa + sext18 imm)) := by
  rw [execJalr, issue_next h, if_neg (not_not_intro ht)]

/-- R461: JALR to any other target. -/
theorem execJalr_misaligned (h : Issues s c) (ht : (s.reg c wa + sext18 imm).toNat % 4 ≠ 0) :
    execJalr c wd wa imm s = .next (s.trap c .align) := by
  rw [execJalr, issue_next h, if_pos ht]

/-- R453: MFS in TRUST or SEAL, and in OPEN of the registers OPEN may read. -/
theorem execMfs_next (h : Issues s c) (hk : sysKnown c num.toNat = true)
    (hw : (s.core c.val).world ≠ .opn ∨ sysOpenRead num.toNat = true) :
    execMfs c wd num s = .next (s.regDone c wd (sysRead s c num.toNat)) := by
  have granted : ((s.core c.val).world == .opn && !sysOpenRead num.toNat) = false := by
    rcases hw with world | open_
    · simp [world]
    · simp [open_]
  rw [execMfs, issueIf_legal h hk, if_neg (Bool.not_eq_true _ ▸ granted)]

/-- R453, R502: MTS of a writable register in TRUST or SEAL, and in OPEN of FLG. -/
theorem execMts_next (h : Issues s c) (hk : sysKnown c num.toNat = true) (hr : sysRo num.toNat = false)
    (hw : (s.core c.val).world ≠ .opn ∨ num = 0) :
    execMts c wa num s =
      .next ((s.setCore c.val (fun k => sysWrite k num.toNat (s.reg c wa))).advance c) := by
  have granted : ((s.core c.val).world == .opn && num != 0) = false := by
    rcases hw with world | flg
    · simp [world]
    · simp [flg]
  rw [execMts, issueIf_legal h hk, if_neg (Bool.not_eq_true _ ▸ granted), if_neg (Bool.not_eq_true _ ▸ hr)]

/-- Settles O47: past issue and the check of its operands, each instruction is its effect. -/
theorem controlInstructionsComplete : Obligations.ControlInstructionsComplete := by
  unfold Obligations.ControlInstructionsComplete
  refine ⟨?br, ?jal, ?jalr, ?nop, ?sys, ?wait, ?mfs, ?mts, ?ux⟩
  case br =>
    intro c cond off s h hc pc
    exact (issueIf_legal h (bne_iff_ne.mpr hc) : execBr c cond off s = _)
  case jal =>
    intro c wl off s h pc
    exact (issue_next h : execJal c wl off s = _)
  case jalr =>
    intro c wd wa imm s h t
    exact ⟨execJalr_aligned h, execJalr_misaligned h⟩
  case nop =>
    intro c s h
    exact (issue_next h : execNop c s = _)
  case sys =>
    intro c imm s h
    exact (issue_next h : execSys c imm s = _)
  case wait =>
    intro c s h hw t
    exact (issuePriv_trust h rfl hw : execWait c s = _)
  case mfs =>
    intro c wd num s h hk hw
    exact execMfs_next h hk hw
  case mts =>
    intro c wa num s h hk hr hw
    exact execMts_next h hk hr hw
  case ux =>
    intro c n wd wa wb fn s h hc k e hd hl u
    have legal : (c.val != 4 && uxLegal hd wd wa wb fn.toNat) = true := by simp [hc, hl]
    exact (issueIf_legal h legal : execUx c n wd wa wb fn s = _)

end Sys2Proof.Machine
end

section
/-! Events. One whose condition holds acts, on an island that is ready (R14, R49; log entry 32); a timeout acts too, but
served in its own tick it waits for the tick's end (R11, R40; log entry 31). -/

namespace Sys2Proof.Machine

variable {s t : State} {e : Answer} {i : Island} {c : Bool} {x : Instr}

/-- Log entry 32: an event whose condition `c` holds. -/
theorem acts (he : e = .next (if c then t else s)) (hc : c = true) : e = .next t := by
  rw [he, if_pos hc]

theorem on_ready {a : Answer} (hr : s.ready i = true) : s.on i a = a := if_pos hr

/-- R14, R49: an event of an island that is ready. -/
theorem acts_ready (he : e = s.on i (.next (if c then t else s))) (hr : s.ready i = true) (hc : c = true) :
    e = .next t := by
  rw [he, on_ready hr, if_pos hc]

/-- Log entry 31: a timeout that falls in the present tick where `p` holds. -/
theorem timeout {d : Option Word} {p : Prop} (he : e = .next (s.expire d x (endOne x))) (hp : d = some s.now ↔ p)
    (hx : c = true → endOne x s = t) :
    (p → e = .next (s.waits x)) ∧ (c = true → endOne x s = t ∧ (¬ p → e = .next t)) := by
  refine ⟨fun now => ?_, fun hc => ⟨hx hc, fun later => ?_⟩⟩
  · rw [he, State.expire, if_pos (hp.mpr now)]
    rfl
  · rw [he, State.expire, if_neg (mt hp.mp later), hx hc]

theorem timeout_ready {d : Option Word} {p : Prop} (he : e = s.on i (.next (s.expire d x (endOne x))))
    (hp : d = some s.now ↔ p) (hx : c = true → endOne x s = t) (hr : s.ready i = true) :
    (p → e = .next (s.waits x)) ∧ (c = true → endOne x s = t ∧ (¬ p → e = .next t)) :=
  timeout (he.trans (on_ready hr)) hp hx

theorem ite_now {p : Prop} [Decidable p] : (if p then some s.now else none) = some s.now ↔ p := by
  split <;> simp [*]

end Sys2Proof.Machine
end

section
/-! Events of the channels, their protection and the feeds (R115–R179). -/

namespace Sys2Proof.Machine

/-- Settles O52: the timeouts, and the others by their conditions. -/
theorem protectionEventsComplete : Obligations.ProtectionEventsComplete := by
  unfold Obligations.ProtectionEventsComplete
  refine ⟨?pwmOnTimeEnd, ?currentLimitReached, ?ilimTimeTrip, ?regulationTimeClear, ?shortCircuitTrip, ?inrushWindowEnd,
    ?clampEnergyExceeded, ?clampLeakTick, ?parkonLimitFault, ?thermalLatch, ?thermalRelease, ?retryDelayExpiry,
    ?retryRestoreTimeout, ?mismatchDetect, ?mismatchPersistSafe, ?secondPathShutdown, ?openLoadOnDetect,
    ?offStateTestStart, ?offStateTestPhaseEnd, ?pairImbalance, ?wireModelEvaluation, ?arbiterCycle, ?feedOvercurrent,
    ?feedUndervoltage, ?feedOvervoltageHold, ?feedVoltageRecovery, ?reverseBattery, ?heartbeatExpiry, ?holdExpiry,
    ?currentSenseCrossCheck⟩
  case inrushWindowEnd | retryDelayExpiry | heartbeatExpiry | holdExpiry =>
    intros; exact timeout rfl .rfl (if_pos ·)
  case feedOvercurrent | feedUndervoltage | feedOvervoltageHold | feedVoltageRecovery | reverseBattery =>
    intros; exact acts_ready rfl ‹_› ‹_›
  case pwmOnTimeEnd | currentLimitReached | ilimTimeTrip | regulationTimeClear | shortCircuitTrip | clampEnergyExceeded |
      clampLeakTick | parkonLimitFault | thermalLatch | thermalRelease | retryRestoreTimeout | mismatchDetect |
      mismatchPersistSafe | secondPathShutdown | openLoadOnDetect | offStateTestStart | offStateTestPhaseEnd |
      pairImbalance | wireModelEvaluation | arbiterCycle | currentSenseCrossCheck =>
    intros; exact acts rfl ‹_›

end Sys2Proof.Machine
end

section
/-! Events of bridges, motion and strokes (R180–R246). -/

namespace Sys2Proof.Machine

variable {s : State} {k : Nat}

/-- R200: the stall condition has lasted since `t`. -/
theorem stallSample_since {current : Nat} {t : Word} (hs : stalled s k current = true)
    (ht : (s.mo k).stallAt = some t) : stallSample k current s =
      if ms (s.get (motP k) MOT_LIMIT_STALLT) ≤ (s.now - t).toNat then
        stallDetectEffect k (s.setMo k (fun m => { m with stallAt := none }))
      else s.setMo k (fun m => { m with stallAt := some t }) := by
  simp [stallSample, hs, ht]

theorem stkDuty_below (h : (phaseActive (stkPhase s k) && dutyReached s k) = false) : stkDuty s k = s :=
  if_neg (Bool.not_eq_true _ ▸ h)

/-- R227: a phase of a stroke that ends below the duty limit. -/
theorem phaseServe_below {ph : Nat} {act : State → State}
    (h : (stkThere s k && stkLead s k == k && stkPhase s k == ph && s.due (s.sk k).phaseEnd &&
      !(phaseActive (stkPhase s k) && dutyReached s k)) = true) : phaseServe k ph act s = act s := by
  obtain ⟨ends, below⟩ := Bool.and_eq_true_iff.mp h
  have phase : (stkPhase s k == ph) = true := (Bool.and_eq_true_iff.mp (Bool.and_eq_true_iff.mp ends).1).2
  rw [phaseServe, State.when, if_pos ends, stkDuty_below ((Bool.not_eq_true' _).mp below)]
  exact if_pos phase

/-- Settles O53: the timeouts, those of a stroke's phases below the duty limit, and the others by their conditions. -/
theorem motionAndStrokeEventsComplete : Obligations.MotionAndStrokeEventsComplete := by
  unfold Obligations.MotionAndStrokeEventsComplete
  refine ⟨?pwmPeriodBoundary, ?softStartEnd, ?rippleDetect, ?rippleGapCorrection, ?rippleCountEnd, ?forceEstimate,
    ?pinchBrakeEnd, ?pinchReversalEnd, ?stallDetect, ?brakeTimeEnd, ?gotoTargetReached, ?moveTimeout, ?wiperParkEdge,
    ?wiperStartPulse, ?wiperCycleTimeout, ?stkRuleFire, ?stkRuleRelease, ?peakArrival, ?boostTimeout, ?lateWindowFault,
    ?stkPeakTimeEnd, ?stkHoldTimeEnd, ?quenchEnd, ?chopCurrentReached, ?chopOffTimeEnd, ?dutyLimitReached,
    ?dutySegmentRoll⟩
  case softStartEnd | rippleDetect | rippleGapCorrection | rippleCountEnd | forceEstimate | pinchBrakeEnd |
      pinchReversalEnd | brakeTimeEnd | gotoTargetReached | lateWindowFault | chopCurrentReached | chopOffTimeEnd |
      dutyLimitReached | dutySegmentRoll =>
    intros; exact acts rfl ‹_›
  case moveTimeout | wiperCycleTimeout => intros; exact timeout rfl .rfl (if_pos ·)
  case boostTimeout => exact fun k s => timeout rfl .rfl fun h => (phaseServe_below h : boostServe k s = _)
  case stkPeakTimeEnd => exact fun k i s => timeout rfl .rfl fun h => (phaseServe_below h : peakServe k i s = _)
  case stkHoldTimeEnd => exact fun k s => timeout rfl .rfl fun h => (phaseServe_below h : holdTimeServe k s = _)
  case quenchEnd => exact fun k s => timeout rfl .rfl fun h => (phaseServe_below h : quenchServe k s = _)
  case pwmPeriodBoundary =>
    intro s
    obtain ⟨now, later⟩ := timeout (c := true) (t := pwmBoundaries s) (e := exec .pwmPeriodBoundary s) rfl ite_now
      fun _ => rfl
    exact ⟨now, rfl, fun h => (later rfl).2 (Bool.not_eq_true _ ▸ h)⟩
  case wiperParkEdge =>
    intro k s hr
    obtain ⟨now, later⟩ := timeout_ready (e := exec (.wiperParkEdge k) s)
      (c := motThere s k && motKind s k == 2) (t := wiperParkEdgeEffect k s) rfl Option.some_inj (if_pos ·) hr
    exact ⟨now rfl, fun h => (later h).1⟩
  case wiperStartPulse | stkRuleFire | stkRuleRelease => intro k s hr; exact on_ready hr
  case stallDetect =>
    intro k current s t hc hs
    have sampled : exec (.stallDetect k current) s = .next (stallSample k current s) := acts rfl hc
    constructor
    · intro ht long
      rw [sampled, stallSample_since hs ht, if_pos long]
    · intro ht short
      rw [sampled, stallSample_since hs ht, if_neg (Nat.not_le.mpr short)]
  case peakArrival =>
    intro k s hc hd
    have arrives : exec (.peakArrival k) s = .next ((stkDuty s k).when
      (stkPhase (stkDuty s k) k == stkPhase s k) (peakArrivalEffect k)) := acts rfl hc
    rw [arrives, stkDuty_below hd, State.when, if_pos (beq_self_eq_true _)]

end Sys2Proof.Machine
end

section
/-! Events of strings, sinks, the matrix and the latch chain (R247–R276). -/

namespace Sys2Proof.Machine

/-- Settles O54: the timeouts, and the others by their conditions. -/
theorem lightingEventsComplete : Obligations.LightingEventsComplete := by
  unfold Obligations.LightingEventsComplete
  refine ⟨?stringFreqUpdate, ?stringPwmBoundary, ?stringOpen, ?stringOpenRetest, ?stringShort, ?stringOutputShort,
    ?stringThermal, ?sinkPwmBoundary, ?sinkOpen, ?sinkShort, ?sinkBankThermal, ?diagAgeExpiry, ?offtestStart,
    ?offtestEnd, ?matrixRowSlot, ?matrixRowTrip, ?lchRefresh, ?lchFrameEnd⟩
  case stringPwmBoundary | sinkPwmBoundary | matrixRowSlot => intros; exact timeout_ready rfl .rfl (if_pos ·) ‹_›
  case diagAgeExpiry => intros; exact timeout_ready rfl Option.some_inj (if_pos ·) ‹_›
  case stringFreqUpdate | stringOpen | stringOpenRetest | stringShort | stringOutputShort | stringThermal | sinkOpen |
      sinkShort | sinkBankThermal | offtestStart | offtestEnd | matrixRowTrip | lchRefresh | lchFrameEnd =>
    intros; exact acts_ready rfl ‹_› ‹_›

end Sys2Proof.Machine
end

section
/-! Events of inputs, timers, ruling, interrupts and the safety manager (R277–R317, R466–R479, R572–R578). -/

namespace Sys2Proof

theorem Blk.lastOff_inp : Blk.lastOff .inp = 0x2BC := by decide

end Sys2Proof

namespace Sys2Proof.Machine
open Laws

variable {s : State} {src : Src}

/-! ### A conversion (R288, R289) -/

theorem execAdcConversionDone_reached {volt : Int} {k : Nat} {t : Word} (hr : s.ready .tbase = true)
    (hk : s.inp.adPos = some k) (ht : s.inp.adEnd = some t) (hd : s.reached t = true) :
    execAdcConversionDone volt s =
      let p := inpI (adEntry s k)
      let d := s.drawn
      let at_ := t - BitVec.ofNat 36 (d.free.toNat % (us 1 + 1))
      let u := ((d.drawn.put p INP_ADRES_VAL (adResult s (adEntry s k) volt)).put p INP_ADRES_STAMP
        (at_.toNat % 2 ^ 23)).put p INP_ADRES_NEW 1
      .next { u with inp := { u.inp with
        adPos := some (k + 1)
        adEnd := if u.get inpB INP_ADCTRL_NSEQ ≤ k + 1 then none else some (u.after (us 1)) } } := by
  rw [execAdcConversionDone, on_ready hr]
  simp only [hk, ht, if_pos hd]
  rfl

/-! ### The presentation of an interrupt (R471) -/

theorem execInterruptPresent_none {t : Fin 5} (hd : isDown s = false) (hb : bestSource s t.val = none) :
    execInterruptPresent t s =
      .next (setIcu s.drawn (fun i => { i with presented := i.presented.set t.val none })) := by
  rw [execInterruptPresent, if_neg (Bool.not_eq_true _ ▸ hd), hb]
  rfl

/-- R479, R563: what is presented ends the WAIT of its core, LIFT, and an entry under way. -/
theorem execInterruptPresent_some {t : Fin 5} (hd : isDown s = false) (hb : (bestSource s t.val).isSome = true) :
    execInterruptPresent t s =
      let r := setIcu s.drawn (fun i => { i with presented := i.presented.set t.val (bestSource s t.val) })
      let u := setPwr (r.setCore t.val (fun k => { k with waiting := false })) (fun p => { p with state := .run })
      .next (if (s.core t.val).waiting then entryAbort u else u) := by
  rw [execInterruptPresent, if_neg (Bool.not_eq_true _ ▸ hd)]
  exact acts rfl hb

/-! ### The events of the next tick (R295, R297, R302, R311; log entry 20) -/

theorem posted_nil (h : s.posted = []) : { s with posted := [] } = s := by rw [← h]

theorem clockTick_over (ht : (tmrTickEnd (endTick s)).tbRun = true)
    (hp : (tickOver (tmrTickEnd (endTick s))).posted = []) :
    clockTick s = .next (tickOver (tmrTickEnd (endTick s))) := by
  simp only [clockTick, ht, hp, drainPosted, posted_nil hp]
  rfl

theorem tickIf_due {due : Bool} (hr : s.tbRun = true) (hd : due = true) (ht : (tmrTickEnd (endTick s)).tbRun = true)
    (hp : (tickOver (tmrTickEnd (endTick s))).posted = []) :
    tickIf due s = .next (tickOver (tmrTickEnd (endTick s))) := by
  rw [tickIf, hr, hd, Bool.and_self, if_pos rfl, idleTick, if_pos hr, clockTick_over ht hp]

/-! ### Reads that are commands (R289, R307) -/

theorem execAdcResultRead_ready {n : Fin 16} (hr : s.ready Blk.inp.island = true)
    (hn : noneAhead s src.req (some .inp) = true) :
    execAdcResultRead src n s = .next (s.put (inpI n.val) INP_ADRES_NEW 0) := by
  have offset : 0x240 + 4 * n.val ≤ 0x2BC := by omega
  refine (readCmd_block hn (by omega) (Blk.lastOff_inp ▸ offset) hr rfl).trans ?_
  have entry : (0x240 + 4 * n.val - 0x240) / 4 = n.val := by omega
  have page : 0x240 + 4 * n.val < 0x280 := by omega
  have base : 0x240 ≤ 0x240 + 4 * n.val := by omega
  simp only [readActs, base, page, entry, decide_true, Bool.and_self, if_true]
  rfl

theorem execTimerCountSnapshot_ready {n : Fin 32} (hr : s.ready Blk.tmr.island = true)
    (hn : noneAhead s src.req (some .tmr) = true) :
    execTimerCountSnapshot src n s = .next (tmrSnapshot s n.val) := by
  have offset : 0x10C + 0x40 * n.val ≤ 0x8E4 := by omega
  refine (readCmd_block hn (by omega) (Blk.lastOff_tmr ▸ offset) hr rfl).trans ?_
  have channel : (0x10C + 0x40 * n.val - 0x100) / 0x40 = n.val := by omega
  have register : (0x10C + 0x40 * n.val) % 0x40 = 0xC := by omega
  have page : 0x10C + 0x40 * n.val < 0x900 := by omega
  have base : 0x100 ≤ 0x10C + 0x40 * n.val := by omega
  simp [readActs, base, page, register, channel]

/-- Settles O55: the events of the next tick are that tick, the reads are of their blocks, and the others act by their
conditions. -/
theorem inputTimerAndSafetyEventsComplete : Obligations.InputTimerAndSafetyEventsComplete := by
  unfold Obligations.InputTimerAndSafetyEventsComplete
  refine ⟨?comparatorCrossing, ?adcScanPeriod, ?adcRuleStart, ?adcConversionDone, ?adcScanDone, ?timerRuleStart,
    ?timerRuleStop, ?timerCaptureRule, ?timerCaptureEdge, ?ruleEvent, ?nonePresented, ?onePresented, ?interruptTaken,
    ?safeFaultDetect, ?lockstepMismatch, ?votersPass, ?voterFails, ?sramScrub, ?nvmScrub, ?selftestOverdue,
    ?operatingRangeChange, ?timerPeriodEnd, ?timerCompareMatch, ?captureTimeout, ?ruleDelivery, ?inputScan,
    ?interruptClaim, ?adcResultRead, ?timerCapRead, ?timerCountSnapshot⟩
  case comparatorCrossing | adcScanPeriod | adcScanDone | timerCaptureRule | timerCaptureEdge | inputScan =>
    intros; exact acts_ready rfl ‹_› ‹_›
  case safeFaultDetect | selftestOverdue => intros; exact acts rfl ‹_›
  case adcRuleStart | timerRuleStart | timerRuleStop => intros; exact on_ready ‹_›
  case lockstepMismatch | votersPass | voterFails | sramScrub | nvmScrub | operatingRangeChange => intros; rfl
  case timerPeriodEnd | timerCompareMatch | captureTimeout | ruleDelivery =>
    intro n s hr hd t u ht hp; exact tickIf_due hr hd ht hp
  case adcConversionDone =>
    intro volt s k t hr hk ht hd p d at_ u
    exact execAdcConversionDone_reached hr hk ht hd
  case ruleEvent =>
    intro code rising s hr
    have ruled : exec (.ruleEvent code rising) s = .next (if (0x70 ≤ code ∧ code < 0x90) ∨
      (0x188 ≤ code ∧ code < 0x190) then raiseLevel s code rising else raiseSrc s code) := on_ready hr
    exact ⟨fun level => by rw [ruled, if_pos level], fun pulse => by rw [ruled, if_neg pulse]⟩
  case nonePresented => intro t s hd hb; exact execInterruptPresent_none hd hb
  case onePresented => intro t s hd hb r u; exact execInterruptPresent_some hd hb
  case interruptTaken =>
    intro c s k running stopped enabled level presented
    exact acts rfl (by rw [running, stopped, enabled, level, presented]; rfl)
  case interruptClaim => intro t src s hr hn; exact execInterruptClaim_ready hn hr
  case adcResultRead => intro src n s hr hn; exact execAdcResultRead_ready hr hn
  case timerCapRead => intro src n s hr hn; exact execTimerCapRead_ready hn hr
  case timerCountSnapshot => intro src n s hr hn; exact execTimerCountSnapshot_ready hr hn

end Sys2Proof.Machine
end

section
/-! Events of CAN and LIN (R318–R346). -/

namespace Sys2Proof.Machine

variable {s : State}

/-! ### Transmission (R334) -/

section Transmission
variable {n : Fin 8} {k : Nat} {ws : List Word}

theorem execCanArbitrationStart_loaded (hr : s.ready .net = true) (hb : (s.cn n.val).txBuf = some (k, ws))
    (ha : s.flag (canB n.val) CAN_STAT_ACTIVE = true) (ht : s.flag (canB n.val) CAN_STAT_TXING = false)
    (hl : (s.cn n.val).leaving = false) : execCanArbitrationStart n s = .next (canStart n.val k ws s) := by
  rw [execCanArbitrationStart, on_ready hr]
  simp only [hb]
  exact acts rfl (by simp [ha, ht, hl])

theorem execCanTxSuccess_loaded {stamp : Word} {delay : Nat} (hr : s.ready .net = true)
    (hb : (s.cn n.val).txBuf = some (k, ws)) (ht : s.flag (canB n.val) CAN_STAT_TXING = true)
    (hs : near stamp (s.cn n.val).sof = true) :
    execCanTxSuccess n stamp delay s =
      .next (if s.flag (canB n.val) CAN_TDC_TDCEN && txBrs s n.val && decide (127 < delay) then canDelayError n delay s
        else canSent n.val k stamp (tdcMeasured s n.val (some delay))) := by
  rw [execCanTxSuccess, on_ready hr]
  simp only [hb]
  exact acts rfl (by simp [ht, hs])

end Transmission

/-! ### A response (R343) and a wake-up signal (R346) -/

section Lin
variable {n : Fin 12} {h : LinHdr}

theorem execLinResponseReceived_inTime {data : List Nat} {sum : Nat} (hr : s.ready .net = true)
    (hh : (s.ln n.val).hdr = some h) (hs : linState s n.val = 1) (hd : s.get (linF n.val h.id) LIN_FCFG_DIR = 2)
    (hl : (s.now - h.fin).toNat ≤ linTimeout s n.val h) :
    let os := (List.range (s.get (linF n.val h.id) LIN_FCFG_LEN)).map (fun i => data.getD i 0)
    execLinResponseReceived n data sum s =
      .next (if sum = linChecksum s n.val h.id os then
          linReceived n.val h.id ((s.now - h.fin).toNat == linTimeout s n.val h) os s
        else linFault n.val h.id 2 s) := by
  intro os
  rw [execLinResponseReceived, on_ready hr]
  simp only [hh]
  exact acts rfl (by rw [hs, hd, decide_eq_true hl]; rfl)

theorem execLinResponseTimeout_error {err : Fin 6} (hr : s.ready .net = true) (hh : (s.ln n.val).hdr = some h)
    (hs : linState s n.val = 1) (h0 : err.val ≠ 0) (h1 : err.val ≠ 1) :
    execLinResponseTimeout n err s = .next (linFault n.val h.id err.val s) := by
  rw [execLinResponseTimeout, on_ready hr]
  simp only [hh, if_neg h1]
  exact acts rfl (by simp [hs, h0])

theorem execLinResponseTimeout_missing (hr : s.ready .net = true) (hh : (s.ln n.val).hdr = some h) :
    execLinResponseTimeout n 1 s = .next (s.expire (some (h.fin + BitVec.ofNat 36 (linTimeout s n.val h)))
      (.linResponseTimeout n 1) (endOne (.linResponseTimeout n 1))) := by
  have served : endOne (.linResponseTimeout n 1) = linMissServe n := rfl
  rw [execLinResponseTimeout, on_ready hr, served]
  simp only [hh]
  exact congrArg State.next (if_pos rfl)

theorem linMissServe_header (hh : (s.ln n.val).hdr = some h) (hs : linState s n.val = 1)
    (hd : s.get (linF n.val h.id) LIN_FCFG_DIR = 2)
    (hl : decide (linTimeout s n.val h ≤ (s.now - h.fin).toNat) = true) :
    linMissServe n s = linFault n.val h.id 1 s := by
  simp only [linMissServe, hh]
  exact if_pos (by rw [hs, hd, hl]; rfl)

/-- R346: a wake-up signal that ends no park state, and wakes the device from none. -/
theorem execLinWakeupDetect_up {fin : Word} 
    (hw : (s.flag (linB n.val) LIN_CTRL_WKEN && (isDown s || linState s n.val == 2)) = false)
    (hp : s.pwr.state = .run ∨ s.pwr.state = .lift) :
    execLinWakeupDetect n fin s = .next (
      if linState s n.val = 2 then
        linWake (if (s.ln n.val).sleepAt = some fin then s.put (linB n.val) LIN_STAT_COINCIDENT 1 else s) n.val fin
      else if linState s n.val = 1 then s.setLn n.val (fun k => { k with wakeAt := some fin, lastAct := s.now })
      else s) := by
  have up : (s.pwr.state == .park || s.pwr.state == .capped) = false := by
    rcases hp with run | lift
    · rw [run]; rfl
    · rw [lift]; rfl
  simp only [execLinWakeupDetect, hw, State.when, Bool.false_eq_true, if_false, up]
  rfl

/-- R346, R354: a wake-up signal that wakes the device, whose wake goes on in a park state. -/
theorem execLinWakeupDetect_down {fin : Word} {t : State} (ht : wakeDetect s 28 = t)
    (hw : s.flag (linB n.val) LIN_CTRL_WKEN = true) (hd : isDown s = true)
    (hp : t.pwr.state = .park ∨ t.pwr.state = .capped) (hk : t.flag (linB n.val) LIN_CTRL_WKEN = true) :
    execLinWakeupDetect n fin s = .next (t.setLn n.val (fun k => { k with wakeAt := some t.now })) := by
  have down : (t.pwr.state == .park || t.pwr.state == .capped) = true := by simpa using hp
  have detected : (s.flag (linB n.val) LIN_CTRL_WKEN && (isDown s || linState s n.val == 2)) = true := by
    rw [hw, hd]
    rfl
  have woken : s.when (s.flag (linB n.val) LIN_CTRL_WKEN && (isDown s || linState s n.val == 2))
    (fun s => wakeDetect s 28) = t := (if_pos detected).trans ht
  simp only [execLinWakeupDetect, woken, down, if_true]
  exact acts rfl hk

end Lin

/-- Settles O56: a buffer or a header under way is named by its hypothesis; the others act by their conditions. -/
theorem canAndLinEventsComplete : Obligations.CanAndLinEventsComplete := by
  unfold Obligations.CanAndLinEventsComplete
  refine ⟨?canErrorDetected, ?canProtocolException, ?canRecoveryDone, ?canTxSelection, ?canArbitrationStart,
    ?canTxSuccess, ?canTxLost, ?canDisableEffect, ?linSlotStart, ?linHeaderReceived, ?linResponseReceived,
    ?linResponseError, ?linResponseMissing, ?linSleepEntry, ?linIdleTimeout, ?wakeupAsleep, ?wakeupAwake, ?wakeupDown,
    ?linScheduleResume⟩
  case canErrorDetected | canProtocolException | canRecoveryDone | canTxLost | canDisableEffect | linSlotStart |
      linHeaderReceived | linSleepEntry | linScheduleResume =>
    intros; exact acts_ready rfl ‹_› ‹_›
  case linIdleTimeout => intros; exact timeout_ready rfl Option.some_inj (if_pos ·) ‹_›
  case canTxSelection =>
    intro n s hr ha ht t
    exact acts_ready (c := s.flag (canB n.val) CAN_STAT_ACTIVE && !s.flag (canB n.val) CAN_STAT_TXING) rfl hr
      (by simp [ha, ht])
  case canArbitrationStart =>
    intro n s k ws hr hb ha ht hl t
    refine (execCanArbitrationStart_loaded hr hb ha ht hl).trans ?_
    simp only [canStart, State.when, decide_eq_true_eq]
    rfl
  case canTxSuccess =>
    intro n stamp delay s k ws hr hb ht hs
    have sent : exec (.canTxSuccess n stamp delay) s = _ := execCanTxSuccess_loaded hr hb ht hs
    exact ⟨fun short => by rw [sent, if_neg (Bool.not_eq_true _ ▸ short)], fun long => by rw [sent, if_pos long]⟩
  case linResponseReceived =>
    intro n data sum s h hr hh hs hd hl os
    have received : exec (.linResponseReceived n data sum) s = _ := execLinResponseReceived_inTime hr hh hs hd hl
    exact ⟨fun good => by rw [received, if_pos good], fun bad => by rw [received, if_neg bad]⟩
  case linResponseError =>
    intro n err s h hr hh hs h0 h1
    exact execLinResponseTimeout_error hr hh hs h0 h1
  case linResponseMissing =>
    intro n s h hr hh hs hd dl
    obtain ⟨now, later⟩ := timeout (execLinResponseTimeout_missing hr hh) Option.some_inj
      (linMissServe_header hh hs hd)
    exact ⟨now, fun hl => later (decide_eq_true hl)⟩
  case wakeupAsleep =>
    intro n fin s hs hp hw hf
    refine (execLinWakeupDetect_up (by simp [hw]) hp).trans ?_
    rw [if_pos hs, if_neg hf]
  case wakeupAwake =>
    intro n fin s hs hp hd
    refine (execLinWakeupDetect_up (by simp [hs, hd]) hp).trans ?_
    rw [hs, if_neg (by decide), if_pos rfl]
  case wakeupDown =>
    intro n fin s hw hd t hp ht
    exact execLinWakeupDetect_down rfl hw hd hp ht

end Sys2Proof.Machine
end

section
/-! Events of Ethernet, the ring and network management (R347–R401). -/

namespace Sys2Proof.Machine

variable {s : State} {stamp : Word}

/-! ### Frames sent and keep-alives (R385, R386) -/

theorem execEthFrameSent_queued {p : Fin 6} {excess : Bool} (hr : s.ready .net = true) (hp : pastCount s stamp = true)
    (ht : s.flag (ethB p.val) ETH_STAT_TXRUN = true) (hd : bitAt (s.word (txDesc s p.val)) 35 = true)
    (hl : p.val < 4 ∨ s.flag (ethB p.val) TX_PHY_LINK = true) :
    execEthFrameSent p stamp excess false s = .next (ethSent p.val stamp excess s) := by
  have link : (decide (p.val < 4) || s.flag (ethB p.val) TX_PHY_LINK) = true := by simpa using hl
  rw [execEthFrameSent, on_ready hr]
  simp only [hp, Bool.not_true, Bool.false_eq_true, if_false]
  exact acts rfl (by rw [ht, hd, link]; rfl)

theorem execEthFrameSent_keepalive {p : Fin 6} (hr : s.ready .net = true) (hp : pastCount s stamp = true)
    (h4 : p.val < 4) (hk : kaReady s (8 + p.val) = true) :
    execEthFrameSent p stamp false true s =
      .next (kaSent (s.setEt p.val (fun k => { k with sent := ethPad (kaFrame s (8 + p.val)) }))
        (8 + p.val) stamp) := by
  rw [execEthFrameSent, on_ready hr]
  simp only [hp, Bool.not_true, Bool.false_eq_true, if_false, if_true]
  exact acts rfl (by rw [decide_eq_true h4, hk]; rfl)

theorem execNmgKeepaliveReceived_match {c : Fin 12} {fr : NetFrame} {nmid : Nat} (hr : s.ready .net = true)
    (he : s.flag (nmgP c.val) NMG_CTRL_EN = true) (ha : portActive s c.val = true) (hp : pastCount s stamp = true)
    (hm : kaMatch s c.val fr = some nmid) :
    execNmgKeepaliveReceived c fr stamp s = .next (kaReceived s c.val nmid stamp) := by
  rw [execNmgKeepaliveReceived, on_ready hr, he, ha, hp, hm]
  rfl

/-- R391: step 1 of the commit, 100 µs before it. -/
theorem execNmgDetectorArm_preparing {c : Fin 12} {t : Word} (hr : s.ready .net = true)
    (hc : (s.nm c.val).commit = some t) (hs : nmgState s c.val = 3)
    (ht : s.reached (t - BitVec.ofNat 36 (us 100)) = true) :
    execNmgDetectorArm c s = .next (s.setNm c.val (fun k => { k with armed := true, det := nmgDet s c.val })) := by
  rw [execNmgDetectorArm, on_ready hr]
  simp only [hc]
  exact acts rfl (by rw [hs, ht]; rfl)

/-- Settles O57: the timeouts, and the others by their conditions; a repeat time ends by a test of its own. -/
theorem ethernetRingAndNmgEventsComplete : Obligations.EthernetRingAndNmgEventsComplete := by
  unfold Obligations.EthernetRingAndNmgEventsComplete
  refine ⟨?ethFrameReceived, ?ethFrameSent, ?ethKeepaliveSent, ?ethLinkChange, ?ethDisable, ?ringFrameReceived,
    ?ringFrameReturn, ?ringAckTimeout, ?ringLinkTrained, ?ringLockLoss, ?ringSymbolLock, ?wakeToneReceived,
    ?ringBreakDetect, ?ringBreakSend, ?ringRelock, ?ringClaimSend, ?ringTimeTimeout, ?ringTimeSend,
    ?ringTimeReturnTimeout, ?ringCensusSend, ?nmgKeepaliveReceived, ?nmgSleepAbort, ?nmgKeepaliveDue, ?nmgIdleTimeout,
    ?nmgRepeatEnd, ?nmgDetectorArm, ?nmgSleepCommit, ?transceiverWake, ?wakeFrameDecode, ?nmgConfirmTimeout,
    ?transceiverService, ?transceiverServiceTimeout⟩
  case ethFrameReceived | ethLinkChange | ethDisable | ringFrameReceived | ringFrameReturn | ringLinkTrained |
      ringLockLoss | ringSymbolLock | ringBreakDetect | ringBreakSend | ringRelock | ringClaimSend | ringTimeSend |
      ringCensusSend | nmgSleepAbort =>
    intros; exact acts_ready rfl ‹_› ‹_›
  case transceiverWake | wakeFrameDecode | transceiverService => intros; exact acts rfl ‹_›
  case ringTimeReturnTimeout | nmgSleepCommit | nmgConfirmTimeout =>
    intros; exact timeout_ready rfl .rfl (if_pos ·) ‹_›
  case ringAckTimeout | ringTimeTimeout | nmgKeepaliveDue | nmgIdleTimeout =>
    intros; exact timeout_ready rfl Option.some_inj (if_pos ·) ‹_›
  case transceiverServiceTimeout => intros; exact timeout rfl Option.some_inj (if_pos ·)
  case nmgRepeatEnd =>
    intro c s hr hd t
    obtain ⟨now, later⟩ := timeout_ready (e := exec (.nmgRepeatEnd c) s) (c := s.due (s.nm c.val).repEnd) (t := t)
      rfl .rfl (if_pos ·) hr
    exact ⟨now, later hd⟩
  case ethFrameSent =>
    intro p stamp excess s hr hp ht hd hl
    exact execEthFrameSent_queued hr hp ht hd hl
  case ethKeepaliveSent =>
    intro p stamp s hr hp h4 hk
    exact execEthFrameSent_keepalive hr hp h4 hk
  case wakeToneReceived =>
    intro s t hr hs
    exact acts (c := t.ready .ring && ringState t == 3) rfl (by rw [hr, hs]; rfl)
  case nmgKeepaliveReceived =>
    intro c fr stamp s nmid hr he ha hp hm
    exact execNmgKeepaliveReceived_match hr he ha hp hm
  case nmgDetectorArm =>
    intro c s t hr hc hs ht
    exact execNmgDetectorArm_preparing hr hc hs ht

end Sys2Proof.Machine
end

section
/-! Events of the vault and the access unit (R402–R449). -/

namespace Sys2Proof.Machine

variable {s : State} {n node op : Nat}

/-! ### A key load (R410, R418, R427) -/

theorem execKeyLoadDone_unknown (hr : s.ready .signet = true) (hl : s.vault.load = some (n, node))
    (hp : kpolNode s node = none) : execKeyLoadDone s = .next (dropLoad s 0x07) := by
  rw [execKeyLoadDone, on_ready hr]
  simp only [hl, hp]
  rfl

theorem execKeyLoadDone_known {p : List Word} (hr : s.ready .signet = true) (hl : s.vault.load = some (n, node))
    (hp : kpolNode s node = some p) :
    execKeyLoadDone s =
      let r := if jobUses s n then cryptAbort s else s
      let t := if bitAt (slotReg r n) 35 && bitsOf (slotReg r n) 34 27 != node && accUses r n then accKeyLost r else r
      .next (vaultDone (setVault (fillSlot t n (nodeKey t 8 node) (slotAttrs p))
        (fun v => { v with load := none })) 0) := by
  rw [execKeyLoadDone, on_ready hr]
  simp only [hl, hp]
  rfl

/-! ### A signature verified (R405) -/

theorem execLcSignatureVerified_bad {dur : Nat} {src : Src} (hr : s.ready .signet = true)
    (hv : s.vault.verify = some (op, dur, false, src)) :
    execLcSignatureVerified s =
      .next (vaultDone ((setVault s (fun v => { v with verify := none })).reject .vault src 4 0x12) 0x12) := by
  rw [execLcSignatureVerified, on_ready hr]
  simp only [hv, Bool.not_false, if_true]
  rfl

theorem execLcSignatureVerified_service {dur : Nat} {src : Src} (hr : s.ready .signet = true)
    (hv : s.vault.verify = some (5, dur, true, src)) :
    execLcSignatureVerified s =
      let t := (setLc (setVault s (fun v => { v with verify := none })) 3).put vaultB VAULT_LC_SVCLEFT dur
      .next (vaultDone (setVault t (fun v => { v with svcMin := some (t.after (sec 60)) })) 0) := by
  rw [execLcSignatureVerified, on_ready hr]
  simp only [hv, Bool.not_true, Bool.false_eq_true, if_false, if_true]
  rfl

theorem execLcSignatureVerified_return {dur : Nat} {src : Src} (hr : s.ready .signet = true) (h5 : op ≠ 5)
    (hv : s.vault.verify = some (op, dur, true, src)) :
    execLcSignatureVerified s =
      .next (vaultDone (setLc (setVault s (fun v => { v with verify := none })) 4) 0) := by
  rw [execLcSignatureVerified, on_ready hr]
  simp only [hv, Bool.not_true, Bool.false_eq_true, if_false, if_neg h5]
  rfl

/-! ### The access unit (R428, R434, R441) -/

theorem execAttentionAssert_present {ch : Fin 2} (hp : accPresent s = true) (hr : s.ready .signet = true) :
    execAttentionAssert ch s =
      let t := s.put (accB + 4 * ch.val) ACC_CH_ATTN 1
      .next (wakeDetect (if accReady s && !s.acc.reading.getD ch.val false then startRead t ch.val else t)
        (25 - ch.val)) := by
  rw [execAttentionAssert, hp, hr]
  rfl

theorem execAccCommandAct_command {cmd : Nat} (hr : s.ready .signet = true) (he : s.acc.exec = some (n, cmd)) :
    execAccCommandAct s =
      let t := setAcc s (fun a => { a with ctrs := accCtrs s, exec := none, recVer := a.recVer + 1 })
      .next (
        if cmd = 1 then sessIgnition (sessUnlock t n)
        else if cmd = 2 then sessLock t
        else accIrq (((t.put accB ACC_FWCMD_PEND 1).put accB ACC_FWCMD_SLOT n).put accB ACC_FWCMD_CMD cmd) 7) := by
  rw [execAccCommandAct, on_ready hr]
  simp only [he]
  match cmd with
  | 0 | 1 | 2 | _ + 3 => rfl

theorem execAccLearnDone_learnt {cand : TokSet} {ctrs : List Nat} (hr : s.ready .signet = true)
    (hl : s.acc.learn = some (cand, ctrs)) :
    execAccLearnDone s =
      let b := if s.acc.commit = some 0 then 1 else 0
      let t := setAcc s (fun a => { a with
        banks := a.banks.set b (some cand), commit := some b, ctrs := ctrs, learn := none, recVer := a.recVer + 1,
        set := if a.set.isSome || accReady s then some cand else none })
      .next (accIrq (((showSet t cand ctrs).put accB ACC_LSTAT_BUSY 0).put accB ACC_LSTAT_DONE 1) 1) := by
  rw [execAccLearnDone, on_ready hr]
  simp only [hl]
  match s.acc.commit with
  | none | some 0 | some (_ + 1) => rfl

/-- Settles O58: the timeouts; a load, a verification, a command or a set learnt is named by its hypothesis; the others
act by their conditions. -/
theorem vaultAndAccessEventsComplete : Obligations.VaultAndAccessEventsComplete := by
  unfold Obligations.VaultAndAccessEventsComplete
  refine ⟨?cryptJobDone, ?unknownKey, ?knownKey, ?tamperDetect, ?tamperEraseDone, ?reservoirCharged, ?reservoirLow,
    ?badSignature, ?serviceVerified, ?returnVerified, ?challengeExpiry, ?serviceTimeEnd, ?sealCallTimeout,
    ?grantFrameSend, ?sessionTimeout, ?graceTimeout, ?accLoadingDone, ?attentionAssert, ?tokenReadEnd, ?tokenReadRepeat,
    ?accBackoffEnd, ?evalFrameEnd, ?accCommandAct, ?accLearnDone⟩
  case cryptJobDone | grantFrameSend | accLoadingDone | tokenReadEnd | tokenReadRepeat =>
    intros; exact acts_ready rfl ‹_› ‹_›
  case tamperDetect | tamperEraseDone | serviceTimeEnd => intros; exact acts rfl ‹_›
  case reservoirCharged | reservoirLow => intros; rfl
  case challengeExpiry | sessionTimeout | graceTimeout | accBackoffEnd | evalFrameEnd =>
    intros; exact timeout_ready rfl .rfl (if_pos ·) ‹_›
  case sealCallTimeout => intros; exact timeout_ready rfl Option.some_inj (if_pos ·) ‹_›
  case unknownKey => intro s n node hr hl hp; exact execKeyLoadDone_unknown hr hl hp
  case knownKey => intro s n node p hr hl hp r t; exact execKeyLoadDone_known hr hl hp
  case badSignature => intro s op dur src hr hv; exact execLcSignatureVerified_bad hr hv
  case serviceVerified => intro s dur src hr hv t; exact execLcSignatureVerified_service hr hv
  case returnVerified => intro s op dur src hr h5 hv; exact execLcSignatureVerified_return hr h5 hv
  case attentionAssert => intro ch s hp hr t; exact execAttentionAssert_present hp hr
  case accCommandAct => intro s n cmd hr he t; exact execAccCommandAct_command hr he
  case accLearnDone => intro s cand ctrs hr hl b t; exact execAccLearnDone_learnt hr hl

end Sys2Proof.Machine
end

section
/-! Resets, power states and wakes (R31, R45–R49, R106, R529, R555–R571, R597). -/

namespace Sys2Proof.Machine

variable {s : State} {tbp : Int} {b : BootIn} {n ns : Nat} {st : WakeStage}

/-! ### Entry to a power state (R561, R562) -/

theorem entryServe_reached {p : PState} {t : Word} (he : s.pwr.entry = some (p, t)) (ht : s.reached t = true) :
    entryServe s =
      let u := s.put pwrB PWR_STAT_ENTRY 0
      if p.code ≤ (islandCaps s).foldl min 5 then downAt u p else setPwr u (fun q => { q with entry := none }) := by
  simp only [entryServe, he]
  exact if_pos ht

/-! ### The stages of a wake (R566, R567) -/

theorem execWakeStageReady_logic (hs : s.pwr.stage = some .logic) (ht : stageInTime s.pwr.from_ .logic n = true) :
    execWakeStageReady n tbp b s =
      let t := wakeLog s .logic n
      .next (if t.pwr.from_ = .rest then restExit t else parkExit t (t.pwr.from_ == PState.capped) tbp) := by
  simp only [execWakeStageReady, hs, ht, Bool.not_true, Bool.false_eq_true, if_false]
  rfl

/-- R566, R567: the boot steps that end a wake are no stage with a limit. -/
theorem execWakeStageReady_boot (hs : s.pwr.stage = some .boot) :
    execWakeStageReady n tbp b s =
      let t := wakeLog s .boot n
      .next (wakeEnd (if t.pwr.from_ = .capped then cappedStart t b else parkStart t b)) := by
  have unbounded : stageInTime s.pwr.from_ .boot n = true := rfl
  simp only [execWakeStageReady, hs, unbounded, Bool.not_true, Bool.false_eq_true, if_false]
  rfl

theorem execWakeStageReady_pll (hs : s.pwr.stage = some .pll) (ht : stageInTime s.pwr.from_ .pll n = true) :
    execWakeStageReady n tbp b s = .next (setPwr (wakeLog s .pll n) (fun p => { p with
      pll1 := true, pll2 := true, pll1Lost := false, stage := some (nextStage p.from_ .pll) })) := by
  simp only [execWakeStageReady, hs, ht, Bool.not_true, Bool.false_eq_true, if_false]
  rfl

theorem execWakeStageReady_regulator (hs : s.pwr.stage = some .regulator)
    (ht : stageInTime s.pwr.from_ .regulator n = true) :
    execWakeStageReady n tbp b s = .next (setPwr (wakeLog s .regulator n) (fun p => { p with
      stage := some (nextStage p.from_ .regulator) })) := by
  simp only [execWakeStageReady, hs, ht, Bool.not_true, Bool.false_eq_true, if_false]
  rfl

/-- R567: after a first failure the sequence runs again from the regulator; a second one forces CAPPED. -/
theorem execWakeStageFailure_stage (hs : s.pwr.stage = some st) (hb : st ≠ .boot) :
    execWakeStageFailure s =
      let t := setPwr (s.putNat pwrB PWR_LAT_LAT (s.get pwrB PWR_LAT_LAT + 4 * st.limit s.pwr.from_))
        (fun p => { p with failedAny := true, pll1 := false, pll2 := false })
      .next (
        if t.pwr.retried = false then setPwr t (fun p => { p with stage := some .regulator, retried := true })
        else forcedCapped ((t.satField aonB AON_WAKEFLT_CNT).put aonB AON_WAKEFLT_STAGE st.code)) := by
  simp only [execWakeStageFailure, hs, Bool.not_eq_true']
  cases st with
  | boot => exact absurd rfl hb
  | regulator | oscillator | pll | memory | logic => rfl

/-! ### RESET_N (R593, R597; log entries 30 and 43) -/

/-- R593, R597: RESET_N is taken for asserted: beside a power-on reset of its tick it adds its cause, else it resets the
device. -/
def resetPinTaken (tbp : Int) (b : BootIn) (s : State) : State :=
  if s.boot.path = .por && s.boot.began == s.now then s.put sysB SYS_RSTCAUSE_EXT 1
  else setBoot (warmFrom s .external tbp b) (fun x => { x with ext := true })

theorem resetPinTaken_alone (h : ¬ (s.boot.path = .por ∧ s.boot.began = s.now)) :
    resetPinTaken tbp b s = setBoot (warmFrom s .external tbp b) (fun x => { x with ext := true }) :=
  if_neg (by simpa using h)

theorem resetPinTaken_withPor (hp : s.boot.path = .por) (hb : s.boot.began = s.now) :
    resetPinTaken tbp b s = s.put sysB SYS_RSTCAUSE_EXT 1 :=
  if_pos (by simp [hp, hb])

theorem execResetNAssert_long (hn : 1000 ≤ ns) (hp : resetPinOff s = false) :
    execResetNAssert ns tbp b s = .next (resetPinTaken tbp b s) := by
  have settled : decide (200 ≤ ns ∧ ns < 1000) = false := decide_eq_false (by omega)
  simp only [execResetNAssert, settled, State.when, decide_eq_true hn, hp, Bool.true_or, Bool.not_true, Bool.or_self,
    Bool.false_eq_true, if_false]
  rfl

theorem execResetNAssert_glitch (hn : ns < 200) : execResetNAssert ns tbp b s = .next s := by
  have settled : decide (200 ≤ ns ∧ ns < 1000) = false := decide_eq_false (by omega)
  have short : decide (200 ≤ ns) = false := decide_eq_false (by omega)
  have notLong : decide (1000 ≤ ns) = false := decide_eq_false (by omega)
  simp only [execResetNAssert, settled, short, notLong, State.when, Bool.false_and, Bool.or_self, Bool.not_false,
    Bool.true_or, Bool.false_eq_true, if_false, if_true]
  rfl

/-- R597: from 200 ns to 1 µs the spec leaves open whether the pulse is taken. -/
theorem execResetNAssert_between (h2 : 200 ≤ ns) (h10 : ns < 1000) (hp : resetPinOff s = false) :
    execResetNAssert ns tbp b s = .next (if s.freeBit then resetPinTaken tbp b s.drawn else s.drawn) := by
  have between : decide (200 ≤ ns ∧ ns < 1000) = true := decide_eq_true ⟨h2, h10⟩
  have notLong : decide (1000 ≤ ns) = false := decide_eq_false (by omega)
  have pin : resetPinOff s.drawn = false := hp
  simp only [execResetNAssert, between, notLong, State.when, decide_eq_true h2, pin, Bool.true_and, Bool.false_or,
    Bool.or_false, if_true]
  cases s.freeBit with
  | false => rfl
  | true => rfl

/-! ### The boot watchdog, the fabric and the voters (R31, R106, R529) -/

theorem execBootWatchdogExpiry_hung {k : Nat} (hm : s.boot.mode = .hung k)
    (ht : s.reached (s.boot.began + BitVec.ofNat 36 (sec 1)) = true) :
    execBootWatchdogExpiry b s = .next (warmStart (setBoot s (fun x => { x with hungAt := some k })) .watchdog b) := by
  simp only [execBootWatchdogExpiry, hm, ht, if_true]
  rfl

theorem execFabricTimeout_read {ecc : Bool} {c : CoreId} {addr : Nat} :
    let code := if ecc then 0x12 else 0x11
    let t := safeDetect (s.fabErr code c.val addr) 8 c.val
    canIssue t c = true →
      execFabricTimeout ecc c.val addr false s = .next (t.fault c .load code (BitVec.ofNat 36 addr)) := by
  intro code t hc
  simp only [execFabricTimeout, Bool.false_eq_true, if_false, dif_pos c.isLt]
  exact acts rfl hc

theorem execVoteCorrection_voted {blk : Blk} {off : Nat} {d : RegDesc} (hd : regDesc blk off = some d)
    (hr : s.ready blk.island = true) (hv : d.fields.any (fun f => f.voted) = true) :
    let t := (s.satField safeB SAFE_VOTE_VCNT).put safeB SAFE_VOTE_BLK ((blk.base - 0x40000000) / 0x10000)
    execVoteCorrection blk off s =
      .next ((t.put safeB SAFE_STAT_INFO 1).wr blk.lasterr (lasterrInfo (t.rd blk.lasterr) 0x08 off)) := by
  intro t
  simp only [execVoteCorrection, hd]
  exact acts rfl (by rw [hr, hv]; rfl)

/-- Settles O59: an entry, a stage, a pin or a mode is named by its hypothesis; the others act by their conditions. -/
theorem powerAndResetEventsComplete : Obligations.PowerAndResetEventsComplete := by
  unfold Obligations.PowerAndResetEventsComplete
  refine ⟨?powerStateChoice, ?parkEntryCommit, ?parkInputSample, ?logicReady, ?bootReady, ?pllReady, ?regulatorReady,
    ?wakeStageFailure, ?wakeRetry, ?aonWriteEffect, ?wakeDetect, ?alarm, ?rtcSecond, ?powerOnReset, ?resetPinAlone,
    ?resetPinWithPor, ?resetPinBetween, ?resetPinGlitch, ?warmReset, ?tamperReset, ?coreReset, ?bootWatchdogExpiry,
    ?safeResetAssert, ?pll1Loss, ?fabricWrite, ?fabricRead, ?voteCorrection⟩
  case parkInputSample | wakeRetry | pll1Loss => intros; exact acts rfl ‹_›
  case aonWriteEffect | rtcSecond | powerOnReset | coreReset | safeResetAssert | fabricWrite => intros; rfl
  case powerStateChoice =>
    intro save s running noEntry noStage up waiting deeper least
    have awake : (s.pwr.state == .run || s.pwr.state == .lift) = true := by simpa using up
    exact acts rfl (by rw [running, noEntry, noStage, awake, waiting, decide_eq_true deeper, decide_eq_true least]; rfl)
  case parkEntryCommit =>
    intro s st t he ht u v
    have falls : s.pwr.entry.map (·.2) = some s.now ↔ t = s.now := by simp [he]
    obtain ⟨now, later⟩ := timeout (e := exec .parkEntryCommit s) (c := true) (t := v) rfl falls
      fun _ => entryServe_reached he ht
    exact ⟨now, later rfl⟩
  case logicReady => intro n tbp b s hs ht t; exact execWakeStageReady_logic hs ht
  case bootReady => intro n tbp b s hs t; exact execWakeStageReady_boot hs
  case pllReady => intro n tbp b s hs ht; exact execWakeStageReady_pll hs ht
  case regulatorReady => intro n tbp b s hs ht; exact execWakeStageReady_regulator hs ht
  case wakeStageFailure => intro s st hs hb t; exact execWakeStageFailure_stage hs hb
  case wakeDetect =>
    intro src s hs hu
    have unit : ¬ src.val = 5 := fun h => hs (Fin.ext h)
    have detected : execWakeDetect src s = (s.when (unitOn s src) (fun s => wakeDetect s (wakeBit src))).next :=
      congrArg State.next (if_neg unit)
    exact acts detected hu
  case alarm => intro s ha; exact acts (s := s) rfl ha
  case resetPinAlone =>
    intro ns tbp b s hn hp alone
    exact (execResetNAssert_long hn hp).trans (by rw [resetPinTaken_alone alone])
  case resetPinWithPor =>
    intro ns tbp b s hn hp hpor hb
    exact (execResetNAssert_long hn hp).trans (by rw [resetPinTaken_withPor hpor hb])
  case resetPinBetween =>
    intro ns tbp b s h2 h10 hp alone
    exact (execResetNAssert_between h2 h10 hp).trans (by rw [resetPinTaken_alone (s := s.drawn) alone])
  case resetPinGlitch => intro ns tbp b s hn; exact execResetNAssert_glitch hn
  case warmReset =>
    intro tbp b s h
    exact congrArg State.next (if_neg (by simpa using h))
  case tamperReset =>
    intro tbp b s hw ht
    exact congrArg State.next (if_pos (by simp [hw, ht]))
  case bootWatchdogExpiry => intro b s k hm ht; exact execBootWatchdogExpiry_hung hm ht
  case fabricRead => intro ecc c addr s code t hc; exact execFabricTimeout_read hc
  case voteCorrection => intro blk off s d hd hr hv t; exact execVoteCorrection_voted hd hr hv

end Sys2Proof.Machine
end

section
/-! Events of updates, editions, the folio and recovery (R77–R89, R521–R550), and the arrival of a CAN frame (R326). -/

namespace Sys2Proof.Machine

variable {s : State}

/-! ### Commands that end (R83, R534–R536, R545) -/

theorem execUpdCommandDone_command {op : Nat} (hr : s.ready .store = true) (hc : s.upd.cmd = some op) :
    execUpdCommandDone s =
      let t := setUpd (s.put sysB SYS_UPDSTAT_BUSY 0) (fun u => { u with cmd := none })
      .next (if op = 2 then updData t s.upd.nw else if op = 3 then (updEnd t (pieces (updBufs s 0 4))).1 else t) := by
  rw [execUpdCommandDone, on_ready hr]
  simp only [hc]
  match op with
  | 0 | 1 | 2 | 3 | _ + 4 => rfl

theorem execNvRowWriteDone_row {a : Nat} {ws : List Word} (hr : s.ready .store = true) (hw : s.nvRow = some (a, ws)) :
    execNvRowWriteDone s =
      .next (((healBad ({ s.putWords a ws with nvRow := none }) a 256).put sysB SYS_NVSTAT_BUSY 0).put
        sysB SYS_NVSTAT_DONE 1) := by
  rw [execNvRowWriteDone, on_ready hr]
  simp only [hw]
  rfl

theorem execRefoldDone_rewritten {other : Bool} {req : Nat} {fs cans : List Nat} {isls : List Island} {h : List Word}
    {l : List (Nat × List Word)} (hc : s.folio.cmd = some (.rewritten other req fs cans isls))
    (hn : s.folio.next = some (h, l)) :
    execRefoldDone s = .next (folioEnd (refoldRewrite s other req cans isls ⟨h, l, none, none⟩) none) := by
  simp only [execRefoldDone, hc, hn]
  rfl

/-! ### Recovery's HELLO (R548, R550) -/

theorem execRecoveryHello_window (hd : s.due s.rcv.helloAt = true) (hm : s.boot.mode = .window) :
    execRecoveryHello s =
      .next (setRcv (helloSend s.drawn (s.free.toNat % 256)) (fun r => { r with helloAt := none })) := by
  simp only [execRecoveryHello, hd, hm, Bool.not_true, Bool.false_eq_true, if_false]
  rfl

theorem execRecoveryHello_recovery {reason : Nat} (hd : s.due s.rcv.helloAt = true)
    (hm : s.boot.mode = .recovery reason) (hg : s.rcv.gotManifest = false) :
    execRecoveryHello s =
      .next (setRcv (helloSend s reason) (fun r => { r with helloAt := some (s.after (sec 1)) })) := by
  simp only [execRecoveryHello, hd, hm, hg, Bool.not_true, Bool.false_eq_true, if_false]
  rfl

/-! ### A CAN frame (R321, R326, R549; log entry 52) -/

theorem execCanFrameReceived_other {n : Fin 8} {w0 stamp : Word} {dlc : BitVec 4} {data : List Nat}
    (hl : romListens s = false) (hr : s.ready .net = true) (hp : pastCount s stamp = true)
    (ht : canTakes s n.val false (bitAt w0 34) = true) :
    execCanFrameReceived n w0 dlc data stamp false s =
      .next (canReceive (rxGood s n.val) n.val w0 dlc.toNat data stamp) := by
  have arrives : canFrameIn n.val ⟨w0, dlc.toNat, data⟩ stamp s =
    canReceive (rxGood s n.val) n.val w0 dlc.toNat data stamp := if_pos ht
  simp only [execCanFrameReceived, hl, Bool.false_and, Bool.false_eq_true, if_false, on_ready hr]
  rw [← arrives]
  exact acts rfl hp

/-- R326: the controller's own frame, which is no message to the boot ROM. -/
theorem execCanFrameReceived_own {n : Fin 8} {w0 stamp : Word} {dlc : BitVec 4} {data : List Nat} {f : CanFrame}
    (hr : s.ready .net = true) (hn : near stamp (s.cn n.val).sof = true) (hb : (s.cn n.val).onBus = some f)
    (ht : canTakes s n.val true (bitAt f.w0 34) = true) :
    execCanFrameReceived n w0 dlc data stamp true s = .next (canReceive s n.val f.w0 f.dlc f.data stamp) := by
  have arrives : canOwnIn n.val stamp s = canReceive s n.val f.w0 f.dlc f.data stamp := by
    simp only [canOwnIn, hb]
    exact if_pos ht
  simp only [execCanFrameReceived, Bool.not_true, Bool.and_false, Bool.false_and, Bool.false_eq_true, if_false,
    if_true, on_ready hr]
  rw [← arrives]
  exact acts rfl hn

/-- The octets of a full frame, taken one by one. -/
theorem map_range_octets {data : List Nat} {k : Nat} (ho : ∀ o ∈ data, o < 256) (hl : data.length = k) :
    (List.range k).map (fun i => data.getD i 0 % 256) = data := by
  refine List.ext_getElem (by simp [hl]) fun i hi hd => ?_
  rw [List.getElem_map, List.getElem_range, List.getD_eq_getElem _ _ hd, Nat.mod_eq_of_lt (ho _ (List.getElem_mem hd))]

/-- R549: a tool's frame on CAN0 while the boot ROM listens. -/
theorem execCanFrameReceived_rom {w0 stamp : Word} {data : List Nat} (hl : romListens s = true)
    (hf : bitsOf w0 35 34 = 1) (hi : bitsOf w0 10 0 = 0x7E0) (ho : ∀ o ∈ data, o < 256) (h64 : data.length = 64) :
    execCanFrameReceived 0 w0 15 data stamp false s = .next (recFrame s false data) := by
  have message : (romListens s && (0 : Fin 8) == 0 && !false && bitsOf w0 35 34 == 1 && bitsOf w0 10 0 == 0x7E0 &&
    (15 : BitVec 4) == 15) = true := by rw [hl, hf, hi]; rfl
  rw [execCanFrameReceived, if_pos message, map_range_octets ho h64]
  rfl

/-- Settles O60: the timeouts; a command, a mode or a frame is named by its hypothesis; the others act by their
conditions. -/
theorem updateAndRecoveryEventsComplete : Obligations.UpdateAndRecoveryEventsComplete := by
  unfold Obligations.UpdateAndRecoveryEventsComplete
  refine ⟨?updCommandDone, ?trialTimeRecord, ?trialExpiry, ?nvRowWriteDone, ?otherVerified, ?refoldVerified,
    ?refoldDone, ?helloInWindow, ?helloInRecovery, ?recoveryAttn, ?recoveryRecover, ?recoveryManifest, ?recoveryData, ?recoveryEnd,
    ?recoveryOwner, ?recoveryDkimport, ?recoveryWindowEnd, ?recoverySegmentTimeout, ?dbgFrame, ?dbgOddLength,
    ?dbgLinkTimeout, ?frameFromOther, ?ownFrame, ?frameForRom⟩
  case trialTimeRecord => intros; exact acts rfl ‹_›
  case recoveryAttn | recoveryRecover | recoveryManifest | recoveryData | recoveryEnd | recoveryOwner |
      recoveryDkimport => intros; rfl
  case trialExpiry => intro s; exact timeout rfl ite_now (if_pos ·)
  case recoveryWindowEnd | recoverySegmentTimeout | dbgLinkTimeout => intro s; exact timeout rfl .rfl (if_pos ·)
  case updCommandDone => intro s op hr hc t; exact execUpdCommandDone_command hr hc
  case nvRowWriteDone => intro s a ws hr hw; exact execNvRowWriteDone_row hr hw
  case otherVerified =>
    intro s hc
    show execFolioVerifyEnd s = _
    simp only [execFolioVerifyEnd, hc]
    rfl
  case refoldVerified =>
    intro s other req hc
    show execFolioVerifyEnd s = _
    simp only [execFolioVerifyEnd, hc]
    rfl
  case refoldDone => intro s other req fs cans isls h l hc hn; exact execRefoldDone_rewritten hc hn
  case helloInWindow => intro s hd hm; exact execRecoveryHello_window hd hm
  case helloInRecovery => intro s reason hd hm hg; exact execRecoveryHello_recovery hd hm hg
  case dbgFrame =>
    intro octets s h64 t
    exact congrArg State.next (if_neg (not_not_intro h64))
  case dbgOddLength =>
    intro octets s h64
    exact congrArg State.next (if_pos h64)
  case frameFromOther => intro n w0 dlc data stamp s hl hr hp ht; exact execCanFrameReceived_other hl hr hp ht
  case ownFrame => intro n w0 dlc data stamp s f hr hn hb ht; exact execCanFrameReceived_own hr hn hb ht
  case frameForRom => intro w0 data stamp s hl hf hi ho h64; exact execCanFrameReceived_rom hl hf hi ho h64

end Sys2Proof.Machine
end
